-- ==== Sys2Proof/Word.lean ====
section
/-! DEFINITION. Word types of the machine (R4, R6, R69) and the sparse map with ordered keys that holds register
files, tables and memory as plain data. -/
namespace Sys2Proof

/-- A byte of memory. -/
abbrev Byte := BitVec 8
/-- A slot word, header word or extension word (R65). -/
abbrev Word := BitVec 32
/-- A scalar register, a system register image, a virtual address. -/
abbrev DWord := BitVec 64
/-- One vector register, operand register, mask or last-result entry: 1,024 bits (R6, R14). -/
abbrev VReg := BitVec 1024

/-- A finite map from natural keys, listed with keys strictly rising. -/
abbrev SMap (α : Type) := List (Nat × α)

namespace SMap

/-- The value listed at a key, if any. -/
def find {α : Type} : SMap α → Nat → Option α
  | [], _ => none
  | (k, v) :: m, i => if k = i then some v else find m i

/-- The value at a key, or the value every unlisted key has. -/
def get {α : Type} (d : α) (m : SMap α) (i : Nat) : α := (find m i).getD d

/-- Lists a value at a key, keeping the keys rising. -/
def put {α : Type} : SMap α → Nat → α → SMap α
  | [], i, v => [(i, v)]
  | (k, w) :: m, i, v =>
    if i < k then (i, v) :: (k, w) :: m
    else if i = k then (i, v) :: m
    else (k, w) :: put m i v

/-- Removes a key. -/
def del {α : Type} : SMap α → Nat → SMap α
  | [], _ => []
  | (k, w) :: m, i => if k = i then del m i else (k, w) :: del m i

/-- Sets a value where every unlisted key holds `d`: writing `d` removes the entry, so equal contents are equal
lists. -/
def set {α : Type} [DecidableEq α] (d : α) (m : SMap α) (i : Nat) (v : α) : SMap α :=
  if v = d then del m i else put m i v

/-- A key lies above a bound, if there is one. -/
def below : Option Nat → Nat → Bool
  | none, _ => true
  | some j, k => decide (j < k)

/-- The keys rise strictly from a bound. -/
def above {α : Type} : Option Nat → SMap α → Bool
  | _, [] => true
  | b, (k, _) :: m => below b k && above (some k) m

/-- Keys strictly rising, no entry equal to the default: the canonical form. -/
def canon {α : Type} [DecidableEq α] (d : α) (m : SMap α) : Bool :=
  above none m && m.all (fun p => decide (p.2 ≠ d))

/-- Every listed value changed, the keys kept. -/
def each {α : Type} (f : Nat → α → α) : SMap α → SMap α
  | [] => []
  | (k, v) :: m => (k, f k v) :: each f m

/-- The keys, in rising order. -/
def keys {α : Type} (m : SMap α) : List Nat := m.map Prod.fst

/-- The values, in rising order of their keys. -/
def vals {α : Type} (m : SMap α) : List α := m.map Prod.snd

end SMap

/-- Bits hi to lo of a word, as a natural number. -/
def bits {n : Nat} (x : BitVec n) (hi lo : Nat) : Nat := (x.toNat >>> lo) % 2 ^ (hi + 1 - lo)

/-- Bit i of a word. -/
def bit {n : Nat} (x : BitVec n) (i : Nat) : Bool := x.toNat.testBit i

/-- A word with bits hi to lo replaced by a value. -/
def withBits {n : Nat} (x : BitVec n) (hi lo : Nat) (v : Nat) : BitVec n :=
  BitVec.ofNat n (x.toNat - (bits x hi lo <<< lo) + ((v % 2 ^ (hi + 1 - lo)) <<< lo))

/-- Two's complement reading of the low w bits of a natural number. -/
def toSigned (w v : Nat) : Int :=
  let u := v % 2 ^ w
  if w = 0 then 0 else if u < 2 ^ (w - 1) then (u : Int) else (u : Int) - (2 ^ w : Nat)

/-- The low w bits of an integer, as a natural number. -/
def wrapInt (w : Nat) (z : Int) : Nat := (z % ((2 ^ w : Nat) : Int)).toNat

/-- One if true, else zero. -/
def b2n (b : Bool) : Nat := if b then 1 else 0

end Sys2Proof
end

