-- ==== Sys2Proof/Machine/Astc.lean ====
section
/-! DEFINITION. Decoding a 16-byte ASTC block under the LDR profile (R255). R255 names the Khronos Data Format Specification
and gives no procedure; the procedure here is that published standard's, from general knowledge (PRESUMED, log 17). -/
namespace Sys2Proof.Machine

open Sys2Proof

/-- n bits of a block from bit lo upwards. -/
def astcBits (v lo n : Nat) : Nat := v / 2 ^ lo % 2 ^ n

/-- The low `n` bits of a number in reverse order. -/
def reverseBits (v n : Nat) : Nat := (List.range n).foldl (fun r k => r * 2 + astcBits v k 1) 0

/-! ## Bounded integer sequences -/

/-- A range of a bounded integer sequence: a trit, a quint or neither, and so many bits. -/
structure AstcRange where
  trit : Bool := false
  quint : Bool := false
  bits : Nat
deriving DecidableEq, Repr

/-- The 21 ranges of 2 to 256 levels, in order of size. -/
def astcRanges : List AstcRange :=
  [{ bits := 1 }, { trit := true, bits := 0 }, { bits := 2 }, { quint := true, bits := 0 }, { trit := true, bits := 1 },
   { bits := 3 }, { quint := true, bits := 1 }, { trit := true, bits := 2 }, { bits := 4 }, { quint := true, bits := 2 },
   { trit := true, bits := 3 }] ++
  [{ bits := 5 }, { quint := true, bits := 3 }, { trit := true, bits := 4 }, { bits := 6 }, { quint := true, bits := 4 },
   { trit := true, bits := 5 }, { bits := 7 }, { quint := true, bits := 5 }, { trit := true, bits := 6 }, { bits := 8 }]

/-- Bits that n numbers of a range take. -/
def AstcRange.length (r : AstcRange) (n : Nat) : Nat :=
  r.bits * n + (if r.trit then (8 * n + 4) / 5 else if r.quint then (7 * n + 2) / 3 else 0)

/-- Five trits from their eight bits. -/
def astcTrits (t : Nat) : List Nat :=
  let b (lo n : Nat) : Nat := astcBits t lo n
  let all := decide (b 2 3 = 7)
  let c := if all then b 5 3 * 4 + b 0 2 else b 0 5
  let hi : Nat × Nat := if all then (2, 2) else if b 5 2 = 3 then (b 7 1, 2) else (b 5 2, b 7 1)
  let d (lo n : Nat) : Nat := astcBits c lo n
  let lo3 : List Nat :=
    if d 0 2 = 3 then [d 3 1 * 2 + d 2 1 * (1 - d 3 1), d 4 1, 2]
    else if d 2 2 = 3 then [d 0 2, 2, 2]
    else [d 1 1 * 2 + d 0 1 * (1 - d 1 1), d 2 2, d 4 1]
  lo3 ++ [hi.1, hi.2]

/-- Three quints from their seven bits. -/
def astcQuints (q : Nat) : List Nat :=
  let b (lo n : Nat) : Nat := astcBits q lo n
  if b 1 2 = 3 ∧ b 5 2 = 0 then [4, 4, b 0 1 * 4 + b 4 1 * (1 - b 0 1) * 2 + b 3 1 * (1 - b 0 1)]
  else
    let c := if b 1 2 = 3 then b 3 2 * 8 + (3 - b 5 2) * 2 + b 0 1 else b 0 5
    let q2 := if b 1 2 = 3 then 4 else b 5 2
    if astcBits c 0 3 = 5 then [astcBits c 3 2, 4, q2] else [astcBits c 0 3, astcBits c 3 2, q2]

/-- One number of a sequence: its trit or quint, and its bits. -/
structure AstcNum where
  digit : Nat
  low : Nat
deriving DecidableEq, Repr

/-- The numbers of one packed block: `parts` are, number by number, how many bits of the digits' code follow its bits. -/
def astcGroup (v nb : Nat) (parts : List Nat) (digits : Nat → List Nat) : List AstcNum :=
  let walk := parts.foldl (fun (a : Nat × Nat × Nat × List Nat) p =>
    (a.1 + nb + p, a.2.1 + astcBits v (a.1 + nb) p * 2 ^ a.2.2.1, a.2.2.1 + p, a.2.2.2 ++ [astcBits v a.1 nb]))
    ((0, 0, 0, []) : Nat × Nat × Nat × List Nat)
  List.zipWith AstcNum.mk (digits walk.2.1) walk.2.2.2

/-- n numbers of a range from the start of a bit string; bits past the sequence's length count as 0. -/
def astcSequence (r : AstcRange) (v n : Nat) : List AstcNum :=
  let w := v % 2 ^ r.length n
  if r.trit then
    ((List.range ((n + 4) / 5)).flatMap (fun k =>
      astcGroup (w / 2 ^ (k * (5 * r.bits + 8))) r.bits [2, 2, 1, 2, 1] astcTrits)).take n
  else if r.quint then
    ((List.range ((n + 2) / 3)).flatMap (fun k =>
      astcGroup (w / 2 ^ (k * (3 * r.bits + 7))) r.bits [3, 2, 2] astcQuints)).take n
  else (List.range n).map (fun k => ⟨0, astcBits w (k * r.bits) r.bits⟩)

/-- A number of so many bits repeated to fill a width. -/
def astcRepeat (x nb width : Nat) : Nat :=
  let k := if nb = 0 then 0 else (width + nb - 1) / nb
  (List.range k).foldl (fun a _ => a * 2 ^ nb + x) 0 / 2 ^ (k * nb - width)

/-- A number made of named bits of x, the most significant first; 0 marks a zero bit and k + 1 bit k of x. -/
def astcPattern (x : Nat) (ps : List Nat) : Nat :=
  ps.foldl (fun a p => a * 2 + (if p = 0 then 0 else astcBits x (p - 1) 1)) 0

/-- The bits added, and the factor of the digit, for endpoint values of a range with a trit or quint. -/
def astcColourTerms (r : AstcRange) (x : Nat) : Nat × Nat :=
  if r.trit then
    match r.bits with
    | 1 => (0, 204)
    | 2 => (astcPattern x [2, 0, 0, 0, 2, 0, 2, 2, 0], 93)
    | 3 => (astcPattern x [3, 2, 0, 0, 0, 3, 2, 3, 2], 44)
    | 4 => (astcPattern x [4, 3, 2, 0, 0, 0, 4, 3, 2], 22)
    | 5 => (astcPattern x [5, 4, 3, 2, 0, 0, 0, 5, 4], 11)
    | _ => (astcPattern x [6, 5, 4, 3, 2, 0, 0, 0, 6], 5)
  else
    match r.bits with
    | 1 => (0, 113)
    | 2 => (astcPattern x [2, 0, 0, 0, 0, 2, 2, 0, 0], 54)
    | 3 => (astcPattern x [3, 2, 0, 0, 0, 0, 3, 2, 3], 26)
    | 4 => (astcPattern x [4, 3, 2, 0, 0, 0, 0, 4, 3], 13)
    | _ => (astcPattern x [5, 4, 3, 2, 0, 0, 0, 0, 5], 6)

/-- An endpoint value as 0 to 255. -/
def astcColour (r : AstcRange) (x : AstcNum) : Nat :=
  if r.trit || r.quint then
    let t := astcColourTerms r x.low
    let a := if x.low % 2 = 1 then 511 else 0
    a / 128 % 2 * 128 + Nat.xor (x.digit * t.2 + t.1) a / 4 % 128
  else astcRepeat x.low r.bits 8

/-- The bits added, and the factor of the digit, for weights of a range with a trit or quint and bits. -/
def astcWeightTerms (r : AstcRange) (x : Nat) : Nat × Nat :=
  if r.trit then
    match r.bits with
    | 1 => (0, 50)
    | 2 => (astcPattern x [2, 0, 0, 0, 2, 0, 2], 23)
    | _ => (astcPattern x [3, 2, 0, 0, 0, 3, 2], 11)
  else
    match r.bits with
    | 1 => (0, 28)
    | _ => (astcPattern x [2, 0, 0, 0, 0, 2, 0], 13)

/-- A weight as 0 to 64. -/
def astcWeight (r : AstcRange) (x : AstcNum) : Nat :=
  let w :=
    if r.trit = false ∧ r.quint = false then astcRepeat x.low r.bits 6
    else if r.bits = 0 then (if r.trit then [0, 32, 63] else [0, 16, 32, 47, 63]).getD x.digit 0
    else
      let t := astcWeightTerms r x.low
      let a := if x.low % 2 = 1 then 127 else 0
      a / 32 % 2 * 32 + Nat.xor (x.digit * t.2 + t.1) a / 4 % 32
  if w > 32 then w + 1 else w

/-! ## The block mode -/

/-- What a block mode gives: the weight grid's width and height, two planes, and the weights' range. -/
structure AstcMode where
  w : Nat
  h : Nat
  dual : Bool
  range : AstcRange
deriving DecidableEq, Repr

/-- Width, height and whether the mode has its D and H bits, from a block mode. -/
def astcGrid (m : Nat) : Option (Nat × Nat × Bool) :=
  let a := astcBits m 5 2
  let b := astcBits m 7 2
  if m % 4 ≠ 0 then
    match astcBits m 2 2 with
    | 0 => some (b + 4, a + 2, true)
    | 1 => some (b + 8, a + 2, true)
    | 2 => some (a + 2, b + 8, true)
    | _ => if b / 2 = 1 then some (b % 2 + 2, a + 2, true) else some (a + 2, b % 2 + 6, true)
  else if astcBits m 2 2 = 0 then none
  else
    match b with
    | 0 => some (12, a + 2, true)
    | 1 => some (a + 2, 12, true)
    | 2 => some (a + 6, astcBits m 9 2 + 6, false)
    | _ => if a = 0 then some (6, 10, true) else if a = 1 then some (10, 6, true) else none

/-- The mode of a block, none where it is reserved. -/
def astcMode (v : Nat) : Option AstcMode :=
  let m := v % 2 ^ 11
  let low := if m % 4 ≠ 0 then m % 4 else astcBits m 2 2
  match astcGrid m with
  | none => none
  | some (w, h, own) =>
    let r := low * 2 + astcBits m 4 1 - 2 + (if own then astcBits m 9 1 * 6 else 0)
    (astcRanges[r]?).map (fun range => ⟨w, h, own && decide (astcBits m 10 1 = 1), range⟩)

/-- Weights of a mode. -/
def AstcMode.count (m : AstcMode) : Nat := m.w * m.h * (if m.dual then 2 else 1)
/-- Bits of a mode's weights. -/
def AstcMode.length (m : AstcMode) : Nat := m.range.length m.count

/-- A mode is no error for a footprint. -/
def AstcMode.ok (m : AstcMode) (bw bh parts : Nat) : Bool :=
  decide (m.w ≤ bw ∧ m.h ≤ bh ∧ m.count ≤ 64 ∧ 24 ≤ m.length ∧ m.length ≤ 96) && !(m.dual && decide (parts = 4))

/-! ## Partitions -/

/-- The hash that places partitions. -/
def astcHash (p0 : BitVec 32) : BitVec 32 :=
  let p := p0 ^^^ (p0 >>> 15)
  let p := p - (p <<< 17)
  let p := p + (p <<< 7)
  let p := p + (p <<< 4)
  let p := p ^^^ (p >>> 5)
  let p := p + (p <<< 16)
  let p := p ^^^ (p >>> 7)
  let p := p ^^^ (p >>> 3)
  let p := p ^^^ (p <<< 6)
  p ^^^ (p >>> 17)

/-- The partition of a texel: `seed` is the block's ten-bit index. -/
def astcPartition (bw bh parts seed x0 y0 : Nat) : Nat :=
  let x := if bw * bh < 31 then x0 * 2 else x0
  let y := if bw * bh < 31 then y0 * 2 else y0
  let r := (astcHash (BitVec.ofNat 32 (seed + (parts - 1) * 1024))).toNat
  let p := if parts = 3 then 6 else 5
  let q := if astcBits seed 1 1 = 1 then 4 else 5
  let s1 := if seed % 2 = 1 then q else p
  let s2 := if seed % 2 = 1 then p else q
  let n (k : Nat) : Nat := astcBits r (4 * k) 4 * astcBits r (4 * k) 4 / 2 ^ (if k % 2 = 0 then s1 else s2)
  let a := (n 0 * x + n 1 * y + r / 2 ^ 14) % 64
  let b := (n 2 * x + n 3 * y + r / 2 ^ 10) % 64
  let c := if parts < 3 then 0 else (n 4 * x + n 5 * y + r / 2 ^ 6) % 64
  let d := if parts < 4 then 0 else (n 6 * x + n 7 * y + r / 2 ^ 2) % 64
  if parts = 1 then 0
  else if a ≥ b ∧ a ≥ c ∧ a ≥ d then 0 else if b ≥ c ∧ b ≥ d then 1 else if c ≥ d then 2 else 3

/-! ## Endpoints -/

/-- A channel held between 0 and 255. -/
def astcClamp (x : Int) : Nat := if x < 0 then 0 else if x > 255 then 255 else x.toNat

/-- A base and a signed offset from a pair of endpoint values. -/
def astcTransfer (offset base : Nat) : Int × Int :=
  let a : Int := astcBits offset 1 6
  ((base / 2 + offset / 128 % 2 * 128 : Nat), if a ≥ 32 then a - 64 else a)

/-- Blue contraction. -/
def astcContract (r g b a : Int) : List Int := [(r + b) / 2, (g + b) / 2, b, a]

/-- The two endpoints of a mode, four channels of 0 to 255 each; none for a mode of high dynamic range. -/
def astcEndpoints (mode : Nat) (vs : List Nat) : Option (List Nat × List Nat) :=
  let v (k : Nat) : Nat := vs.getD k 0
  let i (k : Nat) : Int := v k
  let pair (a b : List Int) : Option (List Nat × List Nat) := some (a.map astcClamp, b.map astcClamp)
  let alpha (k : Nat) : Int := if mode ≥ 12 then i k else 255
  let scaled (a0 a1 : Int) := pair [i 0 * i 3 / 256, i 1 * i 3 / 256, i 2 * i 3 / 256, a0] [i 0, i 1, i 2, a1]
  let direct :=
    if v 1 + v 3 + v 5 ≥ v 0 + v 2 + v 4 then pair [i 0, i 2, i 4, alpha 6] [i 1, i 3, i 5, alpha 7]
    else pair (astcContract (i 1) (i 3) (i 5) (alpha 7)) (astcContract (i 0) (i 2) (i 4) (alpha 6))
  let offsets :=
    let r := astcTransfer (v 1) (v 0)
    let g := astcTransfer (v 3) (v 2)
    let b := astcTransfer (v 5) (v 4)
    let a : Int × Int := if mode = 13 then astcTransfer (v 7) (v 6) else (255, 0)
    if r.2 + g.2 + b.2 ≥ 0 then pair [r.1, g.1, b.1, a.1] [r.1 + r.2, g.1 + g.2, b.1 + b.2, a.1 + a.2]
    else pair (astcContract (r.1 + r.2) (g.1 + g.2) (b.1 + b.2) (a.1 + a.2)) (astcContract r.1 g.1 b.1 a.1)
  match mode with
  | 0 => pair [i 0, i 0, i 0, 255] [i 1, i 1, i 1, 255]
  | 1 =>
    let l0 : Nat := v 0 / 4 + v 1 / 64 * 64
    let l1 : Nat := l0 + v 1 % 64
    pair [l0, l0, l0, 255] [l1, l1, l1, 255]
  | 4 => pair [i 0, i 0, i 0, i 2] [i 1, i 1, i 1, i 3]
  | 5 =>
    let l := astcTransfer (v 1) (v 0)
    let a := astcTransfer (v 3) (v 2)
    pair [l.1, l.1, l.1, a.1] [l.1 + l.2, l.1 + l.2, l.1 + l.2, a.1 + a.2]
  | 6 => scaled 255 255
  | 8 => direct
  | 9 => offsets
  | 10 => scaled (i 4) (i 5)
  | 12 => direct
  | 13 => offsets
  | _ => none

/-! ## Blocks -/

/-- What a block's header gives: endpoint modes by partition, the partition index, where the endpoints' bits begin, and the
first bit above them that other fields take. -/
structure AstcHead where
  modes : List Nat
  index : Nat
  start : Nat
  stop : Nat
deriving DecidableEq, Repr

/-- The header of a block whose weights take so many bits. -/
def astcHead (v parts wbits : Nat) : AstcHead :=
  if parts = 1 then ⟨[astcBits v 13 4], 0, 17, 128 - wbits⟩
  else if astcBits v 23 2 = 0 then ⟨List.replicate parts (astcBits v 25 4), astcBits v 13 10, 29, 128 - wbits⟩
  else
    let more := 3 * parts - 4
    let stop := 128 - wbits - more
    let e := astcBits v 23 6 + astcBits v stop more * 64
    ⟨(List.range parts).map (fun k =>
      (e % 4 - 1 + astcBits e (2 + k) 1) * 4 + astcBits e (2 + parts + 2 * k) 2), astcBits v 13 10, 29, stop⟩

/-- Endpoint values of a mode. -/
def astcValues (mode : Nat) : Nat := 2 * (mode / 4) + 2

/-- The largest range with which n endpoint values fit so many bits; none below six levels. -/
def astcColourRange (n room : Nat) : Option AstcRange :=
  (((astcRanges.drop 4).filter (fun r => decide (r.length n ≤ room))).getLast?)

/-- Weight of a texel in a grid of weights. -/
def astcInfill (bw bh w h : Nat) (ws : List Nat) (x y : Nat) : Nat :=
  let g (n b k : Nat) : Nat := ((1024 + b / 2) / (b - 1) * k * (n - 1) + 32) / 64
  let gs := g w bw x
  let gt := g h bh y
  let fs := gs % 16
  let ft := gt % 16
  let at_ := gs / 16 + gt / 16 * w
  let w11 := (fs * ft + 8) / 16
  (ws.getD at_ 0 * (16 + w11 - fs - ft) + ws.getD (at_ + 1) 0 * (fs - w11) + ws.getD (at_ + w) 0 * (ft - w11)
    + ws.getD (at_ + w + 1) 0 * w11 + 8) / 16

/-- The error colour (1, 0, 1, 1) (R255). -/
def astcError : List Nat := [65535, 0, 65535, 65535]

/-- A block of one colour, with its extent checked; an extent of high dynamic range is an error. -/
def astcVoid (v : Nat) : List Nat :=
  let lowS := astcBits v 12 13
  let highS := astcBits v 25 13
  let lowT := astcBits v 38 13
  let highT := astcBits v 51 13
  if astcBits v 9 3 ≠ 6 ∨ ((lowS ≥ highS ∨ lowT ≥ highT) ∧ astcBits v 12 52 ≠ 2 ^ 52 - 1) then astcError
  else [astcBits v 64 16, astcBits v 80 16, astcBits v 96 16, astcBits v 112 16]

/-- The endpoints of every partition, from the values in order; none where a mode is of high dynamic range. -/
def astcPairs : List Nat → List Nat → Option (List (List Nat × List Nat))
  | [], _ => some []
  | m :: ms, vs => do
    let e ← astcEndpoints m vs
    let es ← astcPairs ms (vs.drop (astcValues m))
    some (e :: es)

/-- Texel (x, y) of a block of a footprint: its four channels, 16 bits each (R255). -/
def astcTexel (v bw bh x y : Nat) : List Nat :=
  if v % 2 ^ 9 = 0x1FC then astcVoid v
  else match astcMode v with
  | none => astcError
  | some m =>
    let parts := astcBits v 11 2 + 1
    let hd := astcHead v parts m.length
    let stop := hd.stop - (if m.dual then 2 else 0)
    let n := (hd.modes.map astcValues).sum
    if m.ok bw bh parts = false ∨ n > 18 then astcError
    else match astcColourRange n (stop - hd.start) with
    | none => astcError
    | some r =>
      match astcPairs hd.modes ((astcSequence r (v / 2 ^ hd.start) n).map (astcColour r)) with
      | none => astcError
      | some es =>
        let ws := (astcSequence m.range (reverseBits v 128) m.count).map (astcWeight m.range)
        let plane (k : Nat) : List Nat := if m.dual then (List.range (m.w * m.h)).map (fun i => ws.getD (2 * i + k) 0) else ws
        let wt (k : Nat) : Nat := astcInfill bw bh m.w m.h (plane k) x y
        let e := es.getD (astcPartition bw bh parts hd.index x y) ([], [])
        (List.range 4).map (fun c =>
          let i := if m.dual = true ∧ astcBits v stop 2 = c then wt 1 else wt 0
          (e.1.getD c 0 * 257 * (64 - i) + e.2.getD c 0 * 257 * i + 32) / 64)

end Sys2Proof.Machine
end

