-- ==== Sys2Proof/Config.lean ====
section
/-! DEFINITION. What an implementation fixes and the spec leaves open: free values with no body, which no proof can
evaluate (log 10). Each is applied to a count of the state or to the operands its value depends on. -/
namespace Sys2Proof

/-- What a byte of another node, named by its class-3 address, holds when the count-th access reads it (R399; log 10). -/
opaque Config.remoteByte (count addr : Nat) : Byte


/-- The value of a quotient or difference that has none, such as infinity over infinity, in a box test on infinite
operands, by the two operands' bits (R247; log 10). -/
opaque Config.openReal (a b : Nat) : Int

/-- The texel coordinate that `tex.pt` takes from a coordinate that is NaN or infinite, by its bits (R257; log 10). -/
opaque Config.openTexel (u : Nat) : Int

/-- Triangles that a die's area classifier holds before its input is full (R261, R262; log 10). -/
opaque Config.classifierDepth : Nat

/-- Bin entries that the staging in a caddy of a size, in MiB, holds (R361; log 10). -/
opaque Config.binStaging (mb : Nat) : Nat

/-- The frame that the memory manager takes for a new table or a moved page, as a frame number below the frames of its
size; the count tells requests apart (R309, R328; log 10). -/
opaque Config.freeFrame (count : Nat) : Nat

/-- Ring base, log2 of the entries less 4 (modulo 13), and fault record address of the host's queue 0, which boot creates
(R375, R410; log 10). -/
opaque Config.queue0 (dev : Nat) : Nat × Nat × Nat

/-- A signed image set holds good signatures for each of its images: the layout of the set is not given, so the answer for
its bytes and the public key is free (R369, R410; log 10). -/
opaque Config.imagesSigned (image key : List (BitVec 8)) : Bool

/-- The scale elements, of a width, of a block source whose prefix names no scale register (R123, R177; log 21). -/
opaque Config.openScales (width : Nat) : Nat

/-- What firmware enters for an entry of a device's aperture table, if anything: a remote node, device and class-0 base
(R399; log 10). -/
opaque Config.aperture (dev entry : Nat) : Option (Nat × Nat × Nat)

/-- The 8 MiB of a device's memory in which its memory manager keeps queue descriptors and context records, counted from below
the top 264 MiB downwards, modulo 2^14 (R331, R374; log 82). -/
opaque Config.recordTable (dev : Nat) : Nat

/-- The die of a device whose host port serves a class-1 line, modulo 8 (R316; log 81). -/
opaque Config.hostPortDie (line : Nat) : Nat

/-- A word that the spec gives no value, by a count (R366; log 10). -/
opaque Config.openWord (count : Nat) : Nat

/-- SHA-256 of the public key, as boot ROM holds it (R369; log 10). -/
opaque Config.rootKeyHash : List (BitVec 8)

/-- Where a hart of a core with a firmware role begins, by image set, die, core and hart; a multiple of 16 is taken (R371, R410;
log 10). -/
opaque Config.fwEntry (image : List (BitVec 8)) (die unit hart : Nat) : Nat

/-- Protocol range MIN and MAX that an image set gives for a die (R385; log 10). -/
opaque Config.imageRange (image : List (BitVec 8)) (die : Nat) : Nat × Nat

/-- Bytes of the image set that an FWUPDATE names (R386; log 10). -/
opaque Config.imageLength (addr : Nat) : Nat

/-- What a sensor of a die shows at a sample: kind 0 the junction in 8 °C steps, 1 the supply droop in 10 mV steps, 2 + r
ring oscillator r in kHz (R409; log 10). -/
opaque Config.sensor (count die kind : Nat) : Nat

end Sys2Proof
end

