-- ==== Sys2Proof/Syntax.lean ====
section
/-! DEFINITION. The instructions and steps of the machine: one constructor per row of the opcode table. A slot
instruction carries the operand fields of its slot word (R69), as the encoding gives them, and, where its form has
one, its extension word: `BitVec 32` where the row requires it (R71), `Option (BitVec 32)` where the memory attribute
word of R75 or the control word of R178 is optional. A step that is not a slot instruction carries the unit it happens
at and the value it carries. The steps stand first and the slot instructions after them, in the table's order. -/
namespace Sys2Proof

/-- What the fabric port does at a FABRIC_ACCESS step (R165, R399). -/
inductive FabricEvent where
  /-- The class-3 accesses of an outstanding operation are executed at their nodes. -/
  | executed (op : Nat)
  /-- The transport does not deliver them within its retry limit. -/
  | undeliverable (op : Nat)
  /-- A fill made by an issuer of another node arrives: the address of the future in this node's memory, and its value. -/
  | fill (addr v : Nat)
deriving DecidableEq, Repr

/-- Every instruction and step of the part's table of operations. -/
inductive Instr where
  /-- SET_LENGTH_REQUEST, R102: sswap of VL grants a vector length, shared across a rope. -/
  | setLengthRequest (a : BitVec 7) (b : BitVec 7)
  /-- VCFG_WRITE, R36: A write of VCFG that zeroes VL on SEW or GRP change and ROF on ROT change. -/
  | vcfgWrite (v : BitVec 64)
  /-- WBASE_WRITE, R37: A write of WBASE that moves the windows for later slots after checks. -/
  | wbaseWrite (v : BitVec 64)
  /-- VL_WRITE, R102: A supervisor sset of VL that sets the length directly. -/
  | vlWrite (v : BitVec 64)
  /-- HSTAT_WRITE, R265: A write of HSTAT; setting IE lets asynchronous traps be taken from the next boundary. -/
  | hstatWrite (v : BitVec 64)
  /-- ACCOWN_WRITE, R25: A write of ACCOWN0 or ACCOWN1 that completes after in-flight matrix instructions. -/
  | accownWrite (n : Nat) (v : BitVec 64)
  /-- ATSAT_CLEAR, R38: A W1C write clearing saturation bits of a tile. -/
  | atsatClear (n : Nat) (v : BitVec 64)
  /-- MST_WRITE, R198: A write of a matrix slot table entry taking effect at the next slot boundary. -/
  | mstWrite (n : Nat) (v : BitVec 64)
  /-- TB_WRITE, R397: A firmware write of TB on the master die that schedules a node-wide forward step. -/
  | tbWrite (v : BitVec 64)
  /-- ART_WRITE, R321: A write of an ART register applied in every slice before it completes. -/
  | artWrite (n : Nat) (v : BitVec 64)
  /-- REGISTER_WRITE, R29: Writes a register that has no behaviour of its own, refusing reserved values. -/
  | registerWrite (n : BitVec 12) (v : BitVec 64)
  /-- BARRIER_ARRIVE_WAIT, R169: Event-window load that arrives at a barrier and parks until release. -/
  | barrierArriveWait (a : BitVec 7) (n : Nat)
  /-- BARRIER_QUERY, R169: Event-window load returning arrivals and generation. -/
  | barrierQuery (a : BitVec 7) (n : Nat)
  /-- BARRIER_ARRIVE, R169: Event-window store that arrives without waiting. -/
  | barrierArrive (n : Nat)
  /-- BARRIER_CONFIGURE, R170: Event-window store configuring a barrier. -/
  | barrierConfigure (n : Nat) (v : BitVec 64)
  /-- MUTEX_ACQUIRE, R169: Event-window load that parks until the mutex is granted. -/
  | mutexAcquire (a : BitVec 7) (n : Nat)
  /-- MUTEX_RELEASE, R169: Event-window store releasing a held mutex. -/
  | mutexRelease (n : Nat)
  /-- MUTEX_TRY, R169: Event-window load that takes a free mutex or returns 0. -/
  | mutexTry (a : BitVec 7) (n : Nat)
  /-- MUTEX_CONFIGURE, R170: Event-window store configuring a mutex. -/
  | mutexConfigure (n : Nat) (v : BitVec 64)
  /-- EVENT_WAIT, R169: Event-window load that parks until the event is set. -/
  | eventWait (a : BitVec 7) (n : Nat)
  /-- EVENT_SET, R169: Event-window store that sets the event and wakes every waiter. -/
  | eventSet (n : Nat) (v : BitVec 64)
  /-- EVENT_CLEAR, R169: Event-window store clearing the event. -/
  | eventClear (n : Nat)
  /-- EVENT_CONFIGURE, R170: Event-window store configuring an event. -/
  | eventConfigure (n : Nat) (v : BitVec 64)
  /-- BARRIER_RELEASE, R169: A barrier whose COUNT is met releases its waiters and advances its generation. -/
  | barrierRelease (cl : Nat) (n : Nat)
  /-- BARRIER_PARENT_ARRIVAL, R170: A chained barrier whose COUNT is met sends one arrival to its parent. -/
  | barrierParentArrival (cl : Nat) (n : Nat)
  /-- MUTEX_GRANT, R169: A released mutex is granted to the oldest waiter. -/
  | mutexGrant (cl : Nat) (n : Nat)
  /-- CONVOY_ISSUE, R67: Fetches a convoy, checks its header and runs its slots in order. -/
  | convoyIssue (hk : Nat)
  /-- ASYNC_TRAP, R274: A pending asynchronous trap is taken at a convoy boundary or withdrawn wait. -/
  | asyncTrap (hk : Nat)
  /-- HINT_STALL_EXPIRY, R74: The HINT stall count of a convoy runs out and the hart is ready again. -/
  | hintStallExpiry (hk : Nat)
  /-- LOAD_DATA_RETURN, R150: Returned load data is written to its destination and pushed. -/
  | loadDataReturn (op : Nat)
  /-- MEMORY_OP_PERFORMED, R149: An operation performs at its scope and its counter falls, releasing waits. -/
  | memoryOpPerformed (op : Nat)
  /-- REMOTE_REFUSAL, R147: A refusal from the target returns, zeroing load elements and queuing REMOTE-NACK or POISON. -/
  | remoteRefusal (op : Nat)
  /-- BELAY_WAKE, R165: A wake for an address releases belay entries and parked harts re-read their futures. -/
  | belayWake (cl : Nat) (loc : Nat)
  /-- MESSAGE_ARRIVAL, R237: A channel message enters a receive queue or is refused with REMOTE-NACK. -/
  | messageArrival (m : Nat)
  /-- SEND_ROOM, R237: Room appears in a full receive or spill queue and a parked sender's message enters. -/
  | sendRoom (hk : Nat)
  /-- TWAIT_EXPIRY, R240: The timebase reaches a parked twait or twaitd target. -/
  | twaitExpiry (hk : Nat)
  /-- CHILD_ENDED, R228: A child's end releases the parent's waiting join. -/
  | childEnded (uid : Nat)
  /-- ORDB_RELEASE, R233: Lower tickets retire and a waiting ordb opens its section. -/
  | ordbRelease (hk : Nat)
  /-- ORDTMO_EXPIRY, R233: The section count exceeds ORDTMO and the hart cancels its own instance. -/
  | ordtmoExpiry (hk : Nat)
  /-- ROPE_FORM, R235: Every member has issued rope and the rope forms. -/
  | ropeForm (hk : Nat)
  /-- RBAR_RELEASE, R236: Every member has arrived and RBAR is updated for all. -/
  | rbarRelease (hk : Nat)
  /-- MST_SLOT_BOUNDARY, R198: A matrix slot's length expires and the rotation passes to the next valid entry. -/
  | mstSlotBoundary (ck : Nat)
  /-- TRANSLATION_REQUEST, R312: A cluster TLB miss sends a request to the translation service core. -/
  | translationRequest (hk : Nat) (va : BitVec 64) (k : Nat)
  /-- FILLC, R313: A store to FILLC completes a fill, installing the entry or raising PAGE-FAULT. -/
  | fillc (cl : Nat) (v : BitVec 64)
  /-- TWEKICK, R392: A store to a tile-walk engine kick register queues a transfer. -/
  | twekick (ck : Nat) (v : BitVec 64)
  /-- TRANSFER_COMPLETE, R393: An engine transfer ends and fills its mailbox with status and checksum. -/
  | transferComplete (ck : Nat)
  /-- ENGINE_FENCE, R408: A fenced engine fills its mailboxes with status 3 and refuses later kicks. -/
  | engineFence (ck : Nat)
  /-- REPKICK, R365: A store of a job address starts all reprojection units. -/
  | repkick (v : BitVec 64)
  /-- REPROJECTION_DONE, R366: All units finish a job and die 0 fills its DONE future. -/
  | reprojectionDone (dev : Nat)
  /-- DOORBELL, R377: A doorbell store carries a tail that the walker accepts, ignores or faults. -/
  | doorbell (dk : Nat) (sqn : Nat) (v : BitVec 64) (host : Bool)
  /-- FWCTL_WRITE, R372: A firmware write of FWCTL setting the firewall, ignored once locked. -/
  | fwctlWrite (ck : Nat) (v : BitVec 64)
  /-- DISPATCH_CYCLE, R345: The die scheduler drops cancelled heads and starts or stages at most one task. -/
  | dispatchCycle (dk : Nat)
  /-- TILE_RESIDENT, R341: An input tile has been fully written into the launch block. -/
  | tileResident (ck : Nat) (id : Nat)
  /-- QUEUE_ROOM, R334: COUNT falls below CAP and the oldest stalled producer's record is accepted. -/
  | queueRoom (q : Nat)
  /-- CANCEL_TOKEN, R349: A cancel token reaches a queue or core, marking entries to drop and cancelling running tasks. -/
  | cancelToken (id : Nat)
  /-- COMMIT_RELEASE, R351: The domain sequencer releases the commit of the new lowest ticket. -/
  | commitRelease (d : Nat)
  /-- COMMIT_PERFORMED, R221: A commit performs, its ticket is retired and the completion word is filled. -/
  | commitPerformed (uid : Nat)
  /-- PREEMPT_MESSAGE, R282: A mesh interrupt starts pre-emption of a core with a deadline. -/
  | preemptMessage (ck : Nat) (t : BitVec 64)
  /-- PREEMPT_DEADLINE, R282: The pre-emption deadline passes and unpacked harts' contexts are fenced. -/
  | preemptDeadline (ck : Nat)
  /-- CONTEXT_RETURN, R284: Firmware returns a pre-empted context to its harts and refills its queues; p is a core and a context. -/
  | contextReturn (p : Nat × Nat)
  /-- START_MESSAGE, R371: A front end starts a halted firmware or translation hart at a convoy. -/
  | startMessage (hk : Nat) (v : BitVec 64)
  /-- WAKE_MESSAGE, R276: A firmware wake message ends a hart's wfi. -/
  | wakeMessage (hk : Nat)
  /-- CLASSIFIER_TRIANGLE, R358: The area classifier takes a triangle, snaps, culls, routes and bins it. -/
  | classifierTriangle (dk : Nat)
  /-- CLASSIFIER_ROOM, R261: The classifier's input gains room and a waiting mend or rast hands over. -/
  | classifierRoom (dk : Nat)
  /-- SUBMISSION_ENTRY, R378: The walker reads a submission entry and starts its graph. -/
  | submissionEntry (sq : Nat)
  /-- LAUNCH_NODE, R381: Clears the caches and releases a launch into its queue. -/
  | launchNode (w : Nat)
  /-- COPY_NODE, R380: Kicks a tile-walk engine with a transfer descriptor. -/
  | copyNode (w : Nat)
  /-- SIGNAL_NODE, R380: Fills a future with a value at a scope. -/
  | signalNode (w : Nat)
  /-- WAIT_NODE, R380: Acquires a future and passes when it is full. -/
  | waitNode (w : Nat)
  /-- TIMED_NODE, R380: Passes when TB reaches an absolute or relative time. -/
  | timedNode (w : Nat)
  /-- COND_NODE, R380: Reads a predicate and skips nodes when false. -/
  | condNode (w : Nat)
  /-- LOOP_NODE, R380: Reads a predicate and jumps back while true and under MAXITER. -/
  | loopNode (w : Nat)
  /-- INDIRECT_NODE, R382: Runs a named buffer one nesting level deeper. -/
  | indirectNode (w : Nat)
  /-- END_NODE, R380: Ends a buffer and completes the entry at the top level. -/
  | endNode (w : Nat)
  /-- LAUNCH_END, R336: Every task of a launch has ended, completing its LAUNCH node. -/
  | launchEnd (id : Nat)
  /-- CTXNEW, R374: Creates a context from a record image. -/
  | ctxnew (id : Nat)
  /-- CTXDEL, R375: Deletes a context once its accesses have drained. -/
  | ctxdel (id : Nat)
  /-- QNEW, R331: Creates a task queue or bin set from a descriptor image. -/
  | qnew (id : Nat)
  /-- QDEL, R375: Destroys a task queue. -/
  | qdel (id : Nat)
  /-- SQNEW, R376: Creates a submission queue and maps its doorbell. -/
  | sqnew (id : Nat)
  /-- SQDEL, R375: Destroys a submission queue. -/
  | sqdel (id : Nat)
  /-- MAP, R375: Maps a virtual range and releases set-aside entries for it. -/
  | mapPages (id : Nat)
  /-- UNMAP, R375: Unmaps a virtual range. -/
  | unmap (id : Nat)
  /-- MIGRATE, R328: Moves a page to another die or device with forwarding. -/
  | migrate (id : Nat)
  /-- TDOPEN, R350: Opens ticket domains with NEXT and LOW at 0. -/
  | tdopen (id : Nat)
  /-- TDCLOSE, R350: Closes ticket domains whose LOW equals NEXT. -/
  | tdclose (id : Nat)
  /-- DRAWOPEN, R353: Opens a draw handle from a descriptor. -/
  | drawopen (id : Nat)
  /-- DRAWSEAL, R363: Seals a draw, assigns tickets and places bin entries, releasing the bin launch. -/
  | drawseal (id : Nat)
  /-- DRAWCLOSE, R356: Closes a draw once its bin tasks have ended. -/
  | drawclose (id : Nat)
  /-- SQRESET, R383: Unfences a submission queue, dropping unstarted entries. -/
  | sqreset (id : Nat)
  /-- FWUPDATE, R386: Updates firmware die by die with hand-over. -/
  | fwupdate (id : Nat)
  /-- REHOME_REPLY, R329: A forwarding line answers a request with its new address for reissue. -/
  | rehomeReply (op : Nat)
  /-- HELLO, R385: Dies exchange protocol ranges and agree a version. -/
  | hello (src : Nat) (dst : Nat) (lo : Nat) (hi : Nat)
  /-- FIRMWARE_MAILBOX_MESSAGE, R385: A firmware message between dies is delivered through a mailbox. -/
  | firmwareMailboxMessage (src : Nat) (dst : Nat) (m : Nat)
  /-- MODULE_RESET, R410: Power-on or fundamental reset runs secure boot. -/
  | moduleReset (dev : Nat)
  /-- DIE_RESET, R412: A die is reset alone, fencing its contexts, and reboots. -/
  | dieReset (dk : Nat)
  /-- UNCORRECTABLE_ERROR, R405: An uncorrectable SRAM or memory error poisons, drops or fences by structure. -/
  | uncorrectableError (k : Nat) (x : Nat)
  /-- PARITY_ERROR, R406: A register parity error re-executes the slot or fences the context. -/
  | parityError (hk : Nat) (again : Bool)
  /-- LINK_TRAIN, R395: A Ratal Link or Ethernet port trains and confirms its peer; a peer of 8 says that training begins,
  9 that the port cannot train. -/
  | linkTrain (dev : Nat) (port : Nat) (peer : Nat)
  /-- LINK_DOWN, R396: A port goes down and traffic reroutes or the link is fenced. -/
  | linkDown (dev : Nat) (port : Nat)
  /-- FLIT_REPLAY, R395: A flit failing its CRC is replayed in order. -/
  | flitReplay (dev : Nat) (port : Nat)
  /-- TB_STEP, R397: Every die steps its timebase forward at the distributed time. -/
  | tbStep
  /-- FABRIC_ACCESS, R399: A class-3 access is executed at the remote node through the fabric port. -/
  | fabricAccess (x : FabricEvent)
  /-- RDMA_WRITE, R400: A RoCE RDMA write arrives. -/
  | rdmaWrite (a : Nat) (n : Nat) (v : Nat)
  /-- RDMA_READ, R400: A RoCE RDMA read arrives. -/
  | rdmaRead (a : Nat) (n : Nat)
  /-- ROCE_SEND, R400: A RoCE send arrives. -/
  | roceSend (n : Nat) (v : Nat)
  /-- ROCE_COMPARE_AND_SWAP, R400: A network 8-byte compare-and-swap executes at the fabric port. -/
  | roceCompareAndSwap (a : Nat) (t : BitVec 64) (v : BitVec 64)
  /-- ROCE_FETCH_AND_ADD, R400: A network 8-byte fetch-and-add executes at the fabric port. -/
  | roceFetchAndAdd (a : Nat) (v : BitVec 64)
  /-- HOST_ACCESS, R401: A host access over PCI Express or CXL performs at the home slice. -/
  | hostAccess (wr : Bool) (a : Nat) (n : Nat) (v : Nat)
  /-- CLOCK_STEP_DOWN, R413: Power or junction limit steps a die's clock down 100 MHz. -/
  | clockStepDown (dk : Nat)
  /-- CLOCK_STEP_UP, R413: After 1 ms clear the die's clock steps back up. -/
  | clockStepUp (dk : Nat)
  /-- THERMAL_SHUTDOWN, R413: At 120 °C the module shuts down. -/
  | thermalShutdown (dev : Nat)
  /-- LIFETIME_RECORD_WRITE, R409: The lifetime record is written to flash every 10 minutes. -/
  | lifetimeRecordWrite (dev : Nat)
  /-- LIFETIME_RECORD_REFRESH, R409: The live copy of the lifetime record is refreshed every second. -/
  | lifetimeRecordRefresh (dev : Nat)
  /-- MATRIX_INSTRUCTION_COMPLETE, R25: An issued matrix or vector instruction finishes on the array or unit, releasing an ACCOWN write, an ipload, later tile instructions and the drain waits of tend and hsave. -/
  | matrixInstructionComplete (ck : Nat)
  /-- CORRECTED_ERROR, R405: An SRAM or GDDR-7 error corrected by ECC is counted in the lifetime record. -/
  | correctedError (dk : Nat) (g : Nat)
  /-- ORDERLY_SHUTDOWN, R409: At an orderly shutdown the telemetry core writes the lifetime record to module flash. -/
  | orderlyShutdown (dev : Nat)
  /-- SMBUS_MANAGEMENT_WRITE, R410: A module whose table and image sets both fail is recovered by writing a new set over its SMBus management interface. -/
  | smbusManagementWrite (dev : Nat) (tab : List (BitVec 8)) (img : List (BitVec 8))
  /-- ADD, R85: Writes the 64-bit wrapped sum of two scalar registers to sd. -/
  | add (a : BitVec 7) (b : BitVec 7) (c : BitVec 7)
  /-- SUB, R85: Writes the 64-bit wrapped difference of two scalar registers to sd. -/
  | sub (a : BitVec 7) (b : BitVec 7) (c : BitVec 7)
  /-- MUL, R85: Writes the low 64 bits of the product of two scalar registers to sd. -/
  | mul (a : BitVec 7) (b : BitVec 7) (c : BitVec 7)
  /-- MULHS, R85: Writes the high 64 bits of the signed 128-bit product to sd. -/
  | mulhs (a : BitVec 7) (b : BitVec 7) (c : BitVec 7)
  /-- MULHZ, R85: Writes the high 64 bits of the unsigned 128-bit product to sd. -/
  | mulhz (a : BitVec 7) (b : BitVec 7) (c : BitVec 7)
  /-- MADD, R85: Adds the low 64 bits of sa times sb to sd. -/
  | madd (a : BitVec 7) (b : BitVec 7) (c : BitVec 7)
  /-- DIVS, R86: Writes the signed quotient, rounded towards zero, with defined results for zero and overflow. -/
  | divs (a : BitVec 7) (b : BitVec 7) (c : BitVec 7)
  /-- DIVZ, R86: Writes the unsigned quotient, all ones on division by zero. -/
  | divz (a : BitVec 7) (b : BitVec 7) (c : BitVec 7)
  /-- REMS, R86: Writes the signed remainder with the sign of the dividend. -/
  | rems (a : BitVec 7) (b : BitVec 7) (c : BitVec 7)
  /-- REMZ, R86: Writes the unsigned remainder, the dividend on division by zero. -/
  | remz (a : BitVec 7) (b : BitVec 7) (c : BitVec 7)
  /-- AND, R87: Writes the bitwise AND of two scalar registers. -/
  | andReg (a : BitVec 7) (b : BitVec 7) (c : BitVec 7)
  /-- OR, R87: Writes the bitwise OR of two scalar registers. -/
  | orReg (a : BitVec 7) (b : BitVec 7) (c : BitVec 7)
  /-- XOR, R87: Writes the bitwise XOR of two scalar registers. -/
  | xorReg (a : BitVec 7) (b : BitVec 7) (c : BitVec 7)
  /-- ANDN, R87: Writes sa AND NOT sb. -/
  | andn (a : BitVec 7) (b : BitVec 7) (c : BitVec 7)
  /-- SHL, R87: Shifts sa left by sb[5:0]. -/
  | shl (a : BitVec 7) (b : BitVec 7) (c : BitVec 7)
  /-- SHRS, R87: Shifts sa right arithmetically by sb[5:0]. -/
  | shrs (a : BitVec 7) (b : BitVec 7) (c : BitVec 7)
  /-- SHRZ, R87: Shifts sa right logically by sb[5:0]. -/
  | shrz (a : BitVec 7) (b : BitVec 7) (c : BitVec 7)
  /-- ROTL, R87: Rotates sa left by sb[5:0]. -/
  | rotl (a : BitVec 7) (b : BitVec 7) (c : BitVec 7)
  /-- ROTR, R87: Rotates sa right by sb[5:0]. -/
  | rotr (a : BitVec 7) (b : BitVec 7) (c : BitVec 7)
  /-- ADDI_SHORT, R88: Adds a 14-bit signed immediate to sd in place. -/
  | addiShort (a : BitVec 7) (i : BitVec 14)
  /-- ADDI_LONG, R88: Adds a 32-bit signed extension-word immediate to sb and writes sd. -/
  | addiLong (a : BitVec 7) (b : BitVec 7) (e : BitVec 32)
  /-- ANDI_SHORT, R88: ANDs sd with a 14-bit signed immediate in place. -/
  | andiShort (a : BitVec 7) (i : BitVec 14)
  /-- ANDI_LONG, R88: ANDs sb with a 32-bit extension-word immediate into sd. -/
  | andiLong (a : BitVec 7) (b : BitVec 7) (e : BitVec 32)
  /-- ORI_SHORT, R88: ORs sd with a 14-bit signed immediate in place. -/
  | oriShort (a : BitVec 7) (i : BitVec 14)
  /-- ORI_LONG, R88: ORs sb with a 32-bit extension-word immediate into sd. -/
  | oriLong (a : BitVec 7) (b : BitVec 7) (e : BitVec 32)
  /-- XORI_SHORT, R88: XORs sd with a 14-bit signed immediate in place. -/
  | xoriShort (a : BitVec 7) (i : BitVec 14)
  /-- XORI_LONG, R88: XORs sb with a 32-bit extension-word immediate into sd. -/
  | xoriLong (a : BitVec 7) (b : BitVec 7) (e : BitVec 32)
  /-- SHLI_SHORT, R88: Shifts sd left by an immediate 0 to 63 in place. -/
  | shliShort (a : BitVec 7) (i : BitVec 14)
  /-- SHLI_LONG, R88: Shifts sb left by an extension-word immediate 0 to 63 into sd. -/
  | shliLong (a : BitVec 7) (b : BitVec 7) (e : BitVec 32)
  /-- ROTRI_SHORT, R88: Rotates sd right by an immediate 0 to 63 in place. -/
  | rotriShort (a : BitVec 7) (i : BitVec 14)
  /-- ROTRI_LONG, R88: Rotates sb right by an extension-word immediate into sd. -/
  | rotriLong (a : BitVec 7) (b : BitVec 7) (e : BitVec 32)
  /-- LIH, R89: Sets sd to the 32-bit extension word above the low half of sb. -/
  | lih (a : BitVec 7) (b : BitVec 7) (e : BitVec 32)
  /-- SLTS, R90: Writes 1 if sa is less than sb as signed values, else 0. -/
  | slts (a : BitVec 7) (b : BitVec 7) (c : BitVec 7)
  /-- SLTZ, R90: Writes 1 if sa is less than sb as unsigned values, else 0. -/
  | sltz (a : BitVec 7) (b : BitVec 7) (c : BitVec 7)
  /-- SEL, R90: Writes sa if the old sd is non-zero, else sb. -/
  | sel (a : BitVec 7) (b : BitVec 7) (c : BitVec 7)
  /-- MINS, R90: Writes the signed minimum of two registers. -/
  | mins (a : BitVec 7) (b : BitVec 7) (c : BitVec 7)
  /-- MINZ, R90: Writes the unsigned minimum of two registers. -/
  | minz (a : BitVec 7) (b : BitVec 7) (c : BitVec 7)
  /-- MAXS, R90: Writes the signed maximum of two registers. -/
  | maxs (a : BitVec 7) (b : BitVec 7) (c : BitVec 7)
  /-- MAXZ, R90: Writes the unsigned maximum of two registers. -/
  | maxz (a : BitVec 7) (b : BitVec 7) (c : BitVec 7)
  /-- CLZ, R91: Counts leading zero bits of sa. -/
  | clz (a : BitVec 7) (b : BitVec 7)
  /-- CTZ, R91: Counts trailing zero bits of sa. -/
  | ctz (a : BitVec 7) (b : BitVec 7)
  /-- POPC, R91: Counts the one bits of sa. -/
  | popc (a : BitVec 7) (b : BitVec 7)
  /-- BSWAP, R91: Reverses the byte order of sa. -/
  | bswap (a : BitVec 7) (b : BitVec 7)
  /-- BEXTS_SHORT, R92: Extracts a bit field of sd in place and sign-extends it. -/
  | bextsShort (a : BitVec 7) (p : BitVec 6) (l : BitVec 6)
  /-- BEXTS_LONG, R92: Extracts a bit field of sb, described by the extension word, sign-extended into sd. -/
  | bextsLong (a : BitVec 7) (b : BitVec 7) (e : BitVec 32)
  /-- BEXTZ_SHORT, R92: Extracts a bit field of sd in place and zero-extends it. -/
  | bextzShort (a : BitVec 7) (p : BitVec 6) (l : BitVec 6)
  /-- BEXTZ_LONG, R92: Extracts a bit field of sb, described by the extension word, zero-extended into sd. -/
  | bextzLong (a : BitVec 7) (b : BitVec 7) (e : BitVec 32)
  /-- BINS, R92: Inserts the low bits of sa into a field of sd, long form only. -/
  | bins (a : BitVec 7) (b : BitVec 7) (e : BitVec 32)
  /-- BR_EQ_SHORT, R94: Branches by a 7-bit convoy offset when sa equals sb. -/
  | brEqShort (a : BitVec 7) (b : BitVec 7) (o : BitVec 7)
  /-- BR_EQ_LONG, R94: Branches by a 32-bit convoy offset when sa equals sb. -/
  | brEqLong (a : BitVec 7) (b : BitVec 7) (e : BitVec 32)
  /-- BR_NE_SHORT, R94: Branches by a 7-bit convoy offset when sa differs from sb. -/
  | brNeShort (a : BitVec 7) (b : BitVec 7) (o : BitVec 7)
  /-- BR_NE_LONG, R94: Branches by a 32-bit convoy offset when sa differs from sb. -/
  | brNeLong (a : BitVec 7) (b : BitVec 7) (e : BitVec 32)
  /-- BR_LTS_SHORT, R94: Branches by a 7-bit offset when sa is less than sb signed. -/
  | brLtsShort (a : BitVec 7) (b : BitVec 7) (o : BitVec 7)
  /-- BR_LTS_LONG, R94: Branches by a 32-bit offset when sa is less than sb signed. -/
  | brLtsLong (a : BitVec 7) (b : BitVec 7) (e : BitVec 32)
  /-- BR_GES_SHORT, R94: Branches by a 7-bit offset when sa is at least sb signed. -/
  | brGesShort (a : BitVec 7) (b : BitVec 7) (o : BitVec 7)
  /-- BR_GES_LONG, R94: Branches by a 32-bit offset when sa is at least sb signed. -/
  | brGesLong (a : BitVec 7) (b : BitVec 7) (e : BitVec 32)
  /-- BR_LTZ_SHORT, R94: Branches by a 7-bit offset when sa is less than sb unsigned. -/
  | brLtzShort (a : BitVec 7) (b : BitVec 7) (o : BitVec 7)
  /-- BR_LTZ_LONG, R94: Branches by a 32-bit offset when sa is less than sb unsigned. -/
  | brLtzLong (a : BitVec 7) (b : BitVec 7) (e : BitVec 32)
  /-- BR_GEZ_SHORT, R94: Branches by a 7-bit offset when sa is at least sb unsigned. -/
  | brGezShort (a : BitVec 7) (b : BitVec 7) (o : BitVec 7)
  /-- BR_GEZ_LONG, R94: Branches by a 32-bit offset when sa is at least sb unsigned. -/
  | brGezLong (a : BitVec 7) (b : BitVec 7) (e : BitVec 32)
  /-- BR_ANY_SHORT, R94: Branches by a 7-bit offset when any mask bit below VL is set. -/
  | brAnyShort (m : BitVec 7) (o : BitVec 7)
  /-- BR_ANY_LONG, R94: Branches by a 32-bit offset when any mask bit below VL is set. -/
  | brAnyLong (m : BitVec 7) (e : BitVec 32)
  /-- JMP_SHORT, R95: Jumps by a 14-bit signed convoy offset at retirement. -/
  | jmpShort (o : BitVec 14)
  /-- JMP_LONG, R95: Jumps by a 32-bit signed convoy offset at retirement. -/
  | jmpLong (e : BitVec 32)
  /-- JAL_SHORT, R95: Writes the return convoy address to sd and jumps by a 14-bit offset. -/
  | jalShort (a : BitVec 7) (o : BitVec 14)
  /-- JAL_LONG, R95: Writes the return convoy address to sd and jumps by a 32-bit offset. -/
  | jalLong (a : BitVec 7) (e : BitVec 32)
  /-- JR, R95: Jumps to the address in sb and writes the return address to sd. -/
  | jr (a : BitVec 7) (b : BitVec 7)
  /-- LROT_SHORT, R99: Counts down a pipelined loop, shifts SPRD, rotates the register region and branches by a 7-bit offset. -/
  | lrotShort (a : BitVec 7) (d : BitVec 7) (o : BitVec 7)
  /-- LROT_LONG, R99: The loop rotation with a 32-bit convoy offset. -/
  | lrotLong (a : BitVec 7) (d : BitVec 7) (e : BitVec 32)
  /-- WBASE, R100: Moves the scalar and vector window bases by signed steps. -/
  | wbase (s : BitVec 7) (v : BitVec 7)
  /-- NOP, R101: Has no effect. -/
  | nop
  /-- YIELD, R101: Makes the round-robin choice pass over the hart once. -/
  | yield
  /-- LDS_B, R151: Loads one byte sign-extended. -/
  | ldsB (a : BitVec 7) (b : BitVec 7) (c : BitVec 7) (e : Option (BitVec 32))
  /-- LDS_H, R151: Loads two bytes sign-extended. -/
  | ldsH (a : BitVec 7) (b : BitVec 7) (c : BitVec 7) (e : Option (BitVec 32))
  /-- LDS_W, R151: Loads four bytes sign-extended. -/
  | ldsW (a : BitVec 7) (b : BitVec 7) (c : BitVec 7) (e : Option (BitVec 32))
  /-- LDZ_B, R151: Loads one byte zero-extended. -/
  | ldzB (a : BitVec 7) (b : BitVec 7) (c : BitVec 7) (e : Option (BitVec 32))
  /-- LDZ_H, R151: Loads two bytes zero-extended. -/
  | ldzH (a : BitVec 7) (b : BitVec 7) (c : BitVec 7) (e : Option (BitVec 32))
  /-- LDZ_W, R151: Loads four bytes zero-extended. -/
  | ldzW (a : BitVec 7) (b : BitVec 7) (c : BitVec 7) (e : Option (BitVec 32))
  /-- LD_D, R151: Loads eight bytes, also the loads of the event window and class-2 registers. -/
  | ldD (a : BitVec 7) (b : BitVec 7) (c : BitVec 7) (e : Option (BitVec 32))
  /-- ST_B, R151: Stores the low byte of sa. -/
  | stB (a : BitVec 7) (b : BitVec 7) (c : BitVec 7) (e : Option (BitVec 32))
  /-- ST_H, R151: Stores the low two bytes of sa. -/
  | stH (a : BitVec 7) (b : BitVec 7) (c : BitVec 7) (e : Option (BitVec 32))
  /-- ST_W, R151: Stores the low four bytes of sa. -/
  | stW (a : BitVec 7) (b : BitVec 7) (c : BitVec 7) (e : Option (BitVec 32))
  /-- ST_D, R151: Stores eight bytes, also the stores of the event window and class-2 registers. -/
  | stD (a : BitVec 7) (b : BitVec 7) (c : BitVec 7) (e : Option (BitVec 32))
  /-- PF, R152: Brings the 64-byte sector that holds the address into the L2. -/
  | pf (b : BitVec 7) (c : BitVec 7) (e : Option (BitVec 32))
  /-- EVF, R152: Marks a resident line as the next victim of its set. -/
  | evf (b : BitVec 7) (c : BitVec 7) (e : Option (BitVec 32))
  /-- UNPIN, R152: Makes retained L2 lines of a range ordinary on every slice. -/
  | unpin (b : BitVec 7) (c : BitVec 7) (e : Option (BitVec 32))
  /-- VLD, R153: Loads a unit-stride vector. -/
  | vld (a : BitVec 7) (b : BitVec 7) (e : Option (BitVec 32))
  /-- VLDS, R153: Loads a strided vector. -/
  | vlds (a : BitVec 7) (b : BitVec 7) (c : BitVec 7) (e : Option (BitVec 32))
  /-- VLDX, R153: Gathers a vector through an index group. -/
  | vldx (a : BitVec 7) (b : BitVec 7) (c : BitVec 7) (e : Option (BitVec 32))
  /-- VLDK, R156: Loads a narrow or block-format vector with its scale plane under a prefix. -/
  | vldk (a : BitVec 7) (b : BitVec 7) (c : BitVec 7) (e : Option (BitVec 32))
  /-- VST, R153: Stores a unit-stride vector. -/
  | vst (a : BitVec 7) (b : BitVec 7) (e : Option (BitVec 32))
  /-- VSTS, R153: Stores a strided vector. -/
  | vsts (a : BitVec 7) (b : BitVec 7) (c : BitVec 7) (e : Option (BitVec 32))
  /-- VSTX, R153: Scatters a vector through an index group. -/
  | vstx (a : BitVec 7) (b : BitVec 7) (c : BitVec 7) (e : Option (BitVec 32))
  /-- VSBM, R155: Stores a byte string under a byte mask. -/
  | vsbm (a : BitVec 7) (b : BitVec 7) (e : Option (BitVec 32))
  /-- VSTK, R156: Stores a narrow or block-format vector with its scale plane. -/
  | vstk (a : BitVec 7) (b : BitVec 7) (c : BitVec 7) (e : Option (BitVec 32))
  /-- AADD_S, R158: Scalar atomic add. -/
  | aaddS (a : BitVec 7) (b : BitVec 7) (c : BitVec 7) (e : Option (BitVec 32))
  /-- AAND_S, R158: Scalar atomic AND. -/
  | aandS (a : BitVec 7) (b : BitVec 7) (c : BitVec 7) (e : Option (BitVec 32))
  /-- AOR_S, R158: Scalar atomic OR. -/
  | aorS (a : BitVec 7) (b : BitVec 7) (c : BitVec 7) (e : Option (BitVec 32))
  /-- AXOR_S, R158: Scalar atomic XOR. -/
  | axorS (a : BitVec 7) (b : BitVec 7) (c : BitVec 7) (e : Option (BitVec 32))
  /-- AMIN_S, R158: Scalar atomic unsigned minimum. -/
  | aminS (a : BitVec 7) (b : BitVec 7) (c : BitVec 7) (e : Option (BitVec 32))
  /-- AMINS_S, R158: Scalar atomic signed minimum. -/
  | aminsS (a : BitVec 7) (b : BitVec 7) (c : BitVec 7) (e : Option (BitVec 32))
  /-- AMAX_S, R158: Scalar atomic unsigned maximum. -/
  | amaxS (a : BitVec 7) (b : BitVec 7) (c : BitVec 7) (e : Option (BitVec 32))
  /-- AMAXS_S, R158: Scalar atomic signed maximum. -/
  | amaxsS (a : BitVec 7) (b : BitVec 7) (c : BitVec 7) (e : Option (BitVec 32))
  /-- ASWAP_S, R158: Scalar atomic swap. -/
  | aswapS (a : BitVec 7) (b : BitVec 7) (c : BitVec 7) (e : Option (BitVec 32))
  /-- ACAS_S, R158: Scalar atomic compare-and-swap. -/
  | acasS (a : BitVec 7) (b : BitVec 7) (c : BitVec 7) (e : Option (BitVec 32))
  /-- AADD_V, R159: Vector atomic add, element by element. -/
  | aaddV (a : BitVec 7) (b : BitVec 7) (c : BitVec 7) (e : Option (BitVec 32))
  /-- AAND_V, R159: Vector atomic AND. -/
  | aandV (a : BitVec 7) (b : BitVec 7) (c : BitVec 7) (e : Option (BitVec 32))
  /-- AOR_V, R159: Vector atomic OR. -/
  | aorV (a : BitVec 7) (b : BitVec 7) (c : BitVec 7) (e : Option (BitVec 32))
  /-- AXOR_V, R159: Vector atomic XOR. -/
  | axorV (a : BitVec 7) (b : BitVec 7) (c : BitVec 7) (e : Option (BitVec 32))
  /-- AMIN_V, R159: Vector atomic unsigned minimum. -/
  | aminV (a : BitVec 7) (b : BitVec 7) (c : BitVec 7) (e : Option (BitVec 32))
  /-- AMINS_V, R159: Vector atomic signed minimum. -/
  | aminsV (a : BitVec 7) (b : BitVec 7) (c : BitVec 7) (e : Option (BitVec 32))
  /-- AMAX_V, R159: Vector atomic unsigned maximum. -/
  | amaxV (a : BitVec 7) (b : BitVec 7) (c : BitVec 7) (e : Option (BitVec 32))
  /-- AMAXS_V, R159: Vector atomic signed maximum. -/
  | amaxsV (a : BitVec 7) (b : BitVec 7) (c : BitVec 7) (e : Option (BitVec 32))
  /-- ASWAP_V, R159: Vector atomic swap. -/
  | aswapV (a : BitVec 7) (b : BitVec 7) (c : BitVec 7) (e : Option (BitVec 32))
  /-- ACAS_V, R159: Vector atomic compare-and-swap. -/
  | acasV (a : BitVec 7) (b : BitVec 7) (c : BitVec 7) (e : Option (BitVec 32))
  /-- CWAIT_L, R162: Waits until LCNT is at most n. -/
  | cwaitL (i : BitVec 14)
  /-- CWAIT_S, R162: Waits until SCNT is at most n. -/
  | cwaitS (i : BitVec 14)
  /-- FWAIT, R164: Reads a future, parking in the belay table until it is full. -/
  | fwait (a : BitVec 7) (b : BitVec 7) (e : Option (BitVec 32))
  /-- VFWAIT, R166: Arms entries for a vector of futures and parks until all armed ones are full. -/
  | vfwait (a : BitVec 7) (b : BitVec 7) (c : BitVec 7) (e : Option (BitVec 32))
  /-- FFILL, R165: Atomically fills a future and sends wakes to the belay tables of its scope. -/
  | ffill (a : BitVec 7) (b : BitVec 7) (c : BitVec 7) (e : Option (BitVec 32))
  /-- VPF, R157: Prefetches every sector of a vector range. -/
  | vpf (b : BitVec 7) (e : Option (BitVec 32))
  /-- VEVF, R157: Marks every line of a vector range evict-first. -/
  | vevf (b : BitVec 7) (e : Option (BitVec 32))
  /-- VADD, R110: Vector integer add. -/
  | vadd (a : BitVec 7) (b : BitVec 7) (c : BitVec 7)
  /-- VSUB, R110: Vector integer subtract. -/
  | vsub (a : BitVec 7) (b : BitVec 7) (c : BitVec 7)
  /-- VMUL, R110: Vector integer multiply, low half. -/
  | vmul (a : BitVec 7) (b : BitVec 7) (c : BitVec 7)
  /-- VMULHS, R110: Vector signed multiply, high half. -/
  | vmulhs (a : BitVec 7) (b : BitVec 7) (c : BitVec 7)
  /-- VMULHZ, R110: Vector unsigned multiply, high half. -/
  | vmulhz (a : BitVec 7) (b : BitVec 7) (c : BitVec 7)
  /-- VMACC, R110: Vector integer multiply-accumulate. -/
  | vmacc (a : BitVec 7) (b : BitVec 7) (c : BitVec 7)
  /-- VDIVS, R110: Vector signed divide. -/
  | vdivs (a : BitVec 7) (b : BitVec 7) (c : BitVec 7)
  /-- VDIVZ, R110: Vector unsigned divide. -/
  | vdivz (a : BitVec 7) (b : BitVec 7) (c : BitVec 7)
  /-- VREMS, R110: Vector signed remainder. -/
  | vrems (a : BitVec 7) (b : BitVec 7) (c : BitVec 7)
  /-- VREMZ, R110: Vector unsigned remainder. -/
  | vremz (a : BitVec 7) (b : BitVec 7) (c : BitVec 7)
  /-- VAND, R110: Vector AND. -/
  | vand (a : BitVec 7) (b : BitVec 7) (c : BitVec 7)
  /-- VOR, R110: Vector OR. -/
  | vor (a : BitVec 7) (b : BitVec 7) (c : BitVec 7)
  /-- VXOR, R110: Vector XOR. -/
  | vxor (a : BitVec 7) (b : BitVec 7) (c : BitVec 7)
  /-- VANDN, R110: Vector AND NOT. -/
  | vandn (a : BitVec 7) (b : BitVec 7) (c : BitVec 7)
  /-- VSHL, R110: Vector shift left. -/
  | vshl (a : BitVec 7) (b : BitVec 7) (c : BitVec 7)
  /-- VSHRS, R110: Vector arithmetic shift right. -/
  | vshrs (a : BitVec 7) (b : BitVec 7) (c : BitVec 7)
  /-- VSHRZ, R110: Vector logical shift right. -/
  | vshrz (a : BitVec 7) (b : BitVec 7) (c : BitVec 7)
  /-- VMINS, R110: Vector signed minimum. -/
  | vmins (a : BitVec 7) (b : BitVec 7) (c : BitVec 7)
  /-- VMINZ, R110: Vector unsigned minimum. -/
  | vminz (a : BitVec 7) (b : BitVec 7) (c : BitVec 7)
  /-- VMAXS, R110: Vector signed maximum. -/
  | vmaxs (a : BitVec 7) (b : BitVec 7) (c : BitVec 7)
  /-- VMAXZ, R110: Vector unsigned maximum. -/
  | vmaxz (a : BitVec 7) (b : BitVec 7) (c : BitVec 7)
  /-- VSADDS, R110: Vector signed clamping add. -/
  | vsadds (a : BitVec 7) (b : BitVec 7) (c : BitVec 7)
  /-- VSADDZ, R110: Vector unsigned clamping add. -/
  | vsaddz (a : BitVec 7) (b : BitVec 7) (c : BitVec 7)
  /-- VSSUBS, R110: Vector signed clamping subtract. -/
  | vssubs (a : BitVec 7) (b : BitVec 7) (c : BitVec 7)
  /-- VSSUBZ, R110: Vector unsigned clamping subtract. -/
  | vssubz (a : BitVec 7) (b : BitVec 7) (c : BitVec 7)
  /-- VFMA, R112: Vector fused multiply-add with one rounding. -/
  | vfma (a : BitVec 7) (b : BitVec 7) (c : BitVec 7)
  /-- VFADD, R112: Vector float add. -/
  | vfadd (a : BitVec 7) (b : BitVec 7) (c : BitVec 7)
  /-- VFSUB, R112: Vector float subtract. -/
  | vfsub (a : BitVec 7) (b : BitVec 7) (c : BitVec 7)
  /-- VFMUL, R112: Vector float multiply. -/
  | vfmul (a : BitVec 7) (b : BitVec 7) (c : BitVec 7)
  /-- VFDIV, R112: Vector float divide. -/
  | vfdiv (a : BitVec 7) (b : BitVec 7) (c : BitVec 7)
  /-- VFSQRT, R112: Vector float square root. -/
  | vfsqrt (a : BitVec 7) (b : BitVec 7)
  /-- VFRCPE, R113: Vector reciprocal estimate. -/
  | vfrcpe (a : BitVec 7) (b : BitVec 7)
  /-- VFRSQE, R113: Vector reciprocal square-root estimate. -/
  | vfrsqe (a : BitVec 7) (b : BitVec 7)
  /-- VFMIN, R114: Vector float minimum. -/
  | vfmin (a : BitVec 7) (b : BitVec 7) (c : BitVec 7)
  /-- VFMAX, R114: Vector float maximum. -/
  | vfmax (a : BitVec 7) (b : BitVec 7) (c : BitVec 7)
  /-- VFCLASS, R115: Writes a one-hot class of each float element. -/
  | vfclass (a : BitVec 7) (b : BitVec 7)
  /-- VFABS, R116: Clears the sign of each float element. -/
  | vfabs (a : BitVec 7) (b : BitVec 7)
  /-- VFNEG, R116: Inverts the sign of each float element. -/
  | vfneg (a : BitVec 7) (b : BitVec 7)
  /-- VFSGNJ, R116: Gives each element of a the sign of b. -/
  | vfsgnj (a : BitVec 7) (b : BitVec 7) (c : BitVec 7)
  /-- VCMPEQ, R117: Integer equal compare into a mask. -/
  | vcmpeq (a : BitVec 7) (b : BitVec 7) (c : BitVec 7)
  /-- VCMPNE, R117: Integer not-equal compare into a mask. -/
  | vcmpne (a : BitVec 7) (b : BitVec 7) (c : BitVec 7)
  /-- VCMPLTS, R117: Signed less-than compare into a mask. -/
  | vcmplts (a : BitVec 7) (b : BitVec 7) (c : BitVec 7)
  /-- VCMPLTZ, R117: Unsigned less-than compare into a mask. -/
  | vcmpltz (a : BitVec 7) (b : BitVec 7) (c : BitVec 7)
  /-- VCMPLES, R117: Signed less-or-equal compare into a mask. -/
  | vcmples (a : BitVec 7) (b : BitVec 7) (c : BitVec 7)
  /-- VCMPLEZ, R117: Unsigned less-or-equal compare into a mask. -/
  | vcmplez (a : BitVec 7) (b : BitVec 7) (c : BitVec 7)
  /-- VFCMPEQ, R117: Float equal compare into a mask. -/
  | vfcmpeq (a : BitVec 7) (b : BitVec 7) (c : BitVec 7)
  /-- VFCMPLT, R117: Float less-than compare into a mask. -/
  | vfcmplt (a : BitVec 7) (b : BitVec 7) (c : BitVec 7)
  /-- VFCMPLE, R117: Float less-or-equal compare into a mask. -/
  | vfcmple (a : BitVec 7) (b : BitVec 7) (c : BitVec 7)
  /-- VFCMPUN, R117: Float unordered compare into a mask. -/
  | vfcmpun (a : BitVec 7) (b : BitVec 7) (c : BitVec 7)
  /-- VFCVT, R119: Converts floats between formats, block formats included, with saturation. -/
  | vfcvt (a : BitVec 7) (b : BitVec 7) (c : BitVec 7)
  /-- VFCVTS, R120: Converts floats to signed integers, rounding to nearest. -/
  | vfcvts (a : BitVec 7) (b : BitVec 7) (c : BitVec 7)
  /-- VFCVTZ, R120: Converts floats to unsigned integers, rounding to nearest. -/
  | vfcvtz (a : BitVec 7) (b : BitVec 7) (c : BitVec 7)
  /-- VFCVTTS, R120: Converts floats to signed integers, truncating. -/
  | vfcvtts (a : BitVec 7) (b : BitVec 7) (c : BitVec 7)
  /-- VFCVTTZ, R120: Converts floats to unsigned integers, truncating. -/
  | vfcvttz (a : BitVec 7) (b : BitVec 7) (c : BitVec 7)
  /-- VSCVTF, R121: Converts signed integers to floats. -/
  | vscvtf (a : BitVec 7) (b : BitVec 7) (c : BitVec 7)
  /-- VZCVTF, R121: Converts unsigned integers to floats. -/
  | vzcvtf (a : BitVec 7) (b : BitVec 7) (c : BitVec 7)
  /-- VWIDENS, R122: Sign-extends integers to a wider width. -/
  | vwidens (a : BitVec 7) (b : BitVec 7) (c : BitVec 7)
  /-- VWIDENZ, R122: Zero-extends integers to a wider width. -/
  | vwidenz (a : BitVec 7) (b : BitVec 7) (c : BitVec 7)
  /-- VNARRS, R122: Narrows signed integers with clamping. -/
  | vnarrs (a : BitVec 7) (b : BitVec 7) (c : BitVec 7)
  /-- VNARRZ, R122: Narrows unsigned integers with clamping. -/
  | vnarrz (a : BitVec 7) (b : BitVec 7) (c : BitVec 7)
  /-- VCMUL, R124: Complex FP32 multiply. -/
  | vcmul (a : BitVec 7) (b : BitVec 7) (c : BitVec 7)
  /-- VCMAC, R124: Complex FP32 multiply-accumulate. -/
  | vcmac (a : BitVec 7) (b : BitVec 7) (c : BitVec 7)
  /-- VCCONJ, R124: Complex conjugate. -/
  | vcconj (a : BitVec 7) (b : BitVec 7)
  /-- VCNORM, R125: Complex normalisation to unit magnitude. -/
  | vcnorm (a : BitVec 7) (b : BitVec 7)
  /-- VMOV, R129: Copies active elements. -/
  | vmov (a : BitVec 7) (b : BitVec 7)
  /-- VSPLAT, R129: Writes a scalar to every active element. -/
  | vsplat (a : BitVec 7) (b : BitVec 7)
  /-- VMERGE, R129: Selects each element from a or b by the mask. -/
  | vmerge (a : BitVec 7) (b : BitVec 7) (c : BitVec 7)
  /-- VSLUP, R130: Slides elements up by a scalar amount. -/
  | vslup (a : BitVec 7) (b : BitVec 7) (c : BitVec 7)
  /-- VSLDN, R130: Slides elements down by a scalar amount. -/
  | vsldn (a : BitVec 7) (b : BitVec 7) (c : BitVec 7)
  /-- VPERM, R131: Permutes elements by an index vector. -/
  | vperm (a : BitVec 7) (b : BitVec 7) (c : BitVec 7)
  /-- VCOMP, R132: Compresses active elements to the low end. -/
  | vcomp (a : BitVec 7) (b : BitVec 7)
  /-- VEXP, R132: Expands low elements to active positions. -/
  | vexp (a : BitVec 7) (b : BitVec 7)
  /-- VSH, R133: Shifts a group as one bit string by a signed amount. -/
  | vsh (a : BitVec 7) (b : BitVec 7) (c : BitVec 7)
  /-- VFSH, R133: Funnel-shifts the concatenation of a and the old destination. -/
  | vfsh (a : BitVec 7) (b : BitVec 7) (c : BitVec 7)
  /-- VRSUM, R134: Integer sum reduction to a scalar. -/
  | vrsum (a : BitVec 7) (b : BitVec 7) (c : BitVec 7)
  /-- VRFSUM, R135: Float sum reduction in a fixed tree. -/
  | vrfsum (a : BitVec 7) (b : BitVec 7) (c : BitVec 7)
  /-- VRMINS, R134: Signed minimum reduction. -/
  | vrmins (a : BitVec 7) (b : BitVec 7) (c : BitVec 7)
  /-- VRMINZ, R134: Unsigned minimum reduction. -/
  | vrminz (a : BitVec 7) (b : BitVec 7) (c : BitVec 7)
  /-- VRMAXS, R134: Signed maximum reduction. -/
  | vrmaxs (a : BitVec 7) (b : BitVec 7) (c : BitVec 7)
  /-- VRMAXZ, R134: Unsigned maximum reduction. -/
  | vrmaxz (a : BitVec 7) (b : BitVec 7) (c : BitVec 7)
  /-- VRFMIN, R136: Float minimum reduction. -/
  | vrfmin (a : BitVec 7) (b : BitVec 7) (c : BitVec 7)
  /-- VRFMAX, R136: Float maximum reduction. -/
  | vrfmax (a : BitVec 7) (b : BitVec 7) (c : BitVec 7)
  /-- VGMAX, R137: Reduces each run of g elements to its unsigned maximum. -/
  | vgmax (a : BitVec 7) (b : BitVec 7) (c : BitVec 7)
  /-- VGSUM, R137: Reduces each run of g elements to its sum. -/
  | vgsum (a : BitVec 7) (b : BitVec 7) (c : BitVec 7)
  /-- MAND, R138: ANDs two masks. -/
  | maskAnd (a : BitVec 7) (b : BitVec 7) (c : BitVec 7)
  /-- MOR, R138: ORs two masks. -/
  | maskOr (a : BitVec 7) (b : BitVec 7) (c : BitVec 7)
  /-- MXOR, R138: XORs two masks. -/
  | maskXor (a : BitVec 7) (b : BitVec 7) (c : BitVec 7)
  /-- MANDN, R138: ANDs a mask with the complement of another. -/
  | maskAndn (a : BitVec 7) (b : BitVec 7) (c : BitVec 7)
  /-- MCLR, R138: Clears a mask. -/
  | mclr (a : BitVec 7)
  /-- MSET, R138: Sets every bit of a mask. -/
  | mset (a : BitVec 7)
  /-- MPOPC, R139: Counts mask bits below VL. -/
  | mpopc (a : BitVec 7) (b : BitVec 7)
  /-- MFIRST, R139: Finds the lowest set mask bit below VL. -/
  | mfirst (a : BitVec 7) (b : BitVec 7)
  /-- VGETX, R140: Reads one vector element into a scalar. -/
  | vgetx (a : BitVec 7) (b : BitVec 7) (c : BitVec 7)
  /-- VPUTX, R140: Writes a scalar into one vector element. -/
  | vputx (a : BitVec 7) (b : BitVec 7) (c : BitVec 7)
  /-- FMT, R174: Sets the pending format prefix for the next live instruction. -/
  | fmt (t : BitVec 5) (u : BitVec 1) (x : BitVec 1) (b : BitVec 7) (c : BitVec 7)
  /-- MMA, R182: Float or block-format matrix multiply-accumulate into a tile. -/
  | mma (a : BitVec 7) (b : BitVec 7) (c : BitVec 7)
  /-- MMAI, R183: Integer matrix multiply-accumulate into an int40 tile. -/
  | mmai (a : BitVec 7) (b : BitVec 7) (c : BitVec 7)
  /-- MMAL_X, R190: Expands latents through W and multiply-accumulates into a tile. -/
  | mmalX (a : BitVec 7) (b : BitVec 7) (c : BitVec 7) (e : Option (BitVec 32))
  /-- MMAL_A, R190: Absorbs queries through W and multiply-accumulates against latents. -/
  | mmalA (a : BitVec 7) (b : BitVec 7) (c : BitVec 7) (e : Option (BitVec 32))
  /-- IPLOAD, R187: Loads the infuser W and takes ownership, or releases it. -/
  | ipload (b : BitVec 7) (c : BitVec 7)
  /-- IPSAVE, R188: Saves W and an owner descriptor to memory. -/
  | ipsave (b : BitVec 7)
  /-- ATZERO, R192: Zeroes a tile and sets its cell mode. -/
  | atzero (a : BitVec 7) (b : BitVec 7)
  /-- ATMOV, R192: Copies one tile to the other. -/
  | atmov (a : BitVec 7) (b : BitVec 7)
  /-- ATLOAD, R192: Loads a tile image and sets its mode. -/
  | atload (a : BitVec 7) (b : BitVec 7) (c : BitVec 7)
  /-- ATSAVE, R192: Saves a tile image to memory. -/
  | atsave (a : BitVec 7) (b : BitVec 7)
  /-- ATTR, R192: Transposes a tile. -/
  | attr (a : BitVec 7)
  /-- ATADD, R192: Adds one tile into another. -/
  | atadd (a : BitVec 7) (b : BitVec 7)
  /-- ATGET_F32, R193: Reads FA40 cells to FP32 elements. -/
  | atgetF32 (a : BitVec 7) (b : BitVec 7) (c : BitVec 7)
  /-- ATGET_BF16, R193: Reads FA40 cells to BF16 elements. -/
  | atgetBf16 (a : BitVec 7) (b : BitVec 7) (c : BitVec 7)
  /-- ATGET_I32, R193: Reads int40 cells clamped to 32 bits. -/
  | atgetI32 (a : BitVec 7) (b : BitVec 7) (c : BitVec 7)
  /-- ATPUT_F32, R193: Writes FP32 elements into FA40 cells. -/
  | atputF32 (a : BitVec 7) (b : BitVec 7) (c : BitVec 7)
  /-- ATPUT_I32, R193: Writes 32-bit integers sign-extended into int40 cells. -/
  | atputI32 (a : BitVec 7) (b : BitVec 7) (c : BitVec 7)
  /-- XDELTA, R203: Delta-codes elements against a seed. -/
  | xdelta (a : BitVec 7) (b : BitVec 7) (c : BitVec 7)
  /-- XUNDELTA, R203: Prefix-sums deltas from a seed. -/
  | xundelta (a : BitVec 7) (b : BitVec 7) (c : BitVec 7)
  /-- XZZ, R203: Zigzag-encodes elements. -/
  | xzz (a : BitVec 7) (b : BitVec 7)
  /-- XUNZZ, R203: Zigzag-decodes elements. -/
  | xunzz (a : BitVec 7) (b : BitVec 7)
  /-- XPACK, R204: Packs elements at a fixed bit width. -/
  | xpack (a : BitVec 7) (b : BitVec 7) (c : BitVec 7)
  /-- XUNPACK, R204: Unpacks fixed-width fields. -/
  | xunpack (a : BitVec 7) (b : BitVec 7) (c : BitVec 7)
  /-- XPACKG, R205: Packs elements at per-group widths. -/
  | xpackg (a : BitVec 7) (b : BitVec 7) (c : BitVec 7)
  /-- XUNPACKG, R205: Unpacks fields at per-group widths. -/
  | xunpackg (a : BitVec 7) (b : BitVec 7) (c : BitVec 7)
  /-- XDTAB, R207: Loads the hart's decode state table. -/
  | xdtab (b : BitVec 7) (c : BitVec 7)
  /-- XDEC, R208: Decodes variable-length symbols from a bit stream through the table. -/
  | xdec (a : BitVec 7) (b : BitVec 7) (c : BitVec 7)
  /-- XQUANT, R211: Quantises FP32 to integers against a scale word and folds the maximum. -/
  | xquant (a : BitVec 7) (b : BitVec 7) (c : BitVec 7) (e : BitVec 32)
  /-- XDEQUANT, R212: Dequantises integers by a scale word. -/
  | xdequant (a : BitVec 7) (b : BitVec 7) (c : BitVec 7) (e : BitVec 32)
  /-- XCRC, R213: Runs raw CRC-32C over vector bytes. -/
  | xcrc (a : BitVec 7) (b : BitVec 7)
  /-- XCRCF, R213: Runs CRC-32C with inversions over vector bytes. -/
  | xcrcf (a : BitVec 7) (b : BitVec 7)
  /-- XTOPK, R215: Selects the k largest elements into a list. -/
  | xtopk (a : BitVec 7) (b : BitVec 7) (c : BitVec 7)
  /-- XBOTK, R215: Selects the k smallest elements into a list. -/
  | xbotk (a : BitVec 7) (b : BitVec 7) (c : BitVec 7)
  /-- XKMERGE, R216: Merges two top-k lists. -/
  | xkmerge (a : BitVec 7) (b : BitVec 7) (c : BitVec 7)
  /-- XBKMERGE, R216: Merges two bottom-k lists. -/
  | xbkmerge (a : BitVec 7) (b : BitVec 7) (c : BitVec 7)
  /-- TSPAWN, R220: Queues a copy of a task record and returns a status. -/
  | tspawn (a : BitVec 7) (b : BitVec 7) (c : BitVec 7)
  /-- TEND, R221: Ends the running task, commits and writes the completion word. -/
  | tend (b : BitVec 7)
  /-- TABORT, R222: Aborts the running task, discarding buffered work. -/
  | tabort (b : BitVec 7)
  /-- TSTAT, R223: Returns a selected task statistic. -/
  | tstat (a : BitVec 7) (b : BitVec 7)
  /-- FORK, R225: Starts a child task with a revision over regions. -/
  | forkTask (a : BitVec 7) (b : BitVec 7) (c : BitVec 7)
  /-- JOIN, R228: Waits for a child and merges its revision. -/
  | joinChild (a : BitVec 7) (b : BitVec 7)
  /-- JOINALL, R228: Joins every outstanding child in fork order. -/
  | joinall (a : BitVec 7)
  /-- CANCEL, R234: Sends a cancel token for a graph instance to every queue and core. -/
  | cancelInst (b : BitVec 7)
  /-- BST, R232: Records blend stores applied at commit in ticket order. -/
  | bst (a : BitVec 7) (b : BitVec 7) (c : BitVec 7) (e : BitVec 32)
  /-- ORDB, R233: Opens an ordered section on a key, waiting for lower tickets. -/
  | ordb (b : BitVec 7)
  /-- ORDE, R233: Closes the ordered section and publishes its stores. -/
  | orde
  /-- TKGET, R230: Draws the next ticket of a domain. -/
  | tkget (a : BitVec 7) (b : BitVec 7)
  /-- ROPE, R235: Asks to join a rope of the given size. -/
  | rope (a : BitVec 7) (b : BitVec 7)
  /-- UNROPE, R235: Disbands the rope. -/
  | unrope
  /-- RBAR, R236: Rope barrier that sums addends into RBAR. -/
  | rbar (a : BitVec 7) (b : BitVec 7)
  /-- MSEND, R237: Sends an 8-byte message to a receive queue. -/
  | msend (b : BitVec 7) (c : BitVec 7)
  /-- VMSEND, R237: Sends up to 128 vector bytes as a message. -/
  | vmsend (b : BitVec 7) (c : BitVec 7)
  /-- MRECV, R238: Removes the oldest message into a scalar, parking when empty. -/
  | mrecv (a : BitVec 7) (b : BitVec 7)
  /-- VMRECV, R238: Removes the oldest message into a vector register with its length. -/
  | vmrecv (a : BitVec 7) (b : BitVec 7) (c : BitVec 7)
  /-- MPOLL, R238: Returns the number of waiting messages. -/
  | mpoll (a : BitVec 7) (b : BitVec 7)
  /-- VREDQ, R239: Folds n integer messages into an accumulator group. -/
  | vredq (a : BitVec 7) (b : BitVec 7) (c : BitVec 7)
  /-- VREDQF, R239: Folds n float messages into an accumulator group. -/
  | vredqf (a : BitVec 7) (b : BitVec 7) (c : BitVec 7)
  /-- TWAIT, R240: Parks until TB reaches a value. -/
  | twait (b : BitVec 7)
  /-- TWAITD, R240: Parks for a duration in nanoseconds. -/
  | twaitd (b : BitVec 7)
  /-- RBOX, R247: Tests rays against a node's child boxes and writes ordered hit lists. -/
  | rbox (a : BitVec 7) (b : BitVec 7) (c : BitVec 7)
  /-- RTRI, R250: Tests rays against one leaf triangle watertight and advances the reference. -/
  | rtri (a : BitVec 7) (b : BitVec 7) (c : BitVec 7)
  /-- RPUSH, R249: Pushes hit children on the ray stack and takes the nearest. -/
  | rpush (a : BitVec 7) (b : BitVec 7) (c : BitVec 7)
  /-- RPOP, R249: Pops the stack of rays with no current node and counts live rays. -/
  | rpop (a : BitVec 7) (b : BitVec 7) (c : BitVec 7)
  /-- RHIT, R251: Commits nearer candidate hits and shrinks tmax. -/
  | rhit (a : BitVec 7) (b : BitVec 7) (c : BitVec 7)
  /-- RTERM, R249: Ends rays by clearing their node and stack. -/
  | rterm (a : BitVec 7) (b : BitVec 7)
  /-- RSPAWN, R253: Queues one task per active ray from a template. -/
  | rspawn (a : BitVec 7) (b : BitVec 7) (c : BitVec 7)
  /-- RDEPTH, R252: Returns the task's spawn depth. -/
  | rdepth (a : BitVec 7)
  /-- TEX_BL, R257: Bilinear texture sample. -/
  | texBl (a : BitVec 7) (b : BitVec 7) (c : BitVec 7)
  /-- TEX_ST, R257: Stochastic texture sample chosen by hash. -/
  | texSt (a : BitVec 7) (b : BitVec 7) (c : BitVec 7)
  /-- TEX_PT, R257: Point texture sample. -/
  | texPt (a : BitVec 7) (b : BitVec 7) (c : BitVec 7)
  /-- TEXQ, R259: Returns the size of a texture level. -/
  | texq (a : BitVec 7) (b : BitVec 7) (c : BitVec 7)
  /-- MOUT, R260: Writes vertex slots into the mesh buffer. -/
  | mout (a : BitVec 7) (b : BitVec 7) (c : BitVec 7)
  /-- MPRIM, R260: Writes primitive indices into the mesh buffer. -/
  | mprim (a : BitVec 7) (b : BitVec 7)
  /-- MEND, R261: Hands the mesh buffer's primitives to the area classifier and clears it. -/
  | mend (b : BitVec 7) (c : BitVec 7)
  /-- RAST, R262: Hands screen-space triangle records to the classifier. -/
  | rast (a : BitVec 7) (b : BitVec 7) (c : BitVec 7)
  /-- SGET, R264: Reads a system register. -/
  | sget (a : BitVec 7) (n : BitVec 12)
  /-- SSET, R264: Writes a system register field by field. -/
  | sset (a : BitVec 7) (n : BitVec 12)
  /-- SSWAP, R264: Swaps a system register indivisibly, number in the extension word. -/
  | sswap (a : BitVec 7) (b : BitVec 7) (e : BitVec 32)
  /-- SCALL, R270: Raises SYSTEM-CALL with a code, resuming after the slot. -/
  | scall (i : BitVec 14)
  /-- ERET, R275: Returns from a handler, restoring mode, last-result file and resume state. -/
  | eret
  /-- BRK, R270: Raises BREAKPOINT with a code. -/
  | brk (i : BitVec 14)
  /-- WFI, R276: Parks the hart until a trap, message or wake. -/
  | wfi
  /-- HALT, R276: Drains counters and makes the hart idle. -/
  | halt
  /-- TLBW, R277: Writes a TLB entry (firmware) or requests a walk (supervisor). -/
  | tlbw (a : BitVec 7) (b : BitVec 7) (c : BitVec 7)
  /-- TLBI, R278: Drops TLB entries of a context locally or device-wide. -/
  | tlbi (b : BitVec 7) (c : BitVec 7)
  /-- TLBR, R277: Returns the held TLB entry for an address. -/
  | tlbr (a : BitVec 7) (b : BitVec 7)
  /-- HSAVE, R280: Writes the hart image to memory. -/
  | hsave (b : BitVec 7)
  /-- HREST, R281: Replaces the hart state with an image. -/
  | hrest (b : BitVec 7)
  /-- PACK, R283: Records the pre-empted hart, spills its queues and releases its allocation. -/
  | pack (b : BitVec 7) (c : BitVec 7)
deriving DecidableEq, Repr

end Sys2Proof
end

