-- ==== Sys2Proof/Decode.lean ====
section
/-! DEFINITION. The decoder and the encoder of slot words (R69 to R78) and of convoys (R65, R66). The functions that build an `Instr` are marked
noncomputable for one reason: the compiler's runtime has no tag for a constructor past the 245th. Lean's kernel
evaluates them. -/
namespace Sys2Proof

/-- What a slot word with its extension, if it has one, decodes to. -/
inductive DecodeResult where
  /-- An instruction whose unused fields are 0 and whose required extension is present. -/
  | ok (i : Instr)
  /-- A defined pair with a non-zero unused field, a non-zero C in a long form, or a required extension missing: the
  instruction raises ILLEGAL-OPERAND at step 4 of R73 (R69, R71). -/
  | malformed (i : Instr)
  /-- A (major, fn) pair outside the map of R77 (R76). -/
  | undefined
deriving DecidableEq, Repr

/-- Field A, bits [17:11] (R69). -/
def fieldA (w : Word) : BitVec 7 := w.extractLsb' 11 7
/-- Field B, bits [24:18] (R69). -/
def fieldB (w : Word) : BitVec 7 := w.extractLsb' 18 7
/-- Field C, bits [31:25] (R69). -/
def fieldC (w : Word) : BitVec 7 := w.extractLsb' 25 7
/-- fn, bits [10:7] (R69). -/
def fieldFn (w : Word) : Nat := (w.extractLsb' 7 4).toNat
/-- major, bits [6:0] (R69). -/
def fieldMajor (w : Word) : Nat := (w.extractLsb' 0 7).toNat


/-- The (major, fn) pair is one of the 288 of R77. -/
def pairDefined (major fn : Nat) : Bool :=
  match major with
  | 0x00 => decide (1 ≤ fn ∧ fn < 7)
  | 0x01 => decide (fn < 4)
  | 0x02 => decide (fn < 4)
  | 0x03 => decide (fn < 5)
  | 0x04 => decide (fn < 7)
  | 0x05 => decide (fn < 3)
  | 0x06 => decide (fn < 4)
  | 0x07 => decide (fn < 4)
  | 0x08 => decide (fn < 3)
  | 0x10 => decide (fn < 7)
  | 0x11 => decide (fn < 3)
  | 0x12 => decide (fn < 2)
  | 0x13 => decide (fn < 2)
  | 0x14 => decide (fn < 7)
  | 0x15 => decide (fn < 4)
  | 0x16 => decide (fn < 3)
  | 0x38 => decide (fn < 4)
  | 0x39 => decide (fn < 5)
  | 0x3A => decide (fn < 10)
  | 0x3B => decide (fn < 10)
  | 0x3C => decide (fn < 2)
  | 0x3D => decide (fn < 3)
  | 0x3E => decide (fn < 2)
  | 0x18 => decide (fn < 6)
  | 0x19 => decide (fn < 4)
  | 0x1A => decide (fn < 4)
  | 0x1B => decide (fn < 3)
  | 0x1C => decide (fn < 4)
  | 0x1D => decide (fn < 4)
  | 0x20 => decide (fn < 6)
  | 0x21 => decide (fn < 5)
  | 0x22 => decide (fn < 3)
  | 0x24 => decide (fn < 6)
  | 0x25 => decide (fn < 4)
  | 0x28 => decide (fn < 5)
  | 0x29 => decide (fn < 2)
  | 0x2A => decide (fn < 4)
  | 0x2C => decide (fn < 4)
  | 0x30 => decide (fn < 3)
  | 0x31 => decide (fn < 5)
  | 0x32 => decide (fn < 2)
  | 0x33 => decide (fn < 8)
  | 0x34 => decide (fn < 2)
  | 0x35 => decide (fn < 6)
  | 0x36 => decide (fn < 4)
  | 0x44 => decide (fn < 1)
  | 0x45 => decide (fn < 4)
  | 0x46 => decide (fn < 2)
  | 0x47 => decide (fn < 6)
  | 0x48 => decide (fn < 5)
  | 0x4C => decide (fn < 4)
  | 0x4D => decide (fn < 4)
  | 0x4E => decide (fn < 2)
  | 0x4F => decide (fn < 2)
  | 0x50 => decide (fn < 2)
  | 0x51 => decide (fn < 4)
  | 0x54 => decide (fn < 4)
  | 0x55 => decide (fn < 3)
  | 0x56 => decide (fn < 1)
  | 0x57 => decide (fn < 4)
  | 0x58 => decide (fn < 3)
  | 0x59 => decide (fn < 7)
  | 0x5A => decide (fn < 2)
  | 0x5C => decide (fn < 2)
  | 0x5D => decide (fn < 4)
  | 0x5E => decide (fn < 2)
  | 0x5F => decide (fn < 4)
  | 0x60 => decide (fn < 3)
  | 0x61 => decide (fn < 1)
  | 0x64 => decide (fn < 3)
  | 0x65 => decide (fn < 5)
  | 0x66 => decide (fn < 3)
  | 0x67 => decide (fn < 3)
  | _ => false

/-- Pairs that admit an extension word: a long form of R71, the memory attribute word of R75, the control word of R178
and the words of R210, R232 and R263. -/
def admitsExt (major fn : Nat) : Bool :=
  match major with
  | 0x04 => decide (fn < 7)
  | 0x08 => decide (fn < 3)
  | 0x10 => decide (fn < 7)
  | 0x11 => decide (fn < 2)
  | 0x12 => decide (fn < 1)
  | 0x14 => decide (fn < 7)
  | 0x15 => decide (fn < 4)
  | 0x16 => decide (fn < 3)
  | 0x38 => decide (fn < 4)
  | 0x39 => decide (fn < 5)
  | 0x3A => decide (fn < 10)
  | 0x3B => decide (fn < 10)
  | 0x3D => decide (fn < 3)
  | 0x3E => decide (fn < 2)
  | 0x45 => decide (2 ≤ fn ∧ fn < 4)
  | 0x4F => decide (fn < 2)
  | 0x57 => decide (fn < 1)
  | 0x64 => decide (2 ≤ fn ∧ fn < 3)
  | _ => false

/-- The fields the pair does not use are 0, its long form's C is 0, an extension it requires is present and one it does
not admit absent (R69, R71). Only pairs with such a condition are listed; `fmt` checks no field (R174). -/
def fieldsOk (major fn : Nat) (a b c : BitVec 7) (e : Option Word) : Bool :=
  match major, fn, e with
  | 0x04, 0, none => true
  | 0x04, 0, some _ => decide (c = 0)
  | 0x04, 1, none => true
  | 0x04, 1, some _ => decide (c = 0)
  | 0x04, 2, none => true
  | 0x04, 2, some _ => decide (c = 0)
  | 0x04, 3, none => true
  | 0x04, 3, some _ => decide (c = 0)
  | 0x04, 4, none => true
  | 0x04, 4, some _ => decide (c = 0)
  | 0x04, 5, none => true
  | 0x04, 5, some _ => decide (c = 0)
  | 0x04, 6, none => false
  | 0x04, 6, some _ => decide (c = 0)
  | 0x07, 0, none => decide (c = 0)
  | 0x07, 1, none => decide (c = 0)
  | 0x07, 2, none => decide (c = 0)
  | 0x07, 3, none => decide (c = 0)
  | 0x08, 0, none => decide (c.extractLsb' 5 2 = 0)
  | 0x08, 0, some _ => decide (c = 0)
  | 0x08, 1, none => decide (c.extractLsb' 5 2 = 0)
  | 0x08, 1, some _ => decide (c = 0)
  | 0x08, 2, none => false
  | 0x08, 2, some _ => decide (c = 0)
  | 0x10, 0, none => true
  | 0x10, 0, some _ => decide (c = 0)
  | 0x10, 1, none => true
  | 0x10, 1, some _ => decide (c = 0)
  | 0x10, 2, none => true
  | 0x10, 2, some _ => decide (c = 0)
  | 0x10, 3, none => true
  | 0x10, 3, some _ => decide (c = 0)
  | 0x10, 4, none => true
  | 0x10, 4, some _ => decide (c = 0)
  | 0x10, 5, none => true
  | 0x10, 5, some _ => decide (c = 0)
  | 0x10, 6, none => decide (b = 0)
  | 0x10, 6, some _ => decide (b = 0 ∧ c = 0)
  | 0x11, 0, none => decide (a = 0)
  | 0x11, 0, some _ => decide (a = 0 ∧ b = 0 ∧ c = 0)
  | 0x11, 1, none => true
  | 0x11, 1, some _ => decide (b = 0 ∧ c = 0)
  | 0x11, 2, none => decide (c = 0)
  | 0x12, 0, none => true
  | 0x12, 0, some _ => decide (c = 0)
  | 0x12, 1, none => decide (a = 0)
  | 0x13, 0, none => decide (a = 0 ∧ b = 0 ∧ c = 0)
  | 0x13, 1, none => decide (a = 0 ∧ b = 0 ∧ c = 0)
  | 0x16, 0, _ => decide (a = 0)
  | 0x16, 1, _ => decide (a = 0)
  | 0x16, 2, _ => decide (a = 0)
  | 0x38, 0, _ => decide (c = 0)
  | 0x39, 0, _ => decide (c = 0)
  | 0x39, 3, _ => decide (c = 0)
  | 0x3C, 0, none => decide (a = 0)
  | 0x3C, 1, none => decide (a = 0)
  | 0x3D, 0, _ => decide (c = 0)
  | 0x3E, 0, _ => decide (a = 0 ∧ c = 0)
  | 0x3E, 1, _ => decide (a = 0 ∧ c = 0)
  | 0x20, 5, none => decide (c = 0)
  | 0x21, 0, none => decide (c = 0)
  | 0x21, 1, none => decide (c = 0)
  | 0x21, 4, none => decide (c = 0)
  | 0x22, 0, none => decide (c = 0)
  | 0x22, 1, none => decide (c = 0)
  | 0x2C, 2, none => decide (c = 0)
  | 0x2C, 3, none => decide (c = 0)
  | 0x30, 0, none => decide (c = 0)
  | 0x30, 1, none => decide (c = 0)
  | 0x31, 3, none => decide (c = 0)
  | 0x31, 4, none => decide (c = 0)
  | 0x35, 4, none => decide (b = 0 ∧ c = 0)
  | 0x35, 5, none => decide (b = 0 ∧ c = 0)
  | 0x36, 0, none => decide (c = 0)
  | 0x36, 1, none => decide (c = 0)
  | 0x46, 0, none => decide (a = 0)
  | 0x46, 1, none => decide (a = 0 ∧ c = 0)
  | 0x47, 0, none => decide (c = 0)
  | 0x47, 1, none => decide (c = 0)
  | 0x47, 3, none => decide (c = 0)
  | 0x47, 4, none => decide (b = 0 ∧ c = 0)
  | 0x47, 5, none => decide (c = 0)
  | 0x4C, 2, none => decide (c = 0)
  | 0x4C, 3, none => decide (c = 0)
  | 0x4E, 0, none => decide (a = 0)
  | 0x4F, 0, none => false
  | 0x4F, 0, some _ => true
  | 0x4F, 1, none => false
  | 0x4F, 1, some _ => true
  | 0x50, 0, none => decide (c = 0)
  | 0x50, 1, none => decide (c = 0)
  | 0x54, 1, none => decide (a = 0 ∧ c = 0)
  | 0x54, 2, none => decide (a = 0 ∧ c = 0)
  | 0x54, 3, none => decide (c = 0)
  | 0x55, 1, none => decide (c = 0)
  | 0x55, 2, none => decide (b = 0 ∧ c = 0)
  | 0x56, 0, none => decide (a = 0 ∧ c = 0)
  | 0x57, 0, none => false
  | 0x57, 0, some _ => true
  | 0x57, 1, none => decide (a = 0 ∧ c = 0)
  | 0x57, 2, none => decide (a = 0 ∧ b = 0 ∧ c = 0)
  | 0x57, 3, none => decide (c = 0)
  | 0x58, 0, none => decide (c = 0)
  | 0x58, 1, none => decide (a = 0 ∧ b = 0 ∧ c = 0)
  | 0x58, 2, none => decide (c = 0)
  | 0x59, 0, none => decide (a = 0)
  | 0x59, 1, none => decide (a = 0)
  | 0x59, 2, none => decide (c = 0)
  | 0x59, 4, none => decide (c = 0)
  | 0x5A, 0, none => decide (a = 0 ∧ c = 0)
  | 0x5A, 1, none => decide (a = 0 ∧ c = 0)
  | 0x5D, 3, none => decide (c = 0)
  | 0x5E, 1, none => decide (b = 0 ∧ c = 0)
  | 0x60, 1, none => decide (c = 0)
  | 0x60, 2, none => decide (a = 0)
  | 0x64, 0, none => decide (c.extractLsb' 5 2 = 0)
  | 0x64, 1, none => decide (c.extractLsb' 5 2 = 0)
  | 0x64, 2, none => false
  | 0x64, 2, some _ => decide (c = 0)
  | 0x65, 0, none => decide (a = 0)
  | 0x65, 1, none => decide (a = 0 ∧ b = 0 ∧ c = 0)
  | 0x65, 2, none => decide (a = 0)
  | 0x65, 3, none => decide (a = 0 ∧ b = 0 ∧ c = 0)
  | 0x65, 4, none => decide (a = 0 ∧ b = 0 ∧ c = 0)
  | 0x66, 1, none => decide (a = 0)
  | 0x66, 2, none => decide (c = 0)
  | 0x67, 0, none => decide (a = 0 ∧ c = 0)
  | 0x67, 1, none => decide (a = 0 ∧ c = 0)
  | 0x67, 2, none => decide (a = 0)
  | _, _, none => true
  | _, _, some _ => admitsExt major fn

/-- The instructions of major 0x00 (R77). -/
noncomputable def instrOf00 (fn : Nat) (a b c : BitVec 7) (e : Option Word) : Option Instr :=
  match fn, e with
  | 1, _ => some (.add a b c)
  | 2, _ => some (.sub a b c)
  | 3, _ => some (.mul a b c)
  | 4, _ => some (.mulhs a b c)
  | 5, _ => some (.mulhz a b c)
  | 6, _ => some (.madd a b c)
  | _, _ => none

/-- The instructions of major 0x01 (R77). -/
noncomputable def instrOf01 (fn : Nat) (a b c : BitVec 7) (e : Option Word) : Option Instr :=
  match fn, e with
  | 0, _ => some (.divs a b c)
  | 1, _ => some (.divz a b c)
  | 2, _ => some (.rems a b c)
  | 3, _ => some (.remz a b c)
  | _, _ => none

/-- The instructions of major 0x02 (R77). -/
noncomputable def instrOf02 (fn : Nat) (a b c : BitVec 7) (e : Option Word) : Option Instr :=
  match fn, e with
  | 0, _ => some (.andReg a b c)
  | 1, _ => some (.orReg a b c)
  | 2, _ => some (.xorReg a b c)
  | 3, _ => some (.andn a b c)
  | _, _ => none

/-- The instructions of major 0x03 (R77). -/
noncomputable def instrOf03 (fn : Nat) (a b c : BitVec 7) (e : Option Word) : Option Instr :=
  match fn, e with
  | 0, _ => some (.shl a b c)
  | 1, _ => some (.shrs a b c)
  | 2, _ => some (.shrz a b c)
  | 3, _ => some (.rotl a b c)
  | 4, _ => some (.rotr a b c)
  | _, _ => none

/-- The instructions of major 0x04 (R77). -/
noncomputable def instrOf04 (fn : Nat) (a b c : BitVec 7) (e : Option Word) : Option Instr :=
  match fn, e with
  | 0, none => some (.addiShort a (c ++ b))
  | 0, some x => some (.addiLong a b x)
  | 1, none => some (.andiShort a (c ++ b))
  | 1, some x => some (.andiLong a b x)
  | 2, none => some (.oriShort a (c ++ b))
  | 2, some x => some (.oriLong a b x)
  | 3, none => some (.xoriShort a (c ++ b))
  | 3, some x => some (.xoriLong a b x)
  | 4, none => some (.shliShort a (c ++ b))
  | 4, some x => some (.shliLong a b x)
  | 5, none => some (.rotriShort a (c ++ b))
  | 5, some x => some (.rotriLong a b x)
  | 6, _ => some (.lih a b (e.getD 0))
  | _, _ => none

/-- The instructions of major 0x05 (R77). -/
noncomputable def instrOf05 (fn : Nat) (a b c : BitVec 7) (e : Option Word) : Option Instr :=
  match fn, e with
  | 0, _ => some (.slts a b c)
  | 1, _ => some (.sltz a b c)
  | 2, _ => some (.sel a b c)
  | _, _ => none

/-- The instructions of major 0x06 (R77). -/
noncomputable def instrOf06 (fn : Nat) (a b c : BitVec 7) (e : Option Word) : Option Instr :=
  match fn, e with
  | 0, _ => some (.mins a b c)
  | 1, _ => some (.minz a b c)
  | 2, _ => some (.maxs a b c)
  | 3, _ => some (.maxz a b c)
  | _, _ => none

/-- The instructions of major 0x07 (R77). -/
noncomputable def instrOf07 (fn : Nat) (a b _c : BitVec 7) (e : Option Word) : Option Instr :=
  match fn, e with
  | 0, _ => some (.clz a b)
  | 1, _ => some (.ctz a b)
  | 2, _ => some (.popc a b)
  | 3, _ => some (.bswap a b)
  | _, _ => none

/-- The instructions of major 0x08 (R77). -/
noncomputable def instrOf08 (fn : Nat) (a b c : BitVec 7) (e : Option Word) : Option Instr :=
  match fn, e with
  | 0, none => some (.bextsShort a (b.extractLsb' 0 6) ((c ++ b).extractLsb' 6 6))
  | 0, some x => some (.bextsLong a b x)
  | 1, none => some (.bextzShort a (b.extractLsb' 0 6) ((c ++ b).extractLsb' 6 6))
  | 1, some x => some (.bextzLong a b x)
  | 2, _ => some (.bins a b (e.getD 0))
  | _, _ => none

/-- The instructions of major 0x10 (R77). -/
noncomputable def instrOf10 (fn : Nat) (a b c : BitVec 7) (e : Option Word) : Option Instr :=
  match fn, e with
  | 0, none => some (.brEqShort a b c)
  | 0, some x => some (.brEqLong a b x)
  | 1, none => some (.brNeShort a b c)
  | 1, some x => some (.brNeLong a b x)
  | 2, none => some (.brLtsShort a b c)
  | 2, some x => some (.brLtsLong a b x)
  | 3, none => some (.brGesShort a b c)
  | 3, some x => some (.brGesLong a b x)
  | 4, none => some (.brLtzShort a b c)
  | 4, some x => some (.brLtzLong a b x)
  | 5, none => some (.brGezShort a b c)
  | 5, some x => some (.brGezLong a b x)
  | 6, none => some (.brAnyShort a c)
  | 6, some x => some (.brAnyLong a x)
  | _, _ => none

/-- The instructions of major 0x11 (R77). -/
noncomputable def instrOf11 (fn : Nat) (a b c : BitVec 7) (e : Option Word) : Option Instr :=
  match fn, e with
  | 0, none => some (.jmpShort (c ++ b))
  | 0, some x => some (.jmpLong x)
  | 1, none => some (.jalShort a (c ++ b))
  | 1, some x => some (.jalLong a x)
  | 2, _ => some (.jr a b)
  | _, _ => none

/-- The instructions of major 0x12 (R77). -/
noncomputable def instrOf12 (fn : Nat) (a b c : BitVec 7) (e : Option Word) : Option Instr :=
  match fn, e with
  | 0, none => some (.lrotShort a b c)
  | 0, some x => some (.lrotLong a b x)
  | 1, _ => some (.wbase b c)
  | _, _ => none

/-- The instructions of major 0x13 (R77). -/
noncomputable def instrOf13 (fn : Nat) (_a _b _c : BitVec 7) (e : Option Word) : Option Instr :=
  match fn, e with
  | 0, _ => some (.nop)
  | 1, _ => some (.yield)
  | _, _ => none

/-- The instructions of major 0x14 (R77). -/
noncomputable def instrOf14 (fn : Nat) (a b c : BitVec 7) (e : Option Word) : Option Instr :=
  match fn, e with
  | 0, _ => some (.ldsB a b c e)
  | 1, _ => some (.ldsH a b c e)
  | 2, _ => some (.ldsW a b c e)
  | 3, _ => some (.ldzB a b c e)
  | 4, _ => some (.ldzH a b c e)
  | 5, _ => some (.ldzW a b c e)
  | 6, _ => some (.ldD a b c e)
  | _, _ => none

/-- The instructions of major 0x15 (R77). -/
noncomputable def instrOf15 (fn : Nat) (a b c : BitVec 7) (e : Option Word) : Option Instr :=
  match fn, e with
  | 0, _ => some (.stB a b c e)
  | 1, _ => some (.stH a b c e)
  | 2, _ => some (.stW a b c e)
  | 3, _ => some (.stD a b c e)
  | _, _ => none

/-- The instructions of major 0x16 (R77). -/
noncomputable def instrOf16 (fn : Nat) (_a b c : BitVec 7) (e : Option Word) : Option Instr :=
  match fn, e with
  | 0, _ => some (.pf b c e)
  | 1, _ => some (.evf b c e)
  | 2, _ => some (.unpin b c e)
  | _, _ => none

/-- The instructions of major 0x38 (R77). -/
noncomputable def instrOf38 (fn : Nat) (a b c : BitVec 7) (e : Option Word) : Option Instr :=
  match fn, e with
  | 0, _ => some (.vld a b e)
  | 1, _ => some (.vlds a b c e)
  | 2, _ => some (.vldx a b c e)
  | 3, _ => some (.vldk a b c e)
  | _, _ => none

/-- The instructions of major 0x39 (R77). -/
noncomputable def instrOf39 (fn : Nat) (a b c : BitVec 7) (e : Option Word) : Option Instr :=
  match fn, e with
  | 0, _ => some (.vst a b e)
  | 1, _ => some (.vsts a b c e)
  | 2, _ => some (.vstx a b c e)
  | 3, _ => some (.vsbm a b e)
  | 4, _ => some (.vstk a b c e)
  | _, _ => none

/-- The instructions of major 0x3A (R77). -/
noncomputable def instrOf3A (fn : Nat) (a b c : BitVec 7) (e : Option Word) : Option Instr :=
  match fn, e with
  | 0, _ => some (.aaddS a b c e)
  | 1, _ => some (.aandS a b c e)
  | 2, _ => some (.aorS a b c e)
  | 3, _ => some (.axorS a b c e)
  | 4, _ => some (.aminS a b c e)
  | 5, _ => some (.aminsS a b c e)
  | 6, _ => some (.amaxS a b c e)
  | 7, _ => some (.amaxsS a b c e)
  | 8, _ => some (.aswapS a b c e)
  | 9, _ => some (.acasS a b c e)
  | _, _ => none

/-- The instructions of major 0x3B (R77). -/
noncomputable def instrOf3B (fn : Nat) (a b c : BitVec 7) (e : Option Word) : Option Instr :=
  match fn, e with
  | 0, _ => some (.aaddV a b c e)
  | 1, _ => some (.aandV a b c e)
  | 2, _ => some (.aorV a b c e)
  | 3, _ => some (.axorV a b c e)
  | 4, _ => some (.aminV a b c e)
  | 5, _ => some (.aminsV a b c e)
  | 6, _ => some (.amaxV a b c e)
  | 7, _ => some (.amaxsV a b c e)
  | 8, _ => some (.aswapV a b c e)
  | 9, _ => some (.acasV a b c e)
  | _, _ => none

/-- The instructions of major 0x3C (R77). -/
noncomputable def instrOf3C (fn : Nat) (_a b c : BitVec 7) (e : Option Word) : Option Instr :=
  match fn, e with
  | 0, _ => some (.cwaitL (c ++ b))
  | 1, _ => some (.cwaitS (c ++ b))
  | _, _ => none

/-- The instructions of major 0x3D (R77). -/
noncomputable def instrOf3D (fn : Nat) (a b c : BitVec 7) (e : Option Word) : Option Instr :=
  match fn, e with
  | 0, _ => some (.fwait a b e)
  | 1, _ => some (.vfwait a b c e)
  | 2, _ => some (.ffill a b c e)
  | _, _ => none

/-- The instructions of major 0x3E (R77). -/
noncomputable def instrOf3E (fn : Nat) (_a b _c : BitVec 7) (e : Option Word) : Option Instr :=
  match fn, e with
  | 0, _ => some (.vpf b e)
  | 1, _ => some (.vevf b e)
  | _, _ => none

/-- The instructions of major 0x18 (R77). -/
noncomputable def instrOf18 (fn : Nat) (a b c : BitVec 7) (e : Option Word) : Option Instr :=
  match fn, e with
  | 0, _ => some (.vadd a b c)
  | 1, _ => some (.vsub a b c)
  | 2, _ => some (.vmul a b c)
  | 3, _ => some (.vmulhs a b c)
  | 4, _ => some (.vmulhz a b c)
  | 5, _ => some (.vmacc a b c)
  | _, _ => none

/-- The instructions of major 0x19 (R77). -/
noncomputable def instrOf19 (fn : Nat) (a b c : BitVec 7) (e : Option Word) : Option Instr :=
  match fn, e with
  | 0, _ => some (.vdivs a b c)
  | 1, _ => some (.vdivz a b c)
  | 2, _ => some (.vrems a b c)
  | 3, _ => some (.vremz a b c)
  | _, _ => none

/-- The instructions of major 0x1A (R77). -/
noncomputable def instrOf1A (fn : Nat) (a b c : BitVec 7) (e : Option Word) : Option Instr :=
  match fn, e with
  | 0, _ => some (.vand a b c)
  | 1, _ => some (.vor a b c)
  | 2, _ => some (.vxor a b c)
  | 3, _ => some (.vandn a b c)
  | _, _ => none

/-- The instructions of major 0x1B (R77). -/
noncomputable def instrOf1B (fn : Nat) (a b c : BitVec 7) (e : Option Word) : Option Instr :=
  match fn, e with
  | 0, _ => some (.vshl a b c)
  | 1, _ => some (.vshrs a b c)
  | 2, _ => some (.vshrz a b c)
  | _, _ => none

/-- The instructions of major 0x1C (R77). -/
noncomputable def instrOf1C (fn : Nat) (a b c : BitVec 7) (e : Option Word) : Option Instr :=
  match fn, e with
  | 0, _ => some (.vmins a b c)
  | 1, _ => some (.vminz a b c)
  | 2, _ => some (.vmaxs a b c)
  | 3, _ => some (.vmaxz a b c)
  | _, _ => none

/-- The instructions of major 0x1D (R77). -/
noncomputable def instrOf1D (fn : Nat) (a b c : BitVec 7) (e : Option Word) : Option Instr :=
  match fn, e with
  | 0, _ => some (.vsadds a b c)
  | 1, _ => some (.vsaddz a b c)
  | 2, _ => some (.vssubs a b c)
  | 3, _ => some (.vssubz a b c)
  | _, _ => none

/-- The instructions of major 0x20 (R77). -/
noncomputable def instrOf20 (fn : Nat) (a b c : BitVec 7) (e : Option Word) : Option Instr :=
  match fn, e with
  | 0, _ => some (.vfma a b c)
  | 1, _ => some (.vfadd a b c)
  | 2, _ => some (.vfsub a b c)
  | 3, _ => some (.vfmul a b c)
  | 4, _ => some (.vfdiv a b c)
  | 5, _ => some (.vfsqrt a b)
  | _, _ => none

/-- The instructions of major 0x21 (R77). -/
noncomputable def instrOf21 (fn : Nat) (a b c : BitVec 7) (e : Option Word) : Option Instr :=
  match fn, e with
  | 0, _ => some (.vfrcpe a b)
  | 1, _ => some (.vfrsqe a b)
  | 2, _ => some (.vfmin a b c)
  | 3, _ => some (.vfmax a b c)
  | 4, _ => some (.vfclass a b)
  | _, _ => none

/-- The instructions of major 0x22 (R77). -/
noncomputable def instrOf22 (fn : Nat) (a b c : BitVec 7) (e : Option Word) : Option Instr :=
  match fn, e with
  | 0, _ => some (.vfabs a b)
  | 1, _ => some (.vfneg a b)
  | 2, _ => some (.vfsgnj a b c)
  | _, _ => none

/-- The instructions of major 0x24 (R77). -/
noncomputable def instrOf24 (fn : Nat) (a b c : BitVec 7) (e : Option Word) : Option Instr :=
  match fn, e with
  | 0, _ => some (.vcmpeq a b c)
  | 1, _ => some (.vcmpne a b c)
  | 2, _ => some (.vcmplts a b c)
  | 3, _ => some (.vcmpltz a b c)
  | 4, _ => some (.vcmples a b c)
  | 5, _ => some (.vcmplez a b c)
  | _, _ => none

/-- The instructions of major 0x25 (R77). -/
noncomputable def instrOf25 (fn : Nat) (a b c : BitVec 7) (e : Option Word) : Option Instr :=
  match fn, e with
  | 0, _ => some (.vfcmpeq a b c)
  | 1, _ => some (.vfcmplt a b c)
  | 2, _ => some (.vfcmple a b c)
  | 3, _ => some (.vfcmpun a b c)
  | _, _ => none

/-- The instructions of major 0x28 (R77). -/
noncomputable def instrOf28 (fn : Nat) (a b c : BitVec 7) (e : Option Word) : Option Instr :=
  match fn, e with
  | 0, _ => some (.vfcvt a b c)
  | 1, _ => some (.vfcvts a b c)
  | 2, _ => some (.vfcvtz a b c)
  | 3, _ => some (.vfcvtts a b c)
  | 4, _ => some (.vfcvttz a b c)
  | _, _ => none

/-- The instructions of major 0x29 (R77). -/
noncomputable def instrOf29 (fn : Nat) (a b c : BitVec 7) (e : Option Word) : Option Instr :=
  match fn, e with
  | 0, _ => some (.vscvtf a b c)
  | 1, _ => some (.vzcvtf a b c)
  | _, _ => none

/-- The instructions of major 0x2A (R77). -/
noncomputable def instrOf2A (fn : Nat) (a b c : BitVec 7) (e : Option Word) : Option Instr :=
  match fn, e with
  | 0, _ => some (.vwidens a b c)
  | 1, _ => some (.vwidenz a b c)
  | 2, _ => some (.vnarrs a b c)
  | 3, _ => some (.vnarrz a b c)
  | _, _ => none

/-- The instructions of major 0x2C (R77). -/
noncomputable def instrOf2C (fn : Nat) (a b c : BitVec 7) (e : Option Word) : Option Instr :=
  match fn, e with
  | 0, _ => some (.vcmul a b c)
  | 1, _ => some (.vcmac a b c)
  | 2, _ => some (.vcconj a b)
  | 3, _ => some (.vcnorm a b)
  | _, _ => none

/-- The instructions of major 0x30 (R77). -/
noncomputable def instrOf30 (fn : Nat) (a b c : BitVec 7) (e : Option Word) : Option Instr :=
  match fn, e with
  | 0, _ => some (.vmov a b)
  | 1, _ => some (.vsplat a b)
  | 2, _ => some (.vmerge a b c)
  | _, _ => none

/-- The instructions of major 0x31 (R77). -/
noncomputable def instrOf31 (fn : Nat) (a b c : BitVec 7) (e : Option Word) : Option Instr :=
  match fn, e with
  | 0, _ => some (.vslup a b c)
  | 1, _ => some (.vsldn a b c)
  | 2, _ => some (.vperm a b c)
  | 3, _ => some (.vcomp a b)
  | 4, _ => some (.vexp a b)
  | _, _ => none

/-- The instructions of major 0x32 (R77). -/
noncomputable def instrOf32 (fn : Nat) (a b c : BitVec 7) (e : Option Word) : Option Instr :=
  match fn, e with
  | 0, _ => some (.vsh a b c)
  | 1, _ => some (.vfsh a b c)
  | _, _ => none

/-- The instructions of major 0x33 (R77). -/
noncomputable def instrOf33 (fn : Nat) (a b c : BitVec 7) (e : Option Word) : Option Instr :=
  match fn, e with
  | 0, _ => some (.vrsum a b c)
  | 1, _ => some (.vrfsum a b c)
  | 2, _ => some (.vrmins a b c)
  | 3, _ => some (.vrminz a b c)
  | 4, _ => some (.vrmaxs a b c)
  | 5, _ => some (.vrmaxz a b c)
  | 6, _ => some (.vrfmin a b c)
  | 7, _ => some (.vrfmax a b c)
  | _, _ => none

/-- The instructions of major 0x34 (R77). -/
noncomputable def instrOf34 (fn : Nat) (a b c : BitVec 7) (e : Option Word) : Option Instr :=
  match fn, e with
  | 0, _ => some (.vgmax a b c)
  | 1, _ => some (.vgsum a b c)
  | _, _ => none

/-- The instructions of major 0x35 (R77). -/
noncomputable def instrOf35 (fn : Nat) (a b c : BitVec 7) (e : Option Word) : Option Instr :=
  match fn, e with
  | 0, _ => some (.maskAnd a b c)
  | 1, _ => some (.maskOr a b c)
  | 2, _ => some (.maskXor a b c)
  | 3, _ => some (.maskAndn a b c)
  | 4, _ => some (.mclr a)
  | 5, _ => some (.mset a)
  | _, _ => none

/-- The instructions of major 0x36 (R77). -/
noncomputable def instrOf36 (fn : Nat) (a b c : BitVec 7) (e : Option Word) : Option Instr :=
  match fn, e with
  | 0, _ => some (.mpopc a b)
  | 1, _ => some (.mfirst a b)
  | 2, _ => some (.vgetx a b c)
  | 3, _ => some (.vputx a b c)
  | _, _ => none

/-- The instructions of major 0x44 (R77). -/
noncomputable def instrOf44 (fn : Nat) (a b c : BitVec 7) (e : Option Word) : Option Instr :=
  match fn, e with
  | 0, _ => some (.fmt (a.extractLsb' 0 5) (a.extractLsb' 5 1) (a.extractLsb' 6 1) b c)
  | _, _ => none

/-- The instructions of major 0x45 (R77). -/
noncomputable def instrOf45 (fn : Nat) (a b c : BitVec 7) (e : Option Word) : Option Instr :=
  match fn, e with
  | 0, _ => some (.mma a b c)
  | 1, _ => some (.mmai a b c)
  | 2, _ => some (.mmalX a b c e)
  | 3, _ => some (.mmalA a b c e)
  | _, _ => none

/-- The instructions of major 0x46 (R77). -/
noncomputable def instrOf46 (fn : Nat) (_a b c : BitVec 7) (e : Option Word) : Option Instr :=
  match fn, e with
  | 0, _ => some (.ipload b c)
  | 1, _ => some (.ipsave b)
  | _, _ => none

/-- The instructions of major 0x47 (R77). -/
noncomputable def instrOf47 (fn : Nat) (a b c : BitVec 7) (e : Option Word) : Option Instr :=
  match fn, e with
  | 0, _ => some (.atzero a b)
  | 1, _ => some (.atmov a b)
  | 2, _ => some (.atload a b c)
  | 3, _ => some (.atsave a b)
  | 4, _ => some (.attr a)
  | 5, _ => some (.atadd a b)
  | _, _ => none

/-- The instructions of major 0x48 (R77). -/
noncomputable def instrOf48 (fn : Nat) (a b c : BitVec 7) (e : Option Word) : Option Instr :=
  match fn, e with
  | 0, _ => some (.atgetF32 a b c)
  | 1, _ => some (.atgetBf16 a b c)
  | 2, _ => some (.atgetI32 a b c)
  | 3, _ => some (.atputF32 a b c)
  | 4, _ => some (.atputI32 a b c)
  | _, _ => none

/-- The instructions of major 0x4C (R77). -/
noncomputable def instrOf4C (fn : Nat) (a b c : BitVec 7) (e : Option Word) : Option Instr :=
  match fn, e with
  | 0, _ => some (.xdelta a b c)
  | 1, _ => some (.xundelta a b c)
  | 2, _ => some (.xzz a b)
  | 3, _ => some (.xunzz a b)
  | _, _ => none

/-- The instructions of major 0x4D (R77). -/
noncomputable def instrOf4D (fn : Nat) (a b c : BitVec 7) (e : Option Word) : Option Instr :=
  match fn, e with
  | 0, _ => some (.xpack a b c)
  | 1, _ => some (.xunpack a b c)
  | 2, _ => some (.xpackg a b c)
  | 3, _ => some (.xunpackg a b c)
  | _, _ => none

/-- The instructions of major 0x4E (R77). -/
noncomputable def instrOf4E (fn : Nat) (a b c : BitVec 7) (e : Option Word) : Option Instr :=
  match fn, e with
  | 0, _ => some (.xdtab b c)
  | 1, _ => some (.xdec a b c)
  | _, _ => none

/-- The instructions of major 0x4F (R77). -/
noncomputable def instrOf4F (fn : Nat) (a b c : BitVec 7) (e : Option Word) : Option Instr :=
  match fn, e with
  | 0, _ => some (.xquant a b c (e.getD 0))
  | 1, _ => some (.xdequant a b c (e.getD 0))
  | _, _ => none

/-- The instructions of major 0x50 (R77). -/
noncomputable def instrOf50 (fn : Nat) (a b _c : BitVec 7) (e : Option Word) : Option Instr :=
  match fn, e with
  | 0, _ => some (.xcrc a b)
  | 1, _ => some (.xcrcf a b)
  | _, _ => none

/-- The instructions of major 0x51 (R77). -/
noncomputable def instrOf51 (fn : Nat) (a b c : BitVec 7) (e : Option Word) : Option Instr :=
  match fn, e with
  | 0, _ => some (.xtopk a b c)
  | 1, _ => some (.xbotk a b c)
  | 2, _ => some (.xkmerge a b c)
  | 3, _ => some (.xbkmerge a b c)
  | _, _ => none

/-- The instructions of major 0x54 (R77). -/
noncomputable def instrOf54 (fn : Nat) (a b c : BitVec 7) (e : Option Word) : Option Instr :=
  match fn, e with
  | 0, _ => some (.tspawn a b c)
  | 1, _ => some (.tend b)
  | 2, _ => some (.tabort b)
  | 3, _ => some (.tstat a b)
  | _, _ => none

/-- The instructions of major 0x55 (R77). -/
noncomputable def instrOf55 (fn : Nat) (a b c : BitVec 7) (e : Option Word) : Option Instr :=
  match fn, e with
  | 0, _ => some (.forkTask a b c)
  | 1, _ => some (.joinChild a b)
  | 2, _ => some (.joinall a)
  | _, _ => none

/-- The instructions of major 0x56 (R77). -/
noncomputable def instrOf56 (fn : Nat) (_a b _c : BitVec 7) (e : Option Word) : Option Instr :=
  match fn, e with
  | 0, _ => some (.cancelInst b)
  | _, _ => none

/-- The instructions of major 0x57 (R77). -/
noncomputable def instrOf57 (fn : Nat) (a b c : BitVec 7) (e : Option Word) : Option Instr :=
  match fn, e with
  | 0, _ => some (.bst a b c (e.getD 0))
  | 1, _ => some (.ordb b)
  | 2, _ => some (.orde)
  | 3, _ => some (.tkget a b)
  | _, _ => none

/-- The instructions of major 0x58 (R77). -/
noncomputable def instrOf58 (fn : Nat) (a b _c : BitVec 7) (e : Option Word) : Option Instr :=
  match fn, e with
  | 0, _ => some (.rope a b)
  | 1, _ => some (.unrope)
  | 2, _ => some (.rbar a b)
  | _, _ => none

/-- The instructions of major 0x59 (R77). -/
noncomputable def instrOf59 (fn : Nat) (a b c : BitVec 7) (e : Option Word) : Option Instr :=
  match fn, e with
  | 0, _ => some (.msend b c)
  | 1, _ => some (.vmsend b c)
  | 2, _ => some (.mrecv a b)
  | 3, _ => some (.vmrecv a b c)
  | 4, _ => some (.mpoll a b)
  | 5, _ => some (.vredq a b c)
  | 6, _ => some (.vredqf a b c)
  | _, _ => none

/-- The instructions of major 0x5A (R77). -/
noncomputable def instrOf5A (fn : Nat) (_a b _c : BitVec 7) (e : Option Word) : Option Instr :=
  match fn, e with
  | 0, _ => some (.twait b)
  | 1, _ => some (.twaitd b)
  | _, _ => none

/-- The instructions of major 0x5C (R77). -/
noncomputable def instrOf5C (fn : Nat) (a b c : BitVec 7) (e : Option Word) : Option Instr :=
  match fn, e with
  | 0, _ => some (.rbox a b c)
  | 1, _ => some (.rtri a b c)
  | _, _ => none

/-- The instructions of major 0x5D (R77). -/
noncomputable def instrOf5D (fn : Nat) (a b c : BitVec 7) (e : Option Word) : Option Instr :=
  match fn, e with
  | 0, _ => some (.rpush a b c)
  | 1, _ => some (.rpop a b c)
  | 2, _ => some (.rhit a b c)
  | 3, _ => some (.rterm a b)
  | _, _ => none

/-- The instructions of major 0x5E (R77). -/
noncomputable def instrOf5E (fn : Nat) (a b c : BitVec 7) (e : Option Word) : Option Instr :=
  match fn, e with
  | 0, _ => some (.rspawn a b c)
  | 1, _ => some (.rdepth a)
  | _, _ => none

/-- The instructions of major 0x5F (R77). -/
noncomputable def instrOf5F (fn : Nat) (a b c : BitVec 7) (e : Option Word) : Option Instr :=
  match fn, e with
  | 0, _ => some (.texBl a b c)
  | 1, _ => some (.texSt a b c)
  | 2, _ => some (.texPt a b c)
  | 3, _ => some (.texq a b c)
  | _, _ => none

/-- The instructions of major 0x60 (R77). -/
noncomputable def instrOf60 (fn : Nat) (a b c : BitVec 7) (e : Option Word) : Option Instr :=
  match fn, e with
  | 0, _ => some (.mout a b c)
  | 1, _ => some (.mprim a b)
  | 2, _ => some (.mend b c)
  | _, _ => none

/-- The instructions of major 0x61 (R77). -/
noncomputable def instrOf61 (fn : Nat) (a b c : BitVec 7) (e : Option Word) : Option Instr :=
  match fn, e with
  | 0, _ => some (.rast a b c)
  | _, _ => none

/-- The instructions of major 0x64 (R77). -/
noncomputable def instrOf64 (fn : Nat) (a b c : BitVec 7) (e : Option Word) : Option Instr :=
  match fn, e with
  | 0, _ => some (.sget a ((c ++ b).extractLsb' 0 12))
  | 1, _ => some (.sset a ((c ++ b).extractLsb' 0 12))
  | 2, _ => some (.sswap a b (e.getD 0))
  | _, _ => none

/-- The instructions of major 0x65 (R77). -/
noncomputable def instrOf65 (fn : Nat) (_a b c : BitVec 7) (e : Option Word) : Option Instr :=
  match fn, e with
  | 0, _ => some (.scall (c ++ b))
  | 1, _ => some (.eret)
  | 2, _ => some (.brk (c ++ b))
  | 3, _ => some (.wfi)
  | 4, _ => some (.halt)
  | _, _ => none

/-- The instructions of major 0x66 (R77). -/
noncomputable def instrOf66 (fn : Nat) (a b c : BitVec 7) (e : Option Word) : Option Instr :=
  match fn, e with
  | 0, _ => some (.tlbw a b c)
  | 1, _ => some (.tlbi b c)
  | 2, _ => some (.tlbr a b)
  | _, _ => none

/-- The instructions of major 0x67 (R77). -/
noncomputable def instrOf67 (fn : Nat) (_a b c : BitVec 7) (e : Option Word) : Option Instr :=
  match fn, e with
  | 0, _ => some (.hsave b)
  | 1, _ => some (.hrest b)
  | 2, _ => some (.pack b c)
  | _, _ => none

/-- The instruction of a (major, fn) pair with operand fields A, B, C and the slot's extension word (R77). -/
noncomputable def instrOf (major fn : Nat) (a b c : BitVec 7) (e : Option Word) : Option Instr :=
  match major with
  | 0x00 => instrOf00 fn a b c e
  | 0x01 => instrOf01 fn a b c e
  | 0x02 => instrOf02 fn a b c e
  | 0x03 => instrOf03 fn a b c e
  | 0x04 => instrOf04 fn a b c e
  | 0x05 => instrOf05 fn a b c e
  | 0x06 => instrOf06 fn a b c e
  | 0x07 => instrOf07 fn a b c e
  | 0x08 => instrOf08 fn a b c e
  | 0x10 => instrOf10 fn a b c e
  | 0x11 => instrOf11 fn a b c e
  | 0x12 => instrOf12 fn a b c e
  | 0x13 => instrOf13 fn a b c e
  | 0x14 => instrOf14 fn a b c e
  | 0x15 => instrOf15 fn a b c e
  | 0x16 => instrOf16 fn a b c e
  | 0x38 => instrOf38 fn a b c e
  | 0x39 => instrOf39 fn a b c e
  | 0x3A => instrOf3A fn a b c e
  | 0x3B => instrOf3B fn a b c e
  | 0x3C => instrOf3C fn a b c e
  | 0x3D => instrOf3D fn a b c e
  | 0x3E => instrOf3E fn a b c e
  | 0x18 => instrOf18 fn a b c e
  | 0x19 => instrOf19 fn a b c e
  | 0x1A => instrOf1A fn a b c e
  | 0x1B => instrOf1B fn a b c e
  | 0x1C => instrOf1C fn a b c e
  | 0x1D => instrOf1D fn a b c e
  | 0x20 => instrOf20 fn a b c e
  | 0x21 => instrOf21 fn a b c e
  | 0x22 => instrOf22 fn a b c e
  | 0x24 => instrOf24 fn a b c e
  | 0x25 => instrOf25 fn a b c e
  | 0x28 => instrOf28 fn a b c e
  | 0x29 => instrOf29 fn a b c e
  | 0x2A => instrOf2A fn a b c e
  | 0x2C => instrOf2C fn a b c e
  | 0x30 => instrOf30 fn a b c e
  | 0x31 => instrOf31 fn a b c e
  | 0x32 => instrOf32 fn a b c e
  | 0x33 => instrOf33 fn a b c e
  | 0x34 => instrOf34 fn a b c e
  | 0x35 => instrOf35 fn a b c e
  | 0x36 => instrOf36 fn a b c e
  | 0x44 => instrOf44 fn a b c e
  | 0x45 => instrOf45 fn a b c e
  | 0x46 => instrOf46 fn a b c e
  | 0x47 => instrOf47 fn a b c e
  | 0x48 => instrOf48 fn a b c e
  | 0x4C => instrOf4C fn a b c e
  | 0x4D => instrOf4D fn a b c e
  | 0x4E => instrOf4E fn a b c e
  | 0x4F => instrOf4F fn a b c e
  | 0x50 => instrOf50 fn a b c e
  | 0x51 => instrOf51 fn a b c e
  | 0x54 => instrOf54 fn a b c e
  | 0x55 => instrOf55 fn a b c e
  | 0x56 => instrOf56 fn a b c e
  | 0x57 => instrOf57 fn a b c e
  | 0x58 => instrOf58 fn a b c e
  | 0x59 => instrOf59 fn a b c e
  | 0x5A => instrOf5A fn a b c e
  | 0x5C => instrOf5C fn a b c e
  | 0x5D => instrOf5D fn a b c e
  | 0x5E => instrOf5E fn a b c e
  | 0x5F => instrOf5F fn a b c e
  | 0x60 => instrOf60 fn a b c e
  | 0x61 => instrOf61 fn a b c e
  | 0x64 => instrOf64 fn a b c e
  | 0x65 => instrOf65 fn a b c e
  | 0x66 => instrOf66 fn a b c e
  | 0x67 => instrOf67 fn a b c e
  | _ => none

/-- What a pair with its fields decodes to (R69, R71, R76). -/
noncomputable def decodeFields (major fn : Nat) (a b c : BitVec 7) (e : Option Word) : DecodeResult :=
  match instrOf major fn a b c e with
  | some i => if fieldsOk major fn a b c e then .ok i else .malformed i
  | none => .undefined

/-- What a slot word with its extension word, if it has one, decodes to. -/
noncomputable def decodeSlot (w : Word) (e : Option Word) : DecodeResult :=
  decodeFields (fieldMajor w) (fieldFn w) (fieldA w) (fieldB w) (fieldC w) e

/-! ## The encoder -/

/-- A slot word from its fields: C, B, A, fn and major from the highest bit down (R69). -/
def pack (major fn : Nat) (a b c : BitVec 7) : Word :=
  c ++ b ++ a ++ BitVec.ofNat 4 fn ++ BitVec.ofNat 7 major

/-- A slot word whose bits [31:18] are one 14-bit field (R71). -/
def packImm (major fn : Nat) (a : BitVec 7) (i : BitVec 14) : Word :=
  pack major fn a (i.extractLsb' 0 7) (i.extractLsb' 7 7)

/-- The slot word and the extension word of an instruction; none for a step that is not a slot instruction. -/
def encode : Instr → Option (Word × Option Word)
  | .add a b c => some (pack 0x00 1 a b c, none)
  | .sub a b c => some (pack 0x00 2 a b c, none)
  | .mul a b c => some (pack 0x00 3 a b c, none)
  | .mulhs a b c => some (pack 0x00 4 a b c, none)
  | .mulhz a b c => some (pack 0x00 5 a b c, none)
  | .madd a b c => some (pack 0x00 6 a b c, none)
  | .divs a b c => some (pack 0x01 0 a b c, none)
  | .divz a b c => some (pack 0x01 1 a b c, none)
  | .rems a b c => some (pack 0x01 2 a b c, none)
  | .remz a b c => some (pack 0x01 3 a b c, none)
  | .andReg a b c => some (pack 0x02 0 a b c, none)
  | .orReg a b c => some (pack 0x02 1 a b c, none)
  | .xorReg a b c => some (pack 0x02 2 a b c, none)
  | .andn a b c => some (pack 0x02 3 a b c, none)
  | .shl a b c => some (pack 0x03 0 a b c, none)
  | .shrs a b c => some (pack 0x03 1 a b c, none)
  | .shrz a b c => some (pack 0x03 2 a b c, none)
  | .rotl a b c => some (pack 0x03 3 a b c, none)
  | .rotr a b c => some (pack 0x03 4 a b c, none)
  | .addiShort a i => some (packImm 0x04 0 a i, none)
  | .addiLong a b e => some (pack 0x04 0 a b 0, some e)
  | .andiShort a i => some (packImm 0x04 1 a i, none)
  | .andiLong a b e => some (pack 0x04 1 a b 0, some e)
  | .oriShort a i => some (packImm 0x04 2 a i, none)
  | .oriLong a b e => some (pack 0x04 2 a b 0, some e)
  | .xoriShort a i => some (packImm 0x04 3 a i, none)
  | .xoriLong a b e => some (pack 0x04 3 a b 0, some e)
  | .shliShort a i => some (packImm 0x04 4 a i, none)
  | .shliLong a b e => some (pack 0x04 4 a b 0, some e)
  | .rotriShort a i => some (packImm 0x04 5 a i, none)
  | .rotriLong a b e => some (pack 0x04 5 a b 0, some e)
  | .lih a b e => some (pack 0x04 6 a b 0, some e)
  | .slts a b c => some (pack 0x05 0 a b c, none)
  | .sltz a b c => some (pack 0x05 1 a b c, none)
  | .sel a b c => some (pack 0x05 2 a b c, none)
  | .mins a b c => some (pack 0x06 0 a b c, none)
  | .minz a b c => some (pack 0x06 1 a b c, none)
  | .maxs a b c => some (pack 0x06 2 a b c, none)
  | .maxz a b c => some (pack 0x06 3 a b c, none)
  | .clz a b => some (pack 0x07 0 a b 0, none)
  | .ctz a b => some (pack 0x07 1 a b 0, none)
  | .popc a b => some (pack 0x07 2 a b 0, none)
  | .bswap a b => some (pack 0x07 3 a b 0, none)
  | .bextsShort a p l => some (packImm 0x08 0 a (0#2 ++ l ++ p), none)
  | .bextsLong a b e => some (pack 0x08 0 a b 0, some e)
  | .bextzShort a p l => some (packImm 0x08 1 a (0#2 ++ l ++ p), none)
  | .bextzLong a b e => some (pack 0x08 1 a b 0, some e)
  | .bins a b e => some (pack 0x08 2 a b 0, some e)
  | .brEqShort a b o => some (pack 0x10 0 a b o, none)
  | .brEqLong a b e => some (pack 0x10 0 a b 0, some e)
  | .brNeShort a b o => some (pack 0x10 1 a b o, none)
  | .brNeLong a b e => some (pack 0x10 1 a b 0, some e)
  | .brLtsShort a b o => some (pack 0x10 2 a b o, none)
  | .brLtsLong a b e => some (pack 0x10 2 a b 0, some e)
  | .brGesShort a b o => some (pack 0x10 3 a b o, none)
  | .brGesLong a b e => some (pack 0x10 3 a b 0, some e)
  | .brLtzShort a b o => some (pack 0x10 4 a b o, none)
  | .brLtzLong a b e => some (pack 0x10 4 a b 0, some e)
  | .brGezShort a b o => some (pack 0x10 5 a b o, none)
  | .brGezLong a b e => some (pack 0x10 5 a b 0, some e)
  | .brAnyShort m o => some (pack 0x10 6 m 0 o, none)
  | .brAnyLong m e => some (pack 0x10 6 m 0 0, some e)
  | .jmpShort o => some (packImm 0x11 0 0 o, none)
  | .jmpLong e => some (pack 0x11 0 0 0 0, some e)
  | .jalShort a o => some (packImm 0x11 1 a o, none)
  | .jalLong a e => some (pack 0x11 1 a 0 0, some e)
  | .jr a b => some (pack 0x11 2 a b 0, none)
  | .lrotShort a d o => some (pack 0x12 0 a d o, none)
  | .lrotLong a d e => some (pack 0x12 0 a d 0, some e)
  | .wbase s v => some (pack 0x12 1 0 s v, none)
  | .nop => some (pack 0x13 0 0 0 0, none)
  | .yield => some (pack 0x13 1 0 0 0, none)
  | .ldsB a b c e => some (pack 0x14 0 a b c, e)
  | .ldsH a b c e => some (pack 0x14 1 a b c, e)
  | .ldsW a b c e => some (pack 0x14 2 a b c, e)
  | .ldzB a b c e => some (pack 0x14 3 a b c, e)
  | .ldzH a b c e => some (pack 0x14 4 a b c, e)
  | .ldzW a b c e => some (pack 0x14 5 a b c, e)
  | .ldD a b c e => some (pack 0x14 6 a b c, e)
  | .stB a b c e => some (pack 0x15 0 a b c, e)
  | .stH a b c e => some (pack 0x15 1 a b c, e)
  | .stW a b c e => some (pack 0x15 2 a b c, e)
  | .stD a b c e => some (pack 0x15 3 a b c, e)
  | .pf b c e => some (pack 0x16 0 0 b c, e)
  | .evf b c e => some (pack 0x16 1 0 b c, e)
  | .unpin b c e => some (pack 0x16 2 0 b c, e)
  | .vld a b e => some (pack 0x38 0 a b 0, e)
  | .vlds a b c e => some (pack 0x38 1 a b c, e)
  | .vldx a b c e => some (pack 0x38 2 a b c, e)
  | .vldk a b c e => some (pack 0x38 3 a b c, e)
  | .vst a b e => some (pack 0x39 0 a b 0, e)
  | .vsts a b c e => some (pack 0x39 1 a b c, e)
  | .vstx a b c e => some (pack 0x39 2 a b c, e)
  | .vsbm a b e => some (pack 0x39 3 a b 0, e)
  | .vstk a b c e => some (pack 0x39 4 a b c, e)
  | .aaddS a b c e => some (pack 0x3A 0 a b c, e)
  | .aandS a b c e => some (pack 0x3A 1 a b c, e)
  | .aorS a b c e => some (pack 0x3A 2 a b c, e)
  | .axorS a b c e => some (pack 0x3A 3 a b c, e)
  | .aminS a b c e => some (pack 0x3A 4 a b c, e)
  | .aminsS a b c e => some (pack 0x3A 5 a b c, e)
  | .amaxS a b c e => some (pack 0x3A 6 a b c, e)
  | .amaxsS a b c e => some (pack 0x3A 7 a b c, e)
  | .aswapS a b c e => some (pack 0x3A 8 a b c, e)
  | .acasS a b c e => some (pack 0x3A 9 a b c, e)
  | .aaddV a b c e => some (pack 0x3B 0 a b c, e)
  | .aandV a b c e => some (pack 0x3B 1 a b c, e)
  | .aorV a b c e => some (pack 0x3B 2 a b c, e)
  | .axorV a b c e => some (pack 0x3B 3 a b c, e)
  | .aminV a b c e => some (pack 0x3B 4 a b c, e)
  | .aminsV a b c e => some (pack 0x3B 5 a b c, e)
  | .amaxV a b c e => some (pack 0x3B 6 a b c, e)
  | .amaxsV a b c e => some (pack 0x3B 7 a b c, e)
  | .aswapV a b c e => some (pack 0x3B 8 a b c, e)
  | .acasV a b c e => some (pack 0x3B 9 a b c, e)
  | .cwaitL i => some (packImm 0x3C 0 0 i, none)
  | .cwaitS i => some (packImm 0x3C 1 0 i, none)
  | .fwait a b e => some (pack 0x3D 0 a b 0, e)
  | .vfwait a b c e => some (pack 0x3D 1 a b c, e)
  | .ffill a b c e => some (pack 0x3D 2 a b c, e)
  | .vpf b e => some (pack 0x3E 0 0 b 0, e)
  | .vevf b e => some (pack 0x3E 1 0 b 0, e)
  | .vadd a b c => some (pack 0x18 0 a b c, none)
  | .vsub a b c => some (pack 0x18 1 a b c, none)
  | .vmul a b c => some (pack 0x18 2 a b c, none)
  | .vmulhs a b c => some (pack 0x18 3 a b c, none)
  | .vmulhz a b c => some (pack 0x18 4 a b c, none)
  | .vmacc a b c => some (pack 0x18 5 a b c, none)
  | .vdivs a b c => some (pack 0x19 0 a b c, none)
  | .vdivz a b c => some (pack 0x19 1 a b c, none)
  | .vrems a b c => some (pack 0x19 2 a b c, none)
  | .vremz a b c => some (pack 0x19 3 a b c, none)
  | .vand a b c => some (pack 0x1A 0 a b c, none)
  | .vor a b c => some (pack 0x1A 1 a b c, none)
  | .vxor a b c => some (pack 0x1A 2 a b c, none)
  | .vandn a b c => some (pack 0x1A 3 a b c, none)
  | .vshl a b c => some (pack 0x1B 0 a b c, none)
  | .vshrs a b c => some (pack 0x1B 1 a b c, none)
  | .vshrz a b c => some (pack 0x1B 2 a b c, none)
  | .vmins a b c => some (pack 0x1C 0 a b c, none)
  | .vminz a b c => some (pack 0x1C 1 a b c, none)
  | .vmaxs a b c => some (pack 0x1C 2 a b c, none)
  | .vmaxz a b c => some (pack 0x1C 3 a b c, none)
  | .vsadds a b c => some (pack 0x1D 0 a b c, none)
  | .vsaddz a b c => some (pack 0x1D 1 a b c, none)
  | .vssubs a b c => some (pack 0x1D 2 a b c, none)
  | .vssubz a b c => some (pack 0x1D 3 a b c, none)
  | .vfma a b c => some (pack 0x20 0 a b c, none)
  | .vfadd a b c => some (pack 0x20 1 a b c, none)
  | .vfsub a b c => some (pack 0x20 2 a b c, none)
  | .vfmul a b c => some (pack 0x20 3 a b c, none)
  | .vfdiv a b c => some (pack 0x20 4 a b c, none)
  | .vfsqrt a b => some (pack 0x20 5 a b 0, none)
  | .vfrcpe a b => some (pack 0x21 0 a b 0, none)
  | .vfrsqe a b => some (pack 0x21 1 a b 0, none)
  | .vfmin a b c => some (pack 0x21 2 a b c, none)
  | .vfmax a b c => some (pack 0x21 3 a b c, none)
  | .vfclass a b => some (pack 0x21 4 a b 0, none)
  | .vfabs a b => some (pack 0x22 0 a b 0, none)
  | .vfneg a b => some (pack 0x22 1 a b 0, none)
  | .vfsgnj a b c => some (pack 0x22 2 a b c, none)
  | .vcmpeq a b c => some (pack 0x24 0 a b c, none)
  | .vcmpne a b c => some (pack 0x24 1 a b c, none)
  | .vcmplts a b c => some (pack 0x24 2 a b c, none)
  | .vcmpltz a b c => some (pack 0x24 3 a b c, none)
  | .vcmples a b c => some (pack 0x24 4 a b c, none)
  | .vcmplez a b c => some (pack 0x24 5 a b c, none)
  | .vfcmpeq a b c => some (pack 0x25 0 a b c, none)
  | .vfcmplt a b c => some (pack 0x25 1 a b c, none)
  | .vfcmple a b c => some (pack 0x25 2 a b c, none)
  | .vfcmpun a b c => some (pack 0x25 3 a b c, none)
  | .vfcvt a b c => some (pack 0x28 0 a b c, none)
  | .vfcvts a b c => some (pack 0x28 1 a b c, none)
  | .vfcvtz a b c => some (pack 0x28 2 a b c, none)
  | .vfcvtts a b c => some (pack 0x28 3 a b c, none)
  | .vfcvttz a b c => some (pack 0x28 4 a b c, none)
  | .vscvtf a b c => some (pack 0x29 0 a b c, none)
  | .vzcvtf a b c => some (pack 0x29 1 a b c, none)
  | .vwidens a b c => some (pack 0x2A 0 a b c, none)
  | .vwidenz a b c => some (pack 0x2A 1 a b c, none)
  | .vnarrs a b c => some (pack 0x2A 2 a b c, none)
  | .vnarrz a b c => some (pack 0x2A 3 a b c, none)
  | .vcmul a b c => some (pack 0x2C 0 a b c, none)
  | .vcmac a b c => some (pack 0x2C 1 a b c, none)
  | .vcconj a b => some (pack 0x2C 2 a b 0, none)
  | .vcnorm a b => some (pack 0x2C 3 a b 0, none)
  | .vmov a b => some (pack 0x30 0 a b 0, none)
  | .vsplat a b => some (pack 0x30 1 a b 0, none)
  | .vmerge a b c => some (pack 0x30 2 a b c, none)
  | .vslup a b c => some (pack 0x31 0 a b c, none)
  | .vsldn a b c => some (pack 0x31 1 a b c, none)
  | .vperm a b c => some (pack 0x31 2 a b c, none)
  | .vcomp a b => some (pack 0x31 3 a b 0, none)
  | .vexp a b => some (pack 0x31 4 a b 0, none)
  | .vsh a b c => some (pack 0x32 0 a b c, none)
  | .vfsh a b c => some (pack 0x32 1 a b c, none)
  | .vrsum a b c => some (pack 0x33 0 a b c, none)
  | .vrfsum a b c => some (pack 0x33 1 a b c, none)
  | .vrmins a b c => some (pack 0x33 2 a b c, none)
  | .vrminz a b c => some (pack 0x33 3 a b c, none)
  | .vrmaxs a b c => some (pack 0x33 4 a b c, none)
  | .vrmaxz a b c => some (pack 0x33 5 a b c, none)
  | .vrfmin a b c => some (pack 0x33 6 a b c, none)
  | .vrfmax a b c => some (pack 0x33 7 a b c, none)
  | .vgmax a b c => some (pack 0x34 0 a b c, none)
  | .vgsum a b c => some (pack 0x34 1 a b c, none)
  | .maskAnd a b c => some (pack 0x35 0 a b c, none)
  | .maskOr a b c => some (pack 0x35 1 a b c, none)
  | .maskXor a b c => some (pack 0x35 2 a b c, none)
  | .maskAndn a b c => some (pack 0x35 3 a b c, none)
  | .mclr a => some (pack 0x35 4 a 0 0, none)
  | .mset a => some (pack 0x35 5 a 0 0, none)
  | .mpopc a b => some (pack 0x36 0 a b 0, none)
  | .mfirst a b => some (pack 0x36 1 a b 0, none)
  | .vgetx a b c => some (pack 0x36 2 a b c, none)
  | .vputx a b c => some (pack 0x36 3 a b c, none)
  | .fmt t u x b c => some (pack 0x44 0 (x ++ u ++ t) b c, none)
  | .mma a b c => some (pack 0x45 0 a b c, none)
  | .mmai a b c => some (pack 0x45 1 a b c, none)
  | .mmalX a b c e => some (pack 0x45 2 a b c, e)
  | .mmalA a b c e => some (pack 0x45 3 a b c, e)
  | .ipload b c => some (pack 0x46 0 0 b c, none)
  | .ipsave b => some (pack 0x46 1 0 b 0, none)
  | .atzero a b => some (pack 0x47 0 a b 0, none)
  | .atmov a b => some (pack 0x47 1 a b 0, none)
  | .atload a b c => some (pack 0x47 2 a b c, none)
  | .atsave a b => some (pack 0x47 3 a b 0, none)
  | .attr a => some (pack 0x47 4 a 0 0, none)
  | .atadd a b => some (pack 0x47 5 a b 0, none)
  | .atgetF32 a b c => some (pack 0x48 0 a b c, none)
  | .atgetBf16 a b c => some (pack 0x48 1 a b c, none)
  | .atgetI32 a b c => some (pack 0x48 2 a b c, none)
  | .atputF32 a b c => some (pack 0x48 3 a b c, none)
  | .atputI32 a b c => some (pack 0x48 4 a b c, none)
  | .xdelta a b c => some (pack 0x4C 0 a b c, none)
  | .xundelta a b c => some (pack 0x4C 1 a b c, none)
  | .xzz a b => some (pack 0x4C 2 a b 0, none)
  | .xunzz a b => some (pack 0x4C 3 a b 0, none)
  | .xpack a b c => some (pack 0x4D 0 a b c, none)
  | .xunpack a b c => some (pack 0x4D 1 a b c, none)
  | .xpackg a b c => some (pack 0x4D 2 a b c, none)
  | .xunpackg a b c => some (pack 0x4D 3 a b c, none)
  | .xdtab b c => some (pack 0x4E 0 0 b c, none)
  | .xdec a b c => some (pack 0x4E 1 a b c, none)
  | .xquant a b c e => some (pack 0x4F 0 a b c, some e)
  | .xdequant a b c e => some (pack 0x4F 1 a b c, some e)
  | .xcrc a b => some (pack 0x50 0 a b 0, none)
  | .xcrcf a b => some (pack 0x50 1 a b 0, none)
  | .xtopk a b c => some (pack 0x51 0 a b c, none)
  | .xbotk a b c => some (pack 0x51 1 a b c, none)
  | .xkmerge a b c => some (pack 0x51 2 a b c, none)
  | .xbkmerge a b c => some (pack 0x51 3 a b c, none)
  | .tspawn a b c => some (pack 0x54 0 a b c, none)
  | .tend b => some (pack 0x54 1 0 b 0, none)
  | .tabort b => some (pack 0x54 2 0 b 0, none)
  | .tstat a b => some (pack 0x54 3 a b 0, none)
  | .forkTask a b c => some (pack 0x55 0 a b c, none)
  | .joinChild a b => some (pack 0x55 1 a b 0, none)
  | .joinall a => some (pack 0x55 2 a 0 0, none)
  | .cancelInst b => some (pack 0x56 0 0 b 0, none)
  | .bst a b c e => some (pack 0x57 0 a b c, some e)
  | .ordb b => some (pack 0x57 1 0 b 0, none)
  | .orde => some (pack 0x57 2 0 0 0, none)
  | .tkget a b => some (pack 0x57 3 a b 0, none)
  | .rope a b => some (pack 0x58 0 a b 0, none)
  | .unrope => some (pack 0x58 1 0 0 0, none)
  | .rbar a b => some (pack 0x58 2 a b 0, none)
  | .msend b c => some (pack 0x59 0 0 b c, none)
  | .vmsend b c => some (pack 0x59 1 0 b c, none)
  | .mrecv a b => some (pack 0x59 2 a b 0, none)
  | .vmrecv a b c => some (pack 0x59 3 a b c, none)
  | .mpoll a b => some (pack 0x59 4 a b 0, none)
  | .vredq a b c => some (pack 0x59 5 a b c, none)
  | .vredqf a b c => some (pack 0x59 6 a b c, none)
  | .twait b => some (pack 0x5A 0 0 b 0, none)
  | .twaitd b => some (pack 0x5A 1 0 b 0, none)
  | .rbox a b c => some (pack 0x5C 0 a b c, none)
  | .rtri a b c => some (pack 0x5C 1 a b c, none)
  | .rpush a b c => some (pack 0x5D 0 a b c, none)
  | .rpop a b c => some (pack 0x5D 1 a b c, none)
  | .rhit a b c => some (pack 0x5D 2 a b c, none)
  | .rterm a b => some (pack 0x5D 3 a b 0, none)
  | .rspawn a b c => some (pack 0x5E 0 a b c, none)
  | .rdepth a => some (pack 0x5E 1 a 0 0, none)
  | .texBl a b c => some (pack 0x5F 0 a b c, none)
  | .texSt a b c => some (pack 0x5F 1 a b c, none)
  | .texPt a b c => some (pack 0x5F 2 a b c, none)
  | .texq a b c => some (pack 0x5F 3 a b c, none)
  | .mout a b c => some (pack 0x60 0 a b c, none)
  | .mprim a b => some (pack 0x60 1 a b 0, none)
  | .mend b c => some (pack 0x60 2 0 b c, none)
  | .rast a b c => some (pack 0x61 0 a b c, none)
  | .sget a n => some (packImm 0x64 0 a (0#2 ++ n), none)
  | .sset a n => some (packImm 0x64 1 a (0#2 ++ n), none)
  | .sswap a b e => some (pack 0x64 2 a b 0, some e)
  | .scall i => some (packImm 0x65 0 0 i, none)
  | .eret => some (pack 0x65 1 0 0 0, none)
  | .brk i => some (packImm 0x65 2 0 i, none)
  | .wfi => some (pack 0x65 3 0 0 0, none)
  | .halt => some (pack 0x65 4 0 0 0, none)
  | .tlbw a b c => some (pack 0x66 0 a b c, none)
  | .tlbi b c => some (pack 0x66 1 0 b c, none)
  | .tlbr a b => some (pack 0x66 2 a b 0, none)
  | .hsave b => some (pack 0x67 0 0 b 0, none)
  | .hrest b => some (pack 0x67 1 0 b 0, none)
  | .pack b c => some (pack 0x67 2 0 b c, none)
  | .setLengthRequest _ _ | .vcfgWrite _ | .wbaseWrite _ | .vlWrite _ | .hstatWrite _ | .accownWrite _ _ => none
  | .atsatClear _ _ | .mstWrite _ _ | .tbWrite _ | .artWrite _ _ | .registerWrite _ _ | .barrierArriveWait _ _ => none
  | .barrierQuery _ _ | .barrierArrive _ | .barrierConfigure _ _ | .mutexAcquire _ _ | .mutexRelease _
  | .mutexTry _ _ => none
  | .mutexConfigure _ _ | .eventWait _ _ | .eventSet _ _ | .eventClear _ | .eventConfigure _ _
  | .barrierRelease _ _ => none
  | .barrierParentArrival _ _ | .mutexGrant _ _ | .convoyIssue _ | .asyncTrap _ | .hintStallExpiry _
  | .loadDataReturn _ => none
  | .memoryOpPerformed _ | .remoteRefusal _ | .belayWake _ _ | .messageArrival _ | .sendRoom _ | .twaitExpiry _ => none
  | .childEnded _ | .ordbRelease _ | .ordtmoExpiry _ | .ropeForm _ | .rbarRelease _ | .mstSlotBoundary _ => none
  | .translationRequest _ _ _ | .fillc _ _ | .twekick _ _ | .transferComplete _ | .engineFence _ | .repkick _ => none
  | .reprojectionDone _ | .doorbell _ _ _ _ | .fwctlWrite _ _ | .dispatchCycle _ | .tileResident _ _
  | .queueRoom _ => none
  | .cancelToken _ | .commitRelease _ | .commitPerformed _ | .preemptMessage _ _ | .preemptDeadline _
  | .contextReturn _ => none
  | .startMessage _ _ | .wakeMessage _ | .classifierTriangle _ | .classifierRoom _ | .submissionEntry _
  | .launchNode _ => none
  | .copyNode _ | .signalNode _ | .waitNode _ | .timedNode _ | .condNode _ | .loopNode _ => none
  | .indirectNode _ | .endNode _ | .launchEnd _ | .ctxnew _ | .ctxdel _ | .qnew _ => none
  | .qdel _ | .sqnew _ | .sqdel _ | .mapPages _ | .unmap _ | .migrate _ => none
  | .tdopen _ | .tdclose _ | .drawopen _ | .drawseal _ | .drawclose _ | .sqreset _ => none
  | .fwupdate _ | .rehomeReply _ | .hello _ _ _ _ | .firmwareMailboxMessage _ _ _ | .moduleReset _
  | .dieReset _ => none
  | .uncorrectableError _ _ | .parityError _ _ | .linkTrain _ _ _ | .linkDown _ _ | .flitReplay _ _ | .tbStep => none
  | .fabricAccess _ | .rdmaWrite _ _ _ | .rdmaRead _ _ | .roceSend _ _ | .roceCompareAndSwap _ _ _
  | .roceFetchAndAdd _ _ => none
  | .hostAccess _ _ _ _ | .clockStepDown _ | .clockStepUp _ | .thermalShutdown _ | .lifetimeRecordWrite _
  | .lifetimeRecordRefresh _ => none
  | .matrixInstructionComplete _ | .correctedError _ _ | .orderlyShutdown _ | .smbusManagementWrite _ _ _ => none

/-! ## Convoys -/

/-- A convoy as fetched: its header word and its three slot words (R65). -/
structure Convoy where
  hdr : Word
  words : List Word
deriving DecidableEq, Repr

/-- The little-endian word of four bytes (R4). -/
def wordOfBytes (b0 b1 b2 b3 : Byte) : Word := b3 ++ b2 ++ b1 ++ b0

/-- The four bytes of a word, the lowest address first (R4). -/
def bytesOfWord (w : Word) : List Byte :=
  [w.extractLsb' 0 8, w.extractLsb' 8 8, w.extractLsb' 16 8, w.extractLsb' 24 8]

/-- The convoy that 16 bytes hold (R65); any other number of bytes is no convoy. -/
def convoyOfBytes : List Byte → Option Convoy
  | [a0, a1, a2, a3, b0, b1, b2, b3, c0, c1, c2, c3, d0, d1, d2, d3] =>
    some ⟨wordOfBytes a0 a1 a2 a3,
      [wordOfBytes b0 b1 b2 b3, wordOfBytes c0 c1 c2 c3, wordOfBytes d0 d1 d2 d3]⟩
  | _ => none

/-- NS, bits [3:2] of the header (R66). -/
def hdrNS (h : Word) : Nat := (h.extractLsb' 2 2).toNat
/-- VER, bits [1:0] of the header (R66). -/
def hdrVer (h : Word) : Nat := (h.extractLsb' 0 2).toNat
/-- EXT1, bit 4 of the header (R66). -/
def hdrExt1 (h : Word) : Bool := h.toNat.testBit 4
/-- EXT2, bit 5 of the header (R66). -/
def hdrExt2 (h : Word) : Bool := h.toNat.testBit 5
/-- CHAIN, bit 6 of the header (R66). -/
def hdrChain (h : Word) : Bool := h.toNat.testBit 6
/-- MSK of slot k, bits [10:7], [14:11], [18:15] (R66). -/
def hdrMsk (h : Word) (k : Nat) : Nat := (h.toNat >>> (7 + 4 * k)) % 16
/-- STAGE, bits [23:19] of the header (R66). -/
def hdrStage (h : Word) : Nat := (h.extractLsb' 19 5).toNat
/-- HINT, bits [27:24] of the header (R66). -/
def hdrHint (h : Word) : Nat := (h.extractLsb' 24 4).toNat

/-- Slot k of a convoy is the extension word of the slot before it (R66). -/
def isExt (h : Word) (k : Nat) : Bool := (k == 1 && hdrExt1 h) || (k == 2 && hdrExt2 h)

/-- The extension word of slot k, when it has one (R66). -/
def extOf (h : Word) (ws : List Word) (k : Nat) : Option Word := if isExt h (k + 1) then ws[k + 1]? else none

/-- What slot k of a convoy decodes to. -/
noncomputable def decodeConvoySlot (cv : Convoy) (k : Nat) : DecodeResult :=
  match cv.words[k]? with
  | none => .undefined
  | some w => decodeSlot w (extOf cv.hdr cv.words k)

/-- The header of a convoy of one slot with no extension, mask, stage or hint: NS = 1, VER = 0 (R66). -/
def oneSlotHeader : Word := 4

/-- The 16 bytes of a convoy whose only live slot is a word. -/
def oneSlotBytes (w : Word) : List Byte :=
  bytesOfWord oneSlotHeader ++ bytesOfWord w ++ bytesOfWord 0 ++ bytesOfWord 0

/-- The header of a convoy of one slot and its extension word: NS = 2, EXT1 (R66). -/
def extSlotHeader : Word := 24

/-- The 16 bytes of a convoy whose first slot is a word with an extension word. -/
def extSlotBytes (w e : Word) : List Byte :=
  bytesOfWord extSlotHeader ++ bytesOfWord w ++ bytesOfWord e ++ bytesOfWord 0

/-- The bytes of a table row's instruction as a convoy: a slot word, or a slot word and the extension word above it. -/
def tableBytes (nbits w : Nat) : Option (List Byte) :=
  if nbits = 32 then some (oneSlotBytes (BitVec.ofNat 32 w))
  else if nbits = 64 then some (extSlotBytes (BitVec.ofNat 32 w) (BitVec.ofNat 32 (w / 2 ^ 32)))
  else none

/-- What the decoder reads from an instruction whose bits the opcode table numbers: its words are laid out as a convoy in
memory and decoded from there. A row of any other length has no bits in the table. -/
noncomputable def decodeTableWord (nbits w : Nat) : Option Instr :=
  match (tableBytes nbits w).bind convoyOfBytes with
  | some cv =>
    match decodeConvoySlot cv 0 with
    | .ok i => some i
    | _ => none
  | none => none

end Sys2Proof
end

