-- ==== Sys2Proof/Machine/State.lean ====
section
/-! DEFINITION. The state of one node of Apwyn 940 devices, as plain data: harts, cores, cluster units, dies, devices,
queues and tables, memory, and the model's own tape of inputs. Every field names the rule of spec/ that gives it.
Units are keyed by position: a core key is ((device * 8 + die) * 128 + unit), a hart key is (core key * 8 + hart), a
cluster key is (die key * 16 + cluster); unit is y * 12 + x for a tile and 96 + cluster for a translation service
core (R9, R39). -/
namespace Sys2Proof.Machine

open Sys2Proof

/-! ## Why the machine stops -/

/-- The machine stops with a fault. Only steps given a unit that the node does not have raise one (safe). -/
inductive Fault where
  /-- A convoy was to be issued by a hart key that names no hart of the node (R9, R302, R395). Raised by
  CONVOY_ISSUE only. Safe: the hardware has no such hart. -/
  | noSuchHart
deriving DecidableEq, Repr

/-- The machine refuses an instruction. -/
inductive Refusal where
  /-- The instruction has no meaning yet; raised by the dispatch alone. Safe. -/
  | notModelled (mnemonic : String)
deriving DecidableEq, Repr

/-! ## Harts -/

/-- The five states of a hart (R7). -/
inductive HartState where
  | idle | running | parked | preempted | follower
deriving DecidableEq, Repr

/-- What a hart that has begun to wait in a slot waits for (R7, R162, R164, R169, R218, R276). -/
inductive Wait where
  /-- No wait. -/
  | none
  /-- Empty futures armed in the belay table, as address and location, and the count `vfwait` returns (R164, R166). -/
  | future (locs : List (Nat × Nat)) (c : Nat)
  /-- An event-window load on object n of a kind: 0 barrier, 1 mutex, 2 event; g is the generation (R169, R171). -/
  | event (kind n g : Nat)
  /-- An empty receive queue (R238, R239). -/
  | recv (q : Nat)
  /-- A full receive queue of hart dst (R237). -/
  | send (dst q : Nat)
  /-- The timebase reaching t; rel says the wait came from `twaitd` (R240). -/
  | time (t : Nat) (rel : Bool)
  /-- A message, a wake or a pending trap (R276). -/
  | wfi
  /-- A full task queue (R218, R334). -/
  | queue (q : Nat)
  /-- A child (R228), lower tickets (R233), rope members (R235, R236), the classifier (R261, R262), counters (R149,
  R162), a matrix unit (R25, R192, R198), a translation (R146): waits that are simply not ready. `w` says whether an
  asynchronous trap withdraws the wait. -/
  | notReady (w : Bool)
deriving DecidableEq, Repr

/-- A last-result file: q0 to q3 and the pending entries, oldest first (R15, R16). -/
structure QFile where
  /-- q0; 1,024 bits; R15; reset 0 (R22 for a started task). -/
  q0 : VReg := 0
  /-- q1; 1,024 bits; R15; reset 0 (R22 for a started task). -/
  q1 : VReg := 0
  /-- q2; 1,024 bits; R15; reset 0 (R22 for a started task). -/
  q2 : VReg := 0
  /-- q3; 1,024 bits; R15; reset 0 (R22 for a started task). -/
  q3 : VReg := 0
  /-- pending entries of a convoy with CHAIN = 0; up to two held over a trap; R16; reset none. -/
  pend : List VReg := []
deriving DecidableEq, Repr

/-- What a rope's leader has settled for its members in a slot of a convoy (R19, R20, R98). -/
inductive Ruling where
  /-- The leader's slot was removed, and nothing is done in the slot (log 73). -/
  | skipped
  /-- A control slot: the target if it is taken, and whether `lrot` starts a new first stage (R98, R99). -/
  | decided (d : Option DWord × Bool)
  /-- A set-length request: this member's part and the total (R20). -/
  | granted (part total : Nat)
  /-- The members' configurations differ (R20). -/
  | differ
deriving DecidableEq, Repr

/-- How a hart that goes on to its next convoy boundary ends there (R222, R229, R234, R403). -/
inductive Ending where
  /-- It goes on. -/
  | none
  /-- Its idempotent task is cancelled (R234). -/
  | cancelled
  /-- Its task is aborted as the descendant of another (R222, R229). -/
  | aborted
  /-- Its context is fenced (R403). -/
  | fenced
deriving DecidableEq, Repr

/-- A convoy that has begun and has not retired (R35, R67, R68, R74). -/
structure Conv where
  /-- header word; 32 bits; R66; none at reset. -/
  hdr : Word := 0
  /-- slot words 0 to 2; 32 bits each; R65; none at reset. -/
  words : List Word := []
  /-- the slot reached; R68; none at reset. -/
  slot : Nat := 0
  /-- VRI.ELEM and VRI.BITPOS the slot resumes with; R34; none at reset. -/
  elem : Nat := 0
  /-- bit position the slot resumes with; R34; none at reset. -/
  bitpos : Nat := 0
  /-- the slot is resumed with CVR.V = 1; R35; none at reset. -/
  resumed : Bool := false
  /-- SPRD as it stood when the convoy began; 32 bits; R74; none at reset. -/
  sprd : Word := 0
  /-- the convoy was entered by `eret`: its retirement clears HEPC, CVR and VRI; R35, R275; none at reset. -/
  ret : Bool := false
  /-- the decoder found a non-zero unused field or a missing extension in the slot; R69, R71; none at reset. -/
  bad : Bool := false
  /-- the control transfer a slot of the convoy has decided; R96, R97; none at reset. -/
  target : Option DWord := none
  /-- what the rope leader has settled for its members, by slot; R19, R20, R98; none at reset. -/
  ctl : List (Nat × Ruling) := []
  /-- the members of the rope that began the convoy, leader first: they complete it as a rope also after a trap of one of them
  has disbanded it; R19, R21, R98; none at reset. -/
  crew : List Nat := []
deriving DecidableEq, Repr

/-- A pending asynchronous trap (R147, R271, R272, R274). -/
structure Async where
  cause : Nat
  info : Nat
  faddr : DWord
deriving DecidableEq, Repr

/-- A register as storage: of a hart's scalar file or operand file, or of its core's vector pool (R6, R11, R14). -/
inductive RegName where
  | scalar (i : Nat)
  | operand (i : Nat)
  | pool (i : Nat)
deriving DecidableEq, Repr

/-- The destination of a refused load, which was written with zero, and a trap that reports it (R147). -/
structure Refused where
  trap : Async
  regs : List RegName
deriving DecidableEq, Repr

/-- One region of a fork (R224). -/
structure Region where
  base : Nat
  len : Nat
  type : Nat
  merge : Nat
deriving DecidableEq, Repr

/-- A child of a task and whether it has ended, with the word `join` returns (R225, R228). -/
structure Child where
  handle : Nat
  uid : Nat
  regions : List Region
  result : Option DWord := none
deriving DecidableEq, Repr

/-- One entry of an idempotent task's buffer, in program order (R220, R232, R241, R299). -/
inductive Buffered where
  /-- A store of bytes (address and byte, ascending) at a scope; sec is the ordered section it stands in, if any, and evf its
  evict-first hint (R75, R318). -/
  | store (scope : Nat) (bytes : List (Nat × Byte)) (sec : Option Nat) (evf : Bool := false)
  /-- A nibble store: address, high nibble or not, value, section and hint (R154). -/
  | nibble (scope : Nat) (addr : Nat) (hi : Bool) (v : Nat) (sec : Option Nat) (evf : Bool := false)
  /-- A blend store: pixel address, colour, operation (R232), and the bytes that a published section store has since
  written (R233). -/
  | blend (addr : Nat) (src : Nat) (op : Nat) (sec : Option Nat) (skip : List Nat)
  /-- A held spawn: queue, record words, spawn depth (R220, R253). -/
  | spawn (queue : Nat) (words : List DWord) (depth : Nat)
  /-- A held drop-counter addition (R253). -/
  | addTo (addr : Nat) (n : Nat)
  /-- A held `mend` hand-over: vertices and primitives of the buffer (R261). -/
  | mesh (verts : List (Nat × Nat)) (prims : List (Nat × Nat)) (nv np : Nat)
  /-- A held `rast` record: its draw and its 16 words (R262). -/
  | rast (draw : Nat × Nat) (words : List Word)
deriving DecidableEq, Repr

/-- The task a hart runs (R22, R219, R336). -/
structure Task where
  /-- task number; the model's own; none at reset. -/
  uid : Nat
  /-- the 16 words of its record; R219; none at reset. -/
  words : List DWord
  /-- its launch; R336; none at reset. -/
  launch : Nat
  /-- instance index and instance count; R22; none at reset. -/
  inst : Nat := 0
  icount : Nat := 1
  /-- instance index its primitives are numbered by: its own, or its spawner's; R358; none at reset. -/
  pinst : Nat := 0
  /-- graph instance; 32 bits; R219, R381; none at reset. -/
  ginst : Nat := 0
  /-- queue it started from; R343; none at reset. -/
  queue : Nat := 0
  /-- screen tile of the bin entry it started from, and that entry's arrival number; R348, R349; none at reset. -/
  tile : Nat := 0
  num : Nat := 0
  /-- device it runs on; R2; none at reset. -/
  dev : Nat := 0
  /-- outstanding children, in fork order; R225; none at reset. -/
  children : List Child := []
  /-- buffered stores, blend stores, held spawns and hand-overs; R220, R299; none at reset. -/
  buf : List Buffered := []
  /-- parent task and handle, when forked; R225; none at reset. -/
  parent : Option (Nat × Nat) := none
  /-- keys of the ordered sections it has closed; R233; none at reset. -/
  closed : List Nat := []
  /-- key of the open ordered section; R233; none at reset. -/
  sect : Option Nat := none
  /-- an `ordb` has been executed, so the task is aborted no more; R233; none at reset. -/
  ordOnce : Bool := false
  /-- scratchpad offset of the reserved mesh buffer; R357; none at reset. -/
  mesh : Option Nat := none
  /-- mesh buffer contents: slot values by vertex * 32 + slot, primitives by index; R260; none at reset. -/
  verts : SMap Nat := []
  prims : SMap Nat := []
  /-- the input-tile descriptors it declared, four words each; R340, R342; none at reset. -/
  tiles : List (List DWord) := []
deriving DecidableEq, Repr

/-- A channel message: its bytes (R237). -/
abbrev Msg := List Byte

/-- What `pack` records (R283). -/
structure Packed where
  image : DWord
  resume : DWord
  htvec : DWord
  ctxid : Nat
  chunks : Nat
  idem : Bool
  ord : Bool
  ordtmo : DWord
  section_ : Nat
deriving DecidableEq, Repr

/-- A translation held in a TLB: context, page base, page size log2 and entry word (R308, R311). -/
structure TlbEnt where
  ctx : Nat
  page : Nat
  size : Nat
  entry : DWord
deriving DecidableEq, Repr

/-- The state of one hart (R6, R9, R28). -/
structure Hart where
  /-- PC, address of the convoy being issued; 64 bits; R6; reset 0 (DESIGN CHOICE, log 2). -/
  pc : DWord := 0
  /-- which of the five states; R7; reset idle (R9 for the service cores; DESIGN CHOICE, log 2, for the others). -/
  st : HartState := .idle
  /-- what a waiting slot waits for; R218; reset none. -/
  wait : Wait := .none
  /-- an event woke the waiting slot, with the value it delivers; R164, R169, R237; reset none. -/
  grant : Option DWord := none
  /-- scalar file, 256 registers of 64 bits; R6, R10; reset 0 (DESIGN CHOICE, log 2). -/
  sregs : SMap DWord := []
  /-- vector allocation: pool chunks of 32 registers, in allocation order; R11; reset none (VALLOC 0, R28). -/
  chunks : List Nat := []
  /-- operand file o0 to o15; 1,024 bits each; R14; reset 0 (DESIGN CHOICE, log 2). -/
  oregs : SMap VReg := []
  /-- last-result file; R15; reset 0 (DESIGN CHOICE, log 2). -/
  q : QFile := {}
  /-- kept last-result file of a trap; R267; reset 0 (DESIGN CHOICE, log 2). -/
  kept : QFile := {}
  /-- masks m1 to m7; 1,024 bits each; R17; reset 0 (DESIGN CHOICE, log 2). -/
  masks : SMap VReg := []
  /-- SPRD, stage predicates; 32 bits; R6, R28; reset 0. -/
  sprd : Word := 0
  /-- LCNT; 0 to 63; R6, R149; reset 0. -/
  lcnt : Nat := 0
  /-- SCNT; 0 to 63; R6, R149; reset 0. -/
  scnt : Nat := 0
  /-- HSTAT; 64 bits; R30; reset 0, MODE 3 on firmware-column and translation service cores. -/
  hstat : DWord := 0
  /-- HCAUSE; 64 bits; R31; reset 0. -/
  hcause : DWord := 0
  /-- HEPC; 64 bits; R32; reset 0. -/
  hepc : DWord := 0
  /-- CVR; 64 bits; R33; reset 0. -/
  cvr : DWord := 0
  /-- VRI; 64 bits; R34; reset 0. -/
  vri : DWord := 0
  /-- HTVEC; 64 bits; R28; reset 0. -/
  htvec : DWord := 0
  /-- HSCR; 64 bits; R28; reset 0. -/
  hscr : DWord := 0
  /-- VCFG; 64 bits; R36; reset 0x7003. -/
  vcfg : DWord := 0x7003
  /-- VL; 16 bits; R28, R102; reset 0. -/
  vl : BitVec 16 := 0
  /-- XCFG; 64 bits; R202; reset 0. -/
  xcfg : DWord := 0
  /-- WBASE; 64 bits; R37; reset 0. -/
  wbase : DWord := 0
  /-- CTXID; 16 bits; R28; reset 0. -/
  ctxid : BitVec 16 := 0
  /-- RSTAT; 64 bits; R40; reset 0. -/
  rstat : DWord := 0
  /-- RBAR, shared by a rope, the hart's own outside one; 64 bits; R29, R236; reset 0. -/
  rbar : DWord := 0
  /-- ORDTMO; 64 bits; R28, R233; reset 0x0010_0000. -/
  ordtmo : DWord := 0x100000
  /-- FADDR, the hidden fault address; 64 bits; R272; reset 0 (DESIGN CHOICE, log 2). -/
  faddr : DWord := 0
  /-- control transfer held for the retirement of a resumed convoy; R97; reset none. -/
  held : Option DWord := none
  /-- the lanes' sticky float flags NV DZ OF UF NX and their sixth bit; 6 bits; R46, R279; reset 0. -/
  sticky : BitVec 6 := 0
  /-- decode state table, 512 entries of 32 bits; R207; reset 0 (DESIGN CHOICE, log 2). -/
  dtab : SMap Word := []
  /-- four receive queues of up to eight messages; R9, R237; reset empty. -/
  rq : SMap (List Msg) := []
  /-- spill queues of a pre-empted hart; R283; reset empty. -/
  spill : SMap (List Msg) := []
  /-- the task the hart runs; R22; reset none. -/
  task : Option Task := none
  /-- started by a start message: running without a task; R7, R371; reset no. -/
  started : Bool := false
  /-- pending asynchronous traps, in order of arrival; R274; reset none. -/
  async : List Async := []
  /-- destinations of refused loads, which no convoy reads before their traps are taken; R147; reset none. -/
  zeroed : List Refused := []
  /-- the convoy in progress; R35; reset none. -/
  conv : Option Conv := none
  /-- the unit-stride register; R311; reset none. -/
  ustride : Option TlbEnt := none
  /-- `eret` with CVR.V = 1 has been executed and the convoy at PC is to be resumed; R35, R275; reset no. -/
  resume : Bool := false
  /-- the section count against ORDTMO; R233; reset 0. -/
  secCount : Nat := 0
  /-- the section's count has exceeded ORDTMO and the cancel has been issued; R233; reset no. -/
  secOver : Bool := false
  /-- spawn depth; R252; reset 0. -/
  depth : Nat := 0
  /-- HINT stall count still to run; R74; reset 0. -/
  stall : Nat := 0
  /-- HINT yield: passed over at the next opportunity; R74; reset no. -/
  yield : Bool := false
  /-- context whose values the register files hold; R23; reset 0. -/
  lastCtx : Nat := 0
  /-- what `pack` recorded, while pre-empted; R283; reset none. -/
  packed : Option Packed := none
  /-- PRE-EMPT has been taken and the pre-emption is not complete for this hart; R282, R283; reset no. -/
  leaving : Bool := false
  /-- a register read of the slot in progress failed parity once; R406; reset no. -/
  parity : Bool := false
  /-- how it ends at its next convoy boundary; R222, R229, R234, R403; reset not at all. -/
  ending : Ending := .none
  /-- widest scope of the loads and returning atomics that have performed since the last completed `cwait.l 0`, plus 1; R289;
  reset 0, none. -/
  acq : Nat := 0
  /-- SPRD of the convoys that traps have left part-way, as they began with it, innermost handler first, none for a convoy
  to be restarted; R74, R99; the model's own (log 74); reset none. -/
  sprdKept : List (Option Word) := []
  /-- whether a pending prefix waits for the `eret` of a handler, innermost handler first; R30, R176; reset none. -/
  pxStack : List Bool := []
deriving DecidableEq, Repr

/-! ## Cores -/

/-- A launch's scratchpad block on a core (R338). -/
structure Block where
  launch : Nat
  off : Nat
  size : Nat
deriving DecidableEq, Repr

/-- An input tile on a core: descriptor words, launch, whether every byte has been written, and the entry a TAG 0 tile
was fetched for (R341). -/
structure RTile where
  launch : Nat
  desc : List DWord
  resident : Bool
  owner : Nat
  ctx : Nat
  id : Nat
deriving DecidableEq, Repr

/-- A transfer waiting at or running on a tile-walk engine (R391, R392). -/
structure Kick where
  ctx : Nat
  desc : DWord
  /-- device of the storing hart, whose context it is (R388, R392) -/
  dev : Nat := 0
  /-- the walk and number of the COPY node that kicked it, if one did (R380) -/
  walk : Option (Nat × Nat) := none
  /-- the eight words of its descriptor, once the engine has read them (R391) -/
  words : List DWord := []
  /-- elements moved so far (R391, R393) -/
  elem : Nat := 0
  /-- destination bytes written so far, by virtual address (R394) -/
  out : SMap Byte := []
  /-- the address whose access faulted, which FAULT has still to hold (R393) -/
  fault : Option Nat := none
  /-- STATUS and checksum that its mailbox has still to take (R393, R403, R408) -/
  report : Option (Nat × Nat) := none
deriving DecidableEq, Repr

/-- A matrix instruction issued and not yet completed: which tiles it names and whether it reads W (R25, R187). -/
structure InFlight where
  hart : Nat
  tiles : List Nat
  readsW : Bool
deriving DecidableEq, Repr

/-- A pre-emption in progress on a core (R282). -/
structure Preempt where
  deadline : Nat
  harts : List Nat
  /-- the contexts that leave -/
  ctxs : List Nat := []
deriving DecidableEq, Repr

/-- The state of one core (R24, R29, R186, R305). -/
structure Core where
  /-- vector pool, 2,048 registers of 1,024 bits; R11; reset 0 (DESIGN CHOICE, log 2). -/
  pool : SMap VReg := []
  /-- context whose values a 32-register chunk of the pool holds; R23; reset 0. -/
  poolCtx : SMap Nat := []
  /-- accumulator tile at0, cells by 32 * row + column; 40 bits each; R24; reset 0 (DESIGN CHOICE, log 2). -/
  at0 : SMap (BitVec 40) := []
  /-- accumulator tile at1, cells by 32 * row + column; 40 bits each; R24; reset 0 (DESIGN CHOICE, log 2). -/
  at1 : SMap (BitVec 40) := []
  /-- ACCOWN0; 64 bits; R38; reset 0. -/
  accown0 : DWord := 0
  /-- ACCOWN1; 64 bits; R38; reset 0. -/
  accown1 : DWord := 0
  /-- ATSAT0; 64 bits; R38; reset 0. -/
  atsat0 : DWord := 0
  /-- ATSAT1; 64 bits; R38; reset 0. -/
  atsat1 : DWord := 0
  /-- MST entries 0 to 15 as read; 64 bits each; R197; reset 0. -/
  mst : SMap DWord := []
  /-- MST entries as the rotation uses them, before writes not yet at a slot boundary; R198; reset 0. -/
  mstLive : SMap DWord := []
  /-- the slot in progress: entry, its length at its start, cycles run; R198; reset none. -/
  mstSlot : Option (Nat × Nat × Nat) := none
  /-- SPW0 to SPW3; 64 bits each; R305; reset 0. -/
  spw : SMap DWord := []
  /-- infuser W by row * 128 + column; 16 bits each; R186; reset 0 (DESIGN CHOICE, log 2). -/
  infW : SMap (BitVec 16) := []
  /-- infuser owner valid bit; R186; reset 0. -/
  infV : Bool := false
  /-- infuser owner context; 16 bits; R186; reset 0 (DESIGN CHOICE, log 2). -/
  infCtx : Nat := 0
  /-- infuser owner hart; 3 bits; R186; reset 0 (DESIGN CHOICE, log 2). -/
  infHart : Nat := 0
  /-- infuser shape code RC; R187; reset 0 (DESIGN CHOICE, log 2). -/
  infRC : Nat := 0
  /-- infuser shape code DC; R187; reset 0 (DESIGN CHOICE, log 2). -/
  infDC : Nat := 0
  /-- matrix instructions issued and not completed; R25, R187, R192; reset none. -/
  inflight : List InFlight := []
  /-- fetch-and-scalar TLB, 64 entries; R311; reset empty. -/
  tlb : List TlbEnt := []
  /-- gather TLB: bank and entry, 16 banks of 32; R311; reset empty. -/
  gtlb : List (Nat × TlbEnt) := []
  /-- launch blocks in the scratchpad; R338; reset none. -/
  blocks : List Block := []
  /-- mesh buffers reserved: offset and hart; R357; reset none. -/
  meshes : List (Nat × Nat) := []
  /-- input tiles fetched or being fetched; R341; reset none. -/
  tiles : List RTile := []
  /-- tile-walk engine: transfers waiting, oldest first, the first being the one running; R392; reset none. -/
  kicks : List Kick := []
  /-- refused kicks whose mailboxes are still to be filled, oldest first; R403, R408; reset none. -/
  refusedKicks : List Kick := []
  /-- tile-walk engine fenced; R408; reset no. -/
  engFenced : Bool := false
  /-- FWCTL of a firmware-column tile; 64 bits; R372; reset EN = 1. -/
  fwctl : DWord := 0x8000000000000000
  /-- pre-emption in progress; R282; reset none. -/
  preempt : Option Preempt := none
  /-- the hart last issued, for the round robin; R8; reset 0. -/
  lastHart : Nat := 0
deriving DecidableEq, Repr

/-! ## Cluster units -/

/-- An event-unit object: configuration word, arrivals, generation, set word, holder and waiters (R169, R170). -/
structure EvObj where
  cfg : DWord := 0
  arrivals : Nat := 0
  gen : Nat := 0
  word : DWord := 0
  holder : Option Nat := none
  waiters : List Nat := []
  /-- a chained barrier has sent its arrival of this generation to its parent (`sent`), and its parent has released
  (`met`) (R170) -/
  met : Bool := false
  sent : Bool := false
deriving DecidableEq, Repr

/-- An outstanding translation miss of a cluster (R312). -/
structure Miss where
  tag : Nat
  ctx : Nat
  page : Nat
  harts : List Nat
  kind : Nat
  va : DWord
  /-- an entry it may have read has since been dropped by `tlbi`, so that its answer fills nothing (R277) -/
  stale : Bool := false
deriving DecidableEq, Repr

/-- The state of one cluster unit (R163, R169, R311). -/
structure Cluster where
  /-- belay table: waiting hart and key of each entry, 256 entries of which 64 reserved; R163, R352; reset empty. -/
  belay : List (Nat × Nat) := []
  /-- barriers 0 to 63; R169; reset unconfigured (R170). -/
  bars : SMap EvObj := []
  /-- mutexes 0 to 63; R169; reset unconfigured (R170). -/
  muts : SMap EvObj := []
  /-- events 0 to 255; R169; reset unconfigured (R170). -/
  evts : SMap EvObj := []
  /-- second-level TLB, 4,096 entries; R311; reset empty. -/
  ctlb : List TlbEnt := []
  /-- outstanding misses, up to 64; R312; reset none. -/
  misses : List Miss := []
  /-- FILLE; 64 bits; R313; reset 0 (DESIGN CHOICE, log 2). -/
  fille : DWord := 0
  /-- results of failed fills, to be taken by the waiting harts: hart, context, page, reason; R313; reset none. -/
  fails : List (Nat × Nat × Nat × Nat) := []
deriving DecidableEq, Repr

/-! ## Dies -/

/-- A cancel token held by a die (R349). -/
structure Token where
  id : Nat
  dev : Nat
  ctx : Nat
  ginst : Nat
  /-- dies that have still to receive it -/
  dies : List Nat
  /-- the outstanding operation of the issuing `cancel` -/
  op : Nat
deriving DecidableEq, Repr

/-- A triangle handed over to the classifier (R358). -/
structure Tri where
  draw : Nat
  ctx : Nat
  prim : Nat
  /-- from `rast`: X, Y, Z of three vertices; from `mend`: the 96 slots of three vertices -/
  words : List Nat
  mesh : Bool
  payload : DWord
deriving DecidableEq, Repr

/-- A 64-byte sector that a die's revision store holds (R323): its context, its task, what it is (0 a cairn, 1 a private copy,
2 the buffered stores of an idempotent task to it) and its virtual sector number. -/
structure Held where
  ctx : Nat
  uid : Nat
  kind : Nat
  sector : Nat
deriving DecidableEq, Repr

/-- Who stored to a sector last, and the address used: a hart, or with a key that names no hart the device on a context's
behalf (R327, R431). -/
structure Writer where
  hart : Nat
  /-- device * 65536 + CTXID -/
  ctx : Nat
  va : DWord
deriving DecidableEq, Repr

/-- A line that an L2 slice holds (R318, R320). -/
structure L2Line where
  /-- location over 512; for eight sectors that a revision store holds, a number from 2^56 on (R323) -/
  line : Nat
  /-- resident 64-byte sectors, bit j for sector j -/
  sectors : BitVec 8
  /-- dirty sectors, each with its last writer (R327) -/
  dirty : SMap Writer := []
  /-- the `ART` register that reserves the way it sits in; none for an unreserved way (R320) -/
  way : Option Nat := none
  /-- it is a retained line of that register (R320) -/
  kept : Bool := false
  /-- it is the next victim of its set (R318) -/
  marked : Bool := false
deriving DecidableEq, Repr

/-- What the home slice of a line knows of the copies that other devices hold (R396). -/
structure Sharers where
  /-- bit d: device d holds a copy -/
  devs : BitVec 8
  /-- the device that stored to its copy last, while it holds dirty sectors -/
  owner : Option Nat := none
deriving DecidableEq, Repr

/-- The state of one die: what its scheduler, timebase, retention registers, classifier and firmware hold (R29). -/
structure Die where
  /-- ART0 to ART7; 64 bits each; R319; reset 0. -/
  art : SMap DWord := []
  /-- ARTH; 64 bits; R359; reset 0. -/
  arth : DWord := 0
  /-- TB in nanoseconds; 64 bits; R397; reset 0. -/
  tb : DWord := 0
  /-- the part of a nanosecond counted, in thousandths of a core cycle at the die's clock; R397, R413; reset 0. -/
  phase : Nat := 0
  /-- nanoseconds counted since the last correction of TB, at most 10,000; R397; reset 0 (DESIGN CHOICE, log 2). -/
  slew : Nat := 0
  /-- core clock in MHz; R413; reset 1600. -/
  clk : Nat := 1600
  /-- round-robin pointers RR[p]; R345; reset 0 (DESIGN CHOICE, log 2). -/
  rr : SMap Nat := []
  /-- rotating core pointer; R345; reset 0 (DESIGN CHOICE, log 2). -/
  corePtr : Nat := 0
  /-- round-robin pointers of bin sets over their tiles, by queue; R348; reset 0 (DESIGN CHOICE, log 2). -/
  binrr : SMap Nat := []
  /-- FWLO; 64 bits; R372; reset 0. -/
  fwlo : DWord := 0
  /-- FWHI; 64 bits; R372; reset 0. -/
  fwhi : DWord := 0
  /-- classifier input, oldest first; R358; reset empty. -/
  cls : List Tri := []
  /-- cancel tokens recorded at this die's queues, at most 256: context, instance; R349; reset none. -/
  tokens : List (Nat × Nat × Nat) := []
  /-- firmware protocol range of the running image; R385; reset 0 (DESIGN CHOICE, log 2). -/
  fwMin : Nat := 0
  /-- firmware protocol range of the running image, upper end; R385; reset 0 (DESIGN CHOICE, log 2). -/
  fwMax : Nat := 0
  /-- version agreed with each die of the device; R385; reset none. -/
  agreed : SMap (Option Nat) := []
  /-- mailboxes: messages in their order of arrival, each with its sending die, at most 16 from one die; R385; reset empty. -/
  mail : List (Nat × Nat) := []
  /-- messages handled, the newest first; R385; reset none. -/
  handled : List (Nat × Nat) := []
  /-- senders waiting on a full mailbox, oldest first; R385; reset none. -/
  mailWait : List (Nat × Nat) := []
  /-- the firmware of the die serves queues and requests; R385, R386; reset no. -/
  fwUp : Bool := false
  /-- dies with which it has no common version and after which it started, so that it takes no queues; R385; reset none. -/
  noQueues : List Nat := []
  /-- sectors taken by the revision store, oldest first; R323; reset none. -/
  store : List Held := []
  /-- when the clock next steps up, in nanoseconds, the power or junction limit having cleared; R413; reset none. -/
  clearAt : Option Nat := none
  /-- reprojection unit fenced as an engine; R408; reset no. -/
  repFenced : Bool := false
deriving DecidableEq, Repr

/-! ## Devices, contexts, queues -/

/-- One table and image set of module flash, and its age order (R410). -/
structure FlashSet where
  table : List Byte
  image : List Byte
  age : Nat
deriving DecidableEq, Repr

/-- A block of the configuration table (R369). -/
structure DieCfg where
  /-- first firmware column; R369; reset 11 (R1; DESIGN CHOICE, log 3). -/
  fwx0 : Nat := 11
  /-- second firmware column, 0xFF for none; R369; reset 0xFF (DESIGN CHOICE, log 3). -/
  fwx1 : Nat := 255
  /-- caddy size in MiB; R322; reset 0. -/
  caddyMB : Nat := 0
  /-- caddy base; R322; reset 0. -/
  caddyB : Nat := 0
  /-- revision store capacity in MiB; R323; reset 8. -/
  revMB : Nat := 8
  /-- compression enabled; R326; reset no. -/
  cmp : Bool := false
  /-- role map; R370; reset 0x43322221, Wivor's default. -/
  roles : Nat := 0x43322221
  /-- firmware region base and size in MiB; R369; reset 0. -/
  fwr : DWord := 0
deriving DecidableEq, Repr

/-- The state of one device: ports, configuration, flash, the lifetime record and what it answers outside (R388). -/
structure Device where
  /-- RLSTAT of ports 0 to 6; 64 bits each; R390; reset 0. -/
  rlstat : SMap DWord := []
  /-- ETHSTAT of ports 0 to 15; 64 bits each; R390; reset 0. -/
  ethstat : SMap DWord := []
  /-- ports that have trained since reset, Ethernet port p as 7 + p, so that a further training is a retrain; R390; reset
  none. -/
  trained : List Nat := []
  /-- fabric aperture table, 64 entries: node, device, base; R399; reset none valid. -/
  aperture : SMap (Nat × Nat × Nat) := []
  /-- configuration of each die; R369; reset the values of log 3. -/
  cfg : SMap DieCfg := []
  /-- the configuration table in force, 512 bytes; R369, R410; reset none. -/
  table : List Byte := []
  /-- module flash: two table and image sets; R410; reset none. -/
  flash : List FlashSet := []
  /-- the image set that boot verified and loaded; R410, R412; reset none. -/
  image : List Byte := []
  /-- boot has completed and queue 0 accepts admin entries; R410; reset no. -/
  booted : Bool := false
  /-- neither set passed: only the PCI Express configuration space is presented; R410; reset no. -/
  dead : Bool := false
  /-- the module is shut down; R413; reset no. -/
  off : Bool := false
  /-- lifetime record counters by byte offset; R409; reset 0 (DESIGN CHOICE, log 2). -/
  life : SMap Nat := []
  /-- the record as last written to module flash; R409; reset 0 (DESIGN CHOICE, log 2). -/
  lifeFlash : SMap Nat := []
  /-- MSI-X vectors signalled to the host, newest first; R404; reset none. -/
  msix : List Nat := []
  /-- RoCE messages received by queue pair, newest first; R400; reset none. -/
  qp : SMap (List Nat) := []
  /-- answers to RDMA reads and network atomics, newest first; R400; reset none. -/
  netOut : List Nat := []
  /-- data answered to host reads, newest first; R401; reset none. -/
  hostOut : List Nat := []
  /-- stores and loads sent over the fabric: node, device, address, data; R399; reset none. -/
  fabricOut : List (Nat × Nat × Nat × Nat) := []
deriving DecidableEq, Repr

/-- A context (R324, R374). -/
structure Ctx where
  /-- the eight words of the context record; R374; none at reset. -/
  words : List DWord
  /-- fenced; R403; none at reset. -/
  fenced : Bool := false
  /-- fault-ring records appended since creation; R374; none at reset. -/
  ring : Nat := 0
  /-- spill queue bytes in use, sectors held, largest held, senders parked; R324; none at reset. -/
  qused : Nat := 0
  rused : Nat := 0
  rpeak : Nat := 0
  qfull : Nat := 0
deriving DecidableEq, Repr

/-- An entry of a task queue (R332). -/
structure QEntry where
  seq : Nat
  /-- arrival number that cancel tokens compare: a task that re-enters keeps its first (R343, R349) -/
  num : Nat := 0
  /-- 0 task entry, 1 launch entry, 2 null entry -/
  kind : Nat
  words : List DWord
  depth : Nat := 0
  launch : Nat
  ginst : Nat
  /-- first unstarted instance of a launch entry, and their number -/
  inst : Nat := 0
  icount : Nat := 1
  /-- instance count its tasks are told in `s9` (R22) -/
  total : Nat := 1
  uid : Nat := 0
  /-- instance index of the spawner, for primitive identifiers (R358) -/
  pinst : Nat := 0
  parent : Option (Nat × Nat) := none
  /-- regions of a fork's revision -/
  regions : List Region := []
  /-- cores and hart it is staged on, leader first -/
  staged : Option (List Nat × Nat) := none
  /-- set aside with a fault address (R343) -/
  aside : Option DWord := none
  /-- screen tile of a bin entry (R348) -/
  tile : Nat := 0
  /-- its input-tile descriptors, once the scheduler has considered it (R341) -/
  tiles : Option (List (List DWord)) := none
  /-- timebase when it entered its queue (R409) -/
  arrived : Nat := 0
  /-- re-entered after an abort: keeps its start place at the head (R343) -/
  again : Bool := false
  ctx : Nat := 0
deriving DecidableEq, Repr

/-- A producer waiting on a full queue (R334). -/
inductive Stalled where
  /-- A hart in `tspawn`, `fork` or `rspawn`. -/
  | hart (hk : Nat)
  /-- The commit of a task with held spawns, by task number (R220). -/
  | commit (uid : Nat)
  /-- A walk with a launch entry. -/
  | walk (w : Nat) (ent : QEntry)
  /-- A bin entry of a seal (R363). -/
  | held (ent : QEntry)
  /-- A die's reprojection unit, with the copy it has to queue (R366). -/
  | unit (dk : Nat)
deriving DecidableEq, Repr

/-- A queue and its descriptor (R331). -/
structure Queue where
  /-- CTL; 64 bits; R331; none at reset. -/
  ctl : DWord
  /-- CLUS; 32 bits; R331; none at reset. -/
  clus : Nat
  /-- LEAD; 32 bits; R331; none at reset. -/
  lead : Nat
  /-- COUNT, PEAK, POPS, DROPS, FAULTS, FADDR, BINW; R331; none at reset. -/
  count : Nat := 0
  peak : Nat := 0
  pops : Nat := 0
  drops : Nat := 0
  faults : Nat := 0
  faddr : DWord := 0
  binw : DWord := 0
  /-- fenced; R407; none at reset. -/
  fenced : Bool := false
  /-- sequence number of the newest entry; R349; none at reset. -/
  seq : Nat := 0
  /-- entries in queue order; R332, R333; none at reset. -/
  entries : List QEntry := []
  /-- producers waiting, oldest first; R334; none at reset. -/
  stalled : List Stalled := []
  /-- cancel tokens recorded: context, instance, newest sequence S; R349; none at reset. -/
  tokens : List (Nat × Nat × Nat) := []
  /-- cancel tokens recorded at a bin set's sub-queues, with the die number that serves them: die, context, instance, newest
  sequence S; R348, R349; none at reset. -/
  binTokens : List (Nat × Nat × Nat × Nat) := []
deriving DecidableEq, Repr

/-- A launch (R335, R336, R354). -/
structure Launch where
  dev : Nat
  ctx : Nat
  ginst : Nat
  vchunks : Nat
  spad : Nat
  harts : Nat
  mesh : Bool
  rope : Nat := 0
  stats : DWord := 0
  /-- draw its mesh tasks hand over to: key and number of the opening (R353, R356) -/
  draw : Option (Nat × Nat) := none
  /-- tasks queued, running or to be started -/
  live : Nat := 0
  /-- walk and node number that released it -/
  walk : Option (Nat × Nat) := none
deriving DecidableEq, Repr

/-- A ticket domain (R350, R351). -/
structure Domain where
  v : Bool := false
  ctx : Nat := 0
  next : Nat := 0
  low : Nat := 0
  /-- tickets above LOW already retired -/
  retired : List Nat := []
  /-- sections closed by unretired tickets: ticket and key (R233) -/
  closedSec : List (Nat × Nat) := []
deriving DecidableEq, Repr

/-- The end of a task whose commit has not performed (R221, R231, R351). -/
structure Commit where
  dev : Nat
  ctx : Nat
  task : Task
  /-- completion word value, written to DONE when CPL = 1 -/
  word : DWord
  idem : Bool
  /-- released by the domain sequencer, or not waiting -/
  released : Bool
  die : Nat
  /-- the hart that ran the task -/
  hart : Nat
  /-- what has still to be applied, once the commit has begun (R299) -/
  rest : Option (List Buffered) := none
  /-- counters of the drop, cancel or end: 0 tend, 1 tabort, 2 cancelled -/
  status : Nat
deriving DecidableEq, Repr

/-- A bin entry staged for the seal (R361, R363). -/
structure BinEnt where
  /-- die whose staging holds it (R361) -/
  die : Nat
  tile : Nat
  key : Nat
  large : Bool
  args : List DWord
deriving DecidableEq, Repr

/-- A draw (R353). -/
structure Draw where
  /-- number of the opening, the model's own: a handle that is closed and opened again names another draw (R356) -/
  num : Nat := 0
  ctx : Nat
  ginst : Nat
  /-- the sixteen words of the descriptor -/
  desc : List DWord
  /-- the templates SMALL and LARGE as they stood when the draw was opened -/
  small : List DWord := []
  large : List DWord := []
  isOpen : Bool := true
  sealed : Bool := false
  /-- next slot of PBUF -/
  pnext : Nat := 0
  bins : List BinEnt := []
  blaunch : Option Nat := none
  /-- admin request sealing it, waiting for the classifier -/
  sealing : Option Nat := none
deriving DecidableEq, Repr

/-- A submission queue (R376, R377, R383). -/
structure Sq where
  desc : List DWord
  ctx : Nat
  doorVa : DWord := 0
  head : Nat := 0
  tail : Nat := 0
  fenced : Bool := false
  /-- the walk of the entry last started, while it has not completed (R378) -/
  last : Option Nat := none
deriving DecidableEq, Repr

/-- One open buffer of a walk (R380, R382). -/
structure Frame where
  buf : DWord
  node : Nat := 0
  /-- LOOP counts by node index -/
  counts : SMap Nat := []
deriving DecidableEq, Repr

/-- The walk of one submission entry (R378, R380). -/
structure Walk where
  sq : Nat
  ctx : Nat
  dev : Nat
  die : Nat
  ginst : Nat
  done : DWord
  frames : List Frame
  /-- the node reached, once it has been read and found sound (R383) -/
  cur : Option (List DWord) := none
  passed : Nat := 0
  limit : Bool := false
  start : Nat := 0
  /-- nodes started and not completed: launches and copies by number -/
  outstanding : List Nat := []
  nextId : Nat := 0
  /-- waiting for a full queue to accept its launch entry (R381) -/
  blocked : Bool := false
  /-- the node reached is a WAIT or TIMED that has started (R380, R384) -/
  begun : Bool := false
  cancelled : Bool := false
  ended : Bool := false
deriving DecidableEq, Repr

/-- An admin request read from a submission queue (R375, R432). -/
structure Admin where
  sq : Nat
  dev : Nat
  die : Nat
  /-- context of the queue and context the request acts for -/
  qctx : Nat
  ctx : Nat
  op : Nat
  after : DWord
  done : DWord
  args : List DWord
  /-- address of the entry -/
  entry : Nat := 0
  /-- A word or field the table marks 0 is not 0, or a context breach -/
  bad : Bool := false
  /-- position in a request of several steps: the step (R328, R356), or the die and its step (R386) -/
  stage : Nat := 0
  /-- what a request of several steps keeps: old and new physical page of a migration (R328), or the protocol range of the
  image that an update replaces (R386) -/
  old : Nat := 0
  new : Nat := 0
deriving DecidableEq, Repr

/-- Where a die's reprojection unit stands in a job: the tiles still to go through, and a copy that waits for room in its
queue (R366). -/
structure RepUnit where
  /-- its die -/
  die : Nat := 0
  tiles : List (Nat × Nat) := []
  copy : Option (List DWord) := none
deriving DecidableEq, Repr

/-- A reprojection job (R365, R366). -/
structure RepJob where
  ctx : Nat
  launch : Nat
  addr : DWord
  /-- pixels reused and tasks queued so far, once the units have started -/
  ran : Option (Nat × Nat) := none
  /-- the units that a full queue stalls, and those behind them -/
  units : List RepUnit := []
deriving DecidableEq, Repr

/-! ## Memory operations -/

/-- What an outstanding load still has to write when its data returns (R147, R150). -/
inductive Ret where
  /-- A scalar destination specifier and its value. -/
  | scalar (spec : Nat) (v : DWord) (push : Bool)
  /-- A vector group: base specifier, group size, value, push. -/
  | vector (spec : Nat) (g : Nat) (v : Nat) (push : Bool)
deriving DecidableEq, Repr

/-- One piece of an access to another node, to be executed there through the fabric port (R399): physical address, bytes,
whether it writes, data, the virtual address of its element, and for an atomic its operation and compare operand. -/
structure FabReq where
  addr : Nat
  n : Nat
  wr : Bool := false
  data : Nat := 0
  va : DWord := 0
  atom : Option (Nat × Nat) := none
  /-- it is a fill, which sends its wakes when it has performed (R165) -/
  fill : Bool := false
deriving DecidableEq, Repr

/-- A store to a class-2 register on its way (R389): register address, value, and the context, mode and launch
of the storing hart. -/
structure RegStore where
  loc : Nat
  va : DWord
  val : DWord
  ctx : Nat
  mode : Nat
  launch : Nat := 0
deriving DecidableEq, Repr

/-- An issued memory operation that has not performed (R149). -/
structure Op where
  hart : Nat
  /-- context whose access it is, with its device: device * 65536 + CTXID (R278, R403) -/
  ctx : Nat := 0
  /-- 0 neither, 1 LCNT, 2 SCNT -/
  counter : Nat
  scope : Nat
  /-- destination write that waits for the data -/
  ret : List Ret := []
  /-- destination that the instruction itself has written: that of `xquant` and `xdequant` (R147, R211, R212) -/
  dest : List RegName := []
  /-- refusals found at the target, in element order (R147) -/
  refused : List Async := []
  /-- class-3 pieces to be executed by the fabric port (R399) -/
  fabric : List FabReq := []
  /-- store to a class-2 register (R389) -/
  reg : Option RegStore := none
  /-- lines whose request met a forwarding state and awaits its re-home reply (R329) -/
  rehome : List Nat := []
  /-- the task whose commit or closing section sent it, 0 for a hart's own operation (R221, R233) -/
  task : Nat := 0
  /-- operations that have to perform before it: those that may have used an entry that a `tlbi` dropped (R278) -/
  after : List Nat := []
deriving DecidableEq, Repr

/-- A task's revision: its regions, cairns and copies by virtual sector, 512 bits each (R226). -/
structure Rev where
  ctx : Nat
  parent : Nat
  /-- die whose revision store holds it (R323) -/
  die : Nat
  regions : List Region
  cairns : SMap Nat := []
  copies : SMap Nat := []
deriving DecidableEq, Repr

/-- A message on its way to a receive queue (R237). -/
structure Flight where
  src : Nat
  dst : Nat
  q : Nat
  msg : Msg
deriving DecidableEq, Repr

/-! ## The state -/

/-- The whole state of the node. -/
structure State where
  /-- node number of CORE.NODE; 14 bits; R39; reset 0 (DESIGN CHOICE, log 3). -/
  node : Nat := 0
  /-- the hart whose slot runs; the model's own; reset 0. -/
  cur : Nat := 0
  /-- harts by hart key; R6; reset every hart as Hart's fields say. -/
  harts : SMap Hart := []
  /-- cores by core key; R29; reset every core as Core's fields say. -/
  cores : SMap Core := []
  /-- cluster units by cluster key; R163; reset every cluster as Cluster's fields say. -/
  clusters : SMap Cluster := []
  /-- dies by die key; R29; reset every die as Die's fields say. -/
  dies : SMap Die := []
  /-- devices by number; R388; reset every device as Device's fields say. -/
  devs : SMap Device := []
  /-- the timebase step distributed by the master: when and to what; R397; reset none. -/
  tbStep : Option (Nat × Nat) := none
  /-- contexts by device * 65536 + CTXID; R374; reset none. -/
  ctxs : SMap Ctx := []
  /-- queues by device * 4096 + number; R331; reset none. -/
  queues : SMap Queue := []
  /-- launches by number; R336; reset none. -/
  launches : SMap Launch := []
  /-- ticket domains by device * 65536 + number; R350; reset none open. -/
  domains : SMap Domain := []
  /-- commits not yet performed, by task number; R351; reset none. -/
  commits : SMap Commit := []
  /-- draws by device * 65536 + handle; R353; reset none open. -/
  draws : SMap Draw := []
  /-- draws closed, by device * 2^32 + number of their opening, for the counts of tasks and held records that still name them; R261, R262,
  R356; reset none. -/
  closedDraws : SMap Draw := []
  /-- submission queues by device * 4096 + number; R376; reset none. -/
  sqs : SMap Sq := []
  /-- walks of submission entries; R380; reset none. -/
  walks : SMap Walk := []
  /-- admin requests; R375; reset none. -/
  admins : SMap Admin := []
  /-- reprojection jobs by device, oldest first; R365; reset none. -/
  jobs : SMap (List RepJob) := []
  /-- cancel tokens on their way; R349; reset none. -/
  tokens : SMap Token := []
  /-- memory operations outstanding, by number; R149; reset none. -/
  ops : SMap Op := []
  /-- revisions by task number of the child; R226; reset none. -/
  revs : SMap Rev := []
  /-- messages on their way, by number; R237; reset none. -/
  flights : SMap Flight := []
  /-- poisoned 64-byte sectors and granules, by sector number, rising; R407; reset none. -/
  poison : SMap Bool := []
  /-- lines in the forwarding state: old line number to new line number; R328; reset none. -/
  forward : SMap Nat := []
  /-- lines held in the L2 slices, the most recently used first, by set: (die * 96 + slice) * 128 + set; R318; reset none
  (DESIGN CHOICE, log 2). -/
  l2 : SMap (List L2Line) := []
  /-- sharers and owner that home slices keep for copies on other devices, by line; R396; reset none. -/
  sharers : SMap Sharers := []
  /-- bank skew with which each aligned 4 MiB physical group has been mapped; R315; reset 0 (DESIGN CHOICE, log 2). -/
  skews : SMap Nat := []
  /-- memory: bytes of the 48-bit physical space and, from 2^48, of every scratchpad by mesh-absolute offset; R302,
  R307; reset none listed, every byte reads 0 (DESIGN CHOICE, log 1). -/
  mem : List Host.Cell := []
  /-- steps still to be taken from outside and inside, oldest first; the model's own (log 5); reset none. -/
  inputs : List Instr := []
  /-- steps that earlier steps have made due, oldest first; the model's own (log 5); reset none. -/
  pending : List Instr := []
  /-- count of steps taken with no input, which picks the next unit; the model's own (log 5); reset 0. -/
  turn : Nat := 0
  /-- next number for a task, launch, operation, walk, request or message; the model's own; reset 1. -/
  nextId : Nat := 1
deriving DecidableEq, Repr

/-- The machine right after reset: every hart idle, every table empty, no byte of memory listed (R9, R26, R28). -/
def State.reset : State := {}

end Sys2Proof.Machine
end

