-- ==== Sys2Proof/Machine/Units.lean ====
section
/-! DEFINITION. The units of the node: their positions and numbers (R9, R18, R39, R302) and the lookup and update of
each unit's state. -/
namespace Sys2Proof.Machine

open Sys2Proof

/-! ## Positions -/

/-- First key of the engine harts: the tile-walk engine of core ck has the hart key 2^16 + ck (R8, R298). -/
def engineBase : Nat := 65536
/-- The hart is an engine hart (R8). -/
def isEngine (hk : Nat) : Bool := decide (engineBase ≤ hk)
/-- The core of a hart; an engine hart belongs to the core of its tile (R286). -/
def coreOf (hk : Nat) : Nat := if hk < engineBase then hk / 8 else hk - engineBase
/-- The hart's number within its core. -/
def hartNo (hk : Nat) : Nat := hk % 8
/-- The die of a core. -/
def dieOf (ck : Nat) : Nat := ck / 128
/-- The unit of a core within its die: y * 12 + x for a tile, 96 + cluster for a translation service core (R9). -/
def unitOf (ck : Nat) : Nat := ck % 128
/-- The device of a die. -/
def devOf (dk : Nat) : Nat := dk / 8
/-- The die's number within its device. -/
def dieNo (dk : Nat) : Nat := dk % 8
/-- The device of a hart, or of a device's own agent. -/
def devOfHart (hk : Nat) : Nat := devOf (dieOf (coreOf hk)) % 8
/-- The key of an agent of no device: it names no hart. -/
def noHart : Nat := engineBase + 8192
/-- The key under which a device acts for no hart of its own. -/
def devAgent (dev : Nat) : Nat := noHart + 1024 * dev
/-- Column of a tile (R39). -/
def tileX (u : Nat) : Nat := u % 12
/-- Row of a tile (R39). -/
def tileY (u : Nat) : Nat := u / 12
/-- The unit is one of the 96 tiles of its die. -/
def isTile (u : Nat) : Bool := decide (u < 96)
/-- The unit is a translation service core (R9). -/
def isTsc (u : Nat) : Bool := decide (96 ≤ u ∧ u < 108)
/-- CLUS of a unit: (x div 2) + 6 * (y div 4) for a tile (R39). -/
def clusNo (u : Nat) : Nat := if isTile u then tileX u / 2 + 6 * (tileY u / 4) else u - 96
/-- The cluster key of a core. -/
def clusKey (ck : Nat) : Nat := dieOf ck * 16 + clusNo (unitOf ck)
/-- The core of a position. -/
def mkCore (dev die u : Nat) : Nat := (dev * 8 + die) * 128 + u
/-- The translation service core of a cluster (R9). -/
def tscOf (clk : Nat) : Nat := clk / 16 * 128 + 96 + clk % 16
/-- CORENUM (R39). -/
def coreNum (ck : Nat) : Nat :=
  let d := dieNo (dieOf ck)
  if isTile (unitOf ck) then d * 96 + unitOf ck else 768 + 12 * d + (unitOf ck - 96)
/-- The core a CORENUM names on a device (R39). -/
def coreOfNum (dev n : Nat) : Nat :=
  if n < 768 then mkCore dev (n / 96) (n % 96) else mkCore dev ((n - 768) / 12) (96 + (n - 768) % 12)
/-- The hart key names a hart of the node: eight of each tile, two of each translation service core, and the engine hart of
each tile (R1, R8, R9). -/
def validHart (hk : Nat) : Bool :=
  if isEngine hk then decide (coreOf hk < 8192) && isTile (unitOf (coreOf hk))
  else isTile (unitOf (coreOf hk)) || (isTsc (unitOf (coreOf hk)) && decide (hartNo hk < 2))
/-- All tiles of a die, as core keys. -/
def tilesOfDie (dk : Nat) : List Nat := (List.range 96).map (fun u => dk * 128 + u)
/-- All dies of a device. -/
def diesOfDev (dev : Nat) : List Nat := (List.range 8).map (fun d => dev * 8 + d)

/-! ## State of each unit -/

/-- The state of a device. -/
def getDev (s : State) (d : Nat) : Device := SMap.get {} s.devs d
/-- The module is without power, or presents its configuration space only (R410, R413). -/
def Device.down (d : Device) : Bool := d.off || d.dead
/-- The state with a device replaced. -/
def setDev (s : State) (d : Nat) (v : Device) : State := { s with devs := SMap.put s.devs d v }
/-- The configuration of a die (R369). -/
def dieCfg (s : State) (dk : Nat) : DieCfg := SMap.get {} (getDev s (devOf dk)).cfg (dieNo dk)
/-- The core stands in a firmware column (R369, R371). -/
def isFwCol (s : State) (ck : Nat) : Bool :=
  isTile (unitOf ck) &&
    (tileX (unitOf ck) == (dieCfg s (dieOf ck)).fwx0 || tileX (unitOf ck) == (dieCfg s (dieOf ck)).fwx1)
/-- The core's harts hold firmware mode: a firmware-column core or a translation service core (R9, R26). -/
def isFwCore (s : State) (ck : Nat) : Bool := isTsc (unitOf ck) || isFwCol s ck
/-- A compute core: a tile outside the firmware columns (R26). -/
def isCompute (s : State) (ck : Nat) : Bool := isTile (unitOf ck) && !isFwCol s ck
/-- The firewall is on at a firmware core: EN = 1 in its FWCTL, and at a translation service core, which holds none, EN = 1
in a firmware-column tile of its die (R9, R372, R373; log 77). -/
def firewallOn (s : State) (ck : Nat) : Bool :=
  if isTsc (unitOf ck) then (List.range 96).any (fun u =>
    isFwCol s (dieOf ck * 128 + u) && bit (SMap.get {} s.cores (dieOf ck * 128 + u)).fwctl 63)
  else bit (SMap.get {} s.cores ck).fwctl 63
/-- A hart as reset leaves it: MODE 3 on firmware-column and translation service cores (R26, R30). -/
def Hart.atReset (fw : Bool) : Hart := if fw then { hstat := 3 } else {}
/-- The state of a hart. -/
def getHart (s : State) (hk : Nat) : Hart :=
  SMap.get (Hart.atReset (isFwCore s (coreOf hk) && !isEngine hk)) s.harts hk
/-- The state with a hart replaced. -/
def setHart (s : State) (hk : Nat) (h : Hart) : State := { s with harts := SMap.put s.harts hk h }
/-- The state with a hart changed. -/
def modHart (s : State) (hk : Nat) (f : Hart → Hart) : State := setHart s hk (f (getHart s hk))
/-- The state of a core. -/
def getCore (s : State) (ck : Nat) : Core := SMap.get {} s.cores ck
/-- The state with a core replaced. -/
def setCore (s : State) (ck : Nat) (c : Core) : State := { s with cores := SMap.put s.cores ck c }
/-- The state with a core changed. -/
def modCore (s : State) (ck : Nat) (f : Core → Core) : State := setCore s ck (f (getCore s ck))
/-- The state of a cluster unit. -/
def getClus (s : State) (k : Nat) : Cluster := SMap.get {} s.clusters k
/-- The state with a cluster unit replaced. -/
def setClus (s : State) (k : Nat) (c : Cluster) : State := { s with clusters := SMap.put s.clusters k c }
/-- The state with a cluster unit changed. -/
def modClus (s : State) (k : Nat) (f : Cluster → Cluster) : State := setClus s k (f (getClus s k))
/-- The state of a die. -/
def getDie (s : State) (k : Nat) : Die := SMap.get {} s.dies k
/-- The state with a die replaced. -/
def setDie (s : State) (k : Nat) (d : Die) : State := { s with dies := SMap.put s.dies k d }
/-- The state with a die changed. -/
def modDie (s : State) (k : Nat) (f : Die → Die) : State := setDie s k (f (getDie s k))
/-- The state with a device changed. -/
def modDev (s : State) (k : Nat) (f : Device → Device) : State := setDev s k (f (getDev s k))
/-- The timebase of a hart's die (R397). -/
def tbOf (s : State) (hk : Nat) : DWord := (getDie s (dieOf (coreOf hk))).tb
/-- A step made due, to be taken when the inputs are empty. -/
def post (s : State) (i : Instr) : State := { s with pending := s.pending ++ [i] }
/-- A step is made due unless it already is. -/
def postOnce (s : State) (i : Instr) : State := if s.pending.contains i then s else post s i
/-- A fresh number. -/
def fresh (s : State) : Nat × State := (s.nextId, { s with nextId := s.nextId + 1 })

/-! ## Fields of HSTAT, VCFG and WBASE (R30, R36, R37) -/

/-- HSTAT.MODE: 0 user, 1 supervisor, 3 firmware (R26). -/
def Hart.mode (h : Hart) : Nat := bits h.hstat 1 0
/-- HSTAT.IE (R30). -/
def Hart.ie (h : Hart) : Bool := bit h.hstat 4
/-- HSTAT.PIE (R30). -/
def Hart.pie (h : Hart) : Bool := bit h.hstat 5
/-- HSTAT.PMODE (R30). -/
def Hart.pmode (h : Hart) : Nat := bits h.hstat 7 6
/-- HSTAT.PXP (R30). -/
def Hart.pxp (h : Hart) : Bool := bit h.hstat 8
/-- HSTAT.PXF (R30). -/
def Hart.pxf (h : Hart) : Nat := bits h.hstat 63 32
/-- HSTAT.IDEM (R30). -/
def Hart.idem (h : Hart) : Bool := bit h.hstat 9
/-- HSTAT.ORD (R30). -/
def Hart.ord (h : Hart) : Bool := bit h.hstat 10
/-- The element width code VCFG.SEW (R36). -/
def Hart.sewCode (h : Hart) : Nat := bits h.vcfg 2 0
/-- SEW in bits: 4, 8, 16, 32, 64 for codes 0 to 4 (R36). -/
def Hart.sew (h : Hart) : Nat := 4 * 2 ^ h.sewCode
/-- Group size 1, 2, 4, 8 (R36). -/
def Hart.grp (h : Hart) : Nat := 2 ^ bits h.vcfg 5 4
/-- R of R12: 8 * VCFG.ROT. -/
def Hart.rotR (h : Hart) : Nat := 8 * bits h.vcfg 11 8
/-- VCFG.SMR (R36). -/
def Hart.smr (h : Hart) : Nat := bits h.vcfg 14 12
/-- VCFG.TAILZ (R36). -/
def Hart.tailz (h : Hart) : Bool := bit h.vcfg 16
/-- VCFG.MASKZ (R36). -/
def Hart.maskz (h : Hart) : Bool := bit h.vcfg 17
/-- WBASE.S (R37). -/
def Hart.wbS (h : Hart) : Nat := bits h.wbase 7 0
/-- WBASE.V (R37). -/
def Hart.wbV (h : Hart) : Nat := bits h.wbase 24 16
/-- WBASE.ROF (R37). -/
def Hart.rof (h : Hart) : Nat := bits h.wbase 37 32
/-- VALLOC: 32 registers for each pool chunk of the allocation (R11). -/
def Hart.valloc (h : Hart) : Nat := 32 * h.chunks.length
/-- VLMAX = 1,024 * G / SEW (R20). -/
def Hart.vlmax (h : Hart) : Nat := 1024 * h.grp / h.sew

/-- HARTID (R39). -/
def hartId (hk : Nat) : DWord := BitVec.ofNat 64 (coreNum (coreOf hk) * 8 + hartNo hk)
/-- CORE (R39). -/
def coreWord (s : State) (ck : Nat) : DWord :=
  let u := unitOf ck
  let xy := if isTile u then tileX u * 8 + tileY u else 15 * 8
  BitVec.ofNat 64 (s.node * 2 ^ 18 + b2n (isFwCore s ck) * 2 ^ 17 + clusNo u * 2 ^ 13
    + devOf (dieOf ck) * 2 ^ 10 + dieNo (dieOf ck) * 2 ^ 7 + xy)

/-! ## Ropes (R18, R40) -/

/-- Members of a rope: 1, 2, 4 or 8 for RSTAT.SIZE 0 to 3. -/
def ropeSize (code : Nat) : Nat := 2 ^ code
/-- Width of the rectangle of a size code (R18). -/
def ropeWidth (code : Nat) : Nat := if code ≤ 1 then 1 else 2
/-- RSTAT.ACT (R40). -/
def Hart.inRope (h : Hart) : Bool := bit h.rstat 0
/-- RSTAT.SIZE (R40). -/
def Hart.ropeCode (h : Hart) : Nat := bits h.rstat 2 1
/-- RSTAT.MEMBER (R40). -/
def Hart.ropeMember (h : Hart) : Nat := bits h.rstat 5 3
/-- The origin (column and row within the cluster) of the rope a core would join with a size code; a lone core is its own
(R235). -/
def ropeOrigin (u code : Nat) : Nat × Nat :=
  if code = 0 then (tileX u % 2, tileY u % 4)
  else if code = 1 then (tileX u % 2, 2 * ((tileY u % 4) / 2))
  else if code = 2 then (0, 2 * ((tileY u % 4) / 2)) else (0, 0)
/-- The member harts, in member order, of the rope that a hart's core, size code and origin give (R18). -/
def ropeHarts (hk code : Nat) (org : Nat × Nat) : List Nat :=
  let ck := coreOf hk
  let u := unitOf ck
  let x0 := tileX u / 2 * 2 + org.1
  let y0 := tileY u / 4 * 4 + org.2
  let w := ropeWidth code
  (List.range (ropeSize code)).map (fun k =>
    ((dieOf ck * 128) + (y0 + k / w) * 12 + (x0 + k % w)) * 8 + hartNo hk)
/-- The state in which a parked hart goes on: a follower in a rope that it does not lead, else running (R7). -/
def Hart.awake (h : Hart) : HartState := if h.inRope && decide (h.ropeMember ≠ 0) then .follower else .running
/-- A parked hart goes on (R7). -/
def Hart.wake (h : Hart) : Hart := { h with st := if h.st = .parked then h.awake else h.st }
/-- The members of the rope a hart is in, leader first; only itself outside a rope. -/
def ropeOf (s : State) (hk : Nat) : List Nat :=
  let h := getHart s hk
  if h.inRope then ropeHarts hk h.ropeCode (bits h.rstat 8 8, bits h.rstat 7 6) else [hk]
/-- The leader of the rope a hart is in (R18). -/
def ropeLeader (s : State) (hk : Nat) : Nat := (ropeOf s hk).headD hk

end Sys2Proof.Machine
end

