-- ==== Sys2Proof/Machine/Operands.lean ====
section
/-! DEFINITION. The operand forms of slots (R10 to R17, R69 to R75): scalar, vector, mask and tile specifiers, the
last-result file, immediates and the memory attribute word. -/
namespace Sys2Proof.Machine

open Sys2Proof

/-- What a register-only slot reads and writes: its hart and its core's vector pool. -/
structure Local where
  h : Hart
  pool : SMap VReg
deriving DecidableEq, Repr

/-- The local state of a hart. -/
def getLocal (s : State) (hk : Nat) : Local := ⟨getHart s hk, (getCore s (coreOf hk)).pool⟩
/-- The state with a hart's local state replaced. -/
def setLocal (s : State) (hk : Nat) (x : Local) : State :=
  setHart (modCore s (coreOf hk) (fun c => { c with pool := x.pool })) hk x.h

/-! ## Scalar operands (R10, R14, R70) -/

/-- A physical scalar register (R6). -/
def Hart.phys (h : Hart) (i : Nat) : DWord := SMap.get 0 h.sregs i

/-- The scalar register a name 0 to 95 refers to (R10). -/
def Hart.sIndex (h : Hart) (n : Nat) : Nat := h.wbS + n

/-- Entry i of a last-result file (R15). -/
def QFile.at (q : QFile) (i : Nat) : VReg :=
  if i = 0 then q.q0 else if i = 1 then q.q1 else if i = 2 then q.q2 else q.q3

/-- The value of a scalar operand (R70); none for a specifier reserved for scalar operands. -/
def readS (h : Hart) (sp : BitVec 7) : Option DWord :=
  let n := sp.toNat
  if n < 96 then some (h.phys (h.sIndex n))
  else if n < 112 then some ((SMap.get 0 h.oregs (n - 96)).setWidth 64)
  else if n < 116 then some ((h.q.at (n - 112)).setWidth 64)
  else if n = 116 then some h.pc
  else if n = 117 then some (h.vl.setWidth 64)
  else if n = 127 then some 0
  else none

/-- A specifier that a scalar destination may name: `s0` to `s95`, `o0` to `o15`, `zero` (R70). -/
def sDest (sp : BitVec 7) : Bool := decide (sp.toNat < 112 ∨ sp.toNat = 127)

/-- The hart after a write to a scalar destination (R10, R14): `zero` discards it, and a destination that R70 does not
allow is left as it is. -/
def writeS (h : Hart) (sp : BitVec 7) (v : DWord) : Hart :=
  let n := sp.toNat
  if n < 96 then { h with sregs := SMap.set 0 h.sregs (h.sIndex n) v }
  else if n < 112 then { h with oregs := SMap.set 0 h.oregs (n - 96) (v.setWidth 1024) }
  else h

/-! ## The last-result file (R15, R16) -/

/-- A result enters q0 and the others move down. -/
def QFile.shift (q : QFile) (v : VReg) : QFile := { q with q0 := v, q1 := q.q0, q2 := q.q1, q3 := q.q2 }

/-- The convoy in progress has CHAIN = 0, so its pushes wait for its retirement (R16). -/
def Hart.holdsPushes (h : Hart) : Bool := match h.conv with | some c => !hdrChain c.hdr | none => false

/-- A slot's result is pushed (R15, R16). -/
def push (h : Hart) (v : VReg) : Hart :=
  if h.holdsPushes then { h with q := { h.q with pend := h.q.pend ++ [v] } } else { h with q := h.q.shift v }

/-- A scalar result is pushed, zero-extended to 1,024 bits (R15). -/
def pushS (h : Hart) (v : DWord) : Hart := push h (v.setWidth 1024)

/-- The pending entries enter the file in slot order (R16). -/
def QFile.retire (q : QFile) : QFile := { (q.pend.foldl QFile.shift q) with pend := [] }

/-! ## Vector operands (R11 to R14, R70) -/

/-- The register of the allocation that a vector name refers to (R11, R12). -/
def Hart.vIndex (h : Hart) (n : Nat) : Nat :=
  let r := h.rotR
  if 96 ≤ n + r then h.wbV + (96 - r) + ((n - (96 - r)) + h.rof) % (if r = 0 then 1 else r) else h.wbV + n

/-- The pool register that a register of the allocation is (R11); none beyond the allocation. -/
def Hart.vPhys (h : Hart) (i : Nat) : Option Nat := (h.chunks[i / 32]?).map (fun c => c * 32 + i % 32)

/-- A register of the vector window. -/
def readV1 (x : Local) (n : Nat) : Option VReg := (x.h.vPhys (x.h.vIndex n)).map (SMap.get 0 x.pool)

/-- A register of the vector window is written. -/
def writeV1 (x : Local) (n : Nat) (v : VReg) : Option Local :=
  (x.h.vPhys (x.h.vIndex n)).map (fun p => { x with pool := SMap.set 0 x.pool p v })

/-- A run of registers from a name upwards, the first in the least significant bits (R5). -/
def readRun (x : Local) (n : Nat) : Nat → Option Nat
  | 0 => some 0
  | g + 1 => do
    let lo ← readV1 x n
    let hi ← readRun x (n + 1) g
    some (lo.toNat + hi * 2 ^ 1024)

/-- A run of registers is written from the least significant bits upwards. -/
def writeRun (x : Local) (n : Nat) : Nat → Nat → Option Local
  | 0, _ => some x
  | g + 1, v => do
    let y ← writeV1 x n (BitVec.ofNat 1024 v)
    writeRun y (n + 1) g (v >>> 1024)

/-- The value of a vector operand as a group of g registers (R13 to R15, R70): none when the specifier is reserved, the
base is not aligned, or an operand-file or last-result entry is read as a group of more than one. -/
def readV (x : Local) (sp : BitVec 7) (g : Nat) : Option Nat :=
  let n := sp.toNat
  if n < 96 then (if n % g = 0 then readRun x n g else none)
  else if n < 112 then (if g = 1 then some (SMap.get 0 x.h.oregs (n - 96)).toNat else none)
  else if n < 116 then (if g = 1 then some (x.h.q.at (n - 112)).toNat else none)
  else if n = 127 then some 0
  else none

/-- The local state after a group is written: none when the specifier is no vector destination of that size. -/
def writeV (x : Local) (sp : BitVec 7) (g v : Nat) : Option Local :=
  let n := sp.toNat
  if n < 96 then (if n % g = 0 then writeRun x n g v else none)
  else if n < 112 then
    (if g = 1 then some { x with h := { x.h with oregs := SMap.set 0 x.h.oregs (n - 96) (BitVec.ofNat 1024 v) } }
     else none)
  else if n = 127 then some x
  else none

/-- A destination of one register is pushed whole; a group of more pushes nothing (R15). -/
def pushV (x : Local) (g v : Nat) : Local := if g = 1 then { x with h := push x.h (BitVec.ofNat 1024 v) } else x

/-- The names of a group or run, for the overlap checks: the window names, or the one specifier outside the window. -/
def names (sp : BitVec 7) (g : Nat) : List Nat :=
  if sp.toNat < 96 then (List.range g).map (fun k => sp.toNat + k)
  else if sp.toNat = 127 then [] else [sp.toNat]

/-- Two groups share a register. -/
def overlaps (a : BitVec 7) (ga : Nat) (b : BitVec 7) (gb : Nat) : Bool :=
  (names a ga).any (fun n => (names b gb).contains n)

/-- Element i of width w of a group (R5). -/
def elem (g i w : Nat) : Nat := (g >>> (i * w)) % 2 ^ w

/-- A group with element i of width w replaced. -/
def setElem (g i w v : Nat) : Nat := g - (elem g i w <<< (i * w)) + ((v % 2 ^ w) <<< (i * w))

/-! ## Registers as storage (R10 to R14) -/

/-- The register that a scalar specifier names; none for one that is no register. -/
def Hart.scalarRegs (h : Hart) (sp : BitVec 7) : List RegName :=
  if sp.toNat < 96 then [.scalar (h.sIndex sp.toNat)] else if sp.toNat < 112 then [.operand (sp.toNat - 96)] else []

/-- The registers of a vector operand of g registers. -/
def Hart.groupRegs (h : Hart) (sp : BitVec 7) (g : Nat) : List RegName :=
  if sp.toNat < 96 then (List.range g).filterMap (fun k => (h.vPhys (h.vIndex (sp.toNat + k))).map .pool)
  else if sp.toNat < 112 then [.operand (sp.toNat - 96)] else []

/-- The destination of a refused load is kept with each of its traps, so that no convoy reads it before they are taken
(R147). -/
def keepRefused (s : State) (hk : Nat) (as : List Async) (regs : List RegName) : State :=
  if regs.isEmpty then s
  else modHart s hk (fun h => { h with zeroed := h.zeroed ++ as.map (fun a => ⟨a, regs⟩) })

/-! ## Masks (R17, R70, R72) -/

/-- Mask register i: m0 is all ones (R17). -/
def Hart.maskReg (h : Hart) (i : Nat) : VReg := if i = 0 then BitVec.allOnes 1024 else SMap.get 0 h.masks i

/-- The value of a mask operand named through 116 to 123 (R70). -/
def readM (h : Hart) (sp : BitVec 7) : Option VReg :=
  if 116 ≤ sp.toNat ∧ sp.toNat ≤ 123 then some (h.maskReg (sp.toNat - 116)) else none

/-- A mask destination: m1 to m7 (R17, R70). -/
def mDest (sp : BitVec 7) : Bool := decide (117 ≤ sp.toNat ∧ sp.toNat ≤ 123)

/-- Mask register i is written; m0 never is (R17). -/
def setMask (h : Hart) (i : Nat) (v : VReg) : Hart :=
  if i = 0 then h else { h with masks := SMap.set 0 h.masks i v }

/-- A mask destination is written. -/
def writeM (h : Hart) (sp : BitVec 7) (v : VReg) : Hart := setMask h (sp.toNat - 116) v

/-- The bits of the mask that a selector selects, complemented when its bit 3 is 1 (R66, R72). -/
def selMask (h : Hart) (sel : Nat) : Nat :=
  let m := (h.maskReg (sel % 8)).toNat
  if sel ≥ 8 then 2 ^ 1024 - 1 - m else m

/-! ## The slot in progress -/

/-- The convoy in progress; with none, one slot with an unmasked header (R66). -/
def Hart.curConv (h : Hart) : Conv := h.conv.getD { hdr := oneSlotHeader }
/-- The mask selector of the slot in progress (R66). -/
def Hart.sel (h : Hart) : Nat := hdrMsk h.curConv.hdr h.curConv.slot
/-- The slot word in progress (R271). -/
def Hart.slotWord (h : Hart) : Word := h.curConv.words.getD h.curConv.slot 0
/-- Bit i of the selected mask governs element i; selector 0 lets every element run, those above 1,024 too (R72,
R105). -/
def Hart.selBit (h : Hart) (i : Nat) : Bool := decide (h.sel = 0) || (selMask h h.sel).testBit i

/-! ## Tiles (R70) -/

/-- The tile a specifier names: 0 for `at0`, 1 for `at1`. -/
def tileOf (sp : BitVec 7) : Option Nat :=
  if sp.toNat = 124 then some 0 else if sp.toNat = 125 then some 1 else none

/-! ## Immediates (R71) -/

/-- A 14-bit short immediate, sign-extended to 64 bits. -/
def imm14 (i : BitVec 14) : DWord := i.signExtend 64
/-- A 32-bit long immediate, sign-extended to 64 bits. -/
def imm32 (e : Word) : DWord := e.signExtend 64

/-! ## The memory attribute word (R75) -/

/-- A memory attribute word: offset, evict-first hint, atomic width bit, scope. -/
structure Attr where
  ofs : Int := 0
  evf : Bool := false
  w : Bool := false
  scope : Nat := 0
deriving DecidableEq, Repr

/-- The attributes of a slot: the defaults without a word; none for a reserved field, SCOPE 7, or W = 1 where the
instruction does not use it (R75). -/
def attrOf (usesW : Bool) (e : Option Word) : Option Attr :=
  match e with
  | none => some {}
  | some x =>
    if bits x 5 3 ≠ 0 ∨ bits x 2 0 = 7 ∨ (bit x 6 = true ∧ usesW = false) then none
    else some ⟨toSigned 24 (bits x 31 8), bit x 7, bit x 6, bits x 2 0⟩

/-- A base plus an offset, modulo 2^64 (R143). -/
def addOfs (base : Nat) (ofs : Int) : Nat := wrapInt 64 ((base : Int) + ofs)

end Sys2Proof.Machine
end

