-- ==== Sys2Proof/Machine/Flags.lean ====
section
/-! DEFINITION. The flags of the machine: the sticky float flags of a hart's lanes (R46), the saturation mask (R17,
R50) and the row saturation bits of a tile (R38, R63). -/
namespace Sys2Proof.Machine

open Sys2Proof

/-- NX, bit 0: inexact (R46). -/
def flNX : Nat := 1
/-- UF, bit 1: tiny after rounding and inexact (R46). -/
def flUF : Nat := 2
/-- OF, bit 2: overflow to infinity (R46). -/
def flOF : Nat := 4
/-- DZ, bit 3: division of a finite non-zero value by zero (R46). -/
def flDZ : Nat := 8
/-- NV, bit 4: invalid operation or signalling NaN read (R46). -/
def flNV : Nat := 16
/-- SA, bit 5: a conversion saturates (R46, R49). -/
def flSA : Nat := 32

/-- Flags are ORed into the hart's sticky flags (R46). -/
def raise (h : Hart) (fl : Nat) : Hart := { h with sticky := h.sticky ||| BitVec.ofNat 6 fl }

/-- Bits are set in the saturation mask that VCFG.SMR selects; with SMR = 0 they are discarded (R17, R50). -/
def setSat (h : Hart) (sat : Nat) : Hart :=
  if h.smr = 0 then h else setMask h h.smr (h.maskReg h.smr ||| BitVec.ofNat 1024 sat)

/-- Row bits are set in a tile's ATSAT (R38, R63). -/
def setAtsat (c : Core) (t rows : Nat) : Core :=
  if t = 0 then { c with atsat0 := c.atsat0 ||| BitVec.ofNat 64 (rows % 2 ^ 32) }
  else { c with atsat1 := c.atsat1 ||| BitVec.ofNat 64 (rows % 2 ^ 32) }

/-- An integer clamped to a signed width, and whether it was changed (R49, R63). -/
def clampS (w : Nat) (z : Int) : Int × Bool :=
  let hi : Int := (2 ^ (w - 1) : Nat) - 1
  let lo : Int := -((2 ^ (w - 1) : Nat) : Int)
  if z > hi then (hi, true) else if z < lo then (lo, true) else (z, false)

/-- An integer clamped to an unsigned width, and whether it was changed (R49). -/
def clampU (w : Nat) (z : Int) : Int × Bool :=
  let hi : Int := (2 ^ w : Nat) - 1
  if z > hi then (hi, true) else if z < 0 then (0, true) else (z, false)

end Sys2Proof.Machine
end

