-- ==== Sys2Proof/Machine/Floats.lean ====
section
/-! DEFINITION. The float formats and their exact arithmetic (R42 to R50, R62): every operation works on exact
rational values and rounds once. -/
namespace Sys2Proof.Machine

open Sys2Proof

/-- A binary float format: field widths, bias, code of the largest finite magnitude, whether an exponent of all ones
holds infinity and NaN, and the canonical NaN's code (R42, R43, R47, R62). -/
structure Fmt where
  ebits : Nat
  mbits : Nat
  bias : Nat
  maxCode : Nat
  hasInf : Bool
  nan : Nat
deriving DecidableEq, Repr

/-- FP64 (R42). -/
def f64 : Fmt := ⟨11, 52, 1023, 0x7FEFFFFFFFFFFFFF, true, 0x7FF8000000000000⟩
/-- FP32 (R42). -/
def f32 : Fmt := ⟨8, 23, 127, 0x7F7FFFFF, true, 0x7FC00000⟩
/-- FP16 (R42). -/
def f16 : Fmt := ⟨5, 10, 15, 0x7BFF, true, 0x7E00⟩
/-- BF16 (R42). -/
def bf16 : Fmt := ⟨8, 7, 127, 0x7F7F, true, 0x7FC0⟩
/-- FP8 E4M3 (R47). -/
def e4m3 : Fmt := ⟨4, 3, 7, 0x7E, false, 0x7F⟩
/-- FP8 E5M2 (R47). -/
def e5m2 : Fmt := ⟨5, 2, 15, 0x7B, true, 0x7E⟩
/-- FP4 E2M1, which has no NaN (R47, R48). -/
def e2m1 : Fmt := ⟨2, 1, 1, 7, false, 8⟩
/-- FA40, the accumulator cell format (R62). -/
def fa40 : Fmt := ⟨8, 31, 127, 0x7F7FFFFFFF, true, 0x7FC0000000⟩

/-- Width of a format in bits. -/
def Fmt.width (f : Fmt) : Nat := 1 + f.ebits + f.mbits

/-- A float value: NaN (signalling or quiet), infinity, or (-1)^neg * m * 2^e. -/
inductive FVal where
  | nan (sig : Bool)
  | inf (neg : Bool)
  | fin (neg : Bool) (m : Nat) (e : Int)
deriving DecidableEq, Repr

/-- The value a bit pattern stands for (R42, R43, R47). -/
def decodeF (f : Fmt) (b : Nat) : FVal :=
  let s := b.testBit (f.ebits + f.mbits)
  let mag := b % 2 ^ (f.ebits + f.mbits)
  let ex := mag >>> f.mbits
  let fr := mag % 2 ^ f.mbits
  if f.hasInf ∧ ex = 2 ^ f.ebits - 1 then
    (if fr = 0 then .inf s else .nan (!fr.testBit (f.mbits - 1)))
  else if mag = f.nan then .nan false
  else if ex = 0 then .fin s fr (1 - (f.bias : Int) - f.mbits)
  else .fin s (2 ^ f.mbits + fr) ((ex : Int) - f.bias - f.mbits)

/-- A magnitude code with its sign. -/
def signed (f : Fmt) (neg : Bool) (code : Nat) : Nat := code + b2n neg * 2 ^ (f.ebits + f.mbits)
/-- The infinity of a sign (R43). -/
def infCode (f : Fmt) (neg : Bool) : Nat := signed f neg ((2 ^ f.ebits - 1) <<< f.mbits)

/-- floor(log2(n/d)) for positive n and d. -/
def ratLog2 (n d : Nat) : Int :=
  let l : Int := (n.log2 : Int) - d.log2
  let ok := if l ≥ 0 then decide (n ≥ d * 2 ^ l.toNat) else decide (n * 2 ^ (-l).toNat ≥ d)
  if ok then l else l - 1

/-- n/d divided by 2^q, as a numerator and a denominator. -/
def scaleRat (n d : Nat) (q : Int) : Nat × Nat :=
  if q ≥ 0 then (n, d * 2 ^ q.toNat) else (n * 2 ^ (-q).toNat, d)

/-- The quotient rounded to nearest, ties to even (R5). -/
def rneDiv (n d : Nat) : Nat :=
  let k := n / d
  let r := n % d
  if 2 * r > d ∨ (2 * r = d ∧ k % 2 = 1) then k + 1 else k

/-- n/d rounded to a multiple of 2^q: the multiple, and whether it is inexact. -/
def rneAt (n d : Nat) (q : Int) : Nat × Bool :=
  let nd := scaleRat n d q
  (rneDiv nd.1 nd.2, decide (nd.1 % nd.2 ≠ 0))

/-- A magnitude rounded to a format with the exponent range unbounded above: its code, which may lie beyond `maxCode`;
whether it is inexact; whether it is tiny after rounding (R45, R46). -/
structure Rounded where
  code : Nat
  inexact : Bool
  tiny : Bool
deriving DecidableEq, Repr

/-- k * 2^q as a code of the format, with the exponent range unbounded above; k has at most mbits + 2 bits and q is the
step of k's binade. -/
def codeOf (f : Fmt) (k : Nat) (q : Int) : Nat :=
  if k < 2 ^ f.mbits then k
  else (q + f.mbits + f.bias).toNat * 2 ^ f.mbits + (k - 2 ^ f.mbits)

/-- A positive rational rounded once to nearest, ties to even (R5, R45). -/
def roundMag (f : Fmt) (n d : Nat) : Rounded :=
  let e := ratLog2 n d
  let emin : Int := 1 - (f.bias : Int)
  let q := (if e < emin then emin else e) - f.mbits
  let r := rneAt n d q
  let up := decide (e + 1 = emin) && decide ((rneAt n d (e - f.mbits)).1 = 2 ^ (f.mbits + 1))
  ⟨codeOf f r.1 q, r.2, decide (e < emin) && !up⟩

/-- The exact result of an operation before rounding. -/
inductive FRes where
  /-- The canonical NaN, with NV if set. -/
  | nan (nv : Bool)
  | inf (neg : Bool)
  /-- (-1)^neg * n / d, with n = 0 for a zero of that sign. -/
  | num (neg : Bool) (n d : Nat)
deriving DecidableEq, Repr

/-- An arithmetic result rounded once: bits and flags; overflow gives infinity and raises OF with NX (R46, R111, R112). -/
def rneArith (f : Fmt) : FRes → Nat × Nat
  | .nan nv => (f.nan, if nv then flNV else 0)
  | .inf neg => (infCode f neg, 0)
  | .num neg n d =>
    if n = 0 then (signed f neg 0, 0)
    else
      let r := roundMag f n d
      if r.code > f.maxCode then (infCode f neg, flOF ||| flNX)
      else (signed f neg r.code,
        (if r.inexact then flNX else 0) ||| (if r.inexact && r.tiny then flUF else 0))

/-- A conversion rounded once and saturated: bits, flags, saturation bit (R49). -/
def rneSat (f : Fmt) (x : FRes) (sig : Bool) : Nat × Nat × Bool :=
  let nv := if sig then flNV else 0
  match x with
  | .nan _ => if f = e2m1 then (0, flNV ||| flSA, true) else (f.nan, nv, false)
  | .inf neg => if f.hasInf then (infCode f neg, 0, false) else (signed f neg f.maxCode, flSA, true)
  | .num neg n d =>
    if n = 0 then (signed f neg 0, 0, false)
    else
      let r := roundMag f n d
      if r.code > f.maxCode then (signed f neg f.maxCode, flSA, true)
      else (signed f neg r.code,
        (if r.inexact then flNX else 0) ||| (if r.inexact && r.tiny then flUF else 0), false)

/-- m * 2^e as a rational. -/
def ratOf (m : Nat) (e : Int) : Nat × Nat := if e ≥ 0 then (m * 2 ^ e.toNat, 1) else (m, 2 ^ (-e).toNat)

/-- A value as an exact result. -/
def FVal.res : FVal → FRes
  | .nan sig => .nan sig
  | .inf neg => .inf neg
  | .fin neg m e => .num neg (ratOf m e).1 (ratOf m e).2

/-- The value is a signalling NaN (R43). -/
def FVal.isSig : FVal → Bool | .nan sig => sig | _ => false
/-- The value is a NaN. -/
def FVal.isNan : FVal → Bool | .nan _ => true | _ => false
/-- The value is a zero. -/
def FVal.isZero : FVal → Bool | .fin _ 0 _ => true | _ => false
/-- The value is infinite. -/
def FVal.isInf : FVal → Bool | .inf _ => true | _ => false
/-- The sign of a value that is no NaN. -/
def FVal.neg : FVal → Bool | .nan _ => false | .inf n => n | .fin n _ _ => n
/-- The value with its sign changed. -/
def FVal.negate : FVal → FVal | .nan s => .nan s | .inf n => .inf !n | .fin n m e => .fin (!n) m e

/-- A term of an exact sum: a value, or an invalid product 0 * infinity. -/
inductive Term where
  | val (v : FVal)
  | invalid
deriving DecidableEq, Repr

/-- The exact product of two values (R112, R182). -/
def mulTerm (x y : FVal) : Term :=
  match x, y with
  | .nan a, .nan b => .val (.nan (a || b))
  | .nan a, _ => .val (.nan a)
  | _, .nan b => .val (.nan b)
  | .inf a, .inf b => .val (.inf (a != b))
  | .inf a, .fin b m _ => if m = 0 then .invalid else .val (.inf (a != b))
  | .fin a m _, .inf b => if m = 0 then .invalid else .val (.inf (a != b))
  | .fin a m e, .fin b n k => .val (.fin (a != b) (m * n) (e + k))

/-- The least exponent of the finite non-zero terms. -/
def minExp : List Term → Option Int
  | [] => none
  | .val (.fin _ m e) :: ts =>
    if m = 0 then minExp ts
    else match minExp ts with
      | none => some e
      | some k => some (if e ≤ k then e else k)
  | _ :: ts => minExp ts

/-- The exact sum of the finite terms, in units of 2^e. -/
def sumAt (e : Int) : List Term → Int
  | [] => 0
  | .val (.fin n m k) :: ts =>
    (if m = 0 then 0 else (if n then -1 else 1) * ((m * 2 ^ (k - e).toNat : Nat) : Int)) + sumAt e ts
  | _ :: ts => sumAt e ts

/-- The exact sum of terms: NaN if a term is NaN or invalid or infinite terms differ in sign, else infinite, else the
sum; a zero sum is -0 only when every term is -0 (R44, R112, R182). Infinite terms that differ in sign raise NV beside a
quiet NaN too (R124). `anyNaN` says whether a quiet NaN alone raises NV. -/
def sumTerms (anyNaN : Bool) (ts : List Term) : FRes :=
  let bad := ts.any (fun t => match t with | .invalid => true | .val v => v.isSig)
  let nan := ts.any (fun t => match t with | .invalid => true | .val v => v.isNan)
  let pinf := ts.any (fun t => match t with | .val (.inf false) => true | _ => false)
  let ninf := ts.any (fun t => match t with | .val (.inf true) => true | _ => false)
  if nan then .nan (bad || anyNaN || (pinf && ninf))
  else if pinf && ninf then .nan true
  else if pinf then .inf false
  else if ninf then .inf true
  else
    match minExp ts with
    | none => .num (!ts.isEmpty && ts.all (fun t => match t with | .val v => v.neg | .invalid => false)) 0 1
    | some e =>
      let z := sumAt e ts
      let r := ratOf z.natAbs e
      .num (decide (z < 0)) r.1 r.2

/-- The exact quotient, and whether DZ is raised (R112). -/
def divRes (x y : FVal) : FRes × Bool :=
  match x, y with
  | .nan a, .nan b => (.nan (a || b), false)
  | .nan a, _ => (.nan a, false)
  | _, .nan b => (.nan b, false)
  | .inf _, .inf _ => (.nan true, false)
  | .inf a, .fin b _ _ => (.inf (a != b), false)
  | .fin a _ _, .inf b => (.num (a != b) 0 1, false)
  | .fin a m e, .fin b n k =>
    if n = 0 then (if m = 0 then (.nan true, false) else (.inf (a != b), true))
    else
      let r := ratOf m (e - k)
      (.num (a != b) r.1 (r.2 * n), false)

/-- Integer square root by bits, from bit i down. -/
def isqrtBits (n : Nat) : Nat → Nat → Nat
  | 0, acc => acc
  | i + 1, acc =>
    let t := acc + 2 ^ i
    isqrtBits n i (if t * t ≤ n then t else acc)

/-- floor(sqrt n). -/
def isqrt (n : Nat) : Nat := isqrtBits n (n.log2 / 2 + 1) 0

/-- A rational that rounds as sqrt(n/d) does in every format: the root to at least 64 bits, with a further half unit when
it is inexact. -/
def sqrtRat (n d : Nat) : Nat × Nat :=
  let l := ratLog2 n d
  let k := if l ≥ 132 then 0 else ((132 - l) / 2 + 1).toNat
  let m := n * 4 ^ k / d
  let s := isqrt m
  if s * s * d = n * 4 ^ k then (s, 2 ^ k) else (2 * s + 1, 2 ^ (k + 1))

/-- The square root before rounding (R112). -/
def sqrtRes : FVal → FRes
  | .nan sig => .nan sig
  | .inf neg => if neg then .nan true else .inf false
  | .fin neg m e =>
    if m = 0 then .num neg 0 1
    else if neg then .nan true
    else
      let r := ratOf m e
      let q := sqrtRat r.1 r.2
      .num false q.1 q.2

/-- A positive rational rounded to at most p significant bits and no finer than the format's subnormal step, then written
in the format: bits and flags (R113). -/
def estimate (f : Fmt) (neg : Bool) (n d : Nat) : Nat × Nat :=
  let p := if f.mbits + 1 < 12 then f.mbits + 1 else 12
  let e := ratLog2 n d
  let emin : Int := 1 - (f.bias : Int)
  let q0 := e - ((p : Int) - 1)
  let q := if q0 < emin - f.mbits then emin - f.mbits else q0
  let r := rneAt n d q
  let v := ratOf r.1 q
  if r.1 = 0 then (signed f neg 0, flUF ||| flNX)
  else
    let m := roundMag f v.1 v.2
    if m.code > f.maxCode then (infCode f neg, flOF ||| flNX)
    else (signed f neg m.code, if m.tiny && r.2 then flUF ||| flNX else 0)

/-- A float converted to an integer: bits, flags, saturation bit (R49, R120). DEDUCED (log 71): a non-zero value that rounds
to 0 raises UF as R49 says of every destination, beside the NX of R120. -/
def toIntF (wd : Nat) (sgn trunc : Bool) (x : FVal) : Nat × Nat × Bool :=
  let hi : Int := if sgn then (2 ^ (wd - 1) : Nat) - 1 else (2 ^ wd : Nat) - 1
  let lo : Int := if sgn then -((2 ^ (wd - 1) : Nat) : Int) else 0
  match x with
  | .nan _ => (0, flNV ||| flSA, true)
  | .inf neg => (wrapInt wd (if neg then lo else hi), flSA, true)
  | .fin neg m e =>
    let r := ratOf m e
    let k := if trunc then r.1 / r.2 else rneDiv r.1 r.2
    let z : Int := if neg then -(k : Int) else k
    if z > hi then (wrapInt wd hi, flSA, true)
    else if z < lo then (wrapInt wd lo, flSA, true)
    else (wrapInt wd z, if r.1 % r.2 ≠ 0 then (if k = 0 then flUF ||| flNX else flNX) else 0, false)

/-- An integer as an exact result (R121). -/
def intRes (z : Int) : FRes := .num (decide (z < 0)) z.natAbs 1

/-- An order key of a value that is no NaN: -0 counts as less than +0 (R114). -/
def cmpF (x y : FVal) : Ordering :=
  match x, y with
  | .inf a, .inf b => compare (b2n b) (b2n a)
  | .inf a, _ => if a then .lt else .gt
  | _, .inf b => if b then .gt else .lt
  | .fin a m e, .fin b n k =>
    let d : Int := if e ≤ k then e else k
    let u : Int := (if a then -1 else 1) * ((m * 2 ^ (e - d).toNat : Nat) : Int)
    let v : Int := (if b then -1 else 1) * ((n * 2 ^ (k - d).toNat : Nat) : Int)
    if u < v then .lt else if v < u then .gt
    else if m = 0 ∧ n = 0 then compare (b2n b) (b2n a) else .eq
  | .nan _, _ => .eq
  | _, .nan _ => .eq

/-- The bits of a value's format with NaN replaced by the canonical NaN (R43). -/
def canonF (f : Fmt) (b : Nat) : Nat := match decodeF f b with | .nan _ => f.nan | _ => b

end Sys2Proof.Machine
end

