-- ==== Sys2Proof/Machine/Memory.lean ====
section
/-! DEFINITION. Memory: one canonical list of bytes over the node's physical addresses and its scratchpads (R4, R302,
R307), poison (R407) and the forwarding state of migrated lines (R328). -/
namespace Sys2Proof.Machine

open Sys2Proof

/-! ## Bytes -/

/-- What a byte that nothing has written reads as. DESIGN CHOICE (log 1): the spec gives no contents after power-on. -/
def emptyByte : Byte := 0

/-- A memory is in canonical form: addresses strictly rising, and no entry equal to what an unlisted address reads as. -/
abbrev Memory.wf (m : List Host.Cell) : Bool := SMap.canon emptyByte m

/-- The byte at a location. -/
def memGet (m : List Host.Cell) (a : Nat) : Byte := SMap.get emptyByte m a

/-- The memory with the byte at a location replaced. -/
def memSet (m : List Host.Cell) (a : Nat) (v : Byte) : List Host.Cell := SMap.set emptyByte m a v

/-- First location of the scratchpads: bytes 2^48 upwards stand for the mesh-absolute offsets of R302. -/
def scratchBase : Nat := 2 ^ 48

/-- The location of a byte of a core's scratchpad (R302). -/
def scratchLoc (ck ofs : Nat) : Nat :=
  let u := unitOf ck
  scratchBase + devOf (dieOf ck) * 2 ^ 30 + dieNo (dieOf ck) * 2 ^ 27 + tileX u * 2 ^ 23 + tileY u * 2 ^ 20 + ofs

/-- The location lies in a scratchpad. -/
def isScratch (a : Nat) : Bool := decide (scratchBase ≤ a)

/-- The core that owns a scratchpad location (R302). -/
def scratchCore (a : Nat) : Nat :=
  let m := a - scratchBase
  mkCore (m / 2 ^ 30 % 8) (m / 2 ^ 27 % 8) (m / 2 ^ 20 % 8 * 12 + m / 2 ^ 23 % 16)

/-- The offset of a scratchpad location within its scratchpad. -/
def scratchOfs (a : Nat) : Nat := a % 2 ^ 20

/-- Class of a physical location (R307); scratchpad locations have class 16. -/
def classOf (a : Nat) : Nat := a / 2 ^ 44

/-- The location an access reaches once forwarding lines are followed: a class-0 line in the forwarding state names its
new line (R329). -/
def homeLoc (s : State) (a : Nat) : Nat :=
  match SMap.find s.forward (a / 512) with
  | some l => l * 512 + a % 512
  | none => a

/-- A byte of memory as its home holds it; a byte of another node has a value of its own (R399; log 10). -/
def readByte (s : State) (a : Nat) : Byte :=
  if classOf a = 3 then Config.remoteByte s.nextId a else memGet s.mem (homeLoc s a)

/-- A location that holds a byte of the node: class 0, class 1 or a scratchpad (R307). -/
def storable (a : Nat) : Bool := decide (classOf a < 2) || isScratch a

/-- The state with a byte of memory written at its home. Registers and other nodes (classes 2 and 3) hold no byte
here. -/
def writeByte (s : State) (a : Nat) (v : Byte) : State :=
  if storable a then { s with mem := memSet s.mem (homeLoc s a) v } else s

/-- n bytes from a location upwards, little-endian (R4). -/
def readN (s : State) (a : Nat) : Nat → Nat
  | 0 => 0
  | n + 1 => (readByte s a).toNat + 256 * readN s (a + 1) n

/-- n bytes are written from a location upwards, little-endian (R4). -/
def writeN (s : State) (a : Nat) : Nat → Nat → State
  | 0, _ => s
  | n + 1, v => writeN (writeByte s a (BitVec.ofNat 8 v)) (a + 1) n (v / 256)

/-- n bytes of a scratchpad from a location upwards become 0, as a byte that nothing has written is (R357). -/
def zeroBytes (s : State) (a n : Nat) : State :=
  { s with mem := s.mem.filter (fun c => !decide (a ≤ c.1 ∧ c.1 < a + n)) }

/-- Byte j of a value, little-endian. -/
def byteOf (v j : Nat) : Byte := BitVec.ofNat 8 (v >>> (8 * j))

/-- The value of a list of bytes, the first in the least significant bits (R4). -/
def valueOf : List Byte → Nat
  | [] => 0
  | b :: bs => b.toNat + 256 * valueOf bs

/-- The first n bytes of a value (R4). -/
def bytesOf (v : Nat) : Nat → List Byte
  | 0 => []
  | n + 1 => BitVec.ofNat 8 v :: bytesOf (v / 256) n

/-! ## Poison (R407) -/

/-- The 64-byte sector or granule of a location. -/
def sectorOf (a : Nat) : Nat := a / 64
/-- The sector of a location is poisoned. -/
def isPoisoned (s : State) (a : Nat) : Bool := SMap.get false s.poison (sectorOf (homeLoc s a))
/-- A sector is poisoned. -/
def poisonAt (s : State) (a : Nat) : State := { s with poison := SMap.set false s.poison (sectorOf (homeLoc s a)) true }
/-- A sector's poison is cleared. -/
def unpoisonAt (s : State) (a : Nat) : State :=
  { s with poison := SMap.set false s.poison (sectorOf (homeLoc s a)) false }
/-- A line is poisoned: every sector of it (R407). -/
def poisonLine (s : State) (a : Nat) : State :=
  (List.range 8).foldl (fun t k => poisonAt t (a / 512 * 512 + 64 * k)) s

/-! ## Interleave and homes (R314, R316) -/

/-- Target and position of a class-0 address under a bank skew (R314). -/
def bankTarget (bsk pa : Nat) : Nat × Nat :=
  let b := pa / 2 ^ 19 % 2 ^ 19
  let j := pa / 2 ^ 9 % 2 ^ 10
  if bsk = 0 then (j, b)
  else if bsk = 1 then (Nat.xor j (Nat.xor (b % 1024) (b / 1024)), b)
  else if bsk = 2 then (if j < 1021 then (j + b) % 1021 else j, b)
  else (128 * (b % 8) + j % 128, 8 * (b / 8) + j / 128)

/-- Line number of a class-0 address (R314). -/
def lineOf (pa : Nat) : Nat := pa % 2 ^ 38 / 512
/-- Home die of a class-0 line under a bank skew (R316). -/
def homeDie (bsk pa : Nat) : Nat := (bankTarget bsk pa).1 / 128
/-- The bank skew of a class-0 address: that of the leaf its 4 MiB group was last mapped with (R314, R315). -/
def skewOf (s : State) (pa : Nat) : Nat := SMap.get 0 s.skews (pa / 2 ^ 22)
/-- An entry that maps a class-0 address gives its 4 MiB group a skew; of a skew 4 to 7, which only a `tlbw` installs, the
low two bits count (R308, R315; log 81). -/
def noteSkew (s : State) (pa : Nat) (e : DWord) : State :=
  if classOf pa ≠ 0 ∨ skewOf s pa = bits e 30 29 then s
  else { s with skews := SMap.set 0 s.skews (pa / 2 ^ 22) (bits e 30 29) }
/-- Home slice of a class-0 line: column and row of the tile that holds it (R316). -/
def homeSlice (pa : Nat) : Nat := lineOf pa % 96
/-- Set of a line within its slice (R318). -/
def sliceSet (pa : Nat) : Nat := lineOf pa / 96 % 128
/-- The home device of a class-0 address (R307). -/
def homeDev (pa : Nat) : Nat := pa / 2 ^ 38 % 8

/-- The class-0 device address lies in the caddy range of some die of its home device (R322). -/
def inCaddy (s : State) (pa : Nat) : Bool :=
  decide (classOf pa = 0) && (List.range 8).any (fun d =>
    let c := SMap.get {} (getDev s (homeDev pa)).cfg d
    decide (c.caddyB ≤ pa % 2 ^ 38 ∧ pa % 2 ^ 38 < c.caddyB + c.caddyMB * 2 ^ 20))

/-- The firewall of a die protects its firmware region: EN = 1 in the `FWCTL` of some firmware-column tile of it (R372, R373;
log 77). -/
def regionGuarded (s : State) (dk : Nat) : Bool :=
  (tilesOfDie dk).any (fun ck => isFwCol s ck && bit (getCore s ck).fwctl 63)

/-- Some of n bytes from a class-0 device address lie between FWLO and FWHI of a die of a device whose firewall protects it
(R372, R373). -/
def inFwRegion (s : State) (dev pa n : Nat) : Bool :=
  decide (classOf pa = 0 ∧ homeDev pa = dev) && (diesOfDev dev).any (fun k =>
    let d := getDie s k
    decide (d.fwlo.toNat < pa % 2 ^ 38 + n ∧ pa % 2 ^ 38 ≤ d.fwhi.toNat) && regionGuarded s k)

end Sys2Proof.Machine
end

