-- ==== Sys2Proof/Machine/Cache.lean ====
section
/-! DEFINITION. The L2 slices: which lines their sets hold, how an access finds or fills one, which line gives up its way,
the ways that `ART` registers, the caddy and the revision store take (R152, R316, R318 to R323), and the copies that devices
hold of one another's lines (R288, R289, R396). They hold no data of their own: memory holds every value, and residency changes
hit rates only (R320; log 81). -/
namespace Sys2Proof.Machine

open Sys2Proof

/-! ## What revision stores hold (R323) -/

/-- The running task with a number, if any hart runs it. -/
def findTask (s : State) (uid : Nat) : Option Task :=
  (s.harts.find? (fun p => match p.2.task with | some t => t.uid == uid | none => false)).bind (fun p => p.2.task)

/-- The hart that runs a task. -/
def taskHart (s : State) (uid : Nat) : Option Nat :=
  (s.harts.find? (fun p => match p.2.task with | some t => t.uid == uid | none => false)).map Prod.fst

/-- A task is idempotent: its record's IDEM (R219). -/
def Task.idem (t : Task) : Bool := bit (t.words.getD 1 0) 0

/-- The addresses an entry of a buffer writes. -/
def Buffered.addrs : Buffered → List Nat
  | .store _ bs _ => bs.map Prod.fst
  | .nibble _ a _ _ _ => [a]
  | .blend a _ _ _ _ => [a, a + 1, a + 2, a + 3]
  | _ => []

/-- The buffer of a task, running or committing (R299). -/
def bufferOf (s : State) (uid : Nat) : List Buffered :=
  match findTask s uid with
  | some t => t.buf
  | none => match SMap.find s.commits uid with
    | some c => c.task.buf
    | none => []

/-- A sector taken by a revision store is still held: its cairn or copy stands, or its task's buffer writes it (R323). -/
def Held.live (s : State) (x : Held) : Bool :=
  if x.kind = 2 then (bufferOf s x.uid).any (fun e => e.addrs.any (fun a => a / 64 == x.sector))
  else match SMap.find s.revs x.uid with
    | none => false
    | some r => (SMap.find (if x.kind = 0 then r.cairns else r.copies) x.sector).isSome

/-- The sectors a die's revision store holds, the spilled ones included, oldest first (R323). -/
def heldOn (s : State) (dk : Nat) : List Held := (getDie s dk).store.filter (Held.live s)

/-- Capacity of a die's revision store in sectors (R323). -/
def revCapacity (s : State) (dk : Nat) : Nat := (dieCfg s dk).revMB * 2 ^ 20 / 64

/-- Of those, the sectors beyond the capacity, the oldest, which the die has moved to the spill areas of their contexts
(R323). -/
def spilledOn (s : State) (dk : Nat) : List Held := (heldOn s dk).take ((heldOn s dk).length - revCapacity s dk)

/-- A sector enters a die's revision store as its newest, unless the store holds it already (R323). -/
def noteHeld (s : State) (dk : Nat) (x : Held) : State :=
  if (getDie s dk).store.contains x && x.live s then s
  else modDie s dk (fun d => { d with store := d.store.filter (fun y => decide (y ≠ x)) ++ [x] })

/-- The number, no physical line's, of the way that holds a sector of a revision store with its seven neighbours (R323; log
81). -/
def Held.line (x : Held) : Nat := 2 ^ 56 * (1 + 3 * x.uid + x.kind) + x.sector / 8

/-- A way holds sectors of a revision store. -/
def L2Line.revised (x : L2Line) : Bool := decide (2 ^ 56 ≤ x.line)

/-! ## Ways (R319, R320, R322) -/

/-- Ways per set that a die's caddy reserves (R322). -/
def caddyWays (s : State) (dk : Nat) : Nat := ((dieCfg s dk).caddyMB + 5) / 6

/-- WAYS of an `ART` register, none while it is not valid (R319). -/
def artWays (d : Die) (i : Nat) : Nat :=
  let w := SMap.get 0 d.art i
  if bit w 63 then bits w 62 59 else 0

/-- Ways per set of a die that no `ART` register and no caddy reserves (R320, R322). -/
def openWays (s : State) (dk : Nat) : Nat :=
  16 - caddyWays s dk - ((List.range 8).map (artWays (getDie s dk))).sum

/-- The lowest-numbered valid ART register of a die whose range holds a class-0 address; a class-1 line is never retained
(R316, R320). -/
def retainedBy (s : State) (dk pa : Nat) : Option Nat :=
  if classOf pa ≠ 0 then none
  else (List.range 8).find? (fun i =>
    let a := SMap.get 0 (getDie s dk).art i
    bit a 63 && decide (bits a 24 0 ≤ pa / 2 ^ 16 % 2 ^ 25 ∧ pa / 2 ^ 16 % 2 ^ 25 ≤ bits a 54 30))

/-! ## Sets (R316, R318) -/

/-- The die whose slice holds a line for a device: the line's home die there, or the die whose host port serves a class-1
line (R316; log 81). -/
def sliceDie (s : State) (dev l : Nat) : Nat :=
  dev % 8 * 8 + (if classOf l = 1 then Config.hostPortDie (l / 512) % 8 else homeDie (skewOf s l) l)

/-- The set, over every slice of the node, that holds a line for a device (R316, R318). -/
def setKey (s : State) (dev l : Nat) : Nat := (sliceDie s dev l * 96 + homeSlice l) * 128 + sliceSet l

/-- The die of a set. -/
def dieOfSet (key : Nat) : Nat := key / (96 * 128)

/-- The lines of a set, the most recently used first. -/
def linesOf (s : State) (key : Nat) : List L2Line := SMap.get [] s.l2 key

/-- The state with the lines of a set replaced. -/
def setLines (s : State) (key : Nat) (ls : List L2Line) : State := { s with l2 := SMap.set [] s.l2 key ls }

/-- The sectors of a line of a revision store that a die still holds and has not moved to a spill area (R323). -/
def heldSectors (s : State) (dk line : Nat) : BitVec 8 :=
  ((heldOn s dk).drop (spilledOn s dk).length).foldl (fun b x =>
    if x.line = line then b ||| BitVec.ofNat 8 (2 ^ (x.sector % 8)) else b) 0

/-- The lines of a set, without those of a revision store whose sectors are gone or spilled, which leave their ways free
(R323). -/
def setNow (s : State) (key : Nat) : List L2Line :=
  ((linesOf s key).map (fun x => if x.revised then { x with sectors := heldSectors s (dieOfSet key) x.line } else x)).filter
    (fun x => decide (x.sectors ≠ 0))

/-- The lines of a set that sit in ways of a kind. -/
def inWay (w : Option Nat) (ls : List L2Line) : List L2Line := ls.filter (fun x => decide (x.way = w))

/-- A line that a fill may evict: no retained line, and none of a revision store (R320, R323). -/
def L2Line.free (x : L2Line) : Bool := !x.kept && !x.revised

/-- The victim among candidates: the marked line, else the least recently used (R318). -/
def victimOf (c : List L2Line) : Option L2Line :=
  match c.find? (fun x => x.marked) with
  | some x => some x
  | none => c.getLast?

/-- A way for a line among ways of one kind, of which a set has n: an empty one, else that of a victim among the lines that
may be evicted from them. -/
def takeFrom (w : Option Nat) (n : Nat) (ls : List L2Line) : Option (List L2Line) :=
  if (inWay w ls).length < n then some ls
  else match victimOf ((inWay w ls).filter L2Line.free) with
    | some x => some (ls.erase x)
    | none => none

/-- A way for an ordinary line: an empty one, an unreserved one first, else that of the set's victim; none where no line may
go (R318, R320, R323). -/
def wayFor (ways : Nat → Nat) (n : Nat) (ls : List L2Line) : Option (Option Nat × List L2Line) :=
  if (inWay none ls).length < n then some (none, ls)
  else match (List.range 8).find? (fun i => decide ((inWay (some i) ls).length < ways i)) with
    | some i => some (some i, ls)
    | none => (victimOf (ls.filter L2Line.free)).map (fun x => (x.way, ls.erase x))

/-- A line is filled: a retained line into a reserved way free of retained lines, from which it evicts an ordinary one, else
into an unreserved way as an ordinary line; an ordinary line as `wayFor` says. Where revision sectors fill every way it may
take, it passes through without one (R320, R323). -/
def fillLine (ways : Nat → Nat) (n : Nat) (r : Option Nat) (x : L2Line) (ls : List L2Line) : List L2Line :=
  match r with
  | none => (match wayFor ways n ls with
    | some w => { x with way := w.1 } :: w.2
    | none => ls)
  | some i =>
    match (if ((inWay (some i) ls).filter (fun y => y.kept)).length < ways i then takeFrom (some i) (ways i) ls else none) with
    | some rest => { x with way := some i, kept := true } :: rest
    | none => (match takeFrom none n ls with
      | some rest => { x with way := none } :: rest
      | none => ls)

/-! ## Accesses (R318) -/

/-- A set after an access to a sector of a line: a resident line becomes the most recently used, another is filled; the
sector is resident, and dirty with its writer after a store (R318, R320). -/
def touchSet (ways : Nat → Nat) (n : Nat) (r : Option Nat) (line j : Nat) (wr : Option Writer) (ls : List L2Line) :
    List L2Line :=
  let note (x : L2Line) : L2Line :=
    { x with sectors := x.sectors ||| BitVec.ofNat 8 (2 ^ j),
             dirty := match wr with | some w => SMap.put x.dirty j w | none => x.dirty }
  match ls.find? (fun x => x.line == line) with
  | some x => note x :: ls.erase x
  | none => fillLine ways n r (note { line := line, sectors := 0 }) ls

/-- The line of a location becomes the next victim of its set, if it is resident and not in a reserved way (R152, R318). -/
def markSet (line : Nat) (ls : List L2Line) : List L2Line :=
  if ls.any (fun x => x.line == line && x.way.isNone) then ls.map (fun x => { x with marked := x.line == line }) else ls

/-- A line of another device's memory: a copy, where the device's slices hold it (R288, R316). -/
def copyAt (dev line : Nat) : Bool := decide (classOf (512 * line) = 0 ∧ homeDev (512 * line) ≠ dev % 8)

/-- What home slices know of a line's copies, none where no device holds one (R396). -/
def putSharers (s : State) (line : Nat) (v : Sharers) : State :=
  { s with sharers := if v.devs = 0 then SMap.del s.sharers line else SMap.put s.sharers line v }

/-- What the home slice of a line knows of its copies (R396). -/
def sharersOf (s : State) (line : Nat) : Sharers := (SMap.find s.sharers line).getD { devs := 0 }

/-- A device's copy of a line is noted at its home slice, with a store as the owner's (R396). -/
def noteCopy (s : State) (dev line : Nat) (wr : Bool) : State :=
  if copyAt dev line then
    let v := sharersOf s line
    putSharers s line { devs := v.devs ||| BitVec.ofNat 8 (2 ^ (dev % 8)), owner := if wr then some (dev % 8) else v.owner }
  else s

/-- A device's copy of a line has gone, or is what is left of it, which its home slice notes (R396). -/
def noteLeft (s : State) (dev line : Nat) (left : Option L2Line) : State :=
  let v := sharersOf s line
  let dirty := match left with | some y => !y.dirty.isEmpty | none => false
  putSharers s line { devs := if left.isSome then v.devs else v.devs &&& ~~~ BitVec.ofNat 8 (2 ^ (dev % 8)),
                      owner := if v.owner = some (dev % 8) ∧ dirty = false then none else v.owner }

/-- Home slices forget the copies that slices no longer hold, and the lines whose home slice `gone` names (R396, R410, R412). -/
def recountSharers (s : State) (gone : Nat → Bool) : State :=
  { s with sharers := (s.sharers.filter (fun p => !gone p.1)).filterMap (fun p =>
    let held (d : Nat) : Bool := (linesOf s (setKey s d (512 * p.1))).any (fun x => x.line == p.1)
    let devs := BitVec.ofNat 8 (((List.range 8).filter (fun d => p.2.devs.getLsbD d && held d)).map (2 ^ ·)).sum
    if devs = 0 then none else some (p.1, { devs := devs, owner := p.2.owner.filter held })) }

/-- A sector of a location, forwarding lines followed, is accessed in the slice that serves it for a device: the state and the
lines that had to leave the set. A caddy line has ways of its own in the slices of its home device, and is neither filled nor
evicted there (R318, R322). -/
def touchOnce (s : State) (dev : Nat) (wr : Option Writer) (a : Nat) : State × List L2Line :=
  if classOf a ≥ 2 ∨ (inCaddy s a = true ∧ homeDev a = dev % 8) then (s, [])
  else
    let key := setKey s dev a
    let dk := dieOfSet key
    let old := setNow s key
    let new := touchSet (artWays (getDie s dk)) (openWays s dk) (retainedBy s dk a) (a / 512) (a / 64 % 8) wr old
    let t := if new.any (fun x => x.line == a / 512) then noteCopy s dev (a / 512) wr.isSome else s
    (setLines t key new, old.filter (fun x => !new.any (fun y => y.line == x.line)))

/-- A line that has left a device's slice, or what is left of it there, with the dirty sectors to be written back. -/
structure Leaving where
  dev : Nat
  line : L2Line
  left : Option L2Line := none

/-- Lines leave slices. The dirty sectors of a copy of another device's line go into its home slice, where a further line may
have to leave; a line of the device's own goes to its memory (R289, R318, R396). The fuel bounds the lines that leave. -/
def settleLines : Nat → State → List Leaving → State
  | 0, s, _ => s
  | _ + 1, s, [] => s
  | n + 1, s, x :: rest =>
    if copyAt x.dev x.line.line && !x.line.revised then
      let home := homeDev (512 * x.line.line)
      let r := x.line.dirty.foldl (fun (u : State × List Leaving) p =>
        let q := touchOnce u.1 home (some p.2) (homeLoc u.1 (512 * x.line.line + 64 * p.1))
        (q.1, u.2 ++ q.2.map (fun y => ⟨home, y, none⟩))) (noteLeft s x.dev x.line.line x.left, [])
      settleLines n r.1 (rest ++ r.2)
    else settleLines n s rest

/-- Lines leave slices, with fuel for every one that may: each write-back makes at most one line leave. -/
def leave (s : State) (gone : List Leaving) : State :=
  if gone.isEmpty then s else settleLines (gone.length + 1 + 9 * (gone.length + (s.l2.map (fun p => p.2.length)).sum)) s gone

/-- A sector of node or host memory is accessed for a device through the slice that holds its line (R288, R316, R318). -/
def touchSector (s : State) (dev : Nat) (wr : Option Writer) (l : Nat) : State :=
  let r := touchOnce s dev wr (homeLoc s l)
  leave r.1 (r.2.map (fun x => ⟨dev, x, none⟩))

/-- A sector of a revision store takes its place in a way of its die, an ordinary one, and stays while the store is within its
capacity (R323; log 81). -/
def placeHeld (s : State) (dk : Nat) (x : Held) : State :=
  let key := (dk * 96 + x.sector / 8 % 96) * 128 + x.sector / 8 / 96 % 128
  let ls := setNow s key
  let b := BitVec.ofNat 8 (2 ^ (x.sector % 8))
  match ls.find? (fun y => y.line == x.line) with
  | some y => setLines s key ({ y with sectors := y.sectors ||| b } :: ls.erase y)
  | none => match takeFrom none (openWays s dk) ls with
    | some rest =>
      leave (setLines s key ({ line := x.line, sectors := b } :: rest))
        ((ls.filter (fun y => !rest.any (fun z => z.line == y.line))).map (fun y => ⟨devOf dk, y, none⟩))
    | none => s

/-- The line of a location is marked as the next victim for a device; a caddy line sits in a reserved way (R152, R318). -/
def markLine (s : State) (dev l : Nat) : State :=
  let a := homeLoc s l
  if classOf a ≥ 2 then s
  else
    let key := setKey s dev a
    setLines s key (markSet (a / 512) (linesOf s key))

/-- The line of a location becomes an ordinary line in the slice of a device that holds it (R152, R320). -/
def unpinLine (s : State) (dev l : Nat) : State :=
  let a := homeLoc s l
  if classOf a ≥ 2 then s
  else
    let key := setKey s dev a
    setLines s key ((linesOf s key).map (fun x => if x.line = a / 512 then { x with kept := false } else x))

/-- All eight sectors of a location's line are resident in a device's slice, as those of a caddy line of its own always are
(R322, R419). -/
def isHit (s : State) (dev l : Nat) : Bool :=
  let a := homeLoc s l
  (inCaddy s a && homeDev a == dev % 8) || (linesOf s (setKey s dev a)).any (fun x => x.line == a / 512 && x.sectors == 0xFF)

/-- Some slice of the node holds the line of a location as a retained line (R320, R328). -/
def isRetained (s : State) (l : Nat) : Bool :=
  (List.range 8).any (fun dev => (linesOf s (setKey s dev l)).any (fun x => x.line == l / 512 && x.kept))

/-! ## Copies on other devices (R288, R289, R396) -/

/-- Copies that a device holds of other devices' lines change: of each that `sel` names, the dirty sectors given are written
back and what is given stays. -/
def sweep (s : State) (dev : Nat) (sel : L2Line → Option (SMap Writer × Option L2Line)) : State :=
  let pick (x : L2Line) : Option (SMap Writer × Option L2Line) :=
    if copyAt dev x.line && !x.revised then sel x else none
  let mine (key : Nat) : Bool := devOf (dieOfSet key) == dev % 8
  let outs := ((s.l2.filter (fun p => mine p.1)).flatMap Prod.snd).filterMap (fun x =>
    (pick x).map (fun r => (⟨dev, { x with dirty := r.1 }, r.2⟩ : Leaving)))
  leave { s with l2 := SMap.each (fun key ls =>
    if mine key then ls.filterMap (fun x => match pick x with | some r => r.2 | none => some x) else ls) s.l2 } outs

/-- A carrying store of a hart at `node` or `sys` scope: what the hart has stored to copies of other devices' lines reaches
their home slices (R289). -/
def carryStores (s : State) (hk : Nat) : State :=
  sweep s (devOfHart hk) (fun x =>
    let mine := x.dirty.filter (fun p => p.2.hart == hk)
    if mine.isEmpty then none else some (mine, some { x with dirty := x.dirty.filter (fun p => p.2.hart != hk) }))

/-- An acquire at `node` or `sys` scope: the device drops its clean copies of other devices' lines, and of a dirty one the
clean sectors (R289). -/
def dropClean (s : State) (dev : Nat) : State :=
  sweep s dev (fun x => some ([], if x.dirty.isEmpty then none
    else some { x with sectors := x.dirty.foldl (fun b p => b ||| BitVec.ofNat 8 (2 ^ p.1)) 0 }))

/-- The home slice of a line has other devices write back their copies, or with `drop` gives none of them back (R288, R396). -/
def recallLine (s : State) (drop : Bool) (l : Nat) : State :=
  let line := homeLoc s l / 512
  match SMap.find s.sharers line with
  | none => s
  | some v => (List.range 8).foldl (fun t d =>
      if v.devs.getLsbD d then
        sweep t d (fun x => if x.line = line then some (x.dirty, if drop then none else some { x with dirty := [] }) else none)
      else t) s

/-! ## Writes of `ART` registers (R321) -/

/-- Lines that sit in ways a register no longer reserves pass to unreserved ones: k of them, ordinary lines first, the least
recently used first. -/
def loseWays (i : Nat) : Nat → List L2Line → List L2Line
  | 0, ls => ls
  | k + 1, ls =>
    let c := inWay (some i) ls
    match (match (c.filter (fun x => !x.kept)).getLast? with | some x => some x | none => c.getLast?) with
    | some x => loseWays i k (ls.map (fun y => if y = x then { y with way := none, kept := false } else y))
    | none => ls

/-- Ordinary lines that sit in ways a register newly reserves stay in them: k of them, the least recently used first. -/
def gainWays (i : Nat) : Nat → List L2Line → List L2Line
  | 0, ls => ls
  | k + 1, ls =>
    match (match ((inWay none ls).filter (fun x => !x.revised)).getLast? with | some x => some x | none => (inWay none ls).getLast?) with
    | some x => gainWays i k (ls.map (fun y => if y = x then { y with way := some i } else y))
    | none => ls

/-- A set after a write of register i: retained lines out of its range or beyond its WAYS become ordinary in place, and no
line moves or is filled (R321). -/
def relaySet (i ways n : Nat) (inside : Nat → Bool) (ls : List L2Line) : List L2Line :=
  let ls := ls.map (fun x => if x.way = some i ∧ inside (x.line * 512) = false then { x with kept := false } else x)
  let ls := loseWays i ((inWay (some i) ls).length - ways) ls
  gainWays i ((inWay none ls).length - n) ls

/-- A register of a die is written, with effect in every slice of the die (R321). -/
def writeArt (s : State) (dk i : Nat) (v : DWord) : State :=
  let t := modDie s dk (fun d => { d with art := SMap.set 0 d.art i v })
  { t with l2 := SMap.each (fun key ls =>
      if dieOfSet key = dk then
        relaySet i (artWays (getDie t dk) i) (openWays t dk) (fun a => decide (retainedBy t dk a = some i)) ls
      else ls) t.l2 }

/-! ## Compression (R326, R327) -/

/-- The configuration of some die of a device enables compression, which reserves the top 1/1,024 of its memory for metadata
(R326). -/
def metaReserved (s : State) (dev : Nat) : Bool := (diesOfDev dev).any (fun dk => (dieCfg s dk).cmp)

/-- The line of a location as its home slice holds it. -/
def homeLine (s : State) (l : Nat) : Option L2Line :=
  (linesOf s (setKey s (homeDev l) l)).find? (fun x => x.line == l / 512)

/-- A line leaves its home slice. -/
def dropLine (s : State) (l : Nat) : State :=
  let key := setKey s (homeDev l) l
  setLines s key ((linesOf s key).filter (fun x => x.line != l / 512))

end Sys2Proof.Machine
end

