-- ==== Sys2Proof/Machine/Translate.lean ====
section
/-! DEFINITION. Where an access goes (R144 to R147, R301 to R313, R322, R373): windows, alignment, translation through
the TLBs and the tables, rights, and the refusals found at the target. -/
namespace Sys2Proof.Machine

open Sys2Proof

/-! ## Trap causes, by their HCAUSE code, and their INFO (R31, R271) -/

/-- What an access does at its target (R306, R310). -/
inductive Kind where
  | load | store | atomic | fill | fetch
deriving DecidableEq, Repr

/-- The access writes (R271, R312). -/
def Kind.writes : Kind → Bool
  | .store => true | .atomic => true | .fill => true | _ => false

/-- ILLEGAL-INSTRUCTION (R31). -/
def cILLEGALINSTRUCTION : Nat := 1
/-- ILLEGAL-OPERAND (R31). -/
def cILLEGALOPERAND : Nat := 2
/-- ILLEGAL-CONVOY (R31). -/
def cILLEGALCONVOY : Nat := 3

/-- PAGE-FAULT (R31). -/
def cPAGEFAULT : Nat := 4
/-- INFO of a PAGE-FAULT: reason, write, fetch (R271). -/
def pageInfo (reason : Nat) (k : Kind) : Nat := reason * 16 + b2n k.writes * 2 + b2n (decide (k = .fetch))

/-- WINDOW-FAULT (R31). -/
def cWINDOWFAULT : Nat := 5
/-- WINDOW-STRADDLE (R31). -/
def cWINDOWSTRADDLE : Nat := 6
/-- Bits [63:56] of an address (R301). -/
def windowOf (va : DWord) : Nat := bits va 63 56
/-- INFO of a WINDOW-FAULT (R271). -/
def windowInfo (va : DWord) (k : Kind) : Nat := windowOf va * 256 + b2n (decide (k = .fetch))

/-- REMOTE-NACK (R31). -/
def cREMOTENACK : Nat := 7
/-- INFO of a REMOTE-NACK (R271). -/
def nackInfo (k : Kind) (src : Nat) : Nat := b2n k.writes * 4 + src

/-- ALIGN (R31). -/
def cALIGN : Nat := 8
/-- log2 of an alignment. -/
def alignInfo (al : Nat) (fetch : Bool) : Nat := al.log2 * 16 + b2n fetch

/-- ACC-CLAIM (R31). -/
def cACCCLAIM : Nat := 9
/-- POISON (R31). -/
def cPOISON : Nat := 10
/-- CANCEL (R31). -/
def cCANCEL : Nat := 11
/-- PRE-EMPT (R31). -/
def cPREEMPT : Nat := 12
/-- COMMAND-FAULT (R31). -/
def cCOMMANDFAULT : Nat := 13
/-- SYSTEM-CALL (R31). -/
def cSYSTEMCALL : Nat := 14
/-- BREAKPOINT (R31). -/
def cBREAKPOINT : Nat := 15

/-- The outcome of a check: the value and the state with the translations it filled; a fault with cause, INFO and
address; or a translation that is still being fetched (R146). -/
inductive Chk (α : Type) where
  | ok (v : α) (s : State)
  | fault (cause info : Nat) (addr : DWord) (s : State)
  | miss (s : State)

/-- The translation structures of its core that an access goes through (R311): the fetch-and-scalar TLB, the gather banks, or
for a unit-stride vector access that lies in one page the hart's unit-stride register. -/
inductive Path where
  | scalar | gather | unit
deriving DecidableEq, Repr

/-- Who makes an access: hart, context, mode. -/
structure Agent where
  hk : Nat
  ctx : Nat
  mode : Nat
deriving DecidableEq, Repr

/-- A hart as the agent of its own accesses. -/
def agentOf (s : State) (hk : Nat) : Agent :=
  let h := getHart s hk
  ⟨hk, h.ctxid.toNat, h.mode⟩

/-! ## Entries and tables (R307 to R310) -/

/-- log2 of the page size of an entry (R308). -/
def entrySize (e : DWord) : Nat :=
  if bits e 28 27 = 1 then 21 else if bits e 28 27 = 2 then 30 else 16

/-- A leaf that breaks R307 or R308. -/
def leafBad (e : DWord) : Bool :=
  let pfn := bits e 63 32
  let cls := pfn / 2 ^ 28
  decide (bits e 31 29 ≥ 4) || decide (bits e 28 27 = 3)
    || (decide (bits e 28 27 = 1) && decide (pfn % 32 ≠ 0))
    || (decide (bits e 28 27 = 2) && decide (pfn % 16384 ≠ 0))
    || (bit e 26 && decide (cls ≠ 0)) || decide (bits e 21 2 ≠ 0)
    || decide (cls ≥ 4) || (decide (cls = 0) && decide (pfn / 2 ^ 25 % 8 ≠ 0))

/-- The result of a walk: the leaf and its page size, or the reason code of R271. -/
inductive WalkRes where
  | leaf (e : DWord) (size : Nat)
  | notMapped
  | badLeaf
deriving DecidableEq, Repr

/-- A pointer entry is well formed for a next table of a size (R309). -/
def pointerOk (e : DWord) (next : Nat) : Bool :=
  let a := bits e 47 8 * 256
  decide (next ≠ 0 ∧ bits e 7 2 = 0 ∧ bits e 63 48 = 0 ∧ a % next = 0 ∧ classOf a ≤ 1)
    && (decide (classOf a = 1) || decide (a / 2 ^ 41 % 8 = 0))

/-- The walk of the default table over its remaining levels: index bits, the SIZE a leaf has there (3 for none), and the
size of the next table in bytes (R309). -/
def walkLevels (s : State) (va : Nat) : List (Nat × Nat × Nat × Nat) → Nat → WalkRes
  | [], _ => .notMapped
  | (hi, lo, size, next) :: ls, table =>
    let e := BitVec.ofNat 64 (readN s (table + 8 * ((va >>> lo) % 2 ^ (hi + 1 - lo))) 8)
    if bit e 0 = false then .notMapped
    else if bit e 1 then
      (if size = 3 ∨ bits e 28 27 ≠ size ∨ leafBad e = true then .badLeaf else .leaf e (entrySize e))
    else if pointerOk e next then walkLevels s va ls (bits e 47 8 * 256) else .badLeaf

/-- The four levels of R309. -/
def walkShape : List (Nat × Nat × Nat × Nat) :=
  [(55, 43, 3, 65536), (42, 30, 2, 4096), (29, 21, 1, 256), (20, 16, 0, 0)]

/-- The walk of a context's default table; a context that does not exist maps nothing (R309, R374). -/
def walk (s : State) (dev ctx va : Nat) : WalkRes :=
  match SMap.find s.ctxs (dev * 65536 + ctx) with
  | none => .notMapped
  | some c => walkLevels s va walkShape (c.words.getD 1 0).toNat

/-- The locations of the entries that a walk reads (R309). -/
def walkReads (s : State) (va : Nat) : List (Nat × Nat × Nat × Nat) → Nat → List Nat
  | [], _ => []
  | (hi, lo, _, next) :: ls, table =>
    let slot := table + 8 * ((va >>> lo) % 2 ^ (hi + 1 - lo))
    let e := BitVec.ofNat 64 (readN s slot 8)
    slot :: (if bit e 0 && !bit e 1 && pointerOk e next then walkReads s va ls (bits e 47 8 * 256) else [])

/-- A walk for a device reads its entries through the device's slices (R288, R309, R318). -/
def touchWalk (s : State) (dev ctx va : Nat) : State :=
  match SMap.find s.ctxs (dev * 65536 + ctx) with
  | none => s
  | some c => (walkReads s va walkShape (c.words.getD 1 0).toNat).foldl (fun t l => touchSector t dev none l) s

/-- An entry permits an access (R310). -/
def permits (e : DWord) (k : Kind) (mode : Nat) : Bool :=
  (match k with
    | .load => bit e 23
    | .store => bit e 24
    | .atomic => bit e 23 && bit e 24
    | .fill => bit e 24
    | .fetch => bit e 25) && (decide (mode ≠ 0) || bit e 22)

/-- The physical address an entry gives a virtual address (R308). -/
def physOf (e : DWord) (size va : Nat) : Nat := (bits e 63 32 * 65536 + va % 2 ^ size) % 2 ^ 48

/-- The aperture entry of a device's fabric port that a class-3 address names (R399). -/
def apertureOf (s : State) (dev l : Nat) : Option (Nat × Nat × Nat) := SMap.find (getDev s dev).aperture (l / 2 ^ 38 % 64)

/-- Where a physical address leads: a class-3 address whose aperture entry names this node is the class-0 address it
stands for (R399). -/
def fabLoc (s : State) (dev l : Nat) : Nat :=
  if classOf l = 3 then
    match apertureOf s dev l with
    | some (node, d, base) => if node = s.node then d % 8 * 2 ^ 38 + (base + l % 2 ^ 38) % 2 ^ 38 else l
    | none => l
  else l

/-- The first entry of a TLB that holds an address of a context. -/
def tlbFind (es : List TlbEnt) (ctx va : Nat) : Option TlbEnt :=
  es.find? (fun e => decide (e.ctx = ctx) && decide (e.page = va >>> e.size))

/-- The gather bank of an address (R311). -/
def bankOf (va : Nat) : Nat := va / 65536 % 16

/-- The entry that a core's gather banks hold for an address (R311). -/
def bankEntry (c : Core) (ctx va : Nat) : Option TlbEnt :=
  tlbFind ((c.gtlb.filter (fun g => g.1 == bankOf va)).map Prod.snd) ctx va

/-- The entry a core's own structures hold for an address: the fetch-and-scalar TLB, the gather bank, or the unit-stride
register of a hart whose access lies in its page (R311). -/
def coreEntry (s : State) (hk ctx va : Nat) (p : Path) : Option TlbEnt :=
  let c := getCore s (coreOf hk)
  match p with
  | .scalar => tlbFind c.tlb ctx va
  | .gather => bankEntry c ctx va
  | .unit => match tlbFind (getHart s hk).ustride.toList ctx va with
    | some e => some e
    | none => bankEntry c ctx va

/-- A core's structures with an entry entered, the oldest leaving at capacity (R311; DESIGN CHOICE, log 9). -/
def coreFill (c : Core) (e : TlbEnt) (va : Nat) (p : Path) : Core :=
  if p ≠ .scalar then
    let b := bankOf va
    let mine := (b, e) :: (c.gtlb.filter (fun g => g.1 == b)).take 31
    { c with gtlb := mine ++ c.gtlb.filter (fun g => g.1 != b) }
  else { c with tlb := (e :: c.tlb).take 64 }

/-- The cluster TLB with an entry entered, 8-way in 512 sets by page number, the oldest of the set leaving (R311;
DESIGN CHOICE, log 9). -/
def clusFill (c : Cluster) (e : TlbEnt) : Cluster :=
  let st (x : TlbEnt) : Nat := x.page % 512
  { c with ctlb := e :: (c.ctlb.filter (fun x => st x == st e)).take 7 ++ c.ctlb.filter (fun x => st x != st e) }

/-! ## Misses served by the translation service core (R312) -/

/-- The lowest request tag not outstanding (R312). -/
def freeTag (ms : List Miss) : Option Nat := (List.range 64).find? (fun t => !(ms.any (fun m => m.tag == t)))

/-- KIND of a request, but for its bit 3, which an engine hart sets (R312). -/
def kindCode (k : Kind) : Nat :=
  b2n k.writes + 2 * b2n (decide (k = .fetch)) + 4 * b2n (decide (k = .atomic))

/-- The 16 bytes of a request message (R312). -/
def requestMsg (va : DWord) (ctx req kind tag : Nat) : Msg :=
  bytesOf va.toNat 8 ++ bytesOf ctx 2 ++ bytesOf req 2 ++ bytesOf kind 1 ++ bytesOf 0 1 ++ bytesOf tag 2

/-- A hart parked on an empty receive queue q is woken when a message enters it (R238, R276). -/
def wakeRecv (h : Hart) (q : Nat) : Hart :=
  match h.wait with
  | .recv p => if p = q then h.wake else h
  | .wfi => if h.st = .parked then { h.wake with grant := some 0 } else h
  | _ => h

/-- A message enters a receive queue, and a hart that waits on it wakes (R237, R238). -/
def deliver (s : State) (hk q : Nat) (m : Msg) : State :=
  let h := getHart s hk
  setHart s hk (wakeRecv { h with rq := SMap.set [] h.rq q (SMap.get [] h.rq q ++ [m]) } q)

/-- A cluster TLB miss: it joins an outstanding request for the page, or sends a new one when a tag and room in receive
queue 0 are free; otherwise it waits in the cluster unit (R312). -/
def requestTranslation (s : State) (hk ctx : Nat) (va : DWord) (k : Nat) : State :=
  let clk := clusKey (coreOf hk)
  let c := getClus s clk
  let page := va.toNat % 2 ^ 56 / 65536
  match c.misses.find? (fun m => m.ctx == ctx && m.page == page) with
  | some m =>
    if m.harts.contains hk then s
    else setClus s clk { c with misses := c.misses.map (fun x =>
      if x.tag = m.tag then { x with harts := x.harts ++ [hk] } else x) }
  | none =>
    let t := tscOf clk * 8
    match freeTag c.misses with
    | none => s
    | some tag =>
      if (SMap.get [] (getHart s t).rq 0).length ≥ 8 then s
      else
        let s1 := setClus s clk { c with misses := c.misses ++ [⟨tag, ctx, page, [hk], k, va, false⟩] }
        deliver s1 t 0 (requestMsg va ctx ((coreNum (coreOf hk) * 8 + hartNo hk) % 8192) k tag)

/-! ## Translation of one address -/

/-- An entry is checked against the access and gives its location (R310, R322). -/
def useEntry (s : State) (a : Agent) (k : Kind) (va : DWord) (e : DWord) (size : Nat) : Chk Nat :=
  let pa := fabLoc s (devOfHart a.hk) (physOf e size va.toNat)
  if bit e 0 = false then .fault cPAGEFAULT (pageInfo 0 k) va s
  else if permits e k a.mode = false then .fault cPAGEFAULT (pageInfo 1 k) va s
  else if a.mode ≠ 3 ∧ inCaddy s pa = true then .fault cPAGEFAULT (pageInfo 1 k) va s
  else .ok pa (noteSkew s pa e)

/-- The location of a global address for a hart: through its core's TLBs and its cluster's. A miss there asks the cluster's
translation service core, whose own harts reach memory through the tables that they walk (R9, R277, R310 to R313). -/
def translate (s : State) (a : Agent) (k : Kind) (va : DWord) (p : Path) : Chk Nat :=
  let v := va.toNat % 2 ^ 56
  let ck := coreOf a.hk
  let clk := clusKey ck
  match coreEntry s a.hk a.ctx v p with
  | some e => useEntry s a k va e.entry e.size
  | none =>
    let cl := getClus s clk
    match tlbFind cl.ctlb a.ctx v with
    | some e => useEntry (modCore s ck (fun c => coreFill c e v p)) a k va e.entry e.size
    | none =>
      match cl.fails.find? (fun f => f.1 == a.hk && f.2.1 == a.ctx && f.2.2.1 == v / 65536) with
      | some f => .fault cPAGEFAULT (pageInfo f.2.2.2 k) va
          (setClus s clk { cl with fails := cl.fails.filter (fun g => g != f) })
      | none =>
        if isTsc (unitOf ck) then
          let u := touchWalk s (devOfHart a.hk) a.ctx v
          match walk s (devOfHart a.hk) a.ctx v with
          | .notMapped => .fault cPAGEFAULT (pageInfo 0 k) va u
          | .badLeaf => .fault cPAGEFAULT (pageInfo 2 k) va u
          | .leaf e z =>
            let t : TlbEnt := ⟨a.ctx, v >>> z, z, e⟩
            useEntry (modCore (modClus u clk (fun c => clusFill c t)) ck (fun c => coreFill c t v p)) a k va e z
        else .miss (requestTranslation s a.hk a.ctx va (kindCode k + 8 * b2n (isEngine a.hk)))

/-! ## Windows (R144, R301 to R304) -/

/-- Offset, within the grid, of a mesh-relative address (R303). -/
def relLoc (ck : Nat) (va : DWord) : Option Nat :=
  let u := unitOf ck
  let dev : Int := devOf (dieOf ck) + toSigned 3 (bits va 32 30)
  let die : Int := dieNo (dieOf ck) + toSigned 3 (bits va 29 27)
  let x : Int := (if isTile u then tileX u else 15) + toSigned 4 (bits va 26 23)
  let y : Int := (if isTile u then tileY u else 0) + toSigned 3 (bits va 22 20)
  if 0 ≤ dev ∧ dev < 8 ∧ 0 ≤ die ∧ die < 8 ∧ 0 ≤ x ∧ x < 12 ∧ 0 ≤ y ∧ y < 8 then
    some (scratchLoc (mkCore dev.toNat die.toNat (y.toNat * 12 + x.toNat)) (bits va 19 0))
  else none

/-- The scratchpad location of an address in windows 0xE0 to 0xE2; none for a WINDOW-FAULT (R301 to R303). A core that
has no scratchpad of its own (R9) reaches none through 0xE0. -/
def scratchOf (ck : Nat) (va : DWord) : Option Nat :=
  if windowOf va = 0xE0 then
    (if bits va 55 20 = 0 ∧ isTile (unitOf ck) = true then some (scratchLoc ck (bits va 19 0)) else none)
  else if windowOf va = 0xE1 then
    (if bits va 55 33 = 0 ∧ bits va 26 23 < 12 then some (scratchBase + bits va 32 0) else none)
  else if windowOf va = 0xE2 then (if bits va 55 33 = 0 then relLoc ck va else none)
  else none

/-- n bytes of a core's scratchpad from an offset touch a reserved mesh buffer of 34 KiB (R357). -/
def inMesh (c : Core) (ofs n : Nat) : Bool :=
  c.meshes.any (fun m => decide (m.1 < ofs + n ∧ ofs < m.1 + 34816))

/-- The pieces (location and length) of an access of n bytes in the global window, split at 64 KiB boundaries and
translated one by one (R145). -/
def globalPieces (s : State) (a : Agent) (k : Kind) (va : DWord) (n : Nat) (p : Path) : Chk (List (Nat × Nat)) :=
  let first := 65536 - va.toNat % 65536
  if n ≤ first then
    match translate s a k va p with
    | .ok l t => .ok [(l, n)] t
    | .fault c i _ t => .fault c i va t
    | .miss t => .miss t
  else
    match translate s a k va p with
    | .ok l t =>
      (match translate t a k (va + BitVec.ofNat 64 first) p with
        | .ok m u => .ok [(l, first), (m, n - first)] u
        | .fault c i _ u => .fault c i va u
        | .miss u => .miss u)
    | .fault c i _ t => .fault c i va t
    | .miss t => .miss t

/-- One element of n bytes is checked in the order of R146 and gives its pieces; an address in the event window raises
WINDOW-FAULT here (R168). -/
def elemCheck (s : State) (a : Agent) (k : Kind) (va : DWord) (n al : Nat) (p : Path) : Chk (List (Nat × Nat)) :=
  let w := windowOf va
  let last := va + BitVec.ofNat 64 (n - 1)
  let straddle : Chk (List (Nat × Nat)) := .fault cWINDOWSTRADDLE (windowOf last * 65536 + w * 256) va s
  if w = 0 then
    if windowOf last ≠ 0 then straddle
    else if va.toNat % al ≠ 0 then .fault cALIGN (alignInfo al false) va s
    else globalPieces s a k va n p
  else
    match scratchOf (coreOf a.hk) va with
    | none => .fault cWINDOWFAULT (windowInfo va k) va s
    | some l =>
      if scratchCore l = coreOf a.hk ∧ inMesh (getCore s (coreOf a.hk)) (scratchOfs l) n = true then
        .fault cWINDOWFAULT (windowInfo va k) va s
      else if scratchOfs l + n > 2 ^ 20 then straddle
      else if va.toNat % al ≠ 0 then .fault cALIGN (alignInfo al false) va s
      else .ok [(l, n)] s

/-! ## Refusals at the target (R147, R304 to R306, R373, R389, R407) -/

/-- A window of a core's SPW registers accepts an element (R306). -/
def spwAccepts (c : Core) (ctx ofs n : Nat) (k : Kind) : Bool :=
  (List.range 4).any (fun i =>
    let w := SMap.get 0 c.spw i
    bit w 63 && (decide (bits w 47 32 = 0xFFFF) || decide (bits w 47 32 = ctx))
      && decide (bits w 13 0 ≤ ofs / 64 ∧ (ofs + n - 1) / 64 ≤ bits w 29 16)
      && (match k with
          | .load => bit w 62
          | .store => bit w 61
          | .atomic => bit w 60
          | .fill => bit w 60
          | .fetch => false))

/-- FWCTL of the firmware-column end of an access lets it pass: the firewall is off or debugging is on (R372, R373). -/
def fwctlOpen (c : Core) : Bool := !bit c.fwctl 63 || bit c.fwctl 0

/-- The firewall passes a scratchpad access between two cores (R304, R373). -/
def firewallPasses (s : State) (src dst : Nat) : Bool :=
  if isCompute s src && isFwCore s dst then fwctlOpen (getCore s dst)
  else if isFwCore s src && isCompute s dst then fwctlOpen (getCore s src)
  else true

/-- Port p of a device is up (R390). -/
def portUp (s : State) (dev p : Nat) : Bool := decide (bits (SMap.get 0 (getDev s dev).rlstat p) 1 0 = 2)
/-- The Ratal Link port between two devices is up on both sides (R395). -/
def linkUp (s : State) (a b : Nat) : Bool :=
  decide (a = b) || (portUp s a (Nat.xor a b - 1) && portUp s b (Nat.xor a b - 1))
/-- Traffic from a device to another has a route: its port, or another device reachable from both sides (R396). -/
def routed (s : State) (a b : Nat) : Bool := linkUp s a b || (List.range 8).any (fun c => linkUp s a c && linkUp s c b)
/-- The device that holds a location: the home of a line, the device of a register or of a scratchpad (R302, R307,
R388). -/
def holderDev (dev l : Nat) : Nat :=
  if isScratch l then devOf (dieOf (scratchCore l))
  else if classOf l = 0 ∨ classOf l = 2 then homeDev l else dev

/-- Some Ethernet port of a device is up (R390, R398). -/
def etherUp (s : State) (dev : Nat) : Bool :=
  (List.range 16).any (fun p => decide (bits (SMap.get 0 (getDev s dev).ethstat p) 1 0 = 2))

/-- n bytes from a location reach a poisoned sector, one that a store covers whole apart (R407). -/
def poisonedPiece (s : State) (k : Kind) (l n : Nat) : Bool :=
  (List.range ((l + n + 63) / 64 - l / 64)).any (fun j =>
    let q := 64 * (l / 64 + j)
    isPoisoned s q && !decide (k = .store ∧ l ≤ q ∧ q + 64 ≤ l + n))

/-- The refusal of one piece of an element at its target, if any: REMOTE-NACK from the firewall, the SPW registers, a
mesh buffer, a register window or an invalid aperture entry; POISON from a poisoned sector
or an unreachable device (R147, R357, R373, R389, R396, R399, R407). -/
def refusal (s : State) (a : Agent) (k : Kind) (va : DWord) (p : Nat × Nat) : Option Async :=
  let nack : Option Async := some ⟨cREMOTENACK, nackInfo k 0, va⟩
  let l := p.1
  let ck := coreOf a.hk
  let poisoned := poisonedPiece s k l p.2
  if routed s (devOfHart a.hk) (holderDev (devOfHart a.hk) l) = false then some ⟨cPOISON, 0, va⟩
  else if isScratch l then
    if scratchCore l = ck then (if poisoned then some ⟨cPOISON, 0, va⟩ else none)
    else if firewallPasses s ck (scratchCore l) = false then nack
    else if inMesh (getCore s (scratchCore l)) (scratchOfs l) p.2 then nack
    else if spwAccepts (getCore s (scratchCore l)) a.ctx (scratchOfs l) p.2 k = false then nack
    else if poisoned then some ⟨cPOISON, 0, va⟩ else none
  else if classOf l = 2 then nack
  else if classOf l = 3 then 
    (if (apertureOf s (devOfHart a.hk) l).isSome && etherUp s (devOfHart a.hk) then none else nack)
  else if isCompute s ck && inFwRegion s (devOfHart a.hk) l p.2 then nack
  else if poisoned then some ⟨cPOISON, 0, va⟩
  else none

/-- The refusal of an element: that of its first refused piece. -/
def refusalOf (s : State) (a : Agent) (k : Kind) (va : DWord) : List (Nat × Nat) → Option Async
  | [] => none
  | p :: ps => match refusal s a k va p with | some r => some r | none => refusalOf s a k va ps

/-! ## Accesses made on a context's behalf (R310, R431) -/

/-- The location of a global address as a user access of a context, by a walk alone (R310, R322, R431). -/
def ctxLoc (s : State) (dev ctx : Nat) (k : Kind) (va : Nat) : Option Nat :=
  if va / 2 ^ 56 ≠ 0 then none
  else match walk s dev ctx va with
    | .leaf e z =>
      let pa := fabLoc s dev (physOf e z va)
      if permits e k 0 && !inCaddy s pa then some pa else none
    | _ => none

/-- The locations of n bytes from a global address as a user access of a context. -/
def ctxLocs (s : State) (dev ctx : Nat) (k : Kind) (va : Nat) : Nat → Option (List Nat)
  | 0 => some []
  | n + 1 => do
    let l ← ctxLoc s dev ctx k va
    let ls ← ctxLocs s dev ctx k (va + 1) n
    some (l :: ls)

/-- The value at a list of byte locations, the first in the least significant bits. -/
def readLocs (s : State) : List Nat → Nat
  | [] => 0
  | l :: ls => (readByte s l).toNat + 256 * readLocs s ls

/-- A value is written to a list of byte locations. -/
def writeLocs (s : State) : List Nat → Nat → State
  | [], _ => s
  | l :: ls, v => writeLocs (writeByte s l (BitVec.ofNat 8 v)) ls (v / 256)

/-- Some location lies on a device that no route reaches, or behind an aperture entry that is not valid or that no port
serves (R396, R399). -/
def cutOff (s : State) (dev : Nat) (ls : List Nat) : Bool := ls.any (fun l =>
  if classOf l = 3 then (apertureOf s dev l).isNone || !etherUp s dev else !routed s dev (holderDev dev l))

/-- A store or load of a device goes to the node that an aperture entry names; none with no valid entry, or no port to carry it
(R399). -/
def fabricSend (s : State) (dev l data : Nat) : Option State :=
  match apertureOf s dev l with
  | some (node, d, base) =>
    if etherUp s dev then
      some (modDev s dev (fun x => { x with fabricOut := (node, d, (base + l % 2 ^ 38) % 2 ^ 38, data) :: x.fabricOut }))
    else none
  | none => none

/-- An operation of an agent for a context that no hart counts. -/
def issueAs (s : State) (agent dev ctx : Nat) (o : Op) : State :=
  let r := fresh s
  { r.2 with ops := SMap.put r.2.ops r.1 { o with hart := agent, ctx := dev * 65536 + ctx, counter := 0 } }

/-- An operation of a device that no hart counts. -/
def issueFree (s : State) (dev ctx : Nat) (o : Op) : State := issueAs s (devAgent dev) dev ctx o

/-- The first location in class 3 of a write by the device, and all above it, go out with their part of the value, behind what
the device has sent before (R399). -/
def sendAway (s : State) (dev ctx v : Nat) (ls : List Nat) : State :=
  match ls.findIdx? (fun l => decide (classOf l = 3)) with
  | some i => issueFree s dev ctx { hart := 0, counter := 0, scope := 6, fabric :=
      [{ addr := ls.getD i 0, n := ls.length - i, wr := true, data := v >>> (8 * i) }] }
  | none => s

/-- Some location's sector is poisoned and not covered by the locations (R407). -/
def partPoison (s : State) (ls : List Nat) : Bool :=
  ls.any (fun l => isPoisoned s l && !(List.range 64).all (fun j => ls.contains (l / 64 * 64 + j)))

/-- The sectors that byte locations lie in, one after another. -/
def sectorRun : List Nat → List Nat
  | [] => []
  | l :: ls => match sectorRun ls with
    | q :: qs => if q = l / 64 then q :: qs else l / 64 :: q :: qs
    | [] => [l / 64]

/-- Byte locations are reached through the slices that serve a device, at `dev` scope (R288, R318). -/
def touchLocs (s : State) (dev : Nat) (w : Option Writer) (ls : List Nat) : State :=
  (sectorRun ls).foldl (fun t q => touchSector t dev w (64 * q)) s

/-- The device writes a value to byte locations on a context's behalf: whole sectors lose their poison; none where a location is
cut off, or where the write covers part of a poisoned sector, and then nothing is written (R318, R327, R396, R399, R407). -/
def deviceWrite (s : State) (dev ctx v : Nat) (ls : List Nat) : Option State :=
  if cutOff s dev ls || partPoison s ls then none
  else some (sendAway (writeLocs (touchLocs ((ls.filter (isPoisoned s)).foldl unpoisonAt s) dev
    (some ⟨devAgent dev, dev * 65536 + ctx, BitVec.ofNat 64 (ls.headD 0)⟩) ls) ls v) dev ctx v ls)

/-- n bytes read as a user access of a context; none where it faults, meets poison or has no route. -/
def ctxRead (s : State) (dev ctx va n : Nat) : Option Nat := do
  let ls ← ctxLocs s dev ctx .load va n
  if ls.any (isPoisoned s) || cutOff s dev ls then none else some (readLocs s ls)

/-- n bytes that a device reads on a context's behalf pass through the slices that serve it (R288, R318). -/
def touchRead (s : State) (dev ctx va n : Nat) : State :=
  match ctxLocs s dev ctx .load va n with
  | some ls => touchLocs s dev none ls
  | none => s

/-- n bytes written as a user access of a context; none where it faults, has no route or meets poison that it does not cover. -/
def ctxWrite (s : State) (dev ctx va n v : Nat) : Option State := do
  let ls ← ctxLocs s dev ctx .store va n
  deviceWrite s dev ctx v ls

/-- 8-byte words read from an address upwards, as a user access of a context. -/
def ctxWords (s : State) (dev ctx va : Nat) : Nat → Option (List DWord)
  | 0 => some []
  | n + 1 => do
    let w ← ctxRead s dev ctx va 8
    let ws ← ctxWords s dev ctx (va + 8) n
    some (BitVec.ofNat 64 w :: ws)

end Sys2Proof.Machine
end

