-- ==== Sys2Proof/Machine/View.lean ====
section
/-! DEFINITION. What a task reads and writes: its buffered stores, its revision and its children's (R226, R299), and
the futures and wakes of the belay tables (R163 to R166, R352). -/
namespace Sys2Proof.Machine

open Sys2Proof

/-! ## Addresses by which buffers and revisions are keyed -/

/-- The address a store is buffered under: a scratchpad byte by its mesh-absolute address, a global byte by its virtual
address (R302, R330). -/
def keyVa (va : DWord) (loc : Nat) : Nat :=
  if isScratch loc then 0xE1 * 2 ^ 56 + (loc - scratchBase) else va.toNat

/-- A region holds an address (R224). -/
def Region.covers (r : Region) (va : Nat) : Bool := decide (r.base ≤ va ∧ va < r.base + r.len)
/-- Some region holds an address. -/
def inRegions (rs : List Region) (va : Nat) : Bool := rs.any (fun r => r.covers va)

/-! ## Buffers (R299) -/

/-- The byte a task's buffer holds for an address, newest store first; a nibble store changes its half. `under` is what
lies below the buffer. -/
def bufByte (va : Nat) (under : Byte) : List Buffered → Byte
  | [] => under
  | .store _ bs _ _ :: rest =>
    bufByte va (match bs.find? (fun p => p.1 == va) with | some p => p.2 | none => under) rest
  | .nibble _ a hi v _ _ :: rest =>
    bufByte va (if a = va then
      BitVec.ofNat 8 (if hi then under.toNat % 16 + v % 16 * 16 else under.toNat / 16 * 16 + v % 16) else under) rest
  | _ :: rest => bufByte va under rest

/-! ## Revisions (R226) -/

/-- A byte of a 64-byte sector value. -/
def sectorByte (v va : Nat) : Byte := BitVec.ofNat 8 (v >>> (8 * (va % 64)))
/-- A sector value with a byte replaced. -/
def setSectorByte (v va : Nat) (b : Byte) : Nat := setElem v (va % 64) 8 b.toNat

/-- The byte a task without its own buffer reads: its copy, else its cairn, else its parent's view, else memory; the
parent's buffer lies above what the parent reads. The fuel bounds the nesting of revisions (R226). -/
def revByte (s : State) : Nat → Nat → Nat → Nat → Byte
  | 0, _, _, loc => readByte s loc
  | fuel + 1, uid, va, loc =>
    match SMap.find s.revs uid with
    | none => readByte s loc
    | some r =>
      if inRegions r.regions va then
        match SMap.find r.copies (va / 64) with
        | some v => sectorByte v va
        | none =>
          match SMap.find r.cairns (va / 64) with
          | some v => sectorByte v va
          | none =>
            let under := revByte s fuel r.parent va loc
            match findTask s r.parent with
            | some t => if t.idem then bufByte va under t.buf else under
            | none => under
      else readByte s loc

/-- Nesting that a look-up can need. -/
def revFuel (s : State) : Nat := s.revs.length + 1

/-- The byte a task reads at an address (R226, R299). -/
def taskByte (s : State) (t : Task) (va loc : Nat) : Byte :=
  let under := revByte s (revFuel s) t.uid va loc
  if t.idem then bufByte va under t.buf else under

/-- The byte a hart reads: its task's view, or memory outside a task. -/
def hartByte (s : State) (hk va loc : Nat) : Byte :=
  match (getHart s hk).task with
  | some t => taskByte s t va loc
  | none => readByte s loc

/-- The bytes a hart reads at checked pieces from an address upwards (R4). -/
def viewPieces (s : State) (hk : Nat) (va : DWord) : List (Nat × Nat) → Nat
  | [] => 0
  | (l, n) :: ps =>
    valueOf ((List.range n).map (fun j => hartByte s hk (keyVa (va + BitVec.ofNat 64 j) (l + j)) (l + j)))
      + 2 ^ (8 * n) * viewPieces s hk (va + BitVec.ofNat 64 n) ps

/-- The value of a whole sector as a task reads it. -/
def sectorView (s : State) (t : Task) (va loc : Nat) : Nat :=
  valueOf ((List.range 64).map (fun j => taskByte s t (va / 64 * 64 + j) (loc / 64 * 64 + j)))

/-- The value of a whole sector as a child's parent reads it: the child's view with no copy or cairn of its own. -/
def parentView (s : State) (r : Rev) (va loc : Nat) : Nat :=
  valueOf ((List.range 64).map (fun j =>
    let a := va / 64 * 64 + j
    let l := loc / 64 * 64 + j
    let under := revByte s (revFuel s) r.parent a l
    match findTask s r.parent with
    | some t => if t.idem then bufByte a under t.buf else under
    | none => under))

/-- The state with a revision replaced. -/
def setRev (s : State) (uid : Nat) (r : Rev) : State := { s with revs := SMap.put s.revs uid r }

/-- A child's cairn of a sector is captured from its parent's view, once (R226). -/
def captureCairn (s : State) (uid va loc : Nat) : State :=
  match SMap.find s.revs uid with
  | none => s
  | some r =>
    if inRegions r.regions va && !(SMap.find r.cairns (va / 64)).isSome && !(SMap.find r.copies (va / 64)).isSome then
      let x : Held := ⟨r.ctx, uid, 0, va / 64⟩
      placeHeld (setRev (noteHeld s r.die x) uid { r with cairns := SMap.put r.cairns (va / 64) (parentView s r va loc) }) r.die x
    else s

/-- A byte written by a task outside any buffer: the cairns of its children are captured first; a byte of its own
revision goes to its private copy, any other to memory (R226). -/
def writeTaskByte (s : State) (t : Task) (va loc : Nat) (b : Byte) : State :=
  let s1 := t.children.foldl (fun u c => captureCairn u c.uid va loc) s
  match SMap.find s1.revs t.uid with
  | none => writeByte s1 loc b
  | some r0 =>
    if inRegions r0.regions va then
      let s2 := captureCairn s1 t.uid va loc
      match SMap.find s2.revs t.uid with
      | none => s2
      | some r =>
        let sector := va / 64
        let cur := match SMap.find r.copies sector with
          | some v => v
          | none => (SMap.find r.cairns sector).getD 0
        let x : Held := ⟨r.ctx, t.uid, 1, sector⟩
        placeHeld (setRev (noteHeld s2 r.die x) t.uid
          { r with copies := SMap.put r.copies sector (setSectorByte cur va b) }) r.die x
    else writeByte s1 loc b

/-- Bytes (address, location, value) are written outside any buffer, lowest first; a whole sector written clears its
poison (R407). -/
def writeTaskBytes (s : State) (t : Option Task) : List (Nat × Nat × Byte) → State
  | [] => s
  | (va, l, b) :: rest =>
    writeTaskBytes (match t with | some k => writeTaskByte s k va l b | none => writeByte s l b) t rest

/-- The addresses, locations and bytes of a value at checked pieces. -/
def spread (va : DWord) : List (Nat × Nat) → Nat → List (Nat × Nat × Byte)
  | [], _ => []
  | (l, n) :: ps, v =>
    (List.range n).map (fun j => (keyVa (va + BitVec.ofNat 64 j) (l + j), l + j, byteOf v j))
      ++ spread (va + BitVec.ofNat 64 n) ps (v >>> (8 * n))

/-- The state with a hart's task changed. -/
def modTask (s : State) (hk : Nat) (f : Task → Task) : State :=
  modHart s hk (fun h => { h with task := h.task.map f })

/-- Whole sectors that a store of n bytes at a location covers lose their poison (R407). -/
def clearPoison (s : State) (l n : Nat) : State :=
  (List.range (n / 64)).foldl (fun t k => unpoisonAt t (l + 64 * k)) s

/-- An entry enters the buffer of a hart's task, which the die's revision store holds with the sectors it writes (R299,
R323). -/
def bufferEntry (s : State) (hk : Nat) (e : Buffered) : State :=
  match (getHart s hk).task with
  | none => s
  | some t =>
    let dk := dieOf (coreOf hk)
    let held := ((e.addrs.map (· / 64)).eraseDups).map (fun k => (⟨(getHart s hk).ctxid.toNat, t.uid, 2, k⟩ : Held))
    let s1 := held.foldl (fun u x => noteHeld u dk x) s
    held.foldl (fun u x => placeHeld u dk x) (modTask s1 hk (fun t => { t with buf := t.buf ++ [e] }))

/-- The first write of a task to a sector of a revision captures its cairn: of its own revision, and of each child's (R226). -/
def captureCairns (s : State) (t : Task) (va loc : Nat) : State :=
  t.children.foldl (fun w c => captureCairn w c.uid va loc) (captureCairn s t.uid va loc)

/-- A checked store by a hart, with its evict-first hint: buffered in an idempotent task, else written through its task's view
(R75, R226, R299). -/
def storePieces (s : State) (hk scope : Nat) (evf : Bool) (va : DWord) (ps : List (Nat × Nat)) (v : Nat) : State :=
  match (getHart s hk).task with
  | some t =>
    if t.idem then
      let s := (spread va ps v).foldl (fun u q => captureCairns u t q.1 q.2.1) s
      bufferEntry s hk (.store scope ((spread va ps v).map (fun q => (q.1, q.2.2))) t.sect evf)
    else ps.foldl (fun u p => if p.1 % 64 = 0 then clearPoison u p.1 p.2 else u)
      (writeTaskBytes s (some t) (spread va ps v))
  | none => ps.foldl (fun u p => if p.1 % 64 = 0 then clearPoison u p.1 p.2 else u)
      (writeTaskBytes s none (spread va ps v))

/-! ## The revision store's room (R226, R323, R324) -/

/-- Sectors of a context that a die has moved to its spill area (R323). -/
def spilledSectors (s : State) (ctx dk : Nat) : Nat := ((spilledOn s dk).filter (fun x => x.ctx == ctx)).length

/-- SIZE and QBYTES of a context's spill area, from the header firmware wrote (R324). -/
def spillSizes (s : State) (dev ctx : Nat) : Nat × Nat :=
  match SMap.find s.ctxs (dev * 65536 + ctx) with
  | none => (0, 0)
  | some c =>
    let b := (c.words.getD 2 0).toNat
    (readN s b 8, readN s (b + 8) 8)

/-- The context whose sector a die moves to its spill area when a further sector of a context enters a full store: that of the
oldest sector not yet moved (R323). -/
def movesNext (s : State) (ctx dk : Nat) : Nat :=
  match ((heldOn s dk).drop (spilledOn s dk).length).head? with
  | some x => x.ctx
  | none => ctx

/-- A further sector of a context on a die finds the die's revision store full, and the part for revisions of the spill area of
the context whose sector has to move, which serves every die of the device, full too (R226, R323, R324). -/
def revFull (s : State) (ctx dk : Nat) : Bool :=
  let c := movesNext s ctx dk
  let z := spillSizes s (devOf dk) c
  let spilled := ((diesOfDev (devOf dk)).map (spilledSectors s c)).sum
  decide ((heldOn s dk).length ≥ revCapacity s dk ∧ spilled ≥ (z.1 - z.2) / 128)

/-- A task's revision and its descendants', by following parents (R223). -/
def descends (s : State) : Nat → Nat → Nat → Bool
  | 0, uid, top => uid == top
  | fuel + 1, uid, top =>
    uid == top || (match SMap.find s.revs uid with | some r => descends s fuel r.parent top | none => false)

/-! ## Futures and wakes (R163 to R165, R352) -/

/-- The clusters in the scope instance of an access from a cluster, as R165 counts them. -/
def scopeClusters (clk scope : Nat) : List Nat :=
  let dk := clk / 16
  let ofDie (d : Nat) : List Nat := (List.range 12).map (fun c => d * 16 + c)
  if scope ≤ 2 then [clk]
  else if scope = 3 then ofDie dk
  else if scope = 4 then (diesOfDev (devOf dk)).flatMap ofDie
  else (List.range 64).flatMap ofDie

/-- A wake for a location is sent to the belay tables of a scope instance that hold an entry for it (R165). -/
def sendWakes (s : State) (clk scope loc : Nat) : State :=
  (scopeClusters clk scope).foldl (fun t c =>
    if (getClus t c).belay.any (fun e => e.2 == loc) then post t (.belayWake c loc) else t) s

/-- A future is filled with a value and bit 63, and its waiters are woken (R163, R165). -/
def fillAt (s : State) (locs : List Nat) (v clk scope : Nat) : State :=
  sendWakes (writeLocs s locs (v % 2 ^ 63 + 2 ^ 63)) clk scope (homeLoc s (locs.headD 0))

/-- A die's agent fills a future at its locations for a context: through the slices that serve it, or at another node (R165, R318,
R399). -/
def fillFor (s : State) (dk ctx : Nat) (ls : List Nat) (v scope : Nat) : State :=
  let dev := devOf dk
  let at_ := if 5 ≤ scope ∧ classOf (ls.headD 0) = 0 then homeDev (ls.headD 0) else dev
  let s1 := if 5 ≤ scope then recallLine s true (ls.headD 0) else s
  sendAway (fillAt (touchLocs s1 at_ (some ⟨devAgent dev, dev * 65536 + ctx, BitVec.ofNat 64 (ls.headD 0)⟩) ls) ls v (dk * 16)
    scope) dev ctx (v % 2 ^ 63 + 2 ^ 63) ls

/-- The device fills a future on a context's behalf; none where the write faults (R165, R431). -/
def ctxFill (s : State) (dk ctx va v scope : Nat) : Option State := do
  let ls ← ctxLocs s (devOf dk) ctx .fill va 8
  if va % 8 ≠ 0 ∨ ls.any (isPoisoned s) ∨ cutOff s (devOf dk) ls then none
  else some (fillFor s dk ctx ls v scope)

/-! ## Accesses on behalf of a submission queue's owner (R375, R376) -/

/-- A physical address of class 0 or 1 that is no bad one (R307, R432). -/
def physOk (a : Nat) : Bool := decide (classOf a = 1) || (decide (classOf a = 0) && decide (a / 2 ^ 41 % 8 = 0))

/-- Locations of n bytes for a queue's owner: the host's queue, of context 0, gives physical addresses, and another queue
virtual ones of its context (R375, R376; log 13). -/
def ownerLocs (s : State) (dev ctx : Nat) (k : Kind) (va n : Nat) : Option (List Nat) :=
  if ctx = 0 then
    let ls := (List.range n).map (va + ·)
    if ls.all physOk then some ls else none
  else ctxLocs s dev ctx k va n

/-- n bytes read for a queue's owner. -/
def ownerRead (s : State) (dev ctx va n : Nat) : Option Nat := do
  let ls ← ownerLocs s dev ctx .load va n
  if ls.any (isPoisoned s) || cutOff s dev ls then none else some (readLocs s ls)

/-- n words read for a queue's owner. -/
def ownerWords (s : State) (dev ctx va n : Nat) : Option (List DWord) :=
  (ownerRead s dev ctx va (8 * n)).map (fun v => (List.range n).map (fun k => BitVec.ofNat 64 (v >>> (64 * k))))

/-- n bytes written for a queue's owner; nothing where that faults. -/
def ownerWrite (s : State) (dev ctx va n v : Nat) : State :=
  match ownerLocs s dev ctx .store va n with
  | some ls => (deviceWrite s dev ctx v ls).getD s
  | none => s

/-- A future is filled for a queue's owner; nothing at address 0 and where that faults. -/
def ownerFill (s : State) (dk ctx va v scope : Nat) : State :=
  match ownerLocs s (devOf dk) ctx .fill va 8 with
  | some ls =>
    if va = 0 ∨ va % 8 ≠ 0 ∨ ls.any (isPoisoned s) = true ∨ cutOff s (devOf dk) ls = true then s
    else fillFor s dk ctx ls v scope
  | none => s

/-- The entries a hart holds in its cluster's belay table are released. -/
def disarm (s : State) (hk : Nat) : State :=
  modClus s (clusKey (coreOf hk)) (fun c => { c with belay := c.belay.filter (fun e => e.1 != hk) })

/-- An entry is free for a hart: its reserved entry, or one of the 192 shared ones (R163). A hart of the translation service core has
a first entry of its own beside them (DESIGN CHOICE, log 91). -/
def canArm (c : Cluster) (hk : Nat) : Bool :=
  let mine := (c.belay.filter (fun e => e.1 == hk)).length
  let waiting := (c.belay.map Prod.fst).eraseDups.length
  decide (mine = 0) || decide (c.belay.length - waiting < 192)

/-! ## Outstanding operations (R149) -/

/-- The context a hart runs in, with its device: device * 65536 + CTXID. -/
def ctxKeyOf (s : State) (hk : Nat) : Nat := devOfHart hk * 65536 + (getHart s hk).ctxid.toNat

/-- An issued operation of a hart enters the table as its context's, and its counter rises (R149). -/
def issueOp (s : State) (o : Op) : State :=
  let r := fresh s
  let t := { r.2 with ops := SMap.put r.2.ops r.1 { o with ctx := ctxKeyOf s o.hart } }
  modHart t o.hart (fun h =>
    if o.counter = 1 then { h with lcnt := h.lcnt + 1 }
    else if o.counter = 2 then { h with scnt := h.scnt + 1 } else h)

/-- An operation leaves the table and its counter falls; the scope of a load or returning atomic counts for the acquire that a
`cwait.l 0` completes (R149, R289). -/
def retireOp (s : State) (id : Nat) : State :=
  match SMap.find s.ops id with
  | none => s
  | some o =>
    let t := { s with ops := SMap.del s.ops id }
    if o.counter = 1 then modHart t o.hart (fun h => { h with lcnt := h.lcnt - 1, acq := max h.acq (o.scope + 1) })
    else if o.counter = 2 then modHart t o.hart (fun h => { h with scnt := h.scnt - 1 })
    else t

/-- What a hart has loaded at `node` or `sys` scope is acquired: its device drops clean copies of other devices' lines (R289). -/
def acquire (s : State) (hk : Nat) : State :=
  let t := if 6 ≤ (getHart s hk).acq then dropClean s (devOfHart hk) else s
  modHart t hk (fun h => { h with acq := 0 })

/-- A hart's counter of a kind is at its maximum, so a slot that would raise it does not issue (R149). -/
def counterFull (h : Hart) (c : Nat) : Bool :=
  if c = 1 then decide (h.lcnt ≥ 63) else if c = 2 then decide (h.scnt ≥ 63) else false

end Sys2Proof.Machine
end

