-- ==== Sys2Proof/Machine/Tasks.lean ====
section
/-! DEFINITION. Task records, queues, tickets and the ends of tasks (R219, R221, R222, R229, R231, R331 to R334, R343,
R349), and the fencing of a context (R403, R404, R407). -/
namespace Sys2Proof.Machine

open Sys2Proof

/-! ## Task records (R219) -/

/-- Word n of a task record. -/
def recW (ws : List DWord) (n : Nat) : DWord := ws.getD n 0
/-- CTL.IDEM. -/
def recIdem (ws : List DWord) : Bool := bit (recW ws 1) 0
/-- CTL.TKV. -/
def recTkv (ws : List DWord) : Bool := bit (recW ws 1) 1
/-- CTL.NBV. -/
def recNbv (ws : List DWord) : Bool := bit (recW ws 1) 2
/-- CTL.CPL. -/
def recCpl (ws : List DWord) : Bool := bit (recW ws 1) 3
/-- CTL.NIN. -/
def recNin (ws : List DWord) : Nat := bits (recW ws 1) 7 4
/-- CTL.TDOM. -/
def recTdom (ws : List DWord) : Nat := bits (recW ws 1) 31 16
/-- CTL.KEY. -/
def recKey (ws : List DWord) : Nat := bits (recW ws 1) 63 32
/-- FORKW.QUEUE. -/
def recQueue (ws : List DWord) : Nat := bits (recW ws 15) 27 16
/-- FORKW.NREG. -/
def recNreg (ws : List DWord) : Nat := bits (recW ws 15) 2 0

/-- A record keeps its layout but for INPUTS and FORKW (R219). -/
def recordBase (ws : List DWord) : Bool :=
  decide (bits (recW ws 0) 3 0 = 0) && decide (bits (recW ws 1) 15 8 = 0) && decide (recNin ws ≤ 4)
    && (!recTkv ws || recIdem ws)
    && (recTkv ws || (decide (recW ws 2 = 0) && decide (recTdom ws = 0)))
    && decide (bits (recW ws 3) 63 32 = 0)
    && (recNbv ws || decide (recW ws 4 = 0))
    && (if recCpl ws then decide (bits (recW ws 5) 2 0 = 0) else decide (recW ws 5 = 0))

/-- A record keeps the layout `tspawn` and a launch need: INPUTS is 0 without input tiles and FORKW is 0 (R219). -/
def recordOk (ws : List DWord) : Bool :=
  recordBase ws && (decide (recNin ws ≠ 0) || decide (recW ws 14 = 0)) && decide (recW ws 15 = 0)

/-- A record keeps the layout `fork` needs, its FORKW holding NREG and QUEUE (R219, R225). -/
def recordForkOk (ws : List DWord) : Bool :=
  recordBase ws && (decide (recNin ws ≠ 0) || decide (recW ws 14 = 0))
    && decide (recNreg ws ≤ 4 ∧ bits (recW ws 15) 15 3 = 0 ∧ bits (recW ws 15) 63 28 = 0)

/-- A template keeps the layout `rspawn` needs (R253). -/
def recordSpawnOk (ws : List DWord) : Bool :=
  recordBase ws && decide (recNin ws = 0) && !recTkv ws && !recCpl ws
    && decide (bits (recW ws 15) 15 0 = 0 ∧ bits (recW ws 15) 63 28 = 0)

/-! ## Queues (R331 to R334) -/

/-- CTL fields of a queue descriptor (R331). -/
def Queue.v (q : Queue) : Bool := bit q.ctl 63
def Queue.kind (q : Queue) : Nat := bits q.ctl 62 61
def Queue.ordd (q : Queue) : Bool := bit q.ctl 60
def Queue.returnsStatus (q : Queue) : Bool := bit q.ctl 59
def Queue.home (q : Queue) : Nat := bits q.ctl 58 56
def Queue.prio (q : Queue) : Nat := bits q.ctl 55 48
def Queue.ctx (q : Queue) : Nat := bits q.ctl 47 32
def Queue.cap (q : Queue) : Nat := bits q.ctl 31 16
def Queue.dies (q : Queue) : Nat := bits q.ctl 15 8
def Queue.la (q : Queue) : Nat := bits q.ctl 7 6

/-- A queue exists for a producer of a context: V = 1, the context's own, not fenced, and not a bin set (R331, R407). -/
def queueFor (s : State) (dev ctx q : Nat) : Option Queue :=
  match SMap.find s.queues (dev * 4096 + q) with
  | some x => if x.v && decide (x.ctx = ctx) && decide (x.kind = 0) && !x.fenced then some x else none
  | none => none

/-- COUNT: the entries held, set-aside ones apart (R331, R343); PEAK is the largest seen. -/
def recount (q : Queue) : Queue :=
  let n := (q.entries.filter (fun e => e.aside.isNone)).length
  { q with count := n, peak := if q.peak < n then n else q.peak }

/-- A queue is full when COUNT ≥ CAP (R334); CAP applies to each tile's sub-queue of a bin set, set-aside entries apart
(R343, R348). -/
def queueFull (q : Queue) (tile : Nat) : Bool :=
  if q.kind = 1 then decide ((q.entries.filter (fun e => e.tile == tile && e.aside.isNone)).length ≥ q.cap)
  else decide (q.count ≥ q.cap)

/-- An entry that stands before every arrival: staged, started or re-entered (R333, R343). -/
def QEntry.settled (x : QEntry) : Bool := x.staged.isSome || decide (x.kind = 1 ∧ x.inst > 0) || x.again

/-- The place of a new entry: last in a FIFO; in an ordered queue and in a bin set's sub-queue by ascending KEY after the
staged and started entries and after equal keys (R333). -/
def insertEntry (ordered : Bool) (e : QEntry) : List QEntry → List QEntry
  | [] => [e]
  | x :: xs =>
    if ordered && !x.settled && x.tile == e.tile && decide (recKey e.words < recKey x.words) then e :: x :: xs
    else x :: insertEntry ordered e xs

/-- An entry that has been staged stands behind those staged before it and before every other entry of its ordered queue or
sub-queue (R333). -/
def placeStaged (e : QEntry) : List QEntry → List QEntry
  | [] => [e]
  | x :: xs => if !x.settled && x.tile == e.tile then e :: x :: xs else x :: placeStaged e xs

/-- The state with a queue replaced, and a step made due when a producer waits and there is room (R334). -/
def setQueue (s : State) (qk : Nat) (q : Queue) : State :=
  let q := recount q
  let s1 := { s with queues := SMap.put s.queues qk q }
  match q.stalled with
  | [] => s1
  | st :: _ =>
    let tile := match st with | .held e => e.tile | _ => 0
    if queueFull q tile then s1
    else if s1.pending.contains (.queueRoom qk) then s1 else post s1 (.queueRoom qk)

/-- The waiting producers of every queue with room are made due (R334). -/
def rouseQueues (s : State) : State :=
  s.queues.foldl (fun t p => match p.2.stalled with
    | [] => t
    | st :: _ =>
      let tile := match st with | .held e => e.tile | _ => 0
      if queueFull p.2 tile || t.pending.contains (.queueRoom p.1) then t else post t (.queueRoom p.1)) s

/-- A producer's places on every queue are given up, and those behind it are looked at (R218, R334). -/
def giveUpPlaces (s : State) (gone : Stalled → Bool) : State :=
  rouseQueues { s with queues := SMap.each (fun _ q => { q with stalled := q.stalled.filter (fun x => !gone x) }) s.queues }

/-- A producer stands last among those that wait at a queue, unless it stands there already (R334). -/
def holdPlace (s : State) (qk : Nat) (x : Stalled) : State :=
  match SMap.find s.queues qk with
  | none => s
  | some q => if q.stalled.contains x then s else { s with queues := SMap.put s.queues qk { q with stalled := q.stalled ++ [x] } }

/-- A producer leaves its place at a queue (R334). -/
def leavePlace (s : State) (qk : Nat) (x : Stalled) : State :=
  match SMap.find s.queues qk with
  | none => s
  | some q => setQueue s qk { q with stalled := q.stalled.filter (fun y => decide (y ≠ x)) }

/-- A producer may place an entry now: there is room, and no other waits before it (R334). -/
def Queue.admits (q : Queue) (x : Stalled) : Bool :=
  !queueFull q 0 && (match q.stalled with | [] => true | y :: _ => decide (y = x))

/-- The launch's count of tasks not ended changes. -/
def launchAdd (s : State) (l n : Nat) : State :=
  match SMap.find s.launches l with
  | none => s
  | some x => { s with launches := SMap.put s.launches l { x with live := x.live + n } }

/-- n tasks of a launch have ended; with the last, the launch ends (R336). -/
def launchSub (s : State) (l n : Nat) : State :=
  match SMap.find s.launches l with
  | none => s
  | some x =>
    let t := { s with launches := SMap.put s.launches l { x with live := x.live - n } }
    if x.live ≤ n then post t (.launchEnd l) else t

/-- An entry enters its queue: it takes the next sequence number and its place (R332, R333). -/
def enqueue (s : State) (qk : Nat) (e : QEntry) : State :=
  match SMap.find s.queues qk with
  | none => s
  | some q =>
    let e := { e with seq := q.seq + 1, num := q.seq + 1, arrived := (getDie s (qk / 4096 * 8 + q.home)).tb.toNat }
    setQueue s qk { q with seq := q.seq + 1, entries := insertEntry (q.ordd || q.kind == 1) e q.entries }

/-- A new task entry for a record of a context, in a launch (R332). -/
def newEntry (s : State) (ws : List DWord) (depth launch ginst ctx : Nat) : QEntry × State :=
  let r := fresh s
  ({ seq := 0, kind := if recW ws 0 = 0 then 2 else 0, words := ws, depth := depth, launch := launch, ginst := ginst,
     uid := r.1, ctx := ctx }, launchAdd r.2 launch 1)

/-! ## Writes on a context's behalf that may fault (R431) -/

/-- A fault of such a write is counted in FAULTS of the queue concerned, and FADDR names it (R431). -/
def queueFault (s : State) (qk : Nat) (addr : DWord) : State :=
  match SMap.find s.queues qk with
  | none => s
  | some q => { s with queues := SMap.put s.queues qk { q with faults := q.faults + 1, faddr := addr } }

/-- A completion word is filled at `dev` scope, or lost under R431 (R221). -/
def fillDone (s : State) (dk ctx qk : Nat) (va w : DWord) : State :=
  match ctxFill s dk ctx va.toNat w.toNat 4 with
  | some t => t
  | none => queueFault s qk va

/-- A counter in memory is added to at `dev` scope as `aadd.d`, or the addition is lost under R431; a poisoned counter takes
none (R407). -/
def addCounter (s : State) (dev ctx qk : Nat) (va n : Nat) : State :=
  if n = 0 then s
  else match ctxLocs s dev ctx .atomic va 8 with
    | some ls => if va % 8 = 0 then (deviceWrite s dev ctx (readLocs s ls + n) ls).getD s else queueFault s qk (BitVec.ofNat 64 va)
    | none => queueFault s qk (BitVec.ofNat 64 va)

/-! ## Tickets (R230, R231, R350, R351) -/

/-- LOW advanced past every retired ticket. -/
def advanceLow : Nat → Domain → Domain
  | 0, d => d
  | fuel + 1, d =>
    if d.retired.contains d.low then
      advanceLow fuel { d with low := d.low + 1, retired := d.retired.filter (fun t => t != d.low) }
    else d

/-- The commit that waits with the lowest unretired ticket of a domain. -/
def waitingCommit (s : State) (dk : Nat) (low : Nat) : Option Nat :=
  (s.commits.find? (fun p => !p.2.released && recTkv p.2.task.words
    && decide (p.2.dev * 65536 + recTdom p.2.task.words = dk ∧ (recW p.2.task.words 2).toNat = low))).map Prod.fst

/-- Harts that wait in `ordb` look again: a release is made due for each of a domain (R233). -/
def ordbWaiters (s : State) (dom : Nat) : List Nat :=
  (s.harts.filter (fun p => match p.2.task with
    | some t => decide (p.2.wait = .notReady true) && recTkv t.words
        && decide (t.dev * 65536 + recTdom t.words = dom)
    | none => false)).map Prod.fst

/-- A ticket is retired: LOW advances past it when it is the lowest, and the commit of the new LOW is released when its
task has ended (R231, R351). -/
def retireTicket (s : State) (dom t : Nat) : State :=
  match SMap.find s.domains dom with
  | none => s
  | some d =>
    if t < d.low then s
    else
      let d1 := advanceLow (d.retired.length + 2)
        { d with retired := if d.retired.contains t then d.retired else d.retired ++ [t],
                 closedSec := d.closedSec.filter (fun p => p.1 != t) }
      let s1 := { s with domains := SMap.put s.domains dom d1 }
      let s2 := if d1.low ≠ d.low ∧ (waitingCommit s1 dom d1.low).isSome then post s1 (.commitRelease dom) else s1
      (ordbWaiters s2 dom).foldl (fun u hk => post u (.ordbRelease hk)) s2

/-- The ticket domain of a record is open to a context and its ticket has been drawn, or it carries none (R344). -/
def ticketOk (s : State) (dev ctx : Nat) (ws : List DWord) : Bool :=
  !recTkv ws || (match SMap.find s.domains (dev * 65536 + recTdom ws) with
    | some d => d.v && decide (d.ctx = ctx ∧ (recW ws 2).toNat < d.next)
    | none => false)

/-- The ticket of a record, if it carries one that its context has drawn, is retired. -/
def retireRecTicket (s : State) (dev ctx : Nat) (ws : List DWord) : State :=
  if recTkv ws && ticketOk s dev ctx ws then retireTicket s (dev * 65536 + recTdom ws) (recW ws 2).toNat else s

/-! ## Ends of tasks (R221, R222, R228, R234, R349) -/

/-- A completion word (R221). -/
def completionWord (status : Nat) (result : Nat) (flags : Nat) : DWord :=
  BitVec.ofNat 64 (2 ^ 63 + status * 2 ^ 61 + result % 2 ^ 32 * 2 ^ 16 + flags % 64)

/-- A child's end is recorded with its parent, for `join` (R228). -/
def childResult (s : State) (parent : Option (Nat × Nat)) (uid : Nat) (w : DWord) : State :=
  match parent with
  | none => s
  | some p =>
    match taskHart s p.1 with
    | none => s
    | some hk =>
      post (modTask s hk (fun t => { t with children := t.children.map (fun c =>
        if c.uid = uid then { c with result := some w } else c) })) (.childEnded uid)

/-- What an ended task leaves behind: its completion word, its parent's record, its ticket and its launch (R221, R231,
R336). `words` says whether a completion word is written. -/
def closeTask (s : State) (dk ctx : Nat) (t : Task) (w : DWord) (word : Bool) : State :=
  let s1 := if word && recCpl t.words then fillDone s dk ctx t.queue (recW t.words 5) w else s
  let s2 := childResult s1 t.parent t.uid w
  launchSub (retireRecTicket s2 t.dev ctx t.words) t.launch 1

/-- A hart becomes idle: it gives up its task, allocation, messages, convoy and waits, and its registers stay; ending its
task it leaves supervisor mode, while a hart of a firmware core holds firmware mode always (R7, R23, R26, R221). -/
def Hart.toIdle (h : Hart) : Hart :=
  { h with st := .idle, task := none, started := false, chunks := [], rq := [], spill := [], conv := none,
           wait := .none, grant := none, async := [], zeroed := [], resume := false, held := none, packed := none, leaving := false,
           lcnt := 0, scnt := 0, depth := 0, secCount := 0, secOver := false, rstat := 0, ustride := none, stall := 0, yield := false,
           parity := false, pxStack := [], ending := .none, sprdKept := [],
           hstat := withBits (withBits h.hstat 10 9 0) 1 0 (if h.mode = 3 then 3 else 0) }

/-- A rope is disbanded: every member's RSTAT is cleared and its fetch is on again (R21). -/
def disband (s : State) (hk : Nat) : State :=
  if (getHart s hk).inRope then
    (ropeOf s hk).foldl (fun t m => modHart t m (fun h =>
      { h with rstat := 0, st := if h.st = .follower then .running else h.st })) s
  else s

/-- A hart's mesh buffer, at a task's start and after each `mend`: every slot and every primitive is 0 (R260, R357). -/
def clearMesh (s : State) (hk : Nat) : State :=
  match (getHart s hk).task.bind (fun t => t.mesh) with
  | none => s
  | some m => zeroBytes s (scratchLoc (coreOf hk) m) 34816

/-- A hart's mesh buffer is released (R357). -/
def releaseMesh (s : State) (hk : Nat) : State :=
  modCore s (coreOf hk) (fun c => { c with meshes := c.meshes.filter (fun m => m.2 != hk) })

/-- A hart leaves its rope, its belay entries and its event waits, gives up its mesh buffer and becomes idle. -/
def idleHart (s : State) (hk : Nat) : State :=
  if validHart hk = false then s else
  let clk := clusKey (coreOf hk)
  let s1 := disarm (disband s hk) hk
  let drop (m : SMap EvObj) : SMap EvObj := SMap.each (fun _ o => { o with waiters := o.waiters.filter (· != hk) }) m
  let s2 := modClus s1 clk (fun c => { c with
    bars := drop c.bars, muts := drop c.muts, evts := drop c.evts, fails := c.fails.filter (fun f => f.1 != hk) })
  let s3 := { s2 with
    ops := SMap.each (fun _ o => if o.hart = hk then { o with counter := 0, ret := [] } else o) s2.ops,
    flights := s2.flights.filter (fun p => p.2.src != hk) }
  modHart (releaseMesh (giveUpPlaces s3 (fun x => decide (x = .hart hk))) hk) hk Hart.toIdle

/-- The harts a pre-emption still waits for, after one has packed or ended (R282). -/
def leaveDone (s : State) (hk : Nat) : State :=
  modCore s (coreOf hk) (fun c => match c.preempt with
    | none => c
    | some p => { c with preempt := some { p with harts := p.harts.filter (· != hk) } })

/-- Tasks with their parents: running, queued and committing, and children that have ended and still hold a revision. -/
def taskParents (s : State) : List (Nat × Nat) :=
  s.harts.filterMap (fun p => match p.2.task with
      | some t => t.parent.map (fun q => (t.uid, q.1))
      | none => none)
    ++ (s.queues.flatMap (fun p => p.2.entries)).filterMap (fun e => e.parent.map (fun q => (e.uid, q.1)))
    ++ s.commits.filterMap (fun p => p.2.task.parent.map (fun q => (p.1, q.1)))
    ++ s.revs.map (fun p => (p.1, p.2.parent))

/-- The descendants of a set of tasks. -/
def closure (ps : List (Nat × Nat)) : Nat → List Nat → List Nat
  | 0, us => us
  | fuel + 1, us =>
    closure ps fuel (us ++ (ps.filter (fun p => us.contains p.2 && !us.contains p.1)).map Prod.fst)

/-- The descendants of a task, itself apart (R222, R229). -/
def descendants (s : State) (uid : Nat) : List Nat :=
  let ps := taskParents s
  ((closure ps ps.length [uid]).filter (· != uid)).eraseDups

/-- An asynchronous trap is withdrawn from its wait by these waits (R167, R171, R218, R276). -/
def Wait.withdrawable : Wait → Bool
  | .none => true
  | .wfi => false
  | .notReady w => w
  | _ => true

/-- A hart that is to end its task ends it now: at a convoy boundary, where a pre-empted hart stands too; where it is cancelled or
its context fenced also where it is parked, or waits in a slot whose wait is withdrawn (R222, R229, R234, R403; log 76). -/
def Hart.atEnd (h : Hart) : Ending → Bool
  | .none => false
  | .aborted => h.conv.isNone || decide (h.st = .preempted)
  | _ => h.conv.isNone || decide (h.st = .preempted) || decide (h.st = .parked)
      || (decide (h.wait ≠ .none) && h.wait.withdrawable && h.grant.isNone)

/-- The hart is to end and stands where it ends. -/
def Hart.endsNow (h : Hart) : Bool := h.atEnd h.ending

/-- An aborted task is gone without trace: its hart is idle, its entry or commit gone, its revision discarded (R222,
R229). -/
def dropTask (s : State) (uid : Nat) : State :=
  let s1 := match taskHart s uid with
    | some hk => (match (getHart s hk).task with
        | some t => launchSub (leaveDone (idleHart s hk) hk) t.launch 1
        | none => s)
    | none => s
  let gone := (s1.queues.flatMap (fun p => p.2.entries)).filter (fun e => e.uid == uid && e.parent.isSome)
  let s2 := gone.foldl (fun t e => launchSub t e.launch 1) s1
  let s3 := { s2 with queues := SMap.each (fun _ q =>
    if q.entries.any (fun e => e.uid == uid && e.parent.isSome) then
      recount { q with entries := q.entries.filter (fun e => !(e.uid == uid && e.parent.isSome)) } else q) s2.queues }
  let s4 := match SMap.find s3.commits uid with
    | some c => launchSub { s3 with commits := SMap.del s3.commits uid } c.task.launch 1
    | none => s3
  giveUpPlaces { s4 with revs := SMap.del s4.revs uid } (fun x => decide (x = .commit uid))

/-- A task is aborted: at once where it is queued or committing, its hart stands between convoys, or nothing but its revision is
left, else at its hart's next convoy
boundary (R222, R229). -/
def abortTask (s : State) (uid : Nat) : State :=
  match taskHart s uid with
  | none => dropTask s uid
  | some hk =>
    if (getHart s hk).atEnd .aborted then dropTask s uid
    else modHart s hk (fun h => { h with ending := if h.ending = .fenced then .fenced else .aborted })

/-- Every descendant of a task is aborted and every revision of its children is discarded (R222, R229). -/
def abortDescendants (s : State) (uid : Nat) : State := (descendants s uid).foldl abortTask s

/-- A running task ends with nothing committed: its descendants are aborted, its buffers dropped, its ticket retired as
cancelled, its completion word written unless the context is fenced, with the OR of the lanes' sticky flags, and its hart
becomes idle (R221, R222, R234). -/
def endUncommitted (s : State) (hk status result : Nat) (word : Bool) : State :=
  match (getHart s hk).task with
  | none => idleHart s hk
  | some t =>
    let h := getHart s hk
    let s1 := abortDescendants s t.uid
    let s2 := leaveDone (idleHart s1 hk) hk
    closeTask { s2 with revs := SMap.del s2.revs t.uid } (dieOf (coreOf hk)) h.ctxid.toNat t
      (completionWord status result h.sticky.toNat) word

/-- A hart ends its task, if any, in one of the ways of `Ending`, and becomes idle (R222, R229, R234, R403). -/
def endHart (s : State) (hk : Nat) : Ending → State
  | .none => s
  | .cancelled => endUncommitted s hk 2 0 true
  | .fenced => endUncommitted s hk 2 0 false
  | .aborted => match (getHart s hk).task with
    | some t => dropTask (abortDescendants s t.uid) t.uid
    | none => idleHart s hk

/-- A hart is to end: at once where it stands at a place for it, else at its next convoy boundary (R234, R403). -/
def endSoon (s : State) (hk : Nat) (e : Ending) : State :=
  if (getHart s hk).atEnd e then endHart s hk e else modHart s hk (fun h => { h with ending := e })

/-- A staged entry's reservations are released (R349). -/
def unstage (s : State) (e : QEntry) : State :=
  match e.staged with
  | some (cs, h) => cs.foldl (fun t c => releaseMesh t (c * 8 + h)) s
  | none => s

/-- An entry is dropped: its reservations are released, its ticket is retired as cancelled, a completion word with STATUS 2
is written, a forked child counts as ended, its launch loses its unstarted tasks (R349). -/
def dropEntry (s : State) (qk : Nat) (e : QEntry) (faulted : Bool) (word : Bool) : State :=
  match SMap.find s.queues qk with
  | none => s
  | some q =>
    let dev := qk / 4096
    let q1 := { q with entries := q.entries.filter (fun x => x.seq != e.seq),
                       drops := if faulted then q.drops else q.drops + 1 }
    let s1 := setQueue (unstage s e) qk q1
    let s2 := retireRecTicket s1 dev e.ctx e.words
    let w := completionWord 2 0 0
    let s3 := if word && e.kind != 2 && recCpl e.words then
        fillDone s2 (dev * 8 + q.home) e.ctx qk (recW e.words 5) w else s2
    let s4 := childResult { s3 with revs := SMap.del s3.revs e.uid } e.parent e.uid w
    launchSub s4 e.launch (e.icount - e.inst)

/-- The die of a bin set's tile, of a set so many tiles across (R348). -/
def tileDie (across t : Nat) : Nat :=
  let tx := t % across
  let ty := t / across
  (tx + 3 * ty + tx / 8 + 5 * (ty / 8)) % 8

/-- The die whose scheduler serves the entries of a queue on a tile: the tile's in a bin set, else HOME (R331, R348). -/
def Queue.serves (q : Queue) (tile : Nat) : Nat := if q.kind = 1 then tileDie (max 1 (bits q.binw 15 0)) tile else q.home

/-- A token names an entry of a queue (R349). -/
def tokenNames (e : QEntry) (k : Nat × Nat × Nat) : Bool := decide (e.ctx = k.1 ∧ e.ginst = k.2.1 ∧ e.num ≤ k.2.2)

/-- The tokens recorded where a tile's entries stand (R348, R349). -/
def Queue.tokensAt (q : Queue) (tile : Nat) : List (Nat × Nat × Nat) :=
  if q.kind = 1 then (q.binTokens.filter (fun k => k.1 == q.serves tile)).map Prod.snd else q.tokens

/-- A recorded token names the entry (R349). -/
def Queue.named (q : Queue) (e : QEntry) : Bool := (q.tokensAt e.tile).any (tokenNames e)

/-- An aborted idempotent task re-enters its queue at the head, ahead of every unstarted entry, with its record, depth,
launch, instance and ticket; a fault address sets it aside (R343). Its copies are discarded; the cairns stay, each captured
once (R226). A fenced queue drops it as cancelled, and so does one that has recorded its token, if it is set aside (R349,
R407). -/
def requeue (s : State) (hk : Nat) (aside : Option DWord) : State :=
  match (getHart s hk).task with
  | none => s
  | some t =>
    let h := getHart s hk
    let s1 := idleHart (abortDescendants s t.uid) hk
    let s2 := leaveDone s1 hk
    match SMap.find s2.queues t.queue with
    | none => s2
    | some q =>
      let e : QEntry := {
        seq := q.seq + 1, num := t.num, tile := t.tile, kind := 0, words := t.words, depth := h.depth, launch := t.launch,
        ginst := t.ginst, inst := t.inst, icount := t.inst + 1, total := t.icount, uid := t.uid, pinst := t.pinst, parent := t.parent, aside := aside,
        again := true, ctx := h.ctxid.toNat }
      let r := match SMap.find s2.revs t.uid with
        | some v => { s2 with revs := SMap.put s2.revs t.uid { v with copies := [] } }
        | none => s2
      let u := setQueue r t.queue { q with seq := q.seq + 1, entries := e :: q.entries }
      if q.fenced || (aside.isSome && q.named e) then dropEntry u t.queue e false true else u

/-! ## The fault ring (R374, R404) -/

/-- A 16-byte record is appended to a context's fault ring and FFUT is filled at `sys` scope with the count (R374). -/
def appendRing (s : State) (dev ctx : Nat) (w0 w1 : DWord) : State :=
  match SMap.find s.ctxs (dev * 65536 + ctx) with
  | none => s
  | some c =>
    let at_ := (c.words.getD 3 0).toNat + 16 * (c.ring % 64)
    let s1 := (ctxWrite s dev ctx at_ 16 (w0.toNat + w1.toNat * 2 ^ 64)).getD s
    let s2 := { s1 with ctxs := SMap.put s1.ctxs (dev * 65536 + ctx) { c with ring := c.ring + 1 } }
    (ctxFill s2 (dev * 8) ctx (c.words.getD 4 0).toNat ((c.ring + 1) % 2 ^ 32) 6).getD s2

/-! ## Fencing a context (R403, R404, R407) -/

/-- A producer that waits on a queue that takes no more records: a hart issues again and finds no queue, a walk looks at
its LAUNCH node again, a held entry is lost (R331, R335, R407). -/
def flushProducer (s : State) (x : Stalled) : State :=
  match x with
  | .hart hk => post s (.convoyIssue hk)
  | .commit uid => post s (.commitPerformed uid)
  | .unit dk => post s (.reprojectionDone (devOf dk))
  | .held e => launchSub s e.launch 1
  | .walk w e =>
    let n := match SMap.find s.launches e.launch with | some l => l.walk.map Prod.snd | none => none
    { s with launches := SMap.del s.launches e.launch,
             walks := match SMap.find s.walks w with
               | some x => SMap.put s.walks w { x with blocked := false, outstanding := x.outstanding.filter (fun k => some k != n) }
               | none => s.walks }

/-- A fence is noted in the lifetime record, which is written (R409). -/
def noteFence (s : State) (dev : Nat) : State := postOnce s (.lifetimeRecordWrite dev)

/-- A task queue is fenced: it takes no new records and every entry is dropped as cancelled (R407). -/
def fenceQueue (s : State) (qk : Nat) : State :=
  match SMap.find s.queues qk with
  | none => s
  | some q =>
    let s1 := q.entries.foldl (fun t e => dropEntry t qk e false true) s
    match SMap.find s1.queues qk with
    | none => s1
    | some r =>
      r.stalled.foldl flushProducer (noteFence
        { s1 with queues := SMap.put s1.queues qk { r with fenced := true, stalled := [] } } (qk / 4096))

/-- A waiting hart is released from an event-unit object with a value (R169, R170, R403). -/
def releaseEv (s : State) (hk : Nat) (v : DWord) : State :=
  modHart s hk (fun h => match h.wait with
    | .event _ _ _ => { h.wake with grant := some v }
    | _ => h)

/-- An event-unit object of a context loses V, and its waiters return 0 (R403). -/
def fenceObjs (ctx : Nat) (m : SMap EvObj) : SMap EvObj × List Nat :=
  (m.map (fun p => (p.1, if bit p.2.cfg 63 && bits p.2.cfg 31 16 == ctx then {} else p.2)),
   (m.filter (fun p => bit p.2.cfg 63 && bits p.2.cfg 31 16 == ctx)).flatMap (fun p => p.2.waiters))

/-- Waiting kicks of a context are refused: the running transfer stays, and the mailboxes of the others have still to take STATUS 1
(R403). -/
def refuseKicks (s : State) (ck dev ctx : Nat) : State :=
  let c := getCore s ck
  let mine (k : Kick) : Bool := decide (k.ctx = ctx ∧ k.dev = dev)
  let out := (c.kicks.drop 1).filter mine
  if out.isEmpty then s
  else postOnce (setCore s ck { c with kicks := c.kicks.take 1 ++ (c.kicks.drop 1).filter (fun k => !mine k),
                                       refusedKicks := c.refusedKicks ++ out.map (fun k => { k with report := some (1, 0) }) })
    (.transferComplete ck)

/-- The convoy of a hart goes no further: its hart stops there (R268, R281, R406, R407). -/
def stopConvoy (s : State) (hk : Nat) : State :=
  modHart s hk (fun h => { h with conv := none, wait := .none, grant := none })

/-- The hart that a fence concerns stops, if its context is the one fenced (R403). -/
def stopConcerned (s : State) (dev ctx hk : Nat) : State :=
  if devOfHart hk = dev ∧ (getHart s hk).ctxid.toNat = ctx ∧ validHart hk = true then endSoon s hk .fenced else s

/-- Revisions of a context on a device that no running task of it needs any more are discarded (R403). -/
def dropRevs (s : State) (dev ctx : Nat) : State :=
  { s with revs := s.revs.filter (fun p => !(decide (p.2.ctx = ctx ∧ devOf p.2.die = dev) && (taskHart s p.1).isNone)) }

/-- A context is fenced on every die: its harts stop at their next convoy boundary, or at once where they go no further, its
tasks end as cancelled, its queues and submission queues are fenced, its waiting kicks refused, its event objects freed;
a fence record is appended, MSI-X 0 signalled and the lifetime record written (R403, R404, R409). A context number that
names no context, or one fenced before, has only the hart concerned stopped. -/
def fenceContext (s : State) (dev ctx reason hk code : Nat) : State :=
  match SMap.find s.ctxs (dev * 65536 + ctx) with
  | none => stopConcerned s dev ctx hk
  | some c =>
    if c.fenced then stopConcerned s dev ctx hk
    else
      let s0 := { s with ctxs := SMap.put s.ctxs (dev * 65536 + ctx) { c with fenced := true } }
      let mine := (s0.harts.filter (fun p => devOfHart p.1 == dev && p.2.ctxid.toNat == ctx && p.2.st != .idle)).map
        Prod.fst
      let s1 := mine.foldl (fun t k => endSoon t k .fenced) s0
      let s2 := (s1.commits.filter (fun p => p.2.dev == dev && p.2.ctx == ctx)).foldl (fun t p =>
        closeTask { t with commits := SMap.del t.commits p.1, revs := SMap.del t.revs p.1 } p.2.die ctx p.2.task
          (completionWord 2 0 0) false) s1
      let qs := (s2.queues.filter (fun p => p.1 / 4096 == dev && p.2.ctx == ctx)).map Prod.fst
      let s3 := qs.foldl fenceQueue s2
      let s4 := { s3 with sqs := SMap.each (fun k x =>
        if k / 4096 = dev ∧ x.ctx = ctx then { x with fenced := true } else x) s3.sqs }
      let s5 := (s4.cores.map Prod.fst).foldl (fun t k => refuseKicks t k dev ctx) s4
      let cls := (s5.clusters.filter (fun p => devOf (p.1 / 16) == dev)).map Prod.fst
      let s6 := cls.foldl (fun t k =>
        let x := getClus t k
        let b := fenceObjs ctx x.bars
        let m := fenceObjs ctx x.muts
        let e := fenceObjs ctx x.evts
        (b.2 ++ m.2 ++ e.2).foldl (fun u h => releaseEv u h 0)
          (setClus t k { x with bars := b.1, muts := m.1, evts := e.1 })) s5
      let w0 := BitVec.ofNat 64 (0xFF * 2 ^ 56 + reason * 2 ^ 48
        + (if validHart hk then (coreNum (coreOf hk) * 8 + hartNo hk) % 8192 * 2 ^ 19 else 0))
      let s7 := appendRing s6 dev ctx w0 (BitVec.ofNat 64 (code % 256))
      noteFence (modDev (dropRevs s7 dev ctx) dev (fun d => { d with msix := 0 :: d.msix })) dev

end Sys2Proof.Machine
end

