-- ==== Sys2Proof/Machine/Ops.lean ====
section
/-! DEFINITION. The operations every slot shares: the checks before a slot executes (R72 to R74, R176), what follows its
execution (R16, R35, R218), taking a trap (R267 to R272) and returning from one (R275). -/
namespace Sys2Proof.Machine

open Sys2Proof

/-! ## Taking a trap (R267 to R272) -/

/-- What a trap records (R269): cause, INFO, ASYNC, fault address, convoy, and the slot, element and bit position to
resume at; `v` is CVR.V. -/
structure TrapInfo where
  cause : Nat
  info : Nat
  async : Bool
  faddr : DWord
  pc : DWord
  slot : Nat
  v : Bool
  elem : Nat
  bitpos : Nat
deriving DecidableEq, Repr

/-- The HCAUSE word of a trap (R31, R267). -/
def TrapInfo.hcause (t : TrapInfo) : DWord :=
  BitVec.ofNat 64 (t.info % 2 ^ 32 * 2 ^ 32 + b2n t.async * 2 ^ 8 + t.cause)
/-- The HEPC word of a trap (R32). -/
def TrapInfo.hepc (t : TrapInfo) : DWord := BitVec.ofNat 64 (t.pc.toNat / 16 * 16 + t.slot % 4)
/-- The CVR word of a trap with qp pending last-result entries (R33). -/
def TrapInfo.cvr (t : TrapInfo) (qp : Nat) : DWord :=
  if t.v then BitVec.ofNat 64 (128 + qp % 4 * 4 + t.slot % 4) else 0
/-- The VRI word of a trap (R34). -/
def TrapInfo.vri (t : TrapInfo) : DWord := BitVec.ofNat 64 (t.bitpos % 2 ^ 48 * 2 ^ 16 + t.elem % 2 ^ 16)

/-- HSTAT after a trap is entered: PMODE and PIE take MODE and IE, IE becomes 0, MODE becomes supervisor, or firmware on
a firmware core (R267). -/
def trapHstat (fw : Bool) (w : DWord) : DWord :=
  withBits w 7 0 (bits w 1 0 * 64 + b2n (bit w 4) * 32 + (if fw then 3 else 1))

/-- The hart after a trap is entered (R267): resume state saved, last-result file kept and zeroed, status changed, PC at
the handler. -/
def Hart.enter (fw : Bool) (t : TrapInfo) (h : Hart) : Hart :=
  { h with
    hcause := t.hcause, hepc := t.hepc, cvr := t.cvr h.q.pend.length, vri := t.vri, faddr := t.faddr,
    kept := h.q, q := {}, hstat := trapHstat fw h.hstat, pc := h.htvec,
    held := if t.v then (h.conv.bind (fun c => c.target)) else none,
    conv := none, wait := .none, grant := none, resume := false, parity := false,
    st := if h.st = .parked then h.awake else h.st, pxStack := true :: h.pxStack,
    sprdKept := (if t.v then h.conv.map (fun c => c.sprd) else none) :: (if h.resume then h.sprdKept.drop 1 else h.sprdKept) }

/-- A trap is taken (R267). A synchronous trap with IE = 0 in a mode above user is a double trap: no register is written
and the context is fenced (R268). With no handler the context is fenced (R267). -/
def takeTrap (s : State) (hk : Nat) (t : TrapInfo) : State :=
  let h := getHart s hk
  let dev := devOfHart hk
  if !t.async && decide (h.mode ≠ 0) && !h.ie then fenceContext (stopConvoy s hk) dev h.ctxid.toNat 2 hk t.cause
  else
    let s1 := modHart (disarm (disband s hk) hk) hk (Hart.enter (isFwCore s (coreOf hk)) t)
    if h.htvec = 0 then fenceContext s1 dev h.ctxid.toNat 1 hk t.cause else s1

/-- The task has executed an `ordb`, so that a PAGE-FAULT is a precise trap (R233). -/
def Hart.ordered (h : Hart) : Bool := match h.task with | some t => t.ordOnce | none => false

/-- A PAGE-FAULT of an idempotent task requeues it instead of trapping, unless the spill area is exhausted or the task has
opened an ordered section (R146, R226, R233). -/
def requeues (h : Hart) (cause info : Nat) : Bool :=
  h.idem && decide (cause = cPAGEFAULT) && !h.ordered && decide (info / 16 % 16 ≠ 3)

/-- A synchronous failure: the idempotent task is set aside and the memory manager told (R343, R374), or the trap is
taken. A hart that was to end at its next convoy boundary ends here, where its convoy stops (R222, R234, R403). An engine hart
has no handler: its engine is fenced (R172, R408; log 80). -/
def raiseTrap (s : State) (hk : Nat) (t : TrapInfo) : State :=
  let h := getHart s hk
  if isEngine hk then post (modHart s hk Hart.toIdle) (.engineFence (coreOf hk))
  else if h.ending ≠ .none then endHart s hk h.ending
  else if requeues h t.cause t.info then
    match h.task with
    | some k => appendRing (requeue s hk (some t.faddr)) (devOfHart hk) h.ctxid.toNat t.faddr
        (BitVec.ofNat 64 (k.queue % 4096 + k.ginst * 2 ^ 32))
    | none => takeTrap s hk t
  else takeTrap s hk t

/-! ## Asynchronous traps (R274) -/

/-- The order in which pending traps are taken (R274). -/
def asyncRank (c : Nat) : Nat := if c = cPREEMPT then 2 else if c = cCANCEL then 1 else 0

/-- The next pending trap to be taken: the lowest rank, the oldest within it (R274). -/
def nextAsync (as : List Async) : Option Async :=
  match as.find? (fun a => asyncRank a.cause == 0) with
  | some a => some a
  | none => match as.find? (fun a => asyncRank a.cause == 1) with
    | some a => some a
    | none => as.head?

/-- A wait for a mutex has ended with the grant, and the load has not returned yet (R171). -/
def Hart.ownsMutex (h : Hart) : Bool :=
  match h.wait, h.grant with
  | .event kind _ _, some v => decide (kind = 1 ∧ v = 1)
  | _, _ => false

/-- The hart stands where an asynchronous trap may be taken: between convoys, or in a wait that is withdrawn; not between
an `eret` and the convoy it resumes (R171, R269, R274). -/
def Hart.atPoint (h : Hart) : Bool :=
  match h.conv with
  | none => !h.resume
  | some _ => decide (h.wait ≠ .none) && h.wait.withdrawable && (h.grant.isNone || h.ownsMutex)

/-- A pending asynchronous trap is takeable now (R274). -/
def Hart.takeable (h : Hart) : Bool :=
  h.ie && !h.async.isEmpty && h.atPoint && (decide (h.st = .running) || decide (h.st = .parked) || decide (h.st = .follower))

/-- A pending asynchronous trap is recorded, and a waiting hart that may take it, or waits in `wfi`, is made due
(R274, R276). -/
def queueAsync (s : State) (hk : Nat) (a : Async) : State :=
  let s1 := modHart s hk (fun h => { h with async := h.async ++ [a] })
  let h := getHart s1 hk
  if h.wait = .wfi then modHart s1 hk (fun h => { h.wake with grant := some 0 })
  else if h.takeable then post s1 (.asyncTrap hk) else s1

/-- The remainder of a `twaitd`, the generation an arrive-and-wait keeps, 1 for a mutex already granted, the records `rast` has handed over, and the
position of the next symbol of `xdec`, as VRI.BITPOS (R171, R209, R240, R262; log 11). -/
def withdrawBits (s : State) (hk : Nat) (h : Hart) : Nat :=
  match h.wait with
  | .time t rel => if rel then t - (tbOf s hk).toNat else 0
  | .event kind _ g => if kind = 0 then 2 ^ 47 + g % 2 ^ 47 else b2n h.ownsMutex
  | _ => match h.conv with
    | some c => if fieldMajor (c.words.getD c.slot 0) = 0x61 ∨ fieldMajor (c.words.getD c.slot 0) = 0x4E then c.bitpos else 0
    | none => 0

/-- A hart leaves the waiting list of an event-unit object (R171). -/
def unwait (hk : Nat) (o : EvObj) : EvObj := { o with waiters := o.waiters.filter (· != hk) }

/-- The waits of a hart on its cluster unit's objects are withdrawn (R171). -/
def withdrawEvents (s : State) (hk : Nat) : State :=
  modClus s (clusKey (coreOf hk)) (fun c => { c with
    bars := SMap.each (fun _ o => unwait hk o) c.bars, muts := SMap.each (fun _ o => unwait hk o) c.muts,
    evts := SMap.each (fun _ o => unwait hk o) c.evts })

/-- A hart leaves the queues it waits on, and takes back a message that has not entered its queue (R218). -/
def withdrawQueues (s : State) (hk : Nat) : State :=
  giveUpPlaces { s with flights := s.flights.filter (fun p => p.2.src != hk) } (fun x => decide (x = .hart hk))

/-- The element a withdrawn wait resumes at: the messages `vredq` has folded, the next ray of `rspawn`, the first record
`rast` has not handed over, the next symbol of `xdec`; 0 for every other wait (R209, R218, R239, R253, R262). -/
def withdrawElem (h : Hart) : Nat :=
  let w := (h.conv.bind (fun c => c.words[c.slot]?)).getD 0
  let m := fieldMajor w
  let f := fieldFn w
  match h.conv with
  | some c => if (m = 0x59 ∧ (f = 5 ∨ f = 6)) ∨ (m = 0x5E ∧ f = 0) ∨ m = 0x61 ∨ (m = 0x4E ∧ f = 1) then c.elem else 0
  | none => 0

/-- The next pending asynchronous trap is taken: between convoys at the next convoy with CVR.V = 0, in a wait at the
waiting slot with CVR.V = 1 (R269, R274). An engine hart has no handler: its engine is fenced (R172, R408; log 80). -/
def takeAsync (s : State) (hk : Nat) : State :=
  let h := getHart s hk
  match nextAsync h.async with
  | none => s
  | some a =>
    if isEngine hk then post (modHart s hk Hart.toIdle) (.engineFence (coreOf hk))
    else
    let t : TrapInfo := match h.conv with
      | none => ⟨a.cause, a.info, true, a.faddr, h.pc, 0, false, 0, 0⟩
      | some c => ⟨a.cause, a.info, true, a.faddr, h.pc, c.slot, true, withdrawElem h, withdrawBits s hk h⟩
    let s1 := withdrawQueues (withdrawEvents s hk) hk
    let s2 := modHart s1 hk (fun h => { h with
      async := h.async.erase a, zeroed := h.zeroed.eraseP (fun z => z.trap == a), leaving := h.leaving || decide (a.cause = cPREEMPT) })
    takeTrap s2 hk t

/-! ## Returning from a trap (R275) -/

/-- HSTAT after `eret`: MODE and IE take PMODE and PIE, which keep their values (R275). A hart of a firmware core holds
firmware mode whatever PMODE says, since it never holds mode 0 or 1 (R26; DEDUCED, log 75). -/
def eretHstat (fw : Bool) (w : DWord) : DWord :=
  withBits (withBits w 4 4 (b2n (bit w 5))) 1 0 (if fw then 3 else bits w 7 6)

/-- The hart after `eret`: the kept last-result file is current again, with as many pending entries as CVR.QP counts for a
resumed convoy, and the convoy at HEPC is next, resumed when CVR.V = 1 (R16, R275). -/
def Hart.leave (fw : Bool) (h : Hart) : Hart :=
  { h with
    hstat := eretHstat fw h.hstat,
    q := { h.kept with pend := if bit h.cvr 7 then (h.kept.pend ++ [0, 0]).take (bits h.cvr 3 2) else [] },
    pc := BitVec.ofNat 64 (h.hepc.toNat / 16 * 16),
    held := if bit h.cvr 7 then h.held else none,
    conv := none, wait := .none, grant := none, resume := bit h.cvr 7, pxStack := h.pxStack.drop 1,
    sprdKept := if bit h.cvr 7 then h.sprdKept else h.sprdKept.drop 1 }

/-! ## One slot -/

/-- What executing a slot comes to: completed; a trap with cause, INFO, fault address, element and bit position reached; a
wait; or the end of the hart's stay in the convoy. -/
inductive SlotRes where
  | done (s : State)
  | trap (cause info : Nat) (faddr : DWord) (elem bitpos : Nat) (s : State)
  | wait (w : Wait) (s : State)
  | gone (s : State)

/-- The trap of a slot as its resume state records it (R269, R270). -/
def slotTrap (h : Hart) (cause info : Nat) (faddr : DWord) (elem bitpos : Nat) : TrapInfo :=
  let c := h.curConv
  ⟨cause, info, false, faddr, h.pc, c.slot, true, elem, bitpos⟩

/-- ILLEGAL-OPERAND at the slot, with the slot word as INFO (R271). -/
def badOperand (s : State) (hk : Nat) : SlotRes :=
  .trap cILLEGALOPERAND (getHart s hk).slotWord.toNat 0 0 0 s

/-- ILLEGAL-INSTRUCTION at the slot, with the slot word as INFO (R271). -/
def badInstruction (s : State) (hk : Nat) : SlotRes :=
  .trap cILLEGALINSTRUCTION (getHart s hk).slotWord.toNat 0 0 0 s

/-- A pending prefix is live: its target is the next live slot (R176). From a trap to its `eret` it waits (R30). -/
def Hart.prefixLive (h : Hart) : Bool := h.pxp && !h.pxStack.headD false

/-- The prefix is consumed: PXP, and with `all` PXF too, become 0 (R30, R176). -/
def Hart.dropPrefix (all : Bool) (h : Hart) : Hart :=
  { h with hstat := if all then withBits (withBits h.hstat 8 8 0) 63 32 0 else withBits h.hstat 8 8 0,
           pxStack := match h.pxStack with | [] => [] | _ :: r => true :: r }

/-- The convoy moves past the slot reached and its extension word. -/
def Conv.advance (c : Conv) : Conv :=
  { c with slot := c.slot + 1 + b2n (isExt c.hdr (c.slot + 1)), elem := 0, bitpos := 0, resumed := false, bad := false }

/-- The hart after its slot has completed. -/
def Hart.advance (h : Hart) : Hart :=
  { h with conv := h.conv.map Conv.advance, wait := .none, grant := none, parity := false,
           st := if h.st = .parked then h.awake else h.st }

/-- A wait that parks the hart (R7, R218, R276). -/
def Wait.parks : Wait → Bool
  | .future _ _ => true
  | .event _ _ _ => true
  | .recv _ => true
  | .send _ _ => true
  | .time _ _ => true
  | .wfi => true
  | .queue _ => false
  | .notReady _ => false
  | .none => false

/-- The hart after its slot has begun to wait. -/
def Hart.await (w : Wait) (h : Hart) : Hart :=
  { h with wait := w, st := if w.parks && decide (h.st = .running ∨ h.st = .follower) then .parked else h.st }

/-- The hart has something to do where it may leave its stream: it is to end, or to take a pending trap (R218, R234). -/
def Hart.hasExit (h : Hart) : Bool := h.endsNow || h.takeable

/-- A hart's slot begins to wait. A parked hart that is to end, or has a trap that the wait's withdrawal lets it take, is
made due at once (R218, R234). -/
def beginWait (s : State) (hk : Nat) (w : Wait) : State :=
  let t := modHart s hk (Hart.await w)
  if decide ((getHart t hk).st = .parked) && (getHart t hk).hasExit then post t (.asyncTrap hk) else t

/-- What follows the execution of a slot by hart hk; `live` says that the slot was the target of a prefix, which its
completion consumes (R30). -/
def finishSlot (hk : Nat) (live : Bool) : SlotRes → State
  | .done t => modHart t hk (fun h => Hart.advance (if live then h.dropPrefix true else h))
  | .trap cause info faddr elem bitpos t => raiseTrap t hk (slotTrap (getHart t hk) cause info faddr elem bitpos)
  | .wait w t => beginWait t hk w
  | .gone t => t

/-! ## Checks before a slot executes (R72 to R74, R176, R217) -/

/-- How an instruction uses its mask selector (R72). -/
inductive MaskUse where
  /-- bit 0 decides whether the slot executes -/
  | scalar
  /-- bit i governs element or row i -/
  | elements
  /-- takes no mask -/
  | none
deriving DecidableEq, Repr

/-- The instructions that take a format (R176). -/
def takesFormat (major fn : Nat) : Bool :=
  match major with
  | 0x20 => true | 0x21 => true | 0x22 => true | 0x25 => true | 0x28 => true | 0x29 => true | 0x45 => true
  | 0x33 => decide (fn = 1 ∨ fn = 6 ∨ fn = 7)
  | 0x38 => decide (fn = 3)
  | 0x39 => decide (fn = 4)
  | _ => false

/-- The lowest mode that may issue an instruction (R26, R263). -/
def minMode (major fn : Nat) : Nat :=
  match major with
  | 0x65 => if fn = 1 ∨ fn = 3 then 1 else if fn = 4 then 3 else 0
  | 0x66 => 1
  | 0x67 => 1
  | _ => 0

/-- The translation service core executes the instruction (R9, R172). -/
def tscExecutes (major fn : Nat) : Bool :=
  decide (major ≤ 0x08) || decide (major = 0x10 ∧ fn ≠ 6) || decide (major = 0x11) || decide (major = 0x12 ∧ fn = 1)
    || decide (major = 0x13) || decide (0x14 ≤ major ∧ major ≤ 0x16) || decide (major = 0x3A) || decide (major = 0x3C)
    || decide (major = 0x3D ∧ fn ≠ 1) || decide (major = 0x36 ∧ fn = 2)
    || decide (major = 0x59 ∧ (fn = 0 ∨ fn = 2 ∨ fn = 3 ∨ fn = 4))
    || decide (major = 0x64 ∨ major = 0x65 ∨ major = 0x66)

/-- An engine hart executes the instruction (R172). -/
def engineExecutes (major fn : Nat) : Bool :=
  decide (major ≤ 0x08) || decide (major = 0x10 ∧ fn ≠ 6) || decide (major = 0x11) || decide (0x13 ≤ major ∧ major ≤ 0x16)
    || decide (major = 0x3A) || decide (major = 0x3C) || decide (major = 0x3D ∧ fn = 2)

/-- The instruction raises ILLEGAL-INSTRUCTION on a hart that runs no task (R217). -/
def needsTask (major fn : Nat) : Bool :=
  decide (major = 0x54 ∨ major = 0x55 ∨ major = 0x58) || decide (major = 0x57 ∧ fn < 16)

/-- The instruction is refused in an idempotent task (R161, R217). -/
def refusedIdem (major fn : Nat) : Bool :=
  decide ((major = 0x3A ∨ major = 0x3B) ∧ (fn = 0 ∨ fn = 3 ∨ fn = 8 ∨ fn = 9)) || decide (major = 0x3D ∧ fn = 2)
    || decide (major = 0x57 ∧ fn = 3) || decide (major = 0x59 ∧ fn ≠ 4)

/-- The instruction is refused outside an idempotent task (R217). -/
def onlyIdem (major fn : Nat) : Bool := decide (major = 0x57 ∧ fn < 3)

/-- The instruction is refused in a task that holds no ticket (R232, R233). -/
def needsTicket (major fn : Nat) : Bool := decide (major = 0x57 ∧ fn < 2)

/-- The hart's task holds a ticket. -/
def Hart.ticketed (h : Hart) : Bool := match h.task with | some t => recTkv t.words | none => false

/-- The hart's task has a mesh buffer (R260, R357). -/
def Hart.meshed (h : Hart) : Bool := match h.task with | some t => t.mesh.isSome | none => false

/-- The mode, the unit and the task let the hart issue the instruction (step 2 of R73). -/
def allowed (s : State) (hk : Nat) (major fn : Nat) : Bool :=
  let h := getHart s hk
  decide (minMode major fn ≤ h.mode)
    && (!isTsc (unitOf (coreOf hk)) || tscExecutes major fn) && (!isEngine hk || engineExecutes major fn)
    && (h.task.isSome || !needsTask major fn)
    && (!h.idem || !refusedIdem major fn) && (h.idem || !onlyIdem major fn)
    && (h.ticketed || !needsTicket major fn)
    && (h.meshed || decide (major ≠ 0x60))
    && (!h.prefixLive || takesFormat major fn)

/-- How an instruction uses its mask selector (R72, R151 and the mask columns of each chapter). -/
def maskUse (major fn : Nat) : MaskUse :=
  if major ≤ 0x17 then .scalar
  else match major with
  | 0x35 => .none | 0x36 => .none
  | 0x39 => if fn = 4 then .none else .elements
  | 0x3A => .scalar | 0x3C => .none
  | 0x3D => if fn = 1 then .elements else .scalar
  | 0x3E => .none | 0x44 => .scalar | 0x46 => .none | 0x47 => .none
  | 0x4C => .none | 0x4D => .none | 0x4E => .none | 0x50 => .none
  | 0x51 => if fn < 2 then .elements else .none
  | 0x54 => .none | 0x55 => .none | 0x56 => .none
  | 0x57 => if fn = 0 then .elements else .none
  | 0x58 => .none
  | 0x59 => if fn < 5 then .none else .elements
  | 0x5A => .none
  | 0x5E => if fn = 0 then .elements else .none
  | 0x5F => if fn = 3 then .none else .elements
  | 0x60 => if fn = 2 then .none else .elements
  | 0x61 => .none
  | 0x64 => .none | 0x65 => .none | 0x66 => .none | 0x67 => .none
  | _ => .elements

/-- The slot is removed: by the stage predicate, by selector 0b1000, or by bit 0 of its mask (R72, R74). -/
def slotRemoved (h : Hart) (major fn : Nat) : Bool :=
  let c := h.curConv
  let stage := hdrStage c.hdr
  (decide (stage ≠ 0) && !bit c.sprd (stage - 1) && !decide (0x10 ≤ major ∧ major ≤ 0x13))
    || decide (h.sel = 8)
    || (decide (maskUse major fn = .scalar) && !h.selBit 0)

/-- A selector other than 0b0000 on an instruction that takes no mask (R72). -/
def selectorBad (h : Hart) (major fn : Nat) : Bool := decide (maskUse major fn = .none ∧ h.sel ≠ 0)

/-- A slot, with its extension word, whose outcome a rope's leader settles for every member: a control slot other than `wbase`, or
an `sswap` of VL (R19, R20, R98). -/
def leaderRules (major fn : Nat) (e : Option Word) : Bool :=
  decide (major = 0x10 ∨ major = 0x11 ∨ (major = 0x12 ∧ fn = 0)
    ∨ (major = 0x64 ∧ fn = 2 ∧ e.any (fun x => decide (bits x 11 0 = 0x011))))

/-- The extension word of the slot reached, if it has one (R66). -/
def Hart.slotExt (h : Hart) : Option Word := Sys2Proof.extOf h.curConv.hdr h.curConv.words h.curConv.slot

/-- What the leader has settled for the slot (R98). -/
def Hart.recorded (h : Hart) : Option Ruling :=
  ((h.curConv.ctl.find? (fun p => p.1 == h.curConv.slot)).map Prod.snd)

/-- The harts that run the hart's convoy with it, their leader first: those that began it as a rope, else its rope (R18, R21). -/
def crewOf (s : State) (hk : Nat) : List Nat :=
  if (getHart s hk).curConv.crew.isEmpty then ropeOf s hk else (getHart s hk).curConv.crew

/-- The hart is a member of a rope other than its leader, or it runs a convoy that it began as one and that its leader is in too,
although the rope has since disbanded (R18, R21). -/
def isMember (s : State) (hk : Nat) : Bool :=
  match (getHart s hk).curConv.crew with
  | [] => (getHart s hk).inRope && decide (ropeLeader s hk ≠ hk)
  | l :: ms => decide (l ≠ hk) && decide ((getHart s l).curConv.crew = l :: ms)

/-- What the leader settles for member k is left in the convoy of every member that runs it with the leader (R98). -/
def recordRuling (s : State) (hk : Nat) (r : Nat → Ruling) : State :=
  if (getHart s hk).inRope || !(getHart s hk).curConv.crew.isEmpty then
    ((crewOf s hk).zipIdx).foldl (fun t m =>
      if (getHart s m.1).curConv.crew = (getHart s hk).curConv.crew then modHart t m.1 (fun h =>
        { h with conv := h.conv.map (fun c => { c with ctl := c.ctl ++ [((getHart s hk).curConv.slot, r m.2)] }) })
      else t) s
  else s

/-- A taken transfer changes the PC when the convoy retires (R96). -/
def Hart.transfer (h : Hart) (d : Option DWord × Bool) : Hart :=
  match d.1 with
  | some t => { h with conv := h.conv.map (fun c => { c with target := some t }) }
  | none => h

/-- A removed slot. A leader whose control slot is removed settles that nothing is done in it; a member whose slot is
removed follows the leader's PC all the same, once the leader has settled it, also where the rope has disbanded since (R19, R21,
R96, R98; log 73). -/
def removedBody (s : State) (hk : Nat) : SlotRes :=
  let h := getHart s hk
  if leaderRules (fieldMajor h.slotWord) (fieldFn h.slotWord) h.slotExt = false then .done s
  else match h.recorded with
    | some (.decided d) => .done (setHart s hk (h.transfer d))
    | some _ => .done s
    | none => if isMember s hk then .wait (.notReady false) s else .done (recordRuling s hk (fun _ => .skipped))

/-- What follows a removed slot: the prefix it was the target of is consumed, its format kept (R30, R176). -/
def finishRemoved (hk : Nat) (live : Bool) : SlotRes → State
  | .done t => modHart t hk (fun h => Hart.advance (if live then h.dropPrefix false else h))
  | .wait w t => beginWait t hk w
  | r => finishSlot hk live r

/-- One slot of the hart that runs: steps 2 to 4 of R73, then the instruction's own body. `legal` is the part of step 2
that only this instruction has. -/
def slotBody (major fn : Nat) (legal : Bool) (body : State → Nat → SlotRes) (s : State) : State :=
  let hk := s.cur
  let h := getHart s hk
  let live := h.prefixLive
  if !(allowed s hk major fn && legal) then finishSlot hk live (badInstruction s hk)
  else if slotRemoved h major fn then finishRemoved hk live (removedBody s hk)
  else if h.curConv.bad || selectorBad h major fn then finishSlot hk live (badOperand s hk)
  else finishSlot hk live (body s hk)

/-- The meaning of a slot instruction. -/
def runSlot (major fn : Nat) (body : State → Nat → SlotRes) (s : State) : Host.Outcome State Fault Refusal :=
  .next (slotBody major fn true body s)

/-- The meaning of a slot instruction with a check of its own at step 2 of R73. -/
def runSlotIf (major fn : Nat) (legal : State → Nat → Bool) (body : State → Nat → SlotRes) (s : State) :
    Host.Outcome State Fault Refusal :=
  .next (slotBody major fn (legal s s.cur) body s)

/-! ## Bodies over registers only -/

/-- A body that changes the hart alone; none raises ILLEGAL-OPERAND. -/
def hartBody (f : Hart → Option Hart) (s : State) (hk : Nat) : SlotRes :=
  match f (getHart s hk) with
  | some h => .done (setHart s hk h)
  | none => badOperand s hk

/-- A body that changes the hart and its core's vector pool; none raises ILLEGAL-OPERAND. -/
def localBody (f : Local → Option Local) (s : State) (hk : Nat) : SlotRes :=
  match f (getLocal s hk) with
  | some x => .done (setLocal s hk x)
  | none => badOperand s hk

/-- A scalar result is written and pushed (R10, R15, R83). -/
def Hart.result (h : Hart) (d : BitVec 7) (v : DWord) : Hart := pushS (writeS h d v) v

end Sys2Proof.Machine
end

