-- ==== Sys2Proof/Machine/Scalar.lean ====
section
/-! DEFINITION. Scalar integer and logic instructions, majors 0x00 to 0x08 (R83 to R92). -/
namespace Sys2Proof.Machine

open Sys2Proof

/-- reg format: sd := f sa sb (R84). -/
def reg3 (f : DWord → DWord → DWord) (a b c : BitVec 7) (h : Hart) : Option Hart := do
  guard (sDest a = true)
  let x ← readS h b
  let y ← readS h c
  some (h.result a (f x y))

/-- reg format that also reads the old sd: sd := f sd sa sb (R85, R90). -/
def reg3Old (f : DWord → DWord → DWord → DWord) (a b c : BitVec 7) (h : Hart) : Option Hart := do
  guard (sDest a = true)
  let d ← readS h a
  let x ← readS h b
  let y ← readS h c
  some (h.result a (f d x y))

/-- unary format: sd := f sa (R84). -/
def reg2 (f : DWord → DWord) (a b : BitVec 7) (h : Hart) : Option Hart := do
  guard (sDest a = true)
  let x ← readS h b
  some (h.result a (f x))

/-- imm and field formats: sd := f x, where x is sd in the short form and sb in the long form, and f may refuse its
immediate (R71, R88). -/
def immOp (f : DWord → Option DWord) (a src : BitVec 7) (h : Hart) : Option Hart := do
  guard (sDest a = true)
  let x ← readS h src
  let v ← f x
  some (h.result a v)

/-! ## Arithmetic (R85, R86) -/

/-- (signed x * signed y)[127:64] (R85). -/
def mulHighS (x y : DWord) : DWord := BitVec.ofInt 64 ((x.toInt * y.toInt) / (2 ^ 64 : Int))
/-- (unsigned x * unsigned y)[127:64] (R85). -/
def mulHighZ (x y : DWord) : DWord := BitVec.ofNat 64 (x.toNat * y.toNat / 2 ^ 64)

/-- Signed quotient of width w, rounded towards zero; -1 on division by zero; -2^(w-1) on overflow (R86, R110). -/
def divS {w : Nat} (x y : BitVec w) : BitVec w :=
  if y = 0 then BitVec.allOnes w else BitVec.ofInt w (x.toInt.tdiv y.toInt)
/-- Unsigned quotient; all ones on division by zero (R86, R110). -/
def divZ {w : Nat} (x y : BitVec w) : BitVec w := if y = 0 then BitVec.allOnes w else BitVec.ofNat w (x.toNat / y.toNat)
/-- Signed remainder with the sign of the dividend; the dividend on division by zero; 0 on overflow (R86, R110). -/
def remS {w : Nat} (x y : BitVec w) : BitVec w := if y = 0 then x else BitVec.ofInt w (x.toInt.tmod y.toInt)
/-- Unsigned remainder; the dividend on division by zero (R86, R110). -/
def remZ {w : Nat} (x y : BitVec w) : BitVec w := if y = 0 then x else BitVec.ofNat w (x.toNat % y.toNat)

/-- ADD, R85. -/
def execAdd (a b c : BitVec 7) (s : State) := runSlot 0x00 1 (hartBody (reg3 (· + ·) a b c)) s
/-- SUB, R85. -/
def execSub (a b c : BitVec 7) (s : State) := runSlot 0x00 2 (hartBody (reg3 (· - ·) a b c)) s
/-- MUL, R85. -/
def execMul (a b c : BitVec 7) (s : State) := runSlot 0x00 3 (hartBody (reg3 (· * ·) a b c)) s
/-- MULHS, R85. -/
def execMulhs (a b c : BitVec 7) (s : State) := runSlot 0x00 4 (hartBody (reg3 mulHighS a b c)) s
/-- MULHZ, R85. -/
def execMulhz (a b c : BitVec 7) (s : State) := runSlot 0x00 5 (hartBody (reg3 mulHighZ a b c)) s
/-- MADD, R85. -/
def execMadd (a b c : BitVec 7) (s : State) := runSlot 0x00 6 (hartBody (reg3Old (fun d x y => d + x * y) a b c)) s
/-- DIVS, R86. -/
def execDivs (a b c : BitVec 7) (s : State) := runSlot 0x01 0 (hartBody (reg3 divS a b c)) s
/-- DIVZ, R86. -/
def execDivz (a b c : BitVec 7) (s : State) := runSlot 0x01 1 (hartBody (reg3 divZ a b c)) s
/-- REMS, R86. -/
def execRems (a b c : BitVec 7) (s : State) := runSlot 0x01 2 (hartBody (reg3 remS a b c)) s
/-- REMZ, R86. -/
def execRemz (a b c : BitVec 7) (s : State) := runSlot 0x01 3 (hartBody (reg3 remZ a b c)) s

/-! ## Logic and shifts (R87) -/

/-- A shift or rotate amount: bits [5:0] (R87). -/
def amount6 (y : DWord) : Nat := y.toNat % 64

/-- AND, R87. -/
def execAndReg (a b c : BitVec 7) (s : State) := runSlot 0x02 0 (hartBody (reg3 (· &&& ·) a b c)) s
/-- OR, R87. -/
def execOrReg (a b c : BitVec 7) (s : State) := runSlot 0x02 1 (hartBody (reg3 (· ||| ·) a b c)) s
/-- XOR, R87. -/
def execXorReg (a b c : BitVec 7) (s : State) := runSlot 0x02 2 (hartBody (reg3 (· ^^^ ·) a b c)) s
/-- ANDN, R87. -/
def execAndn (a b c : BitVec 7) (s : State) := runSlot 0x02 3 (hartBody (reg3 (fun x y => x &&& ~~~y) a b c)) s
/-- SHL, R87. -/
def execShl (a b c : BitVec 7) (s : State) := runSlot 0x03 0 (hartBody (reg3 (fun x y => x <<< amount6 y) a b c)) s
/-- SHRS, R87. -/
def execShrs (a b c : BitVec 7) (s : State) := runSlot 0x03 1 (hartBody (reg3 (fun x y => x.sshiftRight (amount6 y)) a b c)) s
/-- SHRZ, R87. -/
def execShrz (a b c : BitVec 7) (s : State) := runSlot 0x03 2 (hartBody (reg3 (fun x y => x >>> amount6 y) a b c)) s
/-- ROTL, R87. -/
def execRotl (a b c : BitVec 7) (s : State) := runSlot 0x03 3 (hartBody (reg3 (fun x y => x.rotateLeft (amount6 y)) a b c)) s
/-- ROTR, R87. -/
def execRotr (a b c : BitVec 7) (s : State) := runSlot 0x03 4 (hartBody (reg3 (fun x y => x.rotateRight (amount6 y)) a b c)) s

/-! ## Immediates and constants (R88, R89) -/

/-- A shift by an immediate: none outside 0 to 63 (R88). -/
def shiftImm (f : DWord → Nat → DWord) (i : DWord) (x : DWord) : Option DWord :=
  if i.toNat < 64 then some (f x i.toNat) else none

/-- ADDI short form, R88. -/
def execAddiShort (a : BitVec 7) (i : BitVec 14) (s : State) := runSlot 0x04 0 (hartBody (immOp (fun x => some (x + imm14 i)) a a)) s
/-- ADDI long form, R88. -/
def execAddiLong (a b : BitVec 7) (e : Word) (s : State) := runSlot 0x04 0 (hartBody (immOp (fun x => some (x + imm32 e)) a b)) s
/-- ANDI short form, R88. -/
def execAndiShort (a : BitVec 7) (i : BitVec 14) (s : State) := runSlot 0x04 1 (hartBody (immOp (fun x => some (x &&& imm14 i)) a a)) s
/-- ANDI long form, R88. -/
def execAndiLong (a b : BitVec 7) (e : Word) (s : State) := runSlot 0x04 1 (hartBody (immOp (fun x => some (x &&& imm32 e)) a b)) s
/-- ORI short form, R88. -/
def execOriShort (a : BitVec 7) (i : BitVec 14) (s : State) := runSlot 0x04 2 (hartBody (immOp (fun x => some (x ||| imm14 i)) a a)) s
/-- ORI long form, R88. -/
def execOriLong (a b : BitVec 7) (e : Word) (s : State) := runSlot 0x04 2 (hartBody (immOp (fun x => some (x ||| imm32 e)) a b)) s
/-- XORI short form, R88. -/
def execXoriShort (a : BitVec 7) (i : BitVec 14) (s : State) := runSlot 0x04 3 (hartBody (immOp (fun x => some (x ^^^ imm14 i)) a a)) s
/-- XORI long form, R88. -/
def execXoriLong (a b : BitVec 7) (e : Word) (s : State) := runSlot 0x04 3 (hartBody (immOp (fun x => some (x ^^^ imm32 e)) a b)) s
/-- SHLI short form, R88. -/
def execShliShort (a : BitVec 7) (i : BitVec 14) (s : State) := runSlot 0x04 4 (hartBody (immOp (shiftImm (fun x n => x <<< n) (imm14 i)) a a)) s
/-- SHLI long form, R88. -/
def execShliLong (a b : BitVec 7) (e : Word) (s : State) := runSlot 0x04 4 (hartBody (immOp (shiftImm (fun x n => x <<< n) (imm32 e)) a b)) s
/-- ROTRI short form, R88. -/
def execRotriShort (a : BitVec 7) (i : BitVec 14) (s : State) := runSlot 0x04 5 (hartBody (immOp (shiftImm BitVec.rotateRight (imm14 i)) a a)) s
/-- ROTRI long form, R88. -/
def execRotriLong (a b : BitVec 7) (e : Word) (s : State) := runSlot 0x04 5 (hartBody (immOp (shiftImm BitVec.rotateRight (imm32 e)) a b)) s
/-- LIH, R89. -/
def execLih (a b : BitVec 7) (e : Word) (s : State) := runSlot 0x04 6 (hartBody (immOp (fun x => some (e ++ x.setWidth 32)) a b)) s

/-! ## Compare, select, minimum and maximum (R90) -/

/-- 1 if true, else 0, as a register value. -/
def flag64 (p : Bool) : DWord := if p then 1 else 0

/-- SLTS, R90. -/
def execSlts (a b c : BitVec 7) (s : State) := runSlot 0x05 0 (hartBody (reg3 (fun x y => flag64 (x.slt y)) a b c)) s
/-- SLTZ, R90. -/
def execSltz (a b c : BitVec 7) (s : State) := runSlot 0x05 1 (hartBody (reg3 (fun x y => flag64 (x.ult y)) a b c)) s
/-- SEL, R90. -/
def execSel (a b c : BitVec 7) (s : State) := runSlot 0x05 2 (hartBody (reg3Old (fun d x y => if d ≠ 0 then x else y) a b c)) s
/-- MINS, R90. -/
def execMins (a b c : BitVec 7) (s : State) := runSlot 0x06 0 (hartBody (reg3 (fun x y => if x.slt y then x else y) a b c)) s
/-- MINZ, R90. -/
def execMinz (a b c : BitVec 7) (s : State) := runSlot 0x06 1 (hartBody (reg3 (fun x y => if x.ult y then x else y) a b c)) s
/-- MAXS, R90. -/
def execMaxs (a b c : BitVec 7) (s : State) := runSlot 0x06 2 (hartBody (reg3 (fun x y => if x.slt y then y else x) a b c)) s
/-- MAXZ, R90. -/
def execMaxz (a b c : BitVec 7) (s : State) := runSlot 0x06 3 (hartBody (reg3 (fun x y => if x.ult y then y else x) a b c)) s

/-! ## Bit counts and byte order (R91) -/

/-- Zero bits of a w-bit value above its highest 1 bit; w when it is 0 (R91). -/
def leadingZeros (w v : Nat) : Nat := if v = 0 then w else w - 1 - v.log2
/-- Zero bits below the lowest 1 bit, counted up to w (R91). -/
def trailingZeros : Nat → Nat → Nat
  | 0, _ => 0
  | w + 1, v => if v % 2 = 1 then 0 else 1 + trailingZeros w (v / 2)
/-- 1 bits among the low w (R91). -/
def onesIn : Nat → Nat → Nat
  | 0, _ => 0
  | w + 1, v => v % 2 + onesIn w (v / 2)
/-- Byte k becomes byte 7 - k (R91). -/
def swapBytes (x : DWord) : DWord := BitVec.ofNat 64 (valueOf (bytesOf x.toNat 8).reverse)

/-- CLZ, R91. -/
def execClz (a b : BitVec 7) (s : State) := runSlot 0x07 0 (hartBody (reg2 (fun x => BitVec.ofNat 64 (leadingZeros 64 x.toNat)) a b)) s
/-- CTZ, R91. -/
def execCtz (a b : BitVec 7) (s : State) := runSlot 0x07 1 (hartBody (reg2 (fun x => BitVec.ofNat 64 (trailingZeros 64 x.toNat)) a b)) s
/-- POPC, R91. -/
def execPopc (a b : BitVec 7) (s : State) := runSlot 0x07 2 (hartBody (reg2 (fun x => BitVec.ofNat 64 (onesIn 64 x.toNat)) a b)) s
/-- BSWAP, R91. -/
def execBswap (a b : BitVec 7) (s : State) := runSlot 0x07 3 (hartBody (reg2 swapBytes a b)) s

/-! ## Bit fields (R92) -/

/-- A field descriptor: POS and LEN; none when the field leaves the register (R92). -/
def fieldDesc (pos len : Nat) : Option (Nat × Nat) := if pos + len + 1 > 64 then none else some (pos, len + 1)
/-- The descriptor of an extension word; none when bits [31:12] are not 0 (R92). -/
def fieldWord (e : Word) : Option (Nat × Nat) := if bits e 31 12 ≠ 0 then none else fieldDesc (bits e 5 0) (bits e 11 6)
/-- The field of x, zero-extended (R92). -/
def extractZ (d : Nat × Nat) (x : DWord) : DWord := BitVec.ofNat 64 (x.toNat / 2 ^ d.1 % 2 ^ d.2)
/-- The field of x, sign-extended from its top bit (R92). -/
def extractS (d : Nat × Nat) (x : DWord) : DWord := BitVec.ofInt 64 (toSigned d.2 (x.toNat / 2 ^ d.1))

/-- `bins`: the low L bits of x take the field's place in the old sd (R92). -/
def insertField (e : Word) (a b : BitVec 7) (h : Hart) : Option Hart := do
  guard (sDest a = true)
  let t ← readS h a
  let x ← readS h b
  let d ← fieldWord e
  some (h.result a (withBits t (d.1 + d.2 - 1) d.1 x.toNat))

/-- BEXTS short form, R92. -/
def execBextsShort (a : BitVec 7) (p l : BitVec 6) (s : State) :=
  runSlot 0x08 0 (hartBody (immOp (fun x => (fieldDesc p.toNat l.toNat).map (fun d => extractS d x)) a a)) s
/-- BEXTS long form, R92. -/
def execBextsLong (a b : BitVec 7) (e : Word) (s : State) :=
  runSlot 0x08 0 (hartBody (immOp (fun x => (fieldWord e).map (fun d => extractS d x)) a b)) s
/-- BEXTZ short form, R92. -/
def execBextzShort (a : BitVec 7) (p l : BitVec 6) (s : State) :=
  runSlot 0x08 1 (hartBody (immOp (fun x => (fieldDesc p.toNat l.toNat).map (fun d => extractZ d x)) a a)) s
/-- BEXTZ long form, R92. -/
def execBextzLong (a b : BitVec 7) (e : Word) (s : State) :=
  runSlot 0x08 1 (hartBody (immOp (fun x => (fieldWord e).map (fun d => extractZ d x)) a b)) s
/-- BINS, R92. -/
def execBins (a b : BitVec 7) (e : Word) (s : State) := runSlot 0x08 2 (hartBody (insertField e a b)) s

end Sys2Proof.Machine
end

