-- ==== Sys2Proof/Machine/Control.lean ====
section
/-! DEFINITION. Control instructions, majors 0x10 to 0x13 (R93 to R101), and the outcomes a rope leader decides for its
members (R19, R98). -/
namespace Sys2Proof.Machine

open Sys2Proof

/-- What a control slot decides: its target if taken, and whether `lrot` starts a new first stage (R97, R98). -/
abbrev Decision := Option DWord × Bool

/-- A leader's decision is recorded in the convoy of every member (R21, R98). -/
def recordDecision (s : State) (hk : Nat) (d : Decision) : State := recordRuling s hk (fun _ => .decided d)

/-- The outcome of a control slot on a hart: the decision's register writes and its transfer are made (R97, R98). -/
def applyDecision (apply : Decision → Hart → Option Hart) (d : Decision) (s : State) (hk : Nat) : SlotRes :=
  match apply d (getHart s hk) with
  | some g => .done (setHart s hk (g.transfer d))
  | none => badOperand s hk

/-- A control slot: the hart's own operands decide, or a rope leader's decision does (R97, R98). A member whose
leader has left the convoy before it reached the slot decides on its own operands, and nothing is done in a slot that the
leader's mask removed (DESIGN CHOICE, log 73). -/
def controlBody (own : Hart → Option Decision) (run : Decision → State → Nat → SlotRes) (s : State) (hk : Nat) :
    SlotRes :=
  let h := getHart s hk
  match h.recorded with
  | some (.decided d) => run d s hk
  | some _ => .done s
  | none =>
    if isMember s hk then .wait (.notReady false) s
    else match own h with
      | some d => run d (recordDecision s hk d) hk
      | none => badOperand s hk

/-- The address o convoys from this one (R93). -/
def convoyTarget (pc : DWord) (o : Int) : DWord := BitVec.ofNat 64 (addOfs pc.toNat (16 * o))

/-- A conditional branch on two scalar operands (R94). -/
def branchOn (p : DWord → DWord → Bool) (a b : BitVec 7) (o : Int) : State → Nat → SlotRes :=
  controlBody
    (fun h => do
      let x ← readS h a
      let y ← readS h b
      some (if p x y then some (convoyTarget h.pc o) else none, false))
    (applyDecision (fun _ h => some h))

/-- Some bit of a mask below VL is 1 (R94). -/
def anyBelow (h : Hart) (m : VReg) : Bool := decide (m.toNat % 2 ^ h.vl.toNat ≠ 0)

/-- `br.any` (R94). -/
def branchAny (m : BitVec 7) (o : Int) : State → Nat → SlotRes :=
  controlBody
    (fun h => do
      let x ← readM h m
      some (if anyBelow h x then some (convoyTarget h.pc o) else none, false))
    (applyDecision (fun _ h => some h))

/-- `jmp` (R95). -/
def jumpTo (o : Int) : State → Nat → SlotRes :=
  controlBody (fun h => some (some (convoyTarget h.pc o), false)) (applyDecision (fun _ h => some h))

/-- The link value is written and pushed (R95). -/
def linkTo (a : BitVec 7) (_d : Decision) (h : Hart) : Option Hart :=
  if sDest a then some (h.result a (h.pc + 16)) else none

/-- `jal` (R95). -/
def jumpLink (a : BitVec 7) (o : Int) : State → Nat → SlotRes :=
  controlBody (fun h => some (some (convoyTarget h.pc o), false)) (applyDecision (linkTo a))

/-- `jr` on a hart: a target with any of bits [3:0] set raises ALIGN and writes nothing, else the link is written and the
transfer made (R65, R95). -/
def jumpTaken (a b : BitVec 7) (d : Decision) (s : State) (hk : Nat) : SlotRes :=
  match d.1, readS (getHart s hk) b with
  | some t, some _ =>
    if sDest a = true ∧ t.toNat % 16 ≠ 0 then .trap cALIGN (alignInfo 16 true) t 0 0 s
    else applyDecision (linkTo a) d s hk
  | _, _ => badOperand s hk

/-- `jr`: the target that a rope's leader reads holds for every member, and so does its misalignment (R95, R98). -/
def jumpReg (a b : BitVec 7) : State → Nat → SlotRes :=
  controlBody (fun h => (readS h b).map (fun t => (some t, false))) (jumpTaken a b)

/-- The decision of `lrot` on a pass counter (R99). -/
def lrotDecide (x : DWord) (d : BitVec 7) (target : DWord) : Decision :=
  if x.toInt > 0 then (some target, decide (x.toInt - 1 ≥ (d.toNat : Int))) else (none, false)

/-- SPRD after `lrot`: shifted left by one, with the new first stage in bit 0 (R99). -/
def lrotSprd (w : Word) (f : Bool) : Word := (w <<< 1) ||| (if f then 1 else 0)

/-- ROF one step on, when the region is not empty (R12, R99). -/
def Hart.rotate (h : Hart) : Hart :=
  if h.rotR = 0 then h else { h with wbase := withBits h.wbase 37 32 ((h.rof + 1) % h.rotR) }

/-- The updates of the case of `lrot` that was chosen (R98, R99). -/
def lrotApply (a d : BitVec 7) (c : Decision) (h : Hart) : Option Hart := do
  guard (sDest a = true ∧ d.toNat ≤ 30)
  let x ← readS h a
  let g := if c.1.isSome then writeS h a (x - 1) else h
  some (Hart.rotate { g with sprd := lrotSprd g.sprd c.2 })

/-- `lrot` (R99). -/
def loopRotate (a d : BitVec 7) (o : Int) : State → Nat → SlotRes :=
  controlBody
    (fun h => do
      guard (sDest a = true ∧ d.toNat ≤ 30)
      let x ← readS h a
      some (lrotDecide x d (convoyTarget h.pc o)))
    (applyDecision (lrotApply a d))

/-- WBASE.S may take a value (R10). -/
def baseSOk (v : Int) : Bool := decide (0 ≤ v ∧ v ≤ 160 ∧ v % 16 = 0)
/-- WBASE.V may take a value: a multiple of 8 with 96 names inside the allocation (R11); a hart without an allocation
keeps 0. -/
def baseVOk (h : Hart) (v : Int) : Bool :=
  decide (0 ≤ v ∧ v % 8 = 0) && (if h.chunks.isEmpty then decide (v = 0) else decide (v + 96 ≤ (h.valloc : Int)))

/-- `wbase`: the windows move by 16 * ds scalar and 8 * dv vector registers (R100). -/
def moveWindows (ds dv : BitVec 7) (h : Hart) : Option Hart :=
  let sB : Int := h.wbS + 16 * ds.toInt
  let vB : Int := h.wbV + 8 * dv.toInt
  if baseSOk sB && baseVOk h vB then
    some { h with wbase := withBits (withBits h.wbase 7 0 sB.toNat) 24 16 vB.toNat }
  else none

/-! ## The instructions -/

/-- BR_EQ short form, R94. -/
def execBrEqShort (a b o : BitVec 7) (s : State) := runSlot 0x10 0 (branchOn (fun x y => x == y) a b o.toInt) s
/-- BR_EQ long form, R94. -/
def execBrEqLong (a b : BitVec 7) (e : Word) (s : State) := runSlot 0x10 0 (branchOn (fun x y => x == y) a b e.toInt) s
/-- BR_NE short form, R94. -/
def execBrNeShort (a b o : BitVec 7) (s : State) := runSlot 0x10 1 (branchOn (fun x y => x != y) a b o.toInt) s
/-- BR_NE long form, R94. -/
def execBrNeLong (a b : BitVec 7) (e : Word) (s : State) := runSlot 0x10 1 (branchOn (fun x y => x != y) a b e.toInt) s
/-- BR_LTS short form, R94. -/
def execBrLtsShort (a b o : BitVec 7) (s : State) := runSlot 0x10 2 (branchOn (fun x y => x.slt y) a b o.toInt) s
/-- BR_LTS long form, R94. -/
def execBrLtsLong (a b : BitVec 7) (e : Word) (s : State) := runSlot 0x10 2 (branchOn (fun x y => x.slt y) a b e.toInt) s
/-- BR_GES short form, R94. -/
def execBrGesShort (a b o : BitVec 7) (s : State) := runSlot 0x10 3 (branchOn (fun x y => !x.slt y) a b o.toInt) s
/-- BR_GES long form, R94. -/
def execBrGesLong (a b : BitVec 7) (e : Word) (s : State) := runSlot 0x10 3 (branchOn (fun x y => !x.slt y) a b e.toInt) s
/-- BR_LTZ short form, R94. -/
def execBrLtzShort (a b o : BitVec 7) (s : State) := runSlot 0x10 4 (branchOn (fun x y => x.ult y) a b o.toInt) s
/-- BR_LTZ long form, R94. -/
def execBrLtzLong (a b : BitVec 7) (e : Word) (s : State) := runSlot 0x10 4 (branchOn (fun x y => x.ult y) a b e.toInt) s
/-- BR_GEZ short form, R94. -/
def execBrGezShort (a b o : BitVec 7) (s : State) := runSlot 0x10 5 (branchOn (fun x y => !x.ult y) a b o.toInt) s
/-- BR_GEZ long form, R94. -/
def execBrGezLong (a b : BitVec 7) (e : Word) (s : State) := runSlot 0x10 5 (branchOn (fun x y => !x.ult y) a b e.toInt) s
/-- BR_ANY short form, R94. -/
def execBrAnyShort (m o : BitVec 7) (s : State) := runSlot 0x10 6 (branchAny m o.toInt) s
/-- BR_ANY long form, R94. -/
def execBrAnyLong (m : BitVec 7) (e : Word) (s : State) := runSlot 0x10 6 (branchAny m e.toInt) s
/-- JMP short form, R95. -/
def execJmpShort (o : BitVec 14) (s : State) := runSlot 0x11 0 (jumpTo o.toInt) s
/-- JMP long form, R95. -/
def execJmpLong (e : Word) (s : State) := runSlot 0x11 0 (jumpTo e.toInt) s
/-- JAL short form, R95. -/
def execJalShort (a : BitVec 7) (o : BitVec 14) (s : State) := runSlot 0x11 1 (jumpLink a o.toInt) s
/-- JAL long form, R95. -/
def execJalLong (a : BitVec 7) (e : Word) (s : State) := runSlot 0x11 1 (jumpLink a e.toInt) s
/-- JR, R95. -/
def execJr (a b : BitVec 7) (s : State) := runSlot 0x11 2 (jumpReg a b) s
/-- LROT short form, R99. -/
def execLrotShort (a d o : BitVec 7) (s : State) := runSlot 0x12 0 (loopRotate a d o.toInt) s
/-- LROT long form, R99. -/
def execLrotLong (a d : BitVec 7) (e : Word) (s : State) := runSlot 0x12 0 (loopRotate a d e.toInt) s
/-- WBASE, R100. -/
def execWbase (ds dv : BitVec 7) (s : State) := runSlot 0x12 1 (hartBody (moveWindows ds dv)) s
/-- NOP, R101. -/
def execNop (s : State) := runSlot 0x13 0 (hartBody some) s
/-- YIELD, R101. -/
def execYield (s : State) := runSlot 0x13 1 (hartBody (fun h => some { h with yield := true })) s

end Sys2Proof.Machine
end

