-- ==== Sys2Proof/Machine/Devices.lean ====
section
/-! DEFINITION. The class-2 registers (R313, R365, R372, R377, R388 to R390, R392): which accesses they refuse, what they
read and what a store does when it performs; the command fault of a doorbell (R383). -/
namespace Sys2Proof.Machine

open Sys2Proof

/-! ## Addresses (R388) -/

/-- Device, die, unit and offset of a class-2 address (R388). -/
def regDev (l : Nat) : Nat := l / 2 ^ 38 % 8
/-- Die of a class-2 address. -/
def regDie (l : Nat) : Nat := l / 2 ^ 35 % 8
/-- Unit of a class-2 address. -/
def regUnit (l : Nat) : Nat := l / 2 ^ 27 % 256
/-- Offset of a class-2 address. -/
def regOfs (l : Nat) : Nat := l % 2 ^ 27
/-- The die key of a class-2 address. -/
def regDieKey (l : Nat) : Nat := regDev l * 8 + regDie l
/-- The core key of a tile's register. -/
def regCore (l : Nat) : Nat := regDieKey l * 128 + regUnit l

/-- An 8-byte access reaches a register: the unit and offset are defined, and the firewall's registers are reached in
firmware mode (R372, R388, R389). -/
def regReached (s : State) (mode l : Nat) : Bool :=
  let u := regUnit l
  let o := regOfs l
  decide (l / 2 ^ 41 % 8 = 0) &&
    (if u < 96 then decide (o = 0) || (decide (o = 0x100) && isFwCol s (regCore l) && decide (mode = 3))
     else if u < 0x6C then decide (o = 0 ∨ o = 8)
     else if u = 0x70 then (decide (o = 0 ∨ o = 8) && decide (mode = 3)) || decide (o = 0x100)
     else if u = 0x80 then decide (o % 8 = 0 ∧ o / 8 < 4096)
     else if u = 0x90 then decide (o % 8 = 0 ∧ o / 8 < 7)
     else if u = 0xA0 then decide (o % 8 = 0 ∧ o / 8 < 16)
     else false)

/-- An 8-byte access of a hart reaches a register that its traffic has a route to (R388, R389, R396). -/
def regFor (s : State) (hk l : Nat) : Bool :=
  regReached s (getHart s hk).mode l && routed s (devOfHart hk) (holderDev (devOfHart hk) l)

/-- What a register reads; one that is written only reads 0 (R2, R388). -/
def regRead (s : State) (l : Nat) : DWord :=
  let u := regUnit l
  let o := regOfs l
  if u < 96 then (if o = 0x100 then (getCore s (regCore l)).fwctl else 0)
  else if u < 0x6C then (if o = 0 then (getClus s (regDieKey l * 16 + (u - 96))).fille else 0)
  else if u = 0x70 then
    (if o = 0 then (getDie s (regDieKey l)).fwlo else if o = 8 then (getDie s (regDieKey l)).fwhi else 0)
  else if u = 0x90 then SMap.get 0 (getDev s (regDev l)).rlstat (o / 8)
  else if u = 0xA0 then SMap.get 0 (getDev s (regDev l)).ethstat (o / 8)
  else 0

/-- A reprojection unit of a device is fenced, so the device takes no further job (R405, R408). -/
def repOut (s : State) (dev : Nat) : Bool := (diesOfDev dev).any (fun k => (getDie s k).repFenced)

/-! ## Stores as they perform -/

/-- A kick joins an engine's queue: at most one runs and four wait, and a further kick does not perform (R392). -/
def kickEngine (s : State) (ck dev ctx : Nat) (v : DWord) (walk : Option (Nat × Nat)) : Option State :=
  if (getCore s ck).kicks.length ≥ 5 then none
  else some (modCore s ck (fun c => { c with kicks := c.kicks ++ [{ ctx := ctx, desc := v, dev := dev, walk := walk }] }))

/-- A job joins a device's reprojection jobs: at most one runs and four wait (R365). Its launch does not end before the
job. -/
def kickReproject (s : State) (dev ctx launch : Nat) (v : DWord) : Option State :=
  let js := SMap.get [] s.jobs dev
  if js.length ≥ 5 then none
  else some (launchAdd { s with jobs := SMap.set [] s.jobs dev (js ++ [{ ctx := ctx, launch := launch, addr := v }]) } launch 1)

/-- FWCTL after a write: nothing changes once LOCK is 1 (R372). -/
def writeFwctl (old v : DWord) : DWord :=
  if bit old 62 then old else withBits (withBits 0 63 62 (bits v 63 62)) 0 0 (bits v 0 0)

/-- Every miss with a tag is answered: the entry is installed, or its harts get the reason of a PAGE-FAULT. One that a
`tlbi` has overtaken is asked for again (R277, R310, R313). -/
def completeFill (s : State) (clk : Nat) (v : DWord) : State :=
  let c := getClus s clk
  match c.misses.find? (fun m => m.tag == bits v 15 0) with
  | none => s
  | some m =>
    let rest := c.misses.filter (fun x => x.tag != m.tag)
    let status := bits v 63 56
    let e := c.fille
    let fail (r : Nat) : State :=
      setClus s clk { c with misses := rest, fails := c.fails ++ m.harts.map (fun h => (h, m.ctx, m.page, r)) }
    if m.stale then setClus s clk { c with misses := rest }
    else if status = 1 then fail 0
    else if status ≠ 0 ∨ leafBad e = true then fail 2
    else
      let z := entrySize e
      setClus s clk (clusFill { c with misses := rest } ⟨m.ctx, (m.va.toNat % 2 ^ 56) >>> z, z, e⟩)

/-- The die that serves a submission queue, as a die key (R376). -/
def sqDie (dev : Nat) (q : Sq) : Nat := dev * 8 + bits (q.desc.getD 1 0) 55 48 % 8

/-- FREC's first word (R383). -/
def frecWord (sqn reason level node : Nat) : Nat :=
  sqn % 4096 + reason % 16 * 2 ^ 12 + level % 8 * 2 ^ 16 + node % 65536 * 2 ^ 32

/-- A command fault fences the queue, writes FREC and, when FH = 1, sends COMMAND-FAULT to FHART (R383). -/
def commandFault (s : State) (qk reason level node : Nat) (addr : Nat) : State :=
  match SMap.find s.sqs qk with
  | none => s
  | some q =>
    let dev := qk / 4096
    let w := frecWord (qk % 4096) reason level node
    let s1 := noteFence { s with sqs := SMap.put s.sqs qk { q with fenced := true } } dev
    let s2 := ownerWrite s1 dev q.ctx (q.desc.getD 3 0).toNat 64 (w + addr % 2 ^ 64 * 2 ^ 64)
    if bit (q.desc.getD 1 0) 9 then
      let fh := bits (q.desc.getD 2 0) 12 0
      queueAsync s2 (coreOfNum dev (fh / 8) * 8 + fh % 8) ⟨cCOMMANDFAULT, w % 2 ^ 32, 0⟩
    else s2

/-- A doorbell store carries a tail: accepted, stale, or out of range (R377). -/
def ringDoorbell (s : State) (qk : Nat) (v : DWord) : State :=
  match SMap.find s.sqs qk with
  | none => s
  | some q =>
    let t := v.toNat % 2 ^ 32
    let size := 2 ^ (bits (q.desc.getD 1 0) 7 0 % 32)
    let m : Nat := 2 ^ 32
    if (t + m - q.head) % m ≤ size then
      (if (t + m - q.head) % m > (q.tail + m - q.head) % m then
        { s with sqs := SMap.put s.sqs qk { q with tail := t } } else s)
    else if (q.head + m - t) % m ≤ size then s
    else if q.fenced then s
    else commandFault s qk 5 0 0 0

/-- A store to a class-2 register performs; none while the register takes it no further (R389). -/
def performReg (s : State) (hk : Nat) (r : RegStore) : Option State :=
  let l := r.loc
  let u := regUnit l
  let o := regOfs l
  let dk := regDieKey l
  if u < 96 then
    if o = 0 then
      (if (getCore s (regCore l)).engFenced then some (queueAsync s hk ⟨cREMOTENACK, nackInfo .store 0, r.va⟩)
       else kickEngine s (regCore l) (devOfHart hk) r.ctx r.val none)
    else some (modCore s (regCore l) (fun c => { c with fwctl := writeFwctl c.fwctl r.val }))
  else if u < 0x6C then
    let clk := dk * 16 + (u - 96)
    if o = 0 then some (modClus s clk (fun c => { c with fille := r.val })) else some (completeFill s clk r.val)
  else if u = 0x70 then
    if o = 0 then some (modDie s dk (fun d => { d with fwlo := BitVec.ofNat 64 (bits r.val 37 0) }))
    else if o = 8 then some (modDie s dk (fun d => { d with fwhi := BitVec.ofNat 64 (bits r.val 37 0) }))
    else if repOut s (regDev l) then some (queueAsync s hk ⟨cREMOTENACK, nackInfo .store 0, r.va⟩)
    else kickReproject s (regDev l) r.ctx r.launch r.val
  else if u = 0x80 then
    match SMap.find s.sqs (regDev l * 4096 + o / 8) with
    | some q => if sqDie (regDev l) q = dk then some (ringDoorbell s (regDev l * 4096 + o / 8) r.val) else some s
    | none => some s
  else some s

/-- A store to a class-2 register is refused when it is issued: nothing is reached, the engine is fenced, or a
reprojection kick comes from a hart without a task (R365, R389, R408). -/
def regStoreRefused (s : State) (hk l : Nat) : Bool :=
  let h := getHart s hk
  !regReached s h.mode l
    || (decide (regUnit l < 96 ∧ regOfs l = 0) && (getCore s (regCore l)).engFenced)
    || (decide (regUnit l = 0x70 ∧ regOfs l = 0x100) && (h.task.isNone || repOut s (regDev l)))

/-- A store of a hart to a class-2 register as it goes out. -/
def regStore (s : State) (hk l : Nat) (va v : DWord) : RegStore :=
  let h := getHart s hk
  { loc := l, va := va, val := v, ctx := h.ctxid.toNat, mode := h.mode,
    launch := match h.task with | some t => t.launch | none => 0 }

/-- A store of the hart's tile to a register of the same tile is on its way, which a load of the register waits for: requests of
one pair of tiles arrive in the order in which they were sent (R150, R387). -/
def regPending (s : State) (hk l : Nat) : Bool :=
  s.ops.any (fun p => coreOf p.2.hart == coreOf hk && (match p.2.reg with
    | some r => decide (regDieKey r.loc = regDieKey l ∧ regUnit r.loc = regUnit l)
    | none => false))

end Sys2Proof.Machine
end

