-- ==== Sys2Proof/Machine/EventUnit.lean ====
section
/-! DEFINITION. The event window and the cluster event units (R168 to R171): barriers, mutexes and events, and the steps
by which a unit releases and grants. -/
namespace Sys2Proof.Machine

open Sys2Proof

/-! ## Objects -/

/-- Object n of a kind: 0 barrier, 1 mutex, 2 event (R168). -/
def evGet (s : State) (clk kind n : Nat) : EvObj :=
  let c := getClus s clk
  SMap.get {} (if kind = 0 then c.bars else if kind = 1 then c.muts else c.evts) n

/-- The state with an object replaced. -/
def evPut (s : State) (clk kind n : Nat) (o : EvObj) : State :=
  modClus s clk (fun c =>
    if kind = 0 then { c with bars := SMap.set {} c.bars n o }
    else if kind = 1 then { c with muts := SMap.set {} c.muts n o }
    else { c with evts := SMap.set {} c.evts n o })

/-- V of a configuration (R170). -/
def EvObj.v (o : EvObj) : Bool := bit o.cfg 63
/-- PV of a configuration (R170). -/
def EvObj.chained (o : EvObj) : Bool := bit o.cfg 62
/-- CTX of a configuration (R170). -/
def EvObj.ctx (o : EvObj) : Nat := bits o.cfg 31 16
/-- COUNT of a configuration (R170). -/
def EvObj.count (o : EvObj) : Nat := bits o.cfg 15 0
/-- The parent of a chained barrier: cluster key and index (R170). -/
def EvObj.parent (o : EvObj) : Nat × Nat :=
  ((bits o.cfg 61 59 * 8 + bits o.cfg 58 56) * 16 + bits o.cfg 55 52, bits o.cfg 51 46)

/-- The hart may use the object: V = 1 and its own context (R169). -/
def EvObj.usable (o : EvObj) (h : Hart) : Bool := o.v && decide (o.ctx = h.ctxid.toNat)

/-- The objects a kind has (R168). -/
def evCount (kind : Nat) : Nat := if kind = 2 then 256 else 64

/-- An operation exists and is reached by a load or by a store (R169). -/
def evDirection (kind op : Nat) (store : Bool) : Bool :=
  match kind, op with
  | 0, 0 => !store | 0, 1 => !store | 0, 2 => store | 0, 3 => store
  | 1, 0 => !store | 1, 1 => store | 1, 2 => !store | 1, 3 => store
  | 2, 0 => !store | 2, 1 => store | 2, 2 => store | 2, 3 => store
  | _, _ => false

/-- The address of an object and operation (R168). -/
def evAddr (kind op n : Nat) : DWord := BitVec.ofNat 64 (0xE3 * 2 ^ 56 + kind % 4 * 2 ^ 14 + op % 4 * 2 ^ 12 + n % 512 * 8)

/-- An access to the window raises WINDOW-FAULT (R168, R169). -/
def evFault (h : Hart) (va : DWord) (store : Bool) : Bool :=
  let kind := bits va 15 14
  let op := bits va 13 12
  decide (bits va 55 16 ≠ 0) || h.idem || !decide (bits va 11 3 < evCount kind) || !evDirection kind op store
    || (decide (op = 3) && decide (h.mode = 0))

/-- INFO of the unit's REMOTE-NACK (R271). -/
def evNack (store : Bool) : Nat := b2n store * 4 + 1

/-- A configuration word may be written by a hart (R170). -/
def evConfigOk (h : Hart) (kind : Nat) (v : DWord) : Bool :=
  decide (bits v 45 32 = 0) && (!bit v 63 ||
    (decide (bits v 55 52 < 12)
      && (if kind = 0 then decide (bits v 15 0 ≠ 0) && (bit v 62 || decide (bits v 61 46 = 0))
          else decide (bits v 62 46 = 0 ∧ bits v 15 0 = 0))
      && (decide (h.mode ≠ 1) || decide (bits v 31 16 = h.ctxid.toNat))))

/-! ## What the units do -/

/-- Every waiter of a list is released with a value. -/
def releaseAll (s : State) (ws : List Nat) (v : DWord) : State := ws.foldl (fun t hk => releaseEv t hk v) s

/-- The generation a new arrival belongs to (R169). -/
def EvObj.nextGen (o : EvObj) : Nat := o.gen + (if o.count = 0 then 0 else o.arrivals / o.count)

/-- The step a met barrier makes due: its release, or its arrival at its parent (R169, R170). -/
def barrierDue (s : State) (clk n : Nat) (o : EvObj) : State :=
  if o.v = false ∨ o.arrivals < o.count then s
  else if o.chained = false then post s (.barrierRelease clk n)
  else if o.sent then s else post s (.barrierParentArrival clk n)

/-- An arrival at a barrier; the one that meets COUNT makes its release due (R169). -/
def barrierArrival (s : State) (clk n : Nat) (waiter : Option Nat) : State :=
  let o := evGet s clk 0 n
  let o1 := { o with arrivals := o.arrivals + 1,
                     waiters := match waiter with | some hk => o.waiters ++ [hk] | none => o.waiters }
  let s1 := evPut s clk 0 n o1
  if o1.arrivals = o1.count then barrierDue s1 clk n o1 else s1

/-- A waiter of a barrier waits for a generation. -/
def waitsGen (s : State) (g hk : Nat) : Bool :=
  match (getHart s hk).wait with | .event 0 _ k => k % 2 ^ 47 == g % 2 ^ 47 | _ => false

/-- The chained children of a barrier that have sent their arrival, as cluster and index (R170). -/
def barrierChildren (s : State) (clk n : Nat) : List (Nat × Nat) :=
  s.clusters.flatMap (fun c => (c.2.bars.filter (fun b =>
    b.2.v && b.2.chained && b.2.sent && !b.2.met && decide (b.2.parent = (clk, n)))).map (fun b => (c.1, b.1)))

/-- A barrier releases: its waiters of the generation return it together, the generation advances, and its children
release (R169, R170). -/
def releaseBarrier (s : State) (clk n : Nat) : State :=
  let o := evGet s clk 0 n
  if o.v = false ∨ o.arrivals < o.count ∨ (o.chained = true ∧ o.met = false) then s
  else
    let mine := o.waiters.filter (waitsGen s o.gen)
    let o1 := { o with arrivals := o.arrivals - o.count, gen := (o.gen + 1) % 2 ^ 48, sent := false, met := false,
                       waiters := o.waiters.filter (fun w => !mine.contains w) }
    let s1 := releaseAll (evPut s clk 0 n o1) mine (BitVec.ofNat 64 o.gen)
    let s2 := (barrierChildren s1 clk n).foldl (fun t c =>
      post (evPut t c.1 0 c.2 { evGet t c.1 0 c.2 with met := true }) (.barrierRelease c.1 c.2)) s1
    barrierDue s2 clk n o1

/-- A chained barrier whose COUNT is met sends one arrival to its parent (R170). -/
def arriveParent (s : State) (clk n : Nat) : State :=
  let o := evGet s clk 0 n
  if o.v = false ∨ o.chained = false ∨ o.sent = true ∨ o.arrivals < o.count then s
  else
    let s1 := evPut s clk 0 n { o with sent := true }
    let p := o.parent
    let q := evGet s1 p.1 0 p.2
    if q.v && decide (q.ctx = o.ctx) then barrierArrival s1 p.1 p.2 none else s1

/-- A free mutex goes to its oldest waiter (R169). -/
def grantMutex (s : State) (clk n : Nat) : State :=
  let o := evGet s clk 1 n
  match o.holder, o.waiters with
  | none, w :: ws => releaseEv (evPut s clk 1 n { o with holder := some w, waiters := ws }) w 1
  | _, _ => s

/-- An object is configured: a new configuration with nothing arrived, held or set, and its waiters return 0 (R170). -/
def configureObj (s : State) (clk kind n : Nat) (v : DWord) : State :=
  let o := evGet s clk kind n
  releaseAll (evPut s clk kind n { cfg := if bit v 63 then v else 0 }) o.waiters 0

/-! ## Loads -/

/-- A generation, modulo 2^47, that an arrival was counted in has not been released: it is the current one or one ahead of it
(R171). -/
def EvObj.owes (o : EvObj) (g : Nat) : Bool := decide ((g + 2 ^ 47 - o.gen % 2 ^ 47) % 2 ^ 47 < 2 ^ 46)

/-- A loaded value is written and pushed (R151). -/
def evReturn (s : State) (hk : Nat) (a : BitVec 7) (v : DWord) : SlotRes :=
  .done (modHart s hk (fun h => h.result a v))

/-- The wait of an event-window load begins or goes on. -/
def evWait (s : State) (kind n g : Nat) : SlotRes := .wait (.event kind n g) s

/-- The effect of a load on a usable object (R169, R171). -/
def evLoadBody (kind op n : Nat) (a : BitVec 7) (s : State) (hk : Nat) : SlotRes :=
  let clk := clusKey (coreOf hk)
  let h := getHart s hk
  let o := evGet s clk kind n
  match kind, op with
  | 0, 0 =>
    if h.curConv.resumed && decide (h.curConv.bitpos ≥ 2 ^ 47) then
      let g := h.curConv.bitpos % 2 ^ 47
      if o.owes g then evWait (evPut s clk 0 n { o with waiters := o.waiters ++ [hk] }) 0 n g
      else evReturn s hk a (BitVec.ofNat 64 g)
    else evWait (barrierArrival s clk n (some hk)) 0 n o.nextGen
  | 0, _ => evReturn s hk a (BitVec.ofNat 64 (o.arrivals % 2 ^ 16 * 2 ^ 48 + o.gen))
  | 1, 0 =>
    if h.curConv.resumed && decide (h.curConv.bitpos = 1) then evReturn s hk a 1
    else if o.holder.isNone && o.waiters.isEmpty then
      evReturn (evPut s clk 1 n { o with holder := some hk }) hk a 1
    else evWait (evPut s clk 1 n { o with waiters := o.waiters ++ [hk] }) 1 n 0
  | 1, _ =>
    if o.holder.isNone && o.waiters.isEmpty then evReturn (evPut s clk 1 n { o with holder := some hk }) hk a 1
    else evReturn s hk a 0
  | _, _ =>
    if bit o.word 63 then evReturn s hk a o.word
    else evWait (evPut s clk 2 n { o with waiters := o.waiters ++ [hk] }) 2 n 0

/-- A load of the event window: a granted wait completes, a wait that has begun goes on, and otherwise the access is
checked and made (R168, R169). -/
def evLoad (va : DWord) (width : Nat) (a : BitVec 7) (s : State) (hk : Nat) : SlotRes :=
  let h := getHart s hk
  let kind := bits va 15 14
  let n := bits va 11 3
  match h.wait, h.grant with
  | .event k m g, some v => (fun (_ : Nat × Nat × Nat) => evReturn s hk a v) (k, m, g)
  | .event k m g, none => evWait s k m g
  | _, _ =>
    if evFault h va false then .trap cWINDOWFAULT (windowInfo va .load) va 0 0 s
    else if width ≠ 8 ∨ bits va 2 0 ≠ 0 then .trap cALIGN (alignInfo 8 false) va 0 0 s
    else if (evGet s (clusKey (coreOf hk)) kind n).usable h = false then .trap cREMOTENACK (evNack false) va 0 0 s
    else evLoadBody kind (bits va 13 12) n a s hk

/-! ## Stores -/

/-- The effect of a store that is no configure store (R169). -/
def evStoreBody (kind op n : Nat) (v : DWord) (s : State) (hk : Nat) : State :=
  let clk := clusKey (coreOf hk)
  let o := evGet s clk kind n
  match kind, op with
  | 0, _ => barrierArrival s clk n none
  | 1, _ =>
    if o.holder = some hk then
      let s1 := evPut s clk 1 n { o with holder := none }
      if o.waiters.isEmpty then s1 else post s1 (.mutexGrant clk n)
    else s
  | _, 1 =>
    let w := BitVec.ofNat 64 (v.toNat % 2 ^ 63 + 2 ^ 63)
    releaseAll (evPut s clk 2 n { o with word := w, waiters := [] }) o.waiters w
  | _, _ => evPut s clk 2 n { o with word := 0 }

/-- A store is refused by the unit (R169, R170). -/
def evRefused (h : Hart) (o : EvObj) (kind op : Nat) (v : DWord) : Bool :=
  if op = 3 then
    !(h.mode == 3 || !o.v || decide (o.ctx = h.ctxid.toNat)) || !evConfigOk h kind v
  else !o.usable h

/-- A store to the event window: checked, counted in SCNT, and made or refused at the unit (R147, R149, R168 to R170). -/
def evStore (va : DWord) (width : Nat) (v : DWord) (s : State) (hk : Nat) : SlotRes :=
  let h := getHart s hk
  let kind := bits va 15 14
  let op := bits va 13 12
  let n := bits va 11 3
  if counterFull h 2 then .wait (.notReady false) s
  else if evFault h va true then .trap cWINDOWFAULT (windowInfo va .store) va 0 0 s
  else if width ≠ 8 ∨ bits va 2 0 ≠ 0 then .trap cALIGN (alignInfo 8 false) va 0 0 s
  else
    let clk := clusKey (coreOf hk)
    let o := evGet s clk kind n
    if evRefused h o kind op v then
      .done (issueOp s { hart := hk, counter := 2, scope := 2, refused := [⟨cREMOTENACK, evNack true, va⟩] })
    else
      let s1 := if op = 3 then configureObj s clk kind n v else evStoreBody kind op n v s hk
      .done (issueOp s1 { hart := hk, counter := 2, scope := 2 })

/-! ## The steps of the units -/

/-- BARRIER_ARRIVE_WAIT, R169: the `ld.d` of operation 0 of barrier n. -/
def execBarrierArriveWait (a : BitVec 7) (n : Nat) (s : State) := runSlot 0x14 6 (evLoad (evAddr 0 0 n) 8 a) s
/-- BARRIER_QUERY, R169. -/
def execBarrierQuery (a : BitVec 7) (n : Nat) (s : State) := runSlot 0x14 6 (evLoad (evAddr 0 1 n) 8 a) s
/-- BARRIER_ARRIVE, R169. -/
def execBarrierArrive (n : Nat) (s : State) := runSlot 0x15 3 (evStore (evAddr 0 2 n) 8 0) s
/-- BARRIER_CONFIGURE, R170. -/
def execBarrierConfigure (n : Nat) (v : DWord) (s : State) := runSlot 0x15 3 (evStore (evAddr 0 3 n) 8 v) s
/-- MUTEX_ACQUIRE, R169. -/
def execMutexAcquire (a : BitVec 7) (n : Nat) (s : State) := runSlot 0x14 6 (evLoad (evAddr 1 0 n) 8 a) s
/-- MUTEX_RELEASE, R169. -/
def execMutexRelease (n : Nat) (s : State) := runSlot 0x15 3 (evStore (evAddr 1 1 n) 8 0) s
/-- MUTEX_TRY, R169. -/
def execMutexTry (a : BitVec 7) (n : Nat) (s : State) := runSlot 0x14 6 (evLoad (evAddr 1 2 n) 8 a) s
/-- MUTEX_CONFIGURE, R170. -/
def execMutexConfigure (n : Nat) (v : DWord) (s : State) := runSlot 0x15 3 (evStore (evAddr 1 3 n) 8 v) s
/-- EVENT_WAIT, R169. -/
def execEventWait (a : BitVec 7) (n : Nat) (s : State) := runSlot 0x14 6 (evLoad (evAddr 2 0 n) 8 a) s
/-- EVENT_SET, R169. -/
def execEventSet (n : Nat) (v : DWord) (s : State) := runSlot 0x15 3 (evStore (evAddr 2 1 n) 8 v) s
/-- EVENT_CLEAR, R169. -/
def execEventClear (n : Nat) (s : State) := runSlot 0x15 3 (evStore (evAddr 2 2 n) 8 0) s
/-- EVENT_CONFIGURE, R170. -/
def execEventConfigure (n : Nat) (v : DWord) (s : State) := runSlot 0x15 3 (evStore (evAddr 2 3 n) 8 v) s
/-- BARRIER_RELEASE, R169: barrier n of a cluster unit, when its COUNT is met. -/
def execBarrierRelease (cl n : Nat) (s : State) : Host.Outcome State Fault Refusal := .next (releaseBarrier s cl n)
/-- BARRIER_PARENT_ARRIVAL, R170. -/
def execBarrierParentArrival (cl n : Nat) (s : State) : Host.Outcome State Fault Refusal := .next (arriveParent s cl n)
/-- MUTEX_GRANT, R169. -/
def execMutexGrant (cl n : Nat) (s : State) : Host.Outcome State Fault Refusal := .next (grantMutex s cl n)

end Sys2Proof.Machine
end

