-- ==== Sys2Proof/Machine/Vector.lean ====
section
/-! DEFINITION. The shared shape of vector instructions (R102 to R107): element kinds, destination groups, overlap, results,
flags and saturation bits. -/
namespace Sys2Proof.Machine

open Sys2Proof

/-- What an instruction computes for one active element: its bits, its flags and whether it saturates (R46, R50). -/
structure Res where
  bits : Nat
  fl : Nat := 0
  sat : Bool := false
deriving DecidableEq, Repr

/-- VL as a number. -/
def Hart.len (h : Hart) : Nat := h.vl.toNat
/-- The element a resumed slot starts at: those below it have completed, and their results stand (R35). -/
def startElem (h : Hart) : Nat := if h.curConv.resumed then h.curConv.elem else 0
/-- Element i is below vl and selected (R104). -/
def Hart.selected (h : Hart) (i : Nat) : Bool := decide (i < h.len) && h.selBit i
/-- Element i is active and still to be computed (R35, R104). -/
def Hart.active (h : Hart) (i : Nat) : Bool := h.selected i && decide (startElem h ≤ i)
/-- The active elements from the start element on (R35, R104). -/
def activeElems (h : Hart) : List Nat := (List.range h.len).filter (fun i => h.selBit i && decide (startElem h ≤ i))
/-- Above 1,024 elements no mask may be selected (R105). -/
def Hart.maskFits (h : Hart) : Bool := decide (h.len ≤ 1024) || decide (h.sel = 0)

/-- Registers of a destination group of width wd, and its elements (R106). -/
def destShape (h : Hart) (wd : Nat) : Option (Nat × Nat) :=
  let g := h.grp * wd / h.sew
  if g > 8 then none else if g < 1 then some (1, 1024 / wd) else some (g, 1024 * g / wd)

/-- A destination of width wd and a source group may stand beside each other: exact full overlap where the widths agree,
none otherwise (R106). -/
def overlapOk (same : Bool) (a : BitVec 7) (ga : Nat) (b : BitVec 7) (gb : Nat) : Bool :=
  !overlaps a ga b gb || (same && decide (a = b ∧ ga = gb))

/-- Elements of width w, the first in the least significant bits. -/
def buildElems (w : Nat) : List Nat → Nat
  | [] => 0
  | e :: es => e % 2 ^ w + 2 ^ w * buildElems w es

/-- The element a destination holds after the instruction where it is not computed: as MASKZ and TAILZ say, but for one completed
before the slot was resumed, which stays (R35, R104). -/
def keptElem (h : Hart) (i old : Nat) : Nat :=
  if i < startElem h then old
  else if i < h.len then (if h.maskz then 0 else old) else (if h.tailz then 0 else old)

/-- The results of the elements of a destination, none for those that are not active. -/
def results (h : Hart) (n : Nat) (f : Nat → Res) : List (Option Res) :=
  (List.range n).map (fun i => if h.active i then some (f i) else none)

/-- The value of a destination of n elements of width w: results, and the kept elements of an old value; with VL = 0
nothing changes (R104). -/
def mergeElems (h : Hart) (w old : Nat) (rs : List (Option Res)) : Nat :=
  if h.len = 0 then old
  else buildElems w ((rs.zipIdx).map (fun p => match p.1 with
    | some r => r.bits
    | none => keptElem h p.2 (elem old p.2 w)))

/-- The flags of all active elements (R46). -/
def allFlags (rs : List (Option Res)) : Nat :=
  rs.foldl (fun n r => match r with | some x => n ||| x.fl | none => n) 0

/-- The saturation bits of all active elements below 1,024 (R50, R105). -/
def allSats (rs : List (Option Res)) : Nat :=
  buildElems 1 ((rs.take 1024).map (fun r => match r with | some x => b2n x.sat | none => 0))

/-- Flags and saturation bits enter the hart (R46, R50). -/
def note (h : Hart) (rs : List (Option Res)) : Hart := setSat (raise h (allFlags rs)) (allSats rs)

/-- An element-wise instruction: every active element i of a destination group of width wd receives f i (R35,
R104 to R107). -/
def vApply (x : Local) (a : BitVec 7) (wd : Nat) (f : Nat → Res) : Option Local := do
  let (g, n) ← destShape x.h wd
  guard (x.h.maskFits = true)
  let old ← readV x a g
  let rs := results x.h n f
  let v := mergeElems x.h wd old rs
  let y ← writeV x a g v
  let z := pushV y g v
  some { z with h := note z.h rs }

/-- A mask destination: bit i is f i for active elements; the other bits follow MASKZ and TAILZ (R117). -/
def mApply (h : Hart) (a : BitVec 7) (f : Nat → Res) : Option Hart := do
  guard (mDest a = true ∧ h.len ≤ 1024)
  let old := (h.maskReg (a.toNat - 116)).toNat
  let rs := results h 1024 f
  some (raise (writeM h a (BitVec.ofNat 1024 (mergeElems h 1 old rs))) (allFlags rs))

/-- Instructions of integer class accept SEW 8 to 64 (R103). -/
def Hart.intSew (h : Hart) : Bool := decide (8 ≤ h.sew)

/-- The two source groups of a VV instruction, checked against the destination (R106, R109). -/
def sources2 (x : Local) (a b c : BitVec 7) (wd : Nat) : Option (Nat × Nat) := do
  let (g, _) ← destShape x.h wd
  let same := decide (wd = x.h.sew)
  guard (overlapOk same a g b x.h.grp = true ∧ overlapOk same a g c x.h.grp = true)
  let p ← readV x b x.h.grp
  let q ← readV x c x.h.grp
  some (p, q)

/-- The source group of a V1 instruction, checked against the destination (R106, R109). -/
def source1 (x : Local) (a b : BitVec 7) (wd : Nat) : Option Nat := do
  let (g, _) ← destShape x.h wd
  guard (overlapOk (decide (wd = x.h.sew)) a g b x.h.grp = true)
  readV x b x.h.grp

/-! ## Formats of a pending prefix (R108, R174 to R177) -/

/-- The formats a prefix may name (R175). -/
inductive BFmt where
  | bf16 | f16 | e4m3 | e5m2 | e2m1 | i8 | i4 | mxe4 | mxe5 | mxe2 | mxi8 | kx8 | kx5 | kx3
deriving DecidableEq, Repr

/-- A format code; none when reserved or not supported (R175). -/
def bfmtOf (code : Nat) : Option BFmt :=
  match code with
  | 0x00 => some .bf16 | 0x01 => some .f16 | 0x02 => some .e4m3 | 0x03 => some .e5m2 | 0x04 => some .e2m1
  | 0x05 => some .i8 | 0x06 => some .i4 | 0x08 => some .mxe4 | 0x09 => some .mxe5 | 0x0A => some .mxe2
  | 0x0B => some .mxi8 | 0x10 => some .kx8 | 0x11 => some .kx5 | 0x12 => some .kx3
  | _ => none

/-- Width of a format's register container (R41). -/
def BFmt.width : BFmt → Nat
  | .bf16 => 16 | .f16 => 16 | .e2m1 => 4 | .i4 => 4 | .mxe2 => 4 | .kx3 => 4 | _ => 8

/-- Elements of a block; 0 for a plain format (R52, R56). -/
def BFmt.block : BFmt → Nat
  | .mxe4 => 32 | .mxe5 => 32 | .mxe2 => 32 | .mxi8 => 32 | .kx8 => 16 | .kx5 => 16 | .kx3 => 16 | _ => 0

/-- The format is a KX format. -/
def BFmt.isKx : BFmt → Bool | .kx8 => true | .kx5 => true | .kx3 => true | _ => false

/-- Magnitude bits of a KX format (R56). -/
def BFmt.kxBits : BFmt → Nat | .kx8 => 7 | .kx5 => 4 | .kx3 => 2 | _ => 0

/-- The format is an integer format. -/
def BFmt.isInt : BFmt → Bool | .i8 => true | .i4 => true | _ => false

/-- Width of a scale element: 8 bits for MX, 16 for KX (R53, R58). -/
def BFmt.scaleWidth (f : BFmt) : Nat := if f.isKx then 16 else 8

/-- The element float format of a plain or MX format. -/
def BFmt.elem : BFmt → Option Fmt
  | .bf16 => some Machine.bf16 | .f16 => some Machine.f16 | .e4m3 => some Machine.e4m3 | .e5m2 => some Machine.e5m2
  | .e2m1 => some Machine.e2m1 | .mxe4 => some Machine.e4m3 | .mxe5 => some Machine.e5m2 | .mxe2 => some Machine.e2m1
  | _ => none

/-- A pending prefix as its target reads it: format, unsigned reading, first and second scale specifiers. -/
structure Pfx where
  f : BFmt
  u : Bool
  b : BitVec 7
  c : BitVec 7
deriving DecidableEq, Repr

/-- The prefix word in HSTAT.PXF; none where its target raises ILLEGAL-OPERAND: a format that is reserved or not
supported, BSX = 1, or U = 1 with a format that is no integer (R176). -/
def Hart.readPfx (h : Hart) : Option Pfx := do
  let w : Word := BitVec.ofNat 32 h.pxf
  let f ← bfmtOf (bits w 15 11)
  guard (bit w 17 = false ∧ (bit w 16 = false ∨ f.isInt = true))
  some ⟨f, bit w 16, BitVec.ofNat 7 (bits w 24 18), BitVec.ofNat 7 (bits w 31 25)⟩

/-- Specifier 127. -/
def noSpec : BitVec 7 := 127#7

/-- The float format of arithmetic, compares and reductions: IEEE at SEW, or BF16 under a prefix at SEW 16 (R103,
R108). -/
def arithFmt (h : Hart) : Option Fmt :=
  if h.prefixLive then do
    let p ← h.readPfx
    guard (p.f = .bf16 ∧ h.sew = 16 ∧ p.b = noSpec ∧ p.c = noSpec)
    some bf16
  else match h.sew with
    | 64 => some f64
    | 32 => some f32
    | 16 => some f16
    | _ => none

end Sys2Proof.Machine
end

