-- ==== Sys2Proof/Machine/VectorInt.lean ====
section
/-! DEFINITION. Vector integer arithmetic and integer compares, majors 0x18 to 0x1D and 0x24 (R110, R117). -/
namespace Sys2Proof.Machine

open Sys2Proof

/-- A VV integer instruction (R110). -/
def intVV (f : (w : Nat) → BitVec w → BitVec w → BitVec w) (a b c : BitVec 7) (x : Local) : Option Local := do
  guard (x.h.intSew = true)
  let w := x.h.sew
  let (p, q) ← sources2 x a b c w
  vApply x a w (fun i => { bits := (f w (BitVec.ofNat w (elem p i w)) (BitVec.ofNat w (elem q i w))).toNat })

/-- A VACC integer instruction, which also reads the old destination (R110). -/
def intVacc (f : (w : Nat) → BitVec w → BitVec w → BitVec w → BitVec w) (a b c : BitVec 7) (x : Local) :
    Option Local := do
  guard (x.h.intSew = true)
  let w := x.h.sew
  let (p, q) ← sources2 x a b c w
  let d ← readV x a x.h.grp
  vApply x a w (fun i => { bits := (f w (BitVec.ofNat w (elem d i w)) (BitVec.ofNat w (elem p i w))
    (BitVec.ofNat w (elem q i w))).toNat })

/-- An integer compare into a mask (R117). -/
def intCmp (f : (w : Nat) → BitVec w → BitVec w → Bool) (a b c : BitVec 7) (x : Local) : Option Local := do
  guard (x.h.intSew = true)
  let w := x.h.sew
  let p ← readV x b x.h.grp
  let q ← readV x c x.h.grp
  let h ← mApply x.h a (fun i => { bits := b2n (f w (BitVec.ofNat w (elem p i w)) (BitVec.ofNat w (elem q i w))) })
  some { x with h := h }

/-- High half of the signed product (R110). -/
def vMulHighS (w : Nat) (x y : BitVec w) : BitVec w := BitVec.ofInt w (x.toInt * y.toInt / (2 ^ w : Nat))
/-- High half of the unsigned product (R110). -/
def vMulHighZ (w : Nat) (x y : BitVec w) : BitVec w := BitVec.ofNat w (x.toNat * y.toNat / 2 ^ w)
/-- A signed result clamped to the width (R110). -/
def clampTo (w : Nat) (z : Int) : BitVec w := BitVec.ofInt w (clampS w z).1
/-- An unsigned result clamped to the width (R110). -/
def clampToZ (w : Nat) (z : Int) : BitVec w := BitVec.ofInt w (clampU w z).1

/-- VADD, R110. -/
def execVadd (a b c : BitVec 7) (s : State) := runSlot 0x18 0 (localBody (intVV (fun _ x y => x + y) a b c)) s
/-- VSUB, R110. -/
def execVsub (a b c : BitVec 7) (s : State) := runSlot 0x18 1 (localBody (intVV (fun _ x y => x - y) a b c)) s
/-- VMUL, R110. -/
def execVmul (a b c : BitVec 7) (s : State) := runSlot 0x18 2 (localBody (intVV (fun _ x y => x * y) a b c)) s
/-- VMULHS, R110. -/
def execVmulhs (a b c : BitVec 7) (s : State) := runSlot 0x18 3 (localBody (intVV vMulHighS a b c)) s
/-- VMULHZ, R110. -/
def execVmulhz (a b c : BitVec 7) (s : State) := runSlot 0x18 4 (localBody (intVV vMulHighZ a b c)) s
/-- VMACC, R110. -/
def execVmacc (a b c : BitVec 7) (s : State) := runSlot 0x18 5 (localBody (intVacc (fun _ d x y => d + x * y) a b c)) s
/-- VDIVS, R110. -/
def execVdivs (a b c : BitVec 7) (s : State) := runSlot 0x19 0 (localBody (intVV (fun _ x y => divS x y) a b c)) s
/-- VDIVZ, R110. -/
def execVdivz (a b c : BitVec 7) (s : State) := runSlot 0x19 1 (localBody (intVV (fun _ x y => divZ x y) a b c)) s
/-- VREMS, R110. -/
def execVrems (a b c : BitVec 7) (s : State) := runSlot 0x19 2 (localBody (intVV (fun _ x y => remS x y) a b c)) s
/-- VREMZ, R110. -/
def execVremz (a b c : BitVec 7) (s : State) := runSlot 0x19 3 (localBody (intVV (fun _ x y => remZ x y) a b c)) s
/-- VAND, R110. -/
def execVand (a b c : BitVec 7) (s : State) := runSlot 0x1A 0 (localBody (intVV (fun _ x y => x &&& y) a b c)) s
/-- VOR, R110. -/
def execVor (a b c : BitVec 7) (s : State) := runSlot 0x1A 1 (localBody (intVV (fun _ x y => x ||| y) a b c)) s
/-- VXOR, R110. -/
def execVxor (a b c : BitVec 7) (s : State) := runSlot 0x1A 2 (localBody (intVV (fun _ x y => x ^^^ y) a b c)) s
/-- VANDN, R110. -/
def execVandn (a b c : BitVec 7) (s : State) := runSlot 0x1A 3 (localBody (intVV (fun _ x y => x &&& ~~~y) a b c)) s
/-- VSHL, R110. -/
def execVshl (a b c : BitVec 7) (s : State) := runSlot 0x1B 0 (localBody (intVV (fun w x y => x <<< (y.toNat % w)) a b c)) s
/-- VSHRS, R110. -/
def execVshrs (a b c : BitVec 7) (s : State) :=
  runSlot 0x1B 1 (localBody (intVV (fun w x y => x.sshiftRight (y.toNat % w)) a b c)) s
/-- VSHRZ, R110. -/
def execVshrz (a b c : BitVec 7) (s : State) := runSlot 0x1B 2 (localBody (intVV (fun w x y => x >>> (y.toNat % w)) a b c)) s
/-- VMINS, R110. -/
def execVmins (a b c : BitVec 7) (s : State) :=
  runSlot 0x1C 0 (localBody (intVV (fun _ x y => if x.slt y then x else y) a b c)) s
/-- VMINZ, R110. -/
def execVminz (a b c : BitVec 7) (s : State) :=
  runSlot 0x1C 1 (localBody (intVV (fun _ x y => if x.ult y then x else y) a b c)) s
/-- VMAXS, R110. -/
def execVmaxs (a b c : BitVec 7) (s : State) :=
  runSlot 0x1C 2 (localBody (intVV (fun _ x y => if x.slt y then y else x) a b c)) s
/-- VMAXZ, R110. -/
def execVmaxz (a b c : BitVec 7) (s : State) :=
  runSlot 0x1C 3 (localBody (intVV (fun _ x y => if x.ult y then y else x) a b c)) s
/-- VSADDS, R110. -/
def execVsadds (a b c : BitVec 7) (s : State) :=
  runSlot 0x1D 0 (localBody (intVV (fun w x y => clampTo w (x.toInt + y.toInt)) a b c)) s
/-- VSADDZ, R110. -/
def execVsaddz (a b c : BitVec 7) (s : State) :=
  runSlot 0x1D 1 (localBody (intVV (fun w x y => clampToZ w (x.toNat + y.toNat)) a b c)) s
/-- VSSUBS, R110. -/
def execVssubs (a b c : BitVec 7) (s : State) :=
  runSlot 0x1D 2 (localBody (intVV (fun w x y => clampTo w (x.toInt - y.toInt)) a b c)) s
/-- VSSUBZ, R110. -/
def execVssubz (a b c : BitVec 7) (s : State) :=
  runSlot 0x1D 3 (localBody (intVV (fun w x y => clampToZ w ((x.toNat : Int) - y.toNat)) a b c)) s
/-- VCMPEQ, R117. -/
def execVcmpeq (a b c : BitVec 7) (s : State) := runSlot 0x24 0 (localBody (intCmp (fun _ x y => x == y) a b c)) s
/-- VCMPNE, R117. -/
def execVcmpne (a b c : BitVec 7) (s : State) := runSlot 0x24 1 (localBody (intCmp (fun _ x y => x != y) a b c)) s
/-- VCMPLTS, R117. -/
def execVcmplts (a b c : BitVec 7) (s : State) := runSlot 0x24 2 (localBody (intCmp (fun _ x y => x.slt y) a b c)) s
/-- VCMPLTZ, R117. -/
def execVcmpltz (a b c : BitVec 7) (s : State) := runSlot 0x24 3 (localBody (intCmp (fun _ x y => x.ult y) a b c)) s
/-- VCMPLES, R117. -/
def execVcmples (a b c : BitVec 7) (s : State) := runSlot 0x24 4 (localBody (intCmp (fun _ x y => x.sle y) a b c)) s
/-- VCMPLEZ, R117. -/
def execVcmplez (a b c : BitVec 7) (s : State) := runSlot 0x24 5 (localBody (intCmp (fun _ x y => x.ule y) a b c)) s

end Sys2Proof.Machine
end

