-- ==== Sys2Proof/Machine/VectorFloat.lean ====
section
/-! DEFINITION. Vector float arithmetic and float compares, majors 0x20 to 0x22 and 0x25 (R111 to R117), and the complex
FP32 instructions of major 0x2C (R124, R125). -/
namespace Sys2Proof.Machine

open Sys2Proof

/-- Bits and flags as an element result. -/
def Res.of (r : Nat × Nat) : Res := { bits := r.1, fl := r.2 }

/-- A V1 float instruction (R111). -/
def fltV1 (f : Fmt → Nat → Res) (a b : BitVec 7) (x : Local) : Option Local := do
  let m ← arithFmt x.h
  let w := x.h.sew
  let p ← source1 x a b w
  vApply x a w (fun i => f m (elem p i w))

/-- A VV float instruction (R111). -/
def fltVV (f : Fmt → Nat → Nat → Res) (a b c : BitVec 7) (x : Local) : Option Local := do
  let m ← arithFmt x.h
  let w := x.h.sew
  let (p, q) ← sources2 x a b c w
  vApply x a w (fun i => f m (elem p i w) (elem q i w))

/-- The exact sum of terms, rounded once (R111, R112). -/
def sumF (m : Fmt) (ts : List Term) : Res := Res.of (rneArith m (sumTerms false ts))

/-- rne(a + b) (R112). -/
def addF (m : Fmt) (a b : Nat) : Res := sumF m [.val (decodeF m a), .val (decodeF m b)]
/-- rne(a - b) (R112). -/
def subF (m : Fmt) (a b : Nat) : Res := sumF m [.val (decodeF m a), .val (decodeF m b).negate]
/-- rne(a * b) (R112). -/
def mulF (m : Fmt) (a b : Nat) : Res := sumF m [mulTerm (decodeF m a) (decodeF m b)]
/-- rne(d + a * b) (R112). -/
def fmaF (m : Fmt) (d a b : Nat) : Res := sumF m [.val (decodeF m d), mulTerm (decodeF m a) (decodeF m b)]

/-- rne(a / b), with DZ for a finite non-zero a over zero (R112). -/
def divF (m : Fmt) (a b : Nat) : Res :=
  let q := divRes (decodeF m a) (decodeF m b)
  let r := rneArith m q.1
  ⟨r.1, r.2 ||| (if q.2 then flDZ else 0), false⟩

/-- rne of the square root (R112). -/
def sqrtF (m : Fmt) (a : Nat) : Res := Res.of (rneArith m (sqrtRes (decodeF m a)))

/-- The estimate of 1/a (R113). -/
def rcpF (m : Fmt) (a : Nat) : Res :=
  match decodeF m a with
  | .nan sig => ⟨m.nan, if sig then flNV else 0, false⟩
  | .inf n => ⟨signed m n 0, 0, false⟩
  | .fin n k e =>
    if k = 0 then ⟨infCode m n, flDZ, false⟩
    else
      let r := ratOf k e
      Res.of (estimate m n r.2 r.1)

/-- The estimate of one over the square root of a (R113). -/
def rsqF (m : Fmt) (a : Nat) : Res :=
  match decodeF m a with
  | .nan sig => ⟨m.nan, if sig then flNV else 0, false⟩
  | .inf n => if n then ⟨m.nan, flNV, false⟩ else ⟨0, 0, false⟩
  | .fin n k e =>
    if k = 0 then ⟨infCode m n, flDZ, false⟩
    else if n then ⟨m.nan, flNV, false⟩
    else
      let r := ratOf k e
      let q := sqrtRat r.2 r.1
      Res.of (estimate m false q.1 q.2)

/-- The smaller or larger operand; -0 counts as less than +0, and a NaN yields to the other operand (R114). -/
def minMaxF (wantLess : Bool) (m : Fmt) (a b : Nat) : Res :=
  let x := decodeF m a
  let y := decodeF m b
  let fl := if x.isSig || y.isSig then flNV else 0
  if x.isNan && y.isNan then ⟨m.nan, fl, false⟩
  else if x.isNan then ⟨b, fl, false⟩
  else if y.isNan then ⟨a, fl, false⟩
  else if wantLess then ⟨if cmpF y x = .lt then b else a, fl, false⟩
  else ⟨if cmpF y x = .gt then b else a, fl, false⟩

/-- The class of a value, one bit of ten (R115). -/
def classF (m : Fmt) (a : Nat) : Nat :=
  match decodeF m a with
  | .nan sig => if sig then 2 ^ 8 else 2 ^ 9
  | .inf n => if n then 1 else 2 ^ 7
  | .fin n k _ =>
    if k = 0 then (if n then 2 ^ 3 else 2 ^ 4)
    else if k < 2 ^ m.mbits then (if n then 2 ^ 2 else 2 ^ 5)
    else (if n then 2 else 2 ^ 6)

/-- A sign operation: a NaN gives the canonical NaN; else the magnitude takes a sign (R116). -/
def signF (m : Fmt) (a : Nat) (neg : Bool) : Res :=
  match decodeF m a with
  | .nan sig => ⟨m.nan, if sig then flNV else 0, false⟩
  | _ => ⟨signed m neg (a % 2 ^ (m.ebits + m.mbits)), 0, false⟩

/-- The sign bit of a pattern. -/
def signBit (m : Fmt) (a : Nat) : Bool := a.testBit (m.ebits + m.mbits)

/-- VFMA, R112. -/
def execVfma (a b c : BitVec 7) (s : State) :=
  runSlot 0x20 0 (localBody (fun x => do
    let m ← arithFmt x.h
    let w := x.h.sew
    let (p, q) ← sources2 x a b c w
    let d ← readV x a x.h.grp
    vApply x a w (fun i => fmaF m (elem d i w) (elem p i w) (elem q i w)))) s
/-- VFADD, R112. -/
def execVfadd (a b c : BitVec 7) (s : State) := runSlot 0x20 1 (localBody (fltVV addF a b c)) s
/-- VFSUB, R112. -/
def execVfsub (a b c : BitVec 7) (s : State) := runSlot 0x20 2 (localBody (fltVV subF a b c)) s
/-- VFMUL, R112. -/
def execVfmul (a b c : BitVec 7) (s : State) := runSlot 0x20 3 (localBody (fltVV mulF a b c)) s
/-- VFDIV, R112. -/
def execVfdiv (a b c : BitVec 7) (s : State) := runSlot 0x20 4 (localBody (fltVV divF a b c)) s
/-- VFSQRT, R112. -/
def execVfsqrt (a b : BitVec 7) (s : State) := runSlot 0x20 5 (localBody (fltV1 sqrtF a b)) s
/-- VFRCPE, R113. -/
def execVfrcpe (a b : BitVec 7) (s : State) := runSlot 0x21 0 (localBody (fltV1 rcpF a b)) s
/-- VFRSQE, R113. -/
def execVfrsqe (a b : BitVec 7) (s : State) := runSlot 0x21 1 (localBody (fltV1 rsqF a b)) s
/-- VFMIN, R114. -/
def execVfmin (a b c : BitVec 7) (s : State) := runSlot 0x21 2 (localBody (fltVV (minMaxF true) a b c)) s
/-- VFMAX, R114. -/
def execVfmax (a b c : BitVec 7) (s : State) := runSlot 0x21 3 (localBody (fltVV (minMaxF false) a b c)) s
/-- VFCLASS, R115. -/
def execVfclass (a b : BitVec 7) (s : State) :=
  runSlot 0x21 4 (localBody (fltV1 (fun m p => { bits := classF m p }) a b)) s
/-- VFABS, R116. -/
def execVfabs (a b : BitVec 7) (s : State) := runSlot 0x22 0 (localBody (fltV1 (fun m p => signF m p false) a b)) s
/-- VFNEG, R116. -/
def execVfneg (a b : BitVec 7) (s : State) := runSlot 0x22 1 (localBody (fltV1 (fun m p => signF m p (!signBit m p)) a b)) s
/-- VFSGNJ, R116. -/
def execVfsgnj (a b c : BitVec 7) (s : State) :=
  runSlot 0x22 2 (localBody (fltVV (fun m p q => signF m p (signBit m q)) a b c)) s

/-! ## Compares (R117) -/

/-- a = b with -0 = +0 (R117). -/
def eqF (x y : FVal) : Bool := (x.isZero && y.isZero) || decide (cmpF x y = .eq)
/-- a < b with -0 = +0 (R117). -/
def ltF (x y : FVal) : Bool := !(x.isZero && y.isZero) && decide (cmpF x y = .lt)

/-- A float compare: the relation of two values that are no NaN; the result on NaN; whether a quiet NaN raises NV (R117). -/
def cmpRes (rel : FVal → FVal → Bool) (onNan quietNv : Bool) (m : Fmt) (a b : Nat) : Res :=
  let x := decodeF m a
  let y := decodeF m b
  if x.isNan || y.isNan then ⟨b2n onNan, if quietNv || x.isSig || y.isSig then flNV else 0, false⟩
  else ⟨b2n (rel x y), 0, false⟩

/-- A float compare into a mask (R117). -/
def fltCmp (f : Fmt → Nat → Nat → Res) (a b c : BitVec 7) (x : Local) : Option Local := do
  let m ← arithFmt x.h
  let w := x.h.sew
  let p ← readV x b x.h.grp
  let q ← readV x c x.h.grp
  let h ← mApply x.h a (fun i => f m (elem p i w) (elem q i w))
  some { x with h := h }

/-- VFCMPEQ, R117. -/
def execVfcmpeq (a b c : BitVec 7) (s : State) := runSlot 0x25 0 (localBody (fltCmp (cmpRes eqF false false) a b c)) s
/-- VFCMPLT, R117. -/
def execVfcmplt (a b c : BitVec 7) (s : State) := runSlot 0x25 1 (localBody (fltCmp (cmpRes ltF false true) a b c)) s
/-- VFCMPLE, R117. -/
def execVfcmple (a b c : BitVec 7) (s : State) :=
  runSlot 0x25 2 (localBody (fltCmp (cmpRes (fun x y => ltF x y || eqF x y) false true) a b c)) s
/-- VFCMPUN, R117. -/
def execVfcmpun (a b c : BitVec 7) (s : State) :=
  runSlot 0x25 3 (localBody (fltCmp (cmpRes (fun _ _ => false) true false) a b c)) s

/-! ## Complex FP32 (R61, R124, R125) -/

/-- Real part of a complex element. -/
def cRe (z : Nat) : FVal := decodeF f32 (z % 2 ^ 32)
/-- Imaginary part of a complex element. -/
def cIm (z : Nat) : FVal := decodeF f32 (z / 2 ^ 32)
/-- A complex element from its parts' results. -/
def cPair (r i : Res) : Res := ⟨r.bits + i.bits * 2 ^ 32, r.fl ||| i.fl, false⟩
/-- A product term with its sign changed. -/
def Term.negate : Term → Term | .val v => .val v.negate | .invalid => .invalid

/-- The product of two complex elements, added to a third where there is one (R124). -/
def cMulAdd (d : Option Nat) (a b : Nat) : Res :=
  let acc (f : Nat → FVal) : List Term := match d with | some z => [.val (f z)] | none => []
  cPair (sumF f32 (acc cRe ++ [mulTerm (cRe a) (cRe b), (mulTerm (cIm a) (cIm b)).negate]))
    (sumF f32 (acc cIm ++ [mulTerm (cRe a) (cIm b), mulTerm (cIm a) (cRe b)]))

/-- The conjugate; a NaN part becomes the canonical NaN (R124). -/
def cConj (a : Nat) : Res :=
  let part (z : Nat) (flip : Bool) : Res := signF f32 z (if flip then !signBit f32 z else signBit f32 z)
  cPair (part (a % 2 ^ 32) false) (part (a / 2 ^ 32) true)

/-- p / sqrt(p^2 + q^2) for finite parts: the rational whose square root it is, with p's sign; rounded once (R125). -/
def normPart (p q : FVal) : Res :=
  match p, q with
  | .fin n m e, .fin _ k f =>
    if m = 0 then ⟨signed f32 n 0, 0, false⟩
    else
      let g : Int := if e ≤ f then e else f
      let u := m * 2 ^ (e - g).toNat
      let v := k * 2 ^ (f - g).toNat
      let r := sqrtRat (u * u) (u * u + v * v)
      Res.of (rneArith f32 (.num n r.1 r.2))
  | _, _ => ⟨0, 0, false⟩

/-- `vcnorm` (R124, R125). DESIGN CHOICE (log 72): R125 gives flags for finite parts only; the result of two infinite parts
raises none. -/
def cNorm (a : Nat) : Res :=
  let p := cRe a
  let q := cIm a
  if p.isNan || q.isNan then
    ⟨f32.nan + f32.nan * 2 ^ 32, if p.isSig || q.isSig then flNV else 0, false⟩
  else if p.isZero && q.isZero then ⟨a, 0, false⟩
  else if p.isInf && q.isInf then
    ⟨signed f32 p.neg 0x3F3504F3 + signed f32 q.neg 0x3F3504F3 * 2 ^ 32, 0, false⟩
  else if p.isInf then ⟨signed f32 p.neg 0x3F800000 + signed f32 q.neg 0 * 2 ^ 32, 0, false⟩
  else if q.isInf then ⟨signed f32 p.neg 0 + signed f32 q.neg 0x3F800000 * 2 ^ 32, 0, false⟩
  else cPair (normPart p q) (normPart q p)

/-- VCMUL, R124. -/
def execVcmul (a b c : BitVec 7) (s : State) :=
  runSlot 0x2C 0 (localBody (fun x => do
    guard (x.h.sew = 64)
    let (p, q) ← sources2 x a b c 64
    vApply x a 64 (fun i => cMulAdd none (elem p i 64) (elem q i 64)))) s
/-- VCMAC, R124. -/
def execVcmac (a b c : BitVec 7) (s : State) :=
  runSlot 0x2C 1 (localBody (fun x => do
    guard (x.h.sew = 64)
    let (p, q) ← sources2 x a b c 64
    let d ← readV x a x.h.grp
    vApply x a 64 (fun i => cMulAdd (some (elem d i 64)) (elem p i 64) (elem q i 64)))) s
/-- VCCONJ, R124. -/
def execVcconj (a b : BitVec 7) (s : State) :=
  runSlot 0x2C 2 (localBody (fun x => do
    guard (x.h.sew = 64)
    let p ← source1 x a b 64
    vApply x a 64 (fun i => cConj (elem p i 64)))) s
/-- VCNORM, R124, R125. -/
def execVcnorm (a b : BitVec 7) (s : State) :=
  runSlot 0x2C 3 (localBody (fun x => do
    guard (x.h.sew = 64)
    let p ← source1 x a b 64
    vApply x a 64 (fun i => cNorm (elem p i 64)))) s

end Sys2Proof.Machine
end

