-- ==== Sys2Proof/Machine/VectorConv.lean ====
section
/-! DEFINITION. Conversions, majors 0x28 to 0x2A (R118 to R123), with the MX and KX block formats (R51 to R59). -/
namespace Sys2Proof.Machine

open Sys2Proof

/-! ## Reading block elements (R52, R56) -/

/-- The value of an MX element under scale byte X (R52). -/
def mxValue (f : BFmt) (sc pay : Nat) : FVal :=
  if sc % 256 = 0xFF then .nan false
  else
    let e : Int := (sc % 256 : Nat) - 127
    match f.elem with
    | some m => (match decodeF m pay with | .fin n k d => .fin n k (d + e) | v => v)
    | none =>
      let z := toSigned 8 pay
      .fin (decide (z < 0)) z.natAbs (e - 6)

/-- The micro-exponent of a quad of a KX scale word (R56). -/
def kxMu (sc q : Nat) : Nat := sc / 2 ^ (8 + 2 * q) % 4

/-- The value of element j of a KX block with scale word sc (R56). -/
def kxValue (f : BFmt) (sc j pay : Nat) : FVal :=
  if sc % 256 = 0xFF then .nan false
  else
    let m := f.kxBits
    .fin (pay.testBit m) (pay % 2 ^ m) ((sc % 256 : Nat) - 127 - (kxMu sc (j / 4) : Nat) - ((m : Int) - 1))

/-- Element i of a group in a prefix format, with its scale register (R52, R56, R60). -/
def bfmtValue (f : BFmt) (u : Bool) (scales i pay : Nat) : FVal :=
  if f.isKx then kxValue f (elem scales (i / 16) 16) (i % 16) pay
  else if f.block ≠ 0 then mxValue f (elem scales (i / 32) 8) pay
  else if f.isInt then
    let z : Int := if u then ((pay % 2 ^ f.width : Nat) : Int) else toSigned f.width pay
    .fin (decide (z < 0)) z.natAbs 0
  else match f.elem with
    | some m => decodeF m pay
    | none => .nan false

/-! ## Writing blocks (R54, R55, R59) -/

/-- x * 2^k. -/
def FVal.scaled : FVal → Int → FVal
  | .fin n m e, k => .fin n m (e + k)
  | v, _ => v

/-- |x| rounded to an integer in units of 2^q, and whether it is inexact; none for infinity. -/
def magAt (x : FVal) (q : Int) : Option (Nat × Bool) :=
  match x with
  | .fin _ m e => let r := ratOf m (e - q); some (rneDiv r.1 r.2, decide (r.1 % r.2 ≠ 0))
  | .inf _ => none
  | .nan _ => some (0, false)

/-- floor(log2 |x|) of a finite non-zero value; none for zero. -/
def logMag (x : FVal) : Option Int :=
  match x with
  | .fin _ m e => if m = 0 then none else some ((m.log2 : Int) + e)
  | _ => none

/-- The greater of two optional exponents. -/
def maxOpt : Option Int → Option Int → Option Int
  | none, b => b
  | a, none => a
  | some a, some b => some (if a < b then b else a)

/-- emax of an MX element format (R54). -/
def mxEmax : BFmt → Int | .mxe4 => 8 | .mxe5 => 15 | .mxe2 => 2 | _ => 0

/-- The scale byte of an MX block from its active elements, and whether it was clamped to 254 (R54). -/
def mxScale (f : BFmt) (xs : List FVal) : Nat × Bool :=
  if xs.any FVal.isInf then (254, true)
  else match xs.foldl (fun m x => maxOpt m (logMag x)) none with
    | none => (0, false)
    | some l =>
      let z := l - mxEmax f + 127
      if z < 0 then (0, false) else if z > 254 then (254, true) else (z.toNat, false)

/-- One element of an MX block under its scale (R54): overflow caused by the scale rule clamps without a saturation bit; an
infinite element, or one that overflows under a clamped scale, saturates. The negative end of MXINT8 is -128 (DESIGN CHOICE, log
88). -/
def mxElem (f : BFmt) (sc : Nat × Bool) (x : FVal) : Res :=
  let y := x.scaled (127 - (sc.1 : Int))
  match f.elem with
  | some m =>
    let r := rneSat m y.res x.isSig
    if r.2.2 && !x.isInf && !sc.2 then ⟨r.1, flNX, false⟩ else ⟨r.1, r.2.1, r.2.2⟩
  | none =>
    match magAt y (-6) with
    | none => ⟨wrapInt 8 (if x.neg then -128 else 127), flSA, true⟩
    | some (k, inexact) =>
      let z : Int := if x.neg then -(k : Int) else k
      if z > 127 ∨ z < -128 then
        ⟨wrapInt 8 (if x.neg then -128 else 127), if sc.2 then flSA else flNX, sc.2⟩
      else ⟨wrapInt 8 z, if inexact then (if k = 0 then flUF ||| flNX else flNX) else 0, false⟩

/-- Every magnitude of a list fits m bits at exponent e (R59). -/
def kxFits (m : Nat) (e : Int) (xs : List FVal) : Bool :=
  xs.all (fun x => match magAt x (e - ((m : Int) - 1)) with | some (k, _) => decide (k ≤ 2 ^ m - 1) | none => false)

/-- The exponent of a KX block (R59). -/
def kxExp (m : Nat) (xs : List FVal) : Nat :=
  ((List.range 255).find? (fun (e : Nat) => kxFits m ((e : Int) - 127) xs)).getD 254

/-- The micro-exponent of a quad (R59). -/
def kxMicro (m e : Nat) (xs : List FVal) : Nat :=
  ([3, 2, 1].find? (fun (u : Nat) => kxFits m ((e : Int) - 127 - (u : Int)) xs)).getD 0

/-- The scale word of a KX block from its 16 elements, inactive ones being zero (R55, R59). -/
def kxScale (m : Nat) (xs : List FVal) : Nat :=
  if xs.any FVal.isNan then 0xFF
  else
    let e := kxExp m xs
    let mu (q : Nat) : Nat := kxMicro m e ((xs.drop (4 * q)).take 4)
    e + mu 0 * 2 ^ 8 + mu 1 * 2 ^ 10 + mu 2 * 2 ^ 12 + mu 3 * 2 ^ 14

/-- One element of a KX block under its scale word (R59). -/
def kxElem (m sc j : Nat) (x : FVal) : Res :=
  let sgn := b2n x.neg * 2 ^ m
  match magAt x ((sc % 256 : Nat) - 127 - (kxMu sc (j / 4) : Nat) - ((m : Int) - 1)) with
  | none => ⟨2 ^ m - 1 + sgn, flSA, true⟩
  | some (k, inexact) =>
    if k > 2 ^ m - 1 then ⟨2 ^ m - 1 + sgn, flSA, true⟩
    else ⟨k + sgn, if inexact then (if k = 0 then flUF ||| flNX else flNX) else 0, false⟩

/-- A block of a format written whole from its elements, `none` for those masked off or beyond vl, which count as zero: the
scale word and the elements' results (R54, R55, R59). -/
def blockOf (f : BFmt) (xs : List (Option FVal)) : Nat × List Res :=
  let act := xs.filterMap id
  let vals := xs.map (fun x => x.getD (.fin false 0 0))
  if act.any FVal.isNan then (0xFF, xs.map (fun x => match x with
    | some v => ⟨0, if v.isSig then flNV else 0, false⟩
    | none => ⟨0, 0, false⟩))
  else if f.isKx then
    let sc := kxScale f.kxBits vals
    (sc, (vals.zipIdx).map (fun p => kxElem f.kxBits sc p.2 p.1))
  else
    let sc := mxScale f vals
    (sc.1, (xs.map (fun x => match x with | some v => mxElem f sc v | none => ⟨0, 0, false⟩)))

/-- The scale elements of the blocks below vl replace those of a scale register; the others stay (R123). -/
def putScales (w old : Nat) : List (Option Nat) → Nat → Nat
  | [], _ => old
  | some v :: vs, i => putScales w (setElem old i w v) vs (i + 1)
  | none :: vs, i => putScales w old vs (i + 1)

/-! ## Conversions (R118 to R123) -/

/-- The prefix of a conversion to its format: B names a scale register for a block format and is 127 otherwise, C is 127
(R177). -/
def convPfx (h : Hart) : Option Pfx := do
  let p ← h.readPfx
  guard (p.f.isInt = false ∧ p.c = noSpec)
  guard (if p.f.block = 0 then p.b = noSpec else p.b.toNat < 96)
  some p

/-- The prefix of a conversion from its format: B and C are 127, but with code 4, which has no row in R177, the B of a block
format names the scale register that R123 reads (log 21). -/
def sourcePfx (h : Hart) (c : BitVec 7) : Option Pfx := do
  let p ← h.readPfx
  guard (p.f.isInt = false ∧ p.c = noSpec)
  guard (if p.f.block ≠ 0 ∧ c.toNat = 4 then p.b.toNat < 96 else p.b = noSpec)
  some p

/-- The scale elements that a source under prefix p reads: none for a plain format; those of the register that B names, which
overlaps neither the source nor the destination (R106, R123); where R177 has B name none, the spec gives the scales of a block
no value (log 21). -/
def sourceScales (x : Local) (p : Pfx) (a : BitVec 7) (ga : Nat) (b : BitVec 7) : Option Nat :=
  if p.f.block = 0 then some 0
  else if p.b = noSpec then some (Config.openScales p.f.scaleWidth)
  else do
    guard (overlaps p.b 1 b x.h.grp = false ∧ overlaps p.b 1 a ga = false)
    readV x p.b 1

/-- The scale elements that vl elements need fit one register (R123). -/
def scalesFit (f : BFmt) (n : Nat) : Bool := decide (f.block = 0 ∨ n ≤ f.block * (1024 / f.scaleWidth))

/-- The source of a float conversion to code c: what element i of the source group stands for, given the destination's
registers (R119, R123). -/
def convSource (x : Local) (a : BitVec 7) (ga : Nat) (b c : BitVec 7) : Option (Nat → FVal) := do
  let w := x.h.sew
  let p ← readV x b x.h.grp
  if x.h.prefixLive then do
    let q ← sourcePfx x.h c
    guard (q.f.width = w ∧ scalesFit q.f x.h.len = true)
    let sc ← sourceScales x q a ga b
    some (fun i => bfmtValue q.f q.u sc i (elem p i w))
  else
    match w with
    | 64 => some (fun i => decodeF f64 (elem p i w))
    | 32 => some (fun i => decodeF f32 (elem p i w))
    | 16 => some (fun i => decodeF f16 (elem p i w))
    | _ => none

/-- The float destination codes 0 to 3 (R118). -/
def codeFmt (c : BitVec 7) : Option Fmt :=
  match c.toNat with
  | 0 => some f64 | 1 => some f32 | 2 => some f16 | 3 => some bf16 | _ => none

/-- The integer destination codes 0 to 4: the width (R118). -/
def codeInt (c : BitVec 7) : Option Nat := if c.toNat ≤ 4 then some (4 * 2 ^ c.toNat) else none

/-- A rounded and saturated conversion of one value (R49). -/
def convElem (m : Fmt) (v : FVal) : Res :=
  let r := rneSat m v.res v.isSig
  ⟨r.1, r.2.1, r.2.2⟩

/-- The blocks of a destination that hold an element below vl, with their elements (R123). -/
def destBlocks (h : Hart) (f : BFmt) (src : Nat → FVal) : List (Nat × List Res) :=
  (List.range ((h.len + f.block - 1) / f.block)).map (fun k =>
    blockOf f ((List.range f.block).map (fun j =>
      if h.selected (k * f.block + j) then some (src (k * f.block + j)) else none)))

/-- The payload of a block destination: the elements of the blocks written, and beyond them what was there, whatever TAILZ
holds (R55, R123). -/
def blockPayloads (w n old : Nat) (done : List (Option Res)) : Nat :=
  buildElems w ((List.range n).map (fun i => match done[i]? with | some (some r) => r.bits | _ => elem old i w))

/-- A conversion to a block format writes whole blocks and their scale elements, those that begin before the element where a slot is
resumed left as they are (R35, R55, R123). -/
def convToBlock (x : Local) (a b : BitVec 7) (q : Pfx) (src : Nat → FVal) : Option Local := do
  let w := q.f.width
  let (g, n) ← destShape x.h w
  guard (x.h.maskFits = true ∧ scalesFit q.f x.h.len = true)
  guard (overlaps q.b 1 b x.h.grp = false ∧ overlaps q.b 1 a g = false)
  let old ← readV x a g
  let sc ← readV x q.b 1
  let blocks := (destBlocks x.h q.f src).zipIdx.map (fun p =>
    if p.2 * q.f.block < startElem x.h then (none, p.1.2.map (fun _ => none)) else (some p.1.1, p.1.2.map some))
  let done := blocks.flatMap Prod.snd
  let v := blockPayloads w n old done
  let y ← writeV x a g v
  let z ← writeV y q.b 1 (putScales q.f.scaleWidth sc (blocks.map Prod.fst) 0)
  let u := pushV z g v
  some { u with h := note u.h done }

/-- A conversion whose destination is a float format: code 0 to 3, or 8 for the prefix's format (R118 to R121, R123). -/
def convToFloat (x : Local) (a b c : BitVec 7) (src : Nat → FVal) : Option Local :=
  if c.toNat = 8 then do
    guard (x.h.prefixLive = true)
    let q ← convPfx x.h
    let (g, _) ← destShape x.h q.f.width
    guard (overlapOk (decide (q.f.width = x.h.sew)) a g b x.h.grp = true)
    if q.f.block ≠ 0 then convToBlock x a b q src
    else do
      let m ← q.f.elem
      vApply x a q.f.width (fun i => convElem m (src i))
  else do
    let m ← codeFmt c
    let (g, _) ← destShape x.h m.width
    guard (overlapOk (decide (m.width = x.h.sew)) a g b x.h.grp = true)
    vApply x a m.width (fun i => convElem m (src i))

/-- `vfcvt` (R119). -/
def fcvt (a b c : BitVec 7) (x : Local) : Option Local :=
  if c.toNat = 8 then do
    let w := x.h.sew
    let p ← readV x b x.h.grp
    let m ← (match w with | 64 => some f64 | 32 => some f32 | 16 => some f16 | _ => none)
    convToFloat x a b c (fun i => decodeF m (elem p i w))
  else do
    let m ← codeFmt c
    let (g, _) ← destShape x.h m.width
    let src ← convSource x a g b c
    convToFloat x a b c src

/-- Float to integer (R120). -/
def fcvtInt (sgn trunc : Bool) (a b c : BitVec 7) (x : Local) : Option Local := do
  let wd ← codeInt c
  let (g, _) ← destShape x.h wd
  guard (overlapOk (decide (wd = x.h.sew)) a g b x.h.grp = true)
  let src ← convSource x a g b c
  vApply x a wd (fun i => let r := toIntF wd sgn trunc (src i); ⟨r.1, r.2.1, r.2.2⟩)

/-- Integer to float; a prefix only with code 8 (R121). -/
def icvt (sgn : Bool) (a b c : BitVec 7) (x : Local) : Option Local := do
  guard (x.h.intSew = true)
  guard (c.toNat = 8 ∨ x.h.prefixLive = false)
  let w := x.h.sew
  let p ← readV x b x.h.grp
  convToFloat x a b c (fun i =>
    let z : Int := if sgn then toSigned w (elem p i w) else ((elem p i w : Nat) : Int)
    .fin (decide (z < 0)) z.natAbs 0)

/-- Widening and narrowing between integer widths (R103, R122). -/
def iwidth (sgn widen : Bool) (a b c : BitVec 7) (x : Local) : Option Local := do
  let wd ← codeInt c
  let w := x.h.sew
  guard (if widen then wd > w else (wd < w ∧ 8 ≤ w))
  let p ← source1 x a b wd
  vApply x a wd (fun i =>
    let z : Int := if sgn then toSigned w (elem p i w) else ((elem p i w : Nat) : Int)
    if widen then { bits := wrapInt wd z }
    else
      let r := if sgn then clampS wd z else clampU wd z
      ⟨wrapInt wd r.1, if r.2 then flSA else 0, r.2⟩)

/-- VFCVT, R119. -/
def execVfcvt (a b c : BitVec 7) (s : State) := runSlot 0x28 0 (localBody (fcvt a b c)) s
/-- VFCVTS, R120. -/
def execVfcvts (a b c : BitVec 7) (s : State) := runSlot 0x28 1 (localBody (fcvtInt true false a b c)) s
/-- VFCVTZ, R120. -/
def execVfcvtz (a b c : BitVec 7) (s : State) := runSlot 0x28 2 (localBody (fcvtInt false false a b c)) s
/-- VFCVTTS, R120. -/
def execVfcvtts (a b c : BitVec 7) (s : State) := runSlot 0x28 3 (localBody (fcvtInt true true a b c)) s
/-- VFCVTTZ, R120. -/
def execVfcvttz (a b c : BitVec 7) (s : State) := runSlot 0x28 4 (localBody (fcvtInt false true a b c)) s
/-- VSCVTF, R121. -/
def execVscvtf (a b c : BitVec 7) (s : State) := runSlot 0x29 0 (localBody (icvt true a b c)) s
/-- VZCVTF, R121. -/
def execVzcvtf (a b c : BitVec 7) (s : State) := runSlot 0x29 1 (localBody (icvt false a b c)) s
/-- VWIDENS, R122. -/
def execVwidens (a b c : BitVec 7) (s : State) := runSlot 0x2A 0 (localBody (iwidth true true a b c)) s
/-- VWIDENZ, R122. -/
def execVwidenz (a b c : BitVec 7) (s : State) := runSlot 0x2A 1 (localBody (iwidth false true a b c)) s
/-- VNARRS, R122. -/
def execVnarrs (a b c : BitVec 7) (s : State) := runSlot 0x2A 2 (localBody (iwidth true false a b c)) s
/-- VNARRZ, R122. -/
def execVnarrz (a b c : BitVec 7) (s : State) := runSlot 0x2A 3 (localBody (iwidth false false a b c)) s

end Sys2Proof.Machine
end

