-- ==== Sys2Proof/Machine/VectorMove.lean ====
section
/-! DEFINITION. Vector data movement, bit-string shifts, reductions, mask operations and single elements, majors 0x30 to
0x36 (R126 to R140). -/
namespace Sys2Proof.Machine

open Sys2Proof

/-- A destination group of SEW elements written element by element: `f i` is the value written, none where the element is
kept as it is, as one completed before the slot was resumed also is (R35, R126). -/
def putGroup (x : Local) (a : BitVec 7) (f : Nat → Option Nat) : Option Local := do
  let w := x.h.sew
  let g := x.h.grp
  guard (x.h.maskFits = true)
  let old ← readV x a g
  let v := if x.h.len = 0 then old
    else buildElems w ((List.range (1024 * g / w)).map (fun i =>
      if i < startElem x.h then elem old i w else (f i).getD (elem old i w)))
  let y ← writeV x a g v
  some (pushV y g v)

/-- The tail rule: 0 under TAILZ, else kept (R104). -/
def tailElem (h : Hart) : Option Nat := if h.tailz then some 0 else none
/-- The masked-off rule: 0 under MASKZ, else kept (R104). -/
def maskElem (h : Hart) : Option Nat := if h.maskz then some 0 else none

/-- A move governed by the mask: active elements receive f i (R104, R126). -/
def moveGoverned (x : Local) (a : BitVec 7) (f : Nat → Option Nat) : Option Local :=
  putGroup x a (fun i =>
    if i < x.h.len then (if x.h.selBit i then f i else maskElem x.h) else tailElem x.h)

/-- The active indexes below vl, ascending. -/
def Hart.actives (h : Hart) : List Nat := (List.range h.len).filter h.selBit

/-- VMOV, R129. -/
def execVmov (a b : BitVec 7) (s : State) :=
  runSlot 0x30 0 (localBody (fun x => do
    let p ← source1 x a b x.h.sew
    moveGoverned x a (fun i => some (elem p i x.h.sew)))) s
/-- VSPLAT, R129. -/
def execVsplat (a b : BitVec 7) (s : State) :=
  runSlot 0x30 1 (localBody (fun x => do
    let v ← readS x.h b
    moveGoverned x a (fun _ => some v.toNat))) s
/-- VMERGE, R129: every element below vl is written. -/
def execVmerge (a b c : BitVec 7) (s : State) :=
  runSlot 0x30 2 (localBody (fun x => do
    let w := x.h.sew
    let (p, q) ← sources2 x a b c w
    putGroup x a (fun i =>
      if i < x.h.len then some (if x.h.selBit i then elem p i w else elem q i w) else tailElem x.h))) s

/-- VSLUP, R130: elements below n are left unchanged whatever MASKZ holds. -/
def execVslup (a b c : BitVec 7) (s : State) :=
  runSlot 0x31 0 (localBody (fun x => do
    let w := x.h.sew
    let p ← source1 x a b w
    let n ← readS x.h c
    putGroup x a (fun i =>
      if i < x.h.len then
        (if i < n.toNat then none else if x.h.selBit i then some (elem p (i - n.toNat) w) else maskElem x.h)
      else tailElem x.h))) s
/-- VSLDN, R130. -/
def execVsldn (a b c : BitVec 7) (s : State) :=
  runSlot 0x31 1 (localBody (fun x => do
    let w := x.h.sew
    let p ← source1 x a b w
    let n ← readS x.h c
    moveGoverned x a (fun i => some (if i + n.toNat < x.h.len then elem p (i + n.toNat) w else 0)))) s
/-- VPERM, R131. -/
def execVperm (a b c : BitVec 7) (s : State) :=
  runSlot 0x31 2 (localBody (fun x => do
    let w := x.h.sew
    let (p, q) ← sources2 x a b c w
    moveGoverned x a (fun i => some (if elem q i w < x.h.len then elem p (elem q i w) w else 0)))) s
/-- VCOMP, R132. -/
def execVcomp (a b : BitVec 7) (s : State) :=
  runSlot 0x31 3 (localBody (fun x => do
    let w := x.h.sew
    let p ← source1 x a b w
    putGroup x a (fun i => match x.h.actives[i]? with
      | some j => some (elem p j w)
      | none => tailElem x.h))) s
/-- VEXP, R132. -/
def execVexp (a b : BitVec 7) (s : State) :=
  runSlot 0x31 4 (localBody (fun x => do
    let w := x.h.sew
    let p ← source1 x a b w
    moveGoverned x a (fun i => some (elem p ((x.h.actives.filter (fun j => j < i)).length) w)))) s

/-- The first vl elements of a group as one bit string (R133). -/
def bitString (h : Hart) (v : Nat) : Nat := v % 2 ^ (h.len * h.sew)

/-- VSH, R133. -/
def execVsh (a b c : BitVec 7) (s : State) :=
  runSlot 0x32 0 (localBody (fun x => do
    let w := x.h.sew
    let p ← source1 x a b w
    let n ← readS x.h c
    let l := x.h.len * w
    let u := if n.toInt ≥ 0 then (if n.toNat ≥ l then 0 else (bitString x.h p <<< n.toNat) % 2 ^ l)
      else (if (-n.toInt).toNat ≥ l then 0 else bitString x.h p >>> (-n.toInt).toNat)
    moveGoverned x a (fun i => some (elem u i w)))) s
/-- VFSH, R133. -/
def execVfsh (a b c : BitVec 7) (s : State) :=
  runSlot 0x32 1 (localBody (fun x => do
    let w := x.h.sew
    let p ← source1 x a b w
    let d ← readV x a x.h.grp
    let n ← readS x.h c
    let l := x.h.len * w
    let u := if n.toNat ≥ 2 * l then 0
      else ((bitString x.h d * 2 ^ l + bitString x.h p) >>> n.toNat) % 2 ^ l
    moveGoverned x a (fun i => some (elem u i w)))) s

/-! ## Reductions (R134 to R137) -/

/-- An integer reduction of the active elements into an initial value (R134). -/
def reduceInt (f : (w : Nat) → BitVec w → BitVec w → BitVec w) (sgn : Bool) (a b c : BitVec 7) (x : Local) :
    Option Local := do
  guard (x.h.intSew = true ∧ x.h.maskFits = true ∧ sDest a = true)
  let w := x.h.sew
  let p ← readV x b x.h.grp
  let v ← readS x.h c
  let r := x.h.actives.foldl (fun t i => f w t (BitVec.ofNat w (elem p i w))) (v.setWidth w)
  some { x with h := x.h.result a (if sgn then r.signExtend 64 else r.setWidth 64) }

/-- One level of the addition tree (R135). -/
def treeLevel (m : Fmt) : List Nat → List Nat × Nat
  | p :: q :: rest =>
    let r := addF m p q
    let t := treeLevel m rest
    (r.bits :: t.1, r.fl ||| t.2)
  | l => (l, 0)

/-- The addition tree: its root and the flags of every addition; fuel bounds the levels (R135). -/
def treeSum (m : Fmt) : Nat → List Nat → Nat × Nat
  | 0, l => (l.headD 0, 0)
  | fuel + 1, l =>
    if l.length ≤ 1 then (l.headD 0, 0)
    else
      let t := treeLevel m l
      let r := treeSum m fuel t.1
      (r.1, t.2 ||| r.2)

/-- The smallest power of two not below n, for n up to 2,048 (R135). -/
def pow2AtLeast (n : Nat) : Nat := ((List.range 12).map (fun k => 2 ^ k)).find? (fun p => n ≤ p) |>.getD 2048

/-- `vrfsum` (R135). -/
def reduceFsum (a b c : BitVec 7) (x : Local) : Option Local := do
  let m ← arithFmt x.h
  guard (x.h.maskFits = true ∧ sDest a = true)
  let w := x.h.sew
  let p ← readV x b x.h.grp
  let v ← readS x.h c
  let ts := (List.range (pow2AtLeast x.h.len)).map (fun i => if x.h.selected i then elem p i w else signed m true 0)
  let t := treeSum m 12 ts
  let r := addF m (v.toNat % 2 ^ w) t.1
  some { x with h := raise (x.h.result a (BitVec.ofNat 64 r.bits)) (t.2 ||| r.fl) }

/-- `vrfmin` and `vrfmax` (R136). -/
def reduceFminmax (wantLess : Bool) (a b c : BitVec 7) (x : Local) : Option Local := do
  let m ← arithFmt x.h
  guard (x.h.maskFits = true ∧ sDest a = true)
  let w := x.h.sew
  let p ← readV x b x.h.grp
  let v ← readS x.h c
  let start : Nat × Nat := (canonF m (v.toNat % 2 ^ w), if (decodeF m (v.toNat % 2 ^ w)).isSig then flNV else 0)
  let r := x.h.actives.foldl (fun t i => let q := minMaxF wantLess m t.1 (elem p i w); (q.bits, t.2 ||| q.fl)) start
  some { x with h := raise (x.h.result a (BitVec.ofNat 64 r.1)) r.2 }

/-- VRSUM, R134. -/
def execVrsum (a b c : BitVec 7) (s : State) := runSlot 0x33 0 (localBody (reduceInt (fun _ t e => t + e) false a b c)) s
/-- VRFSUM, R135. -/
def execVrfsum (a b c : BitVec 7) (s : State) := runSlot 0x33 1 (localBody (reduceFsum a b c)) s
/-- VRMINS, R134. -/
def execVrmins (a b c : BitVec 7) (s : State) :=
  runSlot 0x33 2 (localBody (reduceInt (fun _ t e => if e.slt t then e else t) true a b c)) s
/-- VRMINZ, R134. -/
def execVrminz (a b c : BitVec 7) (s : State) :=
  runSlot 0x33 3 (localBody (reduceInt (fun _ t e => if e.ult t then e else t) false a b c)) s
/-- VRMAXS, R134. -/
def execVrmaxs (a b c : BitVec 7) (s : State) :=
  runSlot 0x33 4 (localBody (reduceInt (fun _ t e => if t.slt e then e else t) true a b c)) s
/-- VRMAXZ, R134. -/
def execVrmaxz (a b c : BitVec 7) (s : State) :=
  runSlot 0x33 5 (localBody (reduceInt (fun _ t e => if t.ult e then e else t) false a b c)) s
/-- VRFMIN, R136. -/
def execVrfmin (a b c : BitVec 7) (s : State) := runSlot 0x33 6 (localBody (reduceFminmax true a b c)) s
/-- VRFMAX, R136. -/
def execVrfmax (a b c : BitVec 7) (s : State) := runSlot 0x33 7 (localBody (reduceFminmax false a b c)) s

/-- A grouped reduction: one element for each run of 2^k elements (R137). -/
def reduceGroups (f : Nat → Nat → Nat) (a b c : BitVec 7) (x : Local) : Option Local := do
  guard (x.h.intSew = true ∧ 1 ≤ c.toNat ∧ c.toNat ≤ 6)
  let w := x.h.sew
  let g := 2 ^ c.toNat
  let p ← source1 x a b w
  let n := (x.h.len + g - 1) / g
  putGroup x a (fun j =>
    if j < n then
      some (((List.range g).map (fun k => j * g + k)).foldl
        (fun t i => if x.h.selected i then f t (elem p i w) else t) 0)
    else tailElem x.h)

/-- VGMAX, R137. -/
def execVgmax (a b c : BitVec 7) (s : State) :=
  runSlot 0x34 0 (localBody (reduceGroups (fun t e => if t < e then e else t) a b c)) s
/-- VGSUM, R137. -/
def execVgsum (a b c : BitVec 7) (s : State) := runSlot 0x34 1 (localBody (reduceGroups (fun t e => t + e) a b c)) s

/-! ## Masks (R138, R139) -/

/-- A mask logical over all 1,024 bits (R105, R138). -/
def maskOp (f : VReg → VReg → VReg) (a b c : BitVec 7) (h : Hart) : Option Hart := do
  guard (mDest a = true ∧ h.len ≤ 1024)
  let p ← readM h b
  let q ← readM h c
  some (writeM h a (f p q))

/-- A mask is set to a constant (R105, R138). -/
def maskConst (v : VReg) (a : BitVec 7) (h : Hart) : Option Hart :=
  if mDest a ∧ h.len ≤ 1024 then some (writeM h a v) else none

/-- The mask bits below min(VL, 1,024) that are 1, ascending (R139). -/
def maskBits (h : Hart) (m : VReg) : List Nat :=
  (List.range (if h.len < 1024 then h.len else 1024)).filter (fun i => m.toNat.testBit i)

/-- A count or a search over a mask into a scalar (R139). -/
def maskScalar (f : List Nat → DWord) (a b : BitVec 7) (h : Hart) : Option Hart := do
  guard (sDest a = true)
  let m ← readM h b
  some (h.result a (f (maskBits h m)))

/-- MAND, R138. -/
def execMaskAnd (a b c : BitVec 7) (s : State) := runSlot 0x35 0 (hartBody (maskOp (· &&& ·) a b c)) s
/-- MOR, R138. -/
def execMaskOr (a b c : BitVec 7) (s : State) := runSlot 0x35 1 (hartBody (maskOp (· ||| ·) a b c)) s
/-- MXOR, R138. -/
def execMaskXor (a b c : BitVec 7) (s : State) := runSlot 0x35 2 (hartBody (maskOp (· ^^^ ·) a b c)) s
/-- MANDN, R138. -/
def execMaskAndn (a b c : BitVec 7) (s : State) := runSlot 0x35 3 (hartBody (maskOp (fun p q => p &&& ~~~q) a b c)) s
/-- MCLR, R138. -/
def execMclr (a : BitVec 7) (s : State) := runSlot 0x35 4 (hartBody (maskConst 0 a)) s
/-- MSET, R138. -/
def execMset (a : BitVec 7) (s : State) := runSlot 0x35 5 (hartBody (maskConst (BitVec.allOnes 1024) a)) s
/-- MPOPC, R139. -/
def execMpopc (a b : BitVec 7) (s : State) :=
  runSlot 0x36 0 (hartBody (maskScalar (fun l => BitVec.ofNat 64 l.length) a b)) s
/-- MFIRST, R139. -/
def execMfirst (a b : BitVec 7) (s : State) :=
  runSlot 0x36 1 (hartBody (maskScalar (fun l => match l with | i :: _ => BitVec.ofNat 64 i | [] => BitVec.allOnes 64) a b)) s

/-! ## Single elements (R140) -/

/-- `vgetx` (R140). -/
def getElem (a b c : BitVec 7) (x : Local) : Option Local := do
  guard (sDest a = true)
  let w := x.h.sew
  let p ← readV x b x.h.grp
  let i ← readS x.h c
  some { x with h := x.h.result a (if i.toNat < x.h.vlmax then BitVec.ofNat 64 (elem p i.toNat w) else 0) }

/-- `vputx` (R140). -/
def putElem (a b c : BitVec 7) (x : Local) : Option Local := do
  let w := x.h.sew
  let g := x.h.grp
  let d ← readV x a g
  let v ← readS x.h b
  let i ← readS x.h c
  let u := if i.toNat < x.h.vlmax then setElem d i.toNat w v.toNat else d
  let y ← writeV x a g u
  some (pushV y g u)

/-- The vector operand of a translation service core's `vgetx` and `vmrecv` is an operand register (R9). -/
def tscOperand (sp : BitVec 7) (_s : State) (hk : Nat) : Bool :=
  !isTsc (unitOf (coreOf hk)) || decide (96 ≤ sp.toNat ∧ sp.toNat < 112)

/-- VGETX, R140. -/
def execVgetx (a b c : BitVec 7) (s : State) := runSlotIf 0x36 2 (tscOperand b) (localBody (getElem a b c)) s
/-- VPUTX, R140. -/
def execVputx (a b c : BitVec 7) (s : State) := runSlot 0x36 3 (localBody (putElem a b c)) s

end Sys2Proof.Machine
end

