-- ==== Sys2Proof/Machine/Access.lean ====
section
/-! DEFINITION. The shared body of memory instructions (R143 to R154, R161, R226): checking the elements of an access in
order, reading and writing their bytes, and issuing the operation. -/
namespace Sys2Proof.Machine

open Sys2Proof

/-! ## Elements -/

/-- One element or piece of an access: the index it reports, its address and width, and its checked locations. -/
structure Acc where
  idx : Nat
  va : DWord
  n : Nat
  pieces : List (Nat × Nat) := []
deriving DecidableEq, Repr

/-- What checking a list of elements comes to: all passed; those below the first failing element and its fault; or a
translation still to be filled. -/
inductive Checked where
  | all (as : List Acc) (s : State)
  | fault (as : List Acc) (idx cause info : Nat) (va : DWord) (s : State)
  | miss (s : State)

/-- Elements are checked in order (R146); the parts already passed of the element that fails are dropped. -/
def checkAccs (s : State) (hk : Nat) (k : Kind) (al : Nat) (p : Path) (passed : List Acc) : List Acc → Checked
  | [] => .all passed s
  | a :: rest =>
    match elemCheck s (agentOf s hk) k a.va a.n al p with
    | .ok ps t => checkAccs t hk k al p (passed ++ [{ a with pieces := ps }]) rest
    | .fault c i va t => .fault (passed.filter (fun b => b.idx != a.idx)) a.idx c i va t
    | .miss t => .miss t

/-- Lines of the locations that stand in the forwarding state (R329). -/
def metForward (s : State) (as : List Acc) : List Nat :=
  ((as.flatMap (fun a => a.pieces)).map (fun p => p.1 / 512)).filter (fun l => (SMap.find s.forward l).isSome)

/-- A location is in class 3 (R307, R399). -/
def isRemote (l : Nat) : Bool := !isScratch l && decide (classOf l = 3)
/-- A location is a class-2 register (R307, R388). -/
def isReg (l : Nat) : Bool := !isScratch l && decide (classOf l = 2)

/-- The refusal of an element. An idempotent task's store meets no poison before its commit (R299, R407). -/
def accRefusal (s : State) (hk : Nat) (k : Kind) (a : Acc) : Option Async :=
  match refusalOf s (agentOf s hk) k a.va a.pieces with
  | some r => if k = .store ∧ r.cause = cPOISON ∧ (getHart s hk).idem = true then none else some r
  | none => none

/-- The refusals of the elements of an access, in element order (R147). -/
def refusals (s : State) (hk : Nat) (k : Kind) (as : List Acc) : List Async := as.filterMap (accRefusal s hk k)

/-- The 64-byte sectors of an access, by number, each with the address of the element that reaches it; a sector that
elements reach one after another once. -/
def sectorsOf : List Acc → List (Nat × DWord)
  | [] => []
  | a :: as =>
    let mine := a.pieces.flatMap (fun p => (List.range ((p.1 + p.2 + 63) / 64 - p.1 / 64)).map (fun j => (p.1 / 64 + j, a.va)))
    match mine.getLast?, sectorsOf as with
    | some x, y :: ys => if x.1 = y.1 then mine ++ ys else mine ++ y :: ys
    | _, ys => mine ++ ys

/-- The device whose slices an access of a hart at a scope reads or writes (R288). -/
def servingDev (hk scope l : Nat) : Nat := if 5 ≤ scope ∧ classOf l = 0 then homeDev l else devOfHart hk

/-- Sectors, each with the address that reaches it, meet the L2 slices that serve a hart's access at a scope, one after another,
with the context of a write; with EVF their lines become next victims. At `node` or `sys` scope other devices write back their
copies first, and give them up to a write, which carries the hart's own earlier stores (R288, R289, R318, R327, R396; log 81). -/
def touchRun (s : State) (hk scope : Nat) (wr : Option Nat) (evf : Bool) (qs : List (Nat × DWord)) : State :=
  let far := decide (5 ≤ scope)
  let s1 := if wr.isSome && far then carryStores s hk else s
  let t := qs.foldl (fun u q =>
    let l := 64 * q.1
    touchSector (if far then recallLine u wr.isSome l else u) (servingDev hk scope l) (wr.map (fun c => ⟨hk, c, q.2⟩)) l) s1
  if evf then qs.foldl (fun u q => markLine u (servingDev hk scope (64 * q.1)) (64 * q.1)) t else t

/-- The sectors of an access of a hart meet the L2 slices, in element order. -/
def touchDirect (s : State) (hk scope : Nat) (wr evf : Bool) (as : List Acc) : State :=
  touchRun s hk scope (if wr then some (ctxKeyOf s hk) else none) evf (sectorsOf as)

/-- The sectors of a hart's load or store meet the L2 slices; those of an idempotent task's stores at its commit (R299, R318). -/
def touchAccs (s : State) (hk scope : Nat) (wr evf : Bool) (as : List Acc) : State :=
  if wr && (getHart s hk).idem then s else touchDirect s hk scope wr evf as

/-! ## Loads -/

/-- The requests that the class-3 pieces of an element at an address make: one of each piece, or where the task's own view holds
some of its bytes one of each other byte (R226, R399). -/
def fabricPieces (own : Nat → Bool) (wr : Bool) (va : DWord) (v : Nat) : List (Nat × Nat) → List FabReq
  | [] => []
  | (l, n) :: ps =>
    let rest := fabricPieces own wr (va + BitVec.ofNat 64 n) (v >>> (8 * n)) ps
    let mine (j : Nat) : Bool := own (keyVa (va + BitVec.ofNat 64 j) (l + j))
    if isRemote l = false then rest
    else if (List.range n).any mine then
      ((List.range n).filter (fun j => !mine j)).map (fun j =>
        { addr := l + j, n := 1, wr := wr, data := (byteOf v j).toNat, va := va + BitVec.ofNat 64 j }) ++ rest
    else { addr := l, n := n, wr := wr, data := v % 2 ^ (8 * n), va := va } :: rest

/-- A byte that a hart writes goes to its task's revision (R226). -/
def revOwns (s : State) (hk : Nat) (va : Nat) : Bool :=
  match (getHart s hk).task.bind (fun t => SMap.find s.revs t.uid) with
  | some r => inRegions r.regions va
  | none => false

/-- A byte that a task reads stands in a copy or cairn of its revision or of those above it, or in a buffer on the way; the fuel
bounds the nesting (R226, R299). -/
def viewHolds (s : State) : Nat → Nat → Nat → Bool
  | 0, _, _ => false
  | fuel + 1, uid, va =>
    (bufferOf s uid).any (fun e => match e with
      | .store _ bs _ _ => bs.any (fun p => p.1 == va)
      | _ => false)
      || (match SMap.find s.revs uid with
        | some r => inRegions r.regions va
            && ((SMap.find r.copies (va / 64)).isSome || (SMap.find r.cairns (va / 64)).isSome || viewHolds s fuel r.parent va)
        | none => false)

/-- A byte that a hart reads stands in its task's view, not at its home (R226, R299). -/
def viewOwns (s : State) (hk : Nat) (va : Nat) : Bool :=
  match (getHart s hk).task with
  | some t => viewHolds s (revFuel s) t.uid va
  | none => false

/-- The value a hart loads from checked pieces; a refused element is 0 (R147, R150). -/
def loadAcc (s : State) (hk : Nat) (a : Acc) : Nat :=
  if (accRefusal s hk .load a).isSome then 0 else viewPieces s hk a.va a.pieces

/-- The class-3 requests of a load that nothing refuses. -/
def loadRemote (s : State) (hk : Nat) (a : Acc) : List FabReq :=
  if (accRefusal s hk .load a).isSome then [] else fabricPieces (viewOwns s hk) false a.va 0 a.pieces

/-! ## Stores -/

/-- A write finds no room for the sectors it would capture; `direct` says that it does not go to a buffer (R226, R324). -/
def noRoom (s : State) (hk : Nat) (direct : Bool) (va n : Nat) : Bool :=
  match (getHart s hk).task with
  | none => false
  | some t =>
    -- a sector of revision uid is captured for its cairn, or with `copy` for its private copy
    let full (uid : Nat) (copy : Bool) : Bool :=
      match SMap.find s.revs uid with
      | none => false
      | some r =>
        [va, va + n - 1].any (fun a => inRegions r.regions a
          && !(SMap.find r.copies (a / 64)).isSome && (copy || !(SMap.find r.cairns (a / 64)).isSome))
        && revFull s r.ctx r.die
    -- a sector that the task's buffer does not hold yet
    let fullBuf := t.idem && !direct && [va, va + n - 1].any (fun a =>
        !t.buf.any (fun e => e.addrs.any (fun b => b / 64 == a / 64)))
      && revFull s (getHart s hk).ctxid.toNat (dieOf (coreOf hk))
    full t.uid (direct || !t.idem) || t.children.any (fun c => full c.uid false) || fullBuf

/-- The address an element's bytes are known by in buffers and revisions. -/
def Acc.key (a : Acc) : Nat := keyVa a.va ((a.pieces.headD (0, 0)).1)

/-- An element is stored: none where the spill area is exhausted; a refused element writes nothing (R147, R226). -/
def storeAcc (s : State) (hk scope : Nat) (evf : Bool) (a : Acc) (v : Nat) : Option State :=
  if (accRefusal s hk .store a).isSome then some s
  else if noRoom s hk false a.key a.n then none
  else some (storePieces s hk scope evf a.va a.pieces v)

/-- Poisoned sectors whose 64 bytes the passed elements of one store cover together; `nib` says that an element is half
of its byte (R154, R407). -/
def coveredSectors (s : State) (nib : Bool) (as : List Acc) : List Nat :=
  let ps := as.flatMap (fun a => a.pieces)
  ((ps.map (fun p => p.1 / 64)).eraseDups.filter (fun k => isPoisoned s (64 * k))).filter (fun k =>
    (List.range 64).all (fun j =>
      let n := (ps.filter (fun p => decide (p.1 ≤ 64 * k + j ∧ 64 * k + j < p.1 + p.2))).length
      decide (n ≥ if nib then 2 else 1)))

/-- A store whose elements cover whole poisoned sectors clears their poison as it performs; an idempotent task's store
meets no poison before its commit (R299, R407). -/
def clearCovered (hk : Nat) (nib : Bool) (c : Checked) : Checked :=
  let clear (s : State) (as : List Acc) : State :=
    if (getHart s hk).idem then s
    else (coveredSectors s nib (as.filter (fun a => match accRefusal s hk .store a with
      | some r => decide (r.cause = cPOISON)
      | none => true))).foldl (fun t k => unpoisonAt t (64 * k)) s
  match c with
  | .all as s => .all as (clear s as)
  | .fault as i cause info va s => .fault as i cause info va (clear s as)
  | .miss s => .miss s

/-- A nibble is stored (R154). -/
def storeNibble (s : State) (hk scope : Nat) (evf : Bool) (a : Acc) (hi : Bool) (v : Nat) : Option State :=
  let old := viewPieces s hk a.va a.pieces
  let byte := if hi then old % 16 + v % 16 * 16 else old / 16 * 16 + v % 16
  if (accRefusal s hk .store a).isSome then some s
  else if noRoom s hk false a.key 1 then none
  else match (getHart s hk).task with
    | some t =>
      if t.idem then
        some (bufferEntry (captureCairns s t a.key (a.pieces.headD (0, 0)).1) hk (.nibble scope a.key hi (v % 16) t.sect evf))
      else some (storePieces s hk scope evf a.va a.pieces byte)
    | none => some (storePieces s hk scope evf a.va a.pieces byte)

/-- How the elements of a store come to be written: all; or those below one that finds no room. -/
inductive Stored where
  | all (s : State)
  | full (idx : Nat) (va : DWord) (s : State)

/-- The elements of a store are written in ascending order (R146, R154). -/
def storeAccs (put : State → Acc → Option State) (s : State) : List Acc → Stored
  | [] => .all s
  | a :: rest => match put s a with
    | some t => storeAccs put t rest
    | none => .full a.idx a.va s

/-- What an operation of a hart carries when it is issued. -/
def opOf (s : State) (hk counter scope : Nat) (as : List Acc) (refused : List Async) : Op :=
  { hart := hk, counter := counter, scope := scope, refused := refused, rehome := metForward s as }

/-- The end of a store: the operation is issued if any element was, and the first failing element traps; a `direct` one goes to no
buffer (R146, R226, R280). -/
def finishStore (hk scope : Nat) (evf direct : Bool) (put : State → Acc → Option State) (remote : Acc → List FabReq)
    (c : Checked) : SlotRes :=
  let issue (s0 s : State) (as : List Acc) : State :=
    issueOp (if direct then touchDirect s hk scope true evf as else touchAccs s hk scope true evf as)
      { opOf s0 hk 2 scope as (refusals s0 hk .store as) with fabric := as.flatMap remote }
  match c with
  | .miss s => .wait (.notReady false) s
  | .all as s =>
    (match storeAccs put s as with
      | .all t => .done (issue s t as)
      | .full i va t => .trap cPAGEFAULT (pageInfo 3 .store) va i 0
          (let bs := as.filter (fun a => decide (a.idx < i)); if bs.isEmpty then t else issue s t bs))
  | .fault as i cause info va s =>
    (match storeAccs put s as with
      | .all t => .trap cause info va i 0 (if as.isEmpty then t else issue s t as)
      | .full j w t => .trap cPAGEFAULT (pageInfo 3 .store) w j 0
          (let bs := as.filter (fun a => decide (a.idx < j)); if bs.isEmpty then t else issue s t bs))

/-- The class-3 requests of a stored element: none for a byte of the task's revision, and an idempotent task holds its stores
until its commit (R226, R299). -/
def storeRemote (s : State) (hk : Nat) (val : Acc → Nat) (a : Acc) : List FabReq :=
  if (getHart s hk).idem || (accRefusal s hk .store a).isSome then [] else fabricPieces (revOwns s hk) true a.va (val a) a.pieces

/-! ## Unit-stride register (R311) -/

/-- An access lies in the page of a translation of the hart's context (R311). -/
def inPage (h : Hart) (e : TlbEnt) (a : Acc) : Bool :=
  let v := a.va.toNat % 2 ^ 56
  decide (windowOf a.va = 0 ∧ e.ctx = h.ctxid.toNat ∧ v >>> e.size = e.page ∧ (v + (a.n - 1)) >>> e.size = e.page)

/-- A unit-stride access goes through the hart's unit-stride register when all its elements lie in the page held there, and
through the gather banks when they do not (R311). -/
def unitPath (s : State) (hk : Nat) (as : List Acc) : Path :=
  let h := getHart s hk
  match h.ustride with
  | some e => if as.all (inPage h e) then .unit else .gather
  | none => .gather

/-- A unit-stride access that does not go through the unit-stride register refills it with the page of its element 0, as soon as
the core or its cluster holds that page (R311). -/
def refillUnit (s : State) (hk : Nat) (as : List Acc) (va : DWord) : State :=
  let h := getHart s hk
  let v := va.toNat % 2 ^ 56
  if windowOf va ≠ 0 ∨ unitPath s hk as = .unit then s
  else setHart s hk { h with ustride := match bankEntry (getCore s (coreOf hk)) h.ctxid.toNat v with
    | some e => some e
    | none => tlbFind (getClus s (clusKey (coreOf hk))).ctlb h.ctxid.toNat v }

end Sys2Proof.Machine
end

