-- ==== Sys2Proof/Machine/LoadStore.lean ====
section
/-! DEFINITION. Scalar and vector loads and stores and the hints, majors 0x14 to 0x16, 0x38, 0x39 and 0x3E (R151 to
R157). -/
namespace Sys2Proof.Machine

open Sys2Proof

/-! ## Scalar accesses (R143, R151) -/

/-- The effective address of a scalar access (R143). -/
def scalarAddr (h : Hart) (b c : BitVec 7) (t : Attr) : Option DWord := do
  let x ← readS h b
  let y ← readS h c
  some (BitVec.ofNat 64 (addOfs (x.toNat + y.toNat) t.ofs))

/-- A loaded value of n bytes as its destination receives it (R151). -/
def extendLoad (n : Nat) (sgn : Bool) (v : Nat) : DWord :=
  if sgn then BitVec.ofInt 64 (toSigned (8 * n) v) else BitVec.ofNat 64 v

/-- A scalar load whose address has passed the checks: a class-2 register (R389), or memory. -/
def scalarLoadAt (n : Nat) (sgn : Bool) (a : BitVec 7) (t : Attr) (va : DWord) (ps : List (Nat × Nat)) (s : State)
    (hk : Nat) : SlotRes :=
  let acc : Acc := ⟨0, va, n, ps⟩
  let l := (ps.headD (0, 0)).1
  if isReg l && decide (n = 8 ∧ l % 8 = 0) && regFor s hk l then
    if regPending s hk l then .wait (.notReady false) s
    else .done (issueOp s { hart := hk, counter := 1, scope := t.scope, ret := [.scalar a.toNat (regRead s l) true] })
  else
    let v := loadAcc s hk acc
    .done (issueOp (touchAccs s hk t.scope false t.evf [acc])
      { opOf s hk 1 t.scope [acc] (refusals s hk .load [acc]) with
        ret := [.scalar a.toNat (extendLoad n sgn v) true], fabric := loadRemote s hk acc })

/-- A scalar load of n bytes (R143 to R151, R168). -/
def scalarLoad (n : Nat) (sgn : Bool) (a b c : BitVec 7) (e : Option Word) (s : State) (hk : Nat) : SlotRes :=
  let h := getHart s hk
  match attrOf false e with
  | none => badOperand s hk
  | some t =>
    match scalarAddr h b c t with
    | none => badOperand s hk
    | some va =>
      if sDest a = false then badOperand s hk
      else if windowOf va = 0xE3 then evLoad va n a s hk
      else if counterFull h 1 then .wait (.notReady false) s
      else match elemCheck s (agentOf s hk) .load va n 1 .scalar with
        | .fault cause info f u => .trap cause info f 0 0 u
        | .miss u => .wait (.notReady false) u
        | .ok ps u => scalarLoadAt n sgn a t va ps u hk

/-- A scalar store whose address has passed the checks: a class-2 register, which performs later (R389), or memory. -/
def scalarStoreAt (n : Nat) (t : Attr) (va : DWord) (v : Nat) (ps : List (Nat × Nat)) (s : State) (hk : Nat) : SlotRes :=
  let h := getHart s hk
  let acc : Acc := ⟨0, va, n, ps⟩
  let l := (ps.headD (0, 0)).1
  if isReg l && decide (n = 8 ∧ l % 8 = 0) && regFor s hk l && !h.idem then
    if regStoreRefused s hk l then
      .done (issueOp s { hart := hk, counter := 2, scope := t.scope, refused := [⟨cREMOTENACK, nackInfo .store 0, va⟩] })
    else .done (issueOp s { hart := hk, counter := 2, scope := t.scope,
                            reg := some (regStore s hk l va (BitVec.ofNat 64 v)) })
  else if isReg l && decide (n = 8 ∧ l % 8 = 0) && regFor s hk l then
    .done (issueOp (storePieces s hk t.scope t.evf va ps v) { hart := hk, counter := 2, scope := t.scope })
  else finishStore hk t.scope t.evf false (fun u x => storeAcc u hk t.scope t.evf x v) (storeRemote s hk (fun _ => v)) (.all [acc] s)

/-- A scalar store of n bytes (R143 to R151, R168). -/
def scalarStore (n : Nat) (a b c : BitVec 7) (e : Option Word) (s : State) (hk : Nat) : SlotRes :=
  let h := getHart s hk
  match attrOf false e with
  | none => badOperand s hk
  | some t =>
    match scalarAddr h b c t with
    | none => badOperand s hk
    | some va =>
      match readS h a with
      | none => badOperand s hk
      | some v =>
        if windowOf va = 0xE3 then evStore va n v s hk
        else if counterFull h 2 then .wait (.notReady false) s
        else match elemCheck s (agentOf s hk) .store va n 1 .scalar with
          | .fault cause info f u => .trap cause info f 0 0 u
          | .miss u => .wait (.notReady false) u
          | .ok ps u => scalarStoreAt n t va v.toNat ps u hk

/-! ## Hints (R148, R152, R157) -/

/-- What a hint finds at an address: a location of node or host memory, nothing where it would fault or names none, or a
translation still to be filled (R148). -/
inductive HintAt where
  | at (l : Nat) (s : State)
  | skip (s : State)
  | miss (s : State)

/-- The location of a global address that a load could read (R148). -/
def hintLoc (s : State) (hk : Nat) (va : DWord) (p : Path) : HintAt :=
  if windowOf va ≠ 0 then .skip s
  else match translate s (agentOf s hk) .load va p with
    | .ok l t => if classOf l < 2 ∧ (refusal t (agentOf s hk) .load va (l, 1)).isNone = true then .at l t else .skip t
    | .fault _ _ _ t => .skip t
    | .miss t => .miss t

/-- What a hint of a hart does at a location. -/
abbrev HintAct := Nat → State → Nat → State

/-- `pf`: the sector is brought into the L2 (R152, R318). -/
def prefetchAt : HintAct := fun hk s l => touchSector s (devOfHart hk) none l
/-- `evf`: the line, if resident, is the next victim of its set (R152, R318). -/
def evictAt : HintAct := fun hk s l => markLine s (devOfHart hk) l
/-- `unpin` of one line (R152, R320). -/
def unpinAt : HintAct := fun hk s l => unpinLine s (devOfHart hk) l

/-- Locations are treated one after another from the k-th on; a translation still to be filled keeps the place reached
(R148). -/
def hintAll (act : HintAct) (hk : Nat) (p : Path) (finish : State → State) : Nat → List DWord → State → SlotRes
  | _, [], s => .done (finish s)
  | k, va :: rest, s =>
    match hintLoc s hk va p with
    | .at l t => hintAll act hk p finish (k + 1) rest (act hk t l)
    | .skip t => hintAll act hk p finish (k + 1) rest t
    | .miss t => .wait (.notReady false) (modHart t hk (fun h =>
        { h with conv := h.conv.map (fun c => { c with elem := k, resumed := true }) }))

/-- A hint on a list of addresses, from the one it had reached (R148). -/
def hintOver (act : HintAct) (p : Path) (finish : State → State) (vas : List DWord) (s : State) (hk : Nat) : SlotRes :=
  let k := startElem (getHart s hk)
  hintAll act hk p finish k (vas.drop k) s

/-- A scalar hint on an address (R152). -/
def scalarHint (act : HintAct) (b c : BitVec 7) (e : Option Word) (s : State) (hk : Nat) : SlotRes :=
  match attrOf false e with
  | none => badOperand s hk
  | some t => match scalarAddr (getHart s hk) b c t with
    | none => badOperand s hk
    | some va => hintOver act .scalar id [va] s hk

/-- The first address and the number of the whole 512-byte lines of a range (R152). -/
def wholeLines (base n : Nat) : Nat × Nat :=
  let first := (base + 511) / 512
  (first * 512, (base + n) / 512 - first)

/-- `unpin` (R152); it counts in SCNT (R149). -/
def unpinRange (b c : BitVec 7) (e : Option Word) (s : State) (hk : Nat) : SlotRes :=
  let h := getHart s hk
  match attrOf false e, readS h b, readS h c with
  | some t, some x, some n =>
    if counterFull h 2 then .wait (.notReady false) s
    else
      let r := wholeLines (addOfs x.toNat t.ofs) n.toNat
      hintOver unpinAt .scalar (fun u => issueOp u { hart := hk, counter := 2, scope := 4 })
        ((List.range r.2).map (fun k => BitVec.ofNat 64 (r.1 + 512 * k))) s hk
  | _, _, _ => badOperand s hk

/-- A vector hint applies a scalar one to every sector or line that holds a byte of its range (R157). -/
def vectorHint (step : Nat) (act : HintAct) (b : BitVec 7) (e : Option Word) (s : State) (hk : Nat) : SlotRes :=
  let h := getHart s hk
  match attrOf false e, readS h b with
  | some t, some x =>
    let lo := addOfs x.toNat t.ofs
    let n := (h.len * h.sew + 7) / 8
    let first := lo / step
    let count := if n = 0 then 0 else (lo + n - 1) / step + 1 - first
    hintOver act .gather id
      ((List.range count).map (fun k => BitVec.ofNat 64 (if k = 0 then lo else (first + k) * step))) s hk
  | _, _ => badOperand s hk

/-! ## Vector accesses (R153, R154) -/

/-- The accesses of the active elements from the start element on. -/
def elemAccs (h : Hart) (n : Nat) (addr : Nat → Nat) : List Acc :=
  ((List.range h.len).filter (fun i => h.selBit i && decide (startElem h ≤ i))).map
    (fun i => { idx := i, va := BitVec.ofNat 64 (addr i), n := n })

/-- The address of element i: unit stride, scalar stride, or index group (R153). -/
inductive Mode where
  | unit
  | stride (c : BitVec 7)
  | index (c : BitVec 7)
deriving DecidableEq, Repr

/-- Width of an index element and registers of an index group (R153). -/
def indexShape (h : Hart) : Nat × Nat :=
  let wi := if h.sew < 32 then 32 else h.sew
  (wi, h.grp * wi / h.sew)

/-- The addresses of a vector access; none where its operands raise ILLEGAL-OPERAND (R153, R154). -/
def vecAddrs (x : Local) (m : Mode) (a b : BitVec 7) (t : Attr) : Option (Nat → Nat) := do
  let base ← readS x.h b
  let lo := addOfs base.toNat t.ofs
  match m with
  | .unit => some (fun i => addOfs lo ((i * x.h.sew / 8 : Nat) : Int))
  | .stride c => do
    guard (8 ≤ x.h.sew)
    let k ← readS x.h c
    some (fun i => addOfs lo (i * k.toInt))
  | .index c => do
    guard (8 ≤ x.h.sew)
    let (wi, g) := indexShape x.h
    guard (g ≤ 8 ∧ overlaps a x.h.grp c g = false)
    let v ← readV x c g
    some (fun i => addOfs lo ((elem v i wi : Nat) : Int))

/-- Bytes of an element access. -/
def elemBytes (h : Hart) : Nat := if h.sew = 4 then 1 else h.sew / 8

/-- The bits of a loaded element: at SEW 4 the nibble of its byte (R41, R154). -/
def elemBits (h : Hart) (i v : Nat) : Nat := if h.sew = 4 then (if i % 2 = 0 then v % 16 else v / 16 % 16) else v

/-- The destination of a load: loaded elements from a start up to a stop, masked-off and tail elements as MASKZ and TAILZ
say; elements before the start and from a fault on stay (R35, R104, R146, R154). -/
def loadMerge (h : Hart) (w n old : Nat) (stop : Option Nat) (vals : List (Nat × Nat)) : Nat :=
  if h.len = 0 then old
  else buildElems w ((List.range n).map (fun i =>
    let o := elem old i w
    if i < startElem h then o
    else if (match stop with | some k => decide (k ≤ i) | none => false) then o
    else match vals.find? (fun p => p.1 == i) with
      | some p => p.2
      | none => keptElem h i o))

/-- A trap at element i leaves something to write although no active element passed: masked-off elements below it, under
MASKZ (R35, R104). -/
def zeroesBelow (h : Hart) (i : Nat) : Bool := h.maskz && decide (startElem h < i)

/-- The end of a vector load: its operation is issued with what its data will write, and the first failing element
traps. `ret` gives the writes for the elements that passed, stopped at an element or not. -/
def finishLoad (hk scope : Nat) (evf : Bool) (ret : State → List Acc → Option Nat → List Ret)
    (remote : State → Acc → List FabReq) (c : Checked) : SlotRes :=
  let issue (s : State) (as : List Acc) (stop : Option Nat) : State :=
    issueOp (touchAccs s hk scope false evf as)
      { opOf s hk 1 scope as (refusals s hk .load as) with ret := ret s as stop, fabric := as.flatMap (remote s) }
  match c with
  | .miss s => .wait (.notReady false) s
  | .all as s => .done (issue s as none)
  | .fault as i cause info va s =>
    .trap cause info va i 0 (if as.isEmpty && !zeroesBelow (getHart s hk) i then s else issue s as (some i))

/-- The translation structures that a vector access goes through (R311). -/
def Mode.path (m : Mode) (s : State) (hk : Nat) (as : List Acc) : Path :=
  match m with
  | .unit => unitPath s hk as
  | _ => .gather

/-- Unit-stride accesses keep the page of element 0 (R311). -/
def unitPage (m : Mode) (lo : Nat) (as : List Acc) (s : State) (hk : Nat) : State :=
  match m with | .unit => refillUnit s hk as (BitVec.ofNat 64 lo) | _ => s

/-- The checks of a vector access of an addressing mode whose element 0 lies at an address (R146, R311). -/
def checkMode (m : Mode) (lo : Nat) (k : Kind) (as : List Acc) (s : State) (hk : Nat) : Checked :=
  checkAccs (unitPage m lo as s hk) hk k 1 (m.path s hk as) [] as

/-- A vector load (R153, R154). -/
def vectorLoad (m : Mode) (a b : BitVec 7) (e : Option Word) (s : State) (hk : Nat) : SlotRes :=
  let x := getLocal s hk
  let h := x.h
  let operands : Option (Attr × (Nat → Nat) × Nat) := do
    let t ← attrOf false e
    guard (h.maskFits = true)
    let addr ← vecAddrs x m a b t
    let _ ← writeV x a h.grp 0
    let old ← readV x a h.grp
    some (t, addr, old)
  match operands with
  | none => badOperand s hk
  | some (t, addr, old) =>
    if counterFull h 1 then .wait (.notReady false) s
    else
      let n := 1024 * h.grp / h.sew
      finishLoad hk t.scope t.evf
        (fun s as stop => [.vector a.toNat h.grp (loadMerge h h.sew n old stop
          (as.map (fun c => (c.idx, elemBits h c.idx (loadAcc s hk c))))) stop.isNone])
        (fun s c => loadRemote s hk c)
        (checkMode m (addr 0) .load (elemAccs h (elemBytes h) addr) s hk)

/-- A vector store (R153, R154). -/
def vectorStore (m : Mode) (a b : BitVec 7) (e : Option Word) (s : State) (hk : Nat) : SlotRes :=
  let x := getLocal s hk
  let h := x.h
  let operands : Option (Attr × (Nat → Nat) × Nat) := do
    let t ← attrOf false e
    guard (h.maskFits = true)
    let addr ← vecAddrs x m a b t
    let v ← readV x a h.grp
    some (t, addr, v)
  match operands with
  | none => badOperand s hk
  | some (t, addr, v) =>
    if counterFull h 2 then .wait (.notReady false) s
    else
      let val (c : Acc) : Nat := elem v c.idx h.sew
      finishStore hk t.scope t.evf false
        (fun u c => if h.sew = 4 then storeNibble u hk t.scope t.evf c (decide (c.idx % 2 = 1)) (val c)
          else storeAcc u hk t.scope t.evf c (val c))
        (storeRemote s hk val)
        (clearCovered hk (decide (h.sew = 4))
          (checkMode m (addr 0) .store (elemAccs h (elemBytes h) addr) s hk))

/-- `vsbm`: a byte string under a byte mask (R155). -/
def byteMaskStore (a b : BitVec 7) (e : Option Word) (s : State) (hk : Nat) : SlotRes :=
  let x := getLocal s hk
  let h := x.h
  let n := h.len * h.sew / 8
  match attrOf false e, readS h b, readV x a h.grp with
  | some t, some base, some v =>
    if h.sew = 4 ∨ n > 1024 then badOperand s hk
    else if counterFull h 2 then .wait (.notReady false) s
    else
      let lo := addOfs base.toNat t.ofs
      let accs : List Acc := ((List.range n).filter (fun j => h.selBit j && decide (startElem h ≤ j))).map
        (fun j => { idx := j, va := BitVec.ofNat 64 (addOfs lo (j : Int)), n := 1 })
      finishStore hk t.scope t.evf false (fun u c => storeAcc u hk t.scope t.evf c (elem v c.idx 8))
        (storeRemote s hk (fun c => elem v c.idx 8))
        (clearCovered hk false (checkMode .unit lo .store accs s hk))
  | _, _, _ => badOperand s hk

/-! ## Narrow and block formats (R156) -/

/-- The formats that `vldk` and `vstk` move. -/
def BFmt.moved : BFmt → Bool
  | .bf16 => false | .f16 => false | .i8 => false | .i4 => false | _ => true

/-- The prefix of `vldk` and `vstk` with its checks: the format, its width, its scale register and the scale plane
(R156, R177). -/
def blockPfx (x : Local) (a c : BitVec 7) : Option Pfx := do
  guard (x.h.prefixLive = true)
  let p ← convPfx x.h
  guard (p.f.moved = true ∧ p.f.width = x.h.sew ∧ scalesFit p.f x.h.len = true)
  guard (if p.f.block = 0 then c = noSpec else c ≠ noSpec)
  guard (p.f.block = 0 ∨ overlaps p.b 1 a x.h.grp = false)
  some p

/-- Payload bytes of a block in memory (R53, R57). -/
def BFmt.blockBytes : BFmt → Nat
  | .mxe4 => 32 | .mxe5 => 32 | .mxi8 => 32 | .mxe2 => 16 | .kx8 => 16 | .kx5 => 10 | .kx3 => 8 | _ => 0

/-- Bits of one payload element in memory. -/
def BFmt.memBits (f : BFmt) : Nat := match f with | .kx5 => 5 | _ => f.width

/-- The first bit of element i's payload, counted from the payload plane's base (R53, R57). -/
def BFmt.payBit (f : BFmt) (i : Nat) : Nat :=
  if f.block = 0 then i * f.width else i / f.block * f.blockBytes * 8 + i % f.block * f.memBits

/-- The access of element i's payload, reported at an index. -/
def payAcc (f : BFmt) (lo idx i : Nat) : Acc :=
  let b := f.payBit i
  { idx := idx, va := BitVec.ofNat 64 (addOfs lo ((b / 8 : Nat) : Int)), n := (b + f.memBits - 1) / 8 + 1 - b / 8 }

/-- The container of an element from its payload access (R156). -/
def payElem (f : BFmt) (i v : Nat) : Nat := (v >>> (f.payBit i % 8)) % 2 ^ f.memBits

/-- Blocks that hold an element below vl. -/
def blocksBelow (h : Hart) (f : BFmt) : Nat := (h.len + f.block - 1) / f.block

/-- The first element of an element's block; itself in a plain format. -/
def BFmt.firstOf (f : BFmt) (i : Nat) : Nat := if f.block = 0 then i else i / f.block * f.block

/-- The access of block b's scale element. -/
def scaleAcc (f : BFmt) (sc b : Nat) : Acc :=
  { idx := b * f.block, va := BitVec.ofNat 64 (addOfs sc ((b * (f.scaleWidth / 8) : Nat) : Int)), n := f.scaleWidth / 8 }

/-- The accesses of `vldk`: for each block the payload of its active elements and its scale element (R156). Each carries the
element it loads, or none for a scale element. -/
def blockLoads (h : Hart) (f : BFmt) (lo sc : Nat) : List (Acc × Option Nat) :=
  let act (i : Nat) : Bool := decide (i < h.len) && h.selBit i && decide (startElem h ≤ f.firstOf i)
  if f.block = 0 then ((List.range h.len).filter act).map (fun i => (payAcc f lo i i, some i))
  else (List.range (blocksBelow h f)).flatMap (fun b =>
    if b * f.block < startElem h then []
    else (((List.range f.block).map (fun j => b * f.block + j)).filter act).map
        (fun i => (payAcc f lo (b * f.block) i, some i))
      ++ [(scaleAcc f sc b, none)])

/-- `vldk` (R156). -/
def blockLoad (a b c : BitVec 7) (e : Option Word) (s : State) (hk : Nat) : SlotRes :=
  let x := getLocal s hk
  let h := x.h
  let operands : Option (Attr × Pfx × Nat × Nat × Nat × Nat) := do
    let t ← attrOf false e
    let p ← blockPfx x a c
    guard (h.maskFits = true)
    let base ← readS h b
    let sc ← readS h c
    let _ ← writeV x a h.grp 0
    let old ← readV x a h.grp
    let olds ← readV x p.b 1
    some (t, p, addOfs base.toNat t.ofs, sc.toNat, old, olds)
  match operands with
  | none => badOperand s hk
  | some (t, p, lo, sc, old, olds) =>
    if counterFull h 1 then .wait (.notReady false) s
    else
      let f := p.f
      let plan := blockLoads h f lo sc
      let n := 1024 * h.grp / h.sew
      let vals (s : State) (as : List Acc) : List (Nat × Nat) :=
        (as.zip plan).filterMap (fun q => q.2.2.map (fun i => (i, payElem f i (loadAcc s hk q.1))))
      let scales (s : State) (as : List Acc) : Nat :=
        (as.zip plan).foldl (fun v q => match q.2.2 with
          | some _ => v
          | none => setElem v (q.1.idx / f.block) f.scaleWidth (loadAcc s hk q.1)) olds
      finishLoad hk t.scope t.evf
        (fun s as stop =>
          [.vector a.toNat h.grp (loadMerge h h.sew n old stop (vals s as)) stop.isNone]
            ++ (if f.block = 0 then [] else [.vector p.b.toNat 1 (scales s as) false]))
        (fun s c => loadRemote s hk c)
        (checkMode .unit lo .load (plan.map Prod.fst) s hk)

/-- The bytes of block b's payload as `vstk` writes them (R53, R57, R156). -/
def blockPayload (f : BFmt) (v b : Nat) : Nat :=
  buildElems f.memBits ((List.range f.block).map (fun j =>
    let w := elem v (b * f.block + j) f.width
    if f = .kx3 then w % 8 else w))

/-- The accesses of `vstk` and what each stores: elements of a plain format below vl; whole blocks and their scale elements
(R156). The value of a nibble element carries its half. -/
def blockStores (h : Hart) (f : BFmt) (lo sc v scales : Nat) : List (Acc × Nat) :=
  if f.block = 0 then
    ((List.range h.len).filter (fun i => decide (startElem h ≤ i))).map (fun i => (payAcc f lo i i, elem v i f.width))
  else (List.range (blocksBelow h f)).flatMap (fun b =>
    if b * f.block < startElem h then []
    else [({ idx := b * f.block, va := BitVec.ofNat 64 (addOfs lo ((b * f.blockBytes : Nat) : Int)), n := f.blockBytes },
           blockPayload f v b),
          (scaleAcc f sc b, elem scales b f.scaleWidth)])

/-- The payload of a block is stored, unless its scale element, stored after it, would then find no room: no part of a block
that faults has been moved (R156, R226). -/
def storeBlock (s : State) (hk scope : Nat) (evf : Bool) (y : Acc) (v : Nat) (scale : Option Acc) : Option State :=
  match storeAcc s hk scope evf y v, scale with
  | some t, some q => (storeAcc t hk scope evf q 0).map (fun _ => t)
  | r, _ => r

/-- The elements that passed. -/
def Checked.passed : Checked → List Acc
  | .all as _ => as
  | .fault as _ _ _ _ _ => as
  | .miss _ => []

/-- `vstk` (R156). -/
def blockStore (a b c : BitVec 7) (e : Option Word) (s : State) (hk : Nat) : SlotRes :=
  let x := getLocal s hk
  let h := x.h
  let operands : Option (Attr × Pfx × Nat × Nat × Nat × Nat) := do
    let t ← attrOf false e
    let p ← blockPfx x a c
    let base ← readS h b
    let sc ← readS h c
    let v ← readV x a h.grp
    let scales ← readV x p.b 1
    some (t, p, addOfs base.toNat t.ofs, sc.toNat, v, scales)
  match operands with
  | none => badOperand s hk
  | some (t, p, lo, sc, v, scales) =>
    if counterFull h 2 then .wait (.notReady false) s
    else
      let f := p.f
      let plan := blockStores h f lo sc v scales
      let val (y : Acc) : Nat :=
        match plan.find? (fun q => q.1.va == y.va && q.1.idx == y.idx && q.1.n == y.n) with | some q => q.2 | none => 0
      let checked := checkMode .unit lo .store (plan.map Prod.fst) s hk
      finishStore hk t.scope t.evf false
        (fun u y => if f.block = 0 ∧ f.width = 4 then storeNibble u hk t.scope t.evf y (decide (y.idx % 2 = 1)) (val y)
          else storeBlock u hk t.scope t.evf y (val y) (if f.block ≠ 0 ∧ y.n = f.blockBytes then
            checked.passed.find? (fun q => q.idx == y.idx && q.n != y.n) else none))
        (storeRemote s hk val)
        (clearCovered hk (decide (f.block = 0 ∧ f.width = 4)) checked)

/-! ## The instructions -/

/-- LDS_B, R151. -/
def execLdsB (a b c : BitVec 7) (e : Option Word) (s : State) := runSlot 0x14 0 (scalarLoad 1 true a b c e) s
/-- LDS_H, R151. -/
def execLdsH (a b c : BitVec 7) (e : Option Word) (s : State) := runSlot 0x14 1 (scalarLoad 2 true a b c e) s
/-- LDS_W, R151. -/
def execLdsW (a b c : BitVec 7) (e : Option Word) (s : State) := runSlot 0x14 2 (scalarLoad 4 true a b c e) s
/-- LDZ_B, R151. -/
def execLdzB (a b c : BitVec 7) (e : Option Word) (s : State) := runSlot 0x14 3 (scalarLoad 1 false a b c e) s
/-- LDZ_H, R151. -/
def execLdzH (a b c : BitVec 7) (e : Option Word) (s : State) := runSlot 0x14 4 (scalarLoad 2 false a b c e) s
/-- LDZ_W, R151. -/
def execLdzW (a b c : BitVec 7) (e : Option Word) (s : State) := runSlot 0x14 5 (scalarLoad 4 false a b c e) s
/-- LD_D, R151. -/
def execLdD (a b c : BitVec 7) (e : Option Word) (s : State) := runSlot 0x14 6 (scalarLoad 8 false a b c e) s
/-- ST_B, R151. -/
def execStB (a b c : BitVec 7) (e : Option Word) (s : State) := runSlot 0x15 0 (scalarStore 1 a b c e) s
/-- ST_H, R151. -/
def execStH (a b c : BitVec 7) (e : Option Word) (s : State) := runSlot 0x15 1 (scalarStore 2 a b c e) s
/-- ST_W, R151. -/
def execStW (a b c : BitVec 7) (e : Option Word) (s : State) := runSlot 0x15 2 (scalarStore 4 a b c e) s
/-- ST_D, R151. -/
def execStD (a b c : BitVec 7) (e : Option Word) (s : State) := runSlot 0x15 3 (scalarStore 8 a b c e) s
/-- PF, R152. -/
def execPf (b c : BitVec 7) (e : Option Word) (s : State) :=
  runSlot 0x16 0 (scalarHint prefetchAt b c e) s
/-- EVF, R152. -/
def execEvf (b c : BitVec 7) (e : Option Word) (s : State) :=
  runSlot 0x16 1 (scalarHint evictAt b c e) s
/-- UNPIN, R152. -/
def execUnpin (b c : BitVec 7) (e : Option Word) (s : State) := runSlot 0x16 2 (unpinRange b c e) s
/-- VLD, R153. -/
def execVld (a b : BitVec 7) (e : Option Word) (s : State) := runSlot 0x38 0 (vectorLoad .unit a b e) s
/-- VLDS, R153. -/
def execVlds (a b c : BitVec 7) (e : Option Word) (s : State) := runSlot 0x38 1 (vectorLoad (.stride c) a b e) s
/-- VLDX, R153. -/
def execVldx (a b c : BitVec 7) (e : Option Word) (s : State) := runSlot 0x38 2 (vectorLoad (.index c) a b e) s
/-- VLDK, R156. -/
def execVldk (a b c : BitVec 7) (e : Option Word) (s : State) := runSlot 0x38 3 (blockLoad a b c e) s
/-- VST, R153. -/
def execVst (a b : BitVec 7) (e : Option Word) (s : State) := runSlot 0x39 0 (vectorStore .unit a b e) s
/-- VSTS, R153. -/
def execVsts (a b c : BitVec 7) (e : Option Word) (s : State) := runSlot 0x39 1 (vectorStore (.stride c) a b e) s
/-- VSTX, R153. -/
def execVstx (a b c : BitVec 7) (e : Option Word) (s : State) := runSlot 0x39 2 (vectorStore (.index c) a b e) s
/-- VSBM, R155. -/
def execVsbm (a b : BitVec 7) (e : Option Word) (s : State) := runSlot 0x39 3 (byteMaskStore a b e) s
/-- VSTK, R156. -/
def execVstk (a b c : BitVec 7) (e : Option Word) (s : State) := runSlot 0x39 4 (blockStore a b c e) s
/-- VPF, R157. -/
def execVpf (b : BitVec 7) (e : Option Word) (s : State) :=
  runSlot 0x3E 0 (vectorHint 64 prefetchAt b e) s
/-- VEVF, R157. -/
def execVevf (b : BitVec 7) (e : Option Word) (s : State) :=
  runSlot 0x3E 1 (vectorHint 512 evictAt b e) s

end Sys2Proof.Machine
end

