-- ==== Sys2Proof/Machine/Atomics.lean ====
section
/-! DEFINITION. Atomics, majors 0x3A and 0x3B (R158 to R161). -/
namespace Sys2Proof.Machine

open Sys2Proof

/-- The new value of an atomic step on w bits: operation, old value, data, compare operand (R158). -/
def atomicNew (fn w old x t : Nat) : Nat :=
  match fn with
  | 0 => (old + x) % 2 ^ w
  | 1 => Nat.land old x
  | 2 => Nat.lor old x
  | 3 => Nat.xor old x
  | 4 => if x < old then x else old
  | 5 => if toSigned w x < toSigned w old then x else old
  | 6 => if x > old then x else old
  | 7 => if toSigned w x > toSigned w old then x else old
  | 8 => x
  | _ => if old = t then x else old

/-- The value an atomic finds: the task's revision or memory, without its own buffer (R161, R226). -/
def directView (s : State) (hk : Nat) (a : Acc) : Nat :=
  let byte (va loc : Nat) : Byte :=
    match (getHart s hk).task with
    | some t => revByte s (revFuel s) t.uid va loc
    | none => readByte s loc
  valueOf ((a.pieces.headD (0, 0)).1 |> fun l => (List.range a.n).map (fun j => byte (a.key + j) (l + j)))

/-- A value is written past the task's buffer (R161, R226). -/
def directWrite (s : State) (hk : Nat) (a : Acc) (v : Nat) : State :=
  writeTaskBytes s (getHart s hk).task (spread a.va a.pieces v)

/-- One step of an atomic on a checked element: the state and the old value; none where the spill area is exhausted. A
refused element changes nothing and returns 0; an element of another node is executed there (R147, R158, R160, R399). -/
def atomicStep (fn : Nat) (s : State) (hk : Nat) (a : Acc) (x t : Nat) : Option (State × Nat) :=
  if (accRefusal s hk .atomic a).isSome ∨ a.pieces.any (fun p => isRemote p.1) = true then
    some (s, if (accRefusal s hk .atomic a).isSome then 0 else directView s hk a)
  else if noRoom s hk true a.key a.n then none
  else
    let old := directView s hk a
    some (directWrite s hk a (atomicNew fn (8 * a.n) old x t), old)

/-- The class-3 request of an atomic element that nothing refuses (R160, R399). -/
def atomicRemote (fn : Nat) (s : State) (hk : Nat) (a : Acc) (x t : Nat) : List FabReq :=
  if (accRefusal s hk .atomic a).isSome then []
  else (a.pieces.filter (fun p => isRemote p.1)).map (fun p =>
    { addr := p.1, n := p.2, wr := true, data := x, va := a.va, atom := some (fn, t) })

/-- A scalar atomic (R158, R159). -/
def scalarAtomic (fn : Nat) (a b c : BitVec 7) (e : Option Word) (s : State) (hk : Nat) : SlotRes :=
  let h := getHart s hk
  let returns := decide (a ≠ noSpec)
  let counter := if returns then 1 else 2
  match attrOf true e, readS h b, readS h c, readS h a with
  | some t, some base, some x, some cmp =>
    if sDest a = false then badOperand s hk
    else if counterFull h counter then .wait (.notReady false) s
    else
      let n := if t.w then 4 else 8
      let va := BitVec.ofNat 64 (addOfs base.toNat t.ofs)
      match elemCheck s (agentOf s hk) .atomic va n n .scalar with
      | .fault cause info f u => .trap cause info f 0 0 u
      | .miss u => .wait (.notReady false) u
      | .ok ps u =>
        let acc : Acc := ⟨0, va, n, ps⟩
        let x := x.toNat % 2 ^ (8 * n)
        let cmp := cmp.toNat % 2 ^ (8 * n)
        match atomicStep fn u hk acc x cmp with
        | none => .trap cPAGEFAULT (pageInfo 3 .atomic) va 0 0 u
        | some (v, old) =>
          .done (issueOp (touchDirect v hk t.scope true t.evf [acc]) { opOf u hk counter t.scope [acc] (refusals u hk .atomic [acc]) with
            ret := if returns then [.scalar a.toNat (BitVec.ofNat 64 old) true] else [],
            fabric := atomicRemote fn u hk acc x cmp })
  | _, _, _, _ => badOperand s hk

/-- The steps of a vector atomic in ascending order: the state, the old values by element, and the element that finds no
room, if one does (R159). -/
def atomicSteps (fn : Nat) (hk : Nat) (data cmp : Nat → Nat) :
    State → List (Nat × Nat) → List Acc → State × List (Nat × Nat) × Option Acc
  | s, olds, [] => (s, olds, none)
  | s, olds, a :: rest =>
    match atomicStep fn s hk a (data a.idx) (cmp a.idx) with
    | none => (s, olds, some a)
    | some (t, old) => atomicSteps fn hk data cmp t (olds ++ [(a.idx, old)]) rest

/-- A vector atomic (R158, R159). -/
def vectorAtomic (fn : Nat) (a b c : BitVec 7) (e : Option Word) (s : State) (hk : Nat) : SlotRes :=
  let x := getLocal s hk
  let h := x.h
  let g := h.grp
  let returns := decide (a ≠ noSpec)
  let counter := if returns then 1 else 2
  let operands : Option (Attr × Nat × Nat × Nat) := do
    let t ← attrOf true e
    guard (h.sew = 64 ∧ overlaps a g b g = false ∧ (overlaps a g c g = false ∨ a = c))
    let addrs ← readV x b g
    let data ← readV x c g
    let _ ← writeV x a g 0
    let old ← readV x a g
    some (t, addrs, data, old)
  match operands with
  | none => badOperand s hk
  | some (t, addrs, data, old) =>
    if counterFull h counter then .wait (.notReady false) s
    else
      let n := if t.w then 4 else 8
      let m := 2 ^ (8 * n)
      let accs := elemAccs h n (fun i => addOfs (elem addrs i 64) t.ofs)
      let dat (i : Nat) : Nat := elem data i 64 % m
      let cmp (i : Nat) : Nat := elem old i 64 % m
      let finish (s : State) (as : List Acc) (stop : Option (Nat × Nat × Nat × DWord)) : SlotRes :=
        let r := atomicSteps fn hk dat cmp s [] as
        let stop := match r.2.2 with
          | some y => some (y.idx, cPAGEFAULT, pageInfo 3 .atomic, y.va)
          | none => stop
        let done := match r.2.2 with | some y => as.filter (fun z => decide (z.idx < y.idx)) | none => as
        let op := { opOf s hk counter t.scope done (refusals s hk .atomic done) with
          ret := if returns then
            [.vector a.toNat g (loadMerge h 64 (16 * g) old (stop.map (fun z => z.1)) r.2.1) stop.isNone] else [],
          fabric := done.flatMap (fun z => atomicRemote fn s hk z (dat z.idx) (cmp z.idx)) }
        let idle := match stop with | some y => done.isEmpty && !(returns && zeroesBelow h y.1) | none => false
        let issued := if idle then r.1 else issueOp (touchDirect r.1 hk t.scope true t.evf done) op
        match stop with
        | none => .done issued
        | some (i, cause, info, va) => .trap cause info va i 0 issued
      match checkAccs s hk .atomic n .gather [] accs with
      | .miss u => .wait (.notReady false) u
      | .all as u => finish u as none
      | .fault as i cause info va u => finish u as (some (i, cause, info, va))

/-! ## The instructions -/

/-- AADD_S, R158. -/
def execAaddS (a b c : BitVec 7) (e : Option Word) (s : State) := runSlot 0x3A 0 (scalarAtomic 0 a b c e) s
/-- AAND_S, R158. -/
def execAandS (a b c : BitVec 7) (e : Option Word) (s : State) := runSlot 0x3A 1 (scalarAtomic 1 a b c e) s
/-- AOR_S, R158. -/
def execAorS (a b c : BitVec 7) (e : Option Word) (s : State) := runSlot 0x3A 2 (scalarAtomic 2 a b c e) s
/-- AXOR_S, R158. -/
def execAxorS (a b c : BitVec 7) (e : Option Word) (s : State) := runSlot 0x3A 3 (scalarAtomic 3 a b c e) s
/-- AMIN_S, R158. -/
def execAminS (a b c : BitVec 7) (e : Option Word) (s : State) := runSlot 0x3A 4 (scalarAtomic 4 a b c e) s
/-- AMINS_S, R158. -/
def execAminsS (a b c : BitVec 7) (e : Option Word) (s : State) := runSlot 0x3A 5 (scalarAtomic 5 a b c e) s
/-- AMAX_S, R158. -/
def execAmaxS (a b c : BitVec 7) (e : Option Word) (s : State) := runSlot 0x3A 6 (scalarAtomic 6 a b c e) s
/-- AMAXS_S, R158. -/
def execAmaxsS (a b c : BitVec 7) (e : Option Word) (s : State) := runSlot 0x3A 7 (scalarAtomic 7 a b c e) s
/-- ASWAP_S, R158. -/
def execAswapS (a b c : BitVec 7) (e : Option Word) (s : State) := runSlot 0x3A 8 (scalarAtomic 8 a b c e) s
/-- ACAS_S, R158. -/
def execAcasS (a b c : BitVec 7) (e : Option Word) (s : State) := runSlot 0x3A 9 (scalarAtomic 9 a b c e) s
/-- AADD_V, R159. -/
def execAaddV (a b c : BitVec 7) (e : Option Word) (s : State) := runSlot 0x3B 0 (vectorAtomic 0 a b c e) s
/-- AAND_V, R159. -/
def execAandV (a b c : BitVec 7) (e : Option Word) (s : State) := runSlot 0x3B 1 (vectorAtomic 1 a b c e) s
/-- AOR_V, R159. -/
def execAorV (a b c : BitVec 7) (e : Option Word) (s : State) := runSlot 0x3B 2 (vectorAtomic 2 a b c e) s
/-- AXOR_V, R159. -/
def execAxorV (a b c : BitVec 7) (e : Option Word) (s : State) := runSlot 0x3B 3 (vectorAtomic 3 a b c e) s
/-- AMIN_V, R159. -/
def execAminV (a b c : BitVec 7) (e : Option Word) (s : State) := runSlot 0x3B 4 (vectorAtomic 4 a b c e) s
/-- AMINS_V, R159. -/
def execAminsV (a b c : BitVec 7) (e : Option Word) (s : State) := runSlot 0x3B 5 (vectorAtomic 5 a b c e) s
/-- AMAX_V, R159. -/
def execAmaxV (a b c : BitVec 7) (e : Option Word) (s : State) := runSlot 0x3B 6 (vectorAtomic 6 a b c e) s
/-- AMAXS_V, R159. -/
def execAmaxsV (a b c : BitVec 7) (e : Option Word) (s : State) := runSlot 0x3B 7 (vectorAtomic 7 a b c e) s
/-- ASWAP_V, R159. -/
def execAswapV (a b c : BitVec 7) (e : Option Word) (s : State) := runSlot 0x3B 8 (vectorAtomic 8 a b c e) s
/-- ACAS_V, R159. -/
def execAcasV (a b c : BitVec 7) (e : Option Word) (s : State) := runSlot 0x3B 9 (vectorAtomic 9 a b c e) s

end Sys2Proof.Machine
end

