-- ==== Sys2Proof/Machine/Sync.lean ====
section
/-! DEFINITION. Counter waits and futures, majors 0x3C and 0x3D (R162 to R167), and the wake of a belay table (R165,
R352). -/
namespace Sys2Proof.Machine

open Sys2Proof

/-- A member of a rope does not hold a counter wait back: its convoy is past the slot, or stands in it with the counter
low enough (R162). -/
def counterLow (count : Hart → Nat) (n slot : Nat) (h : Hart) : Bool :=
  match h.conv with
  | none => true
  | some c => decide (slot < c.slot) || (decide (slot = c.slot) && decide (count h ≤ n))

/-- `cwait.l` and `cwait.s`: the hart's counter is low enough, and in a rope every member's; a `cwait.l 0`, `loads`, completes the
acquire of what the hart has loaded (R162, R289). -/
def counterWait (loads : Bool) (count : Hart → Nat) (i : BitVec 14) (s : State) (hk : Nat) : SlotRes :=
  let h := getHart s hk
  let others := (ropeOf s hk).filter (fun m => m != hk)
  if i.toNat > 63 then badOperand s hk
  else if count h ≤ i.toNat ∧ others.all (fun m => counterLow count i.toNat h.curConv.slot (getHart s m)) = true then
    .done (if loads && decide (i = 0) then acquire s hk else s)
  else .wait (.notReady false) s

/-- The 8-byte word of a future as a hart reads it at an address and location (R164). -/
def futureWord (s : State) (hk : Nat) (va loc : Nat) : DWord := BitVec.ofNat 64 (viewPieces s hk (BitVec.ofNat 64 va) [(loc, 8)])

/-- A hart arms an entry of its cluster's belay table for a location, once (R163). -/
def arm (s : State) (hk loc : Nat) : State :=
  modClus s (clusKey (coreOf hk)) (fun c =>
    if c.belay.contains (hk, homeLoc s loc) then c else { c with belay := c.belay ++ [(hk, homeLoc s loc)] })

/-- A hart arms a further entry for a location (R166). -/
def armNext (s : State) (hk loc : Nat) : State :=
  modClus s (clusKey (coreOf hk)) (fun c => { c with belay := c.belay ++ [(hk, homeLoc s loc)] })

/-- A future found full is acquired, at the scope of the access that reads it: at `node` or `sys` scope the device drops clean
copies of other devices' lines (R164, R289, R295; log 81). -/
def acquireAt (s : State) (hk scope : Nat) : State := if 5 ≤ scope then dropClean s (devOfHart hk) else s

/-- `fwait` finishes with a word (R164). -/
def fwaitDone (a : BitVec 7) (v : DWord) (s : State) (hk : Nat) : SlotRes :=
  .done (modHart (disarm s hk) hk (fun h => h.result a v))

/-- `fwait` (R164, R167). -/
def futureWait (a b : BitVec 7) (e : Option Word) (s : State) (hk : Nat) : SlotRes :=
  let h := getHart s hk
  match attrOf false e, readS h b with
  | some t, some base =>
    if sDest a = false then badOperand s hk
    else
      let va := BitVec.ofNat 64 (addOfs base.toNat t.ofs)
      match elemCheck s (agentOf s hk) .load va 8 8 .scalar with
      | .fault cause info f u => .trap cause info f 0 0 (disarm u hk)
      | .miss u => .wait (.notReady false) u
      | .ok ps u =>
        let acc : Acc := ⟨0, va, 8, ps⟩
        match accRefusal u hk .load acc with
        | some r => fwaitDone a 0 (keepRefused (queueAsync u hk r) hk [r] (h.scalarRegs a)) hk
        | none =>
          let l := (ps.headD (0, 0)).1
          let v := futureWord u hk va.toNat l
          let w := touchDirect u hk t.scope false t.evf [acc]
          if bit v 63 then fwaitDone a v (acquireAt w hk t.scope) hk else .wait (.future [(va.toNat, l)] 0) (arm w hk l)
  | _, _ => badOperand s hk

/-- What the examination of a vector of futures comes to (R166). -/
inductive Examined where
  /-- Examined up to a count, with the futures armed. -/
  | upTo (c : Nat) (armed : List (Nat × Nat)) (s : State)
  | fault (idx cause info : Nat) (va : DWord) (s : State)
  | miss (s : State)

/-- The loop of `vfwait` over its elements: each that is empty arms an entry of its own (R166). -/
def examine (t : Attr) (hk : Nat) (addr : Nat → Nat) (armed : List (Nat × Nat)) (s : State) : List Nat → Nat → Examined
  | [], n => .upTo n armed s
  | i :: rest, n =>
    if !(getHart s hk).selBit i then examine t hk addr armed s rest n
    else
      let va := BitVec.ofNat 64 (addr i)
      match elemCheck s (agentOf s hk) .load va 8 8 .gather with
      | .fault cause info f u => .fault i cause info f u
      | .miss u => .miss u
      | .ok ps u =>
        match accRefusal u hk .load ⟨i, va, 8, ps⟩ with
        | some r => examine t hk addr armed (queueAsync u hk r) rest n
        | none =>
          let l := (ps.headD (0, 0)).1
          let w := touchDirect u hk t.scope false t.evf [⟨i, va, 8, ps⟩]
          if bit (futureWord u hk va.toNat l) 63 then examine t hk addr armed w rest n
          else if canArm (getClus u (clusKey (coreOf hk))) hk then
            examine t hk addr (armed ++ [(va.toNat, l)]) (armNext w hk l) rest n
          else .upTo i armed w

/-- `vfwait` goes on: the armed futures that are full need no further look, and when every one has been found full their
entries are released and it completes (R166). -/
def vfwaitOn (a : BitVec 7) (c scope : Nat) (armed : List (Nat × Nat)) (s : State) (hk : Nat) : SlotRes :=
  let rest := armed.filter (fun p => !bit (futureWord s hk p.1 p.2) 63)
  if rest.isEmpty then fwaitDone a (BitVec.ofNat 64 c) (acquireAt s hk scope) hk else .wait (.future rest c) s

/-- `vfwait` (R166, R167). -/
def vectorFutureWait (a b c : BitVec 7) (e : Option Word) (s : State) (hk : Nat) : SlotRes :=
  let x := getLocal s hk
  let h := x.h
  match h.wait with
  | .future armed n => vfwaitOn a n (match attrOf false e with | some t => t.scope | none => 0) armed s hk
  | _ =>
    match attrOf false e, readS h b, readV x c h.grp with
    | some t, some base, some idx =>
      if h.sew ≠ 64 ∨ sDest a = false then badOperand s hk
      else
        match examine t hk (fun i => addOfs (addOfs base.toNat t.ofs) ((elem idx i 64 : Nat) : Int)) [] s
            (List.range h.len) h.len with
        | .fault i cause info f u => .trap cause info f i 0 (disarm u hk)
        | .miss u => .wait (.notReady false) (disarm u hk)
        | .upTo n armed u => vfwaitOn a n t.scope armed u hk
    | _, _, _ => badOperand s hk

/-- The word `ffill` writes (R165). -/
def fillWord (w : Bool) (x : DWord) : Nat := (if w then x.toNat % 2 ^ 32 else x.toNat % 2 ^ 63) + 2 ^ 63

/-- `ffill` (R165). -/
def futureFill (a b c : BitVec 7) (e : Option Word) (s : State) (hk : Nat) : SlotRes :=
  let h := getHart s hk
  let returns := decide (a ≠ noSpec)
  let counter := if returns then 1 else 2
  match attrOf true e, readS h b, readS h c with
  | some t, some base, some x =>
    if sDest a = false then badOperand s hk
    else if counterFull h counter then .wait (.notReady false) s
    else
      let va := BitVec.ofNat 64 (addOfs base.toNat t.ofs)
      match elemCheck s (agentOf s hk) .fill va 8 8 .scalar with
      | .fault cause info f u => .trap cause info f 0 0 u
      | .miss u => .wait (.notReady false) u
      | .ok ps u =>
        let acc : Acc := ⟨0, va, 8, ps⟩
        let op : Op := { opOf u hk counter t.scope [acc] ((accRefusal u hk .fill acc).toList) with
          fabric := if (accRefusal u hk .fill acc).isSome then [] else
            (ps.filter (fun p => isRemote p.1)).map (fun (p : Nat × Nat) =>
              { addr := p.1, n := 8, wr := true, data := fillWord t.w x, va := va, atom := some (8, 0), fill := true }) }
        let ret (v : Nat) : List Ret := if returns then [.scalar a.toNat (BitVec.ofNat 64 v) true] else []
        if (accRefusal u hk .fill acc).isSome ∨ ps.any (fun p => isRemote p.1) = true then
          .done (issueOp u { op with ret := ret (if (accRefusal u hk .fill acc).isSome then 0 else directView u hk acc) })
        else if noRoom u hk true acc.key 8 then .trap cPAGEFAULT (pageInfo 3 .fill) va 0 0 u
        else
          let old := directView u hk acc
          let v := directWrite u hk acc (fillWord t.w x)
          let w := sendWakes v (clusKey (coreOf hk)) t.scope (homeLoc v (ps.headD (0, 0)).1)
          .done (issueOp (touchDirect w hk t.scope true t.evf [acc]) { op with ret := ret old })
  | _, _, _ => badOperand s hk

/-- A hart parked on a belay entry for a location reads its word again (R164 to R166). -/
def wakeFuture (loc : Nat) (s : State) (hk : Nat) : State :=
  modHart s hk (fun h => match h.wait with
    | .future ls _ => if ls.any (fun p => homeLoc s p.2 == loc) && decide (h.st = .parked) then h.wake else h
    | _ => h)

/-- A wake for a location reaches a cluster's belay table (R165, R352). -/
def wakeBelay (s : State) (cl loc : Nat) : State :=
  (((getClus s cl).belay.filter (fun e => e.2 == loc)).map Prod.fst).foldl (wakeFuture loc) s

/-- CWAIT_L, R162. -/
def execCwaitL (i : BitVec 14) (s : State) := runSlot 0x3C 0 (counterWait true (fun h => h.lcnt) i) s
/-- CWAIT_S, R162. -/
def execCwaitS (i : BitVec 14) (s : State) := runSlot 0x3C 1 (counterWait false (fun h => h.scnt) i) s
/-- FWAIT, R164. -/
def execFwait (a b : BitVec 7) (e : Option Word) (s : State) := runSlot 0x3D 0 (futureWait a b e) s
/-- VFWAIT, R166. -/
def execVfwait (a b c : BitVec 7) (e : Option Word) (s : State) := runSlot 0x3D 1 (vectorFutureWait a b c e) s
/-- FFILL, R165. -/
def execFfill (a b c : BitVec 7) (e : Option Word) (s : State) := runSlot 0x3D 2 (futureFill a b c e) s
/-- BELAY_WAKE, R165. -/
def execBelayWake (cl loc : Nat) (s : State) : Host.Outcome State Fault Refusal := .next (wakeBelay s cl loc)

end Sys2Proof.Machine
end

