-- ==== Sys2Proof/Machine/Matrix.lean ====
section
/-! DEFINITION. The format prefix, the matrix instructions, the infuser and the tile instructions, majors 0x44 to 0x48
(R174 to R198), tile ownership (R24, R25) and the matrix slot table (R197, R198). -/
namespace Sys2Proof.Machine

open Sys2Proof

/-! ## Tiles and owners (R24, R38, R194) -/

/-- The cells of tile n. -/
def Core.tile (c : Core) (n : Nat) : SMap (BitVec 40) := if n = 0 then c.at0 else c.at1
/-- The core with the cells of tile n replaced. -/
def Core.setTile (c : Core) (n : Nat) (t : SMap (BitVec 40)) : Core :=
  if n = 0 then { c with at0 := t } else { c with at1 := t }
/-- ACCOWNn. -/
def Core.accown (c : Core) (n : Nat) : DWord := if n = 0 then c.accown0 else c.accown1
/-- The core with ACCOWNn replaced. -/
def Core.setAccown (c : Core) (n : Nat) (v : DWord) : Core :=
  if n = 0 then { c with accown0 := v } else { c with accown1 := v }
/-- ATSATn. -/
def Core.atsat (c : Core) (n : Nat) : DWord := if n = 0 then c.atsat0 else c.atsat1
/-- The core with ATSATn replaced. -/
def Core.putAtsat (c : Core) (n : Nat) (v : DWord) : Core :=
  if n = 0 then { c with atsat0 := v } else { c with atsat1 := v }
/-- ACCOWNn.MODE: 0 FA40, 1 int40 (R38). -/
def Core.cellMode (c : Core) (n : Nat) : Nat := bits (c.accown n) 30 30
/-- The core with ACCOWNn.MODE replaced. -/
def Core.setMode (c : Core) (n m : Nat) : Core := c.setAccown n (withBits (c.accown n) 30 30 m)
/-- Cell p of a tile, p = 32 * row + column. -/
def cellAt (t : SMap (BitVec 40)) (p : Nat) : Nat := (SMap.get 0 t p).toNat
/-- A tile with cell p replaced. -/
def putCell (t : SMap (BitVec 40)) (p v : Nat) : SMap (BitVec 40) := SMap.set 0 t p (BitVec.ofNat 40 v)
/-- A tile with cells replaced. -/
def putCells (t : SMap (BitVec 40)) (ps : List (Nat × Nat)) : SMap (BitVec 40) :=
  ps.foldl (fun u p => putCell u p.1 p.2) t

/-- Tile n belongs to a hart (R24). -/
def ownsTile (s : State) (hk n : Nat) : Bool :=
  let w := (getCore s (coreOf hk)).accown n
  bit w 31 && decide (bits w 23 8 = (getHart s hk).ctxid.toNat ∧ bits w 2 0 = hartNo hk)

/-- The infuser is owned by a hart (R186, R194). -/
def ownsInfuser (s : State) (hk : Nat) : Bool :=
  let c := getCore s (coreOf hk)
  c.infV && decide (c.infCtx = (getHart s hk).ctxid.toNat ∧ c.infHart = hartNo hk)

/-- ACC-CLAIM with the code of the lowest failing unit, or what follows the ownership check (R194). -/
def withClaims (s : State) (hk : Nat) (tiles : List Nat) (infuserOk : Bool) (k : SlotRes) : SlotRes :=
  if tiles.contains 0 && !ownsTile s hk 0 then .trap cACCCLAIM 0 0 0 0 s
  else if tiles.contains 1 && !ownsTile s hk 1 then .trap cACCCLAIM 1 0 0 0 s
  else if !infuserOk then .trap cACCCLAIM 2 0 0 0 s
  else k

/-- A tile is named by an instruction still in flight (R192). -/
def tileBusy (c : Core) (tiles : List Nat) : Bool := c.inflight.any (fun f => f.tiles.any tiles.contains)

/-- The number of the system register that an `sset` or `sswap` in progress writes (R264). -/
def Hart.writes (h : Hart) : Option Nat :=
  let w := h.slotWord
  let c := h.curConv
  if fieldMajor w ≠ 0x64 then none
  else if fieldFn w = 1 then some ((fieldC w).toNat * 128 + (fieldB w).toNat)
  else if fieldFn w = 2 then some ((c.words.getD (c.slot + 1) 0).toNat)
  else none

/-- A hart of the core waits in a write of the owner register of one of the tiles (R25). -/
def ownerWaits (s : State) (ck : Nat) (tiles : List Nat) : Bool :=
  s.harts.any (fun p => coreOf p.1 == ck && decide (p.2.wait ≠ .none) && p.2.conv.isSome
    && tiles.any (fun t => decide (p.2.writes = some (0x30 + t))))

/-- The wait of R192 for earlier instructions that name the tiles, and of R25 for a write of their owner. -/
def whenFree (s : State) (hk : Nat) (tiles : List Nat) (k : SlotRes) : SlotRes :=
  if tileBusy (getCore s (coreOf hk)) tiles || ownerWaits s (coreOf hk) tiles then .wait (.notReady false) s else k

/-- A matrix instruction enters the array (R25, R187). -/
def fly (hk : Nat) (tiles : List Nat) (readsW : Bool) (c : Core) : Core :=
  { c with inflight := c.inflight ++ [⟨hk, tiles, readsW⟩] }

/-! ## The slot table (R197, R198) -/

/-- The valid entries of the table in force, by number. -/
def mstValid (m : SMap DWord) : List Nat := (List.range 16).filter (fun i => bit (SMap.get 0 m i) 31)

/-- A context may issue major 0x45 in this cycle (R198). -/
def slotOpen (c : Core) (ctx : Nat) : Bool :=
  match c.mstSlot with
  | none => true
  | some (e, _, _) =>
    let x := bits (SMap.get 0 c.mstLive e) 47 32
    decide (x = ctx ∨ x = 0xFFFF)

/-! ## Formats (R177, R179) -/

/-- The format a matrix instruction reads: its prefix, or BF16, INT8 or INT4 (R176, R177, R179). -/
def matrixFmt (h : Hart) (fn : Nat) : Option Pfx := do
  let plain (f : BFmt) : Pfx := ⟨f, false, noSpec, noSpec⟩
  if h.prefixLive then do
    let p ← h.readPfx
    guard (p.f.width = h.sew ∧ (p.f.isInt = true ↔ fn = 1))
    guard (fn < 2 ∨ p.f = .bf16)
    if p.f.block = 0 then guard (p.b = noSpec ∧ p.c = noSpec)
    else
      let g := if p.f = .kx3 then 2 else 1
      guard (p.b.toNat + g ≤ 96 ∧ p.c.toNat + g ≤ 96 ∧ p.b.toNat % g = 0 ∧ p.c.toNat % g = 0)
    some p
  else if fn = 1 then
    if h.sew = 8 then some (plain .i8) else if h.sew = 4 then some (plain .i4) else none
  else if h.sew = 16 then some (plain .bf16) else none

/-- Scale groups per row and column (R179). -/
def BFmt.gb : BFmt → Nat | .mxe2 => 2 | .kx8 => 2 | .kx5 => 2 | .kx3 => 4 | _ => 1

/-- Registers of a scale group (R177). -/
def BFmt.scaleRegs : BFmt → Nat | .kx3 => 2 | _ => 1

/-- T of the promotion accumulator (R185). -/
def BFmt.accT : BFmt → Nat
  | .mxe4 => 16 | .mxe5 => 2 | .mxi8 => 31 | .mxe2 => 27 | .kx8 => 32 | .kx5 => 32 | .kx3 => 31 | _ => 0

/-- An element's value without its block's scale; a KX value keeps its quad's micro-exponent (R180, R184). -/
def blockElem (f : BFmt) (sc j pay : Nat) : FVal :=
  if f.isKx then kxValue f (sc / 256 * 256 + 127) j pay else mxValue f 127 pay

/-! ## Sums (R182 to R185) -/

/-- A cell plus exact terms, rounded once into FA40; a NaN raises NV (R62, R182). -/
def accumulate (cell : Nat) (ts : List Term) : Nat × Nat :=
  rneArith fa40 (sumTerms true (.val (decodeF fa40 cell) :: ts))

/-- One scale group of a block-format cell: its exact terms and its scale exponents (R184). -/
structure ScaleGroup where
  terms : List Term
  sa : Nat
  sb : Nat

/-- The greatest of a list of exponents. -/
def maxOf (es : List Int) : Int := es.foldl (fun m e => if e > m then e else m) (es.headD 0)

/-- The aligned and truncated contribution of a group, and whether bits were dropped (R184). -/
def alignedTerm (T : Nat) (emax : Int) (g : ScaleGroup) : Int × Bool :=
  match sumTerms false g.terms with
  | .num neg n d =>
    let r := scaleRat n d (emax - T - ((g.sa : Int) + g.sb - 254))
    (if neg then -((r.1 / r.2 : Nat) : Int) else ((r.1 / r.2 : Nat) : Int), decide (r.1 % r.2 ≠ 0))
  | _ => (0, false)

/-- A block-format cell: the special values, else the promotion accumulator (R184). -/
def accumulateBlocks (f : BFmt) (cell : Nat) (gs : List ScaleGroup) : Nat × Nat :=
  if gs.any (fun g => g.sa == 0xFF || g.sb == 0xFF) then (fa40.nan, flNV)
  else match sumTerms true (gs.flatMap (fun g => g.terms)) with
    | .nan _ => (fa40.nan, flNV)
    | .inf n => accumulate cell [.val (.inf n)]
    | .num _ _ _ =>
      let emax := maxOf (gs.map (fun g => (g.sa : Int) + g.sb - 254))
      let parts := gs.map (alignedTerm f.accT emax)
      let acc : Int := parts.foldl (fun z p => z + p.1) 0
      let r := accumulate cell [.val (.fin (decide (acc < 0)) acc.natAbs (emax - f.accT))]
      (r.1, r.2 ||| (if parts.any (fun p => p.2) then flNX else 0))

/-- The active rows of a tile below M (R178). -/
def activeRows (h : Hart) (m : Nat) : List Nat := (List.range m).filter h.selBit

/-- Every cell of the active rows is replaced; the flags raised are ORed (R182). -/
def updateRows (t : SMap (BitVec 40)) (rows : List Nat) (f : Nat → Nat → Nat × Nat) : SMap (BitVec 40) × Nat :=
  rows.foldl (fun u i => (List.range 32).foldl (fun v n =>
    let r := f i n
    (putCell v.1 (32 * i + n) r.1, v.2 ||| r.2)) u) (t, 0)

/-! ## Operands (R180, R181) -/

/-- A B tile: eight registers from a name that is a multiple of 8 (R181). -/
def readTileOperand (x : Local) (c : BitVec 7) : Option Nat := do
  guard (c.toNat % 8 = 0 ∧ c.toNat + 8 ≤ 96)
  readRun x c.toNat 8

/-- A run of registers for the infuser (R190). -/
def readInfRun (x : Local) (c : BitVec 7) (n : Nat) : Option Nat := do
  guard (c.toNat % 8 = 0 ∧ c.toNat + n ≤ 96)
  readRun x c.toNat n

/-- M = vl / K; none where vl is no multiple of K or exceeds 32 K (R181). -/
def rowsOf (h : Hart) (k : Nat) : Option Nat := if h.len % k = 0 ∧ h.len ≤ 32 * k then some (h.len / k) else none

/-- A scale group of the prefix: none in a plain format (R177, R180). -/
def readScaleGroup (x : Local) (f : BFmt) (sp a : BitVec 7) (ga : Nat) (c : BitVec 7) : Option Nat :=
  if f.block = 0 then some 0
  else do
    let g := f.scaleRegs
    guard (overlaps sp g a ga = false ∧ overlaps sp g c 8 = false)
    readV x sp g

/-- The state after a matrix instruction has updated a tile's rows and raised flags. -/
def finishRows (s : State) (hk tile : Nat) (readsW : Bool) (r : SMap (BitVec 40) × Nat) : SlotRes :=
  .done (modHart (modCore s (coreOf hk) (fun c => fly hk [tile] readsW (c.setTile tile r.1))) hk
    (fun h => raise h r.2))

/-- Steps 1 to 4 of R194 for major 0x45, after the operand checks: owners, then mode and shape, then the slot, then issue. -/
def issueMatrix (s : State) (hk tile mode : Nat) (usesW shapeOk : Bool) (k : SlotRes) : SlotRes :=
  withClaims s hk [tile] (!usesW || ownsInfuser s hk)
    (let c := getCore s (coreOf hk)
     if c.cellMode tile ≠ mode ∨ shapeOk = false then badOperand s hk
     else if slotOpen c (getHart s hk).ctxid.toNat = false then .wait (.notReady true) s
     else whenFree s hk [tile] k)

/-! ## mma and mmai (R182 to R185) -/

/-- What `mma` and `mmai` read: tile, format, K, M, the A group and the B tile, the scale groups. -/
structure MatOps where
  tile : Nat
  p : Pfx
  k : Nat
  m : Nat
  av : Nat
  bv : Nat
  sa : Nat
  sb : Nat

/-- The operands of `mma` and `mmai` (R176 to R181). -/
def matOperands (fn : Nat) (x : Local) (a b c : BitVec 7) : Option MatOps := do
  let t ← tileOf a
  let p ← matrixFmt x.h fn
  let k := 256 / x.h.sew
  let m ← rowsOf x.h k
  let av ← readV x b x.h.grp
  let bv ← readTileOperand x c
  let sa ← readScaleGroup x p.f p.b b x.h.grp c
  let sb ← readScaleGroup x p.f p.c b x.h.grp c
  some ⟨t, p, k, m, av, bv, sa, sb⟩

/-- One cell of `mma` (R180, R182, R184). -/
def mmaCell (o : MatOps) (cell i n : Nat) : Nat × Nat :=
  let f := o.p.f
  let w := f.width
  if f.block = 0 then
    accumulate cell ((List.range o.k).map (fun k =>
      mulTerm (bfmtValue f false 0 0 (elem o.av (i * o.k + k) w)) (bfmtValue f false 0 0 (elem o.bv (n * o.k + k) w))))
  else
    let kg := o.k / f.gb
    accumulateBlocks f cell ((List.range f.gb).map (fun g =>
      let xa := elem o.sa (i * f.gb + g) f.scaleWidth
      let xb := elem o.sb (n * f.gb + g) f.scaleWidth
      { terms := (List.range kg).map (fun j =>
          mulTerm (blockElem f xa j (elem o.av (i * o.k + g * kg + j) w))
            (blockElem f xb j (elem o.bv (n * o.k + g * kg + j) w))),
        sa := xa % 256, sb := xb % 256 }))

/-- `mma` (R182, R184). -/
def mma (a b c : BitVec 7) (s : State) (hk : Nat) : SlotRes :=
  match matOperands 0 (getLocal s hk) a b c with
  | none => badOperand s hk
  | some o =>
    issueMatrix s hk o.tile 0 false true
      (let t := (getCore s (coreOf hk)).tile o.tile
       finishRows s hk o.tile false
        (updateRows t (activeRows (getHart s hk) o.m) (fun i n => mmaCell o (cellAt t (32 * i + n)) i n)))

/-- An integer operand element (R60, R183). -/
def intElem (u : Bool) (w v i : Nat) : Int := if u then ((elem v i w : Nat) : Int) else toSigned w (elem v i w)

/-- One cell of `mmai`, before it is clamped (R183). -/
def mmaiSum (o : MatOps) (cell i n : Nat) : Int :=
  (List.range o.k).foldl (fun z k =>
    z + intElem o.p.u o.p.f.width o.av (i * o.k + k) * intElem o.p.u o.p.f.width o.bv (n * o.k + k))
    (toSigned 40 cell)

/-- `mmai` (R183). -/
def mmai (a b c : BitVec 7) (s : State) (hk : Nat) : SlotRes :=
  match matOperands 1 (getLocal s hk) a b c with
  | none => badOperand s hk
  | some o =>
    issueMatrix s hk o.tile 1 false true
      (let t := (getCore s (coreOf hk)).tile o.tile
       let rows := activeRows (getHart s hk) o.m
       let out (i n : Nat) : Int × Bool := clampS 40 (mmaiSum o (cellAt t (32 * i + n)) i n)
       let sat := rows.foldl (fun v i => if (List.range 32).any (fun n => (out i n).2) then v ||| 2 ^ i else v) 0
       let t2 := (updateRows t rows (fun i n => (wrapInt 40 (out i n).1, 0))).1
       .done (modCore s (coreOf hk) (fun c => fly hk [o.tile] false (setAtsat (c.setTile o.tile t2) o.tile sat))))

/-! ## mmal (R190) -/

/-- NL and ND of the infuser (R186). -/
def Core.infNL (c : Core) : Nat := 16 * 2 ^ c.infRC
/-- ND of the infuser (R186). -/
def Core.infND (c : Core) : Nat := 16 * 2 ^ c.infDC
/-- W[j][d] of the infuser (R186). -/
def Core.infAt (c : Core) (j d : Nat) : Nat := (SMap.get 0 c.infW (j * 128 + d)).toNat

/-- An exact sum of products of BF16 values, rounded to FP32 and then to BF16 (R190). -/
def roundTwice (ts : List Term) : Nat × Nat :=
  let r := rneArith f32 (sumTerms true ts)
  let q := rneArith bf16 (decodeF f32 r.1).res
  (q.1, r.2 ||| q.2)

/-- A BF16 element of a run as a value. -/
def bfAt (v i : Nat) : FVal := decodeF bf16 (elem v i 16)

/-- The 16 * 32 values x(k, n) of `mmal.x`, at 32 k + n (R190). -/
def expandX (c : Core) (lat c0 : Nat) : List (Nat × Nat) :=
  (List.range 512).map (fun p => roundTwice ((List.range c.infNL).map (fun j =>
    mulTerm (bfAt lat (p % 32 * c.infNL + j)) (decodeF bf16 (c.infAt j (c0 + p / 32))))))

/-- The values y(i, k) of `mmal.a` for one row (R190). -/
def absorbY (c : Core) (q c0 i : Nat) : List (Nat × Nat) :=
  (List.range 16).map (fun k => roundTwice ((List.range c.infND).map (fun d =>
    mulTerm (bfAt q (i * c.infND + d)) (decodeF bf16 (c.infAt (c0 + k) d)))))

/-- The flags of a list of rounded values. -/
def flagsOf (rs : List (Nat × Nat)) : Nat := rs.foldl (fun n r => n ||| r.2) 0

/-- The control word: CB; none for a non-zero reserved bit (R178). -/
def cbOf (e : Option Word) : Option Nat :=
  match e with
  | none => some 0
  | some w => if bits w 31 3 = 0 then some (bits w 2 0) else none

/-- `mmal.x` (R190). -/
def mmalX (a b c : BitVec 7) (e : Option Word) (s : State) (hk : Nat) : SlotRes :=
  let x := getLocal s hk
  let operands : Option (Nat × Nat × Nat × Nat) := do
    let t ← tileOf a
    let _ ← matrixFmt x.h 2
    let m ← rowsOf x.h 16
    let av ← readV x b x.h.grp
    guard (c.toNat % 8 = 0 ∧ c.toNat < 96)
    let cb ← cbOf e
    some (t, m, av, cb)
  match operands with
  | none => badOperand s hk
  | some (tile, m, av, cb) =>
    let k := getCore s (coreOf hk)
    let lat := readInfRun x c (k.infNL / 2)
    issueMatrix s hk tile 0 true (decide (cb < k.infND / 16) && lat.isSome)
      (let t := k.tile tile
       let rows := activeRows x.h m
       let xs := expandX k (lat.getD 0) (16 * cb)
       let r := updateRows t rows (fun i n =>
        accumulate (cellAt t (32 * i + n)) ((List.range 16).map (fun k =>
          mulTerm (bfAt av (i * 16 + k)) (decodeF bf16 (xs.getD (32 * k + n) (0, 0)).1))))
       finishRows s hk tile true (r.1, if rows.isEmpty then 0 else r.2 ||| flagsOf xs))

/-- `mmal.a` (R190). -/
def mmalA (a b c : BitVec 7) (e : Option Word) (s : State) (hk : Nat) : SlotRes :=
  let x := getLocal s hk
  let operands : Option (Nat × Nat × Nat) := do
    let t ← tileOf a
    let _ ← matrixFmt x.h 3
    let m ← rowsOf x.h 16
    guard (b.toNat % 8 = 0 ∧ b.toNat < 96 ∧ c.toNat % 8 = 0 ∧ c.toNat < 96)
    let cb ← cbOf e
    some (t, m, cb)
  match operands with
  | none => badOperand s hk
  | some (tile, m, cb) =>
    let k := getCore s (coreOf hk)
    let lat := readInfRun x c (k.infNL / 2)
    let q := readInfRun x b (k.infND / 2)
    issueMatrix s hk tile 0 true (decide (cb < k.infNL / 16) && lat.isSome && q.isSome)
      (let t := k.tile tile
       let rows := activeRows x.h m
       let r := rows.foldl (fun (u : SMap (BitVec 40) × Nat) i =>
        let ys := absorbY k (q.getD 0) (16 * cb) i
        let v := updateRows u.1 [i] (fun i n =>
          accumulate (cellAt t (32 * i + n)) ((List.range 16).map (fun j =>
            mulTerm (decodeF bf16 (ys.getD j (0, 0)).1) (bfAt (lat.getD 0) (n * k.infNL + 16 * cb + j)))))
        (v.1, u.2 ||| v.2 ||| flagsOf ys)) (t, 0)
       finishRows s hk tile true r)

/-! ## ipload and ipsave (R187 to R189) -/

/-- n pieces of 64 bytes from an address, from the piece a resumed slot starts at (R189). -/
def pieces64 (h : Hart) (base n : Nat) : List Acc :=
  ((List.range n).filter (fun i => decide (startElem h ≤ i))).map
    (fun i => { idx := i, va := BitVec.ofNat 64 (addOfs base ((64 * i : Nat) : Int)), n := 64 })

/-- A shape word: its release bit and shape codes; none for a reserved value (R187). -/
def shapeWord (v : DWord) : Option (Bool × Nat × Nat) :=
  if bits v 30 11 ≠ 0 ∨ bits v 7 3 ≠ 0 ∨ bits v 10 8 > 3 ∨ bits v 2 0 > 3 then none
  else some (bit v 31, bits v 2 0, bits v 10 8)

/-- In user mode the infuser is unowned or the hart's own (R187, R188, R194). -/
def infuserFree (s : State) (hk : Nat) : Bool :=
  decide ((getHart s hk).mode ≠ 0) || !(getCore s (coreOf hk)).infV || ownsInfuser s hk

/-- W with the 32 entries of a 64-byte piece replaced (R187). -/
def putW (nd i v : Nat) (w : SMap (BitVec 16)) : SMap (BitVec 16) :=
  (List.range 32).foldl (fun u k =>
    let e := 32 * i + k
    SMap.set 0 u (e / nd * 128 + e % nd) (BitVec.ofNat 16 (elem v k 16))) w

/-- The effect of `ipload` for the pieces that passed (R187, R189). -/
def loadW (hk rc dc : Nat) (s : State) (as : List Acc) : State :=
  if as.isEmpty then s
  else
    let vals := as.map (fun a => (a.idx, loadAcc s hk a))
    modCore s (coreOf hk) (fun c =>
      let c1 := { c with infW := vals.foldl (fun w p => putW (16 * 2 ^ dc) p.1 p.2 w) c.infW }
      if as.any (fun a => a.idx == 0) then { c1 with
        infV := true, infCtx := (getHart s hk).ctxid.toNat, infHart := hartNo hk, infRC := rc, infDC := dc }
      else c1)

/-- A load into a unit of the core: `apply` enters the pieces that passed; counts in LCNT (R189). -/
def unitLoad (hk : Nat) (apply : State → List Acc → State) (c : Checked) : SlotRes :=
  let issue (s : State) (as : List Acc) : State :=
    issueOp (touchAccs (apply s as) hk 4 false false as)
      { opOf s hk 1 4 as (refusals s hk .load as) with fabric := as.flatMap (loadRemote s hk) }
  match c with
  | .miss s => .wait (.notReady false) s
  | .all as s => .done (issue s as)
  | .fault as i cause info va s => .trap cause info va i 0 (if as.isEmpty then s else issue s as)

/-- `ipload` (R187). -/
def infuserLoad (b c : BitVec 7) (s : State) (hk : Nat) : SlotRes :=
  let h := getHart s hk
  match readS h b, (readS h c).bind shapeWord with
  | some base, some (rel, rc, dc) =>
    if rel && decide (h.mode = 0) then badOperand s hk
    else withClaims s hk [] (infuserFree s hk)
      (if rel then .done (modCore s (coreOf hk) (fun c => { c with infV := false }))
       else if (getCore s (coreOf hk)).inflight.any (fun f => f.readsW) then .wait (.notReady false) s
       else if counterFull h 1 then .wait (.notReady false) s
       else unitLoad hk (loadW hk rc dc)
        (checkAccs s hk .load 64 .scalar [] (pieces64 h base.toNat (8 * 2 ^ (rc + dc)))))
  | _, _ => badOperand s hk

/-- The value of piece i of W (R187, R188). -/
def pieceW (c : Core) (i : Nat) : Nat :=
  buildElems 16 ((List.range 32).map (fun k => c.infAt ((32 * i + k) / c.infND) ((32 * i + k) % c.infND)))

/-- The owner descriptor word of `ipsave` (R188). -/
def ownerWord (c : Core) : Nat :=
  if c.infV then 2 ^ 63 + c.infHart % 8 * 2 ^ 48 + c.infCtx % 65536 * 2 ^ 32 + c.infDC % 8 * 2 ^ 8 + c.infRC % 8 else 0

/-- The pieces `ipsave` writes: W when it is owned, then the descriptor piece (R188). -/
def savePieces (h : Hart) (c : Core) (base : Nat) : List Acc :=
  let n := if c.infV then c.infNL * c.infND / 32 else 0
  pieces64 h base n ++ (if startElem h ≤ n then
    [{ idx := n, va := BitVec.ofNat 64 (addOfs base 32768), n := 64 }] else [])

/-- A store of 64-byte pieces at `dev` scope; counts in SCNT (R189). -/
def unitStore (hk : Nat) (val : Acc → Nat) (s : State) (c : Checked) : SlotRes :=
  finishStore hk 4 false false (fun u y => storeAcc u hk 4 false y (val y)) (storeRemote s hk val) c

/-- `ipsave` (R188). -/
def infuserSave (b : BitVec 7) (s : State) (hk : Nat) : SlotRes :=
  let h := getHart s hk
  match readS h b with
  | none => badOperand s hk
  | some base =>
    withClaims s hk [] (infuserFree s hk)
      (if counterFull h 2 then .wait (.notReady false) s
       else
        let c := getCore s (coreOf hk)
        let n := if c.infV then c.infNL * c.infND / 32 else 0
        unitStore hk (fun y => if y.idx < n then pieceW c y.idx else ownerWord c) s
          (checkAccs s hk .store 64 .scalar [] (savePieces h c base.toNat)))

/-! ## Tile instructions (R191 to R193) -/

/-- A literal 0 or 1 (R191). -/
def literal (f : BitVec 7) : Option Nat := if f.toNat < 2 then some f.toNat else none

/-- A tile instruction that changes its core: owners, the wait of R192, then a change or ILLEGAL-OPERAND. -/
def tileBody (tiles : Option (List Nat)) (f : Core → Option (Core × Nat)) (s : State) (hk : Nat) : SlotRes :=
  match tiles with
  | none => badOperand s hk
  | some ts =>
    withClaims s hk ts true (whenFree s hk ts
      (match f (getCore s (coreOf hk)) with
        | none => badOperand s hk
        | some (c, fl) => .done (modHart (setCore s (coreOf hk) (fly hk ts false c)) hk (fun h => raise h fl))))

/-- `atzero` (R192). -/
def tileZero (a b : BitVec 7) : State → Nat → SlotRes :=
  tileBody (do let t ← tileOf a; let _ ← literal b; some [t])
    (fun c => (tileOf a).map (fun t => (((c.setTile t []).setMode t b.toNat).putAtsat t 0, 0)))

/-- `atmov` (R192). -/
def tileMove (a b : BitVec 7) : State → Nat → SlotRes :=
  tileBody (do let t ← tileOf a; let u ← tileOf b; some [t, u])
    (fun c => do
      let t ← tileOf a
      let u ← tileOf b
      some (((c.setTile t (c.tile u)).setMode t (c.cellMode u)).putAtsat t (c.atsat u), 0))

/-- `attr` (R192). -/
def tileTranspose (a : BitVec 7) : State → Nat → SlotRes :=
  tileBody (do let t ← tileOf a; some [t])
    (fun c => (tileOf a).map (fun t =>
      (c.setTile t ((List.range 1024).foldl (fun m p => putCell m p (cellAt (c.tile t) (p % 32 * 32 + p / 32))) []), 0)))

/-- `atadd` (R192). -/
def tileAdd (a b : BitVec 7) : State → Nat → SlotRes :=
  tileBody (do let t ← tileOf a; let u ← tileOf b; some [t, u])
    (fun c => do
      let t ← tileOf a
      let u ← tileOf b
      guard (c.cellMode t = c.cellMode u)
      let x := c.tile t
      let y := c.tile u
      if c.cellMode t = 0 then
        let r := updateRows x (List.range 32) (fun i n =>
          accumulate (cellAt x (32 * i + n)) [.val (decodeF fa40 (cellAt y (32 * i + n)))])
        some (c.setTile t r.1, r.2)
      else
        let out (p : Nat) : Int × Bool := clampS 40 (toSigned 40 (cellAt x p) + toSigned 40 (cellAt y p))
        let r := updateRows x (List.range 32) (fun i n => (wrapInt 40 (out (32 * i + n)).1, 0))
        let sat := (List.range 32).foldl (fun v i =>
          if (List.range 32).any (fun n => (out (32 * i + n)).2) then v ||| 2 ^ i else v) 0
        some (setAtsat (c.setTile t r.1) t sat, 0))

/-- The 5,120-byte image of a tile (R64). -/
def tileImage (t : SMap (BitVec 40)) : Nat := buildElems 40 ((List.range 1024).map (cellAt t))

/-- The tile of an image (R64). -/
def imageTile (v : Nat) : SMap (BitVec 40) := putCells [] ((List.range 1024).map (fun p => (p, elem v p 40)))

/-- The effect of `atload` for the pieces that passed; MODE and ATSAT change when piece 0 is among them (R189, R192). -/
def loadTile (hk t mode : Nat) (s : State) (as : List Acc) : State :=
  let vals := as.map (fun a => (a.idx, loadAcc s hk a))
  modCore s (coreOf hk) (fun c =>
    let c1 := c.setTile t (imageTile (vals.foldl (fun v p => setElem v p.1 512 p.2) (tileImage (c.tile t))))
    if as.any (fun a => a.idx == 0) then fly hk [t] false ((c1.setMode t mode).putAtsat t 0) else c1)

/-- `atload` (R189, R192). -/
def tileLoad (a b c : BitVec 7) (s : State) (hk : Nat) : SlotRes :=
  let h := getHart s hk
  match tileOf a, readS h b, literal c with
  | some t, some base, some mode =>
    withClaims s hk [t] true (whenFree s hk [t]
      (if counterFull h 1 then .wait (.notReady false) s
       else unitLoad hk (loadTile hk t mode) (checkAccs s hk .load 64 .scalar [] (pieces64 h base.toNat 80))))
  | _, _, _ => badOperand s hk

/-- `atsave` (R189, R192). -/
def tileSave (a b : BitVec 7) (s : State) (hk : Nat) : SlotRes :=
  let h := getHart s hk
  match tileOf a, readS h b with
  | some t, some base =>
    withClaims s hk [t] true (whenFree s hk [t]
      (if counterFull h 2 then .wait (.notReady false) s
       else
        let v := tileImage ((getCore s (coreOf hk)).tile t)
        unitStore hk (fun y => elem v y.idx 512) s (checkAccs s hk .store 64 .scalar [] (pieces64 h base.toNat 80))))
  | _, _ => badOperand s hk

/-- The first cell an instruction of major 0x48 addresses; none where its cells leave the tile (R193). -/
def firstCell (h : Hart) (sc : BitVec 7) : Option Nat := do
  let r ← readS h sc
  guard (32 * r.toNat + h.len ≤ 1024)
  some (32 * r.toNat)

/-- `atget`: cells into a vector group (R193). -/
def tileGet (w mode : Nat) (f : Nat → Res) (a b c : BitVec 7) (s : State) (hk : Nat) : SlotRes :=
  let x := getLocal s hk
  let operands : Option (Nat × Nat × Local) := do
    let t ← tileOf b
    guard (x.h.sew = w)
    let p ← firstCell x.h c
    let cells := (getCore s (coreOf hk)).tile t
    let y ← vApply x a w (fun i => f (cellAt cells (p + i)))
    some (t, p, y)
  match operands with
  | none => badOperand s hk
  | some (t, _, y) =>
    withClaims s hk [t] true
      (if (getCore s (coreOf hk)).cellMode t ≠ mode then badOperand s hk
       else whenFree s hk [t] (.done (modCore (setLocal s hk y) (coreOf hk) (fly hk [t] false))))

/-- The writing forms: vector elements into cells (R193). -/
def tilePut (mode : Nat) (f : Nat → Nat × Nat) (a b c : BitVec 7) (s : State) (hk : Nat) : SlotRes :=
  let x := getLocal s hk
  let operands : Option (Nat × Nat × Nat) := do
    let t ← tileOf a
    guard (x.h.sew = 32)
    let p ← firstCell x.h c
    let v ← readV x b x.h.grp
    some (t, p, v)
  match operands with
  | none => badOperand s hk
  | some (t, p, v) =>
    withClaims s hk [t] true
      (if (getCore s (coreOf hk)).cellMode t ≠ mode then badOperand s hk
       else whenFree s hk [t]
        (let rs := (activeElems x.h).map (fun i => (p + i, f (elem v i 32)))
         .done (modHart (modCore s (coreOf hk) (fun c =>
            fly hk [t] false (c.setTile t (putCells (c.tile t) (rs.map (fun r => (r.1, r.2.1))))))) hk
          (fun h => raise h (flagsOf (rs.map (fun r => r.2)))))))

/-- A cell clamped to 32 bits (R193). -/
def cellI32 (v : Nat) : Res :=
  let r := clampS 32 (toSigned 40 v)
  ⟨wrapInt 32 r.1, if r.2 then flSA else 0, r.2⟩

/-! ## The format prefix (R174) -/

/-- A live `fmt` puts its slot word in PXF and sets PXP (R174). -/
def setPrefix (w : Nat) (h : Hart) : Hart :=
  { h with hstat := withBits (withBits h.hstat 8 8 1) 63 32 w,
           pxStack := match h.pxStack with | [] => [] | _ :: r => false :: r }

/-- The slot word of a `fmt` (R174). -/
def fmtWord (t : BitVec 5) (u x : BitVec 1) (b c : BitVec 7) : Nat :=
  c.toNat * 2 ^ 25 + b.toNat * 2 ^ 18 + x.toNat * 2 ^ 17 + u.toNat * 2 ^ 16 + t.toNat * 2 ^ 11 + 0x44

/-! ## The instructions -/

/-- FMT, R174. -/
def execFmt (t : BitVec 5) (u x : BitVec 1) (b c : BitVec 7) (s : State) :=
  runSlot 0x44 0 (hartBody (fun h => some (setPrefix (fmtWord t u x b c) h))) s
/-- MMA, R182. -/
def execMma (a b c : BitVec 7) (s : State) := runSlot 0x45 0 (mma a b c) s
/-- MMAI, R183. -/
def execMmai (a b c : BitVec 7) (s : State) := runSlot 0x45 1 (mmai a b c) s
/-- MMAL_X, R190. -/
def execMmalX (a b c : BitVec 7) (e : Option Word) (s : State) := runSlot 0x45 2 (mmalX a b c e) s
/-- MMAL_A, R190. -/
def execMmalA (a b c : BitVec 7) (e : Option Word) (s : State) := runSlot 0x45 3 (mmalA a b c e) s
/-- IPLOAD, R187. -/
def execIpload (b c : BitVec 7) (s : State) := runSlot 0x46 0 (infuserLoad b c) s
/-- IPSAVE, R188. -/
def execIpsave (b : BitVec 7) (s : State) := runSlot 0x46 1 (infuserSave b) s
/-- ATZERO, R192. -/
def execAtzero (a b : BitVec 7) (s : State) := runSlot 0x47 0 (tileZero a b) s
/-- ATMOV, R192. -/
def execAtmov (a b : BitVec 7) (s : State) := runSlot 0x47 1 (tileMove a b) s
/-- ATLOAD, R192. -/
def execAtload (a b c : BitVec 7) (s : State) := runSlot 0x47 2 (tileLoad a b c) s
/-- ATSAVE, R192. -/
def execAtsave (a b : BitVec 7) (s : State) := runSlot 0x47 3 (tileSave a b) s
/-- ATTR, R192. -/
def execAttr (a : BitVec 7) (s : State) := runSlot 0x47 4 (tileTranspose a) s
/-- ATADD, R192. -/
def execAtadd (a b : BitVec 7) (s : State) := runSlot 0x47 5 (tileAdd a b) s
/-- ATGET_F32, R193. -/
def execAtgetF32 (a b c : BitVec 7) (s : State) :=
  runSlot 0x48 0 (tileGet 32 0 (fun v => convElem f32 (decodeF fa40 v)) a b c) s
/-- ATGET_BF16, R193. -/
def execAtgetBf16 (a b c : BitVec 7) (s : State) :=
  runSlot 0x48 1 (tileGet 16 0 (fun v => convElem bf16 (decodeF fa40 v)) a b c) s
/-- ATGET_I32, R193. -/
def execAtgetI32 (a b c : BitVec 7) (s : State) := runSlot 0x48 2 (tileGet 32 1 cellI32 a b c) s
/-- ATPUT_F32, R193. -/
def execAtputF32 (a b c : BitVec 7) (s : State) :=
  runSlot 0x48 3 (tilePut 0 (fun v => rneArith fa40 (decodeF f32 v).res) a b c) s
/-- ATPUT_I32, R193. -/
def execAtputI32 (a b c : BitVec 7) (s : State) :=
  runSlot 0x48 4 (tilePut 1 (fun v => (wrapInt 40 (toSigned 32 v), 0)) a b c) s

/-- MATRIX_INSTRUCTION_COMPLETE, R25: the oldest instruction in flight on a core completes. -/
def execMatrixInstructionComplete (ck : Nat) (s : State) : Host.Outcome State Fault Refusal :=
  .next (modCore s ck (fun c => { c with inflight := c.inflight.drop 1 }))

end Sys2Proof.Machine
end

