-- ==== Sys2Proof/Machine/Transform.lean ====
section
/-! DEFINITION. The transform unit: delta and zigzag coding, packing, table-driven decode, quantisation, CRC-32C and
selection, majors 0x4C to 0x51 (R199 to R216). -/
namespace Sys2Proof.Machine

open Sys2Proof

/-! ## XCFG (R202) -/

/-- k of a selection. -/
def Hart.selK (h : Hart) : Nat := bits h.xcfg 22 16 + 1
/-- XCFG.KORD. -/
def Hart.kord (h : Hart) : Nat := bits h.xcfg 15 14
/-- XCFG.KANY. -/
def Hart.kany (h : Hart) : Bool := bit h.xcfg 23
/-- Elements of a packing group. -/
def Hart.packG (h : Hart) : Nat := 2 ^ bits h.xcfg 13 11
/-- Peek width of the root table. -/
def Hart.peekW (h : Hart) : Nat := bits h.xcfg 3 0 + 1

/-! ## Delta, zigzag and packing (R203 to R205) -/

/-- A destination whose elements below a count are given and whose others are tail (R201). -/
def putBelow (x : Local) (a : BitVec 7) (n : Nat) (f : Nat → Nat) : Option Local :=
  putGroup x a (fun i => if i < n then some (f i) else tailElem x.h)

/-- `xdelta` (R203). -/
def deltaCode (a b c : BitVec 7) (x : Local) : Option Local := do
  guard (x.h.intSew = true)
  let w := x.h.sew
  let p ← source1 x a b w
  let v ← readS x.h c
  putBelow x a x.h.len (fun i =>
    (elem p i w + 2 ^ w - (if i = 0 then v.toNat % 2 ^ w else elem p (i - 1) w)) % 2 ^ w)

/-- The running sums of the first n elements from a seed, modulo 2^w (R203). -/
def runSums (w p : Nat) : Nat → Nat → List Nat → List Nat
  | _, _, [] => []
  | t, i, _ :: rest =>
    let u := (t + elem p i w) % 2 ^ w
    u :: runSums w p u (i + 1) rest

/-- `xundelta` (R203). -/
def deltaDecode (a b c : BitVec 7) (x : Local) : Option Local := do
  guard (x.h.intSew = true)
  let w := x.h.sew
  let p ← source1 x a b w
  let v ← readS x.h c
  let sums := runSums w p (v.toNat % 2 ^ w) 0 (List.range x.h.len)
  putBelow x a x.h.len (fun i => sums.getD i 0)

/-- `xzz` and `xunzz` (R203). -/
def zigzag (enc : Bool) (a b : BitVec 7) (x : Local) : Option Local := do
  guard (x.h.intSew = true)
  let w := x.h.sew
  let p ← source1 x a b w
  putBelow x a x.h.len (fun i =>
    let v := elem p i w
    let ones (c : Bool) : Nat := if c then 2 ^ w - 1 else 0
    if enc then Nat.xor (v * 2 % 2 ^ w) (ones (v.testBit (w - 1))) else Nat.xor (v / 2) (ones (v.testBit 0)))

/-- The bit string of fields laid end to end, each a value and a width, and its length. -/
def packFields : List (Nat × Nat) → Nat × Nat
  | [] => (0, 0)
  | (v, n) :: fs => let r := packFields fs; (v % 2 ^ n + r.1 * 2 ^ n, r.2 + n)

/-- Fields of given widths read from a bit string in order. -/
def unpackFields : Nat → List Nat → List Nat
  | _, [] => []
  | u, n :: ns => u % 2 ^ n :: unpackFields (u / 2 ^ n) ns

/-- The widths of the elements below vl: one width for all, or the group's (R204, R205). -/
def packWidths (x : Local) (c : BitVec 7) (grouped : Bool) : Option (List Nat) :=
  let w := x.h.sew
  if grouped then do
    let v ← readV x c x.h.grp
    let ws := (List.range x.h.len).map (fun i => elem v (i / x.h.packG) w)
    guard (ws.all (fun n => decide (n ≤ w)) = true)
    some ws
  else do
    let n ← readS x.h c
    guard (n.toNat ≤ w)
    some (List.replicate x.h.len n.toNat)

/-- The source of a packing instruction; in a grouped form the widths' group may not overlap in part either (R199). -/
def packSource (x : Local) (a b c : BitVec 7) (grouped : Bool) : Option Nat := do
  guard (x.h.intSew = true)
  if grouped then let (p, _) ← sources2 x a b c x.h.sew; some p else source1 x a b x.h.sew

/-- `xpack` and `xpackg` (R204, R205). -/
def pack (grouped : Bool) (a b c : BitVec 7) (x : Local) : Option Local := do
  let p ← packSource x a b c grouped
  let ws ← packWidths x c grouped
  let w := x.h.sew
  let u := packFields ((ws.zipIdx).map (fun q => (elem p q.2 w, q.1)))
  putBelow x a ((u.2 + w - 1) / w) (fun j => elem u.1 j w)

/-- `xunpack` and `xunpackg` (R204, R205). -/
def unpack (grouped : Bool) (a b c : BitVec 7) (x : Local) : Option Local := do
  let p ← packSource x a b c grouped
  let ws ← packWidths x c grouped
  let vs := unpackFields p ws
  putBelow x a x.h.len (fun i => vs.getD i 0)

/-! ## Table-driven decode (R206 to R209) -/

/-- The decode table with the 16 entries of a piece replaced. -/
def putTable (i v : Nat) (m : SMap Word) : SMap Word :=
  (List.range 16).foldl (fun u k => SMap.set 0 u (16 * i + k) (BitVec.ofNat 32 (elem v k 32))) m

/-- Entries from an index up are 0. -/
def clearFrom (n : Nat) (m : SMap Word) : SMap Word := m.filter (fun p => decide (p.1 < n))

/-- `xdtab` (R207). -/
def tableLoad (b c : BitVec 7) (s : State) (hk : Nat) : SlotRes :=
  let h := getHart s hk
  match readS h b, readS h c with
  | some base, some n =>
    if n.toNat > 512 then badOperand s hk
    else if n = 0 then .done (modHart s hk (fun h => { h with dtab := [] }))
    else if counterFull h 1 then .wait (.notReady false) s
    else
      let count := (4 * n.toNat + 63) / 64
      unitLoad hk (fun s as =>
          let vals := as.map (fun a => (a.idx, loadAcc s hk a))
          let last := as.any (fun a => a.idx + 1 == count)
          modHart s hk (fun h =>
            let m := vals.foldl (fun m p => putTable p.1 p.2 m) h.dtab
            { h with dtab := if last then clearFrom n.toNat m else m }))
        (checkAccs s hk .load 64 .scalar [] (pieces64 h base.toNat count))
  | _, _ => badOperand s hk

/-- A look at stream bits: the value and the state, with the refusals met; a fault; or a translation to be filled. -/
inductive Peek where
  | ok (v : Nat) (s : State)
  | fault (cause info : Nat) (va : DWord) (s : State)
  | miss (s : State)

/-- n bytes of the stream from byte j up, read one by one (R208, R209). A byte refused at its target reads as 0, and each
refused byte queues a trap of its own (R147; DEDUCED, log 35). -/
def streamBytes (hk base : Nat) : Nat → Nat → State → Peek
  | 0, _, s => .ok 0 s
  | n + 1, j, s =>
    let va := BitVec.ofNat 64 (base + j % 2 ^ 45)
    match elemCheck s (agentOf s hk) .load va 1 1 .gather with
    | .fault c i f t => .fault c i f t
    | .miss t => .miss t
    | .ok ps t =>
      let a : Acc := ⟨0, va, 1, ps⟩
      let u := match accRefusal t hk .load a with | some r => queueAsync t hk r | none => touchDirect t hk 0 false false [a]
      match streamBytes hk base n (j + 1) u with
      | .ok v w => .ok (loadAcc t hk a + 256 * v) w
      | r => r

/-- Stream bits q to q + n - 1 (R208). -/
def streamBits (hk base q n : Nat) (s : State) : Peek :=
  let p := q % 2 ^ 48
  if n = 0 then .ok 0 s
  else match streamBytes hk base ((p % 8 + n + 7) / 8) (p / 8) s with
    | .ok v t => .ok ((v >>> (p % 8)) % 2 ^ n) t
    | r => r

/-- How the decode of one symbol ends: a symbol and the position after it; a stop with status and position; a fault; a
translation to be filled. -/
inductive Symbol where
  | sym (v q : Nat) (s : State)
  | stop (st p : Nat) (s : State)
  | fault (cause info : Nat) (va : DWord) (s : State)
  | miss (s : State)

/-- The inner loop of R208 for one symbol that starts at p; the fuel bounds its links. -/
def decodeSymbol (hk sb p : Nat) : Nat → Nat → Nat → Nat → Nat → State → Symbol
  | 0, _, _, _, _, s => .stop 2 p s
  | fuel + 1, base, k, hops, q, s =>
    if base + 2 ^ k - 1 > 511 then .stop 2 p s
    else match streamBits hk sb q k s with
      | .fault c i f t => .fault c i f t
      | .miss t => .miss t
      | .ok x t =>
        let e := SMap.get 0 (getHart t hk).dtab (base + x)
        let kind := bits e 31 30
        let len := bits e 29 25
        let extra := bits e 24 21
        if kind = 0 ∨ len > k then .stop 2 p t
        else if kind = 1 then
          (if len = 0 then .stop 2 p t
           else match streamBits hk sb (q + len) extra t with
            | .fault c i f u => .fault c i f u
            | .miss u => .miss u
            | .ok y u => .sym (bits e 15 0 + y) (q + len + extra) u)
        else if kind = 2 then
          (if extra < 1 ∨ extra > 9 ∨ hops = 4 then .stop 2 p t
           else decodeSymbol hk sb p fuel (bits e 8 0) extra (hops + 1) (q + len) t)
        else .stop 1 (q + len) t

/-- How the outer loop of R208 ends: complete; at a fault; or, at the boundary before a symbol, in a wait for a translation
or for a trap that has become takeable (R146, R209). -/
inductive Decoded where
  | fin (vals : List Nat) (st p : Nat) (s : State)
  | fault (vals : List Nat) (p cause info : Nat) (va : DWord) (s : State)
  | pause (vals : List Nat) (p : Nat) (s : State)

/-- The outer loop of R208 for n further symbols. An asynchronous trap that is takeable is taken at the next symbol boundary
(R209). -/
def decodeStream (hk sb k : Nat) : Nat → Nat → List Nat → State → Decoded
  | 0, p, vals, s => .fin vals 0 p s
  | n + 1, p, vals, s =>
    if !vals.isEmpty && (getHart s hk).ie && !(getHart s hk).async.isEmpty then .pause vals p s
    else match decodeSymbol hk sb p 6 0 k 0 p s with
    | .sym v q t => decodeStream hk sb k n (q % 2 ^ 48) (vals ++ [v]) t
    | .stop st q t => .fin vals st (q % 2 ^ 48) t
    | .fault c i f t => .fault vals p c i f t
    | .miss t => .pause vals p t

/-- The destination of `xdec` with the symbols from an element up written; on completion the rest is tail (R104, R208). -/
def putSymbols (x : Local) (a : BitVec 7) (start : Nat) (vals : List Nat) (fin : Bool) : Option Local := do
  let w := x.h.sew
  let g := x.h.grp
  let old ← readV x a g
  let v := if x.h.len = 0 then old else buildElems w ((List.range (1024 * g / w)).map (fun i =>
    let o := elem old i w
    if i < start then o
    else if i - start < vals.length then vals.getD (i - start) 0
    else if fin then (tailElem x.h).getD o else o))
  writeV x a g v

/-- `xdec` (R208, R209). A pause leaves the symbols decoded so far in the destination and the boundary in the convoy, so
that the slot goes on from there, or a trap taken in the wait records it. -/
def streamDecode (a b c : BitVec 7) (s : State) (hk : Nat) : SlotRes :=
  let x := getLocal s hk
  let h := x.h
  let operands : Option (DWord × DWord) := do
    guard (8 ≤ h.sew ∧ h.sew ≤ 32 ∧ sDest c = true)
    let base ← readS h b
    let v ← readS h c
    let _ ← putSymbols x a 0 [] true
    some (base, v)
  match operands with
  | none => badOperand s hk
  | some (base, v) =>
    let start := startElem h
    let p := if h.curConv.resumed then h.curConv.bitpos else v.toNat % 2 ^ 48
    match decodeStream hk base.toNat h.peekW (h.len - start) p [] s with
    | .pause vals q t =>
      let u := match putSymbols (getLocal t hk) a start vals false with | some y => setLocal t hk y | none => t
      .wait (.notReady true) (modHart u hk (fun h => { h with conv := h.conv.map (fun c =>
        { c with elem := start + vals.length, bitpos := q, resumed := true }) }))
    | .fault vals q cause info va t =>
      let u := match putSymbols (getLocal t hk) a start vals false with | some y => setLocal t hk y | none => t
      .trap cause info va (start + vals.length) q u
    | .fin vals st q t =>
      match putSymbols (getLocal t hk) a start vals true with
      | none => badOperand s hk
      | some y =>
        let w := BitVec.ofNat 64 (st * 2 ^ 62 + (start + vals.length) % 2 ^ 14 * 2 ^ 48 + q)
        .done (setLocal t hk { y with h := y.h.result c w })

/-! ## Quantisation (R210 to R212) -/

/-- A quant word: DST and SCOPE; none for a reserved value (R210). -/
def quantWord (e : Word) : Option (Nat × Nat) :=
  if bits e 31 16 ≠ 0 ∨ bits e 11 3 ≠ 0 ∨ bits e 2 0 = 7 then none else some (bits e 15 12, bits e 2 0)

/-- rne(a / S) as a signed integer of a width (R211). -/
def quantElem (wd : Nat) (a sc : Nat) : Res :=
  let q := divRes (decodeF f32 a) (decodeF f32 sc)
  let dz := if q.2 then flDZ else 0
  let hi : Int := (2 ^ (wd - 1) : Nat) - 1
  let lo : Int := -((2 ^ (wd - 1) : Nat) : Int)
  match q.1 with
  | .nan _ => ⟨0, flNV ||| flSA, true⟩
  | .inf n => ⟨wrapInt wd (if n then lo else hi), flSA ||| dz, true⟩
  | .num n m d =>
    let k := rneDiv m d
    let z : Int := if n then -(k : Int) else k
    if z > hi then ⟨wrapInt wd hi, flSA, true⟩
    else if z < lo then ⟨wrapInt wd lo, flSA, true⟩
    else ⟨wrapInt wd z, if m % d ≠ 0 then flNX else 0, false⟩

/-- The largest |element| of the active elements that are no NaN, as its encoding (R211). -/
def largestMag (x : Local) (p : Nat) : Option Nat :=
  let mags := (x.h.actives.map (fun i => elem p i 32 % 2 ^ 31)).filter (fun m => decide (m ≤ 0x7F800000))
  if mags.isEmpty then none else some (mags.foldl Nat.max 0)

/-- The scale word of a quantising instruction: the state and S, refused or not; element 0 of R146 (R210). -/
def withScale (c : BitVec 7) (fold : Bool) (s : State) (hk : Nat) (k : DWord → Acc → State → SlotRes) : SlotRes :=
  let h := getHart s hk
  match readS h c with
  | none => badOperand s hk
  | some va =>
    if counterFull h 1 then .wait (.notReady false) s
    else match elemCheck s (agentOf s hk) .load va 8 8 .scalar with
      | .fault cause info f u => .trap cause info f 0 0 u
      | .miss u => .wait (.notReady false) u
      | .ok ps u =>
        if fold then
          (match elemCheck u (agentOf u hk) .atomic va 8 8 .scalar with
            | .fault cause info f w => .trap cause info f 0 0 w
            | .miss w => .wait (.notReady false) w
            | .ok qs w => k va ⟨0, va, 8, qs⟩ w)
        else k va ⟨0, va, 8, ps⟩ u

/-- The element of a refused read: zero, with no flag (R147, R211). -/
def zeroRes : Res := { bits := 0 }

/-- The four bytes of a scale word from offset 0, the scale, or 4, the maximum (R210). -/
def scalePart (acc : Acc) (k : Nat) : Acc :=
  { idx := 0, va := acc.va + BitVec.ofNat 64 k, n := 4, pieces := acc.pieces.map (fun q => (q.1 + k, 4)) }

/-- The registers of a destination group of width wd (R106). -/
def destRegs (h : Hart) (a : BitVec 7) (wd : Nat) : List RegName := h.groupRegs a ((destShape h wd).getD (1, 0)).1

/-- `xquant` (R211). The read of the scale is a load, and the fold an atomic of its own, refused or executed at another node
by itself. -/
def quantise (a b c : BitVec 7) (e : Word) (s : State) (hk : Nat) : SlotRes :=
  let x := getLocal s hk
  let operands : Option (Nat × Nat × Nat) := do
    let (d, scope) ← quantWord e
    guard (d ≤ 2 ∧ x.h.sew = 32)
    let wd := 4 * 2 ^ d
    let p ← source1 x a b wd
    let _ ← vApply x a wd (fun _ => zeroRes)
    some (wd, scope, p)
  match operands with
  | none => badOperand s hk
  | some (wd, scope, p) =>
    let m := largestMag x p
    withScale c m.isSome s hk (fun _ acc t =>
      let refused := refusals t hk .load [acc]
      let sc := loadAcc t hk acc % 2 ^ 32
      match vApply (getLocal t hk) a wd (fun i => if refused.isEmpty then quantElem wd (elem p i 32) sc else zeroRes) with
      | none => badOperand s hk
      | some y =>
        let u := setLocal t hk y
        let half := scalePart acc 4
        match if refused.isEmpty then m else none with
        | none => .done (issueOp (touchAccs u hk scope false false [acc]) { opOf t hk 1 scope [acc] refused with dest := destRegs x.h a wd, fabric := loadRemote t hk (scalePart acc 0) })
        | some mag =>
          match atomicStep 6 u hk half mag 0 with
          | none => .trap cPAGEFAULT (pageInfo 3 .atomic) acc.va 0 0 t
          | some (w, _) => .done (issueOp (touchDirect w hk scope true false [acc]) { opOf t hk 1 scope [acc] (refusals u hk .atomic [half]) with
              dest := destRegs x.h a wd, fabric := loadRemote t hk (scalePart acc 0) ++ atomicRemote 6 u hk half mag 0 }))

/-- The float format a DST code of `xdequant` names (R210). -/
def dequantFmt (d : Nat) : Option Fmt :=
  match d with | 1 => some f32 | 2 => some f16 | 3 => some bf16 | _ => none

/-- `xdequant` (R212). -/
def dequantise (a b c : BitVec 7) (e : Word) (s : State) (hk : Nat) : SlotRes :=
  let x := getLocal s hk
  let operands : Option (Fmt × Nat × Nat) := do
    let (d, scope) ← quantWord e
    let m ← dequantFmt d
    guard (x.h.sew ≤ 16)
    let p ← source1 x a b m.width
    let _ ← vApply x a m.width (fun _ => zeroRes)
    some (m, scope, p)
  match operands with
  | none => badOperand s hk
  | some (m, scope, p) =>
    withScale c false s hk (fun _ acc t =>
      let refused := refusals t hk .load [acc]
      let sc := decodeF f32 (loadAcc t hk acc % 2 ^ 32)
      let w := x.h.sew
      match vApply (getLocal t hk) a m.width (fun i =>
          if refused.isEmpty then
            let z := toSigned w (elem p i w)
            sumF m [mulTerm (.fin (decide (z < 0)) z.natAbs 0) sc]
          else zeroRes) with
      | none => badOperand s hk
      | some y => .done (issueOp (touchAccs (setLocal t hk y) hk scope false false [acc])
          { opOf t hk 1 scope [acc] refused with dest := destRegs x.h a m.width, fabric := loadRemote t hk (scalePart acc 0) }))

/-! ## CRC-32C (R213) -/

/-- One bit step of the reflected polynomial. -/
def crcBit (c : Nat) : Nat := if c % 2 = 1 then Nat.xor (c / 2) 0x82F63B78 else c / 2
/-- One byte of a CRC-32C. -/
def crcByte (c b : Nat) : Nat := (List.range 8).foldl (fun v _ => crcBit v) (Nat.xor c b)
/-- The raw CRC-32C of n bytes of a string. -/
def crcBytes (p : Nat) (n c : Nat) : Nat := (List.range n).foldl (fun v j => crcByte v (elem p j 8)) c

/-- `xcrc` and `xcrcf` (R213). -/
def crc (inv : Bool) (a b : BitVec 7) (x : Local) : Option Local := do
  guard (x.h.intSew = true ∧ sDest a = true)
  let v ← readS x.h a
  let p ← readV x b x.h.grp
  let n := x.h.len * x.h.sew / 8
  let flip (c : Nat) : Nat := if inv then Nat.xor c 0xFFFFFFFF else c
  some { x with h := x.h.result a (BitVec.ofNat 64 (flip (crcBytes p n (flip (v.toNat % 2 ^ 32))))) }

/-! ## Selection (R214 to R216) -/

/-- Registers of a selection list: the smallest of 1, 2, 4 and 8 that holds k entries (R214). -/
def listRegs (k : Nat) : Nat := if k ≤ 16 then 1 else if k ≤ 32 then 2 else if k ≤ 64 then 4 else 8

/-- A candidate: value and index. -/
abbrev Cand := Nat × Nat

/-- The non-empty entries among the first k of a list; those of the group beyond the k-th are none (R214; DESIGN CHOICE, log 36). -/
def listEntries (v k w : Nat) : List Cand :=
  ((List.range k).map (fun j => (elem v (2 * j) 32 % 2 ^ w, elem v (2 * j + 1) 32))).filter
    (fun c => decide (c.2 < 65536))

/-- The float format of KORD 2 and 3 at a width. -/
def kordFmt (kord w : Nat) : Fmt := if kord = 3 then bf16 else if w = 32 then f32 else f16

/-- KORD is allowed at a width (R202). -/
def kordOk (kord w : Nat) : Bool :=
  if kord = 2 then decide (w ≠ 8) else if kord = 3 then decide (w = 16) else true

/-- How two values compare under KORD (R214). -/
def kordCmp (kord w a b : Nat) : Ordering :=
  match kord with
  | 0 => compare a b
  | 1 => compare (toSigned w a) (toSigned w b)
  | _ =>
    let x := decodeF (kordFmt kord w) a
    let y := decodeF (kordFmt kord w) b
    if x.isZero && y.isZero then .eq else cmpF x y

/-- A value that selection skips: a NaN of a float order (R214). -/
def kordNan (kord w a : Nat) : Bool := decide (kord ≥ 2) && (decodeF (kordFmt kord w) a).isNan

/-- x stands before y in a list: better, or equal with the lower index (R214). -/
def better (kord w : Nat) (big : Bool) (x y : Cand) : Bool :=
  match kordCmp kord w x.1 y.1 with
  | .gt => big
  | .lt => !big
  | .eq => decide (x.2 < y.2)

/-- A candidate enters a list sorted best first; an identical pair counts once (R214 to R216). -/
def insertCand (kord w : Nat) (big : Bool) (c : Cand) : List Cand → List Cand
  | [] => [c]
  | d :: ds => if c = d then d :: ds
    else if better kord w big c d then c :: d :: ds else d :: insertCand kord w big c ds

/-- The best k of a list of candidates. -/
def selectBest (h : Hart) (big : Bool) (cs : List Cand) : List Cand :=
  ((cs.filter (fun c => !kordNan h.kord h.sew c.1)).foldl
    (fun l c => insertCand h.kord h.sew big c l) []).take h.selK

/-- A list with its first k entries written and the rest of its group kept (R214). -/
def writeList (h : Hart) (old : Nat) (cs : List Cand) : Nat :=
  if h.len = 0 then old
  else buildElems 64 ((List.range (16 * listRegs h.selK)).map (fun j =>
    if j < h.selK then (match cs[j]? with | some c => c.2 * 2 ^ 32 + c.1 | none => 0xFFFFFFFF * 2 ^ 32)
    else elem old j 64))

/-- The checks every selection makes (R202, R214). -/
def selectOk (h : Hart) : Bool :=
  decide (8 ≤ h.sew ∧ h.sew ≤ 32) && kordOk h.kord h.sew && (decide (h.selK ≤ 64) || h.kany)

/-- `xtopk` and `xbotk` (R215). -/
def topK (big : Bool) (a b c : BitVec 7) (x : Local) : Option Local := do
  let h := x.h
  let g := listRegs h.selK
  guard (selectOk h = true ∧ overlaps a g b h.grp = false ∧ h.maskFits = true)
  let v ← readS h c
  guard (bits v 62 16 = 0 ∧ bits v 15 0 + h.len ≤ 65536)
  let p ← readV x b h.grp
  let old ← readV x a g
  let held := if bit v 63 then [] else listEntries old h.selK h.sew
  let fresh := h.actives.map (fun i => (elem p i h.sew, bits v 15 0 + i))
  let y ← writeV x a g (writeList h old (selectBest h big (held ++ fresh)))
  some (pushV y g (writeList h old (selectBest h big (held ++ fresh))))

/-- `xkmerge` and `xbkmerge` (R216). -/
def mergeK (big : Bool) (a b c : BitVec 7) (x : Local) : Option Local := do
  let h := x.h
  let g := listRegs h.selK
  guard (selectOk h = true ∧ overlapOk true a g b g = true ∧ overlapOk true a g c g = true)
  let p ← readV x b g
  let q ← readV x c g
  let old ← readV x a g
  let v := writeList h old (selectBest h big (listEntries p h.selK h.sew ++ listEntries q h.selK h.sew))
  let y ← writeV x a g v
  some (pushV y g v)

/-! ## The instructions -/

/-- XDELTA, R203. -/
def execXdelta (a b c : BitVec 7) (s : State) := runSlot 0x4C 0 (localBody (deltaCode a b c)) s
/-- XUNDELTA, R203. -/
def execXundelta (a b c : BitVec 7) (s : State) := runSlot 0x4C 1 (localBody (deltaDecode a b c)) s
/-- XZZ, R203. -/
def execXzz (a b : BitVec 7) (s : State) := runSlot 0x4C 2 (localBody (zigzag true a b)) s
/-- XUNZZ, R203. -/
def execXunzz (a b : BitVec 7) (s : State) := runSlot 0x4C 3 (localBody (zigzag false a b)) s
/-- XPACK, R204. -/
def execXpack (a b c : BitVec 7) (s : State) := runSlot 0x4D 0 (localBody (pack false a b c)) s
/-- XUNPACK, R204. -/
def execXunpack (a b c : BitVec 7) (s : State) := runSlot 0x4D 1 (localBody (unpack false a b c)) s
/-- XPACKG, R205. -/
def execXpackg (a b c : BitVec 7) (s : State) := runSlot 0x4D 2 (localBody (pack true a b c)) s
/-- XUNPACKG, R205. -/
def execXunpackg (a b c : BitVec 7) (s : State) := runSlot 0x4D 3 (localBody (unpack true a b c)) s
/-- XDTAB, R207. -/
def execXdtab (b c : BitVec 7) (s : State) := runSlot 0x4E 0 (tableLoad b c) s
/-- XDEC, R208. -/
def execXdec (a b c : BitVec 7) (s : State) := runSlot 0x4E 1 (streamDecode a b c) s
/-- XQUANT, R211. -/
def execXquant (a b c : BitVec 7) (e : Word) (s : State) := runSlot 0x4F 0 (quantise a b c e) s
/-- XDEQUANT, R212. -/
def execXdequant (a b c : BitVec 7) (e : Word) (s : State) := runSlot 0x4F 1 (dequantise a b c e) s
/-- XCRC, R213. -/
def execXcrc (a b : BitVec 7) (s : State) := runSlot 0x50 0 (localBody (crc false a b)) s
/-- XCRCF, R213. -/
def execXcrcf (a b : BitVec 7) (s : State) := runSlot 0x50 1 (localBody (crc true a b)) s
/-- XTOPK, R215. -/
def execXtopk (a b c : BitVec 7) (s : State) := runSlot 0x51 0 (localBody (topK true a b c)) s
/-- XBOTK, R215. -/
def execXbotk (a b c : BitVec 7) (s : State) := runSlot 0x51 1 (localBody (topK false a b c)) s
/-- XKMERGE, R216. -/
def execXkmerge (a b c : BitVec 7) (s : State) := runSlot 0x51 2 (localBody (mergeK true a b c)) s
/-- XBKMERGE, R216. -/
def execXbkmerge (a b c : BitVec 7) (s : State) := runSlot 0x51 3 (localBody (mergeK false a b c)) s

end Sys2Proof.Machine
end

