-- ==== Sys2Proof/Machine/Fabric.lean ====
section
/-! DEFINITION. Reads that an instruction waits for itself: checked, translated and read element by element (R145 to R147,
R399). -/
namespace Sys2Proof.Machine

open Sys2Proof

/-- An asynchronous trap is queued unless the same one already waits. -/
def queueOnce (s : State) (hk : Nat) (a : Async) : State :=
  if (getHart s hk).async.contains a then s else queueAsync s hk a

/-- What reading for one element comes to: a value, a fault, or a translation still to be filled. -/
inductive Got (α : Type) where
  | ok (v : α) (s : State)
  | fault (cause info : Nat) (va : DWord) (s : State)
  | miss (s : State)

/-- n bytes with an alignment are checked and read, through the slice that serves the hart; a refused read gives 0 (R145 to R147,
R318). -/
def fetchElem (s : State) (hk : Nat) (va : DWord) (n al : Nat) (p : Path) : Got Nat :=
  match elemCheck s (agentOf s hk) .load va n al p with
  | .fault c i f t => .fault c i f t
  | .miss t => .miss t
  | .ok ps t =>
    match accRefusal t hk .load ⟨0, va, n, ps⟩ with
    | some r => .ok 0 (queueOnce t hk r)
    | none => .ok (viewPieces t hk va ps) (touchDirect t hk 0 false false [⟨0, va, n, ps⟩])

/-- A reading goes on with what it got. -/
def Got.bind {α β : Type} (r : Got α) (k : α → State → Got β) : Got β :=
  match r with
  | .ok v s => k v s
  | .fault c i va s => .fault c i va s
  | .miss s => .miss s

/-- A reading for an element becomes the slot's outcome when it fails, and goes on when it does not. -/
def Got.andThen {α : Type} (r : Got α) (idx : Nat) (k : α → State → SlotRes) : SlotRes :=
  match r with
  | .ok v s => k v s
  | .fault c i va s => .trap c i va idx 0 s
  | .miss s => .wait (.notReady false) s

/-- What reading for a list of elements in order comes to: all values; those below the first that faults, and its fault;
or a translation still to be filled (R146). -/
inductive Walked (α : Type) where
  | all (vs : List (Nat × α)) (s : State)
  | stop (vs : List (Nat × α)) (idx cause info : Nat) (va : DWord) (s : State)
  | miss (s : State)

/-- Elements are read for in order. -/
def walkElems {α : Type} (f : State → Nat → Got α) (s : State) (done : List (Nat × α)) : List Nat → Walked α
  | [] => .all done s
  | i :: is => match f s i with
    | .ok v t => walkElems f t (done ++ [(i, v)]) is
    | .fault c n va t => .stop done i c n va t
    | .miss t => .miss t

/-- A slot that reads for its elements and then writes for those that passed; `put` also learns the element that
faulted, if one did (R35, R243). -/
def Walked.finish {α : Type} (r : Walked α) (put : List (Nat × α) → Option Nat → State → State) : SlotRes :=
  match r with
  | .all vs s => .done (put vs none s)
  | .stop vs i c n va s => .trap c n va i 0 (put vs (some i) s)
  | .miss s => .wait (.notReady false) s

/-- A value as 64-bit words, the first in the least significant bits. -/
def toWords (v : Nat) : Nat → List DWord
  | 0 => []
  | n + 1 => BitVec.ofNat 64 v :: toWords (v / 2 ^ 64) n

end Sys2Proof.Machine
end

