-- ==== Sys2Proof/Machine/TaskOps.lean ====
section
/-! DEFINITION. Task instructions, majors 0x54 to 0x57 (R217 to R234): spawning, ending, forking and joining tasks, cancel
tokens, blend stores and ordered sections. -/
namespace Sys2Proof.Machine

open Sys2Proof

/-! ## Producing entries (R220, R334) -/

/-- The hart's pending stores have performed, so that its record may enter a queue (R220). -/
def storesDone (h : Hart) : Bool := decide (h.scnt = 0)

/-- A hart may place an entry now: there is room, and no producer waits before it (R334). -/
def mayEnter (q : Queue) (hk : Nat) : Bool := q.admits (.hart hk)

/-- A hart takes its place among the producers that wait (R334). -/
def joinStalled (s : State) (qk : Nat) (q : Queue) (hk : Nat) : State :=
  if q.stalled.contains (.hart hk) then s
  else { s with queues := SMap.put s.queues qk { q with stalled := q.stalled ++ [.hart hk] } }

/-- A hart gives up its place among them. -/
def leaveStalled (s : State) (qk : Nat) (hk : Nat) : State := leavePlace s qk (.hart hk)

/-- The slot's result is written and pushed. -/
def giveResult (s : State) (hk : Nat) (a : BitVec 7) (v : DWord) : SlotRes :=
  .done (modHart s hk (fun h => h.result a v))

/-- The record of a spawn enters a task's buffer (R220). -/
def holdSpawn (s : State) (hk q : Nat) (ws : List DWord) (depth : Nat) : State :=
  modTask s hk (fun t => { t with buf := t.buf ++ [.spawn q ws depth] })

/-- A record is queued for a hart of a task: its entry inherits the launch (R219, R336). -/
def enqueueFor (s : State) (hk qk : Nat) (ws : List DWord) (depth : Nat) : State :=
  match (getHart s hk).task with
  | none => s
  | some t =>
    let e := newEntry s ws depth t.launch (bits (recW ws 3) 31 0) (getHart s hk).ctxid.toNat
    enqueue e.2 qk { e.1 with pinst := t.pinst }

/-- `tspawn` once its record has been read (R220). -/
def spawnRecord (a : BitVec 7) (q : Nat) (ws : List DWord) (s : State) (hk : Nat) : SlotRes :=
  let h := getHart s hk
  let dev := devOfHart hk
  if recordOk ws = false then giveResult s hk a 2
  else match queueFor s dev h.ctxid.toNat q with
    | none => giveResult s hk a 3
    | some x =>
      if h.idem then giveResult (holdSpawn s hk q ws 0) hk a 0
      else if mayEnter x hk then
        giveResult (enqueueFor (leaveStalled s (dev * 4096 + q) hk) hk (dev * 4096 + q) ws 0) hk a 0
      else if x.returnsStatus then giveResult s hk a 1
      else .wait (.queue (dev * 4096 + q)) (joinStalled s (dev * 4096 + q) x hk)

/-- `tspawn` (R220). -/
def spawnTask (a b c : BitVec 7) (s : State) (hk : Nat) : SlotRes :=
  let h := getHart s hk
  match readS h b, readS h c with
  | some base, some q =>
    if sDest a = false ∨ bits q 63 12 ≠ 0 then badOperand s hk
    else if h.idem = false ∧ storesDone h = false then .wait (.notReady true) s
    else (fetchElem s hk base 128 8 .scalar).andThen 0
      (fun v t => spawnRecord a (bits q 11 0) (toWords v 16) t hk)
  | _, _ => badOperand s hk

/-! ## Bytes that leave a buffer (R232, R233, R299) -/

/-- The location a buffered byte goes to: a scratchpad by its mesh-absolute address, else the page that the context's
table now gives, whatever its rights, which were checked when the store was buffered, but for a caddy address, which no
commit reaches (R299, R310, R322; log 11). -/
def commitLoc (s : State) (dev ctx va : Nat) : Option Nat :=
  if va / 2 ^ 56 = 0xE1 then some (scratchBase + va % 2 ^ 33)
  else match walk s dev ctx va with
    | .leaf e z =>
      let pa := fabLoc s dev (physOf e z va)
      if inCaddy s pa then none else some pa
    | _ => none

/-- Addresses, locations and bytes of a buffered store; a byte with no location is left out. -/
def resolveBytes (s : State) (dev ctx : Nat) (bs : List (Nat × Byte)) : List (Nat × Nat × Byte) :=
  bs.filterMap (fun p => (commitLoc s dev ctx p.1).map (fun l => (p.1, l, p.2)))

/-- The writes cover the whole 64-byte sector of a location. -/
def coversSector (ws : List (Nat × Nat × Byte)) (l : Nat) : Bool :=
  (List.range 64).all (fun j => ws.any (fun w => w.2.1 == l / 64 * 64 + j))

/-- The writes that reach memory: those outside the task's own revision (R226). -/
def outsideRev (s : State) (uid : Nat) (ws : List (Nat × Nat × Byte)) : List (Nat × Nat × Byte) :=
  match SMap.find s.revs uid with
  | none => ws
  | some r => ws.filter (fun w => !inRegions r.regions w.1)

/-- The writes would write part of a poisoned sector (R407). -/
def partialPoison (s : State) (uid : Nat) (ws : List (Nat × Nat × Byte)) : Bool :=
  let out := outsideRev s uid ws
  out.any (fun w => isPoisoned s w.2.1 && !coversSector out w.2.1)

/-- The sectors that the writes of a commit, a section or a join cover together lose their poison (R407). -/
def healSectors (s : State) (uid : Nat) (ws : List (Nat × Nat × Byte)) : State :=
  let out := outsideRev s uid ws
  (out.filter (fun w => decide (w.2.1 % 64 = 0) && coversSector out w.2.1)).foldl (fun u w => unpoisonAt u w.2.1) s

/-- Operations that a task's commit or closing section has sent have not performed yet (R221, R233). -/
def sending (s : State) (uid : Nat) : Bool := s.ops.any (fun p => p.2.task == uid)

/-- The owner of a remote scratchpad refuses an element of a buffered store as it arrives (R304, R306, R357, R373). -/
def scratchRefused (s : State) (hk ctx l n : Nat) : Bool :=
  let dst := scratchCore l
  isScratch l && decide (dst ≠ coreOf hk)
    && (!firewallPasses s (coreOf hk) dst || inMesh (getCore s dst) (scratchOfs l) n
      || !spwAccepts (getCore s dst) ctx (scratchOfs l) n .store)

/-- A refused element of a hart's buffered store writes nothing; the hart takes REMOTE-NACK while it still runs the task
(R147, R306; log 78). -/
def refuseOut (s : State) (hk : Nat) (t : Task) (va : Nat) : State :=
  if taskHart s t.uid = some hk then queueAsync s hk ⟨cREMOTENACK, nackInfo .store 0, BitVec.ofNat 64 va⟩ else s

/-- Writes split into runs whose locations follow one another: the pieces of a store (R145). -/
def runsOf : List (Nat × Nat × Byte) → List (List (Nat × Nat × Byte))
  | [] => []
  | w :: ws => match runsOf ws with
    | (x :: xs) :: rs => if x.2.1 = w.2.1 + 1 then (w :: x :: xs) :: rs else [w] :: (x :: xs) :: rs
    | rs => [w] :: rs

/-- One piece of a store outside the task's revision leaves the buffer: to a register or another node as an operation of its own
(R299, R389, R399), else to memory, through the slices that serve its scope (R288, R318). -/
def pieceOut (hk dev ctx : Nat) (t : Task) (scope : Nat) (evf : Bool) (s : State) (run : List (Nat × Nat × Byte)) : State :=
  match run with
  | [] => s
  | (va, l, _) :: _ =>
    let v := valueOf (run.map (fun w => w.2.2))
    let o : Op := { hart := 0, counter := 0, scope := scope, task := t.uid }
    if isReg l then
      issueFree s dev ctx { o with reg := some { loc := l, va := BitVec.ofNat 64 va, val := BitVec.ofNat 64 v, ctx := ctx,
                                                 mode := 0, launch := t.launch } }
    else if isRemote l then
      issueFree s dev ctx { o with fabric := [{ addr := l, n := run.length, wr := true, data := v, va := BitVec.ofNat 64 va }] }
    else
      writeTaskBytes (touchRun s hk scope (some (dev * 65536 + ctx)) evf
        (((run.map (fun w => w.2.1 / 64)).eraseDups).map (fun q => (q, BitVec.ofNat 64 va)))) (some t) run

/-- A buffered store of a hart leaves the buffer, at `dev` scope at least: to the task's revision, and past it piece by piece. One
whose page is gone, or whose address is a caddy's, is lost and counted as R431 counts it (R226, R299, R306, R322, R431). -/
def storeOut (s : State) (hk dev ctx : Nat) (t : Task) (scope : Nat) (evf : Bool) (bs : List (Nat × Byte)) : State :=
  let ws := resolveBytes s dev ctx bs
  let va := (bs.headD (0, 0)).1
  let out := outsideRev s t.uid ws
  if bs.isEmpty then s
  else if ws.length ≠ bs.length then queueFault s t.queue (BitVec.ofNat 64 va)
  else if scratchRefused s hk ctx (ws.headD (0, 0, 0)).2.1 bs.length then refuseOut s hk t va
  else (runsOf out).foldl (pieceOut hk dev ctx t (max 4 scope) evf)
    (writeTaskBytes s (some t) (ws.filter (fun w => !out.contains w)))

/-- The byte a nibble store leaves: one half replaced (R154). -/
def nibbleByte (old : Byte) (hi : Bool) (v : Nat) : Byte :=
  BitVec.ofNat 8 (if hi then old.toNat % 16 + v % 16 * 16 else old.toNat / 16 * 16 + v % 16)

/-- The byte an address holds past the task's buffer: its revision or memory. -/
def committedByte (s : State) (dev ctx : Nat) (t : Task) (va : Nat) : Byte :=
  match commitLoc s dev ctx va with
  | some l => revByte s (revFuel s) t.uid va l
  | none => 0

/-- The entry is an ordinary store of the section on a key (R233). -/
def Buffered.inSection (key : Nat) : Buffered → Bool
  | .store _ _ sec _ => sec == some key
  | .nibble _ _ _ _ sec _ => sec == some key
  | _ => false

/-- The entry without the bytes that a published section store has since written (R233). -/
def Buffered.without (cov : List Nat) : Buffered → List Buffered
  | .store sc bs sec evf =>
    let left := bs.filter (fun p => !cov.contains p.1)
    if left.isEmpty then [] else [.store sc left sec evf]
  | .nibble sc a hi v sec evf => if cov.contains a then [] else [.nibble sc a hi v sec evf]
  | .blend a src op sec skip => [.blend a src op sec (skip ++ cov.filter (fun x => decide (a ≤ x ∧ x < a + 4)))]
  | e => [e]

/-- What stays in a buffer once a section is published, with the bytes published after each place (R233). -/
def unpublished (key : Nat) : List Buffered → List Buffered × List Nat
  | [] => ([], [])
  | e :: es =>
    let r := unpublished key es
    if e.inSection key then (r.1, e.addrs ++ r.2) else (e.without r.2 ++ r.1, r.2)

/-- The published bytes of a section in program order, each store with its scope and evict-first hint; a nibble store publishes its byte as
the task then sees it (R233; log 11). -/
def publishedStores (s : State) (dev ctx key : Nat) (t : Task) :
    List Buffered → List Buffered → List (Nat × Bool × List (Nat × Byte))
  | _, [] => []
  | before, e :: es =>
    let rest := publishedStores s dev ctx key t (before ++ [e]) es
    match e with
    | .store sc bs sec evf => if sec = some key then (sc, evf, bs) :: rest else rest
    | .nibble sc a hi v sec evf =>
      if sec = some key then
        (sc, evf, [(a, nibbleByte (bufByte a (committedByte s dev ctx t a) before) hi v)]) :: rest else rest
    | _ => rest

/-- The stores of a task's open section leave the buffer: they perform, or are sent to registers and other nodes; a store
into part of a poisoned sector is not performed and the context is fenced (R233, R407). -/
def publishSection (s : State) (hk : Nat) : State :=
  match (getHart s hk).task with
  | none => s
  | some t =>
    match t.sect with
    | none => s
    | some key =>
      let dev := devOfHart hk
      let ctx := (getHart s hk).ctxid.toNat
      let outs := publishedStores s dev ctx key t [] t.buf
      let ws := outs.flatMap (fun o => resolveBytes s dev ctx o.2.2)
      if partialPoison s t.uid ws then fenceContext (stopConvoy s hk) dev ctx 9 hk 0
      else
        modTask (outs.foldl (fun u o => storeOut u hk dev ctx t o.1 o.2.1 o.2.2) (healSectors s t.uid ws)) hk (fun t => { t with
          buf := (unpublished key t.buf).1 })

/-- A task's open section, all its stores performed, is closed: HSTAT.ORD is cleared and later tickets on its key go on
(R233). -/
def shutSection (s : State) (hk : Nat) : State :=
  match (getHart s hk).task with
  | none => s
  | some t =>
    match t.sect with
    | none => s
    | some key =>
      let s2 := modTask s hk (fun t => { t with sect := none, closed := t.closed ++ [key] })
      let s3 := modHart s2 hk (fun h => { h with hstat := withBits h.hstat 10 10 0 })
      let dom := t.dev * 65536 + recTdom t.words
      let s4 := match SMap.find s3.domains dom with
        | some d =>
          let d1 : Domain := { d with closedSec := d.closedSec ++ [((recW t.words 2).toNat, key)] }
          { s3 with domains := SMap.put s3.domains dom d1 }
        | none => s3
      (ordbWaiters s4 dom).foldl (fun u k => post u (.ordbRelease k)) s4

/-- The open section of a hart's task is closed, and what follows: the task may be gone with a fence, and stores to
registers and other nodes hold it up until they have performed (R233). -/
def closeSection (k : State → SlotRes) (s : State) (hk : Nat) : SlotRes :=
  let s1 := publishSection s hk
  match (getHart s1 hk).task with
  | none => .gone s1
  | some t => if sending s1 t.uid then .wait (.notReady false) s1 else k (shutSection s1 hk)

/-! ## Joins (R227, R228) -/

/-- Bytes of an element of a region type (R224). -/
def typeBytes (ty : Nat) : Nat :=
  if ty = 0 then 1 else if ty = 1 ∨ ty = 4 then 2 else if ty = 2 ∨ ty = 5 then 4 else 8

/-- The float format of a region type; none for an integer type (R224). -/
def typeFmt (ty : Nat) : Option Fmt :=
  if ty = 4 then some f16 else if ty = 5 then some f32 else if ty = 6 then some f64 else none

/-- The merged element: parent value p, child value c, ancestor value a (R227). -/
def mergeElem (ty code p c a : Nat) : Nat × Nat :=
  let w := 8 * typeBytes ty
  let m := 2 ^ w
  match code with
  | 0 => (p, 0)
  | 1 => (if c ≠ a then c else p, 0)
  | 2 => (if c ≠ a ∧ p = a then c else p, 0)
  | 3 =>
    if c = a then (p, 0)
    else match typeFmt ty with
      | none => ((p + (c + (m - a % m))) % m, 0)
      | some f =>
        let d := subF f c a
        let r := addF f p d.bits
        (r.bits, d.fl ||| r.fl)
  | 4 => match typeFmt ty with
      | none => (if toSigned w p < toSigned w c then c else p, 0)
      | some f => let r := minMaxF false f p c; (r.bits, r.fl)
  | 5 => match typeFmt ty with
      | none => (if toSigned w c < toSigned w p then c else p, 0)
      | some f => let r := minMaxF true f p c; (r.bits, r.fl)
  | 6 => (Nat.land (Nat.lor p (Nat.land c (m - 1 - a % m))) (m - 1 - Nat.land (a % m) (m - 1 - c % m)), 0)
  | _ => (Nat.xor (Nat.xor p c) a, 0)

/-- The elements of a region in a sector, by their addresses. -/
def sectorElems (r : Region) (sector : Nat) : List Nat :=
  let n := typeBytes r.type
  ((List.range (64 / n)).map (fun i => sector * 64 + i * n)).filter (fun va => r.covers va)

/-- An n-byte element of a sector value. -/
def sectorElem (v va n : Nat) : Nat := (v >>> (8 * (va % 64))) % 2 ^ (8 * n)

/-- The elements a join writes: address, bytes and value, with the flags they raise; elements that keep p are left alone
(R227). -/
def mergedElems (s : State) (dev ctx : Nat) (parent : Task) (r : Rev) : List (Nat × Nat × Nat) × Nat :=
  let one (g : Region) (sector copy va : Nat) : Option (Nat × Nat × Nat) × Nat :=
    let n := typeBytes g.type
    let p := valueOf ((List.range n).map (fun j => match commitLoc s dev ctx (va + j) with
      | some l => taskByte s parent (va + j) l
      | none => 0))
    let a := sectorElem ((SMap.find r.cairns sector).getD copy) va n
    let m := mergeElem g.type g.merge p (sectorElem copy va n) a
    (if m.1 = p then none else some (va, n, m.1), m.2)
  let all := r.copies.flatMap (fun (c : Nat × Nat) =>
    r.regions.flatMap (fun g => (sectorElems g c.1).map (one g c.1 c.2)))
  (all.filterMap Prod.fst, all.foldl (fun f x => f ||| x.2) 0)

/-- What a join comes to: merged; merged, with elements still on their way to registers and other nodes; an element that the joining hart may not write, with the INFO of its PAGE-FAULT and its
address; or part of a poisoned sector to be written (R227, R310, R407). -/
inductive Joined where
  | ok (s : State)
  | sent (s : State)
  | fault (info : Nat) (va : DWord)
  | poison

/-- The INFO of the PAGE-FAULT that a write of an address by a context in a mode meets, if any (R310, R322). -/
def writeFault (s : State) (dev ctx mode va : Nat) : Option Nat :=
  match walk s dev ctx va with
  | .leaf e z =>
    if permits e .store mode = false ∨ (mode ≠ 3 ∧ inCaddy s (fabLoc s dev (physOf e z va)) = true) then
      some (pageInfo 1 .store)
    else none
  | .notMapped => some (pageInfo 0 .store)
  | .badLeaf => some (pageInfo 2 .store)

/-- The first merged element that the joining hart may not write (R310). -/
def mergeFault (s : State) (hk : Nat) (out : List (List (Nat × Byte))) : Option (Nat × DWord) :=
  let h := getHart s hk
  (out.flatMap id).findSome? (fun b =>
    (writeFault s (devOfHart hk) h.ctxid.toNat h.mode b.1).map (fun i => (i, BitVec.ofNat 64 b.1)))

/-- The merge of a child's revision into the parent's view; every element is checked before any is written (R227, R310,
R407). -/
def mergeChild (s : State) (hk uid : Nat) : Joined :=
  match (getHart s hk).task, SMap.find s.revs uid with
  | some t, some r =>
    let dev := devOfHart hk
    let ctx := (getHart s hk).ctxid.toNat
    let m := mergedElems s dev ctx t r
    let out := m.1.map (fun e => (List.range e.2.1).map (fun j => (e.1 + j, byteOf e.2.2 j)))
    let s1 := modHart s hk (fun h => raise h m.2)
    match mergeFault s hk out with
    | some f => .fault f.1 f.2
    | none =>
    let t1 := { t with children := t.children.filter (fun c => c.uid != uid) }
    if t.idem then
      let s2 := (out.flatMap id).foldl (fun u b => captureCairns u t1 b.1 ((commitLoc u dev ctx b.1).getD 0)) s1
      .ok (out.foldl (fun u b => bufferEntry u hk (.store 4 b t.sect)) s2)
    else
      let ws := resolveBytes s dev ctx (out.flatMap id)
      if partialPoison s t.uid ws then .poison
      else .ok (out.foldl (fun u b => storeOut u hk dev ctx t1 4 false b) (healSectors s1 t.uid ws))
  | _, _ => .ok s

/-- A joined child is gone: its copies, cairns and handle are freed (R228). -/
def freeChild (s : State) (hk uid : Nat) : State :=
  modTask { s with revs := SMap.del s.revs uid } hk
    (fun k => { k with children := k.children.filter (fun d => d.uid != uid) })

/-- An ended child is joined: its revision is merged if it ended by `tend`, and its handle is freed once every merged element
has performed; until then its copies are gone, so that nothing is merged twice (R228). -/
def joinOne (s : State) (hk : Nat) (c : Child) (w : DWord) : Joined :=
  match if bits w 62 61 = 0 then mergeChild s hk c.uid else .ok s with
  | .ok t =>
    if (match (getHart t hk).task with | some k => sending t k.uid | none => false) then
      .sent { t with revs := SMap.del t.revs c.uid }
    else .ok (freeChild t hk c.uid)
  | r => r

/-- What follows a join: one whose elements are on their way waits, with the n children before it joined; a fault traps at the
slot likewise; a poisoned sector fences the context with REASON 9 (R146, R228, R310, R407). -/
def afterJoin (k : State → SlotRes) (n : Nat) (s : State) (hk : Nat) : Joined → SlotRes
  | .ok t => k t
  | .sent t => .wait (.notReady false) (modHart t hk (fun h => { h with conv := h.conv.map (fun c => { c with elem := n }) }))
  | .fault info va => .trap cPAGEFAULT info va n 0 s
  | .poison => .gone (fenceContext (stopConvoy s hk) (devOfHart hk) (getHart s hk).ctxid.toNat 9 hk 0)

/-- Every child of a list is joined in order, after n others, and what follows is told the number joined. -/
def joinList (hk : Nat) (k : Nat → State → SlotRes) : Nat → State → List Child → SlotRes
  | n, s, [] => k n s
  | n, s, c :: cs => afterJoin (fun t => joinList hk k (n + 1) t cs) n s hk (joinOne s hk c (c.result.getD 0))

/-- The children of a hart's task, in fork order. -/
def childrenOf (h : Hart) : List Child := match h.task with | some t => t.children | none => []

/-- `join` (R228). -/
def joinTask (a b : BitVec 7) (s : State) (hk : Nat) : SlotRes :=
  let h := getHart s hk
  match readS h b with
  | none => badOperand s hk
  | some n =>
    match (childrenOf h).find? (fun c => c.handle == n.toNat) with
    | none => badOperand s hk
    | some c =>
      if sDest a = false then badOperand s hk
      else match c.result with
        | none => .wait (.notReady true) s
        | some w => afterJoin (fun t => giveResult t hk a w) 0 s hk (joinOne s hk c w)

/-- `joinall` (R228). -/
def joinTasks (a : BitVec 7) (s : State) (hk : Nat) : SlotRes :=
  let cs := childrenOf (getHart s hk)
  if sDest a = false then badOperand s hk
  else if cs.any (fun c => c.result.isNone) then .wait (.notReady true) s
  else joinList hk (fun n t => giveResult t hk a (BitVec.ofNat 64 n)) (getHart s hk).curConv.elem s cs

/-! ## Ending a task (R221, R222) -/

/-- Step 1 of R221: the vector instruction queue is empty and both counters are 0. -/
def drained (s : State) (hk : Nat) : Bool :=
  let h := getHart s hk
  decide (h.lcnt = 0 ∧ h.scnt = 0) && (getCore s (coreOf hk)).inflight.all (fun f => f.hart != hk)

/-- The commit of a task has no lower unretired ticket before it (R231). -/
def commitReady (s : State) (t : Task) : Bool :=
  !recTkv t.words || (match SMap.find s.domains (t.dev * 65536 + recTdom t.words) with
    | some d => decide ((recW t.words 2).toNat ≤ d.low)
    | none => true)

/-- Steps 4 to 6 of R221: the commit is registered, or the task closed at once, and the hart becomes idle. -/
def finishTask (s : State) (hk : Nat) (result : DWord) : State :=
  let h := getHart s hk
  match h.task with
  | none => idleHart s hk
  | some t =>
    let w := completionWord 0 result.toNat h.sticky.toNat
    let s1 := leaveDone (idleHart s hk) hk
    if t.idem then
      let ready := commitReady s1 t
      let c : Commit := { dev := t.dev, ctx := h.ctxid.toNat, task := t, word := w, idem := true, released := ready,
                          die := dieOf (coreOf hk), hart := hk, status := 0 }
      let s2 := { s1 with commits := SMap.put s1.commits t.uid c }
      if ready then post s2 (.commitPerformed t.uid) else s2
    else closeTask s1 (dieOf (coreOf hk)) h.ctxid.toNat t w true

/-- The task is aborted or its context fenced, so that its own end commits nothing (R222, R229, R403). -/
def Hart.lost (h : Hart) : Bool := decide (h.ending = .aborted ∨ h.ending = .fenced)

/-- `tend` (R221). -/
def endTask (b : BitVec 7) (s : State) (hk : Nat) : SlotRes :=
  match readS (getHart s hk) b with
  | none => badOperand s hk
  | some v =>
    if drained s hk = false then .wait (.notReady true) s
    else if (getHart s hk).lost then .gone (endHart s hk (getHart s hk).ending)
    else closeSection (fun u =>
      let s1 := disband u hk
      let cs := childrenOf (getHart s1 hk)
      if cs.any (fun c => c.result.isNone) then .wait (.notReady false) s1
      else joinList hk (fun _ t => .gone (finishTask t hk v)) (getHart s1 hk).curConv.elem s1 cs) s hk

/-- `tabort` (R222). -/
def abortSelf (b : BitVec 7) (s : State) (hk : Nat) : SlotRes :=
  match readS (getHart s hk) b with
  | none => badOperand s hk
  | some v =>
    if drained s hk = false then .wait (.notReady true) s
    else if (getHart s hk).lost then .gone (endHart s hk (getHart s hk).ending)
    else .gone (endUncommitted s hk 1 v.toNat true)

/-- Sectors of a task and its descendants among those that the dies of a device hold (R223). -/
def sectorsAmong (s : State) (uid dev : Nat) (held : State → Nat → List Held) : Nat :=
  ((diesOfDev dev).map (fun d => ((held s d).filter (fun x => descends s (revFuel s) x.uid uid)).length)).sum

/-- Revision-store sectors of a task and its descendants, the spilled ones included (R223, R323). -/
def taskSectors (s : State) (dev uid : Nat) : Nat := sectorsAmong s uid dev heldOn

/-- Of those, the sectors in the spill area (R223, R323). -/
def taskSpilled (s : State) (dev uid : Nat) : Nat := sectorsAmong s uid dev spilledOn

/-- `tstat` (R223). -/
def taskStat (a b : BitVec 7) (s : State) (hk : Nat) : SlotRes :=
  let h := getHart s hk
  match readS h b, h.task with
  | some n, some t =>
    if sDest a = false ∨ n.toNat > 3 then badOperand s hk
    else if n.toNat = 0 then giveResult s hk a (BitVec.ofNat 64 t.children.length)
    else if n.toNat = 1 then giveResult s hk a (BitVec.ofNat 64 (taskSectors s t.dev t.uid))
    else if n.toNat = 2 then giveResult s hk a (BitVec.ofNat 64 (taskSpilled s t.dev t.uid))
    else giveResult s hk a (BitVec.ofNat 64 t.ginst)
  | _, _ => badOperand s hk

/-! ## Forking (R224, R225) -/

/-- A region descriptor of two words; none where TYPE, MERGE, LEN or BASE breaks R224 or R225. -/
def regionOf (v : Nat) : Option Region :=
  let base := v % 2 ^ 64
  let len := v / 2 ^ 64 % 2 ^ 32
  let attr := v / 2 ^ 96
  let ty := attr / 16 % 8
  let n := typeBytes ty
  if attr / 128 = 0 ∧ ty ≠ 7 ∧ attr % 16 < 8 ∧ len ≠ 0 ∧ len % n = 0 ∧ base % n = 0 ∧ base + len ≤ 2 ^ 56 then
    some ⟨base, len, ty, attr % 16⟩
  else none

/-- Two regions share a byte. -/
def Region.meets (x y : Region) : Bool := decide (x.base < y.base + y.len ∧ y.base < x.base + x.len)

/-- No two regions of a list overlap. -/
def disjoint : List Region → Bool
  | [] => true
  | r :: rs => rs.all (fun x => !r.meets x) && disjoint rs

/-- The regions fit beside those of the outstanding children: an overlap has the same BASE, LEN and TYPE (R225). -/
def regionsFit (rs : List Region) (cs : List Child) : Bool :=
  rs.all (fun r => cs.all (fun c => c.regions.all (fun x =>
    !r.meets x || decide (r.base = x.base ∧ r.len = x.len ∧ r.type = x.type))))

/-- The descriptors are read, element i + 1 each; the values go on to `k` (R225). -/
def readRegions (hk : Nat) (base : DWord) (k : List Nat → State → SlotRes) :
    Nat → Nat → List Nat → State → SlotRes
  | 0, _, vs, s => k vs s
  | n + 1, i, vs, s =>
    (fetchElem s hk (base + BitVec.ofNat 64 (16 * i)) 16 1 .scalar).andThen (i + 1)
      (fun v t => readRegions hk base k n (i + 1) (vs ++ [v]) t)

/-- The lowest handle that no outstanding child holds. -/
def freeHandle (cs : List Child) : Option Nat :=
  (List.range 16).find? (fun i => !cs.any (fun c => c.handle == i))

/-- The child is queued with its revision, and its parent records it (R225, R226). -/
def startChild (s : State) (hk qk : Nat) (ws : List DWord) (rs : List Region) (handle : Nat) : State :=
  let h := getHart s hk
  match h.task with
  | none => s
  | some t =>
    let e := newEntry s ws 0 t.launch t.ginst h.ctxid.toNat
    let s1 := enqueue e.2 qk { e.1 with parent := some (t.uid, handle), regions := rs, pinst := t.pinst }
    let s2 := setRev s1 e.1.uid { ctx := h.ctxid.toNat, parent := t.uid, die := dieOf (coreOf hk), regions := rs }
    modTask s2 hk (fun t => { t with children := t.children ++ [⟨handle, e.1.uid, rs, none⟩] })

/-- `fork` once everything has been read (R225). -/
def forkWith (a : BitVec 7) (ws : List DWord) (vs : List Nat) (s : State) (hk : Nat) : SlotRes :=
  let h := getHart s hk
  let cs := childrenOf h
  let qk := devOfHart hk * 4096 + recQueue ws
  match vs.mapM regionOf, freeHandle cs, queueFor s (devOfHart hk) h.ctxid.toNat (recQueue ws) with
  | some rs, some handle, some q =>
    if disjoint rs = false ∨ regionsFit rs cs = false then badOperand s hk
    else if storesDone h = false then .wait (.notReady true) s
    else if mayEnter q hk = false then .wait (.queue qk) (joinStalled s qk q hk)
    else giveResult (startChild (leaveStalled s qk hk) hk qk ws rs handle) hk a (BitVec.ofNat 64 handle)
  | _, _, _ => badOperand s hk

/-- `fork` (R225). -/
def forkChild (a b c : BitVec 7) (s : State) (hk : Nat) : SlotRes :=
  let h := getHart s hk
  match readS h b, readS h c with
  | some base, some desc =>
    if sDest a = false then badOperand s hk
    else (fetchElem s hk base 128 8 .scalar).andThen 0 (fun v t =>
      let ws := toWords v 16
      if recordForkOk ws = false ∨ recTkv ws = true ∨ (h.idem = true ∧ recIdem ws = false) then badOperand t hk
      else readRegions hk desc (fun vs u => forkWith a ws vs u hk) (recNreg ws) 0 [] t)
  | _, _ => badOperand s hk

/-! ## Cancel tokens (R234, R349) -/

/-- A cancel token for a graph instance of a context leaves a hart, counted in SCNT until every die holds it (R234). -/
def sendToken (s : State) (hk ginst : Nat) : State :=
  let h := getHart s hk
  let dev := devOfHart hk
  let op := s.nextId
  let s1 := issueOp s { hart := hk, counter := 2, scope := 4 }
  let r := fresh s1
  let k : Token := { id := r.1, dev := dev, ctx := h.ctxid.toNat, ginst := ginst, dies := diesOfDev dev, op := op }
  post { r.2 with tokens := SMap.put r.2.tokens r.1 k } (.cancelToken r.1)

/-- `cancel` (R234). -/
def cancelInstance (b : BitVec 7) (s : State) (hk : Nat) : SlotRes :=
  let h := getHart s hk
  match readS h b with
  | none => badOperand s hk
  | some g =>
    if bits g 63 32 ≠ 0 then badOperand s hk
    else if counterFull h 2 then .wait (.notReady false) s
    else .done (sendToken s hk g.toNat)

/-! ## Blend stores, sections, tickets (R230 to R233) -/

/-- A blend store of an element enters the buffer; a refused element records nothing (R147, R232). -/
def blendAcc (op : Nat) (src : Nat → Nat) (s : State) (hk : Nat) (a : Acc) : Option State :=
  if (accRefusal s hk .store a).isSome then some s
  else if noRoom s hk false a.key 4 then none
  else some (bufferEntry s hk (.blend a.key (src a.idx) op (((getHart s hk).task.bind Task.sect)) []))

/-- `bst` (R232). -/
def blendStore (a b c : BitVec 7) (e : Word) (s : State) (hk : Nat) : SlotRes :=
  let x := getLocal s hk
  let h := x.h
  let op := bits e 2 0
  match readS h b, readV x a h.grp, readV x c h.grp with
  | some base, some src, some idx =>
    if bits e 31 3 ≠ 0 ∨ op > 4 ∨ h.sew ≠ 32 ∨ overlaps a h.grp c h.grp = true ∨ h.maskFits = false then badOperand s hk
    else if counterFull h 2 then .wait (.notReady false) s
    else
      let accs := elemAccs h 4 (fun i => addOfs base.toNat ((elem idx i 32 : Nat) : Int))
      finishStore hk 4 false false (fun u y => blendAcc op (fun i => elem src i 32) u hk y) (fun _ => [])
        (checkAccs s hk .store 4 .gather [] accs)
  | _, _, _ => badOperand s hk

/-- Every lower ticket of the domain has been retired or has closed a section on the key (R233). -/
def sectionFree (s : State) (t : Task) (key : Nat) : Bool :=
  match SMap.find s.domains (t.dev * 65536 + recTdom t.words) with
  | none => true
  | some d =>
    let mine := (recW t.words 2).toNat
    let done := d.retired ++ (d.closedSec.filter (fun p => p.2 == key)).map Prod.fst
    decide ((done.filter (fun x => decide (d.low ≤ x ∧ x < mine))).eraseDups.length ≥ mine - d.low)

/-- The section on a key opens: HSTAT.ORD is set and its count starts (R233). -/
def openSection (s : State) (hk key : Nat) : State :=
  modHart s hk (fun h => { h with
    hstat := withBits h.hstat 10 10 1, secCount := 0, secOver := false,
    task := h.task.map (fun t => { t with sect := some key, ordOnce := true }) })

/-- `ordb` (R233). -/
def orderBegin (b : BitVec 7) (s : State) (hk : Nat) : SlotRes :=
  let h := getHart s hk
  match readS h b, h.task with
  | some v, some t =>
    let key := bits v 31 0
    if h.grant.isSome then .done s
    else if t.sect.isSome = true ∨ t.closed.contains key = true then badOperand s hk
    else if sectionFree s t key then .done (openSection s hk key)
    else .wait (.notReady true) s
  | _, _ => badOperand s hk

/-- `orde` (R233). -/
def orderEnd (s : State) (hk : Nat) : SlotRes :=
  match (getHart s hk).task with
  | some t =>
    if t.sect.isNone then badOperand s hk else closeSection .done s hk
  | none => badOperand s hk

/-- `tkget` (R230, R350). -/
def drawTicket (a b : BitVec 7) (s : State) (hk : Nat) : SlotRes :=
  let h := getHart s hk
  match readS h b with
  | none => badOperand s hk
  | some v =>
    if sDest a = false ∨ bits v 63 16 ≠ 0 then badOperand s hk
    else
      let dom := devOfHart hk * 65536 + v.toNat
      match SMap.find s.domains dom with
      | none => giveResult s hk a (BitVec.allOnes 64)
      | some d =>
        if d.v && decide (d.ctx = h.ctxid.toNat) then
          giveResult { s with domains := SMap.put s.domains dom { d with next := d.next + 1 } } hk a
            (BitVec.ofNat 64 d.next)
        else giveResult s hk a (BitVec.allOnes 64)

/-! ## The instructions -/

/-- TSPAWN, R220. -/
def execTspawn (a b c : BitVec 7) (s : State) := runSlot 0x54 0 (spawnTask a b c) s
/-- TEND, R221. -/
def execTend (b : BitVec 7) (s : State) := runSlot 0x54 1 (endTask b) s
/-- TABORT, R222. -/
def execTabort (b : BitVec 7) (s : State) := runSlot 0x54 2 (abortSelf b) s
/-- TSTAT, R223. -/
def execTstat (a b : BitVec 7) (s : State) := runSlot 0x54 3 (taskStat a b) s
/-- FORK, R225. -/
def execForkTask (a b c : BitVec 7) (s : State) := runSlot 0x55 0 (forkChild a b c) s
/-- JOIN, R228. -/
def execJoinChild (a b : BitVec 7) (s : State) := runSlot 0x55 1 (joinTask a b) s
/-- JOINALL, R228. -/
def execJoinall (a : BitVec 7) (s : State) := runSlot 0x55 2 (joinTasks a) s
/-- CANCEL, R234. -/
def execCancelInst (b : BitVec 7) (s : State) := runSlot 0x56 0 (cancelInstance b) s
/-- BST, R232. -/
def execBst (a b c : BitVec 7) (e : Word) (s : State) := runSlot 0x57 0 (blendStore a b c e) s
/-- ORDB, R233. -/
def execOrdb (b : BitVec 7) (s : State) := runSlot 0x57 1 (orderBegin b) s
/-- ORDE, R233. -/
def execOrde (s : State) := runSlot 0x57 2 orderEnd s
/-- TKGET, R230. -/
def execTkget (a b : BitVec 7) (s : State) := runSlot 0x57 3 (drawTicket a b) s

end Sys2Proof.Machine
end

