-- ==== Sys2Proof/Machine/Channels.lean ====
section
/-! DEFINITION. Ropes, channels and time, majors 0x58 to 0x5A (R217, R218, R235 to R240), and the steps that release their
waits. -/
namespace Sys2Proof.Machine

open Sys2Proof

/-- A hart waits in a slot of a major and fn (R218). -/
def Hart.waitsIn (h : Hart) (major fn : Nat) : Bool :=
  decide (h.wait ≠ .none) && h.conv.isSome && decide (fieldMajor h.slotWord = major ∧ fieldFn h.slotWord = fn)

/-! ## Ropes (R235, R236) -/

/-- The size code that a hart waiting in `rope` asks for. -/
def Hart.ropeAsked (h : Hart) : Option Nat := (readS h (fieldB h.slotWord)).map BitVec.toNat

/-- A hart has issued `rope` with a size, a hart number and a context, and waits (R235). -/
def hasArrived (s : State) (code ctx : Nat) (hk : Nat) : Bool :=
  let h := getHart s hk
  h.waitsIn 0x58 0 && h.grant.isNone && decide (h.ropeAsked = some code ∧ h.ctxid.toNat = ctx) && !h.inRope

/-- RSTAT of member k of a rope of a size at an origin (R40). -/
def ropeStat (code k : Nat) (org : Nat × Nat) : DWord :=
  BitVec.ofNat 64 (1 + code * 2 + k * 8 + org.2 * 64 + org.1 * 256)

/-- The members of the rope a hart asks for. -/
def ropeMembers (hk code : Nat) : List Nat := ropeHarts hk code (ropeOrigin (unitOf (coreOf hk)) code)

/-- A rope forms when every member has arrived: each gets its index, and the followers turn their fetch off. The rope's
RBAR is the leader's (R235; log 11). -/
def formRope (s : State) (hk : Nat) : State :=
  let h := getHart s hk
  match h.ropeAsked with
  | none => s
  | some code =>
    let ms := ropeMembers hk code
    if h.inRope = false ∧ ms.all (hasArrived s code h.ctxid.toNat) = true then
      let org := ropeOrigin (unitOf (coreOf hk)) code
      let bar := (getHart s (ms.headD hk)).rbar
      (ms.zipIdx).foldl (fun t m => modHart t m.1 (fun h => { h with
        rstat := ropeStat code m.2 org, rbar := bar, grant := some (BitVec.ofNat 64 m.2),
        st := if m.2 = 0 then h.st else .follower })) s
    else s

/-- `rope` (R235). -/
def askRope (a b : BitVec 7) (s : State) (hk : Nat) : SlotRes :=
  let h := getHart s hk
  match readS h b with
  | none => badOperand s hk
  | some v =>
    if sDest a = false ∨ v.toNat = 0 ∨ v.toNat > 3 then badOperand s hk
    else match h.grant with
      | some k => giveResult s hk a k
      | none =>
        let ms := ropeMembers hk v.toNat
        if h.inRope ∨ ms.any (fun m => isFwCol s (coreOf m)) = true then giveResult s hk a (BitVec.allOnes 64)
        else
          let rest := ms.filter (fun m => m != hk)
          .wait (.notReady true)
            (if rest.all (hasArrived s v.toNat h.ctxid.toNat) then postOnce s (.ropeForm hk) else s)

/-- `unrope`: the leader disbands the rope; in another member, and outside a rope, nothing happens (R21, R235). -/
def leaveRope (s : State) (hk : Nat) : SlotRes := .done (if ropeLeader s hk = hk then disband s hk else s)

/-- A member has issued `rbar` with its stores performed (R236). -/
def atRbar (s : State) (hk : Nat) : Bool :=
  let h := getHart s hk
  h.waitsIn 0x58 2 && h.grant.isNone && decide (h.scnt = 0)

/-- The rope barrier completes when every member has arrived: RBAR gains every member's addend (R236). -/
def releaseRbar (s : State) (hk : Nat) : State :=
  let ms := ropeOf s hk
  if ms.all (atRbar s) then
    let total := ms.foldl (fun n m =>
      let h := getHart s m
      n + ((readS h (fieldB h.slotWord)).getD 0)) (getHart s (ms.headD hk)).rbar
    ms.foldl (fun t m => modHart t m (fun h => { h with rbar := total, grant := some total })) s
  else s

/-- `rbar` (R236). -/
def ropeBarrier (a b : BitVec 7) (s : State) (hk : Nat) : SlotRes :=
  let h := getHart s hk
  match readS h b with
  | none => badOperand s hk
  | some v =>
    if sDest a = false then badOperand s hk
    else match h.grant with
      | some w => giveResult s hk a w
      | none =>
        if h.scnt ≠ 0 then .wait (.notReady true) s
        else if h.inRope then
          .wait (.notReady true)
            (if ((ropeOf s hk).filter (fun m => m != hk)).all (atRbar s) then postOnce s (.rbarRelease hk) else s)
        else giveResult (modHart s hk (fun h => { h with rbar := h.rbar + v })) hk a (h.rbar + v)

/-! ## Sending (R237, R283, R284, R324) -/

/-- The hart and queue a destination word names; none where R237 refuses it. -/
def destination (w : DWord) : Option (Nat × Nat) :=
  if bits w 63 18 ≠ 0 ∨ bits w 11 8 > 11 then none
  else some (mkCore (bits w 17 15) (bits w 14 12) (bits w 7 5 * 12 + bits w 11 8) * 8 + bits w 4 2, bits w 1 0)

/-- The firewall refuses a channel message between a compute hart and a hart of a firmware core while EN = 1 at the firmware
end (R9, R373). -/
def channelBlocked (s : State) (src dst : Nat) : Bool :=
  let a := coreOf src
  let b := coreOf dst
  (isCompute s a && isFwCore s b && firewallOn s b) || (isFwCore s a && isCompute s b && firewallOn s a)

/-- Messages a context holds in spill queues (R283, R324). -/
def spilledMessages (s : State) (dev ctx : Nat) : Nat :=
  (s.harts.map (fun p => if devOfHart p.1 = dev ∧ p.2.ctxid.toNat = ctx then
    ((p.2.spill.map (fun q => q.2.length)).sum) else 0)).sum

/-- Messages for a queue of the receiver go to its spill queue: it is pre-empted, or spilled messages of the queue still wait
(R283, R284). -/
def Hart.spills (h : Hart) (q : Nat) : Bool := decide (h.st = .preempted) || !(SMap.get [] h.spill q).isEmpty

/-- A message finds no room at its receiver: eight messages wait, or the context's spill queues are full (R237, R283,
R324). -/
def receiverFull (s : State) (dst q : Nat) : Bool :=
  let h := getHart s dst
  if h.spills q then
    decide ((spilledMessages s (devOfHart dst) h.ctxid.toNat + 1) * 192 > (spillSizes s (devOfHart dst) h.ctxid.toNat).2)
  else decide ((SMap.get [] h.rq q).length ≥ 8)

/-- A message enters its receiver's queue or spill queue (R237, R283). -/
def enterQueue (s : State) (dst q : Nat) (m : Msg) : State :=
  if (getHart s dst).spills q then
    modHart s dst (fun h => { h with spill := SMap.set [] h.spill q (SMap.get [] h.spill q ++ [m]) })
  else deliver s dst q m

/-- A sender's slot learns how its message fared: 0 entered, 1 refused by the receiver, 2 by the firewall (R237). -/
def answerSender (s : State) (src v : Nat) : State := modHart s src (fun h => { h.wake with grant := some (BitVec.ofNat 64 v) })

/-- A message reaches its receiver: it is refused, enters, or parks its sender (R237). -/
def arriveOne (s : State) (m : Nat) : State :=
  match SMap.find s.flights m with
  | none => s
  | some f =>
    let r := getHart s f.dst
    let gone : State := { s with flights := SMap.del s.flights m }
    if channelBlocked s f.src f.dst then answerSender gone f.src 2
    else if r.st = .idle ∨ r.ctxid ≠ (getHart s f.src).ctxid then answerSender gone f.src 1
    else if receiverFull s f.dst f.q then
      beginWait s f.src (.send f.dst f.q)
    else answerSender (enterQueue gone f.dst f.q f.msg) f.src 0

/-- A message arrives, behind those sent before it from its tile to the same tile (R237, R387). -/
def arriveMessage (s : State) (m : Nat) : State :=
  match SMap.find s.flights m with
  | none => s
  | some f => (s.flights.filter (fun p => decide (p.1 ≤ m) && coreOf p.2.src == coreOf f.src && coreOf p.2.dst == coreOf f.dst)).foldl
      (fun t p => arriveOne t p.1) s

/-- A parked sender's message enters when there is room, or is refused by what its receiver has become (R237). -/
def roomForSender (s : State) (hk : Nat) : State :=
  match (getHart s hk).wait, s.flights.find? (fun p => p.2.src == hk) with
  | .send _ _, some p => arriveMessage s p.1
  | _, _ => s

/-- Senders parked on a queue, or on any queue of a hart, look again. -/
def rouseSenders (s : State) (dst : Nat) (q : Option Nat) : State :=
  (s.flights.filter (fun p => p.2.dst == dst && (match q with | some n => p.2.q == n | none => true))).foldl
    (fun t p => match (getHart t p.2.src).wait with
      | .send _ _ => postOnce t (.sendRoom p.2.src)
      | _ => t) s

/-- A send of bytes to a destination word (R237). -/
def sendMessage (dest : DWord) (m : Msg) (s : State) (hk : Nat) : SlotRes :=
  let h := getHart s hk
  match destination dest with
  | none => badOperand s hk
  | some (dst, q) =>
    match h.grant with
    | some v =>
      if v.toNat = 0 then .done s
      else .trap cREMOTENACK (if v.toNat = 2 then 4 else 6) 0 0 0 s
    | none =>
      if s.flights.any (fun p => p.2.src == hk) then .wait h.wait s
      else
        let r := fresh s
        let f : Flight := { src := hk, dst := dst, q := q, msg := m }
        .wait (.notReady false)
          (post { r.2 with flights := SMap.put r.2.flights r.1 f } (.messageArrival r.1))

/-- `msend` (R237). -/
def sendScalar (b c : BitVec 7) (s : State) (hk : Nat) : SlotRes :=
  let h := getHart s hk
  match readS h b, readS h c with
  | some v, some d => sendMessage d (bytesOf v.toNat 8) s hk
  | _, _ => badOperand s hk

/-- `vmsend` (R237): the first ceil(vl * SEW / 8) bytes of a group. -/
def sendVector (b c : BitVec 7) (s : State) (hk : Nat) : SlotRes :=
  let x := getLocal s hk
  let h := x.h
  let n := (h.len * h.sew + 7) / 8
  match readV x b h.grp, readS h c with
  | some v, some d => if n > 128 then badOperand s hk else sendMessage d (bytesOf (v % 2 ^ (h.len * h.sew)) n) s hk
  | _, _ => badOperand s hk

/-! ## Receiving (R238, R239) -/

/-- The oldest message leaves a receive queue; the oldest one spilled from it takes the free place, parked senders look again
and the hart holds no belay entry any more (R163, R237, R238, R284). -/
def takeMessage (s : State) (hk q : Nat) : Option (Msg × State) :=
  let h := getHart s hk
  match SMap.get [] h.rq q with
  | [] => none
  | m :: ms =>
    let (rq, spill) := match SMap.get [] h.spill q with
      | [] => (ms, h.spill)
      | x :: xs => (ms ++ [x], SMap.set [] h.spill q xs)
    let s1 := setHart (disarm s hk) hk { h with rq := SMap.set [] h.rq q rq, spill := spill }
    some (m, rouseSenders s1 hk none)

/-- The queue a receive names; none where sa[63:2] is not 0 (R238). -/
def queueNo (h : Hart) (b : BitVec 7) : Option Nat :=
  (readS h b).bind (fun v => if v.toNat < 4 then some v.toNat else none)

/-- The key of a hart's reserved belay entry while it waits on a receive queue, above every location (R352). -/
def recvKey (hk q : Nat) : Nat := 2 ^ 60 + hk * 4 + q

/-- An empty queue parks its receiver on the reserved entry of its cluster's belay table (R163, R238, R352). -/
def awaitMessage (q : Nat) (s : State) (hk : Nat) : SlotRes :=
  .wait (.recv q) (modClus s (clusKey (coreOf hk)) (fun c =>
    if c.belay.contains (hk, recvKey hk q) then c else { c with belay := c.belay ++ [(hk, recvKey hk q)] }))

/-- `mrecv` (R238). -/
def recvScalar (a b : BitVec 7) (s : State) (hk : Nat) : SlotRes :=
  match queueNo (getHart s hk) b with
  | none => badOperand s hk
  | some q =>
    if sDest a = false then badOperand s hk
    else match takeMessage s hk q with
      | none => awaitMessage q s hk
      | some (m, t) => giveResult t hk a (BitVec.ofNat 64 (valueOf (m.take 8)))

/-- `vmrecv` (R238): the message into one register, which is pushed, and its length into a scalar. -/
def recvVector (a b c : BitVec 7) (s : State) (hk : Nat) : SlotRes :=
  match queueNo (getHart s hk) b with
  | none => badOperand s hk
  | some q =>
    if sDest c = false ∨ (writeV (getLocal s hk) a 1 0).isNone = true then badOperand s hk
    else match takeMessage s hk q with
      | none => awaitMessage q s hk
      | some (m, t) =>
        match writeV (getLocal t hk) a 1 (valueOf m) with
        | none => badOperand s hk
        | some x =>
          let y := pushV x 1 (valueOf m)
          .done (setLocal t hk { y with h := writeS y.h c (BitVec.ofNat 64 m.length) })

/-- `mpoll` (R238). -/
def pollQueue (a b : BitVec 7) (s : State) (hk : Nat) : SlotRes :=
  let h := getHart s hk
  match queueNo h b with
  | none => badOperand s hk
  | some q =>
    if sDest a = false then badOperand s hk
    else giveResult s hk a (BitVec.ofNat 64 (SMap.get [] h.rq q).length)

/-- One message is added to an accumulator group: the group and the flags (R239). -/
def foldMessage (h : Hart) (op : Nat → Nat → Res) (acc msg : Nat) : Nat × Nat :=
  (List.range h.len).foldl (fun r i =>
    if h.selected i then
      let e := op (elem r.1 i h.sew) (elem msg i h.sew)
      (setElem r.1 i h.sew e.bits, r.2 ||| e.fl)
    else r) (acc, 0)

/-- The loop of `vredq` over the messages still to fold; j is kept in the convoy between messages (R239). -/
def foldMessages (op : Nat → Nat → Res) (a : BitVec 7) (q n : Nat) (hk : Nat) : Nat → State → SlotRes
  | 0, s => .done s
  | left + 1, s =>
    match takeMessage s hk q with
    | none => awaitMessage q (modHart s hk (fun h =>
        { h with conv := h.conv.map (fun c => { c with elem := n - (left + 1) }) })) hk
    | some (m, t) =>
      let x := getLocal t hk
      match readV x a x.h.grp with
      | none => badOperand s hk
      | some acc =>
        let r := foldMessage x.h op acc (valueOf m)
        match writeV x a x.h.grp r.1 with
        | none => badOperand s hk
        | some y => foldMessages op a q n hk left (setLocal t hk { y with h := raise y.h r.2 })

/-- `vredq` and `vredqf` (R239). -/
def foldQueue (op : Hart → Option (Nat → Nat → Res)) (a b c : BitVec 7) (s : State) (hk : Nat) : SlotRes :=
  let x := getLocal s hk
  let h := x.h
  match readS h b, readS h c, op h, (readV x a h.grp).bind (fun v => writeV x a h.grp v) with
  | some qw, some nw, some f, some _ =>
    if bits nw 63 16 ≠ 0 ∨ h.len * h.sew > 1024 ∨ h.maskFits = false then badOperand s hk
    else foldMessages f a (bits qw 1 0) nw.toNat hk (nw.toNat - h.curConv.elem) s
  | _, _, _, _ => badOperand s hk

/-- The integer addition of `vredq`: SEW 8 to 64 (R239). -/
def intFold (h : Hart) : Option (Nat → Nat → Res) :=
  if h.sew = 4 then none else some (fun x y => ⟨(x + y) % 2 ^ h.sew, 0, false⟩)

/-- The float addition of `vredqf`: FP64, FP32 or FP16 (R239). -/
def floatFold (h : Hart) : Option (Nat → Nat → Res) :=
  if h.sew = 64 then some (addF f64) else if h.sew = 32 then some (addF f32)
  else if h.sew = 16 then some (addF f16) else none

/-! ## Time (R240) -/

/-- A hart waits until the timebase reaches a time. -/
def waitUntil (t : Nat) (rel : Bool) (s : State) (hk : Nat) : SlotRes :=
  if (tbOf s hk).toNat ≥ t then .done s else .wait (.time t rel) s

/-- `twait` (R240). -/
def timeWait (b : BitVec 7) (s : State) (hk : Nat) : SlotRes :=
  match readS (getHart s hk) b with
  | none => badOperand s hk
  | some v => waitUntil v.toNat false s hk

/-- `twaitd` (R240): a wait already begun keeps its end, a resumed one waits the remainder. -/
def durationWait (b : BitVec 7) (s : State) (hk : Nat) : SlotRes :=
  let h := getHart s hk
  match readS h b, h.wait with
  | none, _ => badOperand s hk
  | some _, .time t true => waitUntil t true s hk
  | some v, _ =>
    if v.toNat ≥ 2 ^ 48 then badOperand s hk
    else
      let ns := if h.curConv.resumed then h.curConv.bitpos else v.toNat
      waitUntil ((tbOf s hk).toNat + ns) true s hk

/-- The timebase has reached the end of a hart's wait (R240). -/
def expireTime (s : State) (hk : Nat) : State :=
  let h := getHart s hk
  match h.wait with
  | .time t _ => if (tbOf s hk).toNat ≥ t then setHart s hk h.wake else s
  | _ => s

/-! ## Waits that tasks release (R228, R233) -/

/-- A child's end makes its parent's waiting join due (R228). -/
def noteChildEnd (s : State) (uid : Nat) : State :=
  match s.harts.find? (fun p => match p.2.task with
    | some t => t.children.any (fun c => c.uid == uid && c.result.isSome)
    | none => false) with
  | some p => (match p.2.wait with
      | .notReady _ => postOnce s (.convoyIssue p.1)
      | _ => s)
  | none => s

/-- A waiting `ordb` opens its section once every lower ticket is retired or has closed a section on the key (R233). -/
def releaseOrdb (s : State) (hk : Nat) : State :=
  let h := getHart s hk
  if h.waitsIn 0x57 1 && h.grant.isNone then
    match h.task, readS h (fieldB h.slotWord) with
    | some t, some v =>
      if sectionFree s t (bits v 31 0) then
        modHart (openSection s hk (bits v 31 0)) hk (fun h => { h with grant := some 0 })
      else s
    | _, _ => s
  else s

/-- The section count has passed ORDTMO: the hart cancels its own graph instance, once (R233, R234). -/
def expireOrdtmo (s : State) (hk : Nat) : State :=
  let h := getHart s hk
  match h.task with
  | some t =>
    if t.sect.isSome = true ∧ h.ordtmo ≠ 0 ∧ h.secCount > h.ordtmo.toNat ∧ h.secOver = false then
      let r := fresh (setHart s hk { h with secOver := true })
      let k : Token := { id := r.1, dev := t.dev, ctx := h.ctxid.toNat, ginst := t.ginst, dies := diesOfDev t.dev, op := 0 }
      post { r.2 with tokens := SMap.put r.2.tokens r.1 k } (.cancelToken r.1)
    else s
  | none => s

/-! ## The instructions and steps -/

/-- ROPE, R235. -/
def execRope (a b : BitVec 7) (s : State) := runSlot 0x58 0 (askRope a b) s
/-- UNROPE, R235. -/
def execUnrope (s : State) := runSlot 0x58 1 leaveRope s
/-- RBAR, R236. -/
def execRbar (a b : BitVec 7) (s : State) := runSlot 0x58 2 (ropeBarrier a b) s
/-- MSEND, R237. -/
def execMsend (b c : BitVec 7) (s : State) := runSlot 0x59 0 (sendScalar b c) s
/-- VMSEND, R237. -/
def execVmsend (b c : BitVec 7) (s : State) := runSlot 0x59 1 (sendVector b c) s
/-- MRECV, R238. -/
def execMrecv (a b : BitVec 7) (s : State) := runSlot 0x59 2 (recvScalar a b) s
/-- VMRECV, R238. -/
def execVmrecv (a b c : BitVec 7) (s : State) := runSlotIf 0x59 3 (tscOperand a) (recvVector a b c) s
/-- MPOLL, R238. -/
def execMpoll (a b : BitVec 7) (s : State) := runSlot 0x59 4 (pollQueue a b) s
/-- VREDQ, R239. -/
def execVredq (a b c : BitVec 7) (s : State) := runSlot 0x59 5 (foldQueue intFold a b c) s
/-- VREDQF, R239. -/
def execVredqf (a b c : BitVec 7) (s : State) := runSlot 0x59 6 (foldQueue floatFold a b c) s
/-- TWAIT, R240. -/
def execTwait (b : BitVec 7) (s : State) := runSlot 0x5A 0 (timeWait b) s
/-- TWAITD, R240. -/
def execTwaitd (b : BitVec 7) (s : State) := runSlot 0x5A 1 (durationWait b) s
/-- MESSAGE_ARRIVAL, R237. -/
def execMessageArrival (m : Nat) (s : State) : Host.Outcome State Fault Refusal := .next (arriveMessage s m)
/-- SEND_ROOM, R237. -/
def execSendRoom (hk : Nat) (s : State) : Host.Outcome State Fault Refusal := .next (roomForSender s hk)
/-- TWAIT_EXPIRY, R240. -/
def execTwaitExpiry (hk : Nat) (s : State) : Host.Outcome State Fault Refusal := .next (expireTime s hk)
/-- CHILD_ENDED, R228. -/
def execChildEnded (uid : Nat) (s : State) : Host.Outcome State Fault Refusal := .next (noteChildEnd s uid)
/-- ORDB_RELEASE, R233. -/
def execOrdbRelease (hk : Nat) (s : State) : Host.Outcome State Fault Refusal := .next (releaseOrdb s hk)
/-- ORDTMO_EXPIRY, R233. -/
def execOrdtmoExpiry (hk : Nat) (s : State) : Host.Outcome State Fault Refusal := .next (expireOrdtmo s hk)
/-- ROPE_FORM, R235. -/
def execRopeForm (hk : Nat) (s : State) : Host.Outcome State Fault Refusal := .next (formRope s hk)
/-- RBAR_RELEASE, R236. -/
def execRbarRelease (hk : Nat) (s : State) : Host.Outcome State Fault Refusal := .next (releaseRbar s hk)

end Sys2Proof.Machine
end

