-- ==== Sys2Proof/Machine/Ray.lean ====
section
/-! DEFINITION. Ray traversal, majors 0x5C to 0x5E (R241 to R253): box and triangle tests in exact arithmetic, the ray
stacks, and spawned rays. -/
namespace Sys2Proof.Machine

open Sys2Proof

/-! ## Exact values in units of 2^-149 (R247, R250) -/

/-- A value in units of 2^-149, or an infinity. -/
inductive Ext where
  | inf (neg : Bool)
  | fin (n : Int)
deriving DecidableEq, Repr

/-- An FP32 value that is no NaN (R42). -/
def extOf (b : Nat) : Option Ext :=
  match decodeF f32 b with
  | .nan _ => none
  | .inf n => some (.inf n)
  | .fin n m e => let v : Int := (m * 2 ^ (e + 149).toNat : Nat); some (.fin (if n then -v else v))

/-- The largest finite FP32 magnitude in those units. -/
def extMax : Int := ((2 ^ 24 - 1) * 2 ^ 253 : Nat)

/-- An exact value rounded to FP32 towards negative infinity (R245). -/
def roundDown (n : Int) : Ext :=
  let l := n.natAbs.log2
  let k : Nat := l - 23
  let r := n / (2 ^ k : Nat) * (2 ^ k : Nat)
  if r < -extMax then .inf true else if r > extMax then .fin extMax else .fin r

/-- An exact value rounded to FP32 towards positive infinity (R245). -/
def roundUp (n : Int) : Ext :=
  match roundDown (-n) with
  | .fin r => .fin (-r)
  | .inf b => .inf (!b)

/-- A quotient: n / d with d > 0, or an infinity. -/
inductive Quot where
  | inf (neg : Bool)
  | fin (n : Int) (d : Nat)
deriving DecidableEq, Repr

/-- a <= b. -/
def Quot.le : Quot → Quot → Bool
  | .inf true, _ => true
  | _, .inf false => true
  | .inf false, _ => false
  | _, .inf true => false
  | .fin n d, .fin m e => decide (n * e ≤ m * d)

/-- The larger of two. -/
def Quot.max (a b : Quot) : Quot := if a.le b then b else a
/-- The smaller of two. -/
def Quot.min (a b : Quot) : Quot := if a.le b then a else b

/-- A value of Ext as a quotient. -/
def Ext.quot : Ext → Quot
  | .inf n => .inf n
  | .fin n => .fin n (2 ^ 149)

/-- a <= b. -/
def Ext.le (a b : Ext) : Bool := a.quot.le b.quot

/-- (x - o) / d for d not zero, open where infinite operands give it no value (R247). -/
def slab (x o d : Ext) (ob db : Nat) : Quot :=
  let diff : Option Ext := match x, o with
    | .fin a, .fin b => some (.fin (a - b))
    | .inf n, .fin _ => some (.inf n)
    | .fin _, .inf n => some (.inf !n)
    | .inf n, .inf m => if n = m then none else some (.inf n)
  match diff, d with
  | some (.fin n), .fin e => .fin (if e < 0 then -n else n) e.natAbs
  | some (.fin _), .inf _ => .fin 0 1
  | some (.inf n), .fin e => .inf (n != decide (e < 0))
  | _, _ => .fin (Config.openReal ob db) 1

/-! ## Shared shapes (R242) -/

/-- The vector forms need SEW = 32 and a group of one register (R242). -/
def Hart.graphics (h : Hart) : Bool := decide (h.sew = 32 ∧ h.grp = 1) && h.maskFits

/-- A block, group or run of registers named in the window (R242). -/
def readBlock (x : Local) (sp : BitVec 7) (g : Nat) : Option Nat :=
  if sp.toNat < 96 then readV x sp g else none

/-- Register j, element i of a block of 32-bit elements. -/
def laneElem (v j i : Nat) : Nat := elem v (32 * j + i) 32

/-- The block with register j, element i replaced. -/
def setLaneElem (v j i x : Nat) : Nat := setElem v (32 * j + i) 32 x

/-- A block of registers written element by element: values by register, with kept elements as MASKZ and TAILZ say
(R104, R242). -/
def mergeBlock (h : Hart) (old regs : Nat) (stop : Option Nat) (vals : List (Nat × List Nat)) : Nat :=
  (List.range regs).foldl (fun v j =>
    v + loadMerge h 32 32 ((old >>> (1024 * j)) % 2 ^ 1024) stop (vals.map (fun p => (p.1, p.2.getD j 0))) * 2 ^ (1024 * j)) 0

/-! ## Nodes and triangles (R244 to R246) -/

/-- A node reference is internal (R245). -/
def isInternal (r : Nat) : Bool := decide (r ≠ 0 ∧ r % 2 = 0)

/-- n bytes at an offset of a node, a record or a descriptor. -/
def part (v ofs n : Nat) : Nat := (v >>> (8 * ofs)) % 2 ^ (8 * n)

/-- The reference of child c of a node (R245). -/
def childRef (node c : Nat) : Nat :=
  let m := part node (0x20 + 2 * c) 2
  if m / 2 ^ 15 = 1 then (part node 0 8 / 128 * 128 + 128 * (m % 2 ^ 15)) % 2 ^ 64
  else Nat.lor (Nat.lor ((part node 8 8 / 64 * 64 + 64 * (m / 16)) % 2 ^ 64) (m % 16 * 2)) 1

/-- The decoded box of child c on an axis: lo and hi; none when an origin is NaN (R245). -/
def childSlab (node c axis : Nat) : Option (Ext × Ext) :=
  match extOf (part node (0x10 + 4 * axis) 4) with
  | none => none
  | some (.inf n) => some (.inf n, .inf n)
  | some (.fin o) =>
    let e := (toSigned 8 (part node (0x1C + axis) 1) + 149).toNat
    let ql : Int := (part node (0x30 + 6 * c + axis) 1 * 2 ^ e : Nat)
    let qh : Int := (part node (0x33 + 6 * c + axis) 1 * 2 ^ e : Nat)
    some (roundDown (o + ql), roundUp (o + qh))

/-- Child c takes part in a test (R245). -/
def takesPart (node c : Nat) : Bool :=
  (part node 0x1F 1).testBit c
    && (List.range 3).all (fun a => decide (part node (0x30 + 6 * c + a) 1 ≤ part node (0x33 + 6 * c + a) 1))
    && (List.range 3).all (fun a => (extOf (part node (0x10 + 4 * a) 4)).isSome)

/-- The components of ray i: bits of ox, oy, oz, dx, dy, dz, tmin, tmax. -/
def rayBits (block i : Nat) : List Nat := (List.range 8).map (fun j => laneElem block j i)

/-- A ray meets a box between tmin and tmax: the entry distance, if it does (R247). -/
def boxEntry (node c : Nat) (bits : List Nat) (ray : List Ext) : Option Quot :=
  let axis (acc : Option (Quot × Quot)) (a : Nat) : Option (Quot × Quot) :=
    match acc, childSlab node c a with
    | some (ent, ext), some (lo, hi) =>
      let o := ray.getD a (.fin 0)
      let d := ray.getD (3 + a) (.fin 0)
      if d = .fin 0 then (if lo.le o && o.le hi then some (ent, ext) else none)
      else
        let p := slab lo o d (bits.getD a 0) (bits.getD (3 + a) 0)
        let q := slab hi o d (bits.getD a 0) (bits.getD (3 + a) 0)
        some (ent.max (p.min q), ext.min (p.max q))
    | _, _ => none
  match (List.range 3).foldl axis (some ((ray.getD 6 (.fin 0)).quot, (ray.getD 7 (.fin 0)).quot)) with
  | some (ent, ext) => if ent.le ext then some ent else none
  | none => none

/-- A hit enters the order by entry distance, after equal ones (R247). -/
def insertHit (c : Nat) (e : Quot) : List (Nat × Quot) → List (Nat × Quot)
  | [] => [(c, e)]
  | (k, f) :: rest => if f.le e then (k, f) :: insertHit c e rest else (c, e) :: (k, f) :: rest

/-- The hit list of a ray against a node (R247). -/
def hitList (node : Nat) (bits : List Nat) : Nat :=
  match bits.mapM extOf with
  | none => 0
  | some ray =>
    let hits := ((List.range 8).filter (takesPart node)).foldl (fun l c =>
      match boxEntry node c bits ray with | some e => insertHit c e l | none => l) []
    hits.length + ((hits.zipIdx).map (fun p => p.1.1 * 2 ^ (3 * p.2 + 4))).sum

/-- `rbox` (R247). -/
def rayBox (a b c : BitVec 7) (s : State) (hk : Nat) : SlotRes :=
  let x := getLocal s hk
  let h := x.h
  let ops : Option (Nat × Nat × Nat) := do
    guard (h.graphics = true ∧ overlaps a 1 b 8 = false ∧ overlaps a 1 c 2 = false ∧ overlaps b 8 c 2 = false)
    let rays ← readBlock x b 8
    let nodes ← readBlock x c 2
    let old ← readV x a 1
    let _ ← writeV x a 1 0
    some (rays, nodes, old)
  match ops with
  | none => badOperand s hk
  | some (rays, nodes, old) =>
    let one (t : State) (i : Nat) : Got Nat :=
      let r := elem nodes i 64
      if isInternal r && ((rayBits rays i).mapM extOf).isSome then
        (fetchElem t hk (BitVec.ofNat 64 r) 128 128 .gather).bind (fun v u => .ok (hitList v (rayBits rays i)) u)
      else .ok 0 t
    (walkElems one s [] (activeElems h)).finish (fun vs stop t =>
      let y := getLocal t hk
      let v := loadMerge h 32 32 old stop vs
      match writeV y a 1 v with
      | some z => setLocal t hk (if stop.isNone then pushV z 1 v else z)
      | none => t)

/-! ## The stacks (R248, R249) -/

/-- A stack-words element with new fields, its low byte 0 (R248). -/
def stackWord (depth : Nat) (ovf : Bool) (top base : Nat) : Nat :=
  depth * 2 ^ 26 + b2n ovf * 2 ^ 25 + top * 2 ^ 20 + base * 2 ^ 8
/-- DEPTH of a stack word. -/
def stDepth (w : Nat) : Nat := w / 2 ^ 26 % 64
/-- OVF of a stack word. -/
def stOvf (w : Nat) : Bool := w.testBit 25
/-- TOP of a stack word. -/
def stTop (w : Nat) : Nat := w / 2 ^ 20 % 32
/-- BASE of a stack word. -/
def stBase (w : Nat) : Nat := w / 2 ^ 8 % 4096

/-- The scratchpad location of a slot of a stack (R248). -/
def stackLoc (hk w slot : Nat) : Nat := scratchLoc (coreOf hk) ((256 * stBase w + 8 * slot) % 2 ^ 20)

/-- A reference is pushed (R248). A DEPTH of 33 to 63, which no stack that software starts reaches, counts as 32: it stays
and OVF is set (DESIGN CHOICE, log 79). -/
def stackPush (hk : Nat) (p : State × Nat) (r : Nat) : State × Nat :=
  let w := p.2
  let full := decide (stDepth w ≥ 32)
  (writeN p.1 (stackLoc hk w (stTop w)) 8 r,
   stackWord (if full then stDepth w else stDepth w + 1) (stOvf w || full) ((stTop w + 1) % 32) (stBase w))

/-- The newest reference is popped: it and the stack word (R248). It is read from the scratchpad itself, in an idempotent task too
(DESIGN CHOICE, log 94). -/
def stackPop (s : State) (hk w : Nat) : Nat × Nat :=
  let top := (stTop w + 31) % 32
  (readN s (stackLoc hk w top) 8, stackWord (stDepth w - 1) (stOvf w) top (stBase w))

/-- `rpush` (R249). -/
def rayPush (a b c : BitVec 7) (s : State) (hk : Nat) : SlotRes :=
  let x := getLocal s hk
  let h := x.h
  let ops : Option (Nat × Nat × Nat) := do
    guard (h.graphics = true ∧ overlaps a 2 b 1 = false ∧ overlaps a 2 c 1 = false ∧ overlaps b 1 c 1 = false)
    let nodes ← readBlock x a 2
    let hits ← readV x b 1
    let stack ← readV x c 1
    let _ ← writeV x c 1 stack
    some (nodes, hits, stack)
  match ops with
  | none => badOperand s hk
  | some (nodes, hits, stack) =>
    let one (t : State) (i : Nat) : Got (Option (List Nat)) :=
      let r := elem nodes i 64
      let l := elem hits i 32
      let n := min (l % 16) 8
      if !isInternal r then .ok none t
      else if n = 0 then .ok (some []) t
      else (fetchElem t hk (BitVec.ofNat 64 r) 128 128 .gather).bind (fun v u =>
        .ok (some ((List.range n).map (fun k => childRef v (l / 2 ^ (3 * k + 4) % 8)))) u)
    let apply (acc : State × Nat × Nat) (p : Nat × Option (List Nat)) : State × Nat × Nat :=
      match p.2 with
      | none => acc
      | some [] => (acc.1, setElem acc.2.1 p.1 64 0, acc.2.2)
      | some (r :: rs) =>
        let q := rs.reverse.foldl (stackPush hk) (acc.1, elem acc.2.2 p.1 32)
        (q.1, setElem acc.2.1 p.1 64 r, setElem acc.2.2 p.1 32 q.2)
    (walkElems one s [] (activeElems h)).finish (fun vs _ t =>
      let r := vs.foldl apply (t, nodes, stack)
      match (writeV (getLocal r.1 hk) a 2 r.2.1).bind (fun y => writeV y c 1 r.2.2) with
      | some y => setLocal r.1 hk y
      | none => t)

/-- `rpop` (R249). -/
def rayPop (a b c : BitVec 7) (s : State) (hk : Nat) : SlotRes :=
  let x := getLocal s hk
  let h := x.h
  let ops : Option (Nat × Nat) := do
    guard (h.graphics = true ∧ overlaps a 2 b 1 = false ∧ sDest c = true)
    let nodes ← readBlock x a 2
    let stack ← readV x b 1
    let _ ← writeV x b 1 stack
    some (nodes, stack)
  match ops with
  | none => badOperand s hk
  | some (nodes, stack) =>
    let act := (List.range h.len).filter h.selBit
    let r := (activeElems h).foldl (fun (acc : Nat × Nat) i =>
      let w := elem acc.2 i 32
      if elem acc.1 i 64 = 0 ∧ stDepth w > 0 then
        let p := stackPop s hk w
        (setElem acc.1 i 64 p.1, setElem acc.2 i 32 p.2)
      else acc) (nodes, stack)
    let live := (act.filter (fun i => elem r.1 i 64 != 0)).length
    match (writeV x a 2 r.1).bind (fun y => writeV y b 1 r.2) with
    | some y => giveResult (setLocal s hk y) hk c (BitVec.ofNat 64 live)
    | none => badOperand s hk

/-- `rterm` (R249). -/
def rayTerm (a b : BitVec 7) (x : Local) : Option Local := do
  let h := x.h
  guard (h.graphics = true ∧ overlaps a 2 b 1 = false)
  let nodes ← readBlock x a 2
  let stack ← readV x b 1
  let r := (activeElems h).foldl (fun (acc : Nat × Nat) i =>
    let w := elem acc.2 i 32
    (setElem acc.1 i 64 0, setElem acc.2 i 32 (stackWord 0 (stOvf w) 0 (stBase w)))) (nodes, stack)
  let y ← writeV x a 2 r.1
  writeV y b 1 r.2

/-! ## Triangles (R250, R251) -/

/-- A vector of exact coordinates in units of 2^-149. -/
structure Vec where
  x : Int
  y : Int
  z : Int
deriving DecidableEq, Repr

/-- u - v. -/
def Vec.sub (u v : Vec) : Vec := ⟨u.x - v.x, u.y - v.y, u.z - v.z⟩
/-- u . v. -/
def Vec.dot (u v : Vec) : Int := u.x * v.x + u.y * v.y + u.z * v.z
/-- u x v. -/
def Vec.cross (u v : Vec) : Vec := ⟨u.y * v.z - u.z * v.y, u.z * v.x - u.x * v.z, u.x * v.y - u.y * v.x⟩

/-- Three FP32 patterns as a vector; none when one is not finite. -/
def vecOf (a b c : Nat) : Option Vec :=
  match extOf a, extOf b, extOf c with
  | some (.fin x), some (.fin y), some (.fin z) => some ⟨x, y, z⟩
  | _, _, _ => none

/-- A quotient of integers, d not zero, rounded to FP32 (R250). A quotient of 0 is +0 whatever the sign of d (DESIGN CHOICE, log 87). -/
def rneQuot (n d : Int) : Nat :=
  (rneArith f32 (.num (decide (n ≠ 0) && (decide (n < 0) != decide (d < 0))) n.natAbs d.natAbs)).1

/-- The candidate of a miss: t, u, v and identifier (R250). -/
def missCandidate : List Nat := [0x7F800000, 0, 0, 0xFFFFFFFF]

/-- The candidate of a ray and a triangle record (R250). -/
def triCandidate (rec : Nat) (bits : List Nat) : List Nat :=
  let g (j : Nat) : Nat := bits.getD j 0
  let w (k : Nat) : Option Vec := vecOf (part rec (12 * k) 4) (part rec (12 * k + 4) 4) (part rec (12 * k + 8) 4)
  match vecOf (g 0) (g 1) (g 2), vecOf (g 3) (g 4) (g 5), w 0, w 1, w 2 with
  | some o, some d, some v0, some v1, some v2 =>
    let p0 := v0.sub o
    let p1 := v1.sub o
    let p2 := v2.sub o
    let u := d.dot (p1.cross p2)
    let v := d.dot (p2.cross p0)
    let q := d.dot (p0.cross p1)
    let det := u + v + q
    let inside := decide (det ≠ 0) && (decide (u ≥ 0 ∧ v ≥ 0 ∧ q ≥ 0) || decide (u ≤ 0 ∧ v ≤ 0 ∧ q ≤ 0))
    let num := p0.dot ((v1.sub v0).cross (v2.sub v0))
    let t : Quot := .fin (if det < 0 then -num else num) det.natAbs
    match extOf (g 6), extOf (g 7) with
    | some (.fin a), some (.fin b) =>
      if inside && (Ext.fin a).quot.le t && t.le (Ext.fin b).quot then [rneQuot num det, rneQuot v det, rneQuot q det, part rec 0x24 4]
      else missCandidate
    | _, _ => missCandidate
  | _, _, _, _, _ => missCandidate

/-- A leaf reference past its triangle (R250). -/
def nextLeaf (r : Nat) : Nat :=
  let m := r / 2 % 16
  if m = 0 then 0 else Nat.lor (Nat.lor ((r / 64 * 64 + 64) % 2 ^ 64) ((m - 1) * 2)) 1

/-- `rtri` (R250). -/
def rayTri (a b c : BitVec 7) (s : State) (hk : Nat) : SlotRes :=
  let x := getLocal s hk
  let h := x.h
  let ops : Option (Nat × Nat × Nat) := do
    guard (h.graphics = true ∧ overlaps a 4 b 8 = false ∧ overlaps a 4 c 2 = false ∧ overlaps b 8 c 2 = false)
    let rays ← readBlock x b 8
    let nodes ← readBlock x c 2
    let old ← readBlock x a 4
    some (rays, nodes, old)
  match ops with
  | none => badOperand s hk
  | some (rays, nodes, old) =>
    let one (t : State) (i : Nat) : Got (List Nat) :=
      let r := elem nodes i 64
      if r % 2 = 0 then .ok missCandidate t
      else (fetchElem t hk (BitVec.ofNat 64 (r / 32 * 32)) 64 64 .gather).bind (fun v u =>
        .ok (triCandidate v (rayBits rays i)) u)
    (walkElems one s [] (activeElems h)).finish (fun vs stop t =>
      let refs := vs.foldl (fun g p => if elem nodes p.1 64 % 2 = 0 then g else setElem g p.1 64 (nextLeaf (elem nodes p.1 64))) nodes
      match (writeV (getLocal t hk) a 4 (mergeBlock h old 4 stop vs)).bind (fun y => writeV y c 2 refs) with
      | some y => setLocal t hk y
      | none => t)

/-- `rhit` (R251). -/
def rayHit (a b c : BitVec 7) (x : Local) : Option Local := do
  let h := x.h
  guard (h.graphics = true ∧ overlaps a 8 b 4 = false ∧ overlaps a 8 c 4 = false ∧ overlaps b 4 c 4 = false)
  let rays ← readBlock x a 8
  let cand ← readBlock x b 4
  let best ← readBlock x c 4
  let r := (activeElems h).foldl (fun (acc : Nat × Nat) i =>
    let nearer := match extOf (laneElem cand 0 i), extOf (laneElem acc.1 7 i) with
      | some t, some m => t.le m
      | _, _ => false
    if nearer && decide (laneElem cand 3 i ≠ 0xFFFFFFFF) then
      (setLaneElem acc.1 7 i (laneElem cand 0 i),
       (List.range 4).foldl (fun v j => setLaneElem v j i (laneElem cand j i)) acc.2)
    else acc) (rays, best)
  let y ← writeV x a 8 r.1
  writeV y c 4 r.2

/-! ## Spawned rays (R252, R253) -/

/-- The record of spawned ray i: its arguments and the spawner's graph instance (R253). -/
def rayRecord (ws : List DWord) (ginst rays i : Nat) : List DWord :=
  let pair (j : Nat) : DWord := BitVec.ofNat 64 (laneElem rays j i + laneElem rays (j + 1) i * 2 ^ 32)
  ws.take 3 ++ [BitVec.ofNat 64 ginst] ++ (ws.drop 4).take 2 ++ [pair 0, pair 2, pair 4, pair 6]
    ++ [recW ws 10 + BitVec.ofNat 64 i] ++ ws.drop 11

/-- The status word of `rspawn` (R253). -/
def spawnStatus (status count : Nat) : DWord := BitVec.ofNat 64 (status * 2 ^ 60 + count)

/-- The copies of the rays still to be queued, in ascending order; one that finds the queue full stops or waits (R253). -/
def spawnRays (a : BitVec 7) (qk total : Nat) (record : Nat → List DWord) (hk : Nat) : List Nat → State → SlotRes
  | [], s => giveResult s hk a (spawnStatus 0 total)
  | i :: is, s =>
    match SMap.find s.queues qk with
    | none => giveResult s hk a (spawnStatus 3 (total - (i :: is).length))
    | some q =>
      if mayEnter q hk then
        spawnRays a qk total record hk is (enqueueFor (leaveStalled s qk hk) hk qk (record i) ((getHart s hk).depth + 1))
      else if q.returnsStatus then giveResult s hk a (spawnStatus 1 (total - (i :: is).length))
      else .wait (.queue qk) (modHart (joinStalled s qk q hk) hk (fun h =>
        { h with conv := h.conv.map (fun c => { c with elem := i }) }))

/-- The drop counter of a template is added to at `dev` scope: in the global window as a device's write, in a scratchpad at its
core; an addition that faults is lost and counted (R253, R302, R306, R431). -/
def dropCounter (s : State) (hk dev ctx qk va n : Nat) : State :=
  let v := BitVec.ofNat 64 va
  if windowOf v = 0 then addCounter s dev ctx qk va n
  else match elemCheck s ⟨hk, ctx, 0⟩ .atomic v 8 8 .scalar with
    | .ok ps _ => match refusalOf s ⟨hk, ctx, 0⟩ .atomic v ps with
      | some r => if r.cause = cPOISON then s else queueFault s qk v
      | none =>
        let ls := ps.flatMap (fun p => (List.range p.2).map (p.1 + ·))
        writeLocs s ls (readLocs s ls + n)
    | _ => queueFault s qk v

/-- `rspawn` once its template has been read (R253). A spawn that goes on after a wait counts the rays already
queued. In an idempotent task only the template and the depth are checked at once. On a hart that runs no task it raises
ILLEGAL-OPERAND, since a copy has no spawner to take its context, graph instance and depth from (DESIGN CHOICE, log 79). -/
def spawnFrom (a : BitVec 7) (sc : DWord) (rays : Nat) (ws : List DWord) (s : State) (hk : Nat) : SlotRes :=
  let h := getHart s hk
  let dev := devOfHart hk
  let act := (List.range h.len).filter h.selBit
  let q := recQueue ws
  let sent := (act.filter (fun i => decide (i < h.curConv.elem))).length
  match h.task with
  | none => badOperand s hk
  | some t =>
    if recordSpawnOk ws = false then giveResult s hk a (spawnStatus 2 sent)
    else if h.idem = false ∧ (queueFor s dev h.ctxid.toNat q).isNone = true then giveResult s hk a (spawnStatus 3 sent)
    else if h.depth ≥ 8 then
      let at_ := (sc + 0x70).toNat
      if h.idem then
        giveResult (modTask s hk (fun t => { t with buf := t.buf ++ [.addTo at_ act.length] })) hk a (spawnStatus 4 0)
      else if counterFull h 2 then .wait (.notReady false) s
      else giveResult (issueOp (dropCounter s hk dev h.ctxid.toNat t.queue at_ act.length) { hart := hk, counter := 2, scope := 4 })
        hk a (spawnStatus 4 0)
    else if h.idem then
      giveResult (act.foldl (fun u i => holdSpawn u hk q (rayRecord ws t.ginst rays i) (h.depth + 1)) s) hk a
        (spawnStatus 0 act.length)
    else if storesDone h = false then .wait (.notReady true) s
    else spawnRays a (dev * 4096 + q) act.length (rayRecord ws t.ginst rays) hk
      (act.filter (fun i => decide (h.curConv.elem ≤ i))) s

/-- `rspawn` (R253). One that waits for room reads and checks its template again each time it issues (DESIGN CHOICE, log 96). -/
def raySpawn (a b c : BitVec 7) (s : State) (hk : Nat) : SlotRes :=
  let x := getLocal s hk
  match readBlock x b 8, readS x.h c with
  | some rays, some sc =>
    if x.h.graphics = false ∨ sDest a = false then badOperand s hk
    else (fetchElem s hk sc 128 8 .scalar).andThen 0 (fun v t => spawnFrom a sc rays (toWords v 16) t hk)
  | _, _ => badOperand s hk

/-- `rdepth` (R252). -/
def spawnDepth (a : BitVec 7) (h : Hart) : Option Hart :=
  if sDest a then some (h.result a (BitVec.ofNat 64 h.depth)) else none

/-! ## The instructions -/

/-- RBOX, R247. -/
def execRbox (a b c : BitVec 7) (s : State) := runSlot 0x5C 0 (rayBox a b c) s
/-- RTRI, R250. -/
def execRtri (a b c : BitVec 7) (s : State) := runSlot 0x5C 1 (rayTri a b c) s
/-- RPUSH, R249. -/
def execRpush (a b c : BitVec 7) (s : State) := runSlot 0x5D 0 (rayPush a b c) s
/-- RPOP, R249. -/
def execRpop (a b c : BitVec 7) (s : State) := runSlot 0x5D 1 (rayPop a b c) s
/-- RHIT, R251. -/
def execRhit (a b c : BitVec 7) (s : State) := runSlot 0x5D 2 (localBody (rayHit a b c)) s
/-- RTERM, R249. -/
def execRterm (a b : BitVec 7) (s : State) := runSlot 0x5D 3 (localBody (rayTerm a b)) s
/-- RSPAWN, R253. -/
def execRspawn (a b c : BitVec 7) (s : State) := runSlot 0x5E 0 (raySpawn a b c) s
/-- RDEPTH, R252. -/
def execRdepth (a : BitVec 7) (s : State) := runSlot 0x5E 1 (hartBody (spawnDepth a)) s

end Sys2Proof.Machine
end

