-- ==== Sys2Proof/Machine/Texture.lean ====
section
/-! DEFINITION. Texture sampling, major 0x5F (R254 to R259). -/
namespace Sys2Proof.Machine

open Sys2Proof

/-! ## Descriptors and levels (R254, R255) -/

/-- WM1, HM1, FORMAT, LM1, WRAPU and WRAPV of a descriptor of 32 bytes, and its BASE (R254). -/
def txBase (d : Nat) : Nat := part d 0 8
/-- Width of level 0. -/
def txWidth (d : Nat) : Nat := part d 8 2 + 1
/-- Height of level 0. -/
def txHeight (d : Nat) : Nat := part d 10 2 + 1
/-- FORMAT. -/
def txFormat (d : Nat) : Nat := part d 12 1
/-- LM1. -/
def txLm1 (d : Nat) : Nat := part d 13 1 % 16
/-- WRAPU. -/
def txWrapU (d : Nat) : Nat := part d 13 1 / 16 % 4
/-- WRAPV. -/
def txWrapV (d : Nat) : Nat := part d 13 1 / 64

/-- The footprints of the ASTC formats 0x10 to 0x1D (R254). -/
def astcFootprints : List (Nat × Nat) :=
  [(4, 4), (5, 4), (5, 5), (6, 5), (6, 6), (8, 5), (8, 6), (8, 8), (10, 5), (10, 6), (10, 8), (10, 10), (12, 10), (12, 12)]

/-- The footprint of an ASTC format; none for another format (R254). -/
def txFootprint (d : Nat) : Option (Nat × Nat) :=
  if txFormat d < 0x10 then none else astcFootprints[txFormat d - 0x10]?

/-- Bytes of a texel of an uncompressed format (R254). -/
def txBytes (d : Nat) : Nat :=
  match txFormat d with
  | 0 => 1 | 1 => 2 | 2 => 4 | 3 => 2 | 4 => 8 | 5 => 4 | _ => 16

/-- A descriptor keeps R254. -/
def txOk (d : Nat) : Bool :=
  decide (txBase d % 128 = 0) && (decide (txFormat d ≤ 6) || (txFootprint d).isSome) && decide (txWrapU d ≠ 3)
    && decide (txWrapV d ≠ 3) && decide (part d 14 2 = 0) && decide (part d 16 16 = 0)

/-- W of a level (R255). -/
def levelW (d l : Nat) : Nat := max 1 (txWidth d >>> l)
/-- H of a level (R255). -/
def levelH (d l : Nat) : Nat := max 1 (txHeight d >>> l)

/-- Bytes of a row of texels or blocks, and the rows, of a level (R255). -/
def levelShape (d l : Nat) : Nat × Nat :=
  match txFootprint d with
  | some (bw, bh) => ((levelW d l + bw - 1) / bw * 16, (levelH d l + bh - 1) / bh)
  | none => ((levelW d l * txBytes d + 15) / 16 * 16, levelH d l)

/-- The address of a level: levels lie consecutively, each from a multiple of 128 (R255). -/
def levelBase (d l : Nat) : Nat :=
  (List.range l).foldl (fun a k => (a + (levelShape d k).1 * (levelShape d k).2 + 127) / 128 * 128) (txBase d)

/-! ## Texels (R255, R256) -/

/-- The exact value of a channel: c / m, or a stored float. -/
inductive Texel where
  | unorm (c m : Nat)
  | flt (v : FVal)
deriving DecidableEq, Repr

/-- A coordinate wrapped against a size (R256). -/
def wrapCoord (mode : Nat) (x : Int) (n : Nat) : Nat :=
  if mode = 0 then (x % (n : Int)).toNat
  else if mode = 1 then (if x < 0 then 0 else if x > (n : Int) - 1 then n - 1 else x.toNat)
  else let m := (x % (2 * n : Int)).toNat; if m < n then m else 2 * n - 1 - m

/-- The address and size of what is read for texel (x, y) of a level (R255). -/
def texelAddr (d l x y : Nat) : Nat × Nat :=
  match txFootprint d with
  | some (bw, bh) => (levelBase d l + y / bh * (levelShape d l).1 + x / bw * 16, 16)
  | none => (levelBase d l + y * (levelShape d l).1 + x * txBytes d, txBytes d)

/-- The four channels of texel (x, y) in the bytes read for it (R255). -/
def texelOf (d v x y : Nat) : List Texel :=
  let u (k : Nat) : Texel := .unorm (part v k 1) 255
  let f16c (k : Nat) : Texel := .flt (decodeF f16 (part v (2 * k) 2))
  let f32c (k : Nat) : Texel := .flt (decodeF f32 (part v (4 * k) 4))
  let zero : Texel := .flt (.fin false 0 0)
  let one : Texel := .flt (.fin false 1 0)
  match txFootprint d with
  | some (bw, bh) =>
    (astcTexel v bw bh (x % bw) (y % bh)).map (fun c => .unorm c 65535)
  | none =>
    match txFormat d with
    | 0 => [u 0, .unorm 0 255, .unorm 0 255, .unorm 255 255]
    | 1 => [u 0, u 1, .unorm 0 255, .unorm 255 255]
    | 2 => [u 0, u 1, u 2, u 3]
    | 3 => [f16c 0, zero, zero, one]
    | 4 => [f16c 0, f16c 1, f16c 2, f16c 3]
    | 5 => [f32c 0, zero, zero, one]
    | _ => [f32c 0, f32c 1, f32c 2, f32c 3]

/-- Texel (x, y) of a level, each coordinate wrapped, is read (R243, R256). -/
def readTexel (d l hk : Nat) (x y : Int) (s : State) : Got (List Texel) :=
  let wx := wrapCoord (txWrapU d) x (levelW d l)
  let wy := wrapCoord (txWrapV d) y (levelH d l)
  let a := texelAddr d l wx wy
  (fetchElem s hk (BitVec.ofNat 64 a.1) a.2 1 .gather).bind (fun v t => .ok (texelOf d v wx wy) t)

/-! ## Positions (R256 to R258) -/

/-- An integer quotient rounded to nearest, ties to even. -/
def rneInt (n : Int) (d : Nat) : Int :=
  let k : Int := rneDiv n.natAbs d
  if n < 0 then -k else k

/-- A position in texels with eight fraction bits: rne(256 * (u * n - 0.5)), clamped, NaN giving 0 (R256). -/
def fixedPos (u n : Nat) : Int :=
  match extOf u with
  | none => 0
  | some (.inf neg) => if neg then -2 ^ 31 else 2 ^ 31 - 1
  | some (.fin a) =>
    let r := rneInt (256 * a * (n : Int) - 128 * 2 ^ 149) (2 ^ 149)
    if r < -2 ^ 31 then -2 ^ 31 else if r > 2 ^ 31 - 1 then 2 ^ 31 - 1 else r

/-- floor(u * n), for `tex.pt`; open where u is NaN or infinite (R257). -/
def pointPos (u n : Nat) : Int :=
  match extOf u with
  | some (.fin a) => a * (n : Int) / 2 ^ 149
  | _ => Config.openTexel u

/-- The level a lod selects (R256). -/
def levelOf (lod lm1 : Nat) : Nat :=
  match extOf lod with
  | none => 0
  | some (.inf neg) => if neg then 0 else lm1
  | some (.fin a) => let r := rneInt a (2 ^ 149); if r < 0 then 0 else min r.toNat lm1

/-- A 32-bit mixing step of the hash (R258). -/
def mix (h : BitVec 32) : BitVec 32 :=
  let a := (h ^^^ (h >>> 16)) * 0x7FEB352D#32
  let b := (a ^^^ (a >>> 15)) * 0x846CA68B#32
  b ^^^ (b >>> 16)

/-- The hash of `tex.st` (R258). -/
def texHash (seed : Nat) (x y : Int) (l : Nat) : BitVec 32 :=
  mix (mix (mix (BitVec.ofNat 32 seed ^^^ BitVec.ofInt 32 x) ^^^ BitVec.ofInt 32 y) ^^^ BitVec.ofNat 32 l)

/-- A channel as FP32 (R257). -/
def channelBits : Texel → Nat
  | .unorm c m => (rneArith f32 (.num false c m)).1
  | .flt v => (rneArith f32 v.res).1

/-- The weighted sum of a channel over 65,536, as FP32 (R257). -/
def blendBits (ws : List Nat) (ts : List Texel) : Nat :=
  match ts with
  | .unorm _ m :: _ =>
    (rneArith f32 (.num false ((List.zipWith (fun w t => match t with | .unorm c _ => w * c | .flt _ => 0) ws ts).sum)
      (65536 * m))).1
  | _ =>
    (rneArith f32 (sumTerms false (List.zipWith (fun w t => match t with
      | .flt v => mulTerm (.fin false w (-16)) v
      | .unorm _ _ => .val (.fin false 0 0)) ws ts))).1

/-- How a form samples (R257). -/
inductive Sampling where
  | bilinear | stochastic | point
deriving DecidableEq, Repr

/-- The four channels of one element (R256, R257). -/
def sample (form : Sampling) (d hk coords i : Nat) (s : State) : Got (List Nat) :=
  let u := laneElem coords 0 i
  let v := laneElem coords 1 i
  let l := levelOf (laneElem coords 2 i) (txLm1 d)
  let x := fixedPos u (levelW d l)
  let y := fixedPos v (levelH d l)
  let x0 := x / 256
  let y0 := y / 256
  let ax := (x % 256).toNat
  let ay := (y % 256).toNat
  let w00 := (256 - ax) * (256 - ay)
  let w10 := ax * (256 - ay)
  let w01 := (256 - ax) * ay
  match form with
  | .point => (readTexel d l hk (pointPos u (levelW d l)) (pointPos v (levelH d l)) s).bind
      (fun t r => .ok (t.map channelBits) r)
  | .stochastic =>
    let r := (texHash (laneElem coords 3 i) x y l).toNat % 65536
    let p : Int × Int := if r < w00 then (x0, y0) else if r < w00 + w10 then (x0 + 1, y0)
      else if r < w00 + w10 + w01 then (x0, y0 + 1) else (x0 + 1, y0 + 1)
    (readTexel d l hk p.1 p.2 s).bind (fun t r => .ok (t.map channelBits) r)
  | .bilinear =>
    (readTexel d l hk x0 y0 s).bind (fun a s =>
    (readTexel d l hk (x0 + 1) y0 s).bind (fun b s =>
    (readTexel d l hk x0 (y0 + 1) s).bind (fun c s =>
    (readTexel d l hk (x0 + 1) (y0 + 1) s).bind (fun e s =>
      .ok ((List.range 4).map (fun k =>
        let g (t : List Texel) : Texel := t.getD k (.unorm 0 255)
        blendBits [w00, w10, w01, ax * ay] [g a, g b, g c, g e])) s))))

/-- `tex.bl`, `tex.st` and `tex.pt` (R257). A descriptor address that is no multiple of 32 raises ALIGN at element 0, as a
record's does (DEDUCED, log 79). -/
def sampleTexture (form : Sampling) (a b c : BitVec 7) (s : State) (hk : Nat) : SlotRes :=
  let x := getLocal s hk
  let h := x.h
  let ops : Option (Nat × Nat × DWord) := do
    guard (h.graphics = true ∧ overlaps a 4 b 4 = false)
    let coords ← readBlock x b 4
    let old ← readBlock x a 4
    let desc ← readS h c
    some (coords, old, desc)
  match ops with
  | none => badOperand s hk
  | some (coords, old, desc) =>
    (fetchElem s hk desc 32 32 .scalar).andThen 0 (fun d t =>
      if txOk d = false then badOperand t hk
      else (walkElems (fun u i => sample form d hk coords i u) t [] (activeElems h)).finish (fun vs stop u =>
        match writeV (getLocal u hk) a 4 (mergeBlock h old 4 stop vs) with
        | some y => setLocal u hk y
        | none => u))

/-- `texq` (R259). -/
def queryTexture (a b c : BitVec 7) (s : State) (hk : Nat) : SlotRes :=
  let h := getHart s hk
  match readS h b, readS h c with
  | some desc, some l =>
    if sDest a = false then badOperand s hk
    else (fetchElem s hk desc 32 32 .scalar).andThen 0 (fun d t =>
      if txOk d = false then badOperand t hk
      else
        let size := if l.toNat ≤ txLm1 d then levelW d l.toNat + levelH d l.toNat * 2 ^ 32 else 0
        giveResult t hk a (BitVec.ofNat 64 (size + txLm1 d * 2 ^ 56)))
  | _, _ => badOperand s hk

/-- TEX_BL, R257. -/
def execTexBl (a b c : BitVec 7) (s : State) := runSlot 0x5F 0 (sampleTexture .bilinear a b c) s
/-- TEX_ST, R257. -/
def execTexSt (a b c : BitVec 7) (s : State) := runSlot 0x5F 1 (sampleTexture .stochastic a b c) s
/-- TEX_PT, R257. -/
def execTexPt (a b c : BitVec 7) (s : State) := runSlot 0x5F 2 (sampleTexture .point a b c) s
/-- TEXQ, R259. -/
def execTexq (a b c : BitVec 7) (s : State) := runSlot 0x5F 3 (queryTexture a b c) s

end Sys2Proof.Machine
end

