-- ==== Sys2Proof/Machine/Graphics.lean ====
section
/-! DEFINITION. Mesh output and submission, majors 0x60 and 0x61 (R260 to R262), and the area classifier and fixed
rasteriser of a die (R353 to R362). -/
namespace Sys2Proof.Machine

open Sys2Proof

/-! ## Draws (R353, R355) -/

/-- A draw's descriptor as one value of 128 bytes. -/
def Draw.val (d : Draw) : Nat := d.desc.foldr (fun w n => w.toNat + n * 2 ^ 64) 0
/-- CULL. -/
def Draw.cull (d : Draw) : Nat := part d.val 0 1 % 4
/-- ORD. -/
def Draw.ord (d : Draw) : Bool := (part d.val 0 1).testBit 2
/-- WIDTH. -/
def Draw.width (d : Draw) : Nat := part d.val 8 2
/-- HEIGHT. -/
def Draw.height (d : Draw) : Nat := part d.val 10 2
/-- BINQ. -/
def Draw.binq (d : Draw) : Nat := part d.val 12 2 % 4096
/-- Tiles across the target. -/
def Draw.across (d : Draw) : Nat := (d.width + 7) / 8
/-- Tiles down the target. -/
def Draw.down (d : Draw) : Nat := (d.height + 7) / 8

/-- A counter of a draw's statistics record on a device is added to, if the draw keeps one (R355, R431). -/
def Draw.count (d : Draw) (s : State) (dev ofs n : Nat) : State :=
  let at_ := part d.val 0x38 8
  if at_ = 0 then s else addCounter s dev d.ctx (dev * 4096 + d.binq) (at_ + ofs) n

/-- A counter of the draw that a handle names is added to (R355). -/
def drawStat (s : State) (key ofs n : Nat) : State :=
  match SMap.find s.draws key with
  | none => s
  | some d => d.count s (key / 65536) ofs n

/-- The key of a closed draw: device * 2^32 + number of its opening. -/
def closedKey (k : Nat × Nat) : Nat := k.1 / 65536 * 2 ^ 32 + k.2

/-- The draw of a key and an opening, open, sealed or closed (R356). -/
def drawAt (s : State) (k : Nat × Nat) : Option Draw :=
  match SMap.find s.draws k.1 with
  | some d => if d.num = k.2 then some d else SMap.find s.closedDraws (closedKey k)
  | none => SMap.find s.closedDraws (closedKey k)

/-- A counter of a draw is added to, be it closed by then (R261, R262, R355). -/
def lateStat (s : State) (k : Nat × Nat) (ofs n : Nat) : State :=
  match drawAt s k with
  | none => s
  | some d => d.count s (k.1 / 65536) ofs n

/-- The draw that a hart's task hands its primitives to: the one that named its launch when it was queued (R353). -/
def drawOf (s : State) (t : Task) : Option (Nat × Nat) := (SMap.find s.launches t.launch).bind (fun l => l.draw)

/-- A counter of the draw of a hart's task is added to. -/
def countForTask (s : State) (hk ofs n : Nat) : State :=
  match (getHart s hk).task with
  | some t => (match drawOf s t with | some k => lateStat s k ofs n | none => s)
  | none => s

/-! ## The mesh buffer (R260, R357) -/

/-- The bytes of the words written to a hart's mesh buffer, by offset within it (R357). -/
def writeMesh (s : State) (hk : Nat) (ws : List (Nat × Nat)) : State :=
  match (getHart s hk).task.bind (fun t => t.mesh) with
  | none => s
  | some m => ws.foldl (fun t w => writeN t (scratchLoc (coreOf hk) (m + w.1)) 4 w.2) s

/-- `mout` (R260). Vertex sb + i is counted modulo 2^64, as scalar sums are (DESIGN CHOICE, log 79). -/
def meshOut (a b c : BitVec 7) (s : State) (hk : Nat) : SlotRes :=
  let x := getLocal s hk
  let h := x.h
  match readS h b, readS h c with
  | some first, some w =>
    let slot := bits w 4 0
    let n := bits w 9 5 + 1
    if h.graphics = false ∨ bits w 63 10 ≠ 0 ∨ slot + n > 32 ∨ a.toNat + n > 96 then badOperand s hk
    else match readRun x a.toNat n with
      | none => badOperand s hk
      | some run =>
        let act := activeElems h
        let vertex (i : Nat) : Nat := (first.toNat + i) % 2 ^ 64
        let outs := (act.filter (fun i => decide (vertex i < 256))).flatMap (fun i =>
          (List.range n).map (fun j => (vertex i * 32 + slot + j, laneElem run j i)))
        let s0 := writeMesh s hk (outs.map (fun w => (4 * w.1, w.2)))
        let s1 := modTask s0 hk (fun t => { t with verts := outs.foldl (fun m w => SMap.set 0 m w.1 w.2) t.verts })
        .done (countForTask s1 hk 0 (act.filter (fun i => decide (vertex i ≥ 256))).length)
  | _, _ => badOperand s hk

/-- `mprim` (R260). Primitive sb + i is counted modulo 2^64 (DESIGN CHOICE, log 79). -/
def meshPrim (a b : BitVec 7) (s : State) (hk : Nat) : SlotRes :=
  let x := getLocal s hk
  let h := x.h
  match readS h b, readV x a 1 with
  | some first, some v =>
    if h.graphics = false then badOperand s hk
    else
      let act := activeElems h
      let index (i : Nat) : Nat := (first.toNat + i) % 2 ^ 64
      let outs := (act.filter (fun i => decide (index i < 512))).map (fun i => (index i, elem v i 32 % 2 ^ 24))
      let s0 := writeMesh s hk (outs.map (fun w => (32768 + 4 * w.1, w.2)))
      let s1 := modTask s0 hk (fun t => { t with prims := outs.foldl (fun m w => SMap.set 0 m w.1 w.2) t.prims })
      .done (countForTask s1 hk 8 (act.filter (fun i => decide (index i ≥ 512))).length)
  | _, _ => badOperand s hk

/-! ## Hand-over to the classifier (R261, R262, R356, R358) -/

/-- Triangles join the input of a die's classifier. -/
def feedClassifier (s : State) (dk : Nat) (ts : List Tri) : State :=
  if ts.isEmpty then s
  else postOnce (modDie s dk (fun d => { d with cls := d.cls ++ ts })) (.classifierTriangle dk)

/-- The classifier's input has room (R261). -/
def classifierOpen (s : State) (dk : Nat) : Bool :=
  (getDie s dk).cls.isEmpty || decide ((getDie s dk).cls.length < Config.classifierDepth)

/-- The vertex indices of a primitive. -/
def primVerts (w : Nat) : List Nat := [w % 256, w / 256 % 256, w / 65536 % 256]

/-- The triangle of primitive p of a mesh: the 96 slots of its vertices (R358). -/
def meshTri (key ctx pinst : Nat) (verts : SMap Nat) (p w : Nat) : Tri :=
  { draw := key, ctx := ctx, prim := (pinst * 512 + p) % 2 ^ 32,
    words := (primVerts w).flatMap (fun v => (List.range 32).map (fun k => SMap.get 0 verts (v * 32 + k))),
    mesh := true, payload := 0 }

/-- The hand-over of a mesh: excess, culled and handed primitives; after the seal all that would be handed over are
dropped (R261, R356). -/
def handMesh (s : State) (dk : Nat) (key : Nat × Nat) (ctx pinst : Nat) (verts prims : SMap Nat) (sb sc : Nat) : State :=
  let nv := min sb 256
  let np := min sc 512
  let s1 := lateStat (lateStat s key 0 (sb - nv)) key 8 (sc - np)
  let all := (List.range np).map (fun p => (p, SMap.get 0 prims p))
  let ok := all.filter (fun p => (primVerts p.2).all (fun v => decide (v < nv)))
  let s2 := lateStat s1 key 16 (all.length - ok.length)
  match drawAt s2 key with
  | some d =>
    if d.isOpen then feedClassifier s2 dk (ok.map (fun p => meshTri key.1 ctx pinst verts p.1 p.2))
    else lateStat s2 key 8 ok.length
  | none => s2

/-- `mend` (R261). -/
def meshEnd (b c : BitVec 7) (s : State) (hk : Nat) : SlotRes :=
  let h := getHart s hk
  let dk := dieOf (coreOf hk)
  match readS h b, readS h c, h.task with
  | some sb, some sc, some t =>
    let clear (u : State) : State :=
      modTask (clearMesh u hk) hk (fun t => { t with verts := [], prims := [] })
    if t.idem then
      .done (clear (modTask s hk (fun t => { t with buf := t.buf ++ [.mesh t.verts t.prims sb.toNat sc.toNat] })))
    else if classifierOpen s dk = false then .wait (.notReady true) s
    else match drawOf s t with
      | some key => .done (clear (handMesh s dk key h.ctxid.toNat t.pinst t.verts t.prims sb.toNat sc.toNat))
      | none => .done (clear s)
  | _, _, _ => badOperand s hk

/-- The draw a record of 64 bytes names, when its reserved fields are 0 and the draw is open to the context (R262). -/
def recordDraw (s : State) (dev ctx rec : Nat) : Option (Nat × Nat) :=
  if part rec 0x2A 2 ≠ 0 ∨ part rec 0x2C 4 ≠ 0 ∨ part rec 0x38 8 ≠ 0 then none
  else
    let key := dev * 65536 + part rec 0x28 2
    match SMap.find s.draws key with
    | some d => if d.isOpen && decide (d.ctx = ctx) then some (key, d.num) else none
    | none => none

/-- The triangle of a record (R358). -/
def recordTri (key ctx rec : Nat) : Tri :=
  { draw := key, ctx := ctx, prim := part rec 0x24 4, words := (List.range 9).map (fun k => part rec (4 * k) 4),
    mesh := false, payload := BitVec.ofNat 64 (part rec 0x30 8) }

/-- The 32-bit words of a record. -/
def recordWords (rec : Nat) : List Word := (List.range 16).map (fun k => BitVec.ofNat 32 (part rec (4 * k) 4))

/-- A record of 64 bytes from its words. -/
def wordsRecord (ws : List Word) : Nat := ws.foldr (fun w n => w.toNat + n * 2 ^ 32) 0

/-- The loop of `rast` over the records still to hand over: i and the count are kept in the convoy while it waits
(R262). -/
def rasterRecords (a : BitVec 7) (base : DWord) (total hk : Nat) : Nat → Nat → State → SlotRes
  | 0, count, s => giveResult s hk a (BitVec.ofNat 64 count)
  | left + 1, count, s =>
    let i := total - (left + 1)
    let h := getHart s hk
    let dev := devOfHart hk
    let dk := dieOf (coreOf hk)
    match fetchElem s hk (base + BitVec.ofNat 64 (64 * i)) 64 64 .scalar with
    | .fault c n va t => .trap c n va i count t
    | .miss t => .wait (.notReady false) (keep t i count)
    | .ok rec t =>
      match recordDraw t dev h.ctxid.toNat rec with
      | none => rasterRecords a base total hk left count t
      | some key =>
        if h.idem then
          rasterRecords a base total hk left (count + 1)
            (modTask t hk (fun k => { k with buf := k.buf ++ [.rast key (recordWords rec)] }))
        else if classifierOpen t dk = false then .wait (.notReady true) (keep t i count)
        else rasterRecords a base total hk left (count + 1) (feedClassifier t dk [recordTri key.1 h.ctxid.toNat rec])
where
  /-- The record reached and the count are kept for the slot's next execution. -/
  keep (t : State) (i count : Nat) : State :=
    modHart t hk (fun h => { h with conv := h.conv.map (fun c => { c with elem := i, bitpos := count }) })

/-- `rast` (R262). -/
def rasterize (a b c : BitVec 7) (s : State) (hk : Nat) : SlotRes :=
  let h := getHart s hk
  match readS h b, readS h c with
  | some base, some n =>
    if sDest a = false ∨ n.toNat > 4096 then badOperand s hk
    else if base.toNat % 64 ≠ 0 then .trap cALIGN (alignInfo 64 false) base 0 0 s
    else
      let c := h.curConv
      rasterRecords a base n.toNat hk (n.toNat - c.elem) c.bitpos s
  | _, _ => badOperand s hk

/-! ## The classifier (R358 to R362) -/

/-- A snapped vertex: sX, sY in 1/256 pixel, and the bits of Z. -/
structure Snap where
  x : Int
  y : Int
  z : Nat
deriving DecidableEq, Repr

/-- A vertex from `mend`; none where R358 culls it: a component not finite, w <= 0, or a position out of range. -/
def snapMesh (d : Draw) (slots : List Nat) : Option Snap :=
  match extOf (slots.getD 0 0), extOf (slots.getD 1 0), extOf (slots.getD 2 0), extOf (slots.getD 3 0) with
  | some (.fin x), some (.fin y), some (.fin z), some (.fin w) =>
    if w ≤ 0 then none
    else
      let z' := rneQuot z w
      match extOf z' with
      | some (.fin _) =>
        inRange ⟨rneInt (128 * d.width * (x + w)) w.toNat, rneInt (128 * d.height * (w - y)) w.toNat, z'⟩
      | _ => none
  | _, _, _, _ => none
where
  /-- Positions outside -2^30 to 2^30 - 1 are culled. -/
  inRange (v : Snap) : Option Snap :=
    if -2 ^ 30 ≤ v.x ∧ v.x < 2 ^ 30 ∧ -2 ^ 30 ≤ v.y ∧ v.y < 2 ^ 30 then some v else none

/-- A vertex from `rast` (R358). -/
def snapRecord (x y z : Nat) : Option Snap :=
  match extOf x, extOf y, extOf z with
  | some (.fin a), some (.fin b), some (.fin _) =>
    snapMesh.inRange ⟨rneInt (256 * a) (2 ^ 149), rneInt (256 * b) (2 ^ 149), z⟩
  | _, _, _ => none

/-- The three snapped vertices of a triangle. -/
def snapTri (d : Draw) (t : Tri) : Option (Snap × Snap × Snap) := do
  let v (k : Nat) : Option Snap :=
    if t.mesh then snapMesh d ((t.words.drop (32 * k)).take 32)
    else snapRecord (t.words.getD (3 * k) 0) (t.words.getD (3 * k + 1) 0) (t.words.getD (3 * k + 2) 0)
  let a ← v 0
  let b ← v 1
  let c ← v 2
  some (a, b, c)

/-- E(a, b, c) (R358). -/
def edge (a b : Snap) (x y : Int) : Int := (b.x - a.x) * (y - a.y) - (b.y - a.y) * (x - a.x)

/-- The least and the greatest of three. -/
def span3 (a b c : Int) : Int × Int :=
  let lo (x y : Int) : Int := if x ≤ y then x else y
  let hi (x y : Int) : Int := if x ≤ y then y else x
  (lo a (lo b c), hi a (hi b c))

/-- All three depths lie below 0, or all above 1 (R358). -/
def depthMiss (a b c : Snap) : Bool :=
  let z (v : Snap) : Ext := (extOf v.z).getD (.fin 0)
  let below (v : Snap) : Bool := !(Ext.le (.fin 0) (z v))
  let above (v : Snap) : Bool := !((z v).le (.fin (2 ^ 149)))
  (below a && below b && below c) || (above a && above b && above c)

/-- A sample point lies on the covered side of an edge (R362). -/
def edgeCovers (a b : Snap) (x y : Int) : Bool :=
  let e := edge a b x y
  decide (e > 0) || (decide (e = 0) && (decide (b.y - a.y > 0) || (decide (b.y = a.y) && decide (b.x < a.x))))

/-- The fixed rasteriser covers a pixel of the target (R362). -/
def covers (d : Draw) (a b c : Snap) (px py : Nat) : Bool :=
  let x : Int := 256 * px + 128
  let y : Int := 256 * py + 128
  let v := if edge a b c.x c.y < 0 then (a, c, b) else (a, b, c)
  decide (px < d.width ∧ py < d.height) && edgeCovers v.1 v.2.1 x y && edgeCovers v.2.1 v.2.2 x y
    && edgeCovers v.2.2 v.1 x y

/-- The coverage mask of a tile: bit 8py + px (R361). -/
def coverMask (d : Draw) (a b c : Snap) (tx ty : Nat) : Nat :=
  ((List.range 64).map (fun i => b2n (covers d a b c (8 * tx + i % 8) (8 * ty + i / 8)) * 2 ^ i)).sum

/-- The tiles from the one that holds lo to the one that holds hi, along one axis of n tiles (R361). -/
def touched (lo hi : Int) (n : Nat) : List Nat :=
  (List.range n).filter (fun t => decide (lo < 2048 * (t + 1) ∧ 2048 * (t : Int) ≤ hi))

/-- A signed coordinate as 32 bits. -/
def word32 (z : Int) : Nat := wrapInt 32 z

/-- The argument words of a bin entry (R361). -/
def binArgs (a b c : Snap) (prim mask payload tx ty kind handle : Nat) : List DWord :=
  [(word32 a.x, word32 a.y), (a.z, word32 b.x), (word32 b.y, b.z), (word32 c.x, word32 c.y), (c.z, prim),
   (mask % 2 ^ 32, mask / 2 ^ 32), (payload % 2 ^ 32, payload / 2 ^ 32), (tx + ty * 2 ^ 16, kind + handle * 2 ^ 16)].map
    (fun p => BitVec.ofNat 64 (p.1 + p.2 * 2 ^ 32))

/-- The triangle goes to the fixed rasterisers: its area reaches THR (R359). -/
def isLarge (arth : DWord) (det : Int) : Bool :=
  match extOf (bits arth 31 0) with
  | some (.fin t) => decide ((det.natAbs : Int) * 2 ^ 149 ≥ t * 131072)
  | _ => false

/-- The entries of a triangle, one for each touched tile, or for each in which a pixel is covered (R361). -/
def binEntries (d : Draw) (handle die : Nat) (a b c : Snap) (prim payload : Nat) (large : Bool) : List BinEnt :=
  let xs := span3 a.x b.x c.x
  let ys := span3 a.y b.y c.y
  let key := (part d.val 0x10 4 + prim) % 2 ^ 32
  (touched ys.1 ys.2 d.down).flatMap (fun ty => (touched xs.1 xs.2 d.across).filterMap (fun tx =>
    let mask := if large then coverMask d a b c tx ty else 2 ^ 64 - 1
    if mask = 0 then none
    else some { die := die, tile := ty * d.across + tx, key := key, large := large,
                args := binArgs a b c prim mask payload tx ty (b2n large) handle }))

/-- The primitive buffer takes a triangle from `mend`: its payload; none where PBUF is 0 or full, or a store faults
(R360, R431). -/
def takePbuf (s : State) (key : Nat) (d : Draw) (t : Tri) : State × Option DWord :=
  let base := part d.val 0x28 8
  if t.mesh = false then (s, some t.payload)
  else if base = 0 ∨ d.pnext ≥ part d.val 0x30 4 then (s, none)
  else
    let dev := key / 65536
    let at_ := base + 384 * d.pnext
    let s1 := { s with draws := SMap.put s.draws key { d with pnext := d.pnext + 1 } }
    match ctxWrite s1 dev d.ctx at_ 384 (t.words.foldr (fun w n => w % 2 ^ 32 + n * 2 ^ 32) 0) with
    | some u => (u, some (BitVec.ofNat 64 at_))
    | none => (queueFault s1 (dev * 4096 + d.binq) (BitVec.ofNat 64 at_), none)

/-- What the classifier of a die does with one triangle (R358 to R361). -/
def classify (s : State) (dk : Nat) (t : Tri) : State :=
  match SMap.find s.draws t.draw with
  | none => s
  | some d =>
    match snapTri d t with
    | none => drawStat s t.draw 0x18 1
    | some (a, b, c) =>
      let xs := span3 a.x b.x c.x
      let ys := span3 a.y b.y c.y
      let det := edge a b c.x c.y
      if xs.2 < 0 ∨ ys.2 < 0 ∨ xs.1 ≥ 256 * d.width ∨ ys.1 ≥ 256 * d.height ∨ depthMiss a b c = true then
        drawStat s t.draw 0x18 1
      else if det = 0 ∨ (det < 0 ∧ d.cull = 1) ∨ (det > 0 ∧ d.cull = 2) then drawStat s t.draw 0x20 1
      else
        let p := takePbuf s t.draw d t
        match p.2 with
        | none => drawStat p.1 t.draw 8 1
        | some payload =>
          let large := isLarge (getDie s dk).arth det
          let es := binEntries d (t.draw % 65536) (dieNo dk) a b c t.prim payload.toNat large
          let s1 := drawStat (drawStat p.1 t.draw (if large then 0x28 else 0x30) 1) t.draw 0x38 es.length
          match SMap.find s1.draws t.draw with
          | some e => { s1 with draws := SMap.put s1.draws t.draw { e with bins := e.bins ++ es } }
          | none => s1

/-- Harts of a die that wait in `mend` or `rast` (R261, R262). -/
def classifierWaiters (s : State) (dk : Nat) : List Nat :=
  (s.harts.filter (fun p => dieOf (coreOf p.1) == dk && (p.2.waitsIn 0x60 2 || p.2.waitsIn 0x61 0))).map Prod.fst

/-- Bin entries staged in a die's caddy, of all the draws of its device (R361). -/
def binsStaged (s : State) (dk : Nat) : List BinEnt :=
  ((s.draws.filter (fun p => p.1 / 65536 == devOf dk)).flatMap (fun p => p.2.bins)).filter (fun b => b.die == dieNo dk)

/-- A die's bin staging is full, and its classifier stops until a seal places entries of it (R361; log 46). -/
def stagingFull (s : State) (dk : Nat) : Bool :=
  !(binsStaged s dk).isEmpty && decide ((binsStaged s dk).length ≥ Config.binStaging (dieCfg s dk).caddyMB)

/-- The classifiers of a device go on, entries having left their staging (R361). -/
def rouseClassifiers (s : State) (dev : Nat) : State :=
  (diesOfDev dev).foldl (fun t dk => if (getDie t dk).cls.isEmpty then t else postOnce t (.classifierTriangle dk)) s

/-- A die's classifier takes its next triangle, unless the bin staging is full (R358, R361). -/
def runClassifier (s : State) (dk : Nat) : State :=
  match (getDie s dk).cls with
  | [] => s
  | t :: ts =>
    if stagingFull s dk then s
    else
    let s1 := classify (modDie s dk (fun d => { d with cls := ts })) dk t
    let s2 := if ts.isEmpty then s1 else postOnce s1 (.classifierTriangle dk)
    let s3 := if (classifierWaiters s2 dk).isEmpty then s2 else postOnce s2 (.classifierRoom dk)
    match (SMap.find s3.draws t.draw).bind (fun d => d.sealing) with
    | some id => if ts.isEmpty then postOnce s3 (.drawseal id) else s3
    | none => s3

/-- The input has room, and a waiting `mend` or `rast` goes on (R261, R262). -/
def classifierRoomFor (s : State) (dk : Nat) : State :=
  if classifierOpen s dk then (classifierWaiters s dk).foldl (fun t hk => postOnce t (.convoyIssue hk)) s else s

/-- MOUT, R260. -/
def execMout (a b c : BitVec 7) (s : State) := runSlot 0x60 0 (meshOut a b c) s
/-- MPRIM, R260. -/
def execMprim (a b : BitVec 7) (s : State) := runSlot 0x60 1 (meshPrim a b) s
/-- MEND, R261. -/
def execMend (b c : BitVec 7) (s : State) := runSlot 0x60 2 (meshEnd b c) s
/-- RAST, R262. -/
def execRast (a b c : BitVec 7) (s : State) := runSlot 0x61 0 (rasterize a b c) s
/-- CLASSIFIER_TRIANGLE, R358. -/
def execClassifierTriangle (dk : Nat) (s : State) : Host.Outcome State Fault Refusal := .next (runClassifier s dk)
/-- CLASSIFIER_ROOM, R261. -/
def execClassifierRoom (dk : Nat) (s : State) : Host.Outcome State Fault Refusal := .next (classifierRoomFor s dk)

end Sys2Proof.Machine
end

