-- ==== Sys2Proof/Machine/Commit.lean ====
section
/-! DEFINITION. Commits and cancel tokens (R221, R231 to R234, R299, R349, R351). -/
namespace Sys2Proof.Machine

open Sys2Proof

/-! ## Blending (R232) -/

/-- A channel of a blend: source s, destination d, source alpha al (R232). -/
def blendChannel (op : Nat) (alpha : Bool) (s d al : Nat) : Nat :=
  match op with
  | 0 => s
  | 1 => min 255 (rneDiv (255 * s + d * (255 - al)) 255)
  | 2 => if alpha then rneDiv (255 * al + d * (255 - al)) 255 else rneDiv (s * al + d * (255 - al)) 255
  | 3 => min 255 (s + d)
  | _ => rneDiv (s * d) 255

/-- The pixel a blend store leaves (R232). -/
def blendPixel (op src dst : Nat) : Nat :=
  let ch (x k : Nat) : Nat := x / 2 ^ (8 * k) % 256
  ((List.range 4).map (fun k => blendChannel op (decide (k = 3)) (ch src k) (ch dst k) (ch src 3) * 2 ^ (8 * k))).sum

/-! ## Performing a commit (R221, R232, R299) -/

/-- Four bytes of an address as they are committed so far. -/
def committedWord (s : State) (dev ctx : Nat) (t : Task) (va : Nat) : Nat :=
  valueOf ((List.range 4).map (fun j => committedByte s dev ctx t (va + j)))

/-- A held spawn enters its queue, if the queue still takes records of the context; the entries of one commit may raise
COUNT above CAP (R220, R334). -/
def commitSpawn (s : State) (dev ctx : Nat) (t : Task) (q : Nat) (ws : List DWord) (depth : Nat) : State :=
  match queueFor s dev ctx q with
  | none => s
  | some _ =>
    let e := newEntry s ws depth t.launch (bits (recW ws 3) 31 0) ctx
    enqueue e.2 (dev * 4096 + q) { e.1 with pinst := t.pinst }

/-- One entry of a committing buffer is applied (R220, R232, R253, R261, R262, R299). A mesh or triangle enters a classifier whose input
is full, too: the commit does not wait for it (DESIGN CHOICE, log 95). -/
def applyBuffered (c : Commit) (s : State) (e : Buffered) : State :=
  let t := c.task
  match e with
  | .store sc bs _ evf => storeOut s c.hart c.dev c.ctx t sc evf bs
  | .nibble sc a hi v _ evf => storeOut s c.hart c.dev c.ctx t sc evf [(a, nibbleByte (committedByte s c.dev c.ctx t a) hi v)]
  | .blend a src op _ skip =>
    let v := blendPixel op src (committedWord s c.dev c.ctx t a)
    storeOut s c.hart c.dev c.ctx t 4 false (((List.range 4).map (fun j => (a + j, byteOf v j))).filter (fun p => !skip.contains p.1))
  | .spawn q ws depth => commitSpawn s c.dev c.ctx t q ws depth
  | .addTo a n => dropCounter s c.hart c.dev c.ctx t.queue a n
  | .mesh verts prims nv np =>
    (match drawOf s t with
      | some key => handMesh s c.die key c.ctx t.pinst verts prims nv np
      | none => s)
  | .rast key ws =>
    match drawAt s key with
    | some d => if d.isOpen then feedClassifier s c.die [recordTri key.1 c.ctx (wordsRecord ws)] else lateStat s key 8 1
    | none => s

/-- The bytes a commit writes, by address. -/
def commitBytes : List Buffered → List (Nat × Byte)
  | [] => []
  | .store _ bs _ _ :: es => bs ++ commitBytes es
  | .nibble _ a _ _ _ _ :: es => (a, 0) :: commitBytes es
  | .blend a _ _ _ skip :: es =>
    ((List.range 4).map (fun j => (a + j, (0 : Byte)))).filter (fun p => !skip.contains p.1) ++ commitBytes es
  | _ :: es => commitBytes es

/-- Entries are applied in program order as far as one that sends a store to a register or another node; what is left
follows once that store has performed (R299). -/
def applyEntries (c : Commit) : State → List Buffered → State × List Buffered
  | s, [] => (s, [])
  | s, e :: es =>
    let t := applyBuffered c s e
    if sending t c.task.uid then (t, es) else applyEntries c t es

/-- The first queue that a commit's held spawns find full, or where another producer waits before it (R220, R334). -/
def fullQueue (s : State) (c : Commit) : Option (Nat × Queue) :=
  c.task.buf.findSome? (fun e => match e with
    | .spawn q _ _ => match queueFor s c.dev c.ctx q with
      | some x => if x.admits (.commit c.task.uid) then none else some (c.dev * 4096 + q, x)
      | none => none
    | _ => none)

/-- A commit that has begun goes on, and once every store of it has performed its ticket is retired and its completion word
filled (R221, R231, R299). -/
def continueCommit (s : State) (uid : Nat) (c : Commit) (rest : List Buffered) : State :=
  let r := applyEntries c s rest
  if r.2.isEmpty && !sending r.1 uid then
    closeTask { r.1 with commits := SMap.del r.1.commits uid } c.die c.ctx c.task c.word true
  else { r.1 with commits := SMap.put r.1.commits uid { c with rest := some r.2 } }

/-- A commit waits at a queue, and holds no place at another meanwhile (R334; log 83). -/
def commitWaits (s : State) (uid qk : Nat) : State :=
  holdPlace (giveUpPlaces s (fun x => decide (x = .commit uid) && !(match SMap.find s.queues qk with
    | some q => q.stalled.contains x
    | none => false))) qk (.commit uid)

/-- A released commit performs: its buffer is applied in program order. A full queue that a held spawn is for delays it
(R220, R334). One that would write part of a poisoned sector is not performed, and the context is fenced (R407). -/
def performCommit (s : State) (uid : Nat) : State :=
  match SMap.find s.commits uid with
  | none => s
  | some c =>
    if c.released = false ∨ sending s uid = true then s
    else match c.rest with
      | some rest => continueCommit s uid c rest
      | none =>
        let ws := resolveBytes s c.dev c.ctx (commitBytes c.task.buf)
        if partialPoison s uid ws then
          fenceContext s c.dev c.ctx 9 c.hart 0
        else match fullQueue s c with
          | some (qk, _) => commitWaits s uid qk
          | none =>
            continueCommit (healSectors (giveUpPlaces s (fun x => decide (x = .commit uid))) uid ws) uid c c.task.buf

/-- The sequencer releases the commit of the lowest unretired ticket, if its task has ended (R351). -/
def releaseCommit (s : State) (dom : Nat) : State :=
  match SMap.find s.domains dom with
  | none => s
  | some d =>
    match waitingCommit s dom d.low with
    | none => s
    | some uid =>
      match SMap.find s.commits uid with
      | none => s
      | some c => post { s with commits := SMap.put s.commits uid { c with released := true } } (.commitPerformed uid)

/-! ## Cancel tokens (R234, R349) -/

/-- A running task is cancelled: an idempotent one ends without trace at its next convoy boundary, or at once where its
hart is parked or its wait is withdrawn, and another takes CANCEL (R234). -/
def cancelTask (s : State) (hk : Nat) : State :=
  let h := getHart s hk
  match h.task with
  | none => s
  | some t =>
    if t.idem then if h.ending = .none then endSoon s hk .cancelled else s
    else queueAsync s hk ⟨cCANCEL, t.ginst, 0⟩

/-- A running task arrived at its queue after the cancel token of its instance, which keeps it (R349). -/
def arrivedAfter (s : State) (t : Task) (ctx : Nat) : Bool :=
  match SMap.find s.queues t.queue with
  | some q => match (q.tokensAt t.tile).find? (fun k => k.1 == ctx && k.2.1 == t.ginst) with
    | some k => decide (k.2.2 < t.num)
    | none => false
  | none => false

/-- Harts of a die that run a task of an instance of a context that the token meets (R234, R349). -/
def instanceHarts (s : State) (dk ctx ginst : Nat) : List Nat :=
  (s.harts.filter (fun p => dieOf (coreOf p.1) == dk && decide (p.2.ctxid.toNat = ctx)
    && (match p.2.task with
      | some t => decide (t.ginst = ginst) && !arrivedAfter s t ctx
      | none => false))).map Prod.fst

/-- Queues whose entries a die's scheduler serves: those homed on it, and every bin set (R331, R348). -/
def servedQueues (s : State) (dk : Nat) : List Nat :=
  (s.queues.filter (fun p => p.1 / 4096 == devOf dk && p.2.v && (p.2.kind == 1 || p.2.home == dieNo dk))).map Prod.fst

/-- A token is recorded at a queue, or on a die at a bin set's sub-queues there, which drops staged and set-aside entries that it
names at once (R348, R349). -/
def tokenAtQueue (dk ctx ginst : Nat) (s : State) (qk : Nat) : State :=
  match SMap.find s.queues qk with
  | none => s
  | some q =>
    let k := (ctx, ginst, q.seq)
    let r := if q.kind = 1 then { q with binTokens := q.binTokens.filter (fun x => x != (dieNo dk, k)) ++ [(dieNo dk, k)] }
      else { q with tokens := q.tokens.filter (fun x => x != k) ++ [k] }
    (q.entries.filter (fun e => q.serves e.tile == dieNo dk && tokenNames e k && (e.staged.isSome || e.aside.isSome))).foldl
      (fun t e => dropEntry t qk e false true) { s with queues := SMap.put s.queues qk r }

/-- A token has reached a die and is still on its way to the queue, or the sub-queue of a tile, that a task starts from, so that the
task meets it at its core (R348, R349). -/
def meetsToken (s : State) (dk qk tile ctx ginst : Nat) : Bool :=
  match SMap.find s.queues qk with
  | none => false
  | some q => s.tokens.any (fun p => p.2.dev == qk / 4096 && p.2.ctx == ctx && p.2.ginst == ginst
      && !p.2.dies.contains dk && p.2.dies.contains (qk / 4096 * 8 + q.serves tile))

/-- Walks of an instance on a die start no further node (R384). -/
def cancelWalks (s : State) (dk ctx ginst : Nat) : State :=
  { s with walks := SMap.each (fun _ w =>
      if w.die = dk ∧ w.ctx = ctx ∧ w.ginst = ginst then { w with cancelled := true } else w) s.walks }

/-- A token reaches the next die that has still to receive it: its queues record it and its running tasks are cancelled.
A die that holds 256 tokens lets it wait. When every die holds it the count of the issuing `cancel` falls (R234,
R349). -/
def deliverToken (s : State) (id : Nat) : State :=
  match SMap.find s.tokens id with
  | none => s
  | some k =>
    match k.dies with
    | [] => s
    | dk :: rest =>
      if (getDie s dk).tokens.length ≥ 256 then s
      else
        let s1 := modDie s dk (fun d => { d with tokens := d.tokens ++ [(k.ctx, k.ginst, id)] })
        let s2 := (servedQueues s1 dk).foldl (tokenAtQueue dk k.ctx k.ginst) s1
        let s2 := cancelWalks s2 dk k.ctx k.ginst
        let s3 := (instanceHarts s2 dk k.ctx k.ginst).foldl cancelTask s2
        if rest.isEmpty then
          postOnce { s3 with tokens := SMap.del s3.tokens id } (.memoryOpPerformed k.op)
        else post { s3 with tokens := SMap.put s3.tokens id { k with dies := rest } } (.cancelToken id)

/-- COMMIT_RELEASE, R351. -/
def execCommitRelease (d : Nat) (s : State) : Host.Outcome State Fault Refusal := .next (releaseCommit s d)
/-- COMMIT_PERFORMED, R221. -/
def execCommitPerformed (uid : Nat) (s : State) : Host.Outcome State Fault Refusal := .next (performCommit s uid)
/-- CANCEL_TOKEN, R349. -/
def execCancelToken (id : Nat) (s : State) : Host.Outcome State Fault Refusal := .next (deliverToken s id)

end Sys2Proof.Machine
end

