-- ==== Sys2Proof/Machine/System.lean ====
section
/-! DEFINITION. System instructions, majors 0x64 to 0x67 (R263 to R283): the system registers (R26 to R40, R102, R197,
R198, R202, R305, R319, R359, R397), calls and returns, translations, hart images and `pack`. -/
namespace Sys2Proof.Machine

open Sys2Proof

/-! ## Access (R27, R28) -/

/-- The access a mode has to a register: none (a dash), read only, read and write, or write one to clear. -/
inductive RegAccess where
  | dash | ro | rw | w1c
deriving DecidableEq, Repr

/-- Accesses of a register in user, supervisor and firmware mode; none for a number not in the table (R28). -/
def regRow (n : Nat) : Option (RegAccess × RegAccess × RegAccess) :=
  if n = 0x000 ∨ n = 0x003 ∨ n = 0x004 ∨ n = 0x011 then some (.ro, .rw, .rw)
  else if n = 0x001 ∨ n = 0x002 ∨ n = 0x005 ∨ n = 0x006 then some (.dash, .rw, .rw)
  else if n = 0x010 ∨ n = 0x012 ∨ n = 0x013 ∨ n = 0x014 ∨ n = 0x025 then some (.rw, .rw, .rw)
  else if n = 0x015 ∨ n = 0x018 ∨ n = 0x019 ∨ n = 0x021 ∨ n = 0x022 ∨ n = 0x024 then some (.ro, .ro, .ro)
  else if n = 0x020 ∨ n = 0x023 then some (.ro, .ro, .rw)
  else if n = 0x030 ∨ n = 0x031 ∨ (0x040 ≤ n ∧ n ≤ 0x053) ∨ n = 0x071 then some (.dash, .rw, .rw)
  else if n = 0x032 ∨ n = 0x033 then some (.ro, .w1c, .w1c)
  else if (0x060 ≤ n ∧ n ≤ 0x067) ∨ n = 0x070 then some (.dash, .dash, .rw)
  else none

/-- The access of a register in a mode (R27). -/
def regAccess (mode n : Nat) : Option RegAccess :=
  (regRow n).map (fun r => if mode = 0 then r.1 else if mode = 3 then r.2.2 else r.2.1)

/-- The mode can reach the register, or the number names none (R27). -/
def regLegal (n : Nat) (s : State) (hk : Nat) : Bool := decide (regAccess (getHart s hk).mode n ≠ some .dash)

/-- The bits of a register that a write reaches (R30 to R40, R197, R202, R305, R319, R359). -/
def regMask (n : Nat) : DWord :=
  if n = 0x000 then 0xFFFFFFFF000001F0
  else if n = 0x001 then 0xFFFFFFFF000001FF
  else if n = 0x002 then 0xFFFFFFFFFFFFFFF3
  else if n = 0x003 then 0x8F
  else if n = 0x005 then 0xFFFFFFFFFFFFFFF0
  else if n = 0x010 then 0x37F37
  else if n = 0x012 then 0xFFF80F
  else if n = 0x013 then 0xFFFFFFFF
  else if n = 0x014 then 0x3F01FF00FF
  else if n = 0x023 then 0xFFFF
  else if n = 0x030 ∨ n = 0x031 then 0xC0FFFF07
  else if 0x040 ≤ n ∧ n ≤ 0x04F then 0xFFFF8000FFFF
  else if 0x050 ≤ n ∧ n ≤ 0x053 then 0xF000FFFF3FFF3FFF
  else if 0x060 ≤ n ∧ n ≤ 0x067 then 0xF87FFFFFC1FFFFFF
  else if n = 0x070 then 0xFFFFFFFF
  else 0xFFFFFFFFFFFFFFFF

/-- A value as a register keeps it: the old bits where a write does not reach (R2). -/
def mergeReg (n : Nat) (old v : DWord) : DWord := (old &&& ~~~(regMask n)) ||| (v &&& regMask n)

/-! ## Reading -/

/-- What a hart register reads; none for a register of the core or die (R28, R29). -/
def Hart.reg (h : Hart) (n : Nat) : Option DWord :=
  match n with
  | 0x000 => some h.hstat | 0x001 => some h.hcause | 0x002 => some h.hepc | 0x003 => some h.cvr
  | 0x004 => some h.vri | 0x005 => some h.htvec | 0x006 => some h.hscr | 0x010 => some h.vcfg
  | 0x011 => some (h.vl.setWidth 64) | 0x012 => some h.xcfg | 0x013 => some (h.sprd.setWidth 64)
  | 0x014 => some h.wbase | 0x015 => some (BitVec.ofNat 64 h.valloc) | 0x018 => some (BitVec.ofNat 64 h.lcnt)
  | 0x019 => some (BitVec.ofNat 64 h.scnt) | 0x023 => some (h.ctxid.setWidth 64) | 0x024 => some h.rstat
  | 0x025 => some h.rbar | 0x071 => some h.ordtmo
  | _ => none

/-- What a register reads for a hart (R28, R29, R38, R39). -/
def sysReg (s : State) (hk n : Nat) : DWord :=
  match (getHart s hk).reg n with
  | some v => v
  | none =>
    let c := getCore s (coreOf hk)
    let d := getDie s (dieOf (coreOf hk))
    if n = 0x020 then tbOf s hk
    else if n = 0x021 then hartId hk
    else if n = 0x022 then coreWord s (coreOf hk)
    else if n < 0x032 then c.accown (n - 0x030)
    else if n < 0x040 then c.atsat (n - 0x032)
    else if n < 0x050 then SMap.get 0 c.mst (n - 0x040)
    else if n < 0x060 then SMap.get 0 c.spw (n - 0x050)
    else if n < 0x070 then SMap.get 0 d.art (n - 0x060)
    else d.arth

/-! ## Reserved values (R29) -/

/-- A value reserved in a hart register's field map, or outside the ranges of WBASE and VL, for the hart it is written
to (R10 to R12, R30, R33, R36, R37, R102, R202). -/
def Hart.reserved (h : Hart) (n : Nat) (v : DWord) : Bool :=
  match n with
  | 0x000 => decide (bits v 7 6 = 2)
  | 0x003 => decide (bits v 3 2 = 3 ∨ bits v 1 0 = 3)
  | 0x010 => decide (bits v 2 0 > 4 ∨ bits v 11 8 > 8)
  | 0x011 => decide (v.toNat > h.vlmax)
  | 0x012 => decide (bits v 13 11 = 7 ∨ bits v 3 0 > 8)
  | 0x014 => !baseSOk (bits v 7 0) || !baseVOk h (bits v 24 16)
      || (decide (bits v 37 32 ≠ 0) && decide (bits v 37 32 ≥ h.rotR))
  | _ => false

/-- WAYS of a die's other valid ART registers (R319). -/
def otherWays (d : Die) (i : Nat) : Nat :=
  ((List.range 8).map (fun j => if j = i then 0 else artWays d j)).sum

/-- A value reserved in a register's field map (R29, R197, R305, R319, R359). -/
def regReserved (s : State) (hk n : Nat) (v : DWord) : Bool :=
  let dk := dieOf (coreOf hk)
  if 0x040 ≤ n ∧ n ≤ 0x04F then bit v 31 && decide (bits v 15 0 = 0)
  else if 0x050 ≤ n ∧ n ≤ 0x053 then
    (bit v 63 && decide (bits v 29 16 < bits v 13 0)) || (bit v 60 && !(bit v 62 && bit v 61))
  else if 0x060 ≤ n ∧ n ≤ 0x067 then
    decide (bits v 62 59 > 8) || (bit v 63 && (decide (bits v 54 30 < bits v 24 0)
      || decide (bits v 62 59 + otherWays (getDie s dk) (n - 0x060) + caddyWays s dk > 12)))
  else if n = 0x070 then
    (bit v 31 && decide (bits v 30 0 ≠ 0)) || (decide (bits v 30 23 = 0xFF) && decide (bits v 22 0 ≠ 0))
  else (getHart s hk).reserved n v

/-! ## Writing -/

/-- The hart after a hart register is written with a value it keeps: SEW or GRP changed zeroes VL, ROT changed zeroes
ROF (R12, R28, R36). -/
def Hart.setReg (h : Hart) (n : Nat) (v : DWord) : Hart :=
  match n with
  | 0x000 => { h with hstat := v }
  | 0x001 => { h with hcause := v }
  | 0x002 => { h with hepc := v }
  | 0x003 => { h with cvr := v }
  | 0x004 => { h with vri := v }
  | 0x005 => { h with htvec := v }
  | 0x006 => { h with hscr := v }
  | 0x010 => { h with
      vcfg := v
      vl := if bits v 2 0 ≠ bits h.vcfg 2 0 ∨ bits v 5 4 ≠ bits h.vcfg 5 4 then 0 else h.vl
      wbase := if bits v 11 8 ≠ bits h.vcfg 11 8 then withBits h.wbase 37 32 0 else h.wbase }
  | 0x011 => { h with vl := v.setWidth 16 }
  | 0x012 => { h with xcfg := v }
  | 0x013 => { h with sprd := v.setWidth 32 }
  | 0x014 => { h with wbase := v }
  | 0x023 => { h with ctxid := v.setWidth 16, ustride := none }
  | 0x025 => { h with rbar := v }
  | 0x071 => { h with ordtmo := v }
  | _ => h

/-- An entry of the matrix slot table is written: in force at once when it leaves no valid entry or starts the rotation,
else at the next slot boundary (R198). -/
def Core.writeMst (c : Core) (i : Nat) (v : DWord) : Core :=
  let m := SMap.set 0 c.mst i v
  match mstValid m, c.mstSlot with
  | [], _ => { c with mst := m, mstLive := m, mstSlot := none }
  | e :: _, none => { c with mst := m, mstLive := m, mstSlot := some (e, bits (SMap.get 0 m e) 15 0, 0) }
  | _ :: _, some _ => { c with mst := m }

/-- A firmware write of TB on the master's die, above the current value, is distributed as a step to be taken at the
present time (R397). -/
def writeTb (s : State) (hk : Nat) (v : DWord) : State :=
  if dieOf (coreOf hk) = 0 ∧ (tbOf s hk).toNat < v.toNat then
    post { s with tbStep := some ((tbOf s hk).toNat, v.toNat) } .tbStep
  else s

/-- A register is written with a value it keeps (R29, R38, R197, R236, R305, R319, R359). -/
def setSysReg (s : State) (hk n : Nat) (v : DWord) : State :=
  let ck := coreOf hk
  if n = 0x020 then writeTb s hk v
  else if n = 0x025 then (ropeOf s hk).foldl (fun t m => modHart t m (fun h => h.setReg n v)) s
  else if n = 0x030 ∨ n = 0x031 then modCore s ck (fun c => c.setAccown (n - 0x030) v)
  else if 0x040 ≤ n ∧ n ≤ 0x04F then modCore s ck (fun c => c.writeMst (n - 0x040) v)
  else if 0x050 ≤ n ∧ n ≤ 0x053 then modCore s ck (fun c => { c with spw := SMap.set 0 c.spw (n - 0x050) v })
  else if 0x060 ≤ n ∧ n ≤ 0x067 then writeArt s (dieOf ck) (n - 0x060) v
  else if n = 0x070 then modDie s (dieOf ck) (fun d => { d with arth := v })
  else modHart s hk (fun h => h.setReg n v)

/-- Bits of ATSATn that are 1 in the value become 0 (R2, R38). -/
def clearAtsat (s : State) (hk i : Nat) (v : DWord) : State :=
  modCore s (coreOf hk) (fun c => c.putAtsat i (c.atsat i &&& ~~~v))

/-- A write of ACCOWN waits for the matrix instructions in flight that name the tile (R25). -/
def regWaits (s : State) (hk n : Nat) : Bool :=
  decide (n = 0x030 ∨ n = 0x031) && tileBusy (getCore s (coreOf hk)) [n - 0x030]

/-- A write of a register by a mode that may make it, and what follows it; a write of a read-only register is ignored, a
reserved value raises ILLEGAL-OPERAND and changes nothing (R2, R27, R29). -/
def regWrite (n : Nat) (v : DWord) (k : State → SlotRes) (s : State) (hk : Nat) : SlotRes :=
  match regAccess (getHart s hk).mode n with
  | some .rw =>
    let w := mergeReg n (sysReg s hk n) v
    if regReserved s hk n w then badOperand s hk
    else if regWaits s hk n then .wait (.notReady false) s
    else k (setSysReg s hk n w)
  | some .w1c => k (clearAtsat s hk (n - 0x032) v)
  | some .ro => k s
  | _ => badOperand s hk

/-! ## Set-length requests (R20, R102) -/

/-- The part of member k and the total of a grant of T elements to n members (R20). -/
def grantShare (n T k : Nat) : Nat × Nat :=
  if T ≥ n then (T / n, n * (T / n)) else (if k < T then 1 else 0, T)

/-- The decision of a set-length request is recorded for every member: its own part and the total; or that their
configurations differ (R20). -/
def recordGrant (s : State) (hk : Nat) (T : Option Nat) : State :=
  recordRuling s hk (fun k => match T with
    | some t => .granted (grantShare (crewOf s hk).length t k).1 (grantShare (crewOf s hk).length t k).2
    | none => .differ)

/-- A hart takes its part of a grant: VL, and the total to sd, which is pushed (R102). -/
def takeGrant (a : BitVec 7) (part total : Nat) (s : State) (hk : Nat) : SlotRes :=
  .done (modHart s hk (fun h => Hart.result { h with vl := BitVec.ofNat 16 part } a (BitVec.ofNat 64 total)))

/-- The members' configurations agree in SEW and GRP (R20). -/
def sameShape (s : State) (hk : Nat) : Bool :=
  let h := getHart s hk
  (crewOf s hk).all (fun m => decide ((getHart s m).sewCode = h.sewCode ∧ (getHart s m).grp = h.grp))

/-- `sswap` of VL (R20, R102, R264). In a rope the leader's sa is the length requested; where the leader's slot was removed
nothing is done (DESIGN CHOICE, log 73). -/
def setLength (a b : BitVec 7) (s : State) (hk : Nat) : SlotRes :=
  let h := getHart s hk
  match readS h b with
  | none => badOperand s hk
  | some req =>
    if sDest a = false then badOperand s hk
    else match h.recorded with
      | some (.granted part total) => takeGrant a part total s hk
      | some .differ => badOperand s hk
      | some _ => .done s
      | none =>
        if isMember s hk then .wait (.notReady false) s
        else if sameShape s hk = false then badOperand (recordGrant s hk none) hk
        else
          let n := (crewOf s hk).length
          let T := min req.toNat (n * h.vlmax)
          let g := grantShare n T 0
          takeGrant a g.1 g.2 (recordGrant s hk (some T)) hk

/-! ## sget, sset and sswap (R264) -/

/-- `sget` (R264). -/
def readSys (a : BitVec 7) (n : Nat) (s : State) (hk : Nat) : SlotRes :=
  if sDest a = false ∨ (regRow n).isNone = true then badOperand s hk
  else giveResult s hk a (sysReg s hk n)

/-- `sset` (R264). -/
def writeSys (a : BitVec 7) (n : Nat) (s : State) (hk : Nat) : SlotRes :=
  match readS (getHart s hk) a with
  | none => badOperand s hk
  | some v => regWrite n v .done s hk

/-- The old value of a register goes to sd as the windows stood before the write, which a new WBASE renames for the later
slots only (R37, R264). -/
def giveOld (g : Hart) (s : State) (hk : Nat) (a : BitVec 7) (v : DWord) : SlotRes :=
  .done (modHart s hk (fun h => { Hart.result { h with wbase := g.wbase } a v with wbase := h.wbase }))

/-- `sswap`: bits [31:12] of the extension word are 0, and VL makes a set-length request (R264). -/
def swapSys (a b : BitVec 7) (e : Word) (s : State) (hk : Nat) : SlotRes :=
  let n := bits e 11 0
  match readS (getHart s hk) b with
  | none => badOperand s hk
  | some v =>
    if bits e 31 12 ≠ 0 ∨ sDest a = false then badOperand s hk
    else if n = 0x011 then setLength a b s hk
    else
      regWrite n v (fun t => giveOld (getHart s hk) t hk a (sysReg s hk n)) s hk

/-! ## Calls, returns and waits (R270, R271, R275, R276) -/

/-- `scall` and `brk`: the trap records its slot as complete (R270, R271). -/
def callTrap (cause : Nat) (i : BitVec 14) (s : State) (_hk : Nat) : SlotRes := .trap cause i.toNat 0 0xFFFF 0 s

/-- `eret` (R275). -/
def returnTrap (s : State) (hk : Nat) : SlotRes :=
  let h := getHart s hk
  if h.pmode > h.mode ∨ h.pmode = 2 then badOperand s hk
  else .gone (setHart s hk (h.leave (isFwCore s (coreOf hk))))

/-- `wfi` (R276). -/
def waitInterrupt (s : State) (hk : Nat) : SlotRes :=
  let h := getHart s hk
  if h.grant.isSome || !h.async.isEmpty then .done s else .wait .wfi s

/-- `halt` (R276). -/
def haltHart (s : State) (hk : Nat) : SlotRes :=
  let h := getHart s hk
  if h.lcnt = 0 ∧ h.scnt = 0 then .gone (idleHart s hk) else .wait (.notReady false) s

/-! ## Translations (R277, R278) -/

/-- An entry is entered into both TLBs of a core. -/
def bothTlbs (c : Core) (e : TlbEnt) (va : Nat) : Core := coreFill (coreFill c e va .scalar) e va .gather

/-- `tlbw` in firmware mode: the entry word for the page that holds the address, tagged with CTXID (R277). Bits 63 to 56 of the
address are ignored, as `tlbr` and `tlbi` ignore them (DESIGN CHOICE, log 92). -/
def installEntry (s : State) (hk : Nat) (va e : DWord) : State :=
  let v := va.toNat % 2 ^ 56
  let z := entrySize e
  modCore s (coreOf hk) (fun c => bothTlbs c ⟨(getHart s hk).ctxid.toNat, v >>> z, z, e⟩ v)

/-- What the walk that `tlbw` requests comes to: filled, failed with a status, or still to be answered by the cluster's translation
service core (R277, R312, R313). -/
def requestWalk (s : State) (hk : Nat) (va : DWord) : Option (Nat × State) × State :=
  let v := va.toNat % 2 ^ 56
  let clk := clusKey (coreOf hk)
  let ctx := (getHart s hk).ctxid.toNat
  let cl := getClus s clk
  match cl.fails.find? (fun f => f.1 == hk && f.2.1 == ctx && f.2.2.1 == v / 65536) with
  | some f => (some (if f.2.2.2 = 0 then 1 else 2, setClus s clk { cl with fails := cl.fails.filter (fun g => g != f) }), s)
  | none => match tlbFind cl.ctlb ctx v with
    | some e => (some (0, modCore s (coreOf hk) (fun c => bothTlbs c e v)), s)
    | none => (none, requestTranslation s hk ctx va 0)

/-- `tlbw` (R277). -/
def writeTlb (a b c : BitVec 7) (s : State) (hk : Nat) : SlotRes :=
  let h := getHart s hk
  match readS h b, readS h c with
  | some va, some e =>
    if sDest a = false then badOperand s hk
    else if h.mode = 3 then giveResult (installEntry s hk va e) hk a 0
    else if c.toNat ≠ 127 then badOperand s hk
    else match requestWalk s hk va with
      | (some r, _) => giveResult r.2 hk a (BitVec.ofNat 64 r.1)
      | (none, t) => .wait (.notReady false) t
  | _, _ => badOperand s hk

/-- The entry a core's TLBs hold for an address of a context (R277). -/
def heldEntry (c : Core) (ctx va : Nat) : DWord :=
  match tlbFind c.tlb ctx va with
  | some e => e.entry
  | none => match tlbFind (c.gtlb.map Prod.snd) ctx va with
    | some e => e.entry
    | none => 0

/-- `tlbr` (R277). -/
def readTlb (a b : BitVec 7) (s : State) (hk : Nat) : SlotRes :=
  let h := getHart s hk
  match readS h b with
  | none => badOperand s hk
  | some va =>
    if sDest a = false then badOperand s hk
    else giveResult s hk a (heldEntry (getCore s (coreOf hk)) h.ctxid.toNat (va.toNat % 2 ^ 56))

/-- A TLB entry that `tlbi` leaves: another context's, or another page's (R278). -/
def TlbEnt.stays (ctx va : Nat) (whole : Bool) (e : TlbEnt) : Bool :=
  !(decide (e.ctx = ctx) && (whole || decide (e.page = va >>> e.size)))

/-- A core's TLBs without the dropped entries. -/
def dropCore (ctx va : Nat) (whole : Bool) (c : Core) : Core :=
  { c with tlb := c.tlb.filter (TlbEnt.stays ctx va whole), gtlb := c.gtlb.filter (fun g => g.2.stays ctx va whole) }

/-- The unit-stride registers of the harts of some cores without the dropped entries (R311). -/
def dropUnit (onCore : Nat → Bool) (ctx va : Nat) (whole : Bool) (s : State) : State :=
  { s with harts := SMap.each (fun k h =>
    if onCore (coreOf k) && decide (h.ctxid.toNat = ctx) then
      { h with ustride := h.ustride.filter (TlbEnt.stays ctx va whole) }
    else h) s.harts }

/-- The entries a selector names are dropped, on the issuing core or on every core and cluster of its device. A miss that may
have read a table entry on its way to a dropped page, of whatever size, before then fills nothing (R277, R278, R309). -/
def dropEntries (s : State) (hk sel ctx va : Nat) : State :=
  let whole := decide (sel % 2 = 1)
  let dev := devOfHart hk
  if sel < 2 then
    dropUnit (fun k => k == coreOf hk) ctx va whole (modCore s (coreOf hk) (dropCore ctx va whole))
  else
    dropUnit (fun k => devOf (dieOf k) == dev) ctx va whole
      { s with
        cores := SMap.each (fun k c => if devOf (dieOf k) = dev then dropCore ctx va whole c else c) s.cores
        clusters := SMap.each (fun k c => if devOf (k / 16) = dev then
          { c with ctlb := c.ctlb.filter (TlbEnt.stays ctx va whole),
                   misses := c.misses.map (fun m => if m.ctx = ctx ∧ (whole = true ∨ m.va.toNat % 2 ^ 56 / 2 ^ 30 = va / 2 ^ 30) then
                     { m with stale := true } else m) } else c) s.clusters }

/-- The outstanding operations made in a context that may have used the entries a selector names: those of the issuing core, or of
its device (R278). -/
def accessesOf (s : State) (hk sel ctx : Nat) : List Nat :=
  (s.ops.filter (fun p => decide (p.2.ctx = devOfHart hk * 65536 + ctx)
    && (if sel < 2 then coreOf p.2.hart == coreOf hk else devOfHart p.2.hart == devOfHart hk))).map Prod.fst

/-- `tlbi` (R278): its count falls when the accesses that may have used a dropped entry have performed. Bits 63 to 48 of the selector
are ignored (DESIGN CHOICE, log 92). -/
def invalidate (b c : BitVec 7) (s : State) (hk : Nat) : SlotRes :=
  let h := getHart s hk
  match readS h b, readS h c with
  | some va, some sel =>
    if bits sel 31 2 ≠ 0 ∨ (h.mode ≠ 3 ∧ bits sel 47 32 ≠ 0) then badOperand s hk
    else if counterFull h 2 then .wait (.notReady false) s
    else
      let ctx := if h.mode = 3 then bits sel 47 32 else h.ctxid.toNat
      .done (issueOp (dropEntries s hk (bits sel 1 0) ctx (va.toNat % 2 ^ 56))
        { hart := hk, counter := 2, scope := 4, after := accessesOf s hk (bits sel 1 0) ctx })
  | _, _ => badOperand s hk

/-! ## Hart images (R279 to R281) -/

/-- Bytes of a hart's image. -/
def imageSize (h : Hart) : Nat := 0x1F00 + 128 * h.valloc

/-- The registers at offsets 0x0008 to 0x006F of an image, in order; FADDR, which has no number, as 0xFFF (R279). -/
def imageRegs : List Nat := [0x000, 0x001, 0x002, 0x003, 0x004, 0x006, 0xFFF, 0x010, 0x011, 0x012, 0x013, 0x014, 0x025]

/-- 64-bit word i of a 1,024-bit register. -/
def regWord (v : VReg) (i : Nat) : DWord := BitVec.ofNat 64 (v.toNat >>> (64 * i))

/-- The held transfer as an image holds it, the whole word 0 when there is none; a transfer that is not taken is not held (R97, R279;
DESIGN CHOICE, log 90). -/
def heldWord (h : Hart) : DWord :=
  match h.held with
  | some t => BitVec.ofNat 64 (t.toNat / 16 * 16 + 1)
  | none => 0

/-- Register k of the kept last-result file: q0 to q3, then the pending entries (R279). -/
def keptReg (q : QFile) (k : Nat) : VReg := if k < 4 then q.at k else q.pend.getD (k - 4) 0

/-- Word k (8 bytes) of a hart's image (R279). -/
def imageWord (x : Local) (k : Nat) : DWord :=
  let h := x.h
  if k = 0 then BitVec.ofNat 64 (h.valloc + h.ctxid.toNat * 2 ^ 16 + h.depth % 256 * 2 ^ 32 + h.sticky.toNat * 2 ^ 40)
  else if k < 14 then
    let n := imageRegs.getD (k - 1) 0
    if n = 0xFFF then h.faddr else (h.reg n).getD 0
  else if k = 14 then heldWord h
  else if k = 15 then 0
  else if k < 272 then h.phys (k - 16)
  else if k < 528 then regWord (SMap.get 0 h.oregs ((k - 272) / 16)) ((k - 272) % 16)
  else if k < 640 then regWord (SMap.get 0 h.masks (1 + (k - 528) / 16)) ((k - 528) % 16)
  else if k < 736 then regWord (keptReg h.kept ((k - 640) / 16)) ((k - 640) % 16)
  else if k < 992 then
    BitVec.ofNat 64 ((SMap.get 0 h.dtab (2 * (k - 736))).toNat + (SMap.get 0 h.dtab (2 * (k - 736) + 1)).toNat * 2 ^ 32)
  else match h.vPhys ((k - 992) / 16) with
    | some p => regWord (SMap.get 0 x.pool p) ((k - 992) % 16)
    | none => 0

/-- Piece i of an image: 64 bytes. -/
def imagePiece (x : Local) (i : Nat) : Nat :=
  ((List.range 8).map (fun j => (imageWord x (8 * i + j)).toNat * 2 ^ (64 * j))).sum

/-- A piece is written past any buffer (R280). -/
def storePast (x : Local) (s : State) (hk : Nat) (a : Acc) : Option State :=
  if (accRefusal s hk .store a).isSome then some s
  else if noRoom s hk true a.key a.n then none
  else some (directWrite (a.pieces.foldl (fun t p => if p.1 % 64 = 0 then clearPoison t p.1 p.2 else t) s) hk a
    (imagePiece x a.idx))

/-- `hsave` (R280). -/
def saveHart (b : BitVec 7) (s : State) (hk : Nat) : SlotRes :=
  let x := getLocal s hk
  match readS x.h b with
  | none => badOperand s hk
  | some base =>
    if drained s hk = false then .wait (.notReady false) s
    else finishStore hk 4 false true (storePast x · hk ·)
      (fun a => if (accRefusal s hk .store a).isSome then [] else fabricPieces (revOwns s hk) true a.va (imagePiece x a.idx) a.pieces)
      (checkAccs s hk .store 64 .scalar [] (pieces64 x.h base.toNat (imageSize x.h / 64)))

/-- An image as `hrest` reads it: word k of the loaded bytes. -/
def loadedWord (ws : List DWord) (k : Nat) : DWord := ws.getD k 0

/-- A 1,024-bit register from word k of an image on. -/
def loadedReg (ws : List DWord) (k : Nat) : VReg :=
  BitVec.ofNat 1024 (((List.range 16).map (fun j => (loadedWord ws (k + j)).toNat * 2 ^ (64 * j))).sum)

/-- The hart against whose VCFG the image's WBASE and VL are checked (R281). -/
def Hart.withCfg (h : Hart) (ws : List DWord) : Hart := { h with vcfg := mergeReg 0x010 0 (loadedWord ws 8) }

/-- The image breaks a check of R281. -/
def imageBad (h : Hart) (ws : List DWord) : Bool :=
  let w0 := loadedWord ws 0
  let hs := loadedWord ws 1
  let g := h.withCfg ws
  decide (bits w0 15 0 ≠ h.valloc) || decide (bits w0 31 16 ≠ h.ctxid.toNat) || decide (bits w0 63 46 ≠ 0)
    || decide (bits hs 7 6 > h.mode) || decide (bits (loadedWord ws 14) 3 1 ≠ 0) || decide (loadedWord ws 15 ≠ 0)
    || (List.range 13).any (fun j =>
      let n := imageRegs.getD j 0
      g.reserved n (mergeReg n 0 (loadedWord ws (1 + j))))

/-- The registers of an image's first 128 bytes are restored; MODE, IDEM and ORD keep their values (R281). -/
def restoreRegs (h : Hart) (ws : List DWord) : Hart :=
  let w0 := loadedWord ws 0
  let reg (n k : Nat) : DWord := mergeReg n 0 (loadedWord ws k)
  let held := loadedWord ws 14
  { h with
    sticky := BitVec.ofNat 6 (bits w0 45 40), depth := bits w0 39 32,
    hstat := mergeReg 0x000 h.hstat (loadedWord ws 1), hcause := reg 0x001 2, hepc := reg 0x002 3, cvr := reg 0x003 4,
    vri := loadedWord ws 5, hscr := loadedWord ws 6, faddr := loadedWord ws 7, vcfg := reg 0x010 8,
    vl := (loadedWord ws 9).setWidth 16, xcfg := reg 0x012 10, sprd := (loadedWord ws 11).setWidth 32,
    wbase := reg 0x014 12, rbar := loadedWord ws 13, sprdKept := none :: h.sprdKept.drop 1,
    held := if bit held 0 then some (BitVec.ofNat 64 (held.toNat / 16 * 16)) else none }

/-- The register files of an image are restored; the pending entries are those CVR.QP counts (R33, R281). -/
def restoreFiles (h : Hart) (ws : List DWord) : Hart :=
  let pend := (List.range (min 2 (bits (loadedWord ws 4) 3 2))).map (fun k => loadedReg ws (704 + 16 * k))
  { h with
    sregs := (List.range 256).foldl (fun m i => SMap.set 0 m i (loadedWord ws (16 + i))) [],
    oregs := (List.range 16).foldl (fun m i => SMap.set 0 m i (loadedReg ws (272 + 16 * i))) [],
    masks := (List.range 7).foldl (fun m i => SMap.set 0 m (1 + i) (loadedReg ws (528 + 16 * i))) [],
    kept := ⟨loadedReg ws 640, loadedReg ws 656, loadedReg ws 672, loadedReg ws 688, pend⟩,
    dtab := (List.range 512).foldl (fun m i =>
      SMap.set 0 m i (BitVec.ofNat 32 ((loadedWord ws (736 + i / 2)).toNat >>> (32 * (i % 2))))) [] }

/-- The vector allocation of an image is restored. -/
def restorePool (h : Hart) (ws : List DWord) (pool : SMap VReg) : SMap VReg :=
  (List.range h.valloc).foldl (fun m i =>
    match h.vPhys i with
    | some p => SMap.set 0 m p (loadedReg ws (992 + 16 * i))
    | none => m) pool

/-- The whole state of an image is loaded (R281). -/
def restoreHart (s : State) (hk : Nat) (ws : List DWord) : State :=
  let x := getLocal s hk
  setLocal s hk ⟨restoreFiles (restoreRegs x.h ws) ws, restorePool x.h ws x.pool⟩

/-- The words of checked pieces; a refused piece reads 0 (R147). -/
def loadedWords (s : State) (hk : Nat) (as : List Acc) : List DWord := as.flatMap (fun a => toWords (loadAcc s hk a) 8)

/-- A refusal is POISON. -/
def Async.isPoison (a : Async) : Bool := decide (a.cause = cPOISON)

/-- `hrest` (R281): the image's first 128 bytes are checked before the rest is loaded; POISON in what is loaded fences
the context with REASON 3 (R404). -/
def restore (b : BitVec 7) (s : State) (hk : Nat) : SlotRes :=
  let h := getHart s hk
  match readS h b with
  | none => badOperand s hk
  | some base =>
    let accs := (List.range (imageSize h / 64)).map (fun i =>
      { idx := i, va := BitVec.ofNat 64 (addOfs base.toNat ((64 * i : Nat) : Int)), n := 64 })
    match checkAccs s hk .load 64 .scalar [] accs with
    | .miss t => .wait (.notReady false) t
    | .fault _ _ cause info va t => .trap cause info va 0 0 t
    | .all as t =>
      let fence (u : State) : SlotRes := .gone (fenceContext (stopConvoy u hk) (devOfHart hk) h.ctxid.toNat 3 hk 0)
      if (refusals t hk .load (as.take 2)).any Async.isPoison then fence t
      else
        let ws := loadedWords t hk as
        if imageBad h ws then badOperand t hk
        else
          let rs := refusals t hk .load as
          if rs.any Async.isPoison then fence t
          else .done (touchDirect (restoreHart (rs.foldl (fun v a => queueOnce v hk a) t) hk ws) hk 4 false false as)

/-! ## Pre-emption (R282, R283) -/

/-- A pre-emption is in progress on the core and this hart has taken it (R283). -/
def packReady (s : State) (hk : Nat) : Bool :=
  match (getCore s (coreOf hk)).preempt with
  | some p => p.harts.contains hk && (getHart s hk).leaving
  | none => false

/-- The hart after `pack`: its messages stand at the head of its spill queues, its allocation is released (R283). -/
def Hart.packUp (h : Hart) (image resume : DWord) : Hart :=
  { h with
    st := .preempted, conv := none, wait := .none, grant := none, leaving := false, ustride := none,
    packed := some {
      image := image, resume := resume, htvec := h.htvec, ctxid := h.ctxid.toNat, chunks := h.chunks.length,
      idem := h.idem, ord := h.ord, ordtmo := h.ordtmo, section_ := h.secCount },
    spill := (List.range 4).foldl (fun m q =>
      SMap.set [] m q (SMap.get [] h.rq q ++ SMap.get [] h.spill q)) h.spill,
    rq := [], chunks := [] }

/-- `pack` (R283). -/
def packHart (b c : BitVec 7) (s : State) (hk : Nat) : SlotRes :=
  let h := getHart s hk
  match readS h b, readS h c with
  | some image, some resume =>
    if packReady s hk = false ∨ image.toNat % 64 ≠ 0 ∨ resume.toNat % 16 ≠ 0 then badOperand s hk
    else if h.lcnt ≠ 0 ∨ h.scnt ≠ 0 then .wait (.notReady false) s
    else .gone (rouseSenders (leaveDone (setHart s hk (h.packUp image resume)) hk) hk none)
  | _, _ => badOperand s hk

/-! ## The instructions -/

/-- SET_LENGTH_REQUEST, R102: the `sswap` of VL. -/
def execSetLengthRequest (a b : BitVec 7) (s : State) := runSlot 0x64 2 (setLength a b) s
/-- VCFG_WRITE, R36: the `sset` of VCFG with a value. -/
def execVcfgWrite (v : DWord) (s : State) := runSlot 0x64 1 (regWrite 0x010 v .done) s
/-- WBASE_WRITE, R37. -/
def execWbaseWrite (v : DWord) (s : State) := runSlot 0x64 1 (regWrite 0x014 v .done) s
/-- VL_WRITE, R102. -/
def execVlWrite (v : DWord) (s : State) := runSlot 0x64 1 (regWrite 0x011 v .done) s
/-- HSTAT_WRITE, R265. -/
def execHstatWrite (v : DWord) (s : State) := runSlot 0x64 1 (regWrite 0x000 v .done) s
/-- ACCOWN_WRITE, R25: ACCOWN0 or ACCOWN1. -/
def execAccownWrite (n : Nat) (v : DWord) (s : State) :=
  runSlotIf 0x64 1 (regLegal (0x030 + n % 2)) (regWrite (0x030 + n % 2) v .done) s
/-- ATSAT_CLEAR, R38: ATSAT0 or ATSAT1. -/
def execAtsatClear (n : Nat) (v : DWord) (s : State) := runSlot 0x64 1 (regWrite (0x032 + n % 2) v .done) s
/-- MST_WRITE, R198: entry n of the matrix slot table. -/
def execMstWrite (n : Nat) (v : DWord) (s : State) :=
  runSlotIf 0x64 1 (regLegal (0x040 + n % 16)) (regWrite (0x040 + n % 16) v .done) s
/-- TB_WRITE, R397. -/
def execTbWrite (v : DWord) (s : State) := runSlot 0x64 1 (regWrite 0x020 v .done) s
/-- ART_WRITE, R321: register n of ART0 to ART7. -/
def execArtWrite (n : Nat) (v : DWord) (s : State) :=
  runSlotIf 0x64 1 (regLegal (0x060 + n % 8)) (regWrite (0x060 + n % 8) v .done) s
/-- REGISTER_WRITE, R29. -/
def execRegisterWrite (n : BitVec 12) (v : DWord) (s : State) :=
  runSlotIf 0x64 1 (regLegal n.toNat) (regWrite n.toNat v .done) s
/-- SGET, R264. -/
def execSget (a : BitVec 7) (n : BitVec 12) (s : State) := runSlotIf 0x64 0 (regLegal n.toNat) (readSys a n.toNat) s
/-- SSET, R264. -/
def execSset (a : BitVec 7) (n : BitVec 12) (s : State) := runSlotIf 0x64 1 (regLegal n.toNat) (writeSys a n.toNat) s
/-- SSWAP, R264. -/
def execSswap (a b : BitVec 7) (e : Word) (s : State) := runSlotIf 0x64 2 (regLegal (bits e 11 0)) (swapSys a b e) s
/-- SCALL, R270. -/
def execScall (i : BitVec 14) (s : State) := runSlot 0x65 0 (callTrap cSYSTEMCALL i) s
/-- ERET, R275. -/
def execEret (s : State) := runSlot 0x65 1 returnTrap s
/-- BRK, R270. -/
def execBrk (i : BitVec 14) (s : State) := runSlot 0x65 2 (callTrap cBREAKPOINT i) s
/-- WFI, R276. -/
def execWfi (s : State) := runSlot 0x65 3 waitInterrupt s
/-- HALT, R276. -/
def execHalt (s : State) := runSlot 0x65 4 haltHart s
/-- TLBW, R277. -/
def execTlbw (a b c : BitVec 7) (s : State) := runSlot 0x66 0 (writeTlb a b c) s
/-- TLBI, R278. -/
def execTlbi (b c : BitVec 7) (s : State) := runSlot 0x66 1 (invalidate b c) s
/-- TLBR, R277. -/
def execTlbr (a b : BitVec 7) (s : State) := runSlot 0x66 2 (readTlb a b) s
/-- HSAVE, R280. -/
def execHsave (b : BitVec 7) (s : State) := runSlot 0x67 0 (saveHart b) s
/-- HREST, R281. -/
def execHrest (b : BitVec 7) (s : State) := runSlot 0x67 1 (restore b) s
/-- PACK, R283. -/
def execPack (b c : BitVec 7) (s : State) := runSlot 0x67 2 (packHart b c) s

end Sys2Proof.Machine
end

