-- ==== Sys2Proof/Machine/Slots.lean ====
section
/-! DEFINITION. The meaning of a slot by its (major, fn) pair and fields: the same meanings that the dispatch gives the
instructions that the decoder reads from such a slot (R69, R71, R77). -/
namespace Sys2Proof.Machine

open Sys2Proof

/-- The meanings of major 0x00. -/
def slot00 (fn : Nat) (a b c : BitVec 7) (e : Option Word) (s : State) : Host.Outcome State Fault Refusal :=
  match fn, e with
  | 1, _ => execAdd a b c s
  | 2, _ => execSub a b c s
  | 3, _ => execMul a b c s
  | 4, _ => execMulhs a b c s
  | 5, _ => execMulhz a b c s
  | 6, _ => execMadd a b c s
  | _, _ => .next s

/-- The meanings of major 0x01. -/
def slot01 (fn : Nat) (a b c : BitVec 7) (e : Option Word) (s : State) : Host.Outcome State Fault Refusal :=
  match fn, e with
  | 0, _ => execDivs a b c s
  | 1, _ => execDivz a b c s
  | 2, _ => execRems a b c s
  | 3, _ => execRemz a b c s
  | _, _ => .next s

/-- The meanings of major 0x02. -/
def slot02 (fn : Nat) (a b c : BitVec 7) (e : Option Word) (s : State) : Host.Outcome State Fault Refusal :=
  match fn, e with
  | 0, _ => execAndReg a b c s
  | 1, _ => execOrReg a b c s
  | 2, _ => execXorReg a b c s
  | 3, _ => execAndn a b c s
  | _, _ => .next s

/-- The meanings of major 0x03. -/
def slot03 (fn : Nat) (a b c : BitVec 7) (e : Option Word) (s : State) : Host.Outcome State Fault Refusal :=
  match fn, e with
  | 0, _ => execShl a b c s
  | 1, _ => execShrs a b c s
  | 2, _ => execShrz a b c s
  | 3, _ => execRotl a b c s
  | 4, _ => execRotr a b c s
  | _, _ => .next s

/-- The meanings of major 0x04. -/
def slot04 (fn : Nat) (a b c : BitVec 7) (e : Option Word) (s : State) : Host.Outcome State Fault Refusal :=
  match fn, e with
  | 0, none => execAddiShort a (c ++ b) s
  | 0, some x => execAddiLong a b x s
  | 1, none => execAndiShort a (c ++ b) s
  | 1, some x => execAndiLong a b x s
  | 2, none => execOriShort a (c ++ b) s
  | 2, some x => execOriLong a b x s
  | 3, none => execXoriShort a (c ++ b) s
  | 3, some x => execXoriLong a b x s
  | 4, none => execShliShort a (c ++ b) s
  | 4, some x => execShliLong a b x s
  | 5, none => execRotriShort a (c ++ b) s
  | 5, some x => execRotriLong a b x s
  | 6, _ => execLih a b (e.getD 0) s
  | _, _ => .next s

/-- The meanings of major 0x05. -/
def slot05 (fn : Nat) (a b c : BitVec 7) (e : Option Word) (s : State) : Host.Outcome State Fault Refusal :=
  match fn, e with
  | 0, _ => execSlts a b c s
  | 1, _ => execSltz a b c s
  | 2, _ => execSel a b c s
  | _, _ => .next s

/-- The meanings of major 0x06. -/
def slot06 (fn : Nat) (a b c : BitVec 7) (e : Option Word) (s : State) : Host.Outcome State Fault Refusal :=
  match fn, e with
  | 0, _ => execMins a b c s
  | 1, _ => execMinz a b c s
  | 2, _ => execMaxs a b c s
  | 3, _ => execMaxz a b c s
  | _, _ => .next s

/-- The meanings of major 0x07. -/
def slot07 (fn : Nat) (a b _c : BitVec 7) (e : Option Word) (s : State) : Host.Outcome State Fault Refusal :=
  match fn, e with
  | 0, _ => execClz a b s
  | 1, _ => execCtz a b s
  | 2, _ => execPopc a b s
  | 3, _ => execBswap a b s
  | _, _ => .next s

/-- The meanings of major 0x08. -/
def slot08 (fn : Nat) (a b c : BitVec 7) (e : Option Word) (s : State) : Host.Outcome State Fault Refusal :=
  match fn, e with
  | 0, none => execBextsShort a (b.extractLsb' 0 6) ((c ++ b).extractLsb' 6 6) s
  | 0, some x => execBextsLong a b x s
  | 1, none => execBextzShort a (b.extractLsb' 0 6) ((c ++ b).extractLsb' 6 6) s
  | 1, some x => execBextzLong a b x s
  | 2, _ => execBins a b (e.getD 0) s
  | _, _ => .next s

/-- The meanings of major 0x10. -/
def slot10 (fn : Nat) (a b c : BitVec 7) (e : Option Word) (s : State) : Host.Outcome State Fault Refusal :=
  match fn, e with
  | 0, none => execBrEqShort a b c s
  | 0, some x => execBrEqLong a b x s
  | 1, none => execBrNeShort a b c s
  | 1, some x => execBrNeLong a b x s
  | 2, none => execBrLtsShort a b c s
  | 2, some x => execBrLtsLong a b x s
  | 3, none => execBrGesShort a b c s
  | 3, some x => execBrGesLong a b x s
  | 4, none => execBrLtzShort a b c s
  | 4, some x => execBrLtzLong a b x s
  | 5, none => execBrGezShort a b c s
  | 5, some x => execBrGezLong a b x s
  | 6, none => execBrAnyShort a c s
  | 6, some x => execBrAnyLong a x s
  | _, _ => .next s

/-- The meanings of major 0x11. -/
def slot11 (fn : Nat) (a b c : BitVec 7) (e : Option Word) (s : State) : Host.Outcome State Fault Refusal :=
  match fn, e with
  | 0, none => execJmpShort (c ++ b) s
  | 0, some x => execJmpLong x s
  | 1, none => execJalShort a (c ++ b) s
  | 1, some x => execJalLong a x s
  | 2, _ => execJr a b s
  | _, _ => .next s

/-- The meanings of major 0x12. -/
def slot12 (fn : Nat) (a b c : BitVec 7) (e : Option Word) (s : State) : Host.Outcome State Fault Refusal :=
  match fn, e with
  | 0, none => execLrotShort a b c s
  | 0, some x => execLrotLong a b x s
  | 1, _ => execWbase b c s
  | _, _ => .next s

/-- The meanings of major 0x13. -/
def slot13 (fn : Nat) (_a _b _c : BitVec 7) (e : Option Word) (s : State) : Host.Outcome State Fault Refusal :=
  match fn, e with
  | 0, _ => execNop s
  | 1, _ => execYield s
  | _, _ => .next s

/-- The meanings of major 0x14. -/
def slot14 (fn : Nat) (a b c : BitVec 7) (e : Option Word) (s : State) : Host.Outcome State Fault Refusal :=
  match fn, e with
  | 0, _ => execLdsB a b c e s
  | 1, _ => execLdsH a b c e s
  | 2, _ => execLdsW a b c e s
  | 3, _ => execLdzB a b c e s
  | 4, _ => execLdzH a b c e s
  | 5, _ => execLdzW a b c e s
  | 6, _ => execLdD a b c e s
  | _, _ => .next s

/-- The meanings of major 0x15. -/
def slot15 (fn : Nat) (a b c : BitVec 7) (e : Option Word) (s : State) : Host.Outcome State Fault Refusal :=
  match fn, e with
  | 0, _ => execStB a b c e s
  | 1, _ => execStH a b c e s
  | 2, _ => execStW a b c e s
  | 3, _ => execStD a b c e s
  | _, _ => .next s

/-- The meanings of major 0x16. -/
def slot16 (fn : Nat) (_a b c : BitVec 7) (e : Option Word) (s : State) : Host.Outcome State Fault Refusal :=
  match fn, e with
  | 0, _ => execPf b c e s
  | 1, _ => execEvf b c e s
  | 2, _ => execUnpin b c e s
  | _, _ => .next s

/-- The meanings of major 0x38. -/
def slot38 (fn : Nat) (a b c : BitVec 7) (e : Option Word) (s : State) : Host.Outcome State Fault Refusal :=
  match fn, e with
  | 0, _ => execVld a b e s
  | 1, _ => execVlds a b c e s
  | 2, _ => execVldx a b c e s
  | 3, _ => execVldk a b c e s
  | _, _ => .next s

/-- The meanings of major 0x39. -/
def slot39 (fn : Nat) (a b c : BitVec 7) (e : Option Word) (s : State) : Host.Outcome State Fault Refusal :=
  match fn, e with
  | 0, _ => execVst a b e s
  | 1, _ => execVsts a b c e s
  | 2, _ => execVstx a b c e s
  | 3, _ => execVsbm a b e s
  | 4, _ => execVstk a b c e s
  | _, _ => .next s

/-- The meanings of major 0x3A. -/
def slot3A (fn : Nat) (a b c : BitVec 7) (e : Option Word) (s : State) : Host.Outcome State Fault Refusal :=
  match fn, e with
  | 0, _ => execAaddS a b c e s
  | 1, _ => execAandS a b c e s
  | 2, _ => execAorS a b c e s
  | 3, _ => execAxorS a b c e s
  | 4, _ => execAminS a b c e s
  | 5, _ => execAminsS a b c e s
  | 6, _ => execAmaxS a b c e s
  | 7, _ => execAmaxsS a b c e s
  | 8, _ => execAswapS a b c e s
  | 9, _ => execAcasS a b c e s
  | _, _ => .next s

/-- The meanings of major 0x3B. -/
def slot3B (fn : Nat) (a b c : BitVec 7) (e : Option Word) (s : State) : Host.Outcome State Fault Refusal :=
  match fn, e with
  | 0, _ => execAaddV a b c e s
  | 1, _ => execAandV a b c e s
  | 2, _ => execAorV a b c e s
  | 3, _ => execAxorV a b c e s
  | 4, _ => execAminV a b c e s
  | 5, _ => execAminsV a b c e s
  | 6, _ => execAmaxV a b c e s
  | 7, _ => execAmaxsV a b c e s
  | 8, _ => execAswapV a b c e s
  | 9, _ => execAcasV a b c e s
  | _, _ => .next s

/-- The meanings of major 0x3C. -/
def slot3C (fn : Nat) (_a b c : BitVec 7) (e : Option Word) (s : State) : Host.Outcome State Fault Refusal :=
  match fn, e with
  | 0, _ => execCwaitL (c ++ b) s
  | 1, _ => execCwaitS (c ++ b) s
  | _, _ => .next s

/-- The meanings of major 0x3D. -/
def slot3D (fn : Nat) (a b c : BitVec 7) (e : Option Word) (s : State) : Host.Outcome State Fault Refusal :=
  match fn, e with
  | 0, _ => execFwait a b e s
  | 1, _ => execVfwait a b c e s
  | 2, _ => execFfill a b c e s
  | _, _ => .next s

/-- The meanings of major 0x3E. -/
def slot3E (fn : Nat) (_a b _c : BitVec 7) (e : Option Word) (s : State) : Host.Outcome State Fault Refusal :=
  match fn, e with
  | 0, _ => execVpf b e s
  | 1, _ => execVevf b e s
  | _, _ => .next s

/-- The meanings of major 0x18. -/
def slot18 (fn : Nat) (a b c : BitVec 7) (e : Option Word) (s : State) : Host.Outcome State Fault Refusal :=
  match fn, e with
  | 0, _ => execVadd a b c s
  | 1, _ => execVsub a b c s
  | 2, _ => execVmul a b c s
  | 3, _ => execVmulhs a b c s
  | 4, _ => execVmulhz a b c s
  | 5, _ => execVmacc a b c s
  | _, _ => .next s

/-- The meanings of major 0x19. -/
def slot19 (fn : Nat) (a b c : BitVec 7) (e : Option Word) (s : State) : Host.Outcome State Fault Refusal :=
  match fn, e with
  | 0, _ => execVdivs a b c s
  | 1, _ => execVdivz a b c s
  | 2, _ => execVrems a b c s
  | 3, _ => execVremz a b c s
  | _, _ => .next s

/-- The meanings of major 0x1A. -/
def slot1A (fn : Nat) (a b c : BitVec 7) (e : Option Word) (s : State) : Host.Outcome State Fault Refusal :=
  match fn, e with
  | 0, _ => execVand a b c s
  | 1, _ => execVor a b c s
  | 2, _ => execVxor a b c s
  | 3, _ => execVandn a b c s
  | _, _ => .next s

/-- The meanings of major 0x1B. -/
def slot1B (fn : Nat) (a b c : BitVec 7) (e : Option Word) (s : State) : Host.Outcome State Fault Refusal :=
  match fn, e with
  | 0, _ => execVshl a b c s
  | 1, _ => execVshrs a b c s
  | 2, _ => execVshrz a b c s
  | _, _ => .next s

/-- The meanings of major 0x1C. -/
def slot1C (fn : Nat) (a b c : BitVec 7) (e : Option Word) (s : State) : Host.Outcome State Fault Refusal :=
  match fn, e with
  | 0, _ => execVmins a b c s
  | 1, _ => execVminz a b c s
  | 2, _ => execVmaxs a b c s
  | 3, _ => execVmaxz a b c s
  | _, _ => .next s

/-- The meanings of major 0x1D. -/
def slot1D (fn : Nat) (a b c : BitVec 7) (e : Option Word) (s : State) : Host.Outcome State Fault Refusal :=
  match fn, e with
  | 0, _ => execVsadds a b c s
  | 1, _ => execVsaddz a b c s
  | 2, _ => execVssubs a b c s
  | 3, _ => execVssubz a b c s
  | _, _ => .next s

/-- The meanings of major 0x20. -/
def slot20 (fn : Nat) (a b c : BitVec 7) (e : Option Word) (s : State) : Host.Outcome State Fault Refusal :=
  match fn, e with
  | 0, _ => execVfma a b c s
  | 1, _ => execVfadd a b c s
  | 2, _ => execVfsub a b c s
  | 3, _ => execVfmul a b c s
  | 4, _ => execVfdiv a b c s
  | 5, _ => execVfsqrt a b s
  | _, _ => .next s

/-- The meanings of major 0x21. -/
def slot21 (fn : Nat) (a b c : BitVec 7) (e : Option Word) (s : State) : Host.Outcome State Fault Refusal :=
  match fn, e with
  | 0, _ => execVfrcpe a b s
  | 1, _ => execVfrsqe a b s
  | 2, _ => execVfmin a b c s
  | 3, _ => execVfmax a b c s
  | 4, _ => execVfclass a b s
  | _, _ => .next s

/-- The meanings of major 0x22. -/
def slot22 (fn : Nat) (a b c : BitVec 7) (e : Option Word) (s : State) : Host.Outcome State Fault Refusal :=
  match fn, e with
  | 0, _ => execVfabs a b s
  | 1, _ => execVfneg a b s
  | 2, _ => execVfsgnj a b c s
  | _, _ => .next s

/-- The meanings of major 0x24. -/
def slot24 (fn : Nat) (a b c : BitVec 7) (e : Option Word) (s : State) : Host.Outcome State Fault Refusal :=
  match fn, e with
  | 0, _ => execVcmpeq a b c s
  | 1, _ => execVcmpne a b c s
  | 2, _ => execVcmplts a b c s
  | 3, _ => execVcmpltz a b c s
  | 4, _ => execVcmples a b c s
  | 5, _ => execVcmplez a b c s
  | _, _ => .next s

/-- The meanings of major 0x25. -/
def slot25 (fn : Nat) (a b c : BitVec 7) (e : Option Word) (s : State) : Host.Outcome State Fault Refusal :=
  match fn, e with
  | 0, _ => execVfcmpeq a b c s
  | 1, _ => execVfcmplt a b c s
  | 2, _ => execVfcmple a b c s
  | 3, _ => execVfcmpun a b c s
  | _, _ => .next s

/-- The meanings of major 0x28. -/
def slot28 (fn : Nat) (a b c : BitVec 7) (e : Option Word) (s : State) : Host.Outcome State Fault Refusal :=
  match fn, e with
  | 0, _ => execVfcvt a b c s
  | 1, _ => execVfcvts a b c s
  | 2, _ => execVfcvtz a b c s
  | 3, _ => execVfcvtts a b c s
  | 4, _ => execVfcvttz a b c s
  | _, _ => .next s

/-- The meanings of major 0x29. -/
def slot29 (fn : Nat) (a b c : BitVec 7) (e : Option Word) (s : State) : Host.Outcome State Fault Refusal :=
  match fn, e with
  | 0, _ => execVscvtf a b c s
  | 1, _ => execVzcvtf a b c s
  | _, _ => .next s

/-- The meanings of major 0x2A. -/
def slot2A (fn : Nat) (a b c : BitVec 7) (e : Option Word) (s : State) : Host.Outcome State Fault Refusal :=
  match fn, e with
  | 0, _ => execVwidens a b c s
  | 1, _ => execVwidenz a b c s
  | 2, _ => execVnarrs a b c s
  | 3, _ => execVnarrz a b c s
  | _, _ => .next s

/-- The meanings of major 0x2C. -/
def slot2C (fn : Nat) (a b c : BitVec 7) (e : Option Word) (s : State) : Host.Outcome State Fault Refusal :=
  match fn, e with
  | 0, _ => execVcmul a b c s
  | 1, _ => execVcmac a b c s
  | 2, _ => execVcconj a b s
  | 3, _ => execVcnorm a b s
  | _, _ => .next s

/-- The meanings of major 0x30. -/
def slot30 (fn : Nat) (a b c : BitVec 7) (e : Option Word) (s : State) : Host.Outcome State Fault Refusal :=
  match fn, e with
  | 0, _ => execVmov a b s
  | 1, _ => execVsplat a b s
  | 2, _ => execVmerge a b c s
  | _, _ => .next s

/-- The meanings of major 0x31. -/
def slot31 (fn : Nat) (a b c : BitVec 7) (e : Option Word) (s : State) : Host.Outcome State Fault Refusal :=
  match fn, e with
  | 0, _ => execVslup a b c s
  | 1, _ => execVsldn a b c s
  | 2, _ => execVperm a b c s
  | 3, _ => execVcomp a b s
  | 4, _ => execVexp a b s
  | _, _ => .next s

/-- The meanings of major 0x32. -/
def slot32 (fn : Nat) (a b c : BitVec 7) (e : Option Word) (s : State) : Host.Outcome State Fault Refusal :=
  match fn, e with
  | 0, _ => execVsh a b c s
  | 1, _ => execVfsh a b c s
  | _, _ => .next s

/-- The meanings of major 0x33. -/
def slot33 (fn : Nat) (a b c : BitVec 7) (e : Option Word) (s : State) : Host.Outcome State Fault Refusal :=
  match fn, e with
  | 0, _ => execVrsum a b c s
  | 1, _ => execVrfsum a b c s
  | 2, _ => execVrmins a b c s
  | 3, _ => execVrminz a b c s
  | 4, _ => execVrmaxs a b c s
  | 5, _ => execVrmaxz a b c s
  | 6, _ => execVrfmin a b c s
  | 7, _ => execVrfmax a b c s
  | _, _ => .next s

/-- The meanings of major 0x34. -/
def slot34 (fn : Nat) (a b c : BitVec 7) (e : Option Word) (s : State) : Host.Outcome State Fault Refusal :=
  match fn, e with
  | 0, _ => execVgmax a b c s
  | 1, _ => execVgsum a b c s
  | _, _ => .next s

/-- The meanings of major 0x35. -/
def slot35 (fn : Nat) (a b c : BitVec 7) (e : Option Word) (s : State) : Host.Outcome State Fault Refusal :=
  match fn, e with
  | 0, _ => execMaskAnd a b c s
  | 1, _ => execMaskOr a b c s
  | 2, _ => execMaskXor a b c s
  | 3, _ => execMaskAndn a b c s
  | 4, _ => execMclr a s
  | 5, _ => execMset a s
  | _, _ => .next s

/-- The meanings of major 0x36. -/
def slot36 (fn : Nat) (a b c : BitVec 7) (e : Option Word) (s : State) : Host.Outcome State Fault Refusal :=
  match fn, e with
  | 0, _ => execMpopc a b s
  | 1, _ => execMfirst a b s
  | 2, _ => execVgetx a b c s
  | 3, _ => execVputx a b c s
  | _, _ => .next s

/-- The meanings of major 0x44. -/
def slot44 (fn : Nat) (a b c : BitVec 7) (e : Option Word) (s : State) : Host.Outcome State Fault Refusal :=
  match fn, e with
  | 0, _ => execFmt (a.extractLsb' 0 5) (a.extractLsb' 5 1) (a.extractLsb' 6 1) b c s
  | _, _ => .next s

/-- The meanings of major 0x45. -/
def slot45 (fn : Nat) (a b c : BitVec 7) (e : Option Word) (s : State) : Host.Outcome State Fault Refusal :=
  match fn, e with
  | 0, _ => execMma a b c s
  | 1, _ => execMmai a b c s
  | 2, _ => execMmalX a b c e s
  | 3, _ => execMmalA a b c e s
  | _, _ => .next s

/-- The meanings of major 0x46. -/
def slot46 (fn : Nat) (_a b c : BitVec 7) (e : Option Word) (s : State) : Host.Outcome State Fault Refusal :=
  match fn, e with
  | 0, _ => execIpload b c s
  | 1, _ => execIpsave b s
  | _, _ => .next s

/-- The meanings of major 0x47. -/
def slot47 (fn : Nat) (a b c : BitVec 7) (e : Option Word) (s : State) : Host.Outcome State Fault Refusal :=
  match fn, e with
  | 0, _ => execAtzero a b s
  | 1, _ => execAtmov a b s
  | 2, _ => execAtload a b c s
  | 3, _ => execAtsave a b s
  | 4, _ => execAttr a s
  | 5, _ => execAtadd a b s
  | _, _ => .next s

/-- The meanings of major 0x48. -/
def slot48 (fn : Nat) (a b c : BitVec 7) (e : Option Word) (s : State) : Host.Outcome State Fault Refusal :=
  match fn, e with
  | 0, _ => execAtgetF32 a b c s
  | 1, _ => execAtgetBf16 a b c s
  | 2, _ => execAtgetI32 a b c s
  | 3, _ => execAtputF32 a b c s
  | 4, _ => execAtputI32 a b c s
  | _, _ => .next s

/-- The meanings of major 0x4C. -/
def slot4C (fn : Nat) (a b c : BitVec 7) (e : Option Word) (s : State) : Host.Outcome State Fault Refusal :=
  match fn, e with
  | 0, _ => execXdelta a b c s
  | 1, _ => execXundelta a b c s
  | 2, _ => execXzz a b s
  | 3, _ => execXunzz a b s
  | _, _ => .next s

/-- The meanings of major 0x4D. -/
def slot4D (fn : Nat) (a b c : BitVec 7) (e : Option Word) (s : State) : Host.Outcome State Fault Refusal :=
  match fn, e with
  | 0, _ => execXpack a b c s
  | 1, _ => execXunpack a b c s
  | 2, _ => execXpackg a b c s
  | 3, _ => execXunpackg a b c s
  | _, _ => .next s

/-- The meanings of major 0x4E. -/
def slot4E (fn : Nat) (a b c : BitVec 7) (e : Option Word) (s : State) : Host.Outcome State Fault Refusal :=
  match fn, e with
  | 0, _ => execXdtab b c s
  | 1, _ => execXdec a b c s
  | _, _ => .next s

/-- The meanings of major 0x4F. -/
def slot4F (fn : Nat) (a b c : BitVec 7) (e : Option Word) (s : State) : Host.Outcome State Fault Refusal :=
  match fn, e with
  | 0, _ => execXquant a b c (e.getD 0) s
  | 1, _ => execXdequant a b c (e.getD 0) s
  | _, _ => .next s

/-- The meanings of major 0x50. -/
def slot50 (fn : Nat) (a b _c : BitVec 7) (e : Option Word) (s : State) : Host.Outcome State Fault Refusal :=
  match fn, e with
  | 0, _ => execXcrc a b s
  | 1, _ => execXcrcf a b s
  | _, _ => .next s

/-- The meanings of major 0x51. -/
def slot51 (fn : Nat) (a b c : BitVec 7) (e : Option Word) (s : State) : Host.Outcome State Fault Refusal :=
  match fn, e with
  | 0, _ => execXtopk a b c s
  | 1, _ => execXbotk a b c s
  | 2, _ => execXkmerge a b c s
  | 3, _ => execXbkmerge a b c s
  | _, _ => .next s

/-- The meanings of major 0x54. -/
def slot54 (fn : Nat) (a b c : BitVec 7) (e : Option Word) (s : State) : Host.Outcome State Fault Refusal :=
  match fn, e with
  | 0, _ => execTspawn a b c s
  | 1, _ => execTend b s
  | 2, _ => execTabort b s
  | 3, _ => execTstat a b s
  | _, _ => .next s

/-- The meanings of major 0x55. -/
def slot55 (fn : Nat) (a b c : BitVec 7) (e : Option Word) (s : State) : Host.Outcome State Fault Refusal :=
  match fn, e with
  | 0, _ => execForkTask a b c s
  | 1, _ => execJoinChild a b s
  | 2, _ => execJoinall a s
  | _, _ => .next s

/-- The meanings of major 0x56. -/
def slot56 (fn : Nat) (_a b _c : BitVec 7) (e : Option Word) (s : State) : Host.Outcome State Fault Refusal :=
  match fn, e with
  | 0, _ => execCancelInst b s
  | _, _ => .next s

/-- The meanings of major 0x57. -/
def slot57 (fn : Nat) (a b c : BitVec 7) (e : Option Word) (s : State) : Host.Outcome State Fault Refusal :=
  match fn, e with
  | 0, _ => execBst a b c (e.getD 0) s
  | 1, _ => execOrdb b s
  | 2, _ => execOrde s
  | 3, _ => execTkget a b s
  | _, _ => .next s

/-- The meanings of major 0x58. -/
def slot58 (fn : Nat) (a b _c : BitVec 7) (e : Option Word) (s : State) : Host.Outcome State Fault Refusal :=
  match fn, e with
  | 0, _ => execRope a b s
  | 1, _ => execUnrope s
  | 2, _ => execRbar a b s
  | _, _ => .next s

/-- The meanings of major 0x59. -/
def slot59 (fn : Nat) (a b c : BitVec 7) (e : Option Word) (s : State) : Host.Outcome State Fault Refusal :=
  match fn, e with
  | 0, _ => execMsend b c s
  | 1, _ => execVmsend b c s
  | 2, _ => execMrecv a b s
  | 3, _ => execVmrecv a b c s
  | 4, _ => execMpoll a b s
  | 5, _ => execVredq a b c s
  | 6, _ => execVredqf a b c s
  | _, _ => .next s

/-- The meanings of major 0x5A. -/
def slot5A (fn : Nat) (_a b _c : BitVec 7) (e : Option Word) (s : State) : Host.Outcome State Fault Refusal :=
  match fn, e with
  | 0, _ => execTwait b s
  | 1, _ => execTwaitd b s
  | _, _ => .next s

/-- The meanings of major 0x5C. -/
def slot5C (fn : Nat) (a b c : BitVec 7) (e : Option Word) (s : State) : Host.Outcome State Fault Refusal :=
  match fn, e with
  | 0, _ => execRbox a b c s
  | 1, _ => execRtri a b c s
  | _, _ => .next s

/-- The meanings of major 0x5D. -/
def slot5D (fn : Nat) (a b c : BitVec 7) (e : Option Word) (s : State) : Host.Outcome State Fault Refusal :=
  match fn, e with
  | 0, _ => execRpush a b c s
  | 1, _ => execRpop a b c s
  | 2, _ => execRhit a b c s
  | 3, _ => execRterm a b s
  | _, _ => .next s

/-- The meanings of major 0x5E. -/
def slot5E (fn : Nat) (a b c : BitVec 7) (e : Option Word) (s : State) : Host.Outcome State Fault Refusal :=
  match fn, e with
  | 0, _ => execRspawn a b c s
  | 1, _ => execRdepth a s
  | _, _ => .next s

/-- The meanings of major 0x5F. -/
def slot5F (fn : Nat) (a b c : BitVec 7) (e : Option Word) (s : State) : Host.Outcome State Fault Refusal :=
  match fn, e with
  | 0, _ => execTexBl a b c s
  | 1, _ => execTexSt a b c s
  | 2, _ => execTexPt a b c s
  | 3, _ => execTexq a b c s
  | _, _ => .next s

/-- The meanings of major 0x60. -/
def slot60 (fn : Nat) (a b c : BitVec 7) (e : Option Word) (s : State) : Host.Outcome State Fault Refusal :=
  match fn, e with
  | 0, _ => execMout a b c s
  | 1, _ => execMprim a b s
  | 2, _ => execMend b c s
  | _, _ => .next s

/-- The meanings of major 0x61. -/
def slot61 (fn : Nat) (a b c : BitVec 7) (e : Option Word) (s : State) : Host.Outcome State Fault Refusal :=
  match fn, e with
  | 0, _ => execRast a b c s
  | _, _ => .next s

/-- The meanings of major 0x64. -/
def slot64 (fn : Nat) (a b c : BitVec 7) (e : Option Word) (s : State) : Host.Outcome State Fault Refusal :=
  match fn, e with
  | 0, _ => execSget a ((c ++ b).extractLsb' 0 12) s
  | 1, _ => execSset a ((c ++ b).extractLsb' 0 12) s
  | 2, _ => execSswap a b (e.getD 0) s
  | _, _ => .next s

/-- The meanings of major 0x65. -/
def slot65 (fn : Nat) (_a b c : BitVec 7) (e : Option Word) (s : State) : Host.Outcome State Fault Refusal :=
  match fn, e with
  | 0, _ => execScall (c ++ b) s
  | 1, _ => execEret s
  | 2, _ => execBrk (c ++ b) s
  | 3, _ => execWfi s
  | 4, _ => execHalt s
  | _, _ => .next s

/-- The meanings of major 0x66. -/
def slot66 (fn : Nat) (a b c : BitVec 7) (e : Option Word) (s : State) : Host.Outcome State Fault Refusal :=
  match fn, e with
  | 0, _ => execTlbw a b c s
  | 1, _ => execTlbi b c s
  | 2, _ => execTlbr a b s
  | _, _ => .next s

/-- The meanings of major 0x67. -/
def slot67 (fn : Nat) (_a b c : BitVec 7) (e : Option Word) (s : State) : Host.Outcome State Fault Refusal :=
  match fn, e with
  | 0, _ => execHsave b s
  | 1, _ => execHrest b s
  | 2, _ => execPack b c s
  | _, _ => .next s

/-- The meaning of a slot of a (major, fn) pair with operand fields A, B, C and extension word; a pair that is not in the
map of R77 never comes here (R73). -/
def slotMeaning (major fn : Nat) (a b c : BitVec 7) (e : Option Word) (s : State) : Host.Outcome State Fault Refusal :=
  match major with
  | 0x00 => slot00 fn a b c e s
  | 0x01 => slot01 fn a b c e s
  | 0x02 => slot02 fn a b c e s
  | 0x03 => slot03 fn a b c e s
  | 0x04 => slot04 fn a b c e s
  | 0x05 => slot05 fn a b c e s
  | 0x06 => slot06 fn a b c e s
  | 0x07 => slot07 fn a b c e s
  | 0x08 => slot08 fn a b c e s
  | 0x10 => slot10 fn a b c e s
  | 0x11 => slot11 fn a b c e s
  | 0x12 => slot12 fn a b c e s
  | 0x13 => slot13 fn a b c e s
  | 0x14 => slot14 fn a b c e s
  | 0x15 => slot15 fn a b c e s
  | 0x16 => slot16 fn a b c e s
  | 0x38 => slot38 fn a b c e s
  | 0x39 => slot39 fn a b c e s
  | 0x3A => slot3A fn a b c e s
  | 0x3B => slot3B fn a b c e s
  | 0x3C => slot3C fn a b c e s
  | 0x3D => slot3D fn a b c e s
  | 0x3E => slot3E fn a b c e s
  | 0x18 => slot18 fn a b c e s
  | 0x19 => slot19 fn a b c e s
  | 0x1A => slot1A fn a b c e s
  | 0x1B => slot1B fn a b c e s
  | 0x1C => slot1C fn a b c e s
  | 0x1D => slot1D fn a b c e s
  | 0x20 => slot20 fn a b c e s
  | 0x21 => slot21 fn a b c e s
  | 0x22 => slot22 fn a b c e s
  | 0x24 => slot24 fn a b c e s
  | 0x25 => slot25 fn a b c e s
  | 0x28 => slot28 fn a b c e s
  | 0x29 => slot29 fn a b c e s
  | 0x2A => slot2A fn a b c e s
  | 0x2C => slot2C fn a b c e s
  | 0x30 => slot30 fn a b c e s
  | 0x31 => slot31 fn a b c e s
  | 0x32 => slot32 fn a b c e s
  | 0x33 => slot33 fn a b c e s
  | 0x34 => slot34 fn a b c e s
  | 0x35 => slot35 fn a b c e s
  | 0x36 => slot36 fn a b c e s
  | 0x44 => slot44 fn a b c e s
  | 0x45 => slot45 fn a b c e s
  | 0x46 => slot46 fn a b c e s
  | 0x47 => slot47 fn a b c e s
  | 0x48 => slot48 fn a b c e s
  | 0x4C => slot4C fn a b c e s
  | 0x4D => slot4D fn a b c e s
  | 0x4E => slot4E fn a b c e s
  | 0x4F => slot4F fn a b c e s
  | 0x50 => slot50 fn a b c e s
  | 0x51 => slot51 fn a b c e s
  | 0x54 => slot54 fn a b c e s
  | 0x55 => slot55 fn a b c e s
  | 0x56 => slot56 fn a b c e s
  | 0x57 => slot57 fn a b c e s
  | 0x58 => slot58 fn a b c e s
  | 0x59 => slot59 fn a b c e s
  | 0x5A => slot5A fn a b c e s
  | 0x5C => slot5C fn a b c e s
  | 0x5D => slot5D fn a b c e s
  | 0x5E => slot5E fn a b c e s
  | 0x5F => slot5F fn a b c e s
  | 0x60 => slot60 fn a b c e s
  | 0x61 => slot61 fn a b c e s
  | 0x64 => slot64 fn a b c e s
  | 0x65 => slot65 fn a b c e s
  | 0x66 => slot66 fn a b c e s
  | 0x67 => slot67 fn a b c e s
  | _ => .next s

end Sys2Proof.Machine
end

