-- ==== Sys2Proof/Machine/Complete.lean ====
section
/-! DEFINITION. How outstanding memory operations come to their end (R147, R149, R150, R329, R399), and the steps of the
matrix slot table (R198). -/
namespace Sys2Proof.Machine

open Sys2Proof

/-! ## Load data (R150) -/

/-- A returned value is written to its destination and pushed (R15, R150). -/
def applyRet (x : Local) : Ret → Local
  | .scalar sp v p =>
    let h := writeS x.h (BitVec.ofNat 7 sp) v
    { x with h := if p then pushS h v else h }
  | .vector sp g v p =>
    match writeV x (BitVec.ofNat 7 sp) g v with
    | some y => if p then pushV y g v else y
    | none => x

/-- The data of an operation is written to its destinations. -/
def giveData (s : State) (id : Nat) : State :=
  match SMap.find s.ops id with
  | none => s
  | some o =>
    if o.ret.isEmpty then s
    else
      let t := setLocal s o.hart (o.ret.foldl applyRet (getLocal s o.hart))
      { t with ops := SMap.put t.ops id { o with ret := [] } }

/-- A load's data returns, unless it is refused, on its way through the fabric or re-homed (R147, R150, R329, R399). -/
def returnData (s : State) (id : Nat) : State :=
  match SMap.find s.ops id with
  | some o => if o.refused.isEmpty && o.fabric.isEmpty && o.rehome.isEmpty then giveData s id else s
  | none => s

/-- The registers that a returned value is written to. -/
def Ret.regs (h : Hart) : Ret → List RegName
  | .scalar sp _ _ => h.scalarRegs (BitVec.ofNat 7 sp)
  | .vector sp g _ _ => h.groupRegs (BitVec.ofNat 7 sp) g

/-- An access of the running transfer of an engine has been refused at another node: the transfer has faulted there (R393). -/
def faultHead (va : Option Nat) : List Kick → List Kick
  | [] => []
  | k :: ks => { k with fault := if k.fault.isSome then k.fault else va } :: ks

/-- A refusal returns from the target: the elements of a load are zero, its traps become pending in element order, and
the counter falls (R147). -/
def returnRefusal (s : State) (id : Nat) : State :=
  match SMap.find s.ops id with
  | none => s
  | some o =>
    if o.refused.isEmpty || !o.fabric.isEmpty || !o.rehome.isEmpty then s
    else
      let t := retireOp (giveData s id) id
      if isEngine o.hart && decide (o.counter = 0) then modCore t (coreOf o.hart) (fun c => { c with kicks := faultHead (o.refused.head?.map (fun a => a.faddr.toNat)) c.kicks })
      else if validHart o.hart then
        keepRefused (o.refused.foldl (fun u a => queueAsync u o.hart a) t) o.hart o.refused
          (o.ret.flatMap (Ret.regs (getHart s o.hart)) ++ o.dest)
      else t

/-! ## Re-homed requests and other nodes (R329, R399) -/

/-- The old homes answer with the new address, and the requests are reissued there (R329). -/
def answerRehome (s : State) (id : Nat) : State :=
  match SMap.find s.ops id with
  | some o => { s with ops := SMap.put s.ops id { o with rehome := [] } }
  | none => s

/-- One request goes to the node its aperture entry names, or is refused (R399). -/
def sendFabric (dev : Nat) (r : State × List Async) (q : FabReq) : State × List Async :=
  match fabricSend r.1 dev q.addr (if q.wr then q.data else 0) with
  | some t => (t, r.2)
  | none => (r.1, r.2 ++ [⟨cREMOTENACK, nackInfo (if q.wr then .store else .load) 0, q.va⟩])

/-- The class-3 accesses of an operation are executed at the remote nodes, and a fill then sends its wakes to the issuer's own
scope instance (R165, R399). -/
def accessOne (s : State) (id : Nat) : State :=
  match SMap.find s.ops id with
  | none => s
  | some o =>
    if o.fabric.isEmpty then s
    else
      let r := o.fabric.foldl (sendFabric (devOfHart o.hart)) (s, [])
      let t := { r.1 with ops := SMap.put r.1.ops id { o with
        fabric := [], refused := o.refused ++ r.2 } }
      if r.2.isEmpty then (o.fabric.filter (fun q => q.fill)).foldl (fun u q =>
        sendWakes u (clusKey (coreOf o.hart)) o.scope q.addr) t
      else t

/-- The remote devices that an operation's class-3 accesses go to, each with the device they leave (R399). -/
def devicePairs (s : State) (o : Op) : List (Nat × Option (Nat × Nat)) :=
  o.fabric.map (fun q => (devOfHart o.hart, (apertureOf s (devOfHart o.hart) q.addr).map (fun e => (e.1, e.2.1))))

/-- The operations of a list, newest first, that share a pair of devices with those in hand, or with one that then has to go
first, oldest first (R399). -/
def sentBefore (s : State) : List (Nat × Op) → List (Nat × Option (Nat × Nat)) → List Nat → List Nat
  | [], _, ids => ids
  | (id, o) :: ps, pairs, ids =>
    let mine := devicePairs s o
    if mine.any (fun d => pairs.contains d) then sentBefore s ps (mine ++ pairs) (id :: ids) else sentBefore s ps pairs ids

/-- The class-3 accesses of an operation are executed, after those of the same pairs of devices that were sent before them: the
transport delivers in order per pair (R399). -/
def accessFabric (s : State) (id : Nat) : State :=
  match SMap.find s.ops id with
  | none => s
  | some o => (sentBefore s (s.ops.filter (fun p => decide (p.1 ≤ id))).reverse (devicePairs s o) []).foldl accessOne s

/-- The class-3 accesses of an operation are not delivered within the transport's retry limit: each is refused (R399). -/
def loseFabric (s : State) (id : Nat) : State :=
  match SMap.find s.ops id with
  | none => s
  | some o => { s with ops := SMap.put s.ops id { o with
      fabric := [], refused := o.refused ++ o.fabric.map (fun q => ⟨cREMOTENACK, nackInfo (if q.wr then .store else .load) 0, q.va⟩) } }

/-- A fill by an issuer of another node is performed by the fabric port, and wakes every cluster of this node (R165). -/
def fillFromNode (s : State) (addr v : Nat) : State :=
  if classOf addr ≠ 0 ∨ addr % 8 ≠ 0 ∨ etherUp s (homeDev addr) = false ∨ isPoisoned s addr = true then s
  else fillAt s ((List.range 8).map (addr + ·)) v 0 6

/-- What a FABRIC_ACCESS step does. -/
def fabricEvent (s : State) : FabricEvent → State
  | .executed id => accessFabric s id
  | .undeliverable id => loseFabric s id
  | .fill addr v => fillFromNode s addr v

/-! ## Performing (R149) -/

/-- The tile that a hart's operation leaves, and the tile of the register it stores to (R388). -/
def tilePair (o : Op) : Option (Nat × Nat × Nat) :=
  o.reg.map (fun r => (coreOf o.hart, regDieKey r.loc, regUnit r.loc))

/-- A register store that was sent before, from the same tile to the same tile, has not performed: requests of one pair of tiles
arrive in the order in which they were sent (R387). -/
def overtakes (s : State) (id : Nat) (o : Op) : Bool :=
  match tilePair o with
  | none => false
  | some d => s.ops.any (fun p => decide (p.1 < id) && decide (tilePair p.2 = some d))

/-- An operation performs at its scope once its data has returned, nothing is refused, forwarded, on its way to another node
or still to be received by a die, and those it comes after have performed: a register store takes effect, and the counter
falls (R149, R234, R278, R387, R389). -/
def performOp (s : State) (id : Nat) : State :=
  match SMap.find s.ops id with
  | none => s
  | some o =>
    if !o.ret.isEmpty || !o.refused.isEmpty || !o.fabric.isEmpty || !o.rehome.isEmpty
        || s.tokens.any (fun p => p.2.op == id) || o.after.any (fun k => (SMap.find s.ops k).isSome) || overtakes s id o then s
    else match o.reg with
      | none => retireOp s id
      | some r => match performReg s o.hart r with
        | some t => retireOp t id
        | none => s

/-- The operations of a hart that have not performed, oldest first. -/
def opsOf (s : State) (hk : Nat) : List Nat := (s.ops.filter (fun p => p.2.hart == hk)).map Prod.fst

/-- One operation comes as far as its hart's next slot needs: its data has returned (log 7). -/
def settleOp (s : State) (id : Nat) : State :=
  let t := accessFabric (match SMap.find s.ops id with
    | some o => if o.rehome.isEmpty then s else answerRehome s id
    | none => s) id
  match SMap.find t.ops id with
  | some o => if o.counter = 1 && !o.refused.isEmpty then returnRefusal t id else returnData t id
  | none => t

/-- Every load of a hart has returned its data: the interlock of R150 before the next slot reads (log 7). -/
def settle (s : State) (hk : Nat) : State := (opsOf s hk).foldl settleOp s

/-! ## The matrix slot table (R198) -/

/-- The valid entry after e in ascending order, wrapping to the lowest. -/
def nextEntry (m : SMap DWord) (e : Nat) : Option Nat :=
  match (mstValid m).find? (fun i => decide (e < i)) with
  | some i => some i
  | none => (mstValid m).head?

/-- A slot has run its length: the table's writes take effect and the next valid entry begins its slot (R198). -/
def slotBoundary (c : Core) : Core :=
  match c.mstSlot with
  | none => c
  | some (e, len, n) =>
    if n < len then c
    else match nextEntry c.mst e with
      | some i => { c with mstLive := c.mst, mstSlot := some (i, bits (SMap.get 0 c.mst i) 15 0, 0) }
      | none => { c with mstLive := c.mst, mstSlot := none }

/-! ## The steps -/

/-- LOAD_DATA_RETURN, R150. -/
def execLoadDataReturn (op : Nat) (s : State) : Host.Outcome State Fault Refusal := .next (returnData s op)
/-- MEMORY_OP_PERFORMED, R149. -/
def execMemoryOpPerformed (op : Nat) (s : State) : Host.Outcome State Fault Refusal := .next (performOp s op)
/-- REMOTE_REFUSAL, R147. -/
def execRemoteRefusal (op : Nat) (s : State) : Host.Outcome State Fault Refusal := .next (returnRefusal s op)
/-- REHOME_REPLY, R329. -/
def execRehomeReply (op : Nat) (s : State) : Host.Outcome State Fault Refusal := .next (answerRehome s op)
/-- FABRIC_ACCESS, R399. -/
def execFabricAccess (x : FabricEvent) (s : State) : Host.Outcome State Fault Refusal := .next (fabricEvent s x)
/-- MST_SLOT_BOUNDARY, R198. -/
def execMstSlotBoundary (ck : Nat) (s : State) : Host.Outcome State Fault Refusal := .next (modCore s ck slotBoundary)

end Sys2Proof.Machine
end

