-- ==== Sys2Proof/Machine/Hazards.lean ====
section
/-! DEFINITION. Which registers a slot reads, so that a convoy that reads the destination of a refused load does not issue
before the trap is taken (R147; log 70). -/
namespace Sys2Proof.Machine

open Sys2Proof

/-- What a field of a slot word names that the slot reads. -/
inductive Use where
  /-- nothing that is read: a destination only, an immediate, a mask, a tile -/
  | none
  /-- a scalar register (R10, R14) -/
  | scalar
  /-- a group of VCFG.GRP registers (R13) -/
  | group
  /-- a run of so many registers: a block, a list, a node group, a B tile (R181, R215, R242) -/
  | run (n : Nat)
  /-- a latent run of NL/2 registers (R190) -/
  | latents
  /-- a query run of ND/2 registers (R190) -/
  | queries
  /-- the run of `mout`, as long as its operand sc says (R260) -/
  | outputs
deriving DecidableEq, Repr

/-- Whether a row stands for the form without an extension word, with one, or both (R71). -/
inductive FormUse where
  | any | short | long
deriving DecidableEq, Repr

/-- What the three fields of some pairs of a major name that is read. A destination that the instruction reads as well
(an accumulator, a counter, an in-place operand) is read; one whose elements it only keeps is not (R104). -/
structure UseRow where
  major : Nat
  fns : List Nat
  form : FormUse
  a : Use
  b : Use
  c : Use
deriving DecidableEq, Repr

/-- The operands that the scalar, control and scalar memory majors read. -/
def usesScalar : List UseRow := [
  ⟨0x00, [1, 2, 3, 4, 5], .any, .none, .scalar, .scalar⟩,
  ⟨0x00, [6], .any, .scalar, .scalar, .scalar⟩,
  ⟨0x01, [0, 1, 2, 3], .any, .none, .scalar, .scalar⟩,
  ⟨0x02, [0, 1, 2, 3], .any, .none, .scalar, .scalar⟩,
  ⟨0x03, [0, 1, 2, 3, 4], .any, .none, .scalar, .scalar⟩,
  ⟨0x04, [0, 1, 2, 3, 4, 5], .long, .none, .scalar, .none⟩,
  ⟨0x04, [0, 1, 2, 3, 4, 5], .short, .scalar, .none, .none⟩,
  ⟨0x04, [6], .any, .none, .scalar, .none⟩,
  ⟨0x05, [0, 1], .any, .none, .scalar, .scalar⟩,
  ⟨0x05, [2], .any, .scalar, .scalar, .scalar⟩,
  ⟨0x06, [0, 1, 2, 3], .any, .none, .scalar, .scalar⟩,
  ⟨0x07, [0, 1, 2, 3], .any, .none, .scalar, .none⟩,
  ⟨0x08, [0, 1], .long, .none, .scalar, .none⟩,
  ⟨0x08, [0, 1], .short, .scalar, .none, .none⟩,
  ⟨0x08, [2], .any, .scalar, .scalar, .none⟩,
  ⟨0x10, [0, 1, 2, 3, 4, 5], .long, .scalar, .scalar, .none⟩,
  ⟨0x10, [0, 1, 2, 3, 4, 5], .short, .scalar, .scalar, .none⟩,
  ⟨0x11, [2], .any, .none, .scalar, .none⟩,
  ⟨0x12, [0], .long, .scalar, .none, .none⟩,
  ⟨0x12, [0], .short, .scalar, .none, .none⟩,
  ⟨0x14, [0, 1, 2, 3, 4, 5, 6], .any, .none, .scalar, .scalar⟩,
  ⟨0x15, [0, 1, 2, 3], .any, .scalar, .scalar, .scalar⟩,
  ⟨0x16, [0, 1, 2], .any, .none, .scalar, .scalar⟩]

/-- The operands that the vector majors read. -/
def usesVector : List UseRow := [
  ⟨0x18, [0, 1, 2, 3, 4], .any, .none, .group, .group⟩,
  ⟨0x18, [5], .any, .group, .group, .group⟩,
  ⟨0x19, [0, 1, 2, 3], .any, .none, .group, .group⟩,
  ⟨0x1A, [0, 1, 2, 3], .any, .none, .group, .group⟩,
  ⟨0x1B, [0, 1, 2], .any, .none, .group, .group⟩,
  ⟨0x1C, [0, 1, 2, 3], .any, .none, .group, .group⟩,
  ⟨0x1D, [0, 1, 2, 3], .any, .none, .group, .group⟩,
  ⟨0x20, [0], .any, .group, .group, .group⟩,
  ⟨0x20, [1, 2, 3, 4], .any, .none, .group, .group⟩,
  ⟨0x20, [5], .any, .none, .group, .none⟩,
  ⟨0x21, [0, 1, 4], .any, .none, .group, .none⟩,
  ⟨0x21, [2, 3], .any, .none, .group, .group⟩,
  ⟨0x22, [0, 1], .any, .none, .group, .none⟩,
  ⟨0x22, [2], .any, .none, .group, .group⟩,
  ⟨0x24, [0, 1, 2, 3, 4, 5], .any, .none, .group, .group⟩,
  ⟨0x25, [0, 1, 2, 3], .any, .none, .group, .group⟩,
  ⟨0x28, [0, 1, 2, 3, 4], .any, .none, .group, .none⟩,
  ⟨0x29, [0, 1], .any, .none, .group, .none⟩,
  ⟨0x2A, [0, 1, 2, 3], .any, .none, .group, .none⟩,
  ⟨0x2C, [0], .any, .none, .group, .group⟩,
  ⟨0x2C, [1], .any, .group, .group, .group⟩,
  ⟨0x2C, [2, 3], .any, .none, .group, .none⟩,
  ⟨0x30, [0], .any, .none, .group, .none⟩,
  ⟨0x30, [1], .any, .none, .scalar, .none⟩,
  ⟨0x30, [2], .any, .none, .group, .group⟩,
  ⟨0x31, [0, 1], .any, .none, .group, .scalar⟩,
  ⟨0x31, [2], .any, .none, .group, .group⟩,
  ⟨0x31, [3, 4], .any, .none, .group, .none⟩,
  ⟨0x32, [0], .any, .none, .group, .scalar⟩,
  ⟨0x32, [1], .any, .group, .group, .scalar⟩,
  ⟨0x33, [0, 1, 2, 3, 4, 5, 6, 7], .any, .none, .group, .scalar⟩,
  ⟨0x34, [0, 1], .any, .none, .group, .none⟩,
  ⟨0x36, [2], .any, .none, .group, .scalar⟩,
  ⟨0x36, [3], .any, .group, .scalar, .scalar⟩]

/-- The operands that the vector memory, atomic and future majors read. -/
def usesMemory : List UseRow := [
  ⟨0x38, [0], .any, .none, .scalar, .none⟩,
  ⟨0x38, [1, 3], .any, .none, .scalar, .scalar⟩,
  ⟨0x38, [2], .any, .none, .scalar, .group⟩,
  ⟨0x39, [0, 3], .any, .group, .scalar, .none⟩,
  ⟨0x39, [1, 4], .any, .group, .scalar, .scalar⟩,
  ⟨0x39, [2], .any, .group, .scalar, .group⟩,
  ⟨0x3A, [0, 1, 2, 3, 4, 5, 6, 7, 8], .any, .none, .scalar, .scalar⟩,
  ⟨0x3A, [9], .any, .scalar, .scalar, .scalar⟩,
  ⟨0x3B, [0, 1, 2, 3, 4, 5, 6, 7, 8], .any, .none, .group, .group⟩,
  ⟨0x3B, [9], .any, .group, .group, .group⟩,
  ⟨0x3D, [0], .any, .none, .scalar, .none⟩,
  ⟨0x3D, [1], .any, .none, .scalar, .group⟩,
  ⟨0x3D, [2], .any, .none, .scalar, .scalar⟩,
  ⟨0x3E, [0, 1], .any, .none, .scalar, .none⟩]

/-- The operands that the matrix, transform and selection majors read. -/
def usesMatrix : List UseRow := [
  ⟨0x44, [0], .any, .none, .run 1, .run 1⟩,
  ⟨0x45, [0, 1], .any, .none, .group, .run 8⟩,
  ⟨0x45, [2], .any, .none, .group, .latents⟩,
  ⟨0x45, [3], .any, .none, .queries, .latents⟩,
  ⟨0x46, [0], .any, .none, .scalar, .scalar⟩,
  ⟨0x46, [1], .any, .none, .scalar, .none⟩,
  ⟨0x47, [2, 3], .any, .none, .scalar, .none⟩,
  ⟨0x48, [0, 1, 2], .any, .none, .none, .scalar⟩,
  ⟨0x48, [3, 4], .any, .none, .group, .scalar⟩,
  ⟨0x4C, [0, 1], .any, .none, .group, .scalar⟩,
  ⟨0x4C, [2, 3], .any, .none, .group, .none⟩,
  ⟨0x4D, [0, 1], .any, .none, .group, .scalar⟩,
  ⟨0x4D, [2, 3], .any, .none, .group, .group⟩,
  ⟨0x4E, [0, 1], .any, .none, .scalar, .scalar⟩,
  ⟨0x4F, [0, 1], .any, .none, .group, .scalar⟩,
  ⟨0x50, [0, 1], .any, .scalar, .group, .none⟩,
  ⟨0x51, [0, 1], .any, .run 1, .group, .scalar⟩,
  ⟨0x51, [2, 3], .any, .none, .run 1, .run 1⟩]

/-- The operands that the task, message, ray, graphics and system majors read. -/
def usesTask : List UseRow := [
  ⟨0x54, [0], .any, .none, .scalar, .scalar⟩,
  ⟨0x54, [1, 2, 3], .any, .none, .scalar, .none⟩,
  ⟨0x55, [0], .any, .none, .scalar, .scalar⟩,
  ⟨0x55, [1], .any, .none, .scalar, .none⟩,
  ⟨0x56, [0], .any, .none, .scalar, .none⟩,
  ⟨0x57, [0], .any, .group, .scalar, .group⟩,
  ⟨0x57, [1, 3], .any, .none, .scalar, .none⟩,
  ⟨0x58, [0, 2], .any, .none, .scalar, .none⟩,
  ⟨0x59, [0, 3], .any, .none, .scalar, .scalar⟩,
  ⟨0x59, [1], .any, .none, .group, .scalar⟩,
  ⟨0x59, [2, 4], .any, .none, .scalar, .none⟩,
  ⟨0x59, [5, 6], .any, .group, .scalar, .scalar⟩,
  ⟨0x5A, [0, 1], .any, .none, .scalar, .none⟩,
  ⟨0x5C, [0, 1], .any, .none, .run 8, .run 2⟩,
  ⟨0x5D, [0], .any, .run 2, .run 1, .run 1⟩,
  ⟨0x5D, [1], .any, .run 2, .run 1, .none⟩,
  ⟨0x5D, [2], .any, .run 8, .run 4, .run 4⟩,
  ⟨0x5D, [3], .any, .none, .run 1, .none⟩,
  ⟨0x5E, [0], .any, .none, .run 8, .scalar⟩,
  ⟨0x5F, [0, 1, 2], .any, .none, .run 4, .scalar⟩,
  ⟨0x5F, [3], .any, .none, .scalar, .scalar⟩,
  ⟨0x60, [0], .any, .outputs, .scalar, .scalar⟩,
  ⟨0x60, [1], .any, .run 1, .scalar, .none⟩,
  ⟨0x60, [2], .any, .none, .scalar, .scalar⟩,
  ⟨0x61, [0], .any, .none, .scalar, .scalar⟩,
  ⟨0x64, [1], .any, .scalar, .none, .none⟩,
  ⟨0x64, [2], .any, .none, .scalar, .none⟩,
  ⟨0x66, [0], .any, .scalar, .scalar, .scalar⟩,
  ⟨0x66, [1], .any, .none, .scalar, .scalar⟩,
  ⟨0x66, [2], .any, .none, .scalar, .none⟩,
  ⟨0x67, [0, 1], .any, .none, .scalar, .none⟩,
  ⟨0x67, [2], .any, .none, .scalar, .scalar⟩]
/-- The operands that every major reads. -/
def useRows : List UseRow := usesScalar ++ usesVector ++ usesMemory ++ usesMatrix ++ usesTask

/-- The registers that a field names for a use. -/
def Use.regs (s : State) (hk : Nat) (w : Word) (sp : BitVec 7) : Use → List RegName
  | .none => []
  | .scalar => (getHart s hk).scalarRegs sp
  | .group => (getHart s hk).groupRegs sp (getHart s hk).grp
  | .run n => (getHart s hk).groupRegs sp n
  | .latents => (getHart s hk).groupRegs sp ((getCore s (coreOf hk)).infNL / 2)
  | .queries => (getHart s hk).groupRegs sp ((getCore s (coreOf hk)).infND / 2)
  | .outputs => (getHart s hk).groupRegs sp (bits ((readS (getHart s hk) (fieldC w)).getD 0) 9 5 + 1)

/-- The registers that a slot reads. -/
def slotReads (s : State) (hk : Nat) (w : Word) (ext : Bool) : List RegName :=
  (useRows.filter (fun r => decide (r.major = fieldMajor w) && r.fns.contains (fieldFn w)
    && (match r.form with | .any => true | .short => !ext | .long => ext))).flatMap (fun r =>
      r.a.regs s hk w (fieldA w) ++ r.b.regs s hk w (fieldB w) ++ r.c.regs s hk w (fieldC w))

end Sys2Proof.Machine
end

