-- ==== Sys2Proof/Machine/Convoy.lean ====
section
/-! DEFINITION. Issuing a convoy (R8, R19, R35, R65 to R68, R73, R74, R97, R273 to R275): its fetch, the check of its
header, its slots in order, and its retirement. -/
namespace Sys2Proof.Machine

open Sys2Proof

/-! ## Fetch and header (R65, R67, R273) -/

/-- The four words of a convoy at a location. -/
def convoyWords (s : State) (l : Nat) : Word × List Word :=
  let w (k : Nat) : Word := BitVec.ofNat 32 (readN s (l + 4 * k) 4)
  (w 0, [w 1, w 2, w 3])

/-- A convoy is fetched from the global window, through the slice that serves its hart's device, and its fetch may fail (R273,
R318). -/
def fetchConvoy (s : State) (hk : Nat) (pc : DWord) : Chk (Word × List Word) :=
  if windowOf pc ≠ 0 then .fault cWINDOWFAULT (windowInfo pc .fetch) pc s
  else match translate s (agentOf s hk) .fetch pc .scalar with
    | .fault c i va t => .fault c i va t
    | .miss t => .miss t
    | .ok l t =>
      match refusal t (agentOf t hk) .fetch pc (l, 16) with
      | some r => .fault r.cause (if r.cause = cPOISON then 1 else r.info) pc t
      | none => .ok (convoyWords t l) (touchSector t (devOfHart hk) none l)

/-- Slot k is live and no extension word (R66, R67). -/
def liveSlot (hdr : Word) (k : Nat) : Bool := decide (k < hdrNS hdr) && !isExt hdr k

/-- The header check of R67; `plain` is the further rule of translation service cores and engine harts (R9, R172). An undefined pair
of majors 0x10 to 0x12 counts as one of these majors (DESIGN CHOICE, log 89). -/
def headerOk (plain : Bool) (hdr : Word) (ws : List Word) : Bool :=
  let ns := hdrNS hdr
  let major (k : Nat) : Nat := fieldMajor (ws.getD k 0)
  let fn (k : Nat) : Nat := fieldFn (ws.getD k 0)
  decide (ns ≠ 0) && decide (bits hdr 31 28 = 0)
    && !(hdrExt1 hdr && decide (ns < 2)) && !(hdrExt2 hdr && decide (ns < 3)) && !(hdrExt1 hdr && hdrExt2 hdr)
    && (List.range 3).all (fun k => liveSlot hdr k || decide (hdrMsk hdr k = 0))
    && (List.range 2).all (fun k => !isExt hdr (k + 1) || (pairDefined (major k) (fn k) && admitsExt (major k) (fn k)))
    && decide (((List.range 3).filter (fun k =>
        liveSlot hdr k && decide (0x10 ≤ major k ∧ major k ≤ 0x12))).length ≤ 1)
    && (decide (ns = 1) || (List.range 3).all (fun k => !(liveSlot hdr k && decide (major k = 0x65 ∧ fn k = 1))))
    && (!plain || (decide (hdrStage hdr = 0) && (List.range 3).all (fun k => decide (hdrMsk hdr k = 0))))

/-- A resumed hart's CVR.SLOT names an extension word of the convoy (R35). -/
def resumeBad (h : Hart) (hdr : Word) : Bool := h.resume && bit h.cvr 7 && isExt hdr (bits h.cvr 1 0)

/-! ## Beginning and retiring (R16, R35, R74, R97, R270, R275) -/

/-- A convoy as a hart begins it: from slot 0, or where CVR and VRI resume it, with the held transfer; a slot marked
complete is passed over (R35, R97, R270). The slots of a resumed convoy stand under SPRD as it was when the convoy first
began, whatever `lrot` or the handler has made of it since (R74, R99; DEDUCED, log 74). -/
def beginConv (h : Hart) (hdr : Word) (ws : List Word) : Conv :=
  if h.resume && bit h.cvr 7 then
    let c : Conv := {
      hdr := hdr, words := ws, sprd := (h.sprdKept.headD none).getD h.sprd, slot := bits h.cvr 1 0, elem := bits h.vri 15 0,
      bitpos := bits h.vri 63 16, resumed := true, ret := true, target := h.held }
    if bits h.vri 15 0 = 0xFFFF then c.advance else c
  else { hdr := hdr, words := ws, sprd := h.sprd }

/-- The hart begins a convoy at an address with the members of its rope; the convoy it resumes takes the held transfer over. -/
def Hart.begin (crew : List Nat) (pc : DWord) (hdr : Word) (ws : List Word) (h : Hart) : Hart :=
  { h with pc := pc, conv := some { beginConv h hdr ws with crew := crew }, held := if h.resume then none else h.held,
           sprdKept := if h.resume then h.sprdKept.drop 1 else h.sprdKept, resume := false, wait := .none, grant := none }

/-- The convoy retires: pending entries enter the last-result file, the PC takes the decided target or the next convoy, a
resumed convoy clears HEPC, CVR and VRI, and VER 1 hints take effect (R16, R74, R96, R275). -/
def Hart.retire (h : Hart) : Hart :=
  match h.conv with
  | none => h
  | some c =>
    let hint := if hdrVer c.hdr = 1 then hdrHint c.hdr else 0
    { h with
      q := h.q.retire, pc := c.target.getD (h.pc + 16), conv := none,
      hepc := if c.ret then 0 else h.hepc, cvr := if c.ret then 0 else h.cvr, vri := if c.ret then 0 else h.vri,
      stall := hint % 8, yield := h.yield || decide (hint ≥ 8) }

/-! ## Running slots (R68, R73) -/

/-- The slot reached: an undefined pair raises ILLEGAL-INSTRUCTION, any other has its meaning (R73). -/
def stepSlot (s : State) (hk : Nat) : State :=
  let h := getHart s hk
  let c := h.curConv
  let w := c.words.getD c.slot 0
  let e := Sys2Proof.extOf c.hdr c.words c.slot
  let bad := !fieldsOk (fieldMajor w) (fieldFn w) (fieldA w) (fieldB w) (fieldC w) e
  let s0 : State := { setHart s hk { h with conv := some { c with bad := bad } } with cur := hk }
  if pairDefined (fieldMajor w) (fieldFn w) = false then finishSlot hk h.prefixLive (badInstruction s0 hk)
  else match slotMeaning (fieldMajor w) (fieldFn w) (fieldA w) (fieldB w) (fieldC w) e s0 with
    | .next t => t
    | _ => s0

/-- The slots of a hart's convoy run in order until it retires, traps, waits or ends (R68). -/
def runSlots : Nat → State → Nat → State
  | 0, s, _ => s
  | n + 1, s, hk =>
    match (getHart s hk).conv with
    | none => s
    | some c =>
      if c.slot ≥ hdrNS c.hdr then modHart s hk Hart.retire
      else
        let t := settle (stepSlot s hk) hk
        if (getHart t hk).conv.isNone || decide ((getHart t hk).wait ≠ .none) then t else runSlots n t hk

/-- Three slots and a retirement. -/
def runConvoy (s : State) (hk : Nat) : State := runSlots 4 s hk

/-- A convoy reads a destination of a refused load whose trap is still pending (R147). -/
def readsRefused (s : State) (hdr : Word) (ws : List Word) (hk : Nat) : Bool :=
  let h := getHart s hk
  let regs := (h.zeroed.filter (fun z => h.async.contains z.trap)).flatMap (fun z => z.regs)
  !regs.isEmpty && (List.range 3).any (fun k => liveSlot hdr k
    && (slotReads s hk (ws.getD k 0) (Sys2Proof.extOf hdr ws k).isSome).any (fun r => regs.contains r))

/-! ## Issue (R8, R19, R274) -/

/-- A fault of the fetch, recorded at the target convoy with CVR.V = 0 (R269, R273). -/
def fetchTrap (cause info : Nat) (va pc : DWord) : TrapInfo := ⟨cause, info, false, va, pc, 0, false, 0, 0⟩

/-- ILLEGAL-CONVOY, recorded at the convoy with CVR.V = 0 (R67, R269). -/
def convoyTrap (hdr : Word) (pc : DWord) : TrapInfo := ⟨cILLEGALCONVOY, hdr.toNat, false, 0, pc, 0, false, 0, 0⟩

/-- The convoy at the PC is fetched, checked, and begun on every member of the rope, and its slots run (R19, R67). One that
reads the destination of a refused load does not issue while the trap is pending (R147). -/
def beginConvoy (s : State) (hk : Nat) : State :=
  let pc := (getHart s hk).pc
  match fetchConvoy s hk pc with
  | .miss t => t
  | .fault c i va t => raiseTrap t hk (fetchTrap c i va pc)
  | .ok (hdr, ws) t =>
    if headerOk (isTsc (unitOf (coreOf hk)) || isEngine hk) hdr ws = false || resumeBad (getHart t hk) hdr then
      raiseTrap t hk (convoyTrap hdr pc)
    else if !(getHart s hk).resume && (ropeOf t hk).any (readsRefused s hdr ws) then t
    else
      let ms := ropeOf t hk
      let u := ms.foldl (fun v m => modHart v m (Hart.begin (if ms.length < 2 then [] else ms) pc hdr ws)) t
      ms.foldl runConvoy u

/-- What a hart does at a point where it may leave its stream: a task that is being cancelled or aborted ends, a hart of a
fenced context stops, a pending asynchronous trap is taken (R222, R229, R234, R274, R403); none where none applies. -/
def atBoundary (s : State) (hk : Nat) : Option State :=
  let h := getHart s hk
  if h.endsNow then some (endHart s hk h.ending)
  else if h.takeable then some (takeAsync s hk)
  else none

/-- The first of some harts that leaves its stream. -/
def firstBoundary (s : State) : List Nat → Option State
  | [] => none
  | m :: ms => match atBoundary s m with
    | some t => some t
    | none => firstBoundary s ms

/-- A hart may issue: it is running, or follows a leader, on a module in operation (R7, R413). -/
def mayIssue (s : State) (hk : Nat) : Bool :=
  let h := getHart s hk
  (decide (h.st = .running) || decide (h.st = .follower)) && !(getDev s (devOfHart hk)).off

/-- A hart's turn to issue: it goes on in its convoy, or begins the next one with every member of its rope (R8, R19,
R74). -/
def issueConvoy (s : State) (hk : Nat) : State :=
  let h := getHart s hk
  let s := modCore s (coreOf hk) (fun c => { c with lastHart := hartNo hk })
  if !mayIssue s hk then s
  else match atBoundary s hk with
    | some t => t
    | none =>
      if h.conv.isSome then runConvoy s hk
      else if isMember s hk ∨ h.stall ≠ 0 then s
      else if h.yield then setHart s hk { h with yield := false }
      else if (ropeOf s hk).any (fun m => (getHart s m).conv.isSome) then s
      else match firstBoundary s (ropeOf s hk) with
        | some t => t
        | none => beginConvoy s hk

/-- The stall count of a convoy's hint has run out (R74). -/
def expireStall (s : State) (hk : Nat) : State := modHart s hk (fun h => if h.stall ≤ 1 then { h with stall := 0 } else h)

/-! ## The steps -/

/-- CONVOY_ISSUE, R67. A key that names no hart of the node is a fault. -/
def execConvoyIssue (hk : Nat) (s : State) : Host.Outcome State Fault Refusal :=
  if validHart hk then .next (issueConvoy s hk) else .fault .noSuchHart
/-- ASYNC_TRAP, R274. -/
def execAsyncTrap (hk : Nat) (s : State) : Host.Outcome State Fault Refusal := .next ((atBoundary s hk).getD s)
/-- HINT_STALL_EXPIRY, R74. -/
def execHintStallExpiry (hk : Nat) (s : State) : Host.Outcome State Fault Refusal := .next (expireStall s hk)

end Sys2Proof.Machine
end

