-- ==== Sys2Proof/Machine/Crypto.lean ====
section
/-! DEFINITION. SHA-256 and the verification of ECDSA signatures on the curve P-256, which the configuration table's check
names (R369). The two algorithms are those of the published standards (log 15). -/
namespace Sys2Proof.Machine

open Sys2Proof

/-! ## SHA-256 -/

/-- The 64 round constants. -/
def shaK : List Word :=
  ([0x428A2F98, 0x71374491, 0xB5C0FBCF, 0xE9B5DBA5, 0x3956C25B, 0x59F111F1, 0x923F82A4, 0xAB1C5ED5] ++
   [0xD807AA98, 0x12835B01, 0x243185BE, 0x550C7DC3, 0x72BE5D74, 0x80DEB1FE, 0x9BDC06A7, 0xC19BF174] ++
   [0xE49B69C1, 0xEFBE4786, 0x0FC19DC6, 0x240CA1CC, 0x2DE92C6F, 0x4A7484AA, 0x5CB0A9DC, 0x76F988DA] ++
   [0x983E5152, 0xA831C66D, 0xB00327C8, 0xBF597FC7, 0xC6E00BF3, 0xD5A79147, 0x06CA6351, 0x14292967] ++
   [0x27B70A85, 0x2E1B2138, 0x4D2C6DFC, 0x53380D13, 0x650A7354, 0x766A0ABB, 0x81C2C92E, 0x92722C85] ++
   [0xA2BFE8A1, 0xA81A664B, 0xC24B8B70, 0xC76C51A3, 0xD192E819, 0xD6990624, 0xF40E3585, 0x106AA070] ++
   [0x19A4C116, 0x1E376C08, 0x2748774C, 0x34B0BCB5, 0x391C0CB3, 0x4ED8AA4A, 0x5B9CCA4F, 0x682E6FF3] ++
   [0x748F82EE, 0x78A5636F, 0x84C87814, 0x8CC70208, 0x90BEFFFA, 0xA4506CEB, 0xBEF9A3F7, 0xC67178F2])

/-- The initial hash value. -/
def shaInit : List Word :=
  [0x6A09E667, 0xBB67AE85, 0x3C6EF372, 0xA54FF53A, 0x510E527F, 0x9B05688C, 0x1F83D9AB, 0x5BE0CD19]

/-- The padded message: a 1 bit, zeros, and the length in bits as 64 bits, big-endian. -/
def shaPad (m : List Byte) : List Byte :=
  let n := m.length
  let bitsOf : DWord := BitVec.ofNat 64 (8 * n)
  m ++ ([0x80] : List Byte) ++ List.replicate ((119 - n % 64) % 64) (0 : Byte)
    ++ (List.range 8).map (fun k => BitVec.ofNat 8 (bitsOf.toNat >>> (56 - 8 * k)))

/-- Big-endian words of a byte list. -/
def wordsBE : Nat → List Byte → List Word
  | 0, _ => []
  | n + 1, bs => BitVec.ofNat 32 ((bs.take 4).foldl (fun a b => a * 256 + b.toNat) 0) :: wordsBE n (bs.drop 4)

/-- The schedule of a block, newest word first, from its first sixteen. -/
def shaSchedule : Nat → List Word → List Word
  | 0, w => w
  | n + 1, w =>
    let g (k : Nat) : Word := w.getD (k - 1) 0
    let s0 (x : Word) : Word := x.rotateRight 7 ^^^ x.rotateRight 18 ^^^ (x >>> 3)
    let s1 (x : Word) : Word := x.rotateRight 17 ^^^ x.rotateRight 19 ^^^ (x >>> 10)
    shaSchedule n ((s1 (g 2) + g 7 + s0 (g 15) + g 16) :: w)

/-- One round. -/
def shaRound (h : List Word) (kw : Word × Word) : List Word :=
  let g (k : Nat) : Word := h.getD k 0
  let e := g 4
  let a := g 0
  let t1 := g 7 + (e.rotateRight 6 ^^^ e.rotateRight 11 ^^^ e.rotateRight 25) + ((e &&& g 5) ^^^ (~~~e &&& g 6)) + kw.1 + kw.2
  let t2 := (a.rotateRight 2 ^^^ a.rotateRight 13 ^^^ a.rotateRight 22) + ((a &&& g 1) ^^^ (a &&& g 2) ^^^ (g 1 &&& g 2))
  [t1 + t2, a, g 1, g 2, g 3 + t1, e, g 5, g 6]

/-- One block. -/
def shaBlock (h : List Word) (block : List Byte) : List Word :=
  let w := (shaSchedule 48 (wordsBE 16 block).reverse).reverse
  (h.zip ((shaK.zip w).foldl shaRound h)).map (fun p => p.1 + p.2)

/-- The blocks of a padded message. -/
def shaBlocks : Nat → List Byte → List Word → List Word
  | 0, _, h => h
  | n + 1, m, h => shaBlocks n (m.drop 64) (shaBlock h (m.take 64))

/-- SHA-256 of a byte list. -/
def sha256 (m : List Byte) : List Byte :=
  let p := shaPad m
  (shaBlocks (p.length / 64) p shaInit).flatMap (fun w =>
    (List.range 4).map (fun k => BitVec.ofNat 8 (w.toNat >>> (24 - 8 * k))))

/-! ## ECDSA on P-256 -/

/-- The field of P-256. -/
def p256 : Nat := 2 ^ 256 - 2 ^ 224 + 2 ^ 192 + 2 ^ 96 - 1
/-- The order of its base point. -/
def p256n : Nat := 0xFFFFFFFF00000000FFFFFFFFFFFFFFFFBCE6FAADA7179E84F3B9CAC2FC632551
/-- The curve's constant b; a is −3. -/
def p256b : Nat := 0x5AC635D8AA3A93E7B3EBBD55769886BC651D06B0CC53B0F63BCE3C3E27D2604B
/-- The base point. -/
def p256g : Nat × Nat :=
  (0x6B17D1F2E12C4247F8BCE6E563A440F277037D812DEB33A0F4A13945D898C296,
   0x4FE342E2FE1A7F9B8EE7EB4A7C0F9E162BCE33576B315ECECBB6406837BF51F5)

/-- x to a power modulo m, from the exponent's top bit down. -/
def powMod (x e m : Nat) : Nat :=
  (List.range 256).foldl (fun a i => let q := a * a % m; if e.testBit (255 - i) then q * x % m else q) 1

/-- The inverse modulo a prime. -/
def invMod (x m : Nat) : Nat := powMod (x % m) (m - 2) m

/-- Addition of curve points; none is the point at infinity. -/
def ecAdd (a b : Option (Nat × Nat)) : Option (Nat × Nat) :=
  match a, b with
  | none, q => q
  | q, none => q
  | some (x1, y1), some (x2, y2) =>
    let p := p256
    if x1 = x2 ∧ (y1 + y2) % p = 0 then none
    else
      let l := if x1 = x2 then (3 * x1 * x1 + p - 3) * invMod (2 * y1) p % p
        else (y2 + p - y1) * invMod (x2 + p - x1) p % p
      let x := (l * l + 2 * p - x1 - x2) % p
      some (x, (l * (x1 + p - x) + p - y1) % p)

/-- A multiple of a point. -/
def ecMul (k : Nat) (q : Option (Nat × Nat)) : Option (Nat × Nat) :=
  (List.range 256).foldl (fun a i => let d := ecAdd a a; if k.testBit (255 - i) then ecAdd d q else d) none

/-- A big-endian number. -/
def natBE (bs : List Byte) : Nat := bs.foldl (fun a b => a * 256 + b.toNat) 0

/-- A signature (r then s) by a public key (x then y) over a message (R369). -/
def ecdsaOk (key sig msg : List Byte) : Bool :=
  let x := natBE (key.take 32)
  let y := natBE ((key.drop 32).take 32)
  let r := natBE (sig.take 32)
  let s := natBE ((sig.drop 32).take 32)
  let e := natBE (sha256 msg)
  decide (x < p256 ∧ y < p256 ∧ y * y % p256 = (x * x * x + (p256 - 3) * x + p256b) % p256
      ∧ 0 < r ∧ r < p256n ∧ 0 < s ∧ s < p256n)
    && (let w := invMod s p256n
        match ecAdd (ecMul (e * w % p256n) (some p256g)) (ecMul (r * w % p256n) (some (x, y))) with
        | some q => decide (q.1 % p256n = r)
        | none => false)

end Sys2Proof.Machine
end

