-- ==== Sys2Proof/Machine/Scheduler.lean ====
section
/-! DEFINITION. The task scheduler (R22, R23, R266, R331 to R349): hosting, input tiles, the start of tasks, and the
dispatch cycle of a die, which also counts the cycles its timebase and its units wait for (R74, R198, R233, R240, R282,
R397). -/
namespace Sys2Proof.Machine

open Sys2Proof

/-! ## Input-tile descriptors (R340, R341, R344) -/

/-- DST of a descriptor. -/
def tileDst (d : List DWord) : Nat := bits (d.getD 2 0) 31 0
/-- ROWB of a descriptor. -/
def tileRowB (d : List DWord) : Nat := bits (d.getD 1 0) 47 32
/-- ROWS of a descriptor. -/
def tileRows (d : List DWord) : Nat := bits (d.getD 1 0) 63 48
/-- Bytes of a tile. -/
def tileSize (d : List DWord) : Nat := tileRowB d * tileRows d
/-- TAG of a descriptor. -/
def tileTag (d : List DWord) : DWord := d.getD 3 0
/-- Address of byte c of row r of a tile's source. -/
def tileSrc (d : List DWord) (r c : Nat) : Nat :=
  wrapInt 64 ((d.getD 0 0).toNat + (r : Int) * toSigned 32 (bits (d.getD 1 0) 31 0) + c)

/-- A descriptor keeps the layout of R340 for a block of so many bytes. -/
def tileOk (block : Nat) (d : List DWord) : Bool :=
  decide (tileDst d % 64 = 0 ∧ bits (d.getD 2 0) 63 32 = 0 ∧ 0 < tileSize d ∧ tileDst d + tileSize d ≤ block)

/-- The first of n byte addresses that a context may not read, if any. -/
def firstBad (s : State) (dev ctx va : Nat) : Nat → Option Nat
  | 0 => none
  | n + 1 => if (ctxRead s dev ctx va 1).isNone then some va else firstBad s dev ctx (va + 1) n

/-- What the scheduler finds when it considers a task: its descriptors, or the address FADDR gets with its drop. -/
inductive Considered where
  | ok (descs : List (List DWord))
  | drop (addr : Nat)

/-- n input-tile descriptors are read from an address (R341, R344). -/
def readDescs (s : State) (dev ctx block va : Nat) : Nat → Considered
  | 0 => .ok []
  | n + 1 =>
    match ctxWords s dev ctx va 4 with
    | none => .drop ((firstBad s dev ctx va 32).getD va)
    | some d =>
      if tileOk block d then
        match readDescs s dev ctx block (va + 32) n with
        | .ok ds => .ok (d :: ds)
        | .drop a => .drop a
      else .drop va

/-! ## What stands on a core (R338, R339, R342) -/

/-- Entries staged on a core. -/
def stagedOn (s : State) (ck : Nat) : List QEntry :=
  (s.queues.filter (fun p => p.1 / 4096 == devOf (dieOf ck))).flatMap (fun p => p.2.entries.filter (fun e =>
    match e.staged with | some (cs, _) => cs.contains ck | none => false))

/-- The harts of a core, as keys. -/
def hartsOf (ck : Nat) : List Nat := (List.range 8).map (fun h => ck * 8 + h)

/-- Tasks that run on a core. -/
def tasksOn (s : State) (ck : Nat) : List Task := (hartsOf ck).filterMap (fun hk => (getHart s hk).task)

/-- Running harts of a core (R7, R345). -/
def runningOn (s : State) (ck : Nat) : Nat := ((hartsOf ck).filter (fun hk => (getHart s hk).st == .running)).length

/-- A launch entry starts its instances on ropes of its launch's size code; every other task runs alone (R336). -/
def entryRope (l : Launch) (e : QEntry) : Nat := if e.kind = 1 then l.rope else 0

/-- Pool chunks that an entry's launch takes (R335). -/
def entryChunks (s : State) (e : QEntry) : Nat :=
  match SMap.find s.launches e.launch with | some l => l.vchunks | none => 0

/-- Pool chunks taken on a core, by its harts and by staged tasks. -/
def chunksTaken (s : State) (ck : Nat) : Nat :=
  ((hartsOf ck).map (fun hk => (getHart s hk).chunks.length)).sum + ((stagedOn s ck).map (entryChunks s)).sum

/-- Launches that a core runs or stages. -/
def launchesOn (s : State) (ck : Nat) : List Nat :=
  (tasksOn s ck).map Task.launch ++ (stagedOn s ck).map QEntry.launch

/-- Size of a mesh buffer (R357). -/
def meshSize : Nat := 34816

/-- Byte ranges of blocks and mesh buffers, as offset and size. -/
def rangesOf (bs : List Block) (ms : List (Nat × Nat)) : List (Nat × Nat) :=
  bs.map (fun b => (b.off, b.size)) ++ ms.map (fun m => (m.1, meshSize))

/-- The lowest offset on a 4 KiB boundary where n bytes of a scratchpad are free (R338; log 9). -/
def firstFit (occ : List (Nat × Nat)) (n : Nat) : Option Nat :=
  ((List.range 256).map (· * 4096)).find? (fun o =>
    decide (o + n ≤ 2 ^ 20) && occ.all (fun r => decide (o + n ≤ r.1 ∨ r.1 + r.2 ≤ o)))

/-- Room for n bytes beside kept blocks, giving up blocks of launches that the core neither runs nor stages, no more than
needed (R338): the blocks left and the offset. -/
def makeRoom (ms : List (Nat × Nat)) (n : Nat) (keep : List Block) : List Block → Option (List Block × Nat)
  | [] => (firstFit (rangesOf keep ms) n).map (fun o => (keep, o))
  | b :: bs =>
    match firstFit (rangesOf (keep ++ b :: bs) ms) n with
    | some o => some (keep ++ b :: bs, o)
    | none => makeRoom ms n keep bs

/-- Room for n bytes on a core whose blocks of some launches stay. -/
def roomFor (busy : List Nat) (bs : List Block) (ms : List (Nat × Nat)) (n : Nat) : Option (List Block × Nat) :=
  makeRoom ms n (bs.filter (fun b => busy.contains b.launch)) (bs.filter (fun b => !busy.contains b.launch))

/-- The block of a launch and, with MESH = 1, a mesh buffer: the core's blocks then, and the buffer's offset (R338, R339,
R357). -/
def placeOn (s : State) (ck ln : Nat) (l : Launch) : Option (List Block × Option Nat) :=
  let c := getCore s ck
  let busy := ln :: launchesOn s ck
  let withBlock :=
    if l.spad = 0 ∨ c.blocks.any (fun b => b.launch == ln) = true then some c.blocks
    else (roomFor busy c.blocks c.meshes (l.spad * 4096)).map (fun r => r.1 ++ [⟨ln, r.2, l.spad * 4096⟩])
  match withBlock with
  | none => none
  | some bs =>
    if l.mesh then (roomFor busy bs c.meshes meshSize).map (fun r => (r.1, some r.2)) else some (bs, none)

/-- Two tiles of one block are the same shared tile (R341). -/
def sameTile (a b : List DWord) : Bool := decide (a = b ∧ tileTag a ≠ 0)

/-- The byte ranges of two tiles overlap. -/
def tilesOverlap (a b : List DWord) : Bool :=
  decide (tileDst a < tileDst b + tileSize b ∧ tileDst b < tileDst a + tileSize a)

/-- Tiles of a launch that tasks on a core, running or staged, declare. -/
def tilesInUse (s : State) (ck ln : Nat) : List (List DWord) :=
  ((tasksOn s ck).filter (fun t => t.launch == ln)).flatMap Task.tiles
    ++ ((stagedOn s ck).filter (fun e => e.launch == ln)).flatMap (fun e => e.tiles.getD [])

/-- A tile conflicts on a core (R342). -/
def tileConflicts (s : State) (ck ln : Nat) (d : List DWord) : Bool :=
  (tilesInUse s ck ln).any (fun x => tilesOverlap d x && !sameTile d x)

/-- A tile of an entry is on a core, resident or on its way: a tagged one for the launch, another for the entry (R341). -/
def tileHere (c : Core) (ln uid : Nat) (d : List DWord) : Option RTile :=
  c.tiles.find? (fun t => t.launch == ln && decide (t.desc = d) && (decide (tileTag d ≠ 0) || t.owner == uid))

/-- A tile of an entry is resident on a core. -/
def tileReady (c : Core) (ln uid : Nat) (d : List DWord) : Bool :=
  match tileHere c ln uid d with | some t => t.resident | none => false

/-- A pre-emption of the context is in progress on the core (R282). -/
def ctxLeaving (s : State) (ck ctx : Nat) : Bool :=
  match (getCore s ck).preempt with
  | some p => !p.harts.isEmpty && p.ctxs.contains ctx
  | none => false

/-- Hart numbers of a core that can host the next task of an entry; none where the core cannot (R339). -/
def freeHarts (s : State) (q : Queue) (e : QEntry) (l : Launch) (descs : List (List DWord)) (ck : Nat) : List Nat :=
  let reserved := (stagedOn s ck).filterMap (fun x => x.staged.map Prod.snd)
  if q.dies.testBit (dieNo (dieOf ck)) && q.clus.testBit (clusNo (unitOf ck)) && isCompute s ck
      && decide (chunksTaken s ck + l.vchunks ≤ 64)
      && decide (((launchesOn s ck).filter (· == e.launch)).length < (if l.harts = 0 then 8 else l.harts))
      && (placeOn s ck e.launch l).isSome
      && descs.all (fun d => !tileConflicts s ck e.launch d)
      && !ctxLeaving s ck e.ctx then
    (List.range 8).filter (fun h => (getHart s (ck * 8 + h)).st == .idle && !reserved.contains h)
  else []

/-- Cores and hart number of a place for a task or a rope, the leader first. -/
abbrev Place := List Nat × Nat

/-- The place on a core, or on the rectangle a core leads, that can host the next task of an entry: the lowest hart number
free on every core (R18, R337, R339, R345). -/
def placeAt (code : Nat) (free : Nat → List Nat) (ck : Nat) : Option Place :=
  let u := unitOf ck
  let cs := (ropeHarts (ck * 8) code (ropeOrigin u code)).map coreOf
  if cs.head? = some ck then
    ((List.range 8).find? (fun h => cs.all (fun c => (free c).contains h))).map (fun h => (cs, h))
  else none

/-- Every place of a device that can host the next task of an entry (R339). -/
def placesFor (s : State) (dev : Nat) (q : Queue) (e : QEntry) (l : Launch) (descs : List (List DWord)) : List Place :=
  ((diesOfDev dev).flatMap tilesOfDie).filterMap (placeAt (entryRope l e) (freeHarts s q e l descs))

/-- Bytes of an entry's inputs resident at a place. -/
def residentBytes (s : State) (e : QEntry) (descs : List (List DWord)) (p : Place) : Nat :=
  (p.1.map (fun ck => ((descs.filter (tileReady (getCore s ck) e.launch e.uid)).map tileSize).sum)).sum

/-- Every input of an entry is resident at a place. -/
def allResident (s : State) (e : QEntry) (descs : List (List DWord)) (p : Place) : Bool :=
  p.1.all (fun ck => descs.all (tileReady (getCore s ck) e.launch e.uid))

/-- A place is better than another for a die: more resident bytes, then fewer running harts, then the lower leader at or
after the rotating core pointer (R345). -/
def betterPlace (s : State) (dk : Nat) (e : QEntry) (descs : List (List DWord)) (a b : Place) : Bool :=
  let bytes (p : Place) : Nat := residentBytes s e descs p
  let busy (p : Place) : Nat := (p.1.map (runningOn s)).sum
  let turn (p : Place) : Nat := (coreNum (p.1.headD 0) + 768 - (getDie s dk).corePtr % 768) % 768
  if bytes a ≠ bytes b then decide (bytes a > bytes b)
  else if busy a ≠ busy b then decide (busy a < busy b)
  else decide (turn a < turn b)

/-- The best of some places. -/
def bestPlace (s : State) (dk : Nat) (e : QEntry) (descs : List (List DWord)) : List Place → Option Place
  | [] => none
  | p :: ps => match bestPlace s dk e descs ps with
    | none => some p
    | some b => if betterPlace s dk e descs b p then some b else some p

/-! ## Reserving, staging and permits (R341, R345) -/

/-- A task's place on one core is made: its block, its mesh buffer for a hart; blocks given up lose their tiles (R338,
R357). -/
def reserveOn (s : State) (ck h ln : Nat) (l : Launch) : State :=
  match placeOn s ck ln l with
  | none => s
  | some (bs, m) => modCore s ck (fun c => { c with
      blocks := bs, tiles := c.tiles.filter (fun t => bs.any (fun b => b.launch == t.launch)),
      meshes := match m with | some o => c.meshes ++ [(o, ck * 8 + h)] | none => c.meshes })

/-- A permit for a tile that an entry misses on a core: what it overlaps is no longer resident (R341; log 12). -/
def permit (e : QEntry) (ck : Nat) (s : State) (d : List DWord) : State :=
  if (tileHere (getCore s ck) e.launch e.uid d).isSome then s
  else
    let r := fresh s
    let t : RTile := {
      launch := e.launch, desc := d, resident := false, owner := if tileTag d = 0 then e.uid else 0, ctx := e.ctx,
      id := r.1 }
    post (modCore r.2 ck (fun c => { c with
      tiles := c.tiles.filter (fun x => !(x.launch == e.launch && tilesOverlap x.desc d && x.owner != e.uid)) ++ [t] }))
      (.tileResident ck r.1)

/-- An entry of a queue is changed. -/
def modEntry (s : State) (qk seq : Nat) (f : QEntry → QEntry) : State :=
  match SMap.find s.queues qk with
  | none => s
  | some q => { s with queues := SMap.put s.queues qk { q with
      entries := q.entries.map (fun e => if e.seq = seq then f e else e) } }

/-- An entry that is staged takes its place in an ordered queue or a bin set's sub-queue (R333, R348). -/
def reorderStaged (s : State) (qk seq : Nat) : State :=
  match SMap.find s.queues qk with
  | none => s
  | some q =>
    match q.entries.find? (fun e => e.seq == seq) with
    | none => s
    | some e =>
      if !(q.ordd || q.kind == 1) || e.settled then s
      else { s with queues := SMap.put s.queues qk { q with
        entries := placeStaged e (q.entries.filter (fun x => x.seq != seq)) } }

/-- An entry is staged at a place: its hart, registers, block and mesh buffer are reserved and permits issued (R345). -/
def stageEntry (s : State) (qk : Nat) (e : QEntry) (l : Launch) (descs : List (List DWord)) (p : Place) : State :=
  let s1 := p.1.foldl (fun t ck => reserveOn t ck p.2 e.launch l) s
  let s2 := modEntry (reorderStaged s1 qk e.seq) qk e.seq (fun x => { x with staged := some p, tiles := some descs })
  p.1.foldl (fun t ck => descs.foldl (permit e ck) t) s2

/-! ## Starting a task (R22, R23, R266, R336 to R338) -/

/-- The lowest pool chunks of a core that no hart holds (R11; log 9). -/
def freeChunks (s : State) (ck n : Nat) : List Nat :=
  let used := (hartsOf ck).flatMap (fun hk => (getHart s hk).chunks)
  ((List.range 64).filter (fun k => !used.contains k)).take n

/-- Chunks pass to a context: those that hold another's values are zeroed (R23). -/
def giveChunks (s : State) (ck ctx : Nat) (ks : List Nat) : State :=
  modCore s ck (fun c =>
    let wiped := ks.filter (fun k => SMap.get 0 c.poolCtx k != ctx)
    { c with pool := c.pool.filter (fun p => !wiped.contains (p.1 / 32)),
             poolCtx := ks.foldl (fun m k => SMap.set 0 m k ctx) c.poolCtx })

/-- A hart that passes from one context to another has its whole state zeroed (R23); one that no context has had keeps what
reset left in it (log 52). -/
def Hart.passTo (h : Hart) (ctx : Nat) : Hart :=
  if h.lastCtx = ctx then h
  else if h.lastCtx = 0 then { h with lastCtx := ctx } else { lastCtx := ctx, vcfg := 0, ordtmo := 0 }

/-- The scalar registers a task starts with: `s0` to `s7`, `s8`, `s9`, `s10` (R22, R338). -/
def startRegs (m : SMap DWord) (ws : List DWord) (inst total block : Nat) : SMap DWord :=
  let vals := (List.range 8).map (fun n => recW ws (6 + n))
    ++ [BitVec.ofNat 64 inst, BitVec.ofNat 64 total, BitVec.ofNat 64 block]
  (vals.zipIdx).foldl (fun r v => SMap.set 0 r v.2 v.1) m

/-- The HSTAT of a started task: user mode, IE = 1, IDEM from the record, PXP, PMODE and PIE 0 (R22, R266). -/
def startStat (old : DWord) (ws : List DWord) : DWord :=
  BitVec.ofNat 64 (bits old 63 32 * 2 ^ 32 + b2n (recIdem ws) * 2 ^ 9 + 2 ^ 4)

/-- A hart with a task started on it (R22, R266, R337, R338). -/
def Hart.start (t : Task) (ctx depth : Nat) (rstat block : DWord) (chunks : List Nat) (h : Hart) : Hart :=
  let b := h.toIdle.passTo ctx
  { b with
    pc := recW t.words 0, st := if bit rstat 0 && decide (bits rstat 5 3 ≠ 0) then .follower else .running,
    sregs := startRegs b.sregs t.words t.inst t.icount block.toNat, chunks := chunks, q := {}, sprd := 0, lcnt := 0,
    scnt := 0, hstat := startStat b.hstat t.words, cvr := 0, vri := 0, vcfg := 0x7003, vl := 0, wbase := 0,
    ctxid := BitVec.ofNat 16 ctx, rstat := rstat, sticky := 0, task := some t, depth := depth, secCount := 0 }

/-- The own-scratchpad address of a launch's block on a core, or 0 without one (R338). -/
def blockAddr (s : State) (ck ln : Nat) (l : Launch) : Nat :=
  if l.spad = 0 then 0
  else match (getCore s ck).blocks.find? (fun b => b.launch == ln) with
    | some b => 0xE0 * 2 ^ 56 + b.off
    | none => 0

/-- One task of an entry starts on a hart, as member k of a rope of a size code (R22, R336 to R338). -/
def startOn (qk : Nat) (e : QEntry) (l : Launch) (descs : List (List DWord)) (code : Nat) (p : Place) (s : State)
    (m : Nat × Nat) : State :=
  let ck := m.1
  let hk := ck * 8 + p.2
  let r := if e.kind = 1 then fresh s else (e.uid, s)
  let t : Task := {
    uid := r.1, words := e.words, launch := e.launch, inst := e.inst + m.2, icount := e.total, ginst := e.ginst,
    pinst := if e.kind = 1 then e.inst + m.2 else e.pinst,
    queue := qk, tile := e.tile, num := e.num, dev := qk / 4096, parent := e.parent, tiles := descs,
    mesh := ((getCore s ck).meshes.find? (fun x => x.2 == hk)).map Prod.fst }
  let ks := freeChunks r.2 ck l.vchunks
  let s1 := giveChunks r.2 ck e.ctx ks
  let rstat := if code = 0 then 0 else ropeStat code m.2 (ropeOrigin (unitOf (p.1.headD 0)) code)
  let s2 := modHart s1 hk (Hart.start t e.ctx e.depth rstat (BitVec.ofNat 64 (blockAddr s1 ck e.launch l)) ks)
  modCore (clearMesh s2 hk) ck (fun c =>
    { c with tiles := c.tiles.filter (fun x => !(decide (tileTag x.desc = 0) && x.owner == e.uid)) })

/-- RBAR of a started rope is its leader's (R236). -/
def shareRbar (s : State) (p : Place) : State :=
  let bar := (getHart s (p.1.headD 0 * 8 + p.2)).rbar
  p.1.foldl (fun t ck => modHart t (ck * 8 + p.2) (fun h => { h with rbar := bar })) s

/-- The bin of the queue-wait histogram that a wait of so many nanoseconds counts in (R409). -/
def countWait (s : State) (dev wait n : Nat) : State :=
  if wait = 0 then s
  else
    let o := 0x0D58 + 8 * min 31 wait.log2
    modDev s dev (fun d => { d with life := SMap.set 0 d.life o (min (2 ^ 64 - 1) (SMap.get 0 d.life o + n)) })

/-- The started tasks leave their queue's counts: POPS rises, and the entry leaves with its last instance (R336, R346). -/
def popEntry (s : State) (qk : Nat) (e : QEntry) (n : Nat) : State :=
  match SMap.find s.queues qk with
  | none => s
  | some q =>
    let next := e.inst + n
    let es := if next ≥ e.icount then q.entries.filter (fun x => x.seq != e.seq)
      else q.entries.map (fun x => if x.seq = e.seq then { x with inst := next, staged := none, tiles := none } else x)
    setQueue s qk { q with pops := q.pops + n, entries := es }

/-- The next task or rope of an entry starts at a place, whose reservations have been made; a cancel token that has reached
the core and not yet the queue meets it there; the die's core pointer advances past it (R336, R337, R345, R346, R349). -/
def startEntry (s : State) (dk qk : Nat) (e : QEntry) (l : Launch) (descs : List (List DWord)) (p : Place) : State :=
  let code := entryRope l e
  let n := p.1.length
  let s1 := (p.1.zipIdx).foldl (startOn qk e l descs code p) s
  let s2 := if code = 0 then s1 else shareRbar s1 p
  let s3 := popEntry s2 qk e n
  let s4 := countWait s3 (qk / 4096) ((getDie s dk).tb.toNat - e.arrived) n
  let s4 := p.1.foldl (fun t ck => if meetsToken t (dieOf ck) qk e.tile e.ctx e.ginst then cancelTask t (ck * 8 + p.2) else t) s4
  modDie s4 dk (fun d => { d with corePtr := (coreNum (p.1.getLastD 0) + 1) % 768 })

/-- An entry that is not staged starts at once at a place (R345). -/
def startFresh (s : State) (dk qk : Nat) (e : QEntry) (l : Launch) (descs : List (List DWord)) (p : Place) : State :=
  startEntry (p.1.foldl (fun t ck => reserveOn t ck p.2 e.launch l) s) dk qk e l descs p

/-! ## Heads of queues (R219, R333, R343, R344, R349) -/

/-- Unstarted entries of a sub-queue that are not set aside, in order; `tile` picks a bin set's sub-queue (R348). -/
def waitingEntries (q : Queue) (tile : Option Nat) : List QEntry :=
  q.entries.filter (fun e => e.aside.isNone && (match tile with | some t => e.tile == t | none => true))

/-- A null entry: its record's ENTRY is 0 (R219, R332). -/
def nullEntry (e : QEntry) : Bool := decide (recW e.words 0 = 0)

/-- Heads that a recorded token names, and null entries, are dropped one after another; a null entry whose ticket domain is not open
to its context, or whose ticket has not been drawn, as R344 drops it (R219, R344, R349). What `join` then finds of a forked one is as of any dropped
task (DESIGN CHOICE, log 93). -/
def dropHeads (qk : Nat) (tile : Option Nat) : Nat → State → State
  | 0, s => s
  | n + 1, s =>
    match SMap.find s.queues qk with
    | none => s
    | some q =>
      match waitingEntries q tile with
      | [] => s
      | e :: _ =>
        if q.named e then dropHeads qk tile n (dropEntry s qk e false true)
        else if nullEntry e then
          dropHeads qk tile n (if ticketOk s (qk / 4096) e.ctx e.words then dropEntry s qk e false false
            else queueFault (dropEntry s qk e true false) qk 0)
        else s

/-- The first unstarted entry of a queue, or of each sub-queue of a bin set (R348, R349). -/
def firstEntries (q : Queue) : List QEntry :=
  if q.kind = 1 then ((q.entries.map QEntry.tile).eraseDups).filterMap (fun t => (waitingEntries q (some t)).head?)
  else (waitingEntries q none).head?.toList

/-- A token is still on its way to some die of a device (R349). -/
def underWay (s : State) (dev ctx ginst : Nat) : Bool :=
  s.tokens.any (fun p => p.2.dev == dev && p.2.ctx == ctx && p.2.ginst == ginst)

/-- A queue retires a token once its first unstarted entry's arrival number exceeds the token's; one that holds no unstarted
entry retires it too. While the token is on its way to other dies, tasks of the queue that have still to meet it may be set aside,
and the queue keeps it (R349; log 12). -/
def retireTokens (s : State) (qk : Nat) : State :=
  match SMap.find s.queues qk with
  | none => s
  | some q => { s with queues := SMap.put s.queues qk { q with
      tokens := q.tokens.filter (fun k => underWay s (qk / 4096) k.1 k.2.1
        || (firstEntries q).any (fun e => decide (e.num ≤ k.2.2))),
      binTokens := q.binTokens.filter (fun k => underWay s (qk / 4096) k.2.1 k.2.2.1
        || (firstEntries q).any (fun e => decide (q.serves e.tile = k.1 ∧ e.num ≤ k.2.2.2))) } }

/-- A die holds the tokens that some queue it serves still holds; a token that waited for its table comes on (R349). -/
def settleTokens (s : State) (dk : Nat) : State :=
  let held (k : Nat × Nat × Nat) : Bool := (servedQueues s dk).any (fun qk =>
    match SMap.find s.queues qk with
    | some q => q.tokens.any (fun x => x.1 == k.1 && x.2.1 == k.2.1)
        || q.binTokens.any (fun x => x.1 == dieNo dk && x.2.1 == k.1 && x.2.2.1 == k.2.1)
    | none => false)
  let s1 := modDie s dk (fun d => { d with tokens := d.tokens.filter held })
  (s1.tokens.filter (fun p => p.2.dies.head? == some dk)).foldl (fun t p => postOnce t (.cancelToken p.1)) s1

/-- A task is dropped under R344: FAULTS rises and FADDR names the address. -/
def dropFaulted (s : State) (qk : Nat) (e : QEntry) (addr : Nat) : State :=
  queueFault (dropEntry s qk e true true) qk (BitVec.ofNat 64 addr)

/-- The scheduler considers an entry's next task: its ticket domain, and its descriptors once (R341, R344). -/
def consider (s : State) (qk : Nat) (e : QEntry) (l : Launch) : Considered :=
  let dev := qk / 4096
  if !ticketOk s dev e.ctx e.words then .drop 0
  else match e.tiles with
    | some ds => .ok ds
    | none => readDescs s dev e.ctx (l.spad * 4096) (recW e.words 14).toNat (recNin e.words)

/-! ## The search (R345 to R348) -/

/-- NOTBEFORE − LEAD has not come (R345). -/
def beforeLead (q : Queue) (e : QEntry) (tb : Nat) : Bool :=
  recNbv e.words && decide (tb + q.lead < (recW e.words 4).toNat)

/-- NOTBEFORE has not come (R345). -/
def isEarly (e : QEntry) (tb : Nat) : Bool := recNbv e.words && decide (tb < (recW e.words 4).toNat)

/-- One entry is looked at: it starts, is staged, is dropped or is left. `may` says whether it may start now; the flag
tells whether it has. -/
def lookAt (s : State) (dk qk : Nat) (q : Queue) (e : QEntry) (may : Bool) : State × Bool :=
  let tb := (getDie s dk).tb.toNat
  if beforeLead q e tb then (s, false)
  else match SMap.find s.launches e.launch with
    | none => (s, false)
    | some l =>
      let ready := may && !isEarly e tb
      match e.staged with
      | some p =>
        let ds := e.tiles.getD []
        if ready && allResident s e ds p && !p.1.any (fun ck => ctxLeaving s ck e.ctx) then
          (startEntry s dk qk e l ds p, true)
        else (s, false)
      | none =>
        match consider s qk e l with
        | .drop a => (dropFaulted s qk e a, false)
        | .ok ds =>
          let s := if e.tiles.isNone then touchRead s (qk / 4096) e.ctx (recW e.words 14).toNat (32 * recNin e.words) else s
          let hosts := placesFor s (qk / 4096) q e l ds
          let full := hosts.filter (allResident s e ds)
          match bestPlace s dk e ds (if full.isEmpty then hosts else full) with
          | none => (modEntry s qk e.seq (fun x => { x with tiles := some ds }), false)
          | some p =>
            if ready && !full.isEmpty then (startFresh s dk qk e l ds p, true)
            else (stageEntry s qk e l ds p, false)

/-- While the head is staged, the next LA entries may be staged (R346). -/
def lookAhead (s : State) (dk qk : Nat) (tile : Option Nat) : State :=
  match SMap.find s.queues qk with
  | none => s
  | some q =>
    match waitingEntries q tile with
    | [] => s
    | e :: es =>
      if e.staged.isNone then s
      else (es.take q.la).foldl (fun t x =>
        if x.staged.isSome ∨ nullEntry x = true ∨ q.named x = true then t
        else (lookAt t dk qk q x false).1) s

/-- A queue, or a sub-queue of a bin set, takes its turn in the search. -/
def tryQueue (s : State) (dk qk : Nat) (tile : Option Nat) : State × Bool :=
  match SMap.find s.queues qk with
  | none => (s, false)
  | some q =>
    match waitingEntries q tile with
    | [] => (s, false)
    | e :: _ =>
      let r := lookAt s dk qk q e true
      if r.2 then r else (lookAhead r.1 dk qk tile, false)

/-- Tiles of a bin set on a die that hold entries, in ascending order after the set's pointer, wrapping (R348). -/
def binTiles (s : State) (dk qk : Nat) (q : Queue) : List Nat :=
  let across := max 1 (bits q.binw 15 0)
  let ts := ((q.entries.map QEntry.tile).eraseDups.filter (fun t => tileDie across t == dieNo dk)).mergeSort (fun a b => decide (a ≤ b))
  match SMap.find (getDie s dk).binrr qk with
  | none => ts
  | some r => ts.filter (fun t => decide (t > r)) ++ ts.filter (fun t => decide (t ≤ r))

/-- The sub-queues of a bin set in turn; a start passes the set's pointer (R348). -/
def tryTiles (dk qk : Nat) : List Nat → State → State × Bool
  | [], s => (s, false)
  | t :: ts, s =>
    let r := tryQueue s dk qk (some t)
    if r.2 then (modDie r.1 dk (fun d => { d with binrr := SMap.put d.binrr qk t }), true) else tryTiles dk qk ts r.1

/-- One queue position of the search. -/
def tryPosition (s : State) (dk qk : Nat) : State × Bool :=
  match SMap.find s.queues qk with
  | none => (s, false)
  | some q => if q.kind = 1 then tryTiles dk qk (binTiles s dk qk q) s else tryQueue s dk qk none

/-- The queues of one priority in turn, until one starts (R345). -/
def tryList (dk p : Nat) : List Nat → State → State × Bool
  | [], s => (s, false)
  | qk :: qs, s =>
    let r := tryPosition s dk qk
    if r.2 then (modDie r.1 dk (fun d => { d with rr := SMap.put d.rr p (qk % 4096) }), true) else tryList dk p qs r.1

/-- Queues of a priority that a die serves, from RR[p] + 1, wrapping (R345). -/
def queuesAt (s : State) (dk p : Nat) : List Nat :=
  let qs := (servedQueues s dk).filter (fun qk => match SMap.find s.queues qk with
    | some q => q.prio == p && !q.fenced && !q.entries.isEmpty
    | none => false)
  let r := SMap.get 0 (getDie s dk).rr p
  qs.filter (fun qk => decide (qk % 4096 > r)) ++ qs.filter (fun qk => decide (qk % 4096 ≤ r))

/-- The priorities in turn, highest first: at most one start (R345). -/
def search (dk : Nat) : List Nat → State → State
  | [], s => s
  | p :: ps, s =>
    let r := tryList dk p (queuesAt s dk p) s
    if r.2 then r.1 else search dk ps r.1

/-- Priorities of the queues a die serves that hold entries, highest first. -/
def priorities (s : State) (dk : Nat) : List Nat :=
  (((servedQueues s dk).filterMap (fun qk => (SMap.find s.queues qk).map Queue.prio)).eraseDups).mergeSort
    (fun a b => decide (a ≥ b))

/-- Heads of every queue a die serves are dropped, and tokens retired (R349). -/
def dropAll (s : State) (dk : Nat) : State :=
  let s1 := (servedQueues s dk).foldl (fun t qk => match SMap.find t.queues qk with
    | none => t
    | some q =>
      let n := q.entries.length
      let u := if q.kind = 1 then (binTiles t dk qk q).foldl (fun v x => dropHeads qk (some x) n v) t
        else dropHeads qk none n t
      retireTokens u qk) s
  settleTokens s1 dk

/-! ## The cycle (R74, R198, R233, R240, R282, R324, R397) -/

/-- The timebase that a die disciplines its own to: the master's, where the die has a route to it and is not the master's
(R397). -/
def masterTb (s : State) (dk : Nat) : Option Nat :=
  if dk = 0 ∨ routed s (devOf dk) 0 = false then none else some (getDie s 0).tb.toNat

/-- The nanoseconds by which TB advances where the clock counts n: one more or one less once 10,000 have been counted since the
last correction, 100 ppm, while the master is ahead or behind (R397; log 84). -/
def disciplined (master : Option Nat) (d : Die) (n : Nat) : Nat :=
  match master with
  | none => n
  | some m =>
    if d.slew + n < 10000 then n
    else if d.tb.toNat + n < m then n + 1
    else if m < d.tb.toNat + n then n - 1
    else n

/-- TB counts nanoseconds, whatever the core clock, and follows the master's by its corrections (R397, R413). -/
def tickTime (master : Option Nat) (d : Die) : Die :=
  let p := d.phase + 1000
  let n := p / max 1 d.clk
  let k := disciplined master d n
  { d with tb := d.tb + BitVec.ofNat 64 k, phase := p % max 1 d.clk,
           slew := if k = n then min 10000 (d.slew + n) else 0 }

/-- A hart's section count runs: a section is open, and the task runs or is parked in user mode (R233). -/
def sectionRuns (h : Hart) : Bool :=
  (match h.task with | some t => t.sect.isSome | none => false) && decide (h.mode = 0)
    && (decide (h.st = .running) || decide (h.st = .parked) || decide (h.st = .follower))

/-- A cycle passes for a hart: its stall count, its section count, and a time it waits for (R74, R233, R240). -/
def tickHart (tb : Nat) (s : State) (hk : Nat) : State :=
  let h := getHart s hk
  let n := if sectionRuns h then h.secCount + 1 else h.secCount
  let s1 := setHart s hk { h with secCount := n, stall := if h.stall ≤ 1 then h.stall else h.stall - 1 }
  let s2 := if h.stall = 1 then postOnce s1 (.hintStallExpiry hk) else s1
  let s3 := if n ≠ h.secCount ∧ h.ordtmo ≠ 0 ∧ n > h.ordtmo.toNat ∧ h.secOver = false then postOnce s2 (.ordtmoExpiry hk) else s2
  match h.wait with
  | .time t _ => if tb ≥ t then postOnce s3 (.twaitExpiry hk) else s3
  | _ => s3

/-- A cycle passes for a core: its matrix slot and the deadline of its pre-emption (R198, R282). -/
def tickCore (tb : Nat) (s : State) (ck : Nat) : State :=
  let c := getCore s ck
  let s1 := match c.mstSlot with
    | some (i, len, n) =>
      let t := setCore s ck { c with mstSlot := some (i, len, n + 1) }
      if n + 1 ≥ len then postOnce t (.mstSlotBoundary ck) else t
    | none => s
  match c.preempt with
  | some p => if tb ≥ p.deadline ∧ p.harts ≠ [] then postOnce s1 (.preemptDeadline ck) else s1
  | none => s1

/-- The device's words of a context's spill header: queue bytes, revision sectors, their peak, parked senders (R324). -/
def syncSpill (s : State) (key : Nat) : State :=
  match SMap.find s.ctxs key with
  | none => s
  | some c =>
    let dev := key / 65536
    let ctx := key % 65536
    let b := (c.words.getD 2 0).toNat
    let used := spilledMessages s dev ctx * 192
    let held := ((diesOfDev dev).map (spilledSectors s ctx)).sum
    let parked := (s.harts.filter (fun p => devOfHart p.1 == dev && p.2.ctxid.toNat == ctx
      && (match p.2.wait with | .send d q => (getHart s d).spills q | _ => false))).length
    let d := { c with qused := used, rused := held, rpeak := max c.rpeak held, qfull := parked }
    if d = c then s
    else
      let s1 := { s with ctxs := SMap.put s.ctxs key d }
      writeN (writeN (writeN (writeN s1 (b + 16) 8 used) (b + 24) 8 held) (b + 32) 8 d.rpeak) (b + 40) 8 parked

/-- The spill headers of a device's contexts are kept up to date (R324). -/
def syncSpills (s : State) (dk : Nat) : State :=
  ((s.ctxs.filter (fun p => p.1 / 65536 == devOf dk)).map Prod.fst).foldl syncSpill s

/-- Where the memory manager of a device keeps its records: queue descriptors from the first byte, and context records from the
fourth MiB (R331, R374; log 82). -/
def tableBase (dev : Nat) : Nat := dev % 8 * 2 ^ 38 + (2 ^ 15 - 34 - Config.recordTable dev % 2 ^ 14) * 2 ^ 23
/-- The address of a queue's descriptor. -/
def queueRecord (qk : Nat) : Nat := tableBase (qk / 4096) + qk % 4096 * 64
/-- The address of a context's record. -/
def contextRecord (dev ctx : Nat) : Nat := tableBase dev + 2 ^ 22 + ctx % 65536 * 64

/-- The eight words of a queue's descriptor as they stand (R331). -/
def Queue.words (q : Queue) : List Nat :=
  [q.ctl.toNat, q.clus + q.lead * 2 ^ 32, q.count % 2 ^ 32 + q.peak % 2 ^ 32 * 2 ^ 32, q.pops, q.drops, q.faults, q.faddr.toNat,
   q.binw.toNat]

/-- Words are written to a record in memory. -/
def writeRecordWords (s : State) (at_ : Nat) (ws : List Nat) : State :=
  ws.zipIdx.foldl (fun t p => writeN t (at_ + 8 * p.2) 8 (p.1 % 2 ^ 64)) s

/-- A record in memory no longer describes anything. -/
def clearRecord (s : State) (at_ : Nat) : State := writeRecordWords s at_ (List.replicate 8 0)

/-- The descriptors of the queues that a die serves are kept up to date in memory (R331). -/
def syncQueues (s : State) (dk : Nat) : State :=
  (s.queues.filter (fun p => p.1 / 4096 == devOf dk && p.2.home == dieNo dk)).foldl
    (fun t p => writeRecordWords t (queueRecord p.1) p.2.words) s

/-- A second, or ten minutes, has passed on die 0 of a device in operation: its telemetry core refreshes the lifetime
record, or writes it to flash (R409). -/
def tickRecord (s : State) (dk old new : Nat) : State :=
  if dieNo dk ≠ 0 ∨ (getDev s (devOf dk)).booted = false then s
  else
    let s1 := if old / 10 ^ 9 < new / 10 ^ 9 then postOnce s (.lifetimeRecordRefresh (devOf dk)) else s
    if old / (600 * 10 ^ 9) < new / (600 * 10 ^ 9) then postOnce s1 (.lifetimeRecordWrite (devOf dk)) else s1

/-- A cycle passes on a die: its timebase, its harts and its cores. -/
def tickDie (s : State) (dk : Nat) : State :=
  let s0 := modDie s dk (tickTime (masterTb s dk))
  let s1 := tickRecord s0 dk (getDie s dk).tb.toNat (getDie s0 dk).tb.toNat
  let d := getDie s1 dk
  let tb := d.tb.toNat
  let hks := (s1.harts.filter (fun p => dieOf (coreOf p.1) == dk)).map Prod.fst
  let s2 := hks.foldl (tickHart tb) s1
  let cks := (s2.cores.filter (fun p => dieOf p.1 == dk)).map Prod.fst
  let s3 := cks.foldl (tickCore tb) s2
  let s4 := match d.clearAt with
    | some t => if tb ≥ t then postOnce s3 (.clockStepUp dk) else s3
    | none => s3
  let s5 := match s4.tbStep with
    | some (t, _) => if tb ≥ t then postOnce s4 .tbStep else s4
    | none => s4
  syncQueues (syncSpills s5 dk) dk

/-- A dispatch cycle: a cycle passes, heads are dropped, and at most one task or rope starts (R345). -/
def dispatch (s : State) (dk : Nat) : State :=
  if dk ≥ 64 ∨ (getDev s (devOf dk)).off = true then s
  else
    let s1 := dropAll (tickDie s dk) dk
    search dk (priorities s1 dk) s1

/-! ## Tiles, room and the end of a launch (R334, R336, R341, R349) -/

/-- The bytes of a tile from its source, row by row; or the first address that faults (R340, R344). -/
def readTile (s : State) (dev ctx : Nat) (d : List DWord) : Nat → Nat → (List Byte) ⊕ Nat
  | _, 0 => .inl []
  | r, n + 1 =>
    match ctxRead s dev ctx (tileSrc d r 0) (tileRowB d) with
    | none => .inr ((firstBad s dev ctx (tileSrc d r 0) (tileRowB d)).getD (tileSrc d r 0))
    | some v => match readTile s dev ctx d (r + 1) n with
      | .inl bs => .inl (bytesOf v (tileRowB d) ++ bs)
      | .inr a => .inr a

/-- The rows of a tile pass through the slices as they are read (R318, R340). -/
def touchTile (s : State) (dev ctx : Nat) (d : List DWord) : State :=
  (List.range (tileRows d)).foldl (fun t r => touchRead t dev ctx (tileSrc d r 0) (tileRowB d)) s

/-- Queue and entry of those staged on a core that declare a tile. -/
def tileUsers (s : State) (ck : Nat) (t : RTile) : List (Nat × QEntry) :=
  (s.queues.filter (fun p => p.1 / 4096 == devOf (dieOf ck))).flatMap (fun p => (p.2.entries.filter (fun e =>
    (match e.staged with | some (cs, _) => cs.contains ck | none => false)
      && e.launch == t.launch && (e.tiles.getD []).contains t.desc && (t.owner == 0 || t.owner == e.uid))).map
    (fun e => (p.1, e)))

/-- A permitted tile has been read and written into its launch's block; with no task left that wants it, it stays
non-resident, and a read that faults drops the tasks staged for it (R341, R344, R349). -/
def arriveTile (s : State) (ck id : Nat) : State :=
  let c := getCore s ck
  match c.tiles.find? (fun t => t.id == id) with
  | none => s
  | some t =>
    let without := setCore s ck { c with tiles := c.tiles.filter (fun x => x.id != id) }
    match c.blocks.find? (fun b => b.launch == t.launch), tileUsers s ck t with
    | some b, us@(_ :: _) =>
      (match readTile s (devOf (dieOf ck)) t.ctx t.desc 0 (tileRows t.desc) with
      | .inr a => us.foldl (fun u x => dropFaulted u x.1 x.2 a) without
      | .inl bs =>
        let s1 := (bs.zipIdx).foldl (fun u x =>
          writeByte u (scratchLoc ck (b.off + tileDst t.desc + x.2)) x.1)
          (clearPoison (touchTile s (devOf (dieOf ck)) t.ctx t.desc) (scratchLoc ck (b.off + tileDst t.desc)) bs.length)
        setCore s1 ck { getCore s1 ck with
          tiles := c.tiles.map (fun x => if x.id = id then { x with resident := true } else x) })
    | _, _ => without

/-- A walk goes to a node of its innermost buffer. -/
def Walk.goto (w : Walk) (n : Nat) : Walk :=
  match w.frames with
  | [] => w
  | f :: fs => { w with frames := { f with node := n } :: fs, cur := none, begun := false }

/-- The node reached passes, and the next one is reached (R380). -/
def Walk.pass (w : Walk) : Walk :=
  match w.frames with
  | [] => w
  | f :: _ => { w.goto (f.node + 1) with passed := w.passed + 1 }

/-- A waiting producer is accepted: a hart, a commit and a reprojection unit go on and keep their place until their records have
entered, and a walk's launch entry or a held entry enters (R334). -/
def acceptProducer (s : State) (qk : Nat) : State :=
  match SMap.find s.queues qk with
  | none => s
  | some q =>
    match q.stalled with
    | [] => s
    | .hart hk :: _ => if queueFull q 0 then s else postOnce s (.convoyIssue hk)
    | .commit uid :: _ => if queueFull q 0 then s else postOnce s (.commitPerformed uid)
    | .unit dk :: _ => if queueFull q 0 then s else postOnce s (.reprojectionDone (devOf dk))
    | .walk w ent :: rest =>
      if queueFull q 0 then s
      else
        let s1 := { s with queues := SMap.put s.queues qk { q with stalled := rest },
                           walks := match SMap.find s.walks w with
                             | some x => SMap.put s.walks w ({ x with blocked := false } : Walk).pass
                             | none => s.walks }
        enqueue s1 qk ent
    | .held ent :: rest =>
      if queueFull q ent.tile then s
      else enqueue { s with queues := SMap.put s.queues qk { q with stalled := rest } } qk ent

/-- A launch whose every task has ended leaves its cores' blocks and tiles, and completes its LAUNCH node (R336, R338,
R380). -/
def endLaunch (s : State) (ln : Nat) : State :=
  match SMap.find s.launches ln with
  | none => s
  | some l =>
    if l.live ≠ 0 then s
    else
      let s1 := { s with
        launches := SMap.del s.launches ln,
        cores := SMap.each (fun _ c => { c with blocks := c.blocks.filter (fun b => b.launch != ln),
                                                tiles := c.tiles.filter (fun t => t.launch != ln) }) s.cores }
      match l.walk with
      | none => s1
      | some (w, n) =>
        match SMap.find s1.walks w with
        | none => s1
        | some x => { s1 with walks := SMap.put s1.walks w { x with outstanding := x.outstanding.filter (· != n) } }

/-! ## The steps -/

/-- DISPATCH_CYCLE, R345. -/
def execDispatchCycle (dk : Nat) (s : State) : Host.Outcome State Fault Refusal := .next (dispatch s dk)
/-- TILE_RESIDENT, R341. -/
def execTileResident (ck id : Nat) (s : State) : Host.Outcome State Fault Refusal := .next (arriveTile s ck id)
/-- QUEUE_ROOM, R334. -/
def execQueueRoom (q : Nat) (s : State) : Host.Outcome State Fault Refusal := .next (acceptProducer s q)
/-- LAUNCH_END, R336. -/
def execLaunchEnd (id : Nat) (s : State) : Host.Outcome State Fault Refusal := .next (endLaunch s id)

end Sys2Proof.Machine
end

