-- ==== Sys2Proof/Machine/Commands.lean ====
section
/-! DEFINITION. The command processor (R335, R376 to R384): launch descriptors, submission queues and their doorbells, and
the walk of command graphs, one step per node kind. -/
namespace Sys2Proof.Machine

open Sys2Proof

/-! ## Launch descriptors (R335, R339, R381) -/

/-- QUEUE of a launch descriptor. -/
def launchQueue (d : List DWord) : Nat := bits (d.getD 1 0) 59 48
/-- COUNT of a launch descriptor. -/
def launchCount (d : List DWord) : Nat := bits (d.getD 1 0) 31 0
/-- FLAGS.MESH of a launch descriptor. -/
def launchMesh (d : List DWord) : Bool := bit (d.getD 2 0) 24

/-- A launch descriptor keeps its layout (R335). -/
def launchOk (d : List DWord) : Bool :=
  let a := d.getD 1 0
  let b := d.getD 2 0
  decide ((d.getD 0 0).toNat % 8 = 0 ∧ bits a 39 34 = 0 ∧ 3 ≤ bits a 47 40 ∧ bits a 47 40 ≤ 16 ∧ bits a 63 60 = 0
    ∧ bits b 15 0 ≤ 256 ∧ bits b 23 16 ≤ 8 ∧ bits b 63 25 = 0) && (d.drop 4).all (fun w => decide (w = 0))
    && decide (launchCount d ≠ 0 ∧ launchCount d % ropeSize (bits a 33 32) = 0)

/-- The launch a descriptor asks for. -/
def launchOf (dev ctx ginst : Nat) (d : List DWord) : Launch :=
  let a := d.getD 1 0
  let b := d.getD 2 0
  { dev := dev, ctx := ctx, ginst := ginst, vchunks := bits a 47 40, spad := bits b 15 0, harts := bits b 23 16,
    mesh := launchMesh d, rope := bits a 33 32, stats := d.getD 3 0, live := launchCount d }

/-- A core of a queue's dies and clusters (R339). -/
def admits (s : State) (q : Queue) (ck : Nat) : Bool :=
  q.dies.testBit (dieNo (dieOf ck)) && q.clus.testBit (clusNo (unitOf ck)) && isCompute s ck

/-- Some empty core, or rectangle of empty cores, that a queue admits could host an instance (R335, R339). -/
def couldHost (s : State) (dev : Nat) (q : Queue) (l : Launch) : Bool :=
  decide (l.spad * 4096 + (if l.mesh then meshSize else 0) ≤ 2 ^ 20)
    && ((diesOfDev dev).flatMap tilesOfDie).any (fun ck =>
      (placeAt l.rope (fun c => if admits s q c then List.range 8 else []) ck).isSome)

/-- The open draw of a context that names a mesh launch descriptor; none names one at address 0, since MLAUNCH = 0 is no descriptor
(R353). -/
def drawNaming (s : State) (dev ctx va : Nat) : Option (Nat × Nat) :=
  (s.draws.find? (fun p => p.1 / 65536 == dev && p.2.ctx == ctx && p.2.isOpen
    && decide ((p.2.desc.getD 8 0).toNat = va ∧ va ≠ 0))).map (fun p => (p.1, p.2.num))

/-- What a LAUNCH node finds: its launch, record and queue, or the reason of a command fault (R335, R383). -/
inductive Released where
  | ok (l : Launch) (rec : List DWord) (q : Nat)
  | fault (reason : Nat)
deriving DecidableEq, Repr

/-- A launch descriptor and its record are read and checked (R335, R353). -/
def readLaunch (s : State) (dev ctx ginst va : Nat) : Released :=
  match ctxWords s dev ctx va 8 with
  | none => .fault 3
  | some d =>
    if launchOk d = false then .fault 4
    else match ctxWords s dev ctx (d.getD 0 0).toNat 16 with
      | none => .fault 3
      | some r =>
        let l := launchOf dev ctx ginst d
        let dr := if l.mesh then drawNaming s dev ctx va else none
        if recordOk r = false ∨ (recCpl r = true ∧ launchCount d > 1) ∨ (l.mesh = true ∧ dr.isNone = true) then .fault 4
        else match queueFor s dev ctx (launchQueue d) with
          | none => .fault 4
          | some q => if couldHost s dev q l then .ok { l with draw := dr } r (dev * 4096 + launchQueue d) else .fault 4

/-- The record of a launch entry, with the entry's graph instance in place of its own (R381). -/
def withGinst (r : List DWord) (ginst : Nat) : List DWord := r.set 3 (BitVec.ofNat 64 ginst)

/-! ## Submission queues (R376 to R378, R383) -/

/-- ADMIN of a submission queue. -/
def Sq.admin (q : Sq) : Bool := bit (q.desc.getD 1 0) 8
/-- Entries of a submission queue. -/
def Sq.size (q : Sq) : Nat := 2 ^ (bits (q.desc.getD 1 0) 7 0 % 32)
/-- Address of the entry with an index (R377). -/
def Sq.entryAt (q : Sq) (i : Nat) : Nat := ((q.desc.getD 0 0).toNat + 64 * (i % q.size)) % 2 ^ 64

/-- Firmware serves a submission queue: its home die's, or that of the die it hands over to; that of a die with no version in
common with another serves none (R385, R386). -/
def sqServed (s : State) (dev : Nat) (q : Sq) : Bool :=
  let dk := sqDie dev q
  let d := getDev s dev
  d.booted && !d.off && (getDie s dk).noQueues.isEmpty
    && ((getDie s dk).fwUp || (getDie s (dev * 8 + (dieNo dk + 1) % 8)).fwUp)

/-- The walker reads entries of a queue: some stand between HEAD and TAIL, it is not fenced, and it is served. -/
def sqReady (s : State) (qk : Nat) (q : Sq) : Bool :=
  decide (q.head ≠ q.tail) && !q.fenced && sqServed s (qk / 4096) q

/-- HEAD moves past an entry. -/
def popSq (s : State) (qk : Nat) (f : Sq → Sq) : State :=
  match SMap.find s.sqs qk with
  | none => s
  | some q => { s with sqs := SMap.put s.sqs qk (f { q with head := (q.head + 1) % 2 ^ 32 }) }

/-- DONE word of a submission entry (R378). -/
def entryDone (status : Nat) (limit : Bool) (passed : Nat) : Nat :=
  status * 2 ^ 60 + b2n limit * 2 ^ 59 + passed % 2 ^ 32

/-- A submission entry keeps its layout (R378). -/
def entryOk (e : List DWord) : Bool :=
  decide ((e.getD 0 0).toNat % 64 = 0 ∧ bits (e.getD 1 0) 63 33 = 0 ∧ (e.getD 2 0).toNat % 8 = 0)
    && (e.drop 3).all (fun w => decide (w = 0))

/-- A graph entry is read and its walk begun; one with SERIAL = 1 waits for the entry before it (R378). -/
def startEntryOf (s : State) (qk : Nat) (q : Sq) (e : List DWord) : State :=
  if bit (e.getD 1 0) 32 && (match q.last with | some w => (SMap.find s.walks w).isSome | none => false) then s
  else if entryOk e = false then
    let s1 := commandFault (popSq s qk id) qk 1 0 0 (q.entryAt q.head)
    ownerFill s1 (sqDie (qk / 4096) q) q.ctx (e.getD 2 0).toNat (entryDone 1 false 0) 6
  else
    let r := fresh s
    let dk := sqDie (qk / 4096) q
    let w : Walk := {
      sq := qk, ctx := q.ctx, dev := qk / 4096, die := dk, ginst := bits (e.getD 1 0) 31 0, done := e.getD 2 0,
      frames := [{ buf := e.getD 0 0 }], start := (getDie s dk).tb.toNat }
    popSq { r.2 with walks := SMap.put r.2.walks r.1 w } qk (fun q => { q with last := some r.1 })

/-! ## Nodes (R379, R380) -/

/-- KIND of a node. -/
def nodeKind (n : List DWord) : Nat := bits (n.getD 0 0) 3 0
/-- FENCE of a node; COND and LOOP act as if it were 1. -/
def nodeFence (n : List DWord) : Bool := bit (n.getD 0 0) 4 || decide (nodeKind n = 6 ∨ nodeKind n = 7)
/-- SCOPE of a node. -/
def nodeScope (n : List DWord) : Nat := bits (n.getD 0 0) 7 5
/-- PARAM of a node. -/
def nodeParam (n : List DWord) : Nat := bits (n.getD 0 0) 63 32
/-- ADDR of a node. -/
def nodeAddr (n : List DWord) : Nat := (n.getD 1 0).toNat
/-- VALUE of a node. -/
def nodeValue (n : List DWord) : Nat := (n.getD 2 0).toNat

/-- MAXITER of a LOOP. -/
def nodeMaxIter (n : List DWord) : Nat := bits (n.getD 2 0) 31 0

/-- Alignment of ADDR by kind (R335, R379, R391). -/
def nodeAlign (k : Nat) : Nat := if k = 1 ∨ k = 2 ∨ k = 8 then 64 else if k = 3 ∨ k = 4 ∨ k = 6 ∨ k = 7 then 8 else 1

/-- A node keeps its layout; i is its index (R379, R383). -/
def nodeOk (i : Nat) (n : List DWord) : Bool :=
  let k := nodeKind n
  let hasScope := decide (k = 3 ∨ k = 4 ∨ k = 6 ∨ k = 7)
  decide (k ≤ 8 ∧ bits (n.getD 0 0) 31 9 = 0 ∧ nodeAddr n % nodeAlign k = 0)
    && (if hasScope then decide (4 ≤ nodeScope n ∧ nodeScope n ≤ 6) else decide (nodeScope n = 0))
    && (if k = 6 then decide (1 ≤ nodeParam n ∧ nodeParam n ≤ 4095)
        else if k = 7 then decide (nodeParam n < i) else decide (nodeParam n = 0))
    && (if k = 7 then decide (nodeMaxIter n ≠ 0) else decide (k = 3 ∨ k = 5 ∨ nodeValue n = 0))
    && (decide (k ≠ 0) || decide (nodeAddr n = 0))
    && (n.drop 3).all (fun w => decide (w = 0))

/-- Address of a node. -/
def nodeAt (buf : DWord) (i : Nat) : Nat := (buf.toNat + 64 * i) % 2 ^ 64

/-- The nodes that a SKIP passes over hold no END: the reason of a command fault otherwise (R383). -/
def skipFault (s : State) (dev ctx : Nat) (buf : DWord) (i : Nat) : Nat → Option Nat
  | 0 => none
  | n + 1 =>
    match ctxWords s dev ctx (nodeAt buf i) 8 with
    | none => some 3
    | some x => if nodeKind x = 0 then some 1 else skipFault s dev ctx buf (i + 1) n

/-! ## Walks (R380, R383, R384) -/

/-- A walk is replaced. -/
def setWalk (s : State) (w : Nat) (x : Walk) : State := { s with walks := SMap.put s.walks w x }

/-- An entry ends with a DONE word, and its walk with it (R378). -/
def endWalk (s : State) (w : Nat) (x : Walk) (status : Nat) : State :=
  let s1 := { s with walks := SMap.del s.walks w }
  ownerFill s1 x.die x.ctx x.done.toNat (entryDone status x.limit x.passed) 6

/-- A command fault of a node stops the walk of its entry (R383). -/
def walkFault (s : State) (w : Nat) (x : Walk) (reason : Nat) : State :=
  let f := x.frames.headD { buf := 0 }
  endWalk (commandFault s x.sq reason (x.frames.length - 1) f.node (nodeAt f.buf f.node)) w x 1

/-- What a walk finds when it looks at the node it has reached. -/
inductive Reached where
  | node (x : Walk) (n : List DWord)
  | fault (reason : Nat)
deriving DecidableEq, Repr

/-- The node a walk has reached, read and checked once (R383). -/
def reachNode (s : State) (x : Walk) : Reached :=
  match x.cur, x.frames with
  | some n, _ => .node x n
  | none, [] => .fault 1
  | none, f :: _ =>
    match ctxWords s x.dev x.ctx (nodeAt f.buf f.node) 8 with
    | none => .fault 3
    | some n =>
      if nodeOk f.node n = false then .fault 1
      else match (if nodeKind n = 6 then skipFault s x.dev x.ctx f.buf (f.node + 1) (nodeParam n) else none) with
        | some r => .fault r
        | none => .node { x with cur := some n } n

/-- A walk's turn at a node of a kind: a fenced context's walk is gone; a cancelled or ended one completes when what it
started has, a WAIT or TIMED under way among it; a node is checked, waits for its FENCE, and then does what its kind does (R380, R383, R384, R403). -/
def walkStep (kind : Nat) (act : Walk → List DWord → Nat → State → State) (s : State) (w : Nat) : State :=
  match SMap.find s.walks w with
  | none => s
  | some x =>
    let fenced := match SMap.find s.ctxs (x.dev * 65536 + x.ctx) with | some c => c.fenced | none => true
    if fenced then { s with walks := SMap.del s.walks w }
    else if x.blocked then s
    else if (x.cancelled && !x.begun) || x.ended then
      (if x.outstanding.isEmpty then endWalk s w x (if x.cancelled then 2 else 0) else s)
    else match reachNode s x with
      | .fault r => walkFault s w x r
      | .node y n =>
        if nodeKind n ≠ kind ∨ (nodeFence n = true ∧ y.outstanding ≠ []) then setWalk s w y
        else act y n w (setWalk s w y)

/-- The node passes. -/
def passWalk (s : State) (w : Nat) (x : Walk) : State := setWalk s w x.pass

/-- LAUNCH: the launch is released, with the device's node, texture and convoy caches cleared; it waits while its queue is
full (R381). Those caches hold nothing that memory does not, so clearing them changes no state. -/
def launchAct (x : Walk) (n : List DWord) (w : Nat) (s : State) : State :=
  match readLaunch s x.dev x.ctx x.ginst (nodeAddr n) with
  | .fault r => walkFault s w x r
  | .ok l r qk =>
    let a := fresh s
    let b := fresh a.2
    let k := x.nextId
    let e : QEntry := {
      seq := 0, kind := 1, words := withGinst r x.ginst, launch := a.1, ginst := x.ginst, icount := l.live,
      total := l.live, uid := b.1, ctx := x.ctx }
    let s1 := { b.2 with launches := SMap.put b.2.launches a.1 { l with walk := some (w, k) } }
    let y := { x with outstanding := x.outstanding ++ [k], nextId := k + 1 }
    match SMap.find s1.queues qk with
    | none => s
    | some q =>
      if !queueFull q 0 && q.stalled.isEmpty then enqueue (passWalk s1 w y) qk e
      else setWalk { s1 with queues := SMap.put s1.queues qk { q with stalled := q.stalled ++ [.walk w e] } } w
        { y with blocked := true }

/-- A tile-walk engine of a die that takes a kick, and is not fenced: the first (R380, R392, R408; log 9). -/
def engineFor (s : State) (dk : Nat) : Option Nat :=
  (tilesOfDie dk).find? (fun ck => !(getCore s ck).engFenced && decide ((getCore s ck).kicks.length < 5))

/-- COPY: an engine is kicked with the descriptor (R380, R392). -/
def copyAct (x : Walk) (n : List DWord) (w : Nat) (s : State) : State :=
  match engineFor s x.die with
  | none => s
  | some ck =>
    match kickEngine s ck x.dev x.ctx (n.getD 1 0) (some (w, x.nextId)) with
    | none => s
    | some t => passWalk t w { x with outstanding := x.outstanding ++ [x.nextId], nextId := x.nextId + 1 }

/-- SIGNAL: the future is filled at SCOPE (R380). -/
def signalAct (x : Walk) (n : List DWord) (w : Nat) (s : State) : State :=
  match ctxFill s x.die x.ctx (nodeAddr n) (nodeValue n) (nodeScope n) with
  | some t => passWalk t w x
  | none => walkFault s w x 3

/-- WAIT: the node passes when the future is full (R380). -/
def waitAct (x : Walk) (n : List DWord) (w : Nat) (s : State) : State :=
  match ctxRead s x.dev x.ctx (nodeAddr n) 8 with
  | none => walkFault s w x 3
  | some v => if v ≥ 2 ^ 63 then passWalk s w x else setWalk s w { x with begun := true }

/-- TIMED: the node passes when TB reaches ADDR, or the entry's start + ADDR (R380). -/
def timedAct (x : Walk) (n : List DWord) (w : Nat) (s : State) : State :=
  let t := nodeAddr n + (if bit (n.getD 2 0) 0 then x.start else 0)
  if (getDie s x.die).tb.toNat ≥ t then passWalk s w x else setWalk s w { x with begun := true }

/-- A predicate, under SENSE (R379). -/
def predicate (n : List DWord) (v : Nat) : Bool := decide (v ≠ 0) != bit (n.getD 0 0) 8

/-- COND: the node passes, and when the predicate is false SKIP nodes are skipped (R380). -/
def condAct (x : Walk) (n : List DWord) (w : Nat) (s : State) : State :=
  match ctxRead s x.dev x.ctx (nodeAddr n) 8 with
  | none => walkFault s w x 3
  | some v =>
    let i := (x.frames.headD { buf := 0 }).node
    if predicate n v then passWalk s w x
    else setWalk s w { x.goto (i + 1 + nodeParam n) with passed := x.passed + 1 }

/-- A LOOP's count in the innermost buffer is replaced. -/
def Walk.setCount (x : Walk) (i c : Nat) : Walk :=
  match x.frames with
  | [] => x
  | f :: fs => { x with frames := { f with counts := SMap.set 0 f.counts i c } :: fs }

/-- LOOP: back to TARGET while the predicate is true and the count below MAXITER; else on, with the count 0 (R380). -/
def loopAct (x : Walk) (n : List DWord) (w : Nat) (s : State) : State :=
  match ctxRead s x.dev x.ctx (nodeAddr n) 8 with
  | none => walkFault s w x 3
  | some v =>
    let f := x.frames.headD { buf := 0 }
    let c := SMap.get 0 f.counts f.node
    let p := predicate n v
    if p && decide (c < nodeMaxIter n) then
      setWalk s w { (x.setCount f.node (c + 1)).goto (nodeParam n) with passed := x.passed + 1 }
    else passWalk s w { x.setCount f.node 0 with limit := x.limit || p }

/-- INDIRECT: the named buffer is opened one level deeper, or the nesting is refused (R382). -/
def indirectAct (x : Walk) (n : List DWord) (w : Nat) (s : State) : State :=
  if x.frames.length > 4 ∨ x.frames.any (fun f => decide (f.buf.toNat = nodeAddr n)) = true then walkFault s w x 2
  else setWalk s w { x with frames := { buf := n.getD 1 0 } :: x.frames, cur := none }

/-- END: an inner buffer's INDIRECT passes with it; the top buffer's END ends the entry when all it started has completed
(R380). -/
def endAct (x : Walk) (_ : List DWord) (w : Nat) (s : State) : State :=
  match x.frames with
  | _ :: g :: fs => passWalk s w { x with frames := g :: fs, passed := x.passed + 1 }
  | _ =>
    let y := { x with passed := x.passed + 1, ended := true }
    if y.outstanding.isEmpty then endWalk s w y 0 else setWalk s w y

/-- The step that takes a walk on: by the kind of the node it has reached. -/
def walkEvent (s : State) (w : Nat) : Instr :=
  match SMap.find s.walks w with
  | none => .endNode w
  | some x =>
    match reachNode s x with
    | .fault _ => .endNode w
    | .node _ n =>
      match nodeKind n with
      | 1 => .launchNode w
      | 2 => .copyNode w
      | 3 => .signalNode w
      | 4 => .waitNode w
      | 5 => .timedNode w
      | 6 => .condNode w
      | 7 => .loopNode w
      | 8 => .indirectNode w
      | _ => .endNode w

/-! ## Admin entries as they are read (R375, R432) -/

/-- The words that the table of arguments marks 0 are 0, and fields lie in their width (R432). -/
def argsOk (op : Nat) (a : List DWord) : Bool :=
  let w (k : Nat) : Nat := (a.getD k 0).toNat
  let zeroFrom (k : Nat) : Bool := ((a.take 4).drop k).all (fun x => decide (x = 0))
  match op with
  | 1 => zeroFrom 1
  | 2 => decide (w 0 < 2 ^ 16) && zeroFrom 1
  | 3 => decide (w 0 < 2 ^ 12) && zeroFrom 2
  | 4 | 6 | 15 => decide (w 0 < 2 ^ 12) && zeroFrom 1
  | 5 | 8 => zeroFrom 2
  | 7 => zeroFrom 3
  | 9 => decide (w 1 % 8 + w 1 / 2 ^ 8 % 8 * 2 ^ 8 = w 1) && zeroFrom 2
  | 10 | 11 => decide (w 0 < 2 ^ 16) && zeroFrom 2
  | 12 => decide (w 0 < 2 ^ 16 ∧ w 2 < 2 ^ 32) && zeroFrom 3
  | 13 | 14 => decide (w 0 < 2 ^ 16) && zeroFrom 1
  | 16 => decide (w 1 < 2 ^ 8) && zeroFrom 2
  | _ => false

/-- A4 names a context that the queue's requests may act for, and the request may stand on the queue (R375, R432). -/
def contextOk (sqn own op a4 : Nat) : Bool :=
  if sqn = 0 then (if op = 1 ∨ op = 16 then decide (a4 = 0) else decide (1 ≤ a4 ∧ a4 ≤ 0xFFFE))
  else decide ((a4 = 0 ∨ a4 = own) ∧ op ≠ 1 ∧ op ≠ 2 ∧ op ≠ 16)

/-- The steps that serve the requests of codes 1 to 15, in the order of the codes (R375). -/
def adminSteps (id : Nat) : List Instr :=
  [.ctxnew id, .ctxdel id, .qnew id, .qdel id, .sqnew id, .sqdel id, .mapPages id, .unmap id, .migrate id, .tdopen id,
   .tdclose id, .drawopen id, .drawseal id, .drawclose id, .sqreset id]

/-- The step that serves a request, by its code (R375). -/
def adminEvent (op id : Nat) : Instr := (Instr.fwupdate id :: adminSteps id).getD op (.fwupdate id)

/-- A request completes: DONE is filled with its status and result (R375). -/
def completeAdmin (s : State) (id status result : Nat) : State :=
  match SMap.find s.admins id with
  | none => s
  | some a =>
    ownerFill { s with admins := SMap.del s.admins id } a.die a.qctx a.done.toNat (status * 2 ^ 60 + result % 2 ^ 32) 6

/-- A request completes with a result that the rules do not state; a DRAWSEAL that succeeds gives 0 (R375, R430; log 10). -/
def finishAdmin (s : State) (id status : Nat) : State :=
  let sealed := match SMap.find s.admins id with | some a => decide (a.op = 13 ∧ status = 0) | none => false
  completeAdmin (fresh s).2 id status (if sealed then 0 else Config.openWord s.nextId % 2 ^ 32)

/-- An admin entry is read and its request made; it waits until AFTER is full (R375). A reserved code, and an entry that
breaks its layout, are refused. -/
def startAdmin (s : State) (qk : Nat) (q : Sq) (e : List DWord) : State :=
  let dev := qk / 4096
  let after := (e.getD 1 0).toNat
  let full := if after = 0 then some true else (ownerRead s dev q.ctx after 8).map (fun v => decide (v ≥ 2 ^ 63))
  if full = some false then s
  else
    let op := bits (e.getD 0 0) 31 0
    let args := e.drop 3
    let a4 := (args.getD 4 0).toNat
    let good := decide (bits (e.getD 0 0) 63 32 = 0) && full.isSome && argsOk op args && contextOk (qk % 4096) q.ctx op a4
    let r := fresh s
    let a : Admin := {
      sq := qk, dev := dev, die := sqDie dev q, qctx := q.ctx, ctx := if qk % 4096 = 0 then a4 else q.ctx, op := op,
      entry := q.entryAt q.head, after := e.getD 1 0, done := e.getD 2 0, args := args, bad := !good }
    let s1 := popSq { r.2 with admins := SMap.put r.2.admins r.1 a } qk id
    if good then post s1 (adminEvent op r.1) else finishAdmin s1 r.1 1

/-- The walker reads the entry at HEAD of a submission queue (R375, R377, R378). -/
def readSubmission (s : State) (qk : Nat) : State :=
  match SMap.find s.sqs qk with
  | none => s
  | some q =>
    if sqReady s qk q = false then s
    else match ownerWords s (qk / 4096) q.ctx (q.entryAt q.head) 8 with
      | none => commandFault (popSq s qk id) qk 3 0 0 (q.entryAt q.head)
      | some e => if q.admin then startAdmin s qk q e else startEntryOf s qk q e

/-- A doorbell store arrives at a die, from a hart or the host: the register of the queue takes it where the die is its
HOME (R377, R388). -/
def doorbellStore (s : State) (dk sqn : Nat) (v : DWord) : State :=
  let qk := devOf dk * 4096 + sqn
  match SMap.find s.sqs qk with
  | some q => if sqn < 4096 ∧ sqDie (devOf dk) q = dk then ringDoorbell s qk v else s
  | none => s

/-! ## The steps -/

/-- DOORBELL, R377. -/
def execDoorbell (dk sqn : Nat) (v : BitVec 64) (host : Bool) (s : State) : Host.Outcome State Fault Refusal :=
  .next (if host && (getDev s (devOf dk)).dead then s else doorbellStore s dk sqn v)
/-- SUBMISSION_ENTRY, R378. -/
def execSubmissionEntry (sq : Nat) (s : State) : Host.Outcome State Fault Refusal := .next (readSubmission s sq)
/-- LAUNCH_NODE, R381. -/
def execLaunchNode (w : Nat) (s : State) : Host.Outcome State Fault Refusal := .next (walkStep 1 launchAct s w)
/-- COPY_NODE, R380. -/
def execCopyNode (w : Nat) (s : State) : Host.Outcome State Fault Refusal := .next (walkStep 2 copyAct s w)
/-- SIGNAL_NODE, R380. -/
def execSignalNode (w : Nat) (s : State) : Host.Outcome State Fault Refusal := .next (walkStep 3 signalAct s w)
/-- WAIT_NODE, R380. -/
def execWaitNode (w : Nat) (s : State) : Host.Outcome State Fault Refusal := .next (walkStep 4 waitAct s w)
/-- TIMED_NODE, R380. -/
def execTimedNode (w : Nat) (s : State) : Host.Outcome State Fault Refusal := .next (walkStep 5 timedAct s w)
/-- COND_NODE, R380. -/
def execCondNode (w : Nat) (s : State) : Host.Outcome State Fault Refusal := .next (walkStep 6 condAct s w)
/-- LOOP_NODE, R380. -/
def execLoopNode (w : Nat) (s : State) : Host.Outcome State Fault Refusal := .next (walkStep 7 loopAct s w)
/-- INDIRECT_NODE, R382. -/
def execIndirectNode (w : Nat) (s : State) : Host.Outcome State Fault Refusal := .next (walkStep 8 indirectAct s w)
/-- END_NODE, R380. -/
def execEndNode (w : Nat) (s : State) : Host.Outcome State Fault Refusal := .next (walkStep 0 endAct s w)

end Sys2Proof.Machine
end

