-- ==== Sys2Proof/Machine/Admin.lean ====
section
/-! DEFINITION. Admin requests of the memory manager and the front end (R328, R331, R350, R353 to R356, R363, R374 to R376,
R383, R432): contexts, queues, submission queues, pages, migration, ticket domains and draws. -/
namespace Sys2Proof.Machine

open Sys2Proof

/-- Argument word k of a request. -/
def Admin.arg (a : Admin) (k : Nat) : Nat := (a.args.getD k 0).toNat
/-- The request stands on the host's queue (R375). -/
def Admin.host (a : Admin) : Bool := decide (a.sq % 4096 = 0)
/-- Key of the context the request acts for. -/
def Admin.ctxKey (a : Admin) : Nat := a.dev * 65536 + a.ctx

/-- A request whose turn it is does what its code does; a number that names none changes nothing. -/
def serve (op : Nat) (f : State → Nat → Admin → State) (s : State) (id : Nat) : State :=
  match SMap.find s.admins id with
  | some a => if a.op = op ∧ a.bad = false ∧ (getDev s a.dev).off = false then f s id a else s
  | none => s

/-! ## Contexts (R374, R375, R403) -/

/-- A context record image keeps its layout (R309, R324, R374). -/
def recordImageOk (ws : List DWord) : Bool :=
  let w (k : Nat) : Nat := (ws.getD k 0).toNat
  decide (1 ≤ w 0 ∧ w 0 ≤ 0xFFFE ∧ w 1 % 65536 = 0 ∧ w 2 % 65536 = 0 ∧ w 4 % 8 = 0 ∧ w 5 < 4096 ∧ w 6 = 0 ∧ w 7 = 0)
    && physOk (w 1) && physOk (w 2)

/-- CTXNEW: the record is kept in memory, where supervisor software may read it (R374). -/
def newContext (s : State) (id : Nat) (a : Admin) : State :=
  match ownerWords s a.dev 0 (a.arg 0) 8 with
  | none => finishAdmin s id 1
  | some ws =>
    let n := (ws.getD 0 0).toNat
    if recordImageOk ws = false ∨ (SMap.find s.ctxs (a.dev * 65536 + n)).isSome = true then finishAdmin s id 1
    else completeAdmin (writeRecordWords { s with ctxs := SMap.put s.ctxs (a.dev * 65536 + n) { words := ws } }
      (contextRecord a.dev n) (ws.map BitVec.toNat)) id 0 n

/-- Harts of a compute core of a device that are not idle and belong to a context. -/
def contextHarts (s : State) (dev ctx : Nat) : List Nat :=
  (s.harts.filter (fun p => devOfHart p.1 == dev && decide (p.2.ctxid.toNat = ctx) && p.2.st != .idle
    && isCompute s (coreOf p.1))).map Prod.fst

/-- The context still has work: a hart, a commit or a walk of it. -/
def contextBusy (s : State) (dev ctx : Nat) : Bool :=
  !(contextHarts s dev ctx).isEmpty || s.commits.any (fun p => p.2.dev == dev && p.2.ctx == ctx)
    || s.walks.any (fun p => p.2.dev == dev && p.2.ctx == ctx)

/-- An access of the context has not performed (R403). -/
def contextAccesses (s : State) (dev ctx : Nat) : Bool :=
  s.ops.any (fun p => p.2.ctx == dev * 65536 + ctx)
    || s.cores.any (fun p => (p.2.kicks ++ p.2.refusedKicks).any (fun k => k.dev == dev && k.ctx == ctx))
    || (SMap.get [] s.jobs dev).any (fun j => j.ctx == ctx)

/-- A context and all that it owns is gone, its translations and its registers with it, so that a later context of its
number finds none of its values (R23, R374). -/
def forgetContext (s : State) (dev ctx : Nat) : State :=
  let mine (k c : Nat) (n : Nat) : Bool := k / n == dev && c == ctx
  let s1 := dropEntries s (dev * 8192) 3 ctx 0
  { s1 with
    ctxs := SMap.del s1.ctxs (dev * 65536 + ctx),
    queues := s1.queues.filter (fun p => !mine p.1 p.2.ctx 4096),
    sqs := s1.sqs.filter (fun p => !mine p.1 p.2.ctx 4096),
    domains := s1.domains.filter (fun p => !mine p.1 p.2.ctx 65536),
    draws := s1.draws.filter (fun p => !mine p.1 p.2.ctx 65536),
    closedDraws := s1.closedDraws.filter (fun p => !mine p.1 p.2.ctx (2 ^ 32)),
    harts := SMap.each (fun k h => if devOfHart k = dev ∧ h.lastCtx = ctx then { h with lastCtx := 0 } else h) s1.harts,
    cores := SMap.each (fun k c => if devOf (dieOf k) = dev then
      { c with poolCtx := c.poolCtx.filter (fun p => p.2 != ctx) } else c) s1.cores }

/-- CTXDEL: it waits for the context's accesses, and is refused as busy while the context has work (R375, R403;
log 13). -/
def deleteContext (s : State) (id : Nat) (a : Admin) : State :=
  let ctx := a.arg 0
  if (SMap.find s.ctxs (a.dev * 65536 + ctx)).isNone then finishAdmin s id 1
  else if contextBusy s a.dev ctx then finishAdmin s id 2
  else if contextAccesses s a.dev ctx then s
  else
    let qs := (s.queues.filter (fun p => p.1 / 4096 == a.dev && p.2.ctx == ctx)).map (fun p => queueRecord p.1)
    finishAdmin ((contextRecord a.dev ctx :: qs).foldl clearRecord (forgetContext s a.dev ctx)) id 0

/-! ## Task queues (R331, R332) -/

/-- A queue descriptor image as a queue that holds nothing (R331). -/
def queueOf (d : List DWord) : Queue :=
  { ctl := d.getD 0 0, clus := bits (d.getD 1 0) 31 0, lead := bits (d.getD 1 0) 63 32, binw := d.getD 7 0 }

/-- A queue descriptor keeps its layout (R331). -/
def queueOk (q : Queue) : Bool :=
  q.v && decide (q.kind ≤ 1 ∧ q.cap ≠ 0 ∧ q.dies ≠ 0 ∧ bits q.ctl 5 0 = 0 ∧ q.clus % 4096 ≠ 0 ∧ q.clus < 4096
    ∧ q.lead ≤ 1000000 ∧ bits q.binw 63 32 = 0)
    && (if q.kind = 1 then decide (bits q.binw 15 0 ≠ 0 ∧ bits q.binw 31 16 ≠ 0) else decide (q.binw = 0))

/-- Bytes of a die's caddy that a queue takes: 192 for each entry of its capacity and for each hart that may run its tasks
(R332, R348). -/
def queueBytes (s : State) (dk : Nat) (q : Queue) : Nat :=
  let cores := (((diesOfDev (devOf dk)).flatMap tilesOfDie).filter (admits s q)).length
  let across := bits q.binw 15 0
  let subs := if q.kind = 1 then
      ((List.range (across * bits q.binw 31 16)).filter (fun t => tileDie across t == dieNo dk)).length
    else if q.home = dieNo dk then 1 else 0
  if subs = 0 then 0 else 192 * (subs * q.cap + 8 * cores)

/-- Every die's caddy holds its queues and one more (R332). -/
def caddyHolds (s : State) (dev : Nat) (q : Queue) : Bool :=
  (diesOfDev dev).all (fun dk =>
    let used := ((s.queues.filter (fun p => p.1 / 4096 == dev)).map (fun p => queueBytes s dk p.2)).sum
    queueBytes s dk q = 0 || decide (used + queueBytes s dk q ≤ (dieCfg s dk).caddyMB * 2 ^ 20))

/-- QNEW (R331, R332). -/
def newQueue (s : State) (id : Nat) (a : Admin) : State :=
  match ctxWords s a.dev a.ctx (a.arg 1) 8 with
  | none => finishAdmin s id 1
  | some d =>
    let q := queueOf d
    let key := a.dev * 4096 + a.arg 0
    if queueOk q && (SMap.find s.queues key).isNone && (SMap.find s.ctxs (a.dev * 65536 + q.ctx)).isSome
        && (a.host || q.ctx == a.ctx) && caddyHolds s a.dev q then
      finishAdmin (writeRecordWords { s with queues := SMap.put s.queues key q } (queueRecord key) q.words) id 0
    else finishAdmin s id 1

/-- QDEL: the queue's entries are dropped as cancelled and its storage is free (R375, R407; log 13). -/
def deleteQueue (s : State) (id : Nat) (a : Admin) : State :=
  let key := a.dev * 4096 + a.arg 0
  match SMap.find s.queues key with
  | none => finishAdmin s id 1
  | some q =>
    if a.host || q.ctx == a.ctx then
      let t := fenceQueue s key
      finishAdmin (clearRecord { t with queues := SMap.del t.queues key } (queueRecord key)) id 0
    else finishAdmin s id 1

/-! ## Page tables (R308, R309) -/

/-- The physical address of a frame of a size on a device that the memory manager takes, outside the region of the
compression metadata (R326; log 10). -/
def takeFrame (s : State) (dev size : Nat) : Nat × State :=
  let r := fresh s
  (dev % 8 * 2 ^ 38 + Config.freeFrame r.1 * size % (2 ^ 38 - if metaReserved s dev then 2 ^ 28 else 0) / size * size, r.2)

/-- Bytes are cleared, listed ones alone being touched. -/
def clearBytes (s : State) (at_ n : Nat) : State :=
  { s with mem := s.mem.filter (fun c => !decide (at_ ≤ c.1 ∧ c.1 < at_ + n)) }

/-- The address of the entry for a virtual address at the level whose leaves have a SIZE, with missing tables made on the
way; none where a leaf or a malformed pointer stands in the way (R309). -/
def tableSlot (dev va want : Nat) : List (Nat × Nat × Nat × Nat) → Nat → State → Option (State × Nat)
  | [], _, _ => none
  | (hi, lo, size, next) :: ls, table, s =>
    let slot := table + 8 * ((va >>> lo) % 2 ^ (hi + 1 - lo))
    let e := BitVec.ofNat 64 (readN s slot 8)
    if size = want then some (s, slot)
    else if bit e 0 = false then
      let f := takeFrame s dev next
      tableSlot dev va want ls f.1 (writeN (clearBytes f.2 f.1 next) slot 8 (f.1 + 1))
    else if bit e 1 || !pointerOk e next then none
    else tableSlot dev va want ls (bits e 47 8 * 256) s

/-- A leaf is written for a page of a context (R309). -/
def writeLeaf (s : State) (dev ctx va : Nat) (e : DWord) : Option State :=
  match SMap.find s.ctxs (dev * 65536 + ctx) with
  | none => none
  | some c =>
    (tableSlot dev va (bits e 28 27) walkShape (c.words.getD 1 0).toNat s).map (fun r => writeN r.1 r.2 8 e.toNat)

/-- The address of the leaf that maps a virtual address, with the leaf and its page size. -/
def leafSlot (s : State) (va : Nat) : List (Nat × Nat × Nat × Nat) → Nat → Option (Nat × DWord × Nat)
  | [], _ => none
  | (hi, lo, size, next) :: ls, table =>
    let slot := table + 8 * ((va >>> lo) % 2 ^ (hi + 1 - lo))
    let e := BitVec.ofNat 64 (readN s slot 8)
    if bit e 0 = false then none
    else if bit e 1 then (if size = 3 ∨ bits e 28 27 ≠ size ∨ leafBad e = true then none else some (slot, e, entrySize e))
    else if pointerOk e next then leafSlot s va ls (bits e 47 8 * 256) else none

/-- The leaf of a context's virtual address. -/
def leafOf (s : State) (dev ctx va : Nat) : Option (Nat × DWord × Nat) :=
  match SMap.find s.ctxs (dev * 65536 + ctx) with
  | none => none
  | some c => leafSlot s va walkShape (c.words.getD 1 0).toNat

/-- Leaves for n pages from a virtual address, the template's PFN moving on page by page (R432). -/
def mapLeaves (dev ctx : Nat) : Nat → Nat → DWord → State → Option State
  | 0, _, _, s => some s
  | n + 1, va, e, s =>
    if leafBad e then none
    else
      let z := entrySize e
      match writeLeaf s dev ctx va e with
      | none => none
      | some t => mapLeaves dev ctx n (va + 2 ^ z) (e + BitVec.ofNat 64 (2 ^ (z - 16) * 2 ^ 32)) t

/-- Set-aside entries of a context whose fault address lies in a range return to the head of their queue (R343, R374). -/
def releaseAside (dev ctx base len : Nat) (s : State) (qk : Nat) : State :=
  match SMap.find s.queues qk with
  | none => s
  | some q =>
    let hit (e : QEntry) : Bool := e.ctx == ctx && (match e.aside with
      | some f => decide (base ≤ f.toNat ∧ f.toNat < base + len)
      | none => false)
    if qk / 4096 = dev ∧ q.entries.any hit = true then
      setQueue s qk { q with entries :=
        (q.entries.filter hit).map (fun e => { e with aside := none }) ++ q.entries.filter (fun e => !hit e) }
    else s

/-- MAP (R375, R432). -/
def mapRange (s : State) (id : Nat) (a : Admin) : State :=
  let e := a.args.getD 2 0
  let z := 2 ^ entrySize e
  let base := a.arg 0
  let len := a.arg 1
  if bit e 0 && bit e 1 && !leafBad e && decide (len ≠ 0 ∧ base % z = 0 ∧ len % z = 0 ∧ base + len ≤ 2 ^ 56) then
    match mapLeaves a.dev a.ctx (len / z) base e s with
    | none => finishAdmin s id 1
    | some t => finishAdmin ((SMap.keys t.queues).foldl (releaseAside a.dev a.ctx base len) t) id 0
  else finishAdmin s id 1

/-- The leaves of a range are cleared; none where a page reaches beyond it. -/
def unmapLeaves (dev ctx stop : Nat) : Nat → Nat → State → Option State
  | 0, _, s => some s
  | n + 1, va, s =>
    if va ≥ stop then some s
    else match leafOf s dev ctx va with
      | none => unmapLeaves dev ctx stop n (va + 65536) s
      | some (slot, _, z) =>
        if va % 2 ^ z ≠ 0 ∨ va + 2 ^ z > stop then none
        else unmapLeaves dev ctx stop n (va + 2 ^ z) (writeN s slot 8 0)

/-- UNMAP: the leaves go, and every translation of the context with them (R278, R375; log 13). -/
def unmapRange (s : State) (id : Nat) (a : Admin) : State :=
  let base := a.arg 0
  let len := a.arg 1
  if len ≠ 0 ∧ base % 65536 = 0 ∧ len % 65536 = 0 ∧ base + len ≤ 2 ^ 56 ∧ (SMap.find s.ctxs a.ctxKey).isSome = true then
    match unmapLeaves a.dev a.ctx (base + len) (len / 65536) base s with
    | none => finishAdmin s id 1
    | some t => finishAdmin (dropEntries t (a.dev * 8192) 3 a.ctx 0) id 0
  else finishAdmin s id 1

/-! ## Submission queues (R376, R383) -/

/-- A submission queue descriptor keeps its layout (R376). -/
def sqOk (d : List DWord) : Bool :=
  let b := d.getD 1 0
  decide ((d.getD 0 0).toNat % 4096 = 0 ∧ bits (d.getD 0 0) 63 56 = 0 ∧ 4 ≤ bits b 7 0 ∧ bits b 7 0 ≤ 16
    ∧ bits b 15 10 = 0 ∧ bits b 47 32 < 4096 ∧ bits b 55 48 < 8 ∧ bits b 63 56 = 0 ∧ bits (d.getD 2 0) 63 13 = 0)

/-- The physical address of a submission queue's doorbell (R388). -/
def doorbellAt (dev home sqn : Nat) : Nat := 2 * 2 ^ 44 + dev % 8 * 2 ^ 38 + home * 2 ^ 35 + 0x80 * 2 ^ 27 + 8 * sqn

/-- The 64 KiB leaf that maps a doorbell's page for loads and stores from user mode (R308, R376). -/
def doorbellLeaf (pa : Nat) : DWord := BitVec.ofNat 64 (pa / 65536 * 2 ^ 32 + 2 ^ 24 + 2 ^ 23 + 2 ^ 22 + 2 + 1)

/-- SQNEW: the queue is created, and its doorbell mapped at the virtual address named, whose offset in its page is the
doorbell's (R376; log 13). -/
def newSq (s : State) (id : Nat) (a : Admin) : State :=
  match ctxWords s a.dev a.ctx (a.arg 0) 4 with
  | none => finishAdmin s id 1
  | some d =>
    let b := d.getD 1 0
    let sqn := bits b 47 32
    let ctx := bits b 31 16
    let pa := doorbellAt a.dev (bits b 55 48) sqn
    let key := a.dev * 4096 + sqn
    if sqOk d && (SMap.find s.sqs key).isNone && (a.host || ctx == a.ctx) && decide (sqn ≠ 0)
        && decide (a.arg 1 < 2 ^ 56 ∧ a.arg 1 % 65536 = pa % 65536) then
      match writeLeaf s a.dev ctx (a.arg 1) (doorbellLeaf pa) with
      | none => finishAdmin s id 1
      | some t =>
        let q : Sq := { desc := d, ctx := ctx, doorVa := BitVec.ofNat 64 (a.arg 1) }
        finishAdmin { t with sqs := SMap.put t.sqs key q } id 0
    else finishAdmin s id 1

/-- SQDEL: refused as busy while an entry's walk has not completed (R375; log 13). -/
def deleteSq (s : State) (id : Nat) (a : Admin) : State :=
  let key := a.dev * 4096 + a.arg 0
  match SMap.find s.sqs key with
  | none => finishAdmin s id 1
  | some q =>
    if !(a.host || q.ctx == a.ctx) || decide (a.arg 0 = 0) then finishAdmin s id 1
    else if s.walks.any (fun p => p.2.sq == key) then finishAdmin s id 2
    else finishAdmin { s with sqs := SMap.del s.sqs key } id 0

/-- Entries of a queue from an index on are dropped: their DONE is filled with status 2, where they can be read (R383). -/
def dropEntriesOf (dk : Nat) (q : Sq) : Nat → Nat → State → State
  | 0, _, s => s
  | n + 1, i, s =>
    let t := match ownerRead s (devOf dk) q.ctx (q.entryAt i + 16) 8 with
      | some d => ownerFill s dk q.ctx d (2 * 2 ^ 60) 6
      | none => s
    dropEntriesOf dk q n (i + 1) t

/-- SQRESET: unstarted entries up to TAIL are dropped, HEAD is set to TAIL and the queue is no longer fenced, unless its
context is (R383, R403). -/
def resetSq (s : State) (id : Nat) (a : Admin) : State :=
  let key := a.dev * 4096 + a.arg 0
  match SMap.find s.sqs key with
  | none => finishAdmin s id 1
  | some q =>
    if a.host || q.ctx == a.ctx then
      let t := dropEntriesOf (sqDie a.dev q) q ((q.tail + 2 ^ 32 - q.head) % 2 ^ 32) q.head s
      let held := match SMap.find s.ctxs (a.dev * 65536 + q.ctx) with | some c => c.fenced | none => false
      finishAdmin { t with sqs := SMap.put t.sqs key { q with head := q.tail, fenced := held } } id 0
    else finishAdmin s id 1

/-! ## Migration (R328 to R330) -/

/-- Poison of a range moves with its bytes. -/
def movePoison (s : State) (old new n : Nat) : State :=
  let gone := s.poison.filter (fun p => !decide (new / 64 ≤ p.1 ∧ p.1 < (new + n) / 64))
  let moved := s.poison.filter (fun p => decide (old / 64 ≤ p.1 ∧ p.1 < (old + n) / 64))
  { s with poison := moved.foldl (fun m p => SMap.set false m (p.1 - old / 64 + new / 64) p.2) gone }

/-- The bytes of a page are copied to a new frame, listed ones alone. -/
def copyPage (s : State) (old new n : Nat) : State :=
  let src := s.mem.filter (fun c => decide (old ≤ c.1 ∧ c.1 < old + n))
  let t := clearBytes s new n
  movePoison { t with mem := src.foldl (fun m c => memSet m (c.1 - old + new) c.2) t.mem } old new n

/-- Every line of a page is put in the forwarding state, naming its new line (R328). -/
def forwardPage (s : State) (old new n : Nat) : State :=
  { s with forward := (List.range (n / 512)).foldl (fun m k => SMap.put m (old / 512 + k) (new / 512 + k)) s.forward }

/-- No slice holds a line of a range any more, and no device shares one (R328, R396). -/
def recallLines (s : State) (at_ n : Nat) : State :=
  { s with l2 := SMap.each (fun _ ls => ls.filter (fun x => !decide (at_ / 512 ≤ x.line ∧ x.line < (at_ + n) / 512))) s.l2,
           sharers := s.sharers.filter (fun p => !decide (at_ / 512 ≤ p.1 ∧ p.1 < (at_ + n) / 512)) }

/-- The forwarding states of a page are cleared (R328). -/
def clearForward (s : State) (old n : Nat) : State :=
  { s with forward := s.forward.filter (fun p => !decide (old / 512 ≤ p.1 ∧ p.1 < (old + n) / 512)) }

/-- A frame for a page on a device and, for a 64 KiB page, on the die that its address bits [21:19] name (R314). -/
def targetFrame (s : State) (dev die size : Nat) : Nat × State :=
  let f := takeFrame s dev size
  (if size = 65536 then f.1 / 2 ^ 22 * 2 ^ 22 + die * 2 ^ 19 + f.1 % 2 ^ 19 else f.1, f.2)

/-- MIGRATE, step by step: the new leaf, the copy with the lines forwarding; the `tlbi` and the wait for what met the old
home; the end of forwarding (R328, R329). -/
def migratePage (s : State) (id : Nat) (a : Admin) : State :=
  let va := a.arg 0
  if a.stage = 0 then
    match leafOf s a.dev a.ctx va with
    | none => finishAdmin s id 1
    | some (slot, e, z) =>
      let n := 2 ^ z
      let old := physOf e z (va / n * n)
      let held := (List.range (n / 512)).any (fun k => isRetained s (old + 512 * k))
      if va % n ≠ 0 ∨ classOf old ≠ 0 ∨ held = true ∨ (List.range (n / 65536)).any (fun k => inCaddy s (old + 65536 * k)) = true then
        finishAdmin s id 1
      else
        let f := targetFrame s (a.arg 1 / 256) (a.arg 1 % 8) n
        let leaf := withBits e 63 32 (f.1 / 65536)
        let s1 := writeN f.2 slot 8 leaf.toNat
        let s2 := forwardPage (copyPage (recallLines s1 old n) old f.1 n) old f.1 n
        post { s2 with admins := SMap.put s2.admins id { a with stage := 1, old := old, new := n } } (.migrate id)
  else if a.stage = 1 then
    let t := dropEntries s (a.dev * 8192) 3 a.ctx 0
    post { t with admins := SMap.put t.admins id { a with stage := 2 } } (.migrate id)
  else if s.ops.any (fun p => p.2.rehome.any (fun l => decide (a.old / 512 ≤ l ∧ l < (a.old + a.new) / 512))) then s
  else finishAdmin (clearForward s a.old a.new) id 0

/-! ## Ticket domains (R350) -/

/-- Keys of the domains a request names. -/
def domainKeys (a : Admin) : List Nat := (List.range (a.arg 1)).map (fun k => a.dev * 65536 + a.arg 0 + k)

/-- The request names at least one domain and none past the last. -/
def domainsInRange (a : Admin) : Bool := decide (1 ≤ a.arg 1 ∧ a.arg 0 + a.arg 1 ≤ 65536)

/-- TDOPEN (R350). -/
def openDomains (s : State) (id : Nat) (a : Admin) : State :=
  let open_ (k : Nat) : Bool := match SMap.find s.domains k with | some d => d.v | none => false
  if domainsInRange a && (SMap.find s.ctxs a.ctxKey).isSome && !(domainKeys a).any open_ then
    finishAdmin { s with domains := (domainKeys a).foldl (fun m k => SMap.put m k { v := true, ctx := a.ctx }) s.domains }
      id 0
  else finishAdmin s id 1

/-- TDCLOSE: busy while LOW ≠ NEXT (R350, R375). -/
def closeDomains (s : State) (id : Nat) (a : Admin) : State :=
  let mine (k : Nat) : Bool := match SMap.find s.domains k with | some d => d.v && d.ctx == a.ctx | none => false
  let quiet (k : Nat) : Bool := match SMap.find s.domains k with | some d => decide (d.low = d.next) | none => true
  if !domainsInRange a || !(domainKeys a).all mine then finishAdmin s id 1
  else if !(domainKeys a).all quiet then finishAdmin s id 2
  else finishAdmin { s with domains := (domainKeys a).foldl SMap.del s.domains } id 0

/-! ## Draws (R353 to R356, R363) -/

/-- A draw descriptor keeps its layout (R353). -/
def drawOk (d : List DWord) : Bool :=
  let w (k : Nat) : DWord := d.getD k 0
  let ord := bit (w 0) 2
  decide (bits (w 0) 1 0 ≠ 3 ∧ bits (w 0) 15 3 = 0 ∧ bits (w 0) 63 48 = 0)
    && decide ((bits (w 0) 31 16 ≠ 0) ↔ ord = true)
    && decide (1 ≤ bits (w 1) 15 0 ∧ bits (w 1) 15 0 ≤ 32768 ∧ 1 ≤ bits (w 1) 31 16 ∧ bits (w 1) 31 16 ≤ 32768
      ∧ bits (w 1) 63 44 = 0 ∧ bits (w 2) 63 32 = 0 ∧ (w 5).toNat % 128 = 0 ∧ bits (w 6) 63 32 = 0
      ∧ (w 7).toNat % 64 = 0 ∧ 3 ≤ bits (w 9) 7 0 ∧ bits (w 9) 7 0 ≤ 16 ∧ bits (w 9) 15 8 ≤ 8 ∧ bits (w 9) 31 16 ≤ 256
      ∧ bits (w 9) 63 32 = 0)
    && (d.drop 10).all (fun x => decide (x = 0))

/-- A template of a draw keeps its layout, with no input tiles, ticket, completion word or queue (R353). -/
def templateOk (ord : Bool) (at_ : DWord) (r : List DWord) : Bool :=
  decide (at_.toNat % 8 = 0) && recordOk r && decide (recNin r = 0) && !recTkv r && !recCpl r && (!ord || recIdem r)

/-- BINQ is a bin set of the context whose descriptor matches the target (R353). -/
def binSetOk (s : State) (dev ctx : Nat) (d : Draw) : Bool :=
  match SMap.find s.queues (dev * 4096 + d.binq) with
  | none => false
  | some q => q.v && decide (q.kind = 1 ∧ q.ctx = ctx) && !q.fenced
      && decide (bits q.binw 15 0 = d.across ∧ bits q.binw 31 16 = d.down)

/-- A refused draw descriptor is a command fault of the request's queue, and DONE gets status 1 (R353, R383). -/
def drawFault (s : State) (id : Nat) (a : Admin) (reason : Nat) : State :=
  finishAdmin (commandFault s a.sq reason 0 0 a.entry) id 1

/-- DRAWOPEN (R353). -/
def openDraw (s : State) (id : Nat) (a : Admin) : State :=
  let key := a.dev * 65536 + a.arg 0
  if (SMap.find s.draws key).isSome then finishAdmin s id 1
  else match ctxWords s a.dev a.ctx (a.arg 1) 16 with
    | none => drawFault s id a 3
    | some d =>
      match ctxWords s a.dev a.ctx (d.getD 3 0).toNat 16, ctxWords s a.dev a.ctx (d.getD 4 0).toNat 16 with
      | some sm, some lg =>
        let x : Draw := { num := id, ctx := a.ctx, ginst := a.arg 2, desc := d, small := sm, large := lg }
        let ord := bit (d.getD 0 0) 2
        if drawOk d && templateOk ord (d.getD 3 0) sm && templateOk ord (d.getD 4 0) lg && binSetOk s a.dev a.ctx x then
          finishAdmin { s with draws := SMap.put s.draws key x } id 0
        else drawFault s id a 4
      | _, _ => drawFault s id a 3

/-- Bin entries in the order in which the seal draws tickets and places them: tile by tile, and within a tile by KEY, equal
keys as the classifier wrote them (R363). -/
def sealOrder (bs : List BinEnt) : List BinEnt :=
  bs.mergeSort (fun a b => decide (a.tile < b.tile ∨ (a.tile = b.tile ∧ a.key ≤ b.key)))

/-- The record of a bin entry: its template with KEY, the draw's instance and its arguments (R361). -/
def binRecord (d : Draw) (b : BinEnt) : List DWord :=
  let t := if b.large then d.large else d.small
  (List.range 16).map (fun k =>
    if k = 1 then withBits (recW t 1) 63 32 b.key
    else if k = 3 then BitVec.ofNat 64 d.ginst
    else if 6 ≤ k ∧ k < 14 then b.args.getD (k - 6) 0
    else recW t k)

/-- TDBASE of a draw. -/
def Draw.tdbase (d : Draw) : Nat := bits (d.desc.getD 0 0) 47 32
/-- NTD of a draw. -/
def Draw.ntd (d : Draw) : Nat := bits (d.desc.getD 0 0) 31 16

/-- An entry of an ordered draw takes the next ticket of its tile's domain, as `tkget` draws it; one of a domain that is
not open to the context takes none that has been drawn (R363). -/
def ticketEntry (d : Draw) (dev : Nat) (s : State) (tile : Nat) (r : List DWord) : State × List DWord :=
  if d.ord = false then (s, r)
  else
    let dom := d.tdbase + tile % max 1 d.ntd
    let key := dev * 65536 + dom
    let mark (n : Nat) : List DWord := (r.set 1 (withBits (recW r 1) 31 16 dom ||| 2)).set 2 (BitVec.ofNat 64 n)
    match (if dom < 65536 then SMap.find s.domains key else none) with
    | some x => if x.v && x.ctx == d.ctx then
        ({ s with domains := SMap.put s.domains key { x with next := x.next + 1 } }, mark x.next) else (s, mark (2 ^ 64 - 1))
    | none => (s, mark (2 ^ 64 - 1))

/-- The records of a seal, with their tickets drawn. -/
def sealRecords (d : Draw) (dev : Nat) : List BinEnt → State → State × List (Nat × List DWord)
  | [], s => (s, [])
  | b :: bs, s =>
    let r := ticketEntry d dev s b.tile (binRecord d b)
    let rest := sealRecords d dev bs r.1
    (rest.1, (b.tile, r.2) :: rest.2)

/-- One record of the seal enters its tile's sub-queue, or waits behind those that wait for room (R363). -/
def placeBin (qk launch : Nat) (d : Draw) (s : State) (x : Nat × List DWord) : State :=
  match SMap.find s.queues qk with
  | none => launchSub s launch 1
  | some q =>
    let r := fresh s
    let e : QEntry := {
      seq := 0, kind := if recW x.2 0 = 0 then 2 else 0, words := x.2, launch := launch, ginst := d.ginst, uid := r.1,
      tile := x.1, ctx := d.ctx }
    if q.fenced then launchSub r.2 launch 1
    else if q.stalled.isEmpty && !queueFull q x.1 then enqueue r.2 qk e
    else { r.2 with queues := SMap.put r.2.queues qk { q with stalled := q.stalled ++ [.held e] } }

/-- The bin launch of a draw (R354). -/
def binLaunch (d : Draw) (dev n : Nat) : Launch :=
  let w := d.desc.getD 9 0
  { dev := dev, ctx := d.ctx, ginst := d.ginst, vchunks := bits w 7 0, spad := bits w 31 16, harts := bits w 15 8,
    mesh := false, stats := d.desc.getD 7 0, live := n }

/-- The entries of a draw are placed, their tickets all drawn first, and its bin launch is released with the first
(R354, R363). -/
def placeBins (s : State) (key : Nat) (d : Draw) : State :=
  let dev := key / 65536
  let r := sealRecords d dev (sealOrder d.bins) s
  if r.2.isEmpty then rouseClassifiers { s with draws := SMap.put s.draws key { d with bins := [] } } dev
  else
    let l := fresh r.1
    let s1 := { l.2 with launches := SMap.put l.2.launches l.1 (binLaunch d dev r.2.length),
                         draws := SMap.put l.2.draws key { d with bins := [], blaunch := some l.1 } }
    rouseClassifiers (r.2.foldl (placeBin (dev * 4096 + d.binq) l.1 d) s1) dev

/-- Triangles of a draw wait at some classifier of its device (R356). -/
def classifying (s : State) (key : Nat) : Bool :=
  (diesOfDev (key / 65536)).any (fun dk => (getDie s dk).cls.any (fun t => t.draw == key))

/-- Entries of a draw wait for room in their sub-queues (R363). -/
def sealStalled (s : State) (key : Nat) (d : Draw) : Bool :=
  match SMap.find s.queues (key / 65536 * 4096 + d.binq), d.blaunch with
  | some q, some l => q.stalled.any (fun x => match x with | .held e => e.launch == l | _ => false)
  | _, _ => false

/-- DRAWSEAL: the draw takes no more hand-overs; when the classifiers have finished it, its entries are placed; when all
have entered, the request completes (R356, R363). -/
def sealDraw (s : State) (id : Nat) (a : Admin) : State :=
  let key := a.dev * 65536 + a.arg 0
  match SMap.find s.draws key with
  | none => finishAdmin s id 1
  | some d =>
    if d.ctx ≠ a.ctx ∨ (a.stage = 0 ∧ d.isOpen = false) then finishAdmin s id 1
    else if a.stage = 0 then
      post { s with draws := SMap.put s.draws key { d with isOpen := false, sealing := some id },
                    admins := SMap.put s.admins id { a with stage := 1 } } (.drawseal id)
    else if a.stage = 1 then
      if classifying s key then s
      else
        let t := placeBins s key d
        post { t with admins := SMap.put t.admins id { a with stage := 2 } } (.drawseal id)
    else if sealStalled s key d then s
    else finishAdmin { s with draws := SMap.put s.draws key { d with sealed := true, sealing := none } } id 0

/-- DRAWCLOSE: busy until the draw has been sealed and its bin launch has ended (R356, R375). -/
def closeDraw (s : State) (id : Nat) (a : Admin) : State :=
  let key := a.dev * 65536 + a.arg 0
  match SMap.find s.draws key with
  | none => finishAdmin s id 1
  | some d =>
    if d.ctx ≠ a.ctx then finishAdmin s id 1
    else if d.sealed = false ∨ (match d.blaunch with | some l => (SMap.find s.launches l).isSome | none => false) = true then
      finishAdmin s id 2
    else finishAdmin { s with draws := SMap.del s.draws key, closedDraws := SMap.put s.closedDraws (closedKey (key, d.num)) d } id 0

/-! ## The steps -/

/-- CTXNEW, R374. -/
def execCtxnew (id : Nat) (s : State) : Host.Outcome State Fault Refusal := .next (serve 1 newContext s id)
/-- CTXDEL, R375. -/
def execCtxdel (id : Nat) (s : State) : Host.Outcome State Fault Refusal := .next (serve 2 deleteContext s id)
/-- QNEW, R331. -/
def execQnew (id : Nat) (s : State) : Host.Outcome State Fault Refusal := .next (serve 3 newQueue s id)
/-- QDEL, R375. -/
def execQdel (id : Nat) (s : State) : Host.Outcome State Fault Refusal := .next (serve 4 deleteQueue s id)
/-- SQNEW, R376. -/
def execSqnew (id : Nat) (s : State) : Host.Outcome State Fault Refusal := .next (serve 5 newSq s id)
/-- SQDEL, R375. -/
def execSqdel (id : Nat) (s : State) : Host.Outcome State Fault Refusal := .next (serve 6 deleteSq s id)
/-- MAP, R375. -/
def execMapPages (id : Nat) (s : State) : Host.Outcome State Fault Refusal := .next (serve 7 mapRange s id)
/-- UNMAP, R375. -/
def execUnmap (id : Nat) (s : State) : Host.Outcome State Fault Refusal := .next (serve 8 unmapRange s id)
/-- MIGRATE, R328. -/
def execMigrate (id : Nat) (s : State) : Host.Outcome State Fault Refusal := .next (serve 9 migratePage s id)
/-- TDOPEN, R350. -/
def execTdopen (id : Nat) (s : State) : Host.Outcome State Fault Refusal := .next (serve 10 openDomains s id)
/-- TDCLOSE, R350. -/
def execTdclose (id : Nat) (s : State) : Host.Outcome State Fault Refusal := .next (serve 11 closeDomains s id)
/-- DRAWOPEN, R353. -/
def execDrawopen (id : Nat) (s : State) : Host.Outcome State Fault Refusal := .next (serve 12 openDraw s id)
/-- DRAWSEAL, R363. -/
def execDrawseal (id : Nat) (s : State) : Host.Outcome State Fault Refusal := .next (serve 13 sealDraw s id)
/-- DRAWCLOSE, R356. -/
def execDrawclose (id : Nat) (s : State) : Host.Outcome State Fault Refusal := .next (serve 14 closeDraw s id)
/-- SQRESET, R383. -/
def execSqreset (id : Nat) (s : State) : Host.Outcome State Fault Refusal := .next (serve 15 resetSq s id)

end Sys2Proof.Machine
end

