-- ==== Sys2Proof/Machine/Engines.lean ====
section
/-! DEFINITION. The engines (R365, R366, R391 to R394, R408) and the stores that reach the device registers as steps of
their own (R312, R313, R365, R372, R392): tile-walk transfers with their checksum, and reprojection jobs. -/
namespace Sys2Proof.Machine

open Sys2Proof

/-! ## Transfer descriptors (R391) -/

/-- Fields of a transfer descriptor, eight words. -/
def xferCtl (d : List DWord) : Nat := bits (d.getD 3 0) 63 32
/-- COLS. -/
def xferCols (d : List DWord) : Nat := bits (d.getD 3 0) 15 0
/-- ROWS. -/
def xferRows (d : List DWord) : Nat := bits (d.getD 3 0) 31 16
/-- MBOX. -/
def xferMbox (d : List DWord) : Nat := (d.getD 4 0).toNat
/-- SCOPE. -/
def xferScope (d : List DWord) : Nat := xferCtl d / 2 ^ 10 % 8
/-- Source element bytes. -/
def xferSw (d : List DWord) : Nat := 2 ^ (xferCtl d % 4)
/-- Destination element bytes. -/
def xferDw (d : List DWord) : Nat := 2 ^ (xferCtl d / 4 % 4)
/-- EXT. -/
def xferExt (d : List DWord) : Nat := xferCtl d / 16 % 4
/-- TR. -/
def xferTr (d : List DWord) : Bool := (xferCtl d).testBit 8
/-- CRC. -/
def xferCrc (d : List DWord) : Bool := (xferCtl d).testBit 9

/-- A transfer descriptor at an address keeps its layout (R391). -/
def xferOk (at_ : DWord) (d : List DWord) : Bool :=
  let c := xferCtl d
  decide (at_.toNat % 64 = 0 ∧ c / 2 ^ 13 = 0 ∧ c / 2 ^ 7 % 2 = 0 ∧ 3 ≤ xferScope d ∧ xferScope d ≤ 6 ∧ xferExt d ≠ 3
    ∧ xferSw d ≤ xferDw d ∧ 1 ≤ xferCols d ∧ 1 ≤ xferRows d ∧ xferMbox d % 8 = 0 ∧ d.getD 5 0 = 0 ∧ d.getD 6 0 = 0
    ∧ d.getD 7 0 = 0)
    && (decide (xferExt d ≠ 2) || decide (xferSw d = 2 ∨ xferSw d = 4))

/-- An element widened under EXT; one that does not expand is copied (R391). -/
def widenElem (d : List DWord) (v : Nat) : Nat :=
  let sw := xferSw d
  let dw := xferDw d
  if sw = dw ∨ xferExt d = 0 then v
  else if xferExt d = 1 then wrapInt (8 * dw) (toSigned (8 * sw) v)
  else
    let src := if sw = 4 then f32 else if (xferCtl d).testBit 6 then bf16 else f16
    (rneArith (if dw = 8 then f64 else f32) (decodeF src v).res).1

/-- Source address of element (r, c). -/
def xferSrc (d : List DWord) (r c : Nat) : Nat :=
  wrapInt 64 ((d.getD 0 0).toNat + (r : Int) * toSigned 32 (bits (d.getD 2 0) 31 0) + c * xferSw d)
/-- Destination address of element (r, c). -/
def xferDst (d : List DWord) (r c : Nat) : Nat :=
  let p := toSigned 32 (bits (d.getD 2 0) 63 32)
  let base : Int := (d.getD 1 0).toNat
  if xferTr d then wrapInt 64 (base + (c : Int) * p + r * xferDw d) else wrapInt 64 (base + (r : Int) * p + c * xferDw d)

/-! ## An engine's accesses (R306, R310, R392) -/

/-- The engine of a core, as the agent of a context in user mode (R392). -/
def engineAgent (ck ctx : Nat) : Agent := ⟨engineBase + ck, ctx, 0⟩

/-- What an engine's access comes to: the byte locations, a fault or a refusal, or a translation still to be filled. -/
inductive EngineLocs where
  | ok (ls : List Nat) (s : State)
  | fault (s : State)
  | miss (s : State)

/-- Byte locations as pieces. -/
def piecesOf : List Nat → List (Nat × Nat)
  | [] => []
  | l :: ls => match piecesOf ls with
    | (m, n) :: ps => if m = l + 1 then (l, n + 1) :: ps else (l, 1) :: (m, n) :: ps
    | [] => [(l, 1)]

/-- Locations of n bytes for an engine: what it loads lies in the global window, what it stores there or in a scratchpad. The
translation is that of its core's and cluster's TLBs, and a miss asks the translation service core, once for each page; a kick from
another device has that device's table walked (R306, R310, R312, R313, R373, R391, R392; log 11). -/
def engineLocs (s : State) (ck dev ctx : Nat) (k : Kind) (va n : Nat) : EngineLocs :=
  let a := engineAgent ck ctx
  let v := BitVec.ofNat 64 va
  if va / 2 ^ 56 ≠ 0 ∧ k = .load then .fault s
  else if va / 2 ^ 56 = 0 ∧ dev ≠ devOf (dieOf ck) then
    match ctxLocs s dev ctx k va n with
    | some ls => if (refusalOf s a k v (piecesOf ls)).isSome then .fault s else .ok ls s
    | none => .fault s
  else match elemCheck s a k v n 1 .scalar with
    | .fault _ _ _ t => .fault t
    | .miss t => .miss t
    | .ok ps t =>
      if (refusalOf t a k v ps).isSome then .fault t
      else .ok (ps.flatMap (fun p => (List.range p.2).map (p.1 + ·))) t

/-- The sectors of byte locations, with the address that reaches them. -/
def sectorsAt (va : Nat) (ls : List Nat) : List (Nat × DWord) := (sectorRun ls).map (fun q => (q, BitVec.ofNat 64 va))

/-- The hart key of a core's engine. -/
def engineKey (ck : Nat) : Nat := engineBase + ck

/-- Bytes read for an engine at a scope, through the slices that serve it; those of another node are asked for there (R318,
R399). -/
def engineRead (s : State) (ck dev ctx scope va : Nat) (ls : List Nat) : Nat × State :=
  let far := fabricPieces (fun _ => false) false (BitVec.ofNat 64 va) 0 (piecesOf ls)
  let t := touchRun s (engineKey ck) scope none false (sectorsAt va ls)
  (readLocs s ls, if far.isEmpty then t else issueAs t (engineKey ck) dev ctx { hart := 0, counter := 0, scope := scope, fabric := far })

/-- Bytes are written for an engine at a scope, through the slices that serve it; those of another node go out behind what it has
sent before (R318, R327, R399). -/
def engineWrite (s : State) (ck dev ctx scope va : Nat) (ls : List Nat) (v : Nat) : State :=
  let far := fabricPieces (fun _ => false) true (BitVec.ofNat 64 va) v (piecesOf ls)
  let t := (ls.zip (bytesOf v ls.length)).foldl (fun u p => if isRemote p.1 then u else writeByte u p.1 p.2)
    (touchRun s (engineKey ck) scope (some (dev * 65536 + ctx)) false (sectorsAt va ls))
  if far.isEmpty then t else issueAs t (engineKey ck) dev ctx { hart := 0, counter := 0, scope := scope, fabric := far }

/-- Accesses of an engine's transfer are still on their way to another node (R393, R399). -/
def engineBusy (s : State) (ck : Nat) : Bool := s.ops.any (fun p => p.2.hart == engineKey ck && p.2.counter == 0)

/-! ## Moving (R391, R393) -/

/-- What moving comes to: the state and the kick, with its elements so far; with the address that faulted; or with a translation
still to be filled (R312, R391, R393). -/
inductive Moved where
  | ok (s : State) (k : Kick)
  | fault (s : State) (k : Kick) (va : Nat)
  | miss (s : State) (k : Kick)

/-- The next element of a transfer (R391, R393). -/
def moveElem (ck : Nat) (s : State) (k : Kick) : Moved :=
  let d := k.words
  let r := k.elem / xferCols d
  let c := k.elem % xferCols d
  let src := xferSrc d r c
  let dst := xferDst d r c
  match engineLocs s ck k.dev k.ctx .load src (xferSw d) with
  | .fault t => .fault t k src
  | .miss t => .miss t k
  | .ok ls t =>
    match engineLocs t ck k.dev k.ctx .store dst (xferDw d) with
    | .fault u => .fault u k dst
    | .miss u => .miss u k
    | .ok ms u =>
      let x := engineRead u ck k.dev k.ctx (xferScope d) src ls
      let y := widenElem d x.1
      .ok (engineWrite x.2 ck k.dev k.ctx (xferScope d) dst ms y)
        { k with elem := k.elem + 1,
                 out := (bytesOf y (xferDw d)).zipIdx.foldl (fun w p => SMap.put w ((dst + p.2) % 2 ^ 64) p.1) k.out }

/-- The next n elements of a transfer, in row-major order. One that waits for a translation goes on from there (R391; log 9). -/
def moveElems (ck : Nat) : Nat → State → Kick → Moved
  | 0, s, k => .ok s k
  | n + 1, s, k =>
    match moveElem ck s k with
    | .ok t j => moveElems ck n t j
    | r => r

/-- CRC-32C of destination bytes in ascending address order (R213, R394). -/
def crcOf (m : SMap Byte) : Nat :=
  Nat.xor (m.foldl (fun c p => crcByte c p.2.toNat) 0xFFFFFFFF) 0xFFFFFFFF

/-! ## Completion (R380, R393, R408) -/

/-- The COPY node that kicked a transfer, if one did, completes (R380). -/
def reportCopy (s : State) (k : Kick) : State :=
  match k.walk with
  | none => s
  | some (w, n) =>
    match SMap.find s.walks w with
    | none => s
    | some x => { s with walks := SMap.put s.walks w { x with outstanding := x.outstanding.filter (· != n) } }

/-- What serving a kick comes to: it has ended, or it goes on later as it then stands. -/
inductive Served where
  | done (s : State)
  | later (s : State) (k : Kick)

/-- SCOPE of a descriptor as far as it can be read: `dev` where it gives none (R391, R393). -/
def kickScope (c : Nat) : Nat := if 3 ≤ c / 2 ^ 10 % 8 ∧ c / 2 ^ 10 % 8 ≤ 6 then c / 2 ^ 10 % 8 else 4

/-- A mailbox, in the global window or a scratchpad, is filled with STATUS and checksum, as an engine hart fills it, so that the
wake counts from the cluster of its tile; one that cannot be written stays as it is (R165, R393). -/
def fillMbox (s : State) (ck : Nat) (k : Kick) (mbox scope : Nat) (r : Nat × Nat) : Served :=
  let v := r.1 * 2 ^ 61 + r.2
  if mbox % 8 ≠ 0 then .done s
  else match engineLocs s ck k.dev k.ctx .fill mbox 8 with
    | .fault t => .done t
    | .miss t => .later t k
    | .ok ls t =>
      if ls.any isRemote then
        .done (issueAs t (engineKey ck) k.dev k.ctx { hart := 0, counter := 0, scope := scope, fabric :=
          [{ addr := ls.headD 0, n := 8, wr := true, data := v + 2 ^ 63, va := BitVec.ofNat 64 mbox, fill := true }] })
      else .done (fillAt (touchRun t (engineKey ck) scope (some (k.dev * 65536 + k.ctx)) false (sectorsAt mbox ls)) ls v (clusKey ck)
        scope)

/-- A kick ends with STATUS and checksum in its mailbox, which is looked up in the descriptor where that has not been taken
(R393, R403, R408). -/
def serveReport (s : State) (ck : Nat) (k : Kick) (r : Nat × Nat) : Served :=
  let k := { k with report := some r }
  if k.words.isEmpty then
    match engineLocs s ck k.dev k.ctx .load (k.desc.toNat + 32) 8 with
    | .fault t => .done t
    | .miss t => .later t k
    | .ok ls t =>
      let mb := engineRead t ck k.dev k.ctx 4 (k.desc.toNat + 32) ls
      (match engineLocs mb.2 ck k.dev k.ctx .load (k.desc.toNat + 28) 4 with
        | .fault u => fillMbox u ck k mb.1 4 r
        | .miss u => .later u k
        | .ok ls u => fillMbox u ck k mb.1 (kickScope (readLocs u ls)) r)
  else fillMbox s ck k (xferMbox k.words) (kickScope (xferCtl k.words)) r

/-- FAULT of a descriptor takes the address whose access faulted, and the kick ends with STATUS 2 (R391, R393). -/
def serveFault (s : State) (ck : Nat) (k : Kick) (va : Nat) : Served :=
  let k := { k with fault := some va }
  match engineLocs s ck k.dev k.ctx .store (k.desc.toNat + 40) 8 with
  | .fault t => serveReport t ck k (2, 0)
  | .miss t => .later t k
  | .ok ls t => serveReport (engineWrite t ck k.dev k.ctx (xferScope k.words) (k.desc.toNat + 40) ls va) ck k (2, 0)

/-- The elements of a transfer that are left are moved; its mailbox follows once every store of it has performed (R391 to
R394). -/
def serveMoves (s : State) (ck : Nat) (k : Kick) : Served :=
  match moveElems ck (xferRows k.words * xferCols k.words - k.elem) s k with
  | .miss t j => .later t j
  | .fault t j va => if engineBusy t ck then .later t { j with fault := some va } else serveFault t ck j va
  | .ok t j => if engineBusy t ck then .later t j else serveReport t ck j (0, if xferCrc j.words then crcOf j.out else 0)

/-- A kick goes on as far as it comes: its descriptor is read, its elements are moved, and its mailbox takes STATUS 1 for a
descriptor that breaks its layout or cannot be read, 2 after FAULT for an access that faults, else 0 with the checksum (R312,
R391 to R394). -/
def runTransfer (s : State) (ck : Nat) (k : Kick) : Served :=
  match k.report, k.fault with
  | some r, _ => serveReport s ck k r
  | none, some va => if engineBusy s ck then .later s k else serveFault s ck k va
  | none, none =>
    if k.words.isEmpty then
      match engineLocs s ck k.dev k.ctx .load k.desc.toNat 64 with
      | .miss t => .later t k
      | .fault t => serveReport t ck k (1, 0)
      | .ok ls t =>
        let r := engineRead t ck k.dev k.ctx 4 k.desc.toNat ls
        let j := { k with words := toWords r.1 8 }
        if xferOk k.desc j.words then serveMoves r.2 ck j else serveReport r.2 ck j (1, 0)
    else serveMoves s ck k

/-- Kicks that were refused or fenced have their mailboxes filled (R403, R408). -/
def serveRefused (s : State) (ck : Nat) : State :=
  (getCore s ck).refusedKicks.foldl (fun t k =>
    match serveReport t ck k (k.report.getD (1, 0)) with
    | .done u => reportCopy u k
    | .later u j => modCore u ck (fun c => { c with refusedKicks := c.refusedKicks ++ [j] }))
    (modCore s ck (fun c => { c with refusedKicks := [] }))

/-- The running transfer of an engine goes on, and once it has ended the next waiting kick runs (R392, R393). -/
def completeTransfer (s : State) (ck : Nat) : State :=
  let s := serveRefused s ck
  match (getCore s ck).kicks with
  | [] => s
  | k :: _ =>
    match runTransfer s ck k with
    | .done t => reportCopy (modCore t ck (fun c => { c with kicks := c.kicks.drop 1 })) k
    | .later t j => modCore t ck (fun c => { c with kicks := j :: c.kicks.drop 1 })

/-- An engine is fenced: the mailboxes of its current transfer and of every waiting kick get STATUS 3, and it takes no further
kicks (R408). -/
def fenceEngine (s : State) (ck : Nat) : State :=
  serveRefused (noteFence (modCore s ck (fun c => { c with
    kicks := [], engFenced := true, refusedKicks := c.refusedKicks ++ c.kicks.map (fun k => { k with report := some (3, 0) }) }))
    (devOf (dieOf ck))) ck

/-! ## Reprojection (R365, R366) -/

/-- WIDTH of a job. -/
def jobWidth (d : List DWord) : Nat := bits (d.getD 5 0) 15 0
/-- HEIGHT of a job. -/
def jobHeight (d : List DWord) : Nat := bits (d.getD 5 0) 31 16
/-- DTOL of a job. -/
def jobDtol (d : List DWord) : Nat := bits (d.getD 5 0) 47 32
/-- Queue of a job. -/
def jobQueue (d : List DWord) : Nat := bits (d.getD 5 0) 59 48

/-- A job keeps its layout, its queue exists for the context and its template is sound (R331, R353, R365). -/
def jobOk (s : State) (dev ctx : Nat) (at_ : DWord) (d tpl : List DWord) : Bool :=
  decide (at_.toNat % 64 = 0 ∧ 1 ≤ jobWidth d ∧ jobWidth d ≤ 32768 ∧ 1 ≤ jobHeight d ∧ jobHeight d ≤ 32768
    ∧ bits (d.getD 5 0) 63 60 = 0 ∧ (d.getD 7 0).toNat % 8 = 0)
    && templateOk false (d.getD 6 0) tpl && (queueFor s dev ctx (jobQueue d)).isSome

/-- floor(x + 0.5 + d) for an FP16 motion; none where it is not finite (R366). -/
def moved (x dx : Nat) : Option Int :=
  match decodeF f16 dx with
  | .fin neg m e =>
    let z : Int := (m * 2 ^ (e + 24).toNat : Nat)
    some (((2 * (x : Int) + 1) * 2 ^ 23 + (if neg then -z else z)) / 2 ^ 24)
  | _ => none

/-- What a pixel of a job needs: nothing, its colour, or a place in the mask; none where an access faults (R366). -/
inductive Pixel where
  | empty
  | reuse (colour : Nat)
  | shade

/-- A pixel is looked at (R366). -/
def lookPixel (s : State) (dev ctx : Nat) (d : List DWord) (x y : Nat) : Option Pixel := do
  let w := jobWidth d
  let h := jobHeight d
  let base (k : Nat) : Nat := (d.getD k 0).toNat
  let v ← ctxRead s dev ctx (base 0 + 8 * (y * w + x)) 8
  if v = 0 then some .empty
  else
    let m ← ctxRead s dev ctx (base 2 + 4 * (y * w + x)) 4
    match moved x (m % 65536), moved y (m / 65536) with
    | some px, some py =>
      if 0 ≤ px ∧ px < w ∧ 0 ≤ py ∧ py < h then
        let at_ := py.toNat * w + px.toNat
        let pv ← ctxRead s dev ctx (base 1 + 8 * at_) 8
        let near := decide (pv / 2 ^ 32 ≤ v / 2 ^ 32 + jobDtol d ∧ v / 2 ^ 32 ≤ pv / 2 ^ 32 + jobDtol d)
        if pv % 2 ^ 32 = v % 2 ^ 32 ∧ near = true then
          let c ← ctxRead s dev ctx (base 3 + 4 * at_) 4
          some (.reuse c)
        else some .shade
      else some .shade
    | _, _ => some .shade

/-- What a pixel's look at reads passes through the slices: its own entries, and what its motion names (R318, R366). -/
def touchPixel (s : State) (dev ctx : Nat) (d : List DWord) (x y : Nat) : State :=
  let w := jobWidth d
  let base (k : Nat) : Nat := (d.getD k 0).toNat
  let t := touchRead s dev ctx (base 0 + 8 * (y * w + x)) 8
  if ctxRead s dev ctx (base 0 + 8 * (y * w + x)) 8 = some 0 then t
  else
    let u := touchRead t dev ctx (base 2 + 4 * (y * w + x)) 4
    let m := (ctxRead s dev ctx (base 2 + 4 * (y * w + x)) 4).getD 0
    match moved x (m % 65536), moved y (m / 65536) with
    | some px, some py =>
      if 0 ≤ px ∧ px < w ∧ 0 ≤ py ∧ py < jobHeight d then
        let v := touchRead u dev ctx (base 1 + 8 * (py.toNat * w + px.toNat)) 8
        (match lookPixel s dev ctx d x y with
        | some (.reuse _) => touchRead v dev ctx (base 3 + 4 * (py.toNat * w + px.toNat)) 4
        | _ => v)
      else u
    | _, _ => u

/-- The pixels of a tile from number i on: the state, the pixels reused and the mask; none where an access faults. -/
def tilePixels (dev ctx : Nat) (d : List DWord) (tx ty : Nat) : List Nat → State × Nat × Nat → (State × Nat × Nat) ⊕ State
  | [], r => .inl r
  | i :: is, (s, reused, mask) =>
    let x := 8 * tx + i % 8
    let y := 8 * ty + i / 8
    if x ≥ jobWidth d ∨ y ≥ jobHeight d then tilePixels dev ctx d tx ty is (s, reused, mask)
    else match lookPixel s dev ctx d x y with
      | none => .inr s
      | some p => match (touchPixel s dev ctx d x y, p) with
      | (s, .empty) => tilePixels dev ctx d tx ty is (s, reused, mask)
      | (s, .shade) => tilePixels dev ctx d tx ty is (s, reused, mask + 2 ^ i)
      | (s, .reuse c) =>
        match ctxWrite s dev ctx ((d.getD 4 0).toNat + 4 * (y * jobWidth d + x)) 4 c with
        | some t => tilePixels dev ctx d tx ty is (t, reused + 1, mask)
        | none => .inr s

/-- A copy of the template for a tile, as a record (R366). -/
def jobRecord (tpl : List DWord) (tx ty mask : Nat) : List DWord :=
  (tpl.set 11 (BitVec.ofNat 64 mask)).set 13 (BitVec.ofNat 64 (tx + ty * 2 ^ 16))

/-- A copy of a die's unit is queued; none where it has to wait for room or for the producers that wait before it, whatever the
queue's BP holds (R334, R365, R366). -/
def queueCopy (s : State) (dev dk ctx launch q : Nat) (ws : List DWord) : Option State :=
  let qk := dev * 4096 + q
  match queueFor s dev ctx q, SMap.find s.queues qk with
  | some _, some x =>
    let e := newEntry s ws 0 launch (bits (recW ws 3) 31 0) ctx
    if x.admits (.unit dk) then some (enqueue (leavePlace e.2 qk (.unit dk)) qk e.1) else none
  | _, _ => some s

/-- What a unit's tiles come to: the state, the pixels reused, the tasks queued and where the unit stands; the state alone
where an access faults. -/
abbrev UnitRun := (State × Nat × Nat × RepUnit) ⊕ State

/-- The tiles of a unit, up to a copy that a full queue does not take (R366). -/
def unitTiles (dev dk : Nat) (j : RepJob) (d tpl : List DWord) : List (Nat × Nat) → State × Nat × Nat → UnitRun
  | [], (s, reused, tasks) => .inl (s, reused, tasks, { die := dk })
  | (tx, ty) :: ts, (s, reused, tasks) =>
    match tilePixels dev j.ctx d tx ty (List.range 64) (s, reused, 0) with
    | .inr t => .inr t
    | .inl (t, n, mask) =>
      if mask = 0 then unitTiles dev dk j d tpl ts (t, n, tasks)
      else
        let ws := jobRecord tpl tx ty mask
        match queueCopy t dev dk j.ctx j.launch (jobQueue d) ws with
        | some u => unitTiles dev dk j d tpl ts (u, n, tasks + 1)
        | none => .inl (holdPlace t (dev * 4096 + jobQueue d) (.unit dk), n, tasks, { die := dk, tiles := ts, copy := some ws })

/-- A unit goes on, with the copy that waits first (R366). -/
def runUnit (dev : Nat) (j : RepJob) (d tpl : List DWord) (u : RepUnit) (r : State × Nat × Nat) : UnitRun :=
  match u.copy with
  | none => unitTiles dev u.die j d tpl u.tiles r
  | some ws => match queueCopy r.1 dev u.die j.ctx j.launch (jobQueue d) ws with
    | some t => unitTiles dev u.die j d tpl u.tiles (t, r.2.1, r.2.2 + 1)
    | none => .inl (holdPlace r.1 (dev * 4096 + jobQueue d) (.unit u.die), r.2.1, r.2.2, u)

/-- The units of a job go on, that of die 0 first: the state, the pixels reused, the tasks queued and the units that have
not finished; the state alone where an access faults (R366; log 9). -/
def runUnits (dev : Nat) (j : RepJob) (d tpl : List DWord) :
    List RepUnit → State × Nat × Nat → (State × Nat × Nat × List RepUnit) ⊕ State
  | [], (s, reused, tasks) => .inl (s, reused, tasks, [])
  | u :: us, r =>
    match runUnit dev j d tpl u r with
    | .inr t => .inr t
    | .inl (t, n, m, v) =>
      match runUnits dev j d tpl us (t, n, m) with
      | .inr w => .inr w
      | .inl (w, n, m, vs) => .inl (w, n, m, if v.tiles.isEmpty && v.copy.isNone then vs else v :: vs)

/-- The tiles of each die of a device's target (R348, R366). -/
def jobUnits (dev : Nat) (d : List DWord) : List RepUnit :=
  let across := (jobWidth d + 7) / 8
  let down := (jobHeight d + 7) / 8
  (List.range 8).map (fun die => { die := dev * 8 + die, tiles :=
    ((List.range (across * down)).filter (fun t => tileDie across t == die)).map (fun t => (t % across, t / across)) })

/-- A job leaves the units, which wait at no queue for it: its DONE is filled, and it holds its launch no longer (R365, R366). -/
def endJob (s : State) (dev : Nat) (j : RepJob) (done word : Nat) : State :=
  let t := (ctxFill (giveUpPlaces s (fun x => match x with | .unit dk => decide (devOf dk = dev) | _ => false))
    (dev * 8) j.ctx done word 4).getD s
  launchSub { t with jobs := SMap.set [] t.jobs dev ((SMap.get [] t.jobs dev).drop 1) } j.launch 1

/-- A failed job's DONE word: [62] = 1, the rest not given (R366; log 10). -/
def failWord (s : State) : Nat := 2 ^ 62 + Config.openWord s.nextId % 2 ^ 62

/-- The first job of a device goes on: its units go through their tiles, each stalled by a full queue, and when every one has
finished the unit of die 0 fills DONE (R365, R366). -/
def runJob (s : State) (dev : Nat) : State :=
  match SMap.get [] s.jobs dev with
  | [] => s
  | j :: js =>
    let fail (t : State) (done : Nat) : State := endJob (fresh t).2 dev j done (failWord t)
    match ctxWords s dev j.ctx j.addr.toNat 8 with
    | none => fail s ((ctxRead s dev j.ctx (j.addr.toNat + 56) 8).getD (2 ^ 56))
    | some d =>
      let done := (d.getD 7 0).toNat
      if j.ran.isSome && j.units.isEmpty then
        let r := j.ran.getD (0, 0)
        endJob s dev j done (r.1 % 2 ^ 30 * 2 ^ 32 + r.2 % 2 ^ 32)
      else match ctxWords s dev j.ctx (d.getD 6 0).toNat 16 with
        | none => fail s done
        | some tpl =>
          if j.ran.isNone && !jobOk s dev j.ctx j.addr d tpl then fail s done
          else
            let r := j.ran.getD (0, 0)
            match runUnits dev j d tpl (if j.ran.isNone then jobUnits dev d else j.units) (s, r.1, r.2) with
            | .inr t => fail t done
            | .inl (t, reused, tasks, us) =>
              let u := { t with jobs := SMap.set [] t.jobs dev ({ j with ran := some (reused, tasks), units := us } :: js) }
              if us.isEmpty then postOnce u (.reprojectionDone dev) else u

/-- The first job of a device ends with STATUS 3 in its DONE word (R365, R408). -/
def fenceJob (s : State) (dev : Nat) : State :=
  match SMap.get [] s.jobs dev with
  | [] => s
  | j :: _ => endJob s dev j ((ctxRead s dev j.ctx (j.addr.toNat + 56) 8).getD (2 ^ 56)) (3 * 2 ^ 61)

/-- A die's reprojection unit is fenced: the device's jobs end, and no further one is taken (R405, R408; log 11). -/
def fenceReprojection (s : State) (dk : Nat) : State :=
  let dev := devOf dk
  (List.range (SMap.get [] s.jobs dev).length).foldl (fun t _ => fenceJob t dev)
    (noteFence (modDie s dk (fun d => { d with repFenced := true })) dev)

/-! ## Stores to engine registers as steps (R365, R372, R392) -/

/-- A store of the hart in hand to an engine's kick register: refused where the engine is fenced, and not performed while
five transfers stand there (R392, R408). -/
def kickFrom (s : State) (ck : Nat) (v : DWord) : State :=
  let h := getHart s s.cur
  if (getCore s ck).engFenced then queueAsync s s.cur ⟨cREMOTENACK, nackInfo .store 0, 0⟩
  else (kickEngine s ck (devOfHart s.cur) h.ctxid.toNat v none).getD s

/-- A store of the hart in hand to the reprojection kick register: refused for a hart without a task (R365). -/
def repkickFrom (s : State) (v : DWord) : State :=
  let h := getHart s s.cur
  match h.task with
  | none => queueAsync s s.cur ⟨cREMOTENACK, nackInfo .store 0, 0⟩
  | some t =>
    if repOut s (devOfHart s.cur) then queueAsync s s.cur ⟨cREMOTENACK, nackInfo .store 0, 0⟩
    else (kickReproject s (devOfHart s.cur) h.ctxid.toNat t.launch v).getD s

/-- A firmware write of a firmware-column tile's FWCTL (R372). -/
def fwctlFrom (s : State) (ck : Nat) (v : DWord) : State :=
  if isFwCol s ck then modCore s ck (fun c => { c with fwctl := writeFwctl c.fwctl v }) else s

/-! ## The steps -/

/-- TRANSLATION_REQUEST, R312. -/
def execTranslationRequest (hk : Nat) (va : BitVec 64) (k : Nat) (s : State) : Host.Outcome State Fault Refusal :=
  .next (if validHart hk then requestTranslation s hk (getHart s hk).ctxid.toNat va k else s)
/-- FILLC, R313. -/
def execFillc (cl : Nat) (v : BitVec 64) (s : State) : Host.Outcome State Fault Refusal := .next (completeFill s cl v)
/-- TWEKICK, R392. -/
def execTwekick (ck : Nat) (v : BitVec 64) (s : State) : Host.Outcome State Fault Refusal := .next (kickFrom s ck v)
/-- TRANSFER_COMPLETE, R393. -/
def execTransferComplete (ck : Nat) (s : State) : Host.Outcome State Fault Refusal := .next (completeTransfer s ck)
/-- ENGINE_FENCE, R408. -/
def execEngineFence (ck : Nat) (s : State) : Host.Outcome State Fault Refusal := .next (fenceEngine s ck)
/-- REPKICK, R365. -/
def execRepkick (v : BitVec 64) (s : State) : Host.Outcome State Fault Refusal := .next (repkickFrom s v)
/-- REPROJECTION_DONE, R366. -/
def execReprojectionDone (dev : Nat) (s : State) : Host.Outcome State Fault Refusal := .next (runJob s dev)
/-- FWCTL_WRITE, R372. -/
def execFwctlWrite (ck : Nat) (v : BitVec 64) (s : State) : Host.Outcome State Fault Refusal := .next (fwctlFrom s ck v)

end Sys2Proof.Machine
end

