-- ==== Sys2Proof/Machine/Firmware.lean ====
section
/-! DEFINITION. Firmware (R9, R276, R282 to R284, R369 to R373, R385, R386, R410 to R412): the configuration table and boot,
resets, start and wake messages, pre-emption and return, mailboxes between dies, and updates. What firmware does is what
the rules say of it; its own code is not run for it (log 14). -/
namespace Sys2Proof.Machine

open Sys2Proof

/-! ## The configuration table (R369, R370) -/

/-- A little-endian field of a table. -/
def tblField (t : List Byte) (o n : Nat) : Nat := valueOf ((t.drop o).take n)

/-- Bytes of a table that the layout marks 0. -/
def tblZero (t : List Byte) (o n : Nat) : Bool := ((t.drop o).take n).all (fun b => decide (b = 0))

/-- Role nibble n of a role map (R370). -/
def roleNibble (r n : Nat) : Nat := r / 16 ^ n % 16

/-- A role map keeps R370 for a number of columns. -/
def rolesOk (ncol die r : Nat) : Bool :=
  let ns := (List.range 16).map (roleNibble r)
  ns.all (fun c => decide (c ≤ 4)) && ns.contains 1 && ns.contains 2 && ns.contains 3
    && (decide (die ≠ 0) || ns.contains 4) && (decide (ncol = 2) || decide (r < 2 ^ 32))

/-- A die's block lies within its ranges (R369). -/
def blockOk (ncol die : Nat) (b : List Byte) : Bool :=
  let f := tblField b
  decide (f 0 1 ≤ 11 ∧ f 2 1 ≤ 16 ∧ f 3 1 ≤ 64 ∧ f 4 1 ≤ 1 ∧ f 5 3 = 0 ∧ f 0x10 8 < 2 ^ 38 ∧ f 0x10 8 % 2 ^ 24 = 0
      ∧ f 0x18 8 < 2 ^ 36)
    && (if ncol = 2 then decide (f 1 1 ≤ 11 ∧ f 1 1 ≠ f 0 1) else decide (f 1 1 = 255)) && rolesOk ncol die (f 8 8)

/-- A die's configuration from its block. -/
def cfgOf (b : List Byte) : DieCfg :=
  let f := tblField b
  { fwx0 := f 0 1, fwx1 := f 1 1, caddyMB := f 2 1, caddyB := f 0x10 8, revMB := f 3 1, cmp := decide (f 4 1 = 1),
    roles := f 8 8, fwr := BitVec.ofNat 64 (f 0x18 8) }

/-- Block of a die in a table. -/
def dieBlock (t : List Byte) (d : Nat) : List Byte := (t.drop (0x80 + 32 * d)).take 32

/-- PUBKEY of a table. -/
def tblKey (t : List Byte) : List Byte := (t.drop 0x10).take 64
/-- IMGHASH of a table. -/
def tblHash (t : List Byte) : List Byte := (t.drop 0x180).take 32

/-- Boot ROM accepts a table: its key, its signature, and every field (R369). -/
def tableOk (t : List Byte) : Bool :=
  let ncol := tblField t 8 1
  decide (t.length = 512) && decide (sha256 (tblKey t) = Config.rootKeyHash)
    && ecdsaOk (tblKey t) (t.drop 0x1C0) (t.take 0x1C0)
    && decide (tblField t 0 4 = 1 ∧ tblField t 4 4 = 0x200 ∧ (ncol = 1 ∨ ncol = 2))
    && tblZero t 9 7 && tblZero t 0x50 48 && tblZero t 0x1A0 32
    && (List.range 8).all (fun d => blockOk ncol d (dieBlock t d))

/-- An image set is the one a table admits, with good signatures of its images (R386, R410). -/
def imageOk (t img : List Byte) : Bool := decide (sha256 img = tblHash t) && Config.imagesSigned img (tblKey t)

/-- The newer of the sets in flash that pass their checks (R410). -/
def bestSet : List FlashSet → Option FlashSet
  | [] => none
  | f :: fs =>
    let r := bestSet fs
    if tableOk f.table && imageOk f.table f.image then
      match r with
      | some g => if g.age > f.age then some g else some f
      | none => some f
    else r

/-- Role of a firmware-column core; 0 elsewhere (R370). -/
def roleOf (s : State) (ck : Nat) : Nat :=
  let c := dieCfg s (dieOf ck)
  let u := unitOf ck
  if isFwCol s ck = false then 0
  else if tileX u = c.fwx0 then roleNibble c.roles (tileY u) else roleNibble c.roles (8 + tileY u)

/-! ## Mailboxes between dies (R385) -/

/-- The version two ranges agree on, if any (R385). -/
def agreeOn (lo1 hi1 lo2 hi2 : Nat) : Option Nat := if max lo1 lo2 ≤ min hi1 hi2 then some (min hi1 hi2) else none

/-- Both sides of a pair use the version agreed. -/
def setAgreed (s : State) (a b : Nat) (v : Option Nat) : State :=
  modDie (modDie s a (fun d => { d with agreed := SMap.put d.agreed (dieNo b) v })) b
    (fun d => { d with agreed := SMap.put d.agreed (dieNo a) v })

/-- The version a die uses with another. -/
def versionWith (s : State) (a b : Nat) : Option Nat := (SMap.find (getDie s a).agreed (dieNo b)).getD none

/-- Messages that a mailbox of a die holds, oldest first. -/
def boxOf (d : Die) (src : Nat) : List Nat := (d.mail.filter (fun p => p.1 == src)).map Prod.snd

/-- Waiting senders' messages enter mailboxes that have room, in the order in which they wait (R385). -/
def admitMail (d : Die) : Die :=
  d.mailWait.foldl (fun x m =>
    if (boxOf x m.1).length < 16 then { x with mail := x.mail ++ [m] } else { x with mailWait := x.mailWait ++ [m] })
    { d with mailWait := [] }

/-- A die whose firmware runs handles the messages from dies it has agreed with, and those that then enter; the fuel bounds the
rounds. -/
def drainRounds (dk : Nat) : Nat → State → State
  | 0, s => s
  | n + 1, s =>
    let d := getDie s dk
    let agreed (p : Nat × Nat) : Bool := ((SMap.find d.agreed p.1).getD none).isSome
    let got := d.mail.filter agreed
    if d.fwUp = false ∨ got = [] then s
    else drainRounds dk n (setDie s dk (admitMail { d with
      handled := got.reverse ++ d.handled, mail := d.mail.filter (fun p => !agreed p) }))

/-- A die whose firmware runs handles the messages of its mailboxes from dies it has agreed with in their order of arrival, and
then those whose senders waited (R385). -/
def drainMail (s : State) (dk : Nat) : State := drainRounds dk ((getDie s dk).mailWait.length + 1) s

/-- HELLO from a starting die: the pair agrees on a version, or has none in common, and then the die that started last of the two
takes no queues (R385). -/
def greet (s : State) (src dst lo hi : Nat) : State :=
  let v := agreeOn lo hi (getDie s dst).fwMin (getDie s dst).fwMax
  let without (n : Nat) (l : List Nat) : List Nat := l.filter (fun x => x != n)
  modDie (modDie (setAgreed s src dst v) dst (fun d => { d with noQueues := without (dieNo src) d.noQueues })) src (fun d =>
    { d with fwMin := lo, fwMax := hi,
             noQueues := without (dieNo dst) d.noQueues ++ (if v.isNone then [dieNo dst] else []) })

/-- HELLO from a starting die to another of its device; with a version agreed the two handle what waits for them (R385). -/
def helloFrom (s : State) (src dst lo hi : Nat) : State :=
  if src = dst ∨ devOf src ≠ devOf dst then s
  else
    let t := greet s src dst lo hi
    if (versionWith t src dst).isSome then drainMail (drainMail t dst) src else t

/-- A firmware message is sent: it enters the receiver's mailbox, or its sender waits; without a common version none is
exchanged (R385). -/
def sendMail (s : State) (src dst m : Nat) : State :=
  if src = dst ∨ devOf src ≠ devOf dst ∨ (getDie s src).fwUp = false ∨ (versionWith s src dst).isNone = true then s
  else drainMail (modDie s dst (fun d => admitMail { d with mailWait := d.mailWait ++ [(dieNo src, m)] })) dst

/-! ## Start messages (R9, R371) -/

/-- A start message starts a halted hart of a firmware-column core with a role, or of a translation service core, in
firmware mode with IE = 0; or an engine hart, in user mode, in the context of the kick that its engine serves, its state zeroed
if it was another's (R9, R23, R371; for the engine hart DESIGN CHOICE, log 80). A module without power or images starts none
(R410). -/
def startHart (s : State) (hk : Nat) (v : DWord) : State :=
  let ck := coreOf hk
  if (getDev s (devOfHart hk)).down then s
  else if isEngine hk then
    (if validHart hk && decide ((getHart s hk).st = .idle) && !(getCore s ck).engFenced then
      modHart s hk (fun h =>
        let ctx := match (getCore s ck).kicks with | k :: _ => k.ctx | [] => h.ctxid.toNat
        { h.passTo ctx with
          pc := BitVec.ofNat 64 (v.toNat / 16 * 16), st := .running, started := true, hstat := 0, ctxid := BitVec.ofNat 16 ctx })
    else s)
  else if validHart hk && (isTsc (unitOf ck) || decide (roleOf s ck ≠ 0)) && decide ((getHart s hk).st = .idle) then
    modHart s hk (fun h => { h with pc := BitVec.ofNat 64 (v.toNat / 16 * 16), st := .running, started := true, hstat := 3 })
  else s

/-! ## Boot (R9, R371, R372, R397, R410) -/

/-- A die's protected region from FWR: FWLO and FWHI, of 38 bits each (R369, R372). -/
def fwRange (c : DieCfg) : DWord × DWord :=
  let base := bits c.fwr 17 0 * 2 ^ 20
  let size := bits c.fwr 35 18 * 2 ^ 20
  (BitVec.ofNat 64 base, BitVec.ofNat 64 ((if size = 0 then 0 else base + size - 1) % 2 ^ 38))

/-- Bytes are loaded into memory from an address. -/
def loadBytes (s : State) (at_ : Nat) (bs : List Byte) : State :=
  (bs.zipIdx).foldl (fun t p => writeByte t (at_ + p.2) p.1) s

/-- A core of a firmware column with a role starts its harts, in firmware mode with IE = 0 (R371, R410). -/
def startColumn (s : State) (dk : Nat) (img : List Byte) : State :=
  ((tilesOfDie dk).filter (fun ck => decide (roleOf s ck ≠ 0))).foldl (fun t ck =>
    (hartsOf ck).foldl (fun u hk => modHart u hk (fun h => { h with
      pc := BitVec.ofNat 64 (Config.fwEntry img (dieNo dk) (unitOf ck) (hartNo hk) / 16 * 16), st := .running,
      started := true, hstat := 3 })) t) s

/-- The images of a die are loaded into its firmware region (R369, R410; log 10). -/
def loadImage (s : State) (dk : Nat) (img : List Byte) : State :=
  let c := dieCfg s dk
  loadBytes s (devOf dk % 8 * 2 ^ 38 + (fwRange c).1.toNat) (img.take (bits c.fwr 35 18 * 2 ^ 20))

/-- The firmware column of a die restarts on an image (R386). -/
def restartColumn (s : State) (dk : Nat) (img : List Byte) : State :=
  let cold := ((tilesOfDie dk).filter (isFwCol s)).flatMap hartsOf
  startColumn (loadImage { s with harts := s.harts.filter (fun p => !cold.contains p.1) } dk img) dk img

/-- Translation service cores of a die. -/
def tscsOfDie (dk : Nat) : List Nat := (List.range 12).map (fun c => dk * 128 + 96 + c)

/-- Boot firmware starts both harts of each translation service core of a die by a start message, at the entry convoy that the
image gives (R9). -/
def startServiceCores (s : State) (dk : Nat) (img : List Byte) : State :=
  (tscsOfDie dk).foldl (fun t ck => (List.range 2).foldl (fun u n =>
    startHart u (ck * 8 + n) (BitVec.ofNat 64 (Config.fwEntry img (dieNo dk) (unitOf ck) n))) t) s

/-- Every port of a device begins to train (R390, R410). -/
def beginTraining (s : State) (dev : Nat) : State :=
  modDev s dev (fun d => { d with
    rlstat := (List.range 7).foldl (fun m p => SMap.set 0 m p (withBits (SMap.get 0 m p) 1 0 1)) d.rlstat,
    ethstat := (List.range 16).foldl (fun m p => SMap.set 0 m p (withBits (SMap.get 0 m p) 1 0 1)) d.ethstat })

/-- The entries that firmware writes into a device's aperture table (R399; log 10). -/
def firmwareAperture (dev : Nat) : SMap (Nat × Nat × Nat) :=
  (List.range 64).filterMap (fun e => (Config.aperture dev e).map (fun x => (e, x)))

/-- A die boots from a set: the image goes to its firmware region, its firewall is set and locked, its firmware column
starts, and its service cores (R9, R371, R410, steps 3, 4 and 6). -/
def bootDie (s : State) (dk : Nat) (img : List Byte) : State :=
  let r := fwRange (dieCfg s dk)
  let v := Config.imageRange img (dieNo dk)
  let s2 := modDie (loadImage s dk img) dk (fun d => { d with fwlo := r.1, fwhi := r.2, fwMin := v.1, fwMax := v.2, fwUp := true })
  startServiceCores (startColumn (((tilesOfDie dk).filter (isFwCol s2)).foldl (fun t ck =>
    modCore t ck (fun x => { x with fwctl := 0xC000000000000000 })) s2) dk img) dk img

/-- A die's firmware exchanges HELLO with every other die of its device whose firmware runs, and then the messages that waited
are handled (R385, R410). -/
def helloAll (s : State) (dk : Nat) : State :=
  let d := getDie s dk
  let met := (diesOfDev (devOf dk)).filter (fun o => o != dk && (getDie s o).fwUp)
  (met ++ [dk]).foldl drainMail (met.foldl (fun t o => greet t dk o d.fwMin d.fwMax) s)

/-- The master's timebase, to which a die that joins steps forward (R397). -/
def joinTime (s : State) (dk : Nat) : State :=
  if routed s (devOf dk) 0 then modDie s dk (fun d => { d with tb := if d.tb.toNat < (getDie s 0).tb.toNat then (getDie s 0).tb else d.tb })
  else s

/-- The host's admin queue, as boot creates it (R375, R410; log 10). -/
def queue0 (dev : Nat) : Sq :=
  let q := Config.queue0 dev
  { desc := [BitVec.ofNat 64 (q.1 / 4096 * 4096), BitVec.ofNat 64 (4 + q.2.1 % 13 + 2 ^ 8), 0, BitVec.ofNat 64 q.2.2], ctx := 0 }

/-- Everything a device holds but memory, flash and its lifetime record is as reset leaves it (R410). -/
def clearDevice (s : State) (dev : Nat) : State :=
  let d := getDev s dev
  { s with
    harts := s.harts.filter (fun p => devOfHart p.1 != dev),
    cores := s.cores.filter (fun p => devOf (dieOf p.1) != dev),
    clusters := s.clusters.filter (fun p => devOf (p.1 / 16) != dev),
    dies := s.dies.filter (fun p => devOf p.1 != dev),
    devs := SMap.put s.devs dev { flash := d.flash, life := d.lifeFlash, lifeFlash := d.lifeFlash },
    ctxs := s.ctxs.filter (fun p => p.1 / 65536 != dev), queues := s.queues.filter (fun p => p.1 / 4096 != dev),
    launches := s.launches.filter (fun p => p.2.dev != dev), domains := s.domains.filter (fun p => p.1 / 65536 != dev),
    commits := s.commits.filter (fun p => p.2.dev != dev), draws := s.draws.filter (fun p => p.1 / 65536 != dev),
    closedDraws := s.closedDraws.filter (fun p => p.1 / 2 ^ 32 != dev),
    sqs := s.sqs.filter (fun p => p.1 / 4096 != dev), walks := s.walks.filter (fun p => p.2.dev != dev),
    admins := s.admins.filter (fun p => p.2.dev != dev), jobs := s.jobs.filter (fun p => p.1 != dev),
    tokens := s.tokens.filter (fun p => p.2.dev != dev), ops := s.ops.filter (fun p => devOfHart p.2.hart % 8 != dev),
    revs := s.revs.filter (fun p => devOf p.2.die != dev),
    flights := s.flights.filter (fun p => devOfHart p.2.src != dev && devOfHart p.2.dst != dev),
    forward := s.forward.filter (fun p => homeDev (p.1 * 512) != dev),
    sharers := s.sharers.filter (fun p => homeDev (p.1 * 512) != dev),
    l2 := s.l2.filter (fun p => devOf (dieOfSet p.1) != dev), skews := s.skews.filter (fun p => homeDev (p.1 * 2 ^ 22) != dev) }

/-- A counter of a device's lifetime record of so many bits rises by 1, holding at its maximum (R409). -/
def countLife (s : State) (dev ofs lo w : Nat) : State :=
  modDev s dev (fun d =>
    let v := SMap.get 0 d.life ofs
    let f := v / 2 ^ lo % 2 ^ w
    if f + 1 < 2 ^ w then { d with life := SMap.set 0 d.life ofs (v + 2 ^ lo) } else d)

/-- The module is reset and boots from the newer set that passes; with none it presents its configuration space only
(R410). -/
def resetModule (s : State) (dev : Nat) : State :=
  if dev ≥ 8 then s
  else
    let s1 := countLife (recountSharers (clearDevice s dev) (fun _ => false)) dev 0x10 0 16
    match bestSet (getDev s1 dev).flash with
    | none => modDev s1 dev (fun d => { d with dead := true })
    | some f =>
      let cfg := (List.range 8).map (fun d => (d, cfgOf (dieBlock f.table d)))
      let s2 := modDev s1 dev (fun d => { d with
        table := f.table, cfg := cfg, image := f.image, aperture := firmwareAperture dev })
      let s4 := (diesOfDev dev).foldl (fun t dk => helloAll (bootDie t dk f.image) dk) s2
      let s5 := (diesOfDev dev).foldl joinTime (beginTraining s4 dev)
      let s6 := modDev s5 dev (fun d => { d with booted := true })
      { s6 with sqs := SMap.put s6.sqs (dev * 4096) (queue0 dev) }

/-- Contexts with a running task, a task or submission queue, a ticket domain, a draw or a revision on a die (R412). -/
def contextsOn (s : State) (dk : Nat) : List Nat :=
  let dev := devOf dk
  let die := dieNo dk
  ((s.harts.filter (fun p => dieOf (coreOf p.1) == dk && p.2.task.isSome)).map (fun p => p.2.ctxid.toNat)
    ++ (s.queues.filter (fun p => p.1 / 4096 == dev && (p.2.kind == 1 || p.2.home == die))).map (fun p => p.2.ctx)
    ++ (s.sqs.filter (fun p => p.1 / 4096 == dev && sqDie dev p.2 == dk)).map (fun p => p.2.ctx)
    ++ (s.domains.filter (fun p => p.1 / 65536 == dev && p.2.v && p.1 % 8 == die)).map (fun p => p.2.ctx)
    ++ (s.draws.filter (fun p => p.1 / 65536 == dev
        && (p.2.bins.any (fun b => tileDie (max 1 p.2.across) b.tile == die)
          || (getDie s dk).cls.any (fun t => t.draw == p.1)))).map (fun p => p.2.ctx)
    ++ (s.revs.filter (fun p => p.2.die == dk)).map (fun p => p.2.ctx)).eraseDups

/-- The first hart of a context that is not idle on a die, if there is one (R404). -/
def firstHartOn (s : State) (dk ctx : Nat) : Nat :=
  match s.harts.find? (fun p => dieOf (coreOf p.1) == dk && p.2.ctxid.toNat == ctx && p.2.st != .idle) with
  | some p => p.1
  | none => noHart

/-- Tasks that run on a die end as cancelled, without waiting for a convoy boundary (R403, R412). -/
def quitDie (s : State) (dk : Nat) : State :=
  ((s.harts.filter (fun p => dieOf (coreOf p.1) == dk && p.2.task.isSome)).map Prod.fst).foldl (fun t hk => endHart t hk .fenced) s

/-- A die's units are as reset leaves them, but for its fenced engines, which only the reset of the module frees (R402), and the
mailboxes, where messages wait for its firmware (R385). -/
def clearDie (s : State) (dk : Nat) : State :=
  let d := getDie s dk
  recountSharers { s with
    harts := s.harts.filter (fun p => dieOf (coreOf p.1) != dk),
    cores := s.cores.filterMap (fun p =>
      if dieOf p.1 = dk then (if p.2.engFenced then some (p.1, { engFenced := true }) else none) else some p),
    clusters := s.clusters.filter (fun p => p.1 / 16 != dk),
    dies := SMap.put s.dies dk { repFenced := d.repFenced, mail := d.mail, mailWait := d.mailWait },
    ops := s.ops.filter (fun p => dieOf (coreOf p.2.hart) != dk || !validHart p.2.hart),
    flights := s.flights.filter (fun p => dieOf (coreOf p.2.src) != dk && dieOf (coreOf p.2.dst) != dk),
    l2 := s.l2.filter (fun p => dieOfSet p.1 != dk) }
    (fun line => sliceDie s (homeDev (512 * line)) (512 * line) == dk)

/-- A die is reset alone: the contexts on it are fenced with REASON 10, the tasks that run there end, and it boots from the images
already verified (R412). -/
def resetDie (s : State) (dk : Nat) : State :=
  if dk ≥ 64 then s
  else
    let dev := devOf dk
    let s1 := (contextsOn s dk).foldl (fun t c => fenceContext t dev c 10 (firstHartOn s dk c) 0) s
    let s2 := countLife (clearDie (quitDie s1 dk) dk) dev 0x10 16 16
    if (getDev s2 dev).booted then
      joinTime (helloAll (bootDie s2 dk (getDev s2 dev).image) dk) dk
    else s2

/-! ## Wake messages (R276, R371) -/

/-- A wake message ends a hart's `wfi` (R276, R371). -/
def wakeHart (s : State) (hk : Nat) : State :=
  if validHart hk && decide ((getHart s hk).wait = .wfi) then
    modHart s hk (fun h => { h.wake with grant := some 0 })
  else s

/-! ## Pre-emption (R282 to R284) -/

/-- A pre-emption of a core has harts that have neither packed nor ended. -/
def leavingOn (s : State) (ck : Nat) : List Nat :=
  match (getCore s ck).preempt with | some p => p.harts | none => []

/-- A pre-emption message: every running or parked hart of the core takes PRE-EMPT with phase 0; one in progress goes on
(R282). -/
def preemptCore (s : State) (ck deadline : Nat) : State :=
  if isCompute s ck = false ∨ leavingOn s ck ≠ [] then s
  else
    let hks := (hartsOf ck).filter (fun hk =>
      let st := (getHart s hk).st
      decide (st = .running) || decide (st = .parked) || decide (st = .follower))
    let ctxs := (hks.map (fun hk => (getHart s hk).ctxid.toNat)).eraseDups
    let s1 := modCore s ck (fun c => { c with preempt := some { deadline := deadline, harts := hks, ctxs := ctxs } })
    hks.foldl (fun t hk => queueAsync t hk ⟨cPREEMPT, 0, 0⟩) s1

/-- At the deadline the contexts of harts that have neither packed nor ended are fenced, REASON 4 (R282, R404). -/
def missDeadline (s : State) (ck : Nat) : State :=
  match (getCore s ck).preempt with
  | none => s
  | some p =>
    if (getDie s (dieOf ck)).tb.toNat < p.deadline then s
    else
      let t := p.harts.foldl (fun u hk => fenceContext u (devOfHart hk) (getHart u hk).ctxid.toNat 4 hk cPREEMPT) s
      modCore t ck (fun c => { c with preempt := c.preempt.map (fun q => { q with harts := [] }) })

/-- The spilled messages of a returning hart: up to eight of each queue enter its receive queues (R284). -/
def unspill (m : SMap (List Msg)) : SMap (List Msg) × SMap (List Msg) :=
  (List.range 4).foldl (fun r q =>
    let ms := SMap.get [] m q
    (SMap.set [] r.1 q (ms.take 8), SMap.set [] r.2 q (ms.drop 8))) ([], [])

/-- A hart as a return leaves it: what `pack` recorded, supervisor mode, IE = 0, PRE-EMPT with phase 1, everything else
zero (R23, R284). -/
def Hart.comeBack (h : Hart) (p : Packed) (chunks : List Nat) : Hart :=
  let m := unspill h.spill
  { pc := p.resume, st := .running, chunks := chunks,
    hstat := BitVec.ofNat 64 (1 + b2n p.idem * 2 ^ 9 + b2n p.ord * 2 ^ 10),
    hcause := BitVec.ofNat 64 (2 ^ 32 + cPREEMPT), htvec := p.htvec, hscr := p.image, ctxid := BitVec.ofNat 16 p.ctxid,
    ordtmo := p.ordtmo, vcfg := 0, rq := m.1, spill := m.2, task := h.task, secCount := p.section_, depth := h.depth,
    lastCtx := p.ctxid, async := h.async, pxStack := [true] }

/-- One packed hart returns, when its allocation is free on the core (R284). -/
def returnHart (ck : Nat) (s : State) (hk : Nat) : State :=
  let h := getHart s hk
  match h.packed with
  | none => s
  | some p =>
    let ks := freeChunks s ck p.chunks
    if h.st ≠ .preempted ∨ ks.length < p.chunks then s
    else
      let s1 := modCore (giveChunks s ck p.ctxid ks) ck (fun c => { c with
        pool := c.pool.filter (fun r => !ks.contains (r.1 / 32)) })
      rouseSenders (setHart s1 hk (h.comeBack p ks)) hk none

/-- A context returns to its harts of a core, once the pre-emption is complete; others stay packed (R284). -/
def returnContext (s : State) (ck ctx : Nat) : State :=
  if leavingOn s ck ≠ [] then s
  else
    let mine (hk : Nat) : Bool := match (getHart s hk).packed with | some p => decide (p.ctxid = ctx) | none => false
    let t := ((hartsOf ck).filter mine).foldl (returnHart ck) s
    if (hartsOf ck).any (fun hk => (getHart t hk).packed.isSome) then t
    else modCore t ck (fun c => { c with preempt := none })

/-! ## Updates (R386) -/

/-- The image set an FWUPDATE names, as it lies in memory. -/
def updateImage (s : State) (addr : Nat) : List Byte :=
  (List.range (Config.imageLength addr)).map (fun k => readByte s (addr + k))

/-- The request goes on with the next die of its mask. -/
def nextDie (s : State) (id : Nat) (a : Admin) : State :=
  post { s with admins := SMap.put s.admins id { a with stage := 2 * (a.stage / 2 + 1) } } (.fwupdate id)

/-- FWUPDATE, die by die in ascending order: verify, hand over, restart the firmware column on the new image, HELLO, and take
back; a die that finds no common version returns to its previous image, and the request ends with status 1 (R386). -/
def updateFirmware (s : State) (id : Nat) (a : Admin) : State :=
  let d := a.stage / 2
  let dk := a.dev * 8 + d
  if d ≥ 8 then finishAdmin s id 0
  else if (a.arg 1).testBit d = false then nextDie s id a
  else
    let img := updateImage s (a.arg 0)
    if a.stage % 2 = 0 then
      if physOk (a.arg 0) = false ∨ imageOk (getDev s a.dev).table img = false then finishAdmin s id 1
      else
        let v := Config.imageRange img d
        let old := getDie s dk
        let s2 := restartColumn (modDie s dk (fun x => { x with fwUp := false, fwMin := v.1, fwMax := v.2, agreed := [] })) dk img
        let s3 := { s2 with admins := SMap.put s2.admins id { a with stage := a.stage + 1, old := old.fwMin, new := old.fwMax } }
        let others := (diesOfDev a.dev).filter (· != dk)
        post (others.foldl (fun t o => post t (.hello dk o v.1 v.2)) s3) (.fwupdate id)
    else
      let others := (diesOfDev a.dev).filter (· != dk)
      let met (o : Nat) : Bool := (SMap.find (getDie s dk).agreed (dieNo o)).isSome
      if !others.all met then s
      else if others.all (fun o => (versionWith s dk o).isSome) then
        nextDie (drainMail (modDie s dk (fun x => { x with fwUp := true })) dk) id a
      else
        let s1 := modDie s dk (fun x => { x with fwUp := true, fwMin := a.old, fwMax := a.new, agreed := [] })
        finishAdmin (helloAll (restartColumn s1 dk (getDev s a.dev).image) dk) id 1

/-! ## The steps -/

/-- PREEMPT_MESSAGE, R282. -/
def execPreemptMessage (ck : Nat) (t : BitVec 64) (s : State) : Host.Outcome State Fault Refusal :=
  .next (preemptCore s ck t.toNat)
/-- PREEMPT_DEADLINE, R282. -/
def execPreemptDeadline (ck : Nat) (s : State) : Host.Outcome State Fault Refusal := .next (missDeadline s ck)
/-- CONTEXT_RETURN, R284: a core and a context. -/
def execContextReturn (p : Nat × Nat) (s : State) : Host.Outcome State Fault Refusal := .next (returnContext s p.1 p.2)
/-- START_MESSAGE, R371. -/
def execStartMessage (hk : Nat) (v : BitVec 64) (s : State) : Host.Outcome State Fault Refusal := .next (startHart s hk v)
/-- WAKE_MESSAGE, R276. -/
def execWakeMessage (hk : Nat) (s : State) : Host.Outcome State Fault Refusal := .next (wakeHart s hk)
/-- FWUPDATE, R386. -/
def execFwupdate (id : Nat) (s : State) : Host.Outcome State Fault Refusal := .next (serve 16 updateFirmware s id)
/-- HELLO, R385. -/
def execHello (src dst lo hi : Nat) (s : State) : Host.Outcome State Fault Refusal := .next (helloFrom s src dst lo hi)
/-- FIRMWARE_MAILBOX_MESSAGE, R385. -/
def execFirmwareMailboxMessage (src dst m : Nat) (s : State) : Host.Outcome State Fault Refusal := .next (sendMail s src dst m)
/-- MODULE_RESET, R410. -/
def execModuleReset (dev : Nat) (s : State) : Host.Outcome State Fault Refusal := .next (resetModule s dev)
/-- DIE_RESET, R412. -/
def execDieReset (dk : Nat) (s : State) : Host.Outcome State Fault Refusal := .next (resetDie s dk)

end Sys2Proof.Machine
end

