-- ==== Sys2Proof/Machine/Errors.lean ====
section
/-! DEFINITION. Errors, the lifetime record, power and clocks (R402, R405 to R413): soft errors by structure, parity, the
record in flash and its live copy, clock steps, shutdown, and recovery over SMBus. -/
namespace Sys2Proof.Machine

open Sys2Proof

/-! ## Uncorrectable errors (R405, R412) -/

/-- A GDDR-7 read of a line failed in memory device g after the controller's own correction: the line is poisoned, and the
error counted (R405, R409). `x` holds the address in bits 47 to 0 and g above them. -/
def memoryError (s : State) (x : Nat) : State :=
  let a := x % 2 ^ 48
  poisonLine (countLife s (homeDev a) (0x03A0 + 4 * (x / 2 ^ 48 % 64)) 0 32) a

/-- An accumulator tile of a core fails: the context that owns it is fenced (R38, R405). -/
def tileError (s : State) (ck n : Nat) : State :=
  let c := getCore s ck
  let w := if n = 0 then c.accown0 else c.accown1
  if bit w 31 then fenceContext s (devOf (dieOf ck)) (bits w 23 8) 8 (ck * 8 + bits w 2 0) 0 else s

/-- A core's W fails: the context that owns it is fenced (R186, R405). -/
def infuserError (s : State) (ck : Nat) : State :=
  let c := getCore s ck
  if c.infV then fenceContext s (devOf (dieOf ck)) c.infCtx 8 (ck * 8 + c.infHart) 0 else s

/-- A row of a cluster's belay table fails, a row holding one entry: the entry is released as if woken, and its waiter
reads its word again (R164, R405). -/
def belayError (s : State) (x : Nat) : State :=
  match (getClus s (x / 256)).belay[x % 256]? with
  | some e => post s (.belayWake (x / 256) e.2)
  | none => s

/-- The object that row n of a cluster's event unit holds: barriers, then mutexes, then events (R169). -/
def eventRow (c : Cluster) (n : Nat) : EvObj :=
  if n < 64 then SMap.get {} c.bars n
  else if n < 128 then SMap.get {} c.muts (n - 64)
  else SMap.get {} c.evts (n - 128)

/-- A hart that waits on an event-unit object looks again. -/
def lookAgain (s : State) (hk : Nat) : State :=
  post (modHart s hk (fun h => match h.wait with
    | .event _ _ _ => h.wake
    | _ => h)) (.convoyIssue hk)

/-- A row of a cluster's event unit fails: its waiters are released as if woken and look again (R405). -/
def eventError (s : State) (x : Nat) : State :=
  (eventRow (getClus s (x / 384)) (x % 384)).waiters.foldl lookAgain s

/-- A hart's decode state table or receive queue fails: its context is fenced (R405). -/
def hartError (s : State) (hk : Nat) : State :=
  if validHart hk then fenceContext s (devOfHart hk) (getHart s hk).ctxid.toNat 8 hk 0 else s

/-- A partial write-back of a writer's sector is refused: the writer, if it is a hart of that context still, takes POISON with
INFO bit 1, and the context is fenced with REASON 6 (R327, R404). -/
def refuseWriter (s : State) (w : Writer) : State :=
  let h := getHart s w.hart
  let known := validHart w.hart && !isEngine w.hart
  let here := known && decide (h.st ≠ .idle ∧ devOfHart w.hart * 65536 + h.ctxid.toNat = w.ctx)
  fenceContext (if here then queueAsync s w.hart ⟨cPOISON, 2, w.va⟩ else s) (w.ctx / 65536) (w.ctx % 65536) 6
    (if known then w.hart else noHart) cPOISON

/-- The fetch of a line's compression metadata fails. A line that its home slice holds with one to seven dirty sectors is written
back in part: those sectors are not written, the line is poisoned, and the writer of each is refused (R326, R327, R404). A line
of which the slice lacks a sector, and holds none dirty, is filled and poisoned (R318, R326). Nothing else needs the metadata: not a
line that is all there, or is written back whole, or lies in the caddy, which is never filled (R322, R327). -/
def metadataError (s : State) (l : Nat) : State :=
  if classOf l ≠ 0 ∨ metaReserved s (homeDev l) = false ∨ inCaddy s l = true then s
  else match homeLine s l with
    | none => poisonLine s l
    | some x =>
      if x.dirty = [] then (if x.sectors = 0xFF then s else poisonLine s l)
      else if x.dirty.length = 8 then s
      else x.dirty.foldl (fun t p => refuseWriter t p.2) (poisonLine (dropLine s l) l)

/-- The messages in the spill queues of a die's harts: hart, queue and place (R283, R324). -/
def spilledMsgs (s : State) (dk : Nat) : List (Nat × Nat × Nat) :=
  (s.harts.filter (fun p => dieOf (coreOf p.1) == dk)).flatMap (fun p =>
    p.2.spill.flatMap (fun q => (List.range q.2.length).map (fun i => (p.1, q.1, i))))

/-- A record that a die spilled fails its check as it is read back, the n-th of them, sectors of revisions from the oldest and then
messages: it is not used, and its context takes POISON and is fenced with REASON 5 (R325, R404; log 11). -/
def spillError (s : State) (dk n : Nat) : State :=
  let sectors := spilledOn s dk
  match sectors[n]? with
  | some x =>
    let hk := (taskHart s x.uid).getD noHart
    fenceContext (if hk = noHart then s else queueAsync s hk ⟨cPOISON, 0, BitVec.ofNat 64 (x.sector * 64)⟩)
      (devOf dk) x.ctx 5 hk cPOISON
  | none => match (spilledMsgs s dk)[n - sectors.length]? with
    | none => s
    | some (hk, q, i) =>
      let t := modHart s hk (fun h => { h with spill := SMap.set [] h.spill q ((SMap.get [] h.spill q).eraseIdx i) })
      fenceContext (queueAsync t hk ⟨cPOISON, 0, 0⟩) (devOf dk) (getHart s hk).ctxid.toNat 5 hk cPOISON

/-- The first hart of a context that is not idle on a device, if there is one (R404). -/
def firstHartOf (s : State) (dev ctx : Nat) : Nat :=
  match s.harts.find? (fun p => devOfHart p.1 == dev && p.2.ctxid.toNat == ctx && p.2.st != .idle) with
  | some p => p.1
  | none => noHart

/-- An uncorrectable error by structure: 0 a clean line or entry of a cache, 1 a dirty L1 sector and 2 L2 data or tag at an
address, 3 a scratchpad granule at a location, 4 a GDDR-7 read, 5 the caddy line of a queue, 6 a revision sector of a
context, 7 and 8 a core's tiles, 9 its W, 10 a belay row, 11 an event-unit row, 12 a core's tile-walk engine, 13 a die's
reprojection unit, 14 a hart's decode state table or receive queue, 15 an entry of a core's TLBs and 16 of a
cluster's, its place above bit 15, 17 a die's
scheduler, commit sequencer or firmware region, 18 the compression metadata of the line of a location, 19 a spilled record,
the die in bits 7 to 0 and its place above them (R325 to R327, R405, R412). -/
def uncorrectable (s : State) (k x : Nat) : State :=
  match k with
  | 1 => poisonLine s x
  | 2 => poisonLine s x
  | 3 => poisonAt s x
  | 4 => memoryError s x
  | 5 => fenceQueue s x
  | 6 => fenceContext s (x / 65536) (x % 65536) 8 (firstHartOf s (x / 65536) (x % 65536)) 0
  | 7 => tileError s x 0
  | 8 => tileError s x 1
  | 9 => infuserError s x
  | 10 => belayError s x
  | 11 => eventError s x
  | 12 => fenceEngine s x
  | 13 => fenceReprojection s x
  | 14 => hartError s x
  | 15 => modCore s (x % 65536) (fun c => { c with
      tlb := c.tlb.eraseIdx (x / 65536), gtlb := if x / 65536 < c.tlb.length then c.gtlb else c.gtlb.eraseIdx (x / 65536 - c.tlb.length) })
  | 16 => modClus s (x % 65536) (fun c => { c with ctlb := c.ctlb.eraseIdx (x / 65536) })
  | 17 => post s (.dieReset x)
  | 18 => metadataError s x
  | 19 => spillError s (x % 256) (x / 256)
  | _ => s

/-! ## Parity and corrected errors (R405, R406, R409) -/

/-- A slot's operand fails parity: the slot is executed again from its first element not completed; a further failure in
the same slot is persistent, and the context is fenced with REASON 7 (R406). -/
def parityFailure (s : State) (hk : Nat) (again : Bool) : State :=
  let h := getHart s hk
  if validHart hk = false ∨ h.st = .idle ∨ h.st = .preempted then s
  else if again && h.parity then fenceContext (stopConvoy s hk) (devOfHart hk) h.ctxid.toNat 7 hk 0
  else setHart s hk { h with parity := true }

/-- A corrected error of an SRAM group (0 to 9) of a die, or of a GDDR-7 device (10 upwards) of its device, changes nothing
visible and is counted (R405, R409). -/
def corrected (s : State) (dk g : Nat) : State :=
  if dk ≥ 64 then s
  else if g < 10 then countLife s (devOf dk) (0x0020 + 8 * (dieNo dk * 10 + g)) 0 64
  else if g < 74 then countLife s (devOf dk) (0x02A0 + 4 * (g - 10)) 0 32
  else s

/-! ## The lifetime record (R409) -/

/-- The record is written to module flash, and the write is counted (R409). -/
def writeRecord (s : State) (dev : Nat) : State :=
  modDev (countLife s dev 0x18 0 64) dev (fun d => { d with lifeFlash := d.life })

/-- The 8 bytes of the record at an offset, from its counters; 4-byte counters stand two in a word (R409). -/
def recordWord (m : SMap Nat) (o : Nat) : Nat :=
  if o = 0 then 0x4C524543 + 2 ^ 32
  else if (0x02A0 ≤ o ∧ o < 0x04A0) ∨ 0x0E58 ≤ o then SMap.get 0 m o % 2 ^ 32 + SMap.get 0 m (o + 4) % 2 ^ 32 * 2 ^ 32
  else SMap.get 0 m o

/-- One sample of a die's sensors: its junction and droop histograms, and its ring oscillators, whose first sample stays
(R409; log 10). -/
def sampleDie (s : State) (dk : Nat) : State :=
  let dev := devOf dk
  let d := dieNo dk
  let bin (k : Nat) : Nat := min 15 (Config.sensor s.nextId dk k)
  let s1 := countLife s dev (0x0558 + 128 * d + 8 * bin 0) 0 64
  let s2 := countLife s1 dev (0x0958 + 128 * d + 8 * bin 1) 0 64
  modDev s2 dev (fun x =>
    (List.range 8).foldl (fun y r =>
      let o := 0x0E58 + 64 * d + 8 * r
      let f := Config.sensor s.nextId dk (2 + r) % 2 ^ 32
      let m := if (SMap.find y.life o).isSome then y.life else SMap.put y.life o f
      { y with life := SMap.put m (o + 4) f }) x)

/-- The live copy of the record in the last 1 MiB of die 0's firmware region is refreshed, with a new sample of each die's
sensors and, once an hour, the power-on hours (R369, R409). -/
def refreshRecord (s : State) (dev : Nat) : State :=
  if (getDev s dev).booted = false then s
  else
    let hour : Nat := 3600 * 10 ^ 9
    let s1 := (fresh ((diesOfDev dev).foldl sampleDie s)).2
    let s2 := if (getDie s1 (dev * 8)).tb.toNat % hour < 10 ^ 9 ∧ hour ≤ (getDie s1 (dev * 8)).tb.toNat then
        countLife s1 dev 8 0 64 else s1
    let r := dieCfg s2 (dev * 8)
    let size := bits r.fwr 35 18
    if size = 0 then s2
    else
      let base := dev * 2 ^ 38 + (bits r.fwr 17 0 + size - 1) * 2 ^ 20
      let m := (getDev s2 dev).life
      (List.range 523).foldl (fun t k => writeN t (base + 8 * k) 8 (recordWord m (8 * k))) s2

/-! ## Power, clock and recovery (R410, R413) -/

/-- A millisecond in nanoseconds. -/
def msNs : Nat := 10 ^ 6

/-- A power or junction limit steps a die's clock down by 100 MHz, to no lower than 800 MHz; while it stands no step up is due
(R413). -/
def stepClockDown (s : State) (dk : Nat) : State :=
  modDie s dk (fun d => { d with clk := max 800 (d.clk - 100), clearAt := none })

/-- The condition clears, and once it has been clear for 1 ms the clock steps back up, one step at a time (R413). -/
def stepClockUp (s : State) (dk : Nat) : State :=
  modDie s dk (fun d => match d.clearAt with
    | some t =>
      if d.tb.toNat < t then d
      else
        let c := min 1600 (d.clk + 100)
        { d with clk := c, clearAt := if c < 1600 then some (d.tb.toNat + msNs) else none }
    | none => if d.clk < 1600 then { d with clearAt := some (d.tb.toNat + msNs) } else d)

/-- A module without power: no unit of it holds anything, and none takes a step until a module reset (R410, R413). -/
def powerOff (s : State) (dev : Nat) : State := modDev (clearDevice s dev) dev (fun d => { d with off := true })

/-- At 120 °C the module shuts down, and the record counts it (R409, R413). -/
def thermalStop (s : State) (dev : Nat) : State := powerOff (writeRecord (countLife s dev 0x10 32 16) dev) dev

/-- An orderly shutdown writes the record and ends operation (R409). -/
def orderlyStop (s : State) (dev : Nat) : State := powerOff (writeRecord s dev) dev

/-- The oldest set of module flash. -/
def oldestAge : List FlashSet → Nat
  | [] => 0
  | f :: fs => match fs with
    | [] => f.age
    | _ :: _ => min f.age (oldestAge fs)

/-- A table and image set is written over SMBus: module flash holds two, and the new one takes the oldest one's place
(R410). -/
def writeFlash (s : State) (dev : Nat) (tab img : List Byte) : State :=
  modDev s dev (fun d =>
    let newest := (d.flash.map FlashSet.age).foldl max 0
    let kept := if d.flash.length < 2 then d.flash else (d.flash.filter (fun f => f.age != oldestAge d.flash)).take 1
    { d with flash := kept ++ [⟨tab, img, newest + 1⟩] })

/-! ## The steps -/

/-- UNCORRECTABLE_ERROR, R405. -/
def execUncorrectableError (k x : Nat) (s : State) : Host.Outcome State Fault Refusal := .next (uncorrectable s k x)
/-- PARITY_ERROR, R406. -/
def execParityError (hk : Nat) (again : Bool) (s : State) : Host.Outcome State Fault Refusal :=
  .next (parityFailure s hk again)
/-- CORRECTED_ERROR, R405. -/
def execCorrectedError (dk g : Nat) (s : State) : Host.Outcome State Fault Refusal := .next (corrected s dk g)
/-- LIFETIME_RECORD_WRITE, R409. -/
def execLifetimeRecordWrite (dev : Nat) (s : State) : Host.Outcome State Fault Refusal := .next (writeRecord s dev)
/-- LIFETIME_RECORD_REFRESH, R409. -/
def execLifetimeRecordRefresh (dev : Nat) (s : State) : Host.Outcome State Fault Refusal := .next (refreshRecord s dev)
/-- CLOCK_STEP_DOWN, R413. -/
def execClockStepDown (dk : Nat) (s : State) : Host.Outcome State Fault Refusal := .next (stepClockDown s dk)
/-- CLOCK_STEP_UP, R413. -/
def execClockStepUp (dk : Nat) (s : State) : Host.Outcome State Fault Refusal := .next (stepClockUp s dk)
/-- THERMAL_SHUTDOWN, R413. -/
def execThermalShutdown (dev : Nat) (s : State) : Host.Outcome State Fault Refusal := .next (thermalStop s dev)
/-- ORDERLY_SHUTDOWN, R409. -/
def execOrderlyShutdown (dev : Nat) (s : State) : Host.Outcome State Fault Refusal := .next (orderlyStop s dev)
/-- SMBUS_MANAGEMENT_WRITE, R410. -/
def execSmbusManagementWrite (dev : Nat) (tab img : List (BitVec 8)) (s : State) : Host.Outcome State Fault Refusal :=
  .next (writeFlash s dev tab img)

end Sys2Proof.Machine
end

