-- ==== Sys2Proof/Machine/Links.lean ====
section
/-! DEFINITION. Links and the outside (R390, R395 to R401): training, failure and replay of ports, the timebase step,
operations that arrive from the network, and accesses of the host. -/
namespace Sys2Proof.Machine

open Sys2Proof

/-! ## Ports (R390, R395, R396, R398) -/

/-- The status word of a port: 0 to 6 Ratal Link, 7 to 22 Ethernet. -/
def portWord (d : Device) (p : Nat) : DWord :=
  if p < 7 then SMap.get 0 d.rlstat p else SMap.get 0 d.ethstat (p - 7)

/-- The device with the status word of a port replaced. -/
def setPort (d : Device) (p : Nat) (w : DWord) : Device :=
  if p < 7 then { d with rlstat := SMap.set 0 d.rlstat p w }
  else if p < 23 then { d with ethstat := SMap.set 0 d.ethstat (p - 7) w }
  else d

/-- The device a Ratal Link port is to meet (R395). -/
def peerOf (dev p : Nat) : Nat := Nat.xor dev (p + 1)

/-- RETRAINS one more than it was. -/
def moreRetrains (w : DWord) : DWord := withBits w 63 32 ((bits w 63 32 + 1) % 2 ^ 32)

/-- A port has trained: up with the right peer, else fenced; a training after the first is a retrain (R390, R395). -/
def trainedWord (dev p peer : Nat) (again : Bool) (w : DWord) : DWord :=
  let r := if again then moreRetrains w else w
  let ok := decide (p ≥ 7) || decide (peer = peerOf dev p)
  withBits (withBits r 10 8 (if p < 7 then peer % 8 else 0)) 1 0 (if ok then 2 else 3)

/-- STATE of a port that is not fenced changes: only a successful training ends a fence (R402). -/
def notFenced (w : DWord) (st : Nat) : DWord := if bits w 1 0 = 3 then w else withBits w 1 0 st

/-- The fence of a link is noted in the lifetime record (R409). -/
def noteFenced (s : State) (dev p : Nat) : State :=
  if bits (portWord (getDev s dev) p) 1 0 = 3 then postOnce s (.lifetimeRecordWrite dev) else s

/-- Dies that have gained a route to the master join it (R397). -/
def joinAll (old new : State) : State :=
  (List.range 8).foldl (fun t dev =>
    if routed old dev 0 = false ∧ routed new dev 0 = true then (diesOfDev dev).foldl joinTime t else t) new

/-- A port trains: peer 8 says that its training begins, 9 that it cannot train, and otherwise it has trained with the device
of that number; a module without power or images trains no port (R390, R395, R397, R398, R402, R409, R410). -/
def trainPort (s : State) (dev p peer : Nat) : State :=
  if dev ≥ 8 ∨ p ≥ 23 ∨ (getDev s dev).down = true ∨ (p < 7 ∧ peer < 8 ∧ (getDev s peer).down = true) then s
  else if peer = 8 then modDev s dev (fun d => setPort d p (notFenced (portWord d p) 1))
  else if peer ≥ 9 then noteFenced (modDev s dev (fun d => setPort d p (withBits (portWord d p) 1 0 3))) dev p
  else
    let again := (getDev s dev).trained.contains p
    let s1 := modDev s dev (fun d => { setPort d p (trainedWord dev p peer again (portWord d p)) with
      trained := if again then d.trained else p :: d.trained })
    noteFenced (joinAll s (if again then countLife s1 dev (0x04A0 + 8 * p) 0 64 else s1)) dev p

/-- STATE of a port. -/
def portState (s : State) (dev p : Nat) : Nat := bits (portWord (getDev s dev) p) 1 0

/-- Ratal Link ports that are down, have trained, and whose peer no route reaches any more are fenced (R396, R402). -/
def fenceLinks (s : State) : State :=
  (List.range 8).foldl (fun t dev => (List.range 7).foldl (fun u p =>
    if portState u dev p = 0 ∧ (getDev u dev).trained.contains p = true ∧ routed u dev (peerOf dev p) = false then
      noteFenced (modDev u dev (fun d => setPort d p (withBits (portWord d p) 1 0 3))) dev p else u) t) s

/-- A port goes down; a Ratal Link port takes its peer's end with it (R396). -/
def dropPort (s : State) (dev p : Nat) : State :=
  if dev ≥ 8 ∨ p ≥ 23 then s
  else
    let down (t : State) (x : Nat) : State := modDev t x (fun d => setPort d p (notFenced (portWord d p) 0))
    if p < 7 then fenceLinks (down (down s dev) (peerOf dev p)) else down s dev

/-- A flit or frame is resent; REPLAYS holds at 0xFFFF (R390, R395). -/
def replayFlit (s : State) (dev p : Nat) : State :=
  if dev ≥ 8 ∨ p ≥ 23 then s
  else modDev s dev (fun d =>
    let w := portWord d p
    setPort d p (withBits w 31 16 (min 0xFFFF (bits w 31 16 + 1))))

/-! ## The timebase step (R397) -/

/-- Every die that has joined the master steps forward to the value distributed; a timebase never decreases. -/
def stepTime (s : State) : State :=
  match s.tbStep with
  | none => s
  | some (t0, v) =>
    let now := (getDie s 0).tb.toNat
    if now < t0 then s
    else
      let w := v + (now - t0)
      { (List.range 64).foldl (fun t dk =>
          if routed t (devOf dk) 0 then
            modDie t dk (fun d => { d with tb := BitVec.ofNat 64 (max d.tb.toNat w) })
          else t) s with tbStep := none }

/-! ## Memory as outside agents reach it (R307, R400, R401, R407) -/

/-- n bytes from a physical address are memory of the node. -/
def rangeOk (a n : Nat) : Bool := (List.range n).all (fun k => physOk (a + k))

/-- Reading n bytes from outside, none where they meet poison (R401, R407). -/
def outerRead (s : State) (a n : Nat) : Option Nat :=
  if rangeOk a n = false ∨ (List.range n).any (fun k => isPoisoned s (a + k)) = true then none else some (readN s a n)

/-- A sector that n bytes from an address cover only in part is poisoned (R407). -/
def partPoisoned (s : State) (a n : Nat) : Bool :=
  (List.range n).any (fun k => isPoisoned s (a + k)
    && (decide ((a + k) / 64 * 64 < a) || decide (a + n < (a + k) / 64 * 64 + 64)))

/-- Writing n bytes from outside: not performed where it would cover a poisoned sector in part; a sector covered whole
loses its poison (R401, R407). -/
def outerWrite (s : State) (a n v : Nat) : State :=
  if rangeOk a n = false ∨ partPoisoned s a n = true then s
  else
    let first := (a + 63) / 64 * 64
    writeN (clearPoison s first (a + n - first)) a n v

/-- The device whose fabric or host port an address is reached through. -/
def portDev (a : Nat) : Nat := if classOf a = 1 then 0 else homeDev a

/-- An answer leaves through a device's network port. -/
def netAnswer (s : State) (dev : Nat) (v : Option Nat) : State :=
  match v with
  | some x => modDev s dev (fun d => { d with netOut := x :: d.netOut })
  | none => s

/-- An 8-byte atomic from the network executes at the fabric port, and its old value is returned (R293, R400). -/
def netAtomic (s : State) (a : Nat) (f : Nat → Nat) : State :=
  let dev := portDev a
  if etherUp s dev = false ∨ a % 8 ≠ 0 then s
  else match outerRead s a 8 with
    | some old => netAnswer (outerWrite s a 8 (f old % 2 ^ 64)) dev (some old)
    | none => s

/-- A send arrives at queue pair n of a device, n being device * 65,536 + pair (R400). -/
def receiveSend (s : State) (n v : Nat) : State :=
  let dev := n / 65536
  if dev ≥ 8 ∨ etherUp s dev = false then s
  else modDev s dev (fun d => { d with qp := SMap.put d.qp (n % 65536) (v :: SMap.get [] d.qp (n % 65536)) })

/-! ## The host (R388, R401) -/

/-- The device answers the host. -/
def hostAnswer (s : State) (dev : Nat) (v : Option Nat) : State :=
  match v with
  | some x => modDev s dev (fun d => { d with hostOut := x :: d.hostOut })
  | none => s

/-- A host access to the class-2 units 0x70 to 0xA0 of BAR0: a read of a register, or a store, of which the doorbells
alone take anything from the host (R365, R372, R377, R388). -/
def hostRegister (s : State) (wr : Bool) (a n v : Nat) : State :=
  let dev := regDev a
  if n ≠ 8 ∨ a % 8 ≠ 0 ∨ regUnit a < 0x70 ∨ regReached s 0 a = false then s
  else if wr = false then hostAnswer s dev (some (regRead s a).toNat)
  else if regUnit a = 0x80 then doorbellStore s (regDieKey a) (regOfs a / 8) (BitVec.ofNat 64 v)
  else s

/-- An access of the host: a device without a good image set presents its configuration space only (R401, R410). -/
def accessHost (s : State) (wr : Bool) (a n v : Nat) : State :=
  let dev := if classOf a = 2 then regDev a else portDev a
  if (getDev s dev).down then s
  else if classOf a = 2 then hostRegister s wr a n v
  else if wr then outerWrite s a n v
  else hostAnswer s dev (outerRead s a n)

/-! ## The steps -/

/-- LINK_TRAIN, R395. -/
def execLinkTrain (dev port peer : Nat) (s : State) : Host.Outcome State Fault Refusal := .next (trainPort s dev port peer)
/-- LINK_DOWN, R396. -/
def execLinkDown (dev port : Nat) (s : State) : Host.Outcome State Fault Refusal := .next (dropPort s dev port)
/-- FLIT_REPLAY, R395. -/
def execFlitReplay (dev port : Nat) (s : State) : Host.Outcome State Fault Refusal := .next (replayFlit s dev port)
/-- TB_STEP, R397. -/
def execTbStep (s : State) : Host.Outcome State Fault Refusal := .next (stepTime s)
/-- RDMA_WRITE, R400. -/
def execRdmaWrite (a n v : Nat) (s : State) : Host.Outcome State Fault Refusal :=
  .next (if etherUp s (portDev a) then outerWrite s a n v else s)
/-- RDMA_READ, R400. -/
def execRdmaRead (a n : Nat) (s : State) : Host.Outcome State Fault Refusal :=
  .next (if etherUp s (portDev a) then netAnswer s (portDev a) (outerRead s a n) else s)
/-- ROCE_SEND, R400. -/
def execRoceSend (n v : Nat) (s : State) : Host.Outcome State Fault Refusal := .next (receiveSend s n v)
/-- ROCE_COMPARE_AND_SWAP, R400. -/
def execRoceCompareAndSwap (a : Nat) (t v : BitVec 64) (s : State) : Host.Outcome State Fault Refusal :=
  .next (netAtomic s a (fun old => if old = t.toNat then v.toNat else old))
/-- ROCE_FETCH_AND_ADD, R400. -/
def execRoceFetchAndAdd (a : Nat) (v : BitVec 64) (s : State) : Host.Outcome State Fault Refusal :=
  .next (netAtomic s a (fun old => old + v.toNat))
/-- HOST_ACCESS, R401. -/
def execHostAccess (wr : Bool) (a n v : Nat) (s : State) : Host.Outcome State Fault Refusal :=
  .next (accessHost s wr a n v)

end Sys2Proof.Machine
end

