-- ==== Sys2Proof/Machine/Dispatch.lean ====
section
/-! DEFINITION. One arm for each constructor of Instr: the direct call of its meaning. -/
namespace Sys2Proof.Machine

open Sys2Proof

/-- What an instruction or step does. -/
def exec (i : Instr) (s : State) : Host.Outcome State Fault Refusal :=
  match i with
  | .setLengthRequest a b => Sys2Proof.Machine.execSetLengthRequest a b s
  | .vcfgWrite v => Sys2Proof.Machine.execVcfgWrite v s
  | .wbaseWrite v => Sys2Proof.Machine.execWbaseWrite v s
  | .vlWrite v => Sys2Proof.Machine.execVlWrite v s
  | .hstatWrite v => Sys2Proof.Machine.execHstatWrite v s
  | .accownWrite n v => Sys2Proof.Machine.execAccownWrite n v s
  | .atsatClear n v => Sys2Proof.Machine.execAtsatClear n v s
  | .mstWrite n v => Sys2Proof.Machine.execMstWrite n v s
  | .tbWrite v => Sys2Proof.Machine.execTbWrite v s
  | .artWrite n v => Sys2Proof.Machine.execArtWrite n v s
  | .registerWrite n v => Sys2Proof.Machine.execRegisterWrite n v s
  | .barrierArriveWait a n => Sys2Proof.Machine.execBarrierArriveWait a n s
  | .barrierQuery a n => Sys2Proof.Machine.execBarrierQuery a n s
  | .barrierArrive n => Sys2Proof.Machine.execBarrierArrive n s
  | .barrierConfigure n v => Sys2Proof.Machine.execBarrierConfigure n v s
  | .mutexAcquire a n => Sys2Proof.Machine.execMutexAcquire a n s
  | .mutexRelease n => Sys2Proof.Machine.execMutexRelease n s
  | .mutexTry a n => Sys2Proof.Machine.execMutexTry a n s
  | .mutexConfigure n v => Sys2Proof.Machine.execMutexConfigure n v s
  | .eventWait a n => Sys2Proof.Machine.execEventWait a n s
  | .eventSet n v => Sys2Proof.Machine.execEventSet n v s
  | .eventClear n => Sys2Proof.Machine.execEventClear n s
  | .eventConfigure n v => Sys2Proof.Machine.execEventConfigure n v s
  | .barrierRelease cl n => Sys2Proof.Machine.execBarrierRelease cl n s
  | .barrierParentArrival cl n => Sys2Proof.Machine.execBarrierParentArrival cl n s
  | .mutexGrant cl n => Sys2Proof.Machine.execMutexGrant cl n s
  | .convoyIssue hk => Sys2Proof.Machine.execConvoyIssue hk s
  | .asyncTrap hk => Sys2Proof.Machine.execAsyncTrap hk s
  | .hintStallExpiry hk => Sys2Proof.Machine.execHintStallExpiry hk s
  | .loadDataReturn op => Sys2Proof.Machine.execLoadDataReturn op s
  | .memoryOpPerformed op => Sys2Proof.Machine.execMemoryOpPerformed op s
  | .remoteRefusal op => Sys2Proof.Machine.execRemoteRefusal op s
  | .belayWake cl loc => Sys2Proof.Machine.execBelayWake cl loc s
  | .messageArrival m => Sys2Proof.Machine.execMessageArrival m s
  | .sendRoom hk => Sys2Proof.Machine.execSendRoom hk s
  | .twaitExpiry hk => Sys2Proof.Machine.execTwaitExpiry hk s
  | .childEnded uid => Sys2Proof.Machine.execChildEnded uid s
  | .ordbRelease hk => Sys2Proof.Machine.execOrdbRelease hk s
  | .ordtmoExpiry hk => Sys2Proof.Machine.execOrdtmoExpiry hk s
  | .ropeForm hk => Sys2Proof.Machine.execRopeForm hk s
  | .rbarRelease hk => Sys2Proof.Machine.execRbarRelease hk s
  | .mstSlotBoundary ck => Sys2Proof.Machine.execMstSlotBoundary ck s
  | .translationRequest hk va k => Sys2Proof.Machine.execTranslationRequest hk va k s
  | .fillc cl v => Sys2Proof.Machine.execFillc cl v s
  | .twekick ck v => Sys2Proof.Machine.execTwekick ck v s
  | .transferComplete ck => Sys2Proof.Machine.execTransferComplete ck s
  | .engineFence ck => Sys2Proof.Machine.execEngineFence ck s
  | .repkick v => Sys2Proof.Machine.execRepkick v s
  | .reprojectionDone dev => Sys2Proof.Machine.execReprojectionDone dev s
  | .doorbell dk sqn v host => Sys2Proof.Machine.execDoorbell dk sqn v host s
  | .fwctlWrite ck v => Sys2Proof.Machine.execFwctlWrite ck v s
  | .dispatchCycle dk => Sys2Proof.Machine.execDispatchCycle dk s
  | .tileResident ck id => Sys2Proof.Machine.execTileResident ck id s
  | .queueRoom q => Sys2Proof.Machine.execQueueRoom q s
  | .cancelToken id => Sys2Proof.Machine.execCancelToken id s
  | .commitRelease d => Sys2Proof.Machine.execCommitRelease d s
  | .commitPerformed uid => Sys2Proof.Machine.execCommitPerformed uid s
  | .preemptMessage ck t => Sys2Proof.Machine.execPreemptMessage ck t s
  | .preemptDeadline ck => Sys2Proof.Machine.execPreemptDeadline ck s
  | .contextReturn p => Sys2Proof.Machine.execContextReturn p s
  | .startMessage hk v => Sys2Proof.Machine.execStartMessage hk v s
  | .wakeMessage hk => Sys2Proof.Machine.execWakeMessage hk s
  | .classifierTriangle dk => Sys2Proof.Machine.execClassifierTriangle dk s
  | .classifierRoom dk => Sys2Proof.Machine.execClassifierRoom dk s
  | .submissionEntry sq => Sys2Proof.Machine.execSubmissionEntry sq s
  | .launchNode w => Sys2Proof.Machine.execLaunchNode w s
  | .copyNode w => Sys2Proof.Machine.execCopyNode w s
  | .signalNode w => Sys2Proof.Machine.execSignalNode w s
  | .waitNode w => Sys2Proof.Machine.execWaitNode w s
  | .timedNode w => Sys2Proof.Machine.execTimedNode w s
  | .condNode w => Sys2Proof.Machine.execCondNode w s
  | .loopNode w => Sys2Proof.Machine.execLoopNode w s
  | .indirectNode w => Sys2Proof.Machine.execIndirectNode w s
  | .endNode w => Sys2Proof.Machine.execEndNode w s
  | .launchEnd id => Sys2Proof.Machine.execLaunchEnd id s
  | .ctxnew id => Sys2Proof.Machine.execCtxnew id s
  | .ctxdel id => Sys2Proof.Machine.execCtxdel id s
  | .qnew id => Sys2Proof.Machine.execQnew id s
  | .qdel id => Sys2Proof.Machine.execQdel id s
  | .sqnew id => Sys2Proof.Machine.execSqnew id s
  | .sqdel id => Sys2Proof.Machine.execSqdel id s
  | .mapPages id => Sys2Proof.Machine.execMapPages id s
  | .unmap id => Sys2Proof.Machine.execUnmap id s
  | .migrate id => Sys2Proof.Machine.execMigrate id s
  | .tdopen id => Sys2Proof.Machine.execTdopen id s
  | .tdclose id => Sys2Proof.Machine.execTdclose id s
  | .drawopen id => Sys2Proof.Machine.execDrawopen id s
  | .drawseal id => Sys2Proof.Machine.execDrawseal id s
  | .drawclose id => Sys2Proof.Machine.execDrawclose id s
  | .sqreset id => Sys2Proof.Machine.execSqreset id s
  | .fwupdate id => Sys2Proof.Machine.execFwupdate id s
  | .rehomeReply op => Sys2Proof.Machine.execRehomeReply op s
  | .hello src dst lo hi => Sys2Proof.Machine.execHello src dst lo hi s
  | .firmwareMailboxMessage src dst m => Sys2Proof.Machine.execFirmwareMailboxMessage src dst m s
  | .moduleReset dev => Sys2Proof.Machine.execModuleReset dev s
  | .dieReset dk => Sys2Proof.Machine.execDieReset dk s
  | .uncorrectableError k x => Sys2Proof.Machine.execUncorrectableError k x s
  | .parityError hk again => Sys2Proof.Machine.execParityError hk again s
  | .linkTrain dev port peer => Sys2Proof.Machine.execLinkTrain dev port peer s
  | .linkDown dev port => Sys2Proof.Machine.execLinkDown dev port s
  | .flitReplay dev port => Sys2Proof.Machine.execFlitReplay dev port s
  | .tbStep => Sys2Proof.Machine.execTbStep s
  | .fabricAccess x => Sys2Proof.Machine.execFabricAccess x s
  | .rdmaWrite a n v => Sys2Proof.Machine.execRdmaWrite a n v s
  | .rdmaRead a n => Sys2Proof.Machine.execRdmaRead a n s
  | .roceSend n v => Sys2Proof.Machine.execRoceSend n v s
  | .roceCompareAndSwap a t v => Sys2Proof.Machine.execRoceCompareAndSwap a t v s
  | .roceFetchAndAdd a v => Sys2Proof.Machine.execRoceFetchAndAdd a v s
  | .hostAccess wr a n v => Sys2Proof.Machine.execHostAccess wr a n v s
  | .clockStepDown dk => Sys2Proof.Machine.execClockStepDown dk s
  | .clockStepUp dk => Sys2Proof.Machine.execClockStepUp dk s
  | .thermalShutdown dev => Sys2Proof.Machine.execThermalShutdown dev s
  | .lifetimeRecordWrite dev => Sys2Proof.Machine.execLifetimeRecordWrite dev s
  | .lifetimeRecordRefresh dev => Sys2Proof.Machine.execLifetimeRecordRefresh dev s
  | .matrixInstructionComplete ck => Sys2Proof.Machine.execMatrixInstructionComplete ck s
  | .correctedError dk g => Sys2Proof.Machine.execCorrectedError dk g s
  | .orderlyShutdown dev => Sys2Proof.Machine.execOrderlyShutdown dev s
  | .smbusManagementWrite dev tab img => Sys2Proof.Machine.execSmbusManagementWrite dev tab img s
  | .add a b c => Sys2Proof.Machine.execAdd a b c s
  | .sub a b c => Sys2Proof.Machine.execSub a b c s
  | .mul a b c => Sys2Proof.Machine.execMul a b c s
  | .mulhs a b c => Sys2Proof.Machine.execMulhs a b c s
  | .mulhz a b c => Sys2Proof.Machine.execMulhz a b c s
  | .madd a b c => Sys2Proof.Machine.execMadd a b c s
  | .divs a b c => Sys2Proof.Machine.execDivs a b c s
  | .divz a b c => Sys2Proof.Machine.execDivz a b c s
  | .rems a b c => Sys2Proof.Machine.execRems a b c s
  | .remz a b c => Sys2Proof.Machine.execRemz a b c s
  | .andReg a b c => Sys2Proof.Machine.execAndReg a b c s
  | .orReg a b c => Sys2Proof.Machine.execOrReg a b c s
  | .xorReg a b c => Sys2Proof.Machine.execXorReg a b c s
  | .andn a b c => Sys2Proof.Machine.execAndn a b c s
  | .shl a b c => Sys2Proof.Machine.execShl a b c s
  | .shrs a b c => Sys2Proof.Machine.execShrs a b c s
  | .shrz a b c => Sys2Proof.Machine.execShrz a b c s
  | .rotl a b c => Sys2Proof.Machine.execRotl a b c s
  | .rotr a b c => Sys2Proof.Machine.execRotr a b c s
  | .addiShort a imm => Sys2Proof.Machine.execAddiShort a imm s
  | .addiLong a b e => Sys2Proof.Machine.execAddiLong a b e s
  | .andiShort a imm => Sys2Proof.Machine.execAndiShort a imm s
  | .andiLong a b e => Sys2Proof.Machine.execAndiLong a b e s
  | .oriShort a imm => Sys2Proof.Machine.execOriShort a imm s
  | .oriLong a b e => Sys2Proof.Machine.execOriLong a b e s
  | .xoriShort a imm => Sys2Proof.Machine.execXoriShort a imm s
  | .xoriLong a b e => Sys2Proof.Machine.execXoriLong a b e s
  | .shliShort a imm => Sys2Proof.Machine.execShliShort a imm s
  | .shliLong a b e => Sys2Proof.Machine.execShliLong a b e s
  | .rotriShort a imm => Sys2Proof.Machine.execRotriShort a imm s
  | .rotriLong a b e => Sys2Proof.Machine.execRotriLong a b e s
  | .lih a b e => Sys2Proof.Machine.execLih a b e s
  | .slts a b c => Sys2Proof.Machine.execSlts a b c s
  | .sltz a b c => Sys2Proof.Machine.execSltz a b c s
  | .sel a b c => Sys2Proof.Machine.execSel a b c s
  | .mins a b c => Sys2Proof.Machine.execMins a b c s
  | .minz a b c => Sys2Proof.Machine.execMinz a b c s
  | .maxs a b c => Sys2Proof.Machine.execMaxs a b c s
  | .maxz a b c => Sys2Proof.Machine.execMaxz a b c s
  | .clz a b => Sys2Proof.Machine.execClz a b s
  | .ctz a b => Sys2Proof.Machine.execCtz a b s
  | .popc a b => Sys2Proof.Machine.execPopc a b s
  | .bswap a b => Sys2Proof.Machine.execBswap a b s
  | .bextsShort a p l => Sys2Proof.Machine.execBextsShort a p l s
  | .bextsLong a b e => Sys2Proof.Machine.execBextsLong a b e s
  | .bextzShort a p l => Sys2Proof.Machine.execBextzShort a p l s
  | .bextzLong a b e => Sys2Proof.Machine.execBextzLong a b e s
  | .bins a b e => Sys2Proof.Machine.execBins a b e s
  | .brEqShort a b o => Sys2Proof.Machine.execBrEqShort a b o s
  | .brEqLong a b e => Sys2Proof.Machine.execBrEqLong a b e s
  | .brNeShort a b o => Sys2Proof.Machine.execBrNeShort a b o s
  | .brNeLong a b e => Sys2Proof.Machine.execBrNeLong a b e s
  | .brLtsShort a b o => Sys2Proof.Machine.execBrLtsShort a b o s
  | .brLtsLong a b e => Sys2Proof.Machine.execBrLtsLong a b e s
  | .brGesShort a b o => Sys2Proof.Machine.execBrGesShort a b o s
  | .brGesLong a b e => Sys2Proof.Machine.execBrGesLong a b e s
  | .brLtzShort a b o => Sys2Proof.Machine.execBrLtzShort a b o s
  | .brLtzLong a b e => Sys2Proof.Machine.execBrLtzLong a b e s
  | .brGezShort a b o => Sys2Proof.Machine.execBrGezShort a b o s
  | .brGezLong a b e => Sys2Proof.Machine.execBrGezLong a b e s
  | .brAnyShort m o => Sys2Proof.Machine.execBrAnyShort m o s
  | .brAnyLong m e => Sys2Proof.Machine.execBrAnyLong m e s
  | .jmpShort o => Sys2Proof.Machine.execJmpShort o s
  | .jmpLong e => Sys2Proof.Machine.execJmpLong e s
  | .jalShort a o => Sys2Proof.Machine.execJalShort a o s
  | .jalLong a e => Sys2Proof.Machine.execJalLong a e s
  | .jr a b => Sys2Proof.Machine.execJr a b s
  | .lrotShort a d o => Sys2Proof.Machine.execLrotShort a d o s
  | .lrotLong a d e => Sys2Proof.Machine.execLrotLong a d e s
  | .wbase ds dv => Sys2Proof.Machine.execWbase ds dv s
  | .nop => Sys2Proof.Machine.execNop s
  | .yield => Sys2Proof.Machine.execYield s
  | .ldsB a b c e => Sys2Proof.Machine.execLdsB a b c e s
  | .ldsH a b c e => Sys2Proof.Machine.execLdsH a b c e s
  | .ldsW a b c e => Sys2Proof.Machine.execLdsW a b c e s
  | .ldzB a b c e => Sys2Proof.Machine.execLdzB a b c e s
  | .ldzH a b c e => Sys2Proof.Machine.execLdzH a b c e s
  | .ldzW a b c e => Sys2Proof.Machine.execLdzW a b c e s
  | .ldD a b c e => Sys2Proof.Machine.execLdD a b c e s
  | .stB a b c e => Sys2Proof.Machine.execStB a b c e s
  | .stH a b c e => Sys2Proof.Machine.execStH a b c e s
  | .stW a b c e => Sys2Proof.Machine.execStW a b c e s
  | .stD a b c e => Sys2Proof.Machine.execStD a b c e s
  | .pf b c e => Sys2Proof.Machine.execPf b c e s
  | .evf b c e => Sys2Proof.Machine.execEvf b c e s
  | .unpin b c e => Sys2Proof.Machine.execUnpin b c e s
  | .vld a b e => Sys2Proof.Machine.execVld a b e s
  | .vlds a b c e => Sys2Proof.Machine.execVlds a b c e s
  | .vldx a b c e => Sys2Proof.Machine.execVldx a b c e s
  | .vldk a b c e => Sys2Proof.Machine.execVldk a b c e s
  | .vst a b e => Sys2Proof.Machine.execVst a b e s
  | .vsts a b c e => Sys2Proof.Machine.execVsts a b c e s
  | .vstx a b c e => Sys2Proof.Machine.execVstx a b c e s
  | .vsbm a b e => Sys2Proof.Machine.execVsbm a b e s
  | .vstk a b c e => Sys2Proof.Machine.execVstk a b c e s
  | .aaddS a b c e => Sys2Proof.Machine.execAaddS a b c e s
  | .aandS a b c e => Sys2Proof.Machine.execAandS a b c e s
  | .aorS a b c e => Sys2Proof.Machine.execAorS a b c e s
  | .axorS a b c e => Sys2Proof.Machine.execAxorS a b c e s
  | .aminS a b c e => Sys2Proof.Machine.execAminS a b c e s
  | .aminsS a b c e => Sys2Proof.Machine.execAminsS a b c e s
  | .amaxS a b c e => Sys2Proof.Machine.execAmaxS a b c e s
  | .amaxsS a b c e => Sys2Proof.Machine.execAmaxsS a b c e s
  | .aswapS a b c e => Sys2Proof.Machine.execAswapS a b c e s
  | .acasS a b c e => Sys2Proof.Machine.execAcasS a b c e s
  | .aaddV a b c e => Sys2Proof.Machine.execAaddV a b c e s
  | .aandV a b c e => Sys2Proof.Machine.execAandV a b c e s
  | .aorV a b c e => Sys2Proof.Machine.execAorV a b c e s
  | .axorV a b c e => Sys2Proof.Machine.execAxorV a b c e s
  | .aminV a b c e => Sys2Proof.Machine.execAminV a b c e s
  | .aminsV a b c e => Sys2Proof.Machine.execAminsV a b c e s
  | .amaxV a b c e => Sys2Proof.Machine.execAmaxV a b c e s
  | .amaxsV a b c e => Sys2Proof.Machine.execAmaxsV a b c e s
  | .aswapV a b c e => Sys2Proof.Machine.execAswapV a b c e s
  | .acasV a b c e => Sys2Proof.Machine.execAcasV a b c e s
  | .cwaitL imm => Sys2Proof.Machine.execCwaitL imm s
  | .cwaitS imm => Sys2Proof.Machine.execCwaitS imm s
  | .fwait a b e => Sys2Proof.Machine.execFwait a b e s
  | .vfwait a b c e => Sys2Proof.Machine.execVfwait a b c e s
  | .ffill a b c e => Sys2Proof.Machine.execFfill a b c e s
  | .vpf b e => Sys2Proof.Machine.execVpf b e s
  | .vevf b e => Sys2Proof.Machine.execVevf b e s
  | .vadd a b c => Sys2Proof.Machine.execVadd a b c s
  | .vsub a b c => Sys2Proof.Machine.execVsub a b c s
  | .vmul a b c => Sys2Proof.Machine.execVmul a b c s
  | .vmulhs a b c => Sys2Proof.Machine.execVmulhs a b c s
  | .vmulhz a b c => Sys2Proof.Machine.execVmulhz a b c s
  | .vmacc a b c => Sys2Proof.Machine.execVmacc a b c s
  | .vdivs a b c => Sys2Proof.Machine.execVdivs a b c s
  | .vdivz a b c => Sys2Proof.Machine.execVdivz a b c s
  | .vrems a b c => Sys2Proof.Machine.execVrems a b c s
  | .vremz a b c => Sys2Proof.Machine.execVremz a b c s
  | .vand a b c => Sys2Proof.Machine.execVand a b c s
  | .vor a b c => Sys2Proof.Machine.execVor a b c s
  | .vxor a b c => Sys2Proof.Machine.execVxor a b c s
  | .vandn a b c => Sys2Proof.Machine.execVandn a b c s
  | .vshl a b c => Sys2Proof.Machine.execVshl a b c s
  | .vshrs a b c => Sys2Proof.Machine.execVshrs a b c s
  | .vshrz a b c => Sys2Proof.Machine.execVshrz a b c s
  | .vmins a b c => Sys2Proof.Machine.execVmins a b c s
  | .vminz a b c => Sys2Proof.Machine.execVminz a b c s
  | .vmaxs a b c => Sys2Proof.Machine.execVmaxs a b c s
  | .vmaxz a b c => Sys2Proof.Machine.execVmaxz a b c s
  | .vsadds a b c => Sys2Proof.Machine.execVsadds a b c s
  | .vsaddz a b c => Sys2Proof.Machine.execVsaddz a b c s
  | .vssubs a b c => Sys2Proof.Machine.execVssubs a b c s
  | .vssubz a b c => Sys2Proof.Machine.execVssubz a b c s
  | .vfma a b c => Sys2Proof.Machine.execVfma a b c s
  | .vfadd a b c => Sys2Proof.Machine.execVfadd a b c s
  | .vfsub a b c => Sys2Proof.Machine.execVfsub a b c s
  | .vfmul a b c => Sys2Proof.Machine.execVfmul a b c s
  | .vfdiv a b c => Sys2Proof.Machine.execVfdiv a b c s
  | .vfsqrt a b => Sys2Proof.Machine.execVfsqrt a b s
  | .vfrcpe a b => Sys2Proof.Machine.execVfrcpe a b s
  | .vfrsqe a b => Sys2Proof.Machine.execVfrsqe a b s
  | .vfmin a b c => Sys2Proof.Machine.execVfmin a b c s
  | .vfmax a b c => Sys2Proof.Machine.execVfmax a b c s
  | .vfclass a b => Sys2Proof.Machine.execVfclass a b s
  | .vfabs a b => Sys2Proof.Machine.execVfabs a b s
  | .vfneg a b => Sys2Proof.Machine.execVfneg a b s
  | .vfsgnj a b c => Sys2Proof.Machine.execVfsgnj a b c s
  | .vcmpeq a b c => Sys2Proof.Machine.execVcmpeq a b c s
  | .vcmpne a b c => Sys2Proof.Machine.execVcmpne a b c s
  | .vcmplts a b c => Sys2Proof.Machine.execVcmplts a b c s
  | .vcmpltz a b c => Sys2Proof.Machine.execVcmpltz a b c s
  | .vcmples a b c => Sys2Proof.Machine.execVcmples a b c s
  | .vcmplez a b c => Sys2Proof.Machine.execVcmplez a b c s
  | .vfcmpeq a b c => Sys2Proof.Machine.execVfcmpeq a b c s
  | .vfcmplt a b c => Sys2Proof.Machine.execVfcmplt a b c s
  | .vfcmple a b c => Sys2Proof.Machine.execVfcmple a b c s
  | .vfcmpun a b c => Sys2Proof.Machine.execVfcmpun a b c s
  | .vfcvt a b c => Sys2Proof.Machine.execVfcvt a b c s
  | .vfcvts a b c => Sys2Proof.Machine.execVfcvts a b c s
  | .vfcvtz a b c => Sys2Proof.Machine.execVfcvtz a b c s
  | .vfcvtts a b c => Sys2Proof.Machine.execVfcvtts a b c s
  | .vfcvttz a b c => Sys2Proof.Machine.execVfcvttz a b c s
  | .vscvtf a b c => Sys2Proof.Machine.execVscvtf a b c s
  | .vzcvtf a b c => Sys2Proof.Machine.execVzcvtf a b c s
  | .vwidens a b c => Sys2Proof.Machine.execVwidens a b c s
  | .vwidenz a b c => Sys2Proof.Machine.execVwidenz a b c s
  | .vnarrs a b c => Sys2Proof.Machine.execVnarrs a b c s
  | .vnarrz a b c => Sys2Proof.Machine.execVnarrz a b c s
  | .vcmul a b c => Sys2Proof.Machine.execVcmul a b c s
  | .vcmac a b c => Sys2Proof.Machine.execVcmac a b c s
  | .vcconj a b => Sys2Proof.Machine.execVcconj a b s
  | .vcnorm a b => Sys2Proof.Machine.execVcnorm a b s
  | .vmov a b => Sys2Proof.Machine.execVmov a b s
  | .vsplat a b => Sys2Proof.Machine.execVsplat a b s
  | .vmerge a b c => Sys2Proof.Machine.execVmerge a b c s
  | .vslup a b c => Sys2Proof.Machine.execVslup a b c s
  | .vsldn a b c => Sys2Proof.Machine.execVsldn a b c s
  | .vperm a b c => Sys2Proof.Machine.execVperm a b c s
  | .vcomp a b => Sys2Proof.Machine.execVcomp a b s
  | .vexp a b => Sys2Proof.Machine.execVexp a b s
  | .vsh a b c => Sys2Proof.Machine.execVsh a b c s
  | .vfsh a b c => Sys2Proof.Machine.execVfsh a b c s
  | .vrsum a b c => Sys2Proof.Machine.execVrsum a b c s
  | .vrfsum a b c => Sys2Proof.Machine.execVrfsum a b c s
  | .vrmins a b c => Sys2Proof.Machine.execVrmins a b c s
  | .vrminz a b c => Sys2Proof.Machine.execVrminz a b c s
  | .vrmaxs a b c => Sys2Proof.Machine.execVrmaxs a b c s
  | .vrmaxz a b c => Sys2Proof.Machine.execVrmaxz a b c s
  | .vrfmin a b c => Sys2Proof.Machine.execVrfmin a b c s
  | .vrfmax a b c => Sys2Proof.Machine.execVrfmax a b c s
  | .vgmax a b c => Sys2Proof.Machine.execVgmax a b c s
  | .vgsum a b c => Sys2Proof.Machine.execVgsum a b c s
  | .maskAnd a b c => Sys2Proof.Machine.execMaskAnd a b c s
  | .maskOr a b c => Sys2Proof.Machine.execMaskOr a b c s
  | .maskXor a b c => Sys2Proof.Machine.execMaskXor a b c s
  | .maskAndn a b c => Sys2Proof.Machine.execMaskAndn a b c s
  | .mclr a => Sys2Proof.Machine.execMclr a s
  | .mset a => Sys2Proof.Machine.execMset a s
  | .mpopc a b => Sys2Proof.Machine.execMpopc a b s
  | .mfirst a b => Sys2Proof.Machine.execMfirst a b s
  | .vgetx a b c => Sys2Proof.Machine.execVgetx a b c s
  | .vputx a b c => Sys2Proof.Machine.execVputx a b c s
  | .fmt t u x b c => Sys2Proof.Machine.execFmt t u x b c s
  | .mma a b c => Sys2Proof.Machine.execMma a b c s
  | .mmai a b c => Sys2Proof.Machine.execMmai a b c s
  | .mmalX a b c e => Sys2Proof.Machine.execMmalX a b c e s
  | .mmalA a b c e => Sys2Proof.Machine.execMmalA a b c e s
  | .ipload b c => Sys2Proof.Machine.execIpload b c s
  | .ipsave b => Sys2Proof.Machine.execIpsave b s
  | .atzero a b => Sys2Proof.Machine.execAtzero a b s
  | .atmov a b => Sys2Proof.Machine.execAtmov a b s
  | .atload a b c => Sys2Proof.Machine.execAtload a b c s
  | .atsave a b => Sys2Proof.Machine.execAtsave a b s
  | .attr a => Sys2Proof.Machine.execAttr a s
  | .atadd a b => Sys2Proof.Machine.execAtadd a b s
  | .atgetF32 a b c => Sys2Proof.Machine.execAtgetF32 a b c s
  | .atgetBf16 a b c => Sys2Proof.Machine.execAtgetBf16 a b c s
  | .atgetI32 a b c => Sys2Proof.Machine.execAtgetI32 a b c s
  | .atputF32 a b c => Sys2Proof.Machine.execAtputF32 a b c s
  | .atputI32 a b c => Sys2Proof.Machine.execAtputI32 a b c s
  | .xdelta a b c => Sys2Proof.Machine.execXdelta a b c s
  | .xundelta a b c => Sys2Proof.Machine.execXundelta a b c s
  | .xzz a b => Sys2Proof.Machine.execXzz a b s
  | .xunzz a b => Sys2Proof.Machine.execXunzz a b s
  | .xpack a b c => Sys2Proof.Machine.execXpack a b c s
  | .xunpack a b c => Sys2Proof.Machine.execXunpack a b c s
  | .xpackg a b c => Sys2Proof.Machine.execXpackg a b c s
  | .xunpackg a b c => Sys2Proof.Machine.execXunpackg a b c s
  | .xdtab b c => Sys2Proof.Machine.execXdtab b c s
  | .xdec a b c => Sys2Proof.Machine.execXdec a b c s
  | .xquant a b c e => Sys2Proof.Machine.execXquant a b c e s
  | .xdequant a b c e => Sys2Proof.Machine.execXdequant a b c e s
  | .xcrc a b => Sys2Proof.Machine.execXcrc a b s
  | .xcrcf a b => Sys2Proof.Machine.execXcrcf a b s
  | .xtopk a b c => Sys2Proof.Machine.execXtopk a b c s
  | .xbotk a b c => Sys2Proof.Machine.execXbotk a b c s
  | .xkmerge a b c => Sys2Proof.Machine.execXkmerge a b c s
  | .xbkmerge a b c => Sys2Proof.Machine.execXbkmerge a b c s
  | .tspawn a b c => Sys2Proof.Machine.execTspawn a b c s
  | .tend b => Sys2Proof.Machine.execTend b s
  | .tabort b => Sys2Proof.Machine.execTabort b s
  | .tstat a b => Sys2Proof.Machine.execTstat a b s
  | .forkTask a b c => Sys2Proof.Machine.execForkTask a b c s
  | .joinChild a b => Sys2Proof.Machine.execJoinChild a b s
  | .joinall a => Sys2Proof.Machine.execJoinall a s
  | .cancelInst b => Sys2Proof.Machine.execCancelInst b s
  | .bst a b c e => Sys2Proof.Machine.execBst a b c e s
  | .ordb b => Sys2Proof.Machine.execOrdb b s
  | .orde => Sys2Proof.Machine.execOrde s
  | .tkget a b => Sys2Proof.Machine.execTkget a b s
  | .rope a b => Sys2Proof.Machine.execRope a b s
  | .unrope => Sys2Proof.Machine.execUnrope s
  | .rbar a b => Sys2Proof.Machine.execRbar a b s
  | .msend b c => Sys2Proof.Machine.execMsend b c s
  | .vmsend b c => Sys2Proof.Machine.execVmsend b c s
  | .mrecv a b => Sys2Proof.Machine.execMrecv a b s
  | .vmrecv a b c => Sys2Proof.Machine.execVmrecv a b c s
  | .mpoll a b => Sys2Proof.Machine.execMpoll a b s
  | .vredq a b c => Sys2Proof.Machine.execVredq a b c s
  | .vredqf a b c => Sys2Proof.Machine.execVredqf a b c s
  | .twait b => Sys2Proof.Machine.execTwait b s
  | .twaitd b => Sys2Proof.Machine.execTwaitd b s
  | .rbox a b c => Sys2Proof.Machine.execRbox a b c s
  | .rtri a b c => Sys2Proof.Machine.execRtri a b c s
  | .rpush a b c => Sys2Proof.Machine.execRpush a b c s
  | .rpop a b c => Sys2Proof.Machine.execRpop a b c s
  | .rhit a b c => Sys2Proof.Machine.execRhit a b c s
  | .rterm a b => Sys2Proof.Machine.execRterm a b s
  | .rspawn a b c => Sys2Proof.Machine.execRspawn a b c s
  | .rdepth a => Sys2Proof.Machine.execRdepth a s
  | .texBl a b c => Sys2Proof.Machine.execTexBl a b c s
  | .texSt a b c => Sys2Proof.Machine.execTexSt a b c s
  | .texPt a b c => Sys2Proof.Machine.execTexPt a b c s
  | .texq a b c => Sys2Proof.Machine.execTexq a b c s
  | .mout a b c => Sys2Proof.Machine.execMout a b c s
  | .mprim a b => Sys2Proof.Machine.execMprim a b s
  | .mend b c => Sys2Proof.Machine.execMend b c s
  | .rast a b c => Sys2Proof.Machine.execRast a b c s
  | .sget a n => Sys2Proof.Machine.execSget a n s
  | .sset a n => Sys2Proof.Machine.execSset a n s
  | .sswap a b e => Sys2Proof.Machine.execSswap a b e s
  | .scall imm => Sys2Proof.Machine.execScall imm s
  | .eret => Sys2Proof.Machine.execEret s
  | .brk imm => Sys2Proof.Machine.execBrk imm s
  | .wfi => Sys2Proof.Machine.execWfi s
  | .halt => Sys2Proof.Machine.execHalt s
  | .tlbw a b c => Sys2Proof.Machine.execTlbw a b c s
  | .tlbi b c => Sys2Proof.Machine.execTlbi b c s
  | .tlbr a b => Sys2Proof.Machine.execTlbr a b s
  | .hsave b => Sys2Proof.Machine.execHsave b s
  | .hrest b => Sys2Proof.Machine.execHrest b s
  | .pack b c => Sys2Proof.Machine.execPack b c s

end Sys2Proof.Machine
end

