-- ==== Sys2Proof/Machine/Step.lean ====
section
/-! DEFINITION. One step of the node: an input from the tape, else a step made due, else the next of the steps that the
units could take, in rotation (R8; log 5). And the state in which a given word runs next (log 4). -/
namespace Sys2Proof.Machine

open Sys2Proof

/-- The step an outstanding operation takes next (R147, R149, R329, R399). -/
def opEvent (id : Nat) (o : Op) : Instr :=
  if !o.rehome.isEmpty then .rehomeReply id
  else if !o.fabric.isEmpty then .fabricAccess (.executed id)
  else if !o.refused.isEmpty then .remoteRefusal id
  else if !o.ret.isEmpty then .loadDataReturn id
  else .memoryOpPerformed id

/-- A hart that has a turn to issue: it runs, or follows a leader and has a convoy in hand (R7, R19). -/
def hasTurn (h : Hart) : Bool := decide (h.st = .running) || (decide (h.st = .follower) && h.conv.isSome)

/-- The hart whose turn a core's next issue slot is: the first with a turn after the hart last issued, going round, so that
each has its turn within 8 issue slots of its core (R8). -/
def nextHart (s : State) (ck : Nat) : Option Nat :=
  let last := (getCore s ck).lastHart
  (((List.range 8).map (fun k => ck * 8 + (last + 1 + k) % 8)).find? (fun hk => hasTurn (getHart s hk) && validHart hk))

/-- The steps that the units could take: an issue slot of each core (R8), outstanding operations, matrix units, tokens and
messages on their way, submission queues, walks, requests, engines and classifiers, and a cycle of one die. -/
def choices (s : State) : List Instr :=
  (((s.harts.map (fun p => coreOf p.1)).eraseDups).filterMap (nextHart s)).map .convoyIssue
    ++ (s.harts.filter (fun p => isEngine p.1 && hasTurn p.2)).map (fun p => .convoyIssue p.1)
    ++ s.ops.map (fun p => opEvent p.1 p.2)
    ++ (s.commits.filter (fun p => p.2.released && !sending s p.1)).map (fun p => .commitPerformed p.1)
    ++ (s.cores.filter (fun p => !p.2.inflight.isEmpty)).map (fun p => .matrixInstructionComplete p.1)
    ++ (s.cores.filter (fun p => !p.2.kicks.isEmpty || !p.2.refusedKicks.isEmpty)).map (fun p => .transferComplete p.1)
    ++ (s.tokens.filter (fun p => !p.2.dies.isEmpty)).map (fun p => .cancelToken p.1)
    ++ s.flights.map (fun p => .messageArrival p.1)
    ++ (s.sqs.filter (fun p => sqReady s p.1 p.2)).map (fun p => .submissionEntry p.1)
    ++ s.walks.map (fun p => walkEvent s p.1)
    ++ s.admins.map (fun p => adminEvent p.2.op p.1)
    ++ (s.jobs.filter (fun p => !p.2.isEmpty)).map (fun p => .reprojectionDone p.1)
    ++ (s.dies.filter (fun p => !p.2.cls.isEmpty)).map (fun p => .classifierTriangle p.1)
    ++ [.dispatchCycle (s.turn % 64)]

/-- The step the machine takes of itself, by a count that goes round the choices (log 5). -/
def ownStep (s : State) : Instr :=
  let cs := choices s
  cs.getD (s.turn / 64 % cs.length) (.dispatchCycle (s.turn % 64))

/-- The instruction or step taken next, and the state it is taken in. -/
def nextInstr (s : State) : Instr × State :=
  match s.inputs with
  | i :: rest => (i, { s with inputs := rest })
  | [] => match s.pending with
    | i :: rest => (i, { s with pending := rest })
    | [] => (ownStep s, { s with turn := s.turn + 1 })

/-- One step of the node. -/
def step (s : State) : Host.Outcome State Fault Refusal :=
  let n := nextInstr s
  exec n.1 n.2

/-! ## A given word as the next instruction (log 4) -/

/-- The firmware hart that runs a given word: die 0 of device 0, column 11, row 0, hart 0 (log 3). -/
def fetchHart : Nat := 11 * 8

/-- The leaf of page 0: physical page 0, readable, writable and executable, 64 KiB (R308). -/
def fetchLeaf : DWord := 0x3800003

/-- The header of the convoy: one slot, or with a 64-bit instruction a slot and its extension word (R66). -/
def fetchHeader (nbits : Nat) : Nat := if nbits = 64 then 24 else 4

/-- The state with an instruction's words stored as the convoy at address 0, and the firmware hart about to fetch it
there. -/
def State.withFetchWord (s : State) (nbits w : Nat) : State :=
  let s1 := writeN (writeN s 0 4 (fetchHeader nbits)) 4 12 (w % 2 ^ 64)
  let s2 := modCore s1 (coreOf fetchHart) (fun c => { c with tlb := ⟨0, 0, 16, fetchLeaf⟩ :: c.tlb })
  let s3 := modHart s2 fetchHart (fun h => { h with pc := 0, st := .running, started := true, conv := none })
  { s3 with inputs := [.convoyIssue fetchHart] }

end Sys2Proof.Machine
end

