-- ==== Sys2Proof/Laws/Encoding.lean ====
section
/-! SUPPORT. The fields of a packed slot word are the fields it was packed from (R69, R71). -/
namespace Sys2Proof

/-- Field A of a packed word. -/
@[simp] theorem fieldA_pack (m f : Nat) (a b c : BitVec 7) : fieldA (pack m f a b c) = a := by
  apply BitVec.eq_of_getLsbD_eq
  intro i hi
  have h1 : ¬ (11 + i < 7) := by omega
  have h2 : ¬ (11 + i - 7 < 4) := by omega
  have h3 : 11 + i - 7 - 4 = i := by omega
  simp only [fieldA, pack, BitVec.getLsbD_extractLsb', BitVec.getLsbD_append]
  simp [hi, h1, h2, h3]

/-- Field B of a packed word. -/
@[simp] theorem fieldB_pack (m f : Nat) (a b c : BitVec 7) : fieldB (pack m f a b c) = b := by
  apply BitVec.eq_of_getLsbD_eq
  intro i hi
  have h1 : ¬ (18 + i < 7) := by omega
  have h2 : ¬ (18 + i - 7 < 4) := by omega
  have h3 : ¬ (18 + i - 7 - 4 < 7) := by omega
  have h4 : 18 + i - 7 - 4 - 7 = i := by omega
  simp only [fieldB, pack, BitVec.getLsbD_extractLsb', BitVec.getLsbD_append]
  simp [hi, h1, h2, h3, h4]

/-- Field C of a packed word. -/
@[simp] theorem fieldC_pack (m f : Nat) (a b c : BitVec 7) : fieldC (pack m f a b c) = c := by
  apply BitVec.eq_of_getLsbD_eq
  intro i hi
  have h1 : ¬ (25 + i < 7) := by omega
  have h2 : ¬ (25 + i - 7 < 4) := by omega
  have h3 : ¬ (25 + i - 7 - 4 < 7) := by omega
  have h4 : ¬ (25 + i - 7 - 4 - 7 < 7) := by omega
  have h5 : 25 + i - 7 - 4 - 7 - 7 = i := by omega
  simp only [fieldC, pack, BitVec.getLsbD_extractLsb', BitVec.getLsbD_append]
  simp [hi, h1, h2, h3, h4, h5]

/-- fn of a packed word. -/
theorem fieldFn_pack (m f : Nat) (a b c : BitVec 7) (h : f < 16) : fieldFn (pack m f a b c) = f := by
  have e : (pack m f a b c).extractLsb' 7 4 = BitVec.ofNat 4 f := by
    apply BitVec.eq_of_getLsbD_eq
    intro i hi
    have h1 : ¬ (7 + i < 7) := by omega
    have h2 : 7 + i - 7 = i := by omega
    simp only [pack, BitVec.getLsbD_extractLsb', BitVec.getLsbD_append]
    simp [hi, h1, h2]
  rw [fieldFn, e, BitVec.toNat_ofNat]
  exact Nat.mod_eq_of_lt h

/-- major of a packed word. -/
theorem fieldMajor_pack (m f : Nat) (a b c : BitVec 7) (h : m < 128) : fieldMajor (pack m f a b c) = m := by
  have e : (pack m f a b c).extractLsb' 0 7 = BitVec.ofNat 7 m := by
    apply BitVec.eq_of_getLsbD_eq
    intro i hi
    simp only [pack, BitVec.getLsbD_extractLsb', BitVec.getLsbD_append]
    simp [hi]
  rw [fieldMajor, e, BitVec.toNat_ofNat]
  exact Nat.mod_eq_of_lt h

/-- What a packed word decodes to is what its fields decode to. -/
theorem decodeSlot_pack (m f : Nat) (a b c : BitVec 7) (e : Option Word) (hm : m < 128) (hf : f < 16) :
    decodeSlot (pack m f a b c) e = decodeFields m f a b c e := by
  rw [decodeSlot, fieldMajor_pack m f a b c hm, fieldFn_pack m f a b c hf, fieldA_pack, fieldB_pack, fieldC_pack]

/-- Two halves of a 14-bit immediate make it whole. -/
@[simp] theorem imm_halves (i : BitVec 14) : (i.extractLsb' 7 7 ++ i.extractLsb' 0 7 : BitVec 14) = i := by
  apply BitVec.eq_of_getLsbD_eq
  intro k hk
  simp only [BitVec.getLsbD_append, BitVec.getLsbD_extractLsb']
  by_cases h : k < 7
  · simp [h]
  · have h1 : k - 7 < 7 := by omega
    have h2 : 7 + (k - 7) = k := by omega
    simp [h, h1, h2]

/-- Bits above POS and LEN in a field immediate are 0. -/
theorem bext_top (l p : BitVec 6) : ((0#2 ++ l ++ p : BitVec 14).extractLsb' 7 7).extractLsb' 5 2 = 0 := by
  apply BitVec.eq_of_getLsbD_eq
  intro i hi
  have h1 : ¬ (7 + (5 + i) < 6) := by omega
  have h2 : ¬ (7 + (5 + i) - 6 < 6) := by omega
  have h3 : 5 + i < 7 := by omega
  simp only [BitVec.getLsbD_extractLsb', BitVec.getLsbD_append]
  simp [h1, h2]

/-- POS of a field immediate. -/
theorem bext_pos (l p : BitVec 6) : ((0#2 ++ l ++ p : BitVec 14).extractLsb' 0 7).extractLsb' 0 6 = p := by
  apply BitVec.eq_of_getLsbD_eq
  intro i hi
  have h1 : i < 7 := by omega
  simp only [BitVec.getLsbD_extractLsb', BitVec.getLsbD_append]
  simp [hi, h1]

/-- LEN of a field immediate. -/
theorem bext_len (l p : BitVec 6) : (0#2 ++ l ++ p : BitVec 14).extractLsb' 6 6 = l := by
  apply BitVec.eq_of_getLsbD_eq
  intro i hi
  have h1 : ¬ (6 + i < 6) := by omega
  have h2 : 6 + i - 6 = i := by omega
  simp only [BitVec.getLsbD_extractLsb', BitVec.getLsbD_append]
  simp [hi, h1, h2]

/-- Bits above a register number are 0. -/
theorem sys_top (n : BitVec 12) : ((0#2 ++ n : BitVec 14).extractLsb' 7 7).extractLsb' 5 2 = 0 := by
  apply BitVec.eq_of_getLsbD_eq
  intro i hi
  have h1 : ¬ (7 + (5 + i) < 12) := by omega
  simp only [BitVec.getLsbD_extractLsb', BitVec.getLsbD_append]
  simp [h1]

/-- A register number. -/
theorem sys_number (n : BitVec 12) : (0#2 ++ n : BitVec 14).extractLsb' 0 12 = n := by
  apply BitVec.eq_of_getLsbD_eq
  intro i hi
  simp only [BitVec.getLsbD_extractLsb', BitVec.getLsbD_append]
  simp [hi]

/-- The format code of a prefix. -/
theorem fmt_code (t : BitVec 5) (u x : BitVec 1) : (x ++ u ++ t : BitVec 7).extractLsb' 0 5 = t := by
  apply BitVec.eq_of_getLsbD_eq
  intro i hi
  simp only [BitVec.getLsbD_extractLsb', BitVec.getLsbD_append]
  simp [hi]

/-- U of a prefix. -/
theorem fmt_u (t : BitVec 5) (u x : BitVec 1) : (x ++ u ++ t : BitVec 7).extractLsb' 5 1 = u := by
  apply BitVec.eq_of_getLsbD_eq
  intro i hi
  have h1 : ¬ (5 + i < 5) := by omega
  have h2 : 5 + i - 5 = i := by omega
  simp only [BitVec.getLsbD_extractLsb', BitVec.getLsbD_append]
  simp [hi, h1, h2]

/-- BSX of a prefix. -/
theorem fmt_bsx (t : BitVec 5) (u x : BitVec 1) : (x ++ u ++ t : BitVec 7).extractLsb' 6 1 = x := by
  apply BitVec.eq_of_getLsbD_eq
  intro i hi
  have h1 : ¬ (6 + i < 5) := by omega
  have h2 : ¬ (6 + i - 5 < 1) := by omega
  have h3 : 6 + i - 5 - 1 = i := by omega
  simp only [BitVec.getLsbD_extractLsb', BitVec.getLsbD_append]
  simp [hi, h1, h2, h3]

end Sys2Proof
end

