-- ==== Sys2Proof/Laws/PerInstr.lean ====
section
/-! SUPPORT. The encoding family, one lemma per constructor: what an instruction encodes to decodes to that instruction
(R69, R71, R77). -/
namespace Sys2Proof.Laws.Encoding

open Sys2Proof

/-- Whatever words the instruction encodes to decode to it, with every operand. -/
def Statement (i : Instr) : Prop := ∀ w e, encode i = some (w, e) → decodeSlot w e = .ok i

/-- A step that is no slot instruction has no words. -/
theorem of_none (i : Instr) (h : encode i = none) : Statement i := by
  intro w e he
  rw [h] at he
  exact nomatch he

/-- An instruction whose fields decode to it. -/
theorem of_pack (i : Instr) (m f : Nat) (a b c : BitVec 7) (e : Option Word) (hm : m < 128) (hf : f < 16)
    (he : encode i = some (pack m f a b c, e)) (hd : decodeFields m f a b c e = .ok i) : Statement i := by
  intro w e' h
  rw [he] at h
  obtain ⟨rfl, rfl⟩ := Prod.mk.inj (Option.some.inj h)
  rw [decodeSlot_pack m f a b c e hm hf, hd]

/-- A field instruction's POS and LEN come back from its immediate. -/
theorem decode_bext (f : BitVec 6 → BitVec 6 → Instr) (p l : BitVec 6) :
    (if decide (((0#2 ++ l ++ p : BitVec 14).extractLsb' 7 7).extractLsb' 5 2 = 0) = true then
      DecodeResult.ok (f (((0#2 ++ l ++ p : BitVec 14).extractLsb' 0 7).extractLsb' 0 6)
        (((0#2 ++ l ++ p : BitVec 14).extractLsb' 7 7 ++ (0#2 ++ l ++ p : BitVec 14).extractLsb' 0 7).extractLsb' 6 6))
    else .malformed (f (((0#2 ++ l ++ p : BitVec 14).extractLsb' 0 7).extractLsb' 0 6)
        (((0#2 ++ l ++ p : BitVec 14).extractLsb' 7 7 ++ (0#2 ++ l ++ p : BitVec 14).extractLsb' 0 7).extractLsb' 6 6)))
      = .ok (f p l) := by
  rw [imm_halves, bext_top, bext_pos, bext_len]
  rfl

/-- A register number comes back from its immediate. -/
theorem decode_sys (f : BitVec 12 → Instr) (n : BitVec 12) :
    (if decide (((0#2 ++ n : BitVec 14).extractLsb' 7 7).extractLsb' 5 2 = 0) = true then
      DecodeResult.ok (f (((0#2 ++ n : BitVec 14).extractLsb' 7 7 ++ (0#2 ++ n : BitVec 14).extractLsb' 0 7).extractLsb' 0 12))
    else .malformed (f (((0#2 ++ n : BitVec 14).extractLsb' 7 7 ++ (0#2 ++ n : BitVec 14).extractLsb' 0 7).extractLsb' 0 12)))
      = .ok (f n) := by
  rw [imm_halves, sys_top, sys_number]
  rfl

/-- The format, U and BSX come back from field A. -/
theorem decode_fmt (t : BitVec 5) (u x : BitVec 1) (b c : BitVec 7) :
    DecodeResult.ok (.fmt ((x ++ u ++ t : BitVec 7).extractLsb' 0 5) ((x ++ u ++ t : BitVec 7).extractLsb' 5 1)
      ((x ++ u ++ t : BitVec 7).extractLsb' 6 1) b c) = .ok (.fmt t u x b c) := by
  rw [fmt_code, fmt_u, fmt_bsx]

theorem setLengthRequest (a : BitVec 7) (b : BitVec 7) : Statement (.setLengthRequest a b) := of_none _ rfl
theorem vcfgWrite (v : BitVec 64) : Statement (.vcfgWrite v) := of_none _ rfl
theorem wbaseWrite (v : BitVec 64) : Statement (.wbaseWrite v) := of_none _ rfl
theorem vlWrite (v : BitVec 64) : Statement (.vlWrite v) := of_none _ rfl
theorem hstatWrite (v : BitVec 64) : Statement (.hstatWrite v) := of_none _ rfl
theorem accownWrite (n : Nat) (v : BitVec 64) : Statement (.accownWrite n v) := of_none _ rfl
theorem atsatClear (n : Nat) (v : BitVec 64) : Statement (.atsatClear n v) := of_none _ rfl
theorem mstWrite (n : Nat) (v : BitVec 64) : Statement (.mstWrite n v) := of_none _ rfl
theorem tbWrite (v : BitVec 64) : Statement (.tbWrite v) := of_none _ rfl
theorem artWrite (n : Nat) (v : BitVec 64) : Statement (.artWrite n v) := of_none _ rfl
theorem registerWrite (n : BitVec 12) (v : BitVec 64) : Statement (.registerWrite n v) := of_none _ rfl
theorem barrierArriveWait (a : BitVec 7) (n : Nat) : Statement (.barrierArriveWait a n) := of_none _ rfl
theorem barrierQuery (a : BitVec 7) (n : Nat) : Statement (.barrierQuery a n) := of_none _ rfl
theorem barrierArrive (n : Nat) : Statement (.barrierArrive n) := of_none _ rfl
theorem barrierConfigure (n : Nat) (v : BitVec 64) : Statement (.barrierConfigure n v) := of_none _ rfl
theorem mutexAcquire (a : BitVec 7) (n : Nat) : Statement (.mutexAcquire a n) := of_none _ rfl
theorem mutexRelease (n : Nat) : Statement (.mutexRelease n) := of_none _ rfl
theorem mutexTry (a : BitVec 7) (n : Nat) : Statement (.mutexTry a n) := of_none _ rfl
theorem mutexConfigure (n : Nat) (v : BitVec 64) : Statement (.mutexConfigure n v) := of_none _ rfl
theorem eventWait (a : BitVec 7) (n : Nat) : Statement (.eventWait a n) := of_none _ rfl
theorem eventSet (n : Nat) (v : BitVec 64) : Statement (.eventSet n v) := of_none _ rfl
theorem eventClear (n : Nat) : Statement (.eventClear n) := of_none _ rfl
theorem eventConfigure (n : Nat) (v : BitVec 64) : Statement (.eventConfigure n v) := of_none _ rfl
theorem barrierRelease (cl : Nat) (n : Nat) : Statement (.barrierRelease cl n) := of_none _ rfl
theorem barrierParentArrival (cl : Nat) (n : Nat) : Statement (.barrierParentArrival cl n) := of_none _ rfl
theorem mutexGrant (cl : Nat) (n : Nat) : Statement (.mutexGrant cl n) := of_none _ rfl
theorem convoyIssue (hk : Nat) : Statement (.convoyIssue hk) := of_none _ rfl
theorem asyncTrap (hk : Nat) : Statement (.asyncTrap hk) := of_none _ rfl
theorem hintStallExpiry (hk : Nat) : Statement (.hintStallExpiry hk) := of_none _ rfl
theorem loadDataReturn (op : Nat) : Statement (.loadDataReturn op) := of_none _ rfl
theorem memoryOpPerformed (op : Nat) : Statement (.memoryOpPerformed op) := of_none _ rfl
theorem remoteRefusal (op : Nat) : Statement (.remoteRefusal op) := of_none _ rfl
theorem belayWake (cl : Nat) (loc : Nat) : Statement (.belayWake cl loc) := of_none _ rfl
theorem messageArrival (m : Nat) : Statement (.messageArrival m) := of_none _ rfl
theorem sendRoom (hk : Nat) : Statement (.sendRoom hk) := of_none _ rfl
theorem twaitExpiry (hk : Nat) : Statement (.twaitExpiry hk) := of_none _ rfl
theorem childEnded (uid : Nat) : Statement (.childEnded uid) := of_none _ rfl
theorem ordbRelease (hk : Nat) : Statement (.ordbRelease hk) := of_none _ rfl
theorem ordtmoExpiry (hk : Nat) : Statement (.ordtmoExpiry hk) := of_none _ rfl
theorem ropeForm (hk : Nat) : Statement (.ropeForm hk) := of_none _ rfl
theorem rbarRelease (hk : Nat) : Statement (.rbarRelease hk) := of_none _ rfl
theorem mstSlotBoundary (ck : Nat) : Statement (.mstSlotBoundary ck) := of_none _ rfl
theorem translationRequest (hk : Nat) (va : BitVec 64) (k : Nat) : Statement (.translationRequest hk va k) := of_none _ rfl
theorem fillc (cl : Nat) (v : BitVec 64) : Statement (.fillc cl v) := of_none _ rfl
theorem twekick (ck : Nat) (v : BitVec 64) : Statement (.twekick ck v) := of_none _ rfl
theorem transferComplete (ck : Nat) : Statement (.transferComplete ck) := of_none _ rfl
theorem engineFence (ck : Nat) : Statement (.engineFence ck) := of_none _ rfl
theorem repkick (v : BitVec 64) : Statement (.repkick v) := of_none _ rfl
theorem reprojectionDone (dev : Nat) : Statement (.reprojectionDone dev) := of_none _ rfl
theorem doorbell (dk : Nat) (sqn : Nat) (v : BitVec 64) (host : Bool) : Statement (.doorbell dk sqn v host) := of_none _ rfl
theorem fwctlWrite (ck : Nat) (v : BitVec 64) : Statement (.fwctlWrite ck v) := of_none _ rfl
theorem dispatchCycle (dk : Nat) : Statement (.dispatchCycle dk) := of_none _ rfl
theorem tileResident (ck : Nat) (id : Nat) : Statement (.tileResident ck id) := of_none _ rfl
theorem queueRoom (q : Nat) : Statement (.queueRoom q) := of_none _ rfl
theorem cancelToken (id : Nat) : Statement (.cancelToken id) := of_none _ rfl
theorem commitRelease (d : Nat) : Statement (.commitRelease d) := of_none _ rfl
theorem commitPerformed (uid : Nat) : Statement (.commitPerformed uid) := of_none _ rfl
theorem preemptMessage (ck : Nat) (t : BitVec 64) : Statement (.preemptMessage ck t) := of_none _ rfl
theorem preemptDeadline (ck : Nat) : Statement (.preemptDeadline ck) := of_none _ rfl
theorem contextReturn (p : Nat × Nat) : Statement (.contextReturn p) := of_none _ rfl
theorem startMessage (hk : Nat) (v : BitVec 64) : Statement (.startMessage hk v) := of_none _ rfl
theorem wakeMessage (hk : Nat) : Statement (.wakeMessage hk) := of_none _ rfl
theorem classifierTriangle (dk : Nat) : Statement (.classifierTriangle dk) := of_none _ rfl
theorem classifierRoom (dk : Nat) : Statement (.classifierRoom dk) := of_none _ rfl
theorem submissionEntry (sq : Nat) : Statement (.submissionEntry sq) := of_none _ rfl
theorem launchNode (w : Nat) : Statement (.launchNode w) := of_none _ rfl
theorem copyNode (w : Nat) : Statement (.copyNode w) := of_none _ rfl
theorem signalNode (w : Nat) : Statement (.signalNode w) := of_none _ rfl
theorem waitNode (w : Nat) : Statement (.waitNode w) := of_none _ rfl
theorem timedNode (w : Nat) : Statement (.timedNode w) := of_none _ rfl
theorem condNode (w : Nat) : Statement (.condNode w) := of_none _ rfl
theorem loopNode (w : Nat) : Statement (.loopNode w) := of_none _ rfl
theorem indirectNode (w : Nat) : Statement (.indirectNode w) := of_none _ rfl
theorem endNode (w : Nat) : Statement (.endNode w) := of_none _ rfl
theorem launchEnd (id : Nat) : Statement (.launchEnd id) := of_none _ rfl
theorem ctxnew (id : Nat) : Statement (.ctxnew id) := of_none _ rfl
theorem ctxdel (id : Nat) : Statement (.ctxdel id) := of_none _ rfl
theorem qnew (id : Nat) : Statement (.qnew id) := of_none _ rfl
theorem qdel (id : Nat) : Statement (.qdel id) := of_none _ rfl
theorem sqnew (id : Nat) : Statement (.sqnew id) := of_none _ rfl
theorem sqdel (id : Nat) : Statement (.sqdel id) := of_none _ rfl
theorem mapPages (id : Nat) : Statement (.mapPages id) := of_none _ rfl
theorem unmap (id : Nat) : Statement (.unmap id) := of_none _ rfl
theorem migrate (id : Nat) : Statement (.migrate id) := of_none _ rfl
theorem tdopen (id : Nat) : Statement (.tdopen id) := of_none _ rfl
theorem tdclose (id : Nat) : Statement (.tdclose id) := of_none _ rfl
theorem drawopen (id : Nat) : Statement (.drawopen id) := of_none _ rfl
theorem drawseal (id : Nat) : Statement (.drawseal id) := of_none _ rfl
theorem drawclose (id : Nat) : Statement (.drawclose id) := of_none _ rfl
theorem sqreset (id : Nat) : Statement (.sqreset id) := of_none _ rfl
theorem fwupdate (id : Nat) : Statement (.fwupdate id) := of_none _ rfl
theorem rehomeReply (op : Nat) : Statement (.rehomeReply op) := of_none _ rfl
theorem hello (src : Nat) (dst : Nat) (lo : Nat) (hi : Nat) : Statement (.hello src dst lo hi) := of_none _ rfl
theorem firmwareMailboxMessage (src : Nat) (dst : Nat) (m : Nat) : Statement (.firmwareMailboxMessage src dst m) := of_none _ rfl
theorem moduleReset (dev : Nat) : Statement (.moduleReset dev) := of_none _ rfl
theorem dieReset (dk : Nat) : Statement (.dieReset dk) := of_none _ rfl
theorem uncorrectableError (k : Nat) (x : Nat) : Statement (.uncorrectableError k x) := of_none _ rfl
theorem parityError (hk : Nat) (again : Bool) : Statement (.parityError hk again) := of_none _ rfl
theorem linkTrain (dev : Nat) (port : Nat) (peer : Nat) : Statement (.linkTrain dev port peer) := of_none _ rfl
theorem linkDown (dev : Nat) (port : Nat) : Statement (.linkDown dev port) := of_none _ rfl
theorem flitReplay (dev : Nat) (port : Nat) : Statement (.flitReplay dev port) := of_none _ rfl
theorem tbStep : Statement .tbStep := of_none _ rfl
theorem fabricAccess (x : FabricEvent) : Statement (.fabricAccess x) := of_none _ rfl
theorem rdmaWrite (a : Nat) (n : Nat) (v : Nat) : Statement (.rdmaWrite a n v) := of_none _ rfl
theorem rdmaRead (a : Nat) (n : Nat) : Statement (.rdmaRead a n) := of_none _ rfl
theorem roceSend (n : Nat) (v : Nat) : Statement (.roceSend n v) := of_none _ rfl
theorem roceCompareAndSwap (a : Nat) (t : BitVec 64) (v : BitVec 64) : Statement (.roceCompareAndSwap a t v) := of_none _ rfl
theorem roceFetchAndAdd (a : Nat) (v : BitVec 64) : Statement (.roceFetchAndAdd a v) := of_none _ rfl
theorem hostAccess (wr : Bool) (a : Nat) (n : Nat) (v : Nat) : Statement (.hostAccess wr a n v) := of_none _ rfl
theorem clockStepDown (dk : Nat) : Statement (.clockStepDown dk) := of_none _ rfl
theorem clockStepUp (dk : Nat) : Statement (.clockStepUp dk) := of_none _ rfl
theorem thermalShutdown (dev : Nat) : Statement (.thermalShutdown dev) := of_none _ rfl
theorem lifetimeRecordWrite (dev : Nat) : Statement (.lifetimeRecordWrite dev) := of_none _ rfl
theorem lifetimeRecordRefresh (dev : Nat) : Statement (.lifetimeRecordRefresh dev) := of_none _ rfl
theorem matrixInstructionComplete (ck : Nat) : Statement (.matrixInstructionComplete ck) := of_none _ rfl
theorem correctedError (dk : Nat) (g : Nat) : Statement (.correctedError dk g) := of_none _ rfl
theorem orderlyShutdown (dev : Nat) : Statement (.orderlyShutdown dev) := of_none _ rfl
theorem smbusManagementWrite (dev : Nat) (tab : List (BitVec 8)) (img : List (BitVec 8)) : Statement (.smbusManagementWrite dev tab img) := of_none _ rfl
theorem add (a : BitVec 7) (b : BitVec 7) (c : BitVec 7) : Statement (.add a b c) :=
  of_pack _ _ _ _ _ _ _ (by decide) (by decide) rfl rfl
theorem sub (a : BitVec 7) (b : BitVec 7) (c : BitVec 7) : Statement (.sub a b c) :=
  of_pack _ _ _ _ _ _ _ (by decide) (by decide) rfl rfl
theorem mul (a : BitVec 7) (b : BitVec 7) (c : BitVec 7) : Statement (.mul a b c) :=
  of_pack _ _ _ _ _ _ _ (by decide) (by decide) rfl rfl
theorem mulhs (a : BitVec 7) (b : BitVec 7) (c : BitVec 7) : Statement (.mulhs a b c) :=
  of_pack _ _ _ _ _ _ _ (by decide) (by decide) rfl rfl
theorem mulhz (a : BitVec 7) (b : BitVec 7) (c : BitVec 7) : Statement (.mulhz a b c) :=
  of_pack _ _ _ _ _ _ _ (by decide) (by decide) rfl rfl
theorem madd (a : BitVec 7) (b : BitVec 7) (c : BitVec 7) : Statement (.madd a b c) :=
  of_pack _ _ _ _ _ _ _ (by decide) (by decide) rfl rfl
theorem divs (a : BitVec 7) (b : BitVec 7) (c : BitVec 7) : Statement (.divs a b c) :=
  of_pack _ _ _ _ _ _ _ (by decide) (by decide) rfl rfl
theorem divz (a : BitVec 7) (b : BitVec 7) (c : BitVec 7) : Statement (.divz a b c) :=
  of_pack _ _ _ _ _ _ _ (by decide) (by decide) rfl rfl
theorem rems (a : BitVec 7) (b : BitVec 7) (c : BitVec 7) : Statement (.rems a b c) :=
  of_pack _ _ _ _ _ _ _ (by decide) (by decide) rfl rfl
theorem remz (a : BitVec 7) (b : BitVec 7) (c : BitVec 7) : Statement (.remz a b c) :=
  of_pack _ _ _ _ _ _ _ (by decide) (by decide) rfl rfl
theorem andReg (a : BitVec 7) (b : BitVec 7) (c : BitVec 7) : Statement (.andReg a b c) :=
  of_pack _ _ _ _ _ _ _ (by decide) (by decide) rfl rfl
theorem orReg (a : BitVec 7) (b : BitVec 7) (c : BitVec 7) : Statement (.orReg a b c) :=
  of_pack _ _ _ _ _ _ _ (by decide) (by decide) rfl rfl
theorem xorReg (a : BitVec 7) (b : BitVec 7) (c : BitVec 7) : Statement (.xorReg a b c) :=
  of_pack _ _ _ _ _ _ _ (by decide) (by decide) rfl rfl
theorem andn (a : BitVec 7) (b : BitVec 7) (c : BitVec 7) : Statement (.andn a b c) :=
  of_pack _ _ _ _ _ _ _ (by decide) (by decide) rfl rfl
theorem shl (a : BitVec 7) (b : BitVec 7) (c : BitVec 7) : Statement (.shl a b c) :=
  of_pack _ _ _ _ _ _ _ (by decide) (by decide) rfl rfl
theorem shrs (a : BitVec 7) (b : BitVec 7) (c : BitVec 7) : Statement (.shrs a b c) :=
  of_pack _ _ _ _ _ _ _ (by decide) (by decide) rfl rfl
theorem shrz (a : BitVec 7) (b : BitVec 7) (c : BitVec 7) : Statement (.shrz a b c) :=
  of_pack _ _ _ _ _ _ _ (by decide) (by decide) rfl rfl
theorem rotl (a : BitVec 7) (b : BitVec 7) (c : BitVec 7) : Statement (.rotl a b c) :=
  of_pack _ _ _ _ _ _ _ (by decide) (by decide) rfl rfl
theorem rotr (a : BitVec 7) (b : BitVec 7) (c : BitVec 7) : Statement (.rotr a b c) :=
  of_pack _ _ _ _ _ _ _ (by decide) (by decide) rfl rfl
theorem addiShort (a : BitVec 7) (i : BitVec 14) : Statement (.addiShort a i) :=
  of_pack _ _ _ _ _ _ _ (by decide) (by decide) rfl (congrArg (fun k => DecodeResult.ok (.addiShort a k)) (imm_halves i))
theorem addiLong (a : BitVec 7) (b : BitVec 7) (e : BitVec 32) : Statement (.addiLong a b e) :=
  of_pack _ _ _ _ _ _ _ (by decide) (by decide) rfl rfl
theorem andiShort (a : BitVec 7) (i : BitVec 14) : Statement (.andiShort a i) :=
  of_pack _ _ _ _ _ _ _ (by decide) (by decide) rfl (congrArg (fun k => DecodeResult.ok (.andiShort a k)) (imm_halves i))
theorem andiLong (a : BitVec 7) (b : BitVec 7) (e : BitVec 32) : Statement (.andiLong a b e) :=
  of_pack _ _ _ _ _ _ _ (by decide) (by decide) rfl rfl
theorem oriShort (a : BitVec 7) (i : BitVec 14) : Statement (.oriShort a i) :=
  of_pack _ _ _ _ _ _ _ (by decide) (by decide) rfl (congrArg (fun k => DecodeResult.ok (.oriShort a k)) (imm_halves i))
theorem oriLong (a : BitVec 7) (b : BitVec 7) (e : BitVec 32) : Statement (.oriLong a b e) :=
  of_pack _ _ _ _ _ _ _ (by decide) (by decide) rfl rfl
theorem xoriShort (a : BitVec 7) (i : BitVec 14) : Statement (.xoriShort a i) :=
  of_pack _ _ _ _ _ _ _ (by decide) (by decide) rfl (congrArg (fun k => DecodeResult.ok (.xoriShort a k)) (imm_halves i))
theorem xoriLong (a : BitVec 7) (b : BitVec 7) (e : BitVec 32) : Statement (.xoriLong a b e) :=
  of_pack _ _ _ _ _ _ _ (by decide) (by decide) rfl rfl
theorem shliShort (a : BitVec 7) (i : BitVec 14) : Statement (.shliShort a i) :=
  of_pack _ _ _ _ _ _ _ (by decide) (by decide) rfl (congrArg (fun k => DecodeResult.ok (.shliShort a k)) (imm_halves i))
theorem shliLong (a : BitVec 7) (b : BitVec 7) (e : BitVec 32) : Statement (.shliLong a b e) :=
  of_pack _ _ _ _ _ _ _ (by decide) (by decide) rfl rfl
theorem rotriShort (a : BitVec 7) (i : BitVec 14) : Statement (.rotriShort a i) :=
  of_pack _ _ _ _ _ _ _ (by decide) (by decide) rfl (congrArg (fun k => DecodeResult.ok (.rotriShort a k)) (imm_halves i))
theorem rotriLong (a : BitVec 7) (b : BitVec 7) (e : BitVec 32) : Statement (.rotriLong a b e) :=
  of_pack _ _ _ _ _ _ _ (by decide) (by decide) rfl rfl
theorem lih (a : BitVec 7) (b : BitVec 7) (e : BitVec 32) : Statement (.lih a b e) :=
  of_pack _ _ _ _ _ _ _ (by decide) (by decide) rfl rfl
theorem slts (a : BitVec 7) (b : BitVec 7) (c : BitVec 7) : Statement (.slts a b c) :=
  of_pack _ _ _ _ _ _ _ (by decide) (by decide) rfl rfl
theorem sltz (a : BitVec 7) (b : BitVec 7) (c : BitVec 7) : Statement (.sltz a b c) :=
  of_pack _ _ _ _ _ _ _ (by decide) (by decide) rfl rfl
theorem sel (a : BitVec 7) (b : BitVec 7) (c : BitVec 7) : Statement (.sel a b c) :=
  of_pack _ _ _ _ _ _ _ (by decide) (by decide) rfl rfl
theorem mins (a : BitVec 7) (b : BitVec 7) (c : BitVec 7) : Statement (.mins a b c) :=
  of_pack _ _ _ _ _ _ _ (by decide) (by decide) rfl rfl
theorem minz (a : BitVec 7) (b : BitVec 7) (c : BitVec 7) : Statement (.minz a b c) :=
  of_pack _ _ _ _ _ _ _ (by decide) (by decide) rfl rfl
theorem maxs (a : BitVec 7) (b : BitVec 7) (c : BitVec 7) : Statement (.maxs a b c) :=
  of_pack _ _ _ _ _ _ _ (by decide) (by decide) rfl rfl
theorem maxz (a : BitVec 7) (b : BitVec 7) (c : BitVec 7) : Statement (.maxz a b c) :=
  of_pack _ _ _ _ _ _ _ (by decide) (by decide) rfl rfl
theorem clz (a : BitVec 7) (b : BitVec 7) : Statement (.clz a b) :=
  of_pack _ _ _ _ _ _ _ (by decide) (by decide) rfl rfl
theorem ctz (a : BitVec 7) (b : BitVec 7) : Statement (.ctz a b) :=
  of_pack _ _ _ _ _ _ _ (by decide) (by decide) rfl rfl
theorem popc (a : BitVec 7) (b : BitVec 7) : Statement (.popc a b) :=
  of_pack _ _ _ _ _ _ _ (by decide) (by decide) rfl rfl
theorem bswap (a : BitVec 7) (b : BitVec 7) : Statement (.bswap a b) :=
  of_pack _ _ _ _ _ _ _ (by decide) (by decide) rfl rfl
theorem bextsShort (a : BitVec 7) (p : BitVec 6) (l : BitVec 6) : Statement (.bextsShort a p l) :=
  of_pack _ _ _ _ _ _ _ (by decide) (by decide) rfl (decode_bext (fun p l => .bextsShort a p l) p l)
theorem bextsLong (a : BitVec 7) (b : BitVec 7) (e : BitVec 32) : Statement (.bextsLong a b e) :=
  of_pack _ _ _ _ _ _ _ (by decide) (by decide) rfl rfl
theorem bextzShort (a : BitVec 7) (p : BitVec 6) (l : BitVec 6) : Statement (.bextzShort a p l) :=
  of_pack _ _ _ _ _ _ _ (by decide) (by decide) rfl (decode_bext (fun p l => .bextzShort a p l) p l)
theorem bextzLong (a : BitVec 7) (b : BitVec 7) (e : BitVec 32) : Statement (.bextzLong a b e) :=
  of_pack _ _ _ _ _ _ _ (by decide) (by decide) rfl rfl
theorem bins (a : BitVec 7) (b : BitVec 7) (e : BitVec 32) : Statement (.bins a b e) :=
  of_pack _ _ _ _ _ _ _ (by decide) (by decide) rfl rfl
theorem brEqShort (a : BitVec 7) (b : BitVec 7) (o : BitVec 7) : Statement (.brEqShort a b o) :=
  of_pack _ _ _ _ _ _ _ (by decide) (by decide) rfl rfl
theorem brEqLong (a : BitVec 7) (b : BitVec 7) (e : BitVec 32) : Statement (.brEqLong a b e) :=
  of_pack _ _ _ _ _ _ _ (by decide) (by decide) rfl rfl
theorem brNeShort (a : BitVec 7) (b : BitVec 7) (o : BitVec 7) : Statement (.brNeShort a b o) :=
  of_pack _ _ _ _ _ _ _ (by decide) (by decide) rfl rfl
theorem brNeLong (a : BitVec 7) (b : BitVec 7) (e : BitVec 32) : Statement (.brNeLong a b e) :=
  of_pack _ _ _ _ _ _ _ (by decide) (by decide) rfl rfl
theorem brLtsShort (a : BitVec 7) (b : BitVec 7) (o : BitVec 7) : Statement (.brLtsShort a b o) :=
  of_pack _ _ _ _ _ _ _ (by decide) (by decide) rfl rfl
theorem brLtsLong (a : BitVec 7) (b : BitVec 7) (e : BitVec 32) : Statement (.brLtsLong a b e) :=
  of_pack _ _ _ _ _ _ _ (by decide) (by decide) rfl rfl
theorem brGesShort (a : BitVec 7) (b : BitVec 7) (o : BitVec 7) : Statement (.brGesShort a b o) :=
  of_pack _ _ _ _ _ _ _ (by decide) (by decide) rfl rfl
theorem brGesLong (a : BitVec 7) (b : BitVec 7) (e : BitVec 32) : Statement (.brGesLong a b e) :=
  of_pack _ _ _ _ _ _ _ (by decide) (by decide) rfl rfl
theorem brLtzShort (a : BitVec 7) (b : BitVec 7) (o : BitVec 7) : Statement (.brLtzShort a b o) :=
  of_pack _ _ _ _ _ _ _ (by decide) (by decide) rfl rfl
theorem brLtzLong (a : BitVec 7) (b : BitVec 7) (e : BitVec 32) : Statement (.brLtzLong a b e) :=
  of_pack _ _ _ _ _ _ _ (by decide) (by decide) rfl rfl
theorem brGezShort (a : BitVec 7) (b : BitVec 7) (o : BitVec 7) : Statement (.brGezShort a b o) :=
  of_pack _ _ _ _ _ _ _ (by decide) (by decide) rfl rfl
theorem brGezLong (a : BitVec 7) (b : BitVec 7) (e : BitVec 32) : Statement (.brGezLong a b e) :=
  of_pack _ _ _ _ _ _ _ (by decide) (by decide) rfl rfl
theorem brAnyShort (m : BitVec 7) (o : BitVec 7) : Statement (.brAnyShort m o) :=
  of_pack _ _ _ _ _ _ _ (by decide) (by decide) rfl rfl
theorem brAnyLong (m : BitVec 7) (e : BitVec 32) : Statement (.brAnyLong m e) :=
  of_pack _ _ _ _ _ _ _ (by decide) (by decide) rfl rfl
theorem jmpShort (o : BitVec 14) : Statement (.jmpShort o) :=
  of_pack _ _ _ _ _ _ _ (by decide) (by decide) rfl (congrArg (fun k => DecodeResult.ok (.jmpShort k)) (imm_halves o))
theorem jmpLong (e : BitVec 32) : Statement (.jmpLong e) :=
  of_pack _ _ _ _ _ _ _ (by decide) (by decide) rfl rfl
theorem jalShort (a : BitVec 7) (o : BitVec 14) : Statement (.jalShort a o) :=
  of_pack _ _ _ _ _ _ _ (by decide) (by decide) rfl (congrArg (fun k => DecodeResult.ok (.jalShort a k)) (imm_halves o))
theorem jalLong (a : BitVec 7) (e : BitVec 32) : Statement (.jalLong a e) :=
  of_pack _ _ _ _ _ _ _ (by decide) (by decide) rfl rfl
theorem jr (a : BitVec 7) (b : BitVec 7) : Statement (.jr a b) :=
  of_pack _ _ _ _ _ _ _ (by decide) (by decide) rfl rfl
theorem lrotShort (a : BitVec 7) (d : BitVec 7) (o : BitVec 7) : Statement (.lrotShort a d o) :=
  of_pack _ _ _ _ _ _ _ (by decide) (by decide) rfl rfl
theorem lrotLong (a : BitVec 7) (d : BitVec 7) (e : BitVec 32) : Statement (.lrotLong a d e) :=
  of_pack _ _ _ _ _ _ _ (by decide) (by decide) rfl rfl
theorem wbase (s : BitVec 7) (v : BitVec 7) : Statement (.wbase s v) :=
  of_pack _ _ _ _ _ _ _ (by decide) (by decide) rfl rfl
theorem nop : Statement .nop :=
  of_pack _ _ _ _ _ _ _ (by decide) (by decide) rfl rfl
theorem yield : Statement .yield :=
  of_pack _ _ _ _ _ _ _ (by decide) (by decide) rfl rfl
theorem ldsB (a : BitVec 7) (b : BitVec 7) (c : BitVec 7) (e : Option (BitVec 32)) : Statement (.ldsB a b c e) :=
  of_pack _ _ _ _ _ _ _ (by decide) (by decide) rfl (by cases e <;> rfl)
theorem ldsH (a : BitVec 7) (b : BitVec 7) (c : BitVec 7) (e : Option (BitVec 32)) : Statement (.ldsH a b c e) :=
  of_pack _ _ _ _ _ _ _ (by decide) (by decide) rfl (by cases e <;> rfl)
theorem ldsW (a : BitVec 7) (b : BitVec 7) (c : BitVec 7) (e : Option (BitVec 32)) : Statement (.ldsW a b c e) :=
  of_pack _ _ _ _ _ _ _ (by decide) (by decide) rfl (by cases e <;> rfl)
theorem ldzB (a : BitVec 7) (b : BitVec 7) (c : BitVec 7) (e : Option (BitVec 32)) : Statement (.ldzB a b c e) :=
  of_pack _ _ _ _ _ _ _ (by decide) (by decide) rfl (by cases e <;> rfl)
theorem ldzH (a : BitVec 7) (b : BitVec 7) (c : BitVec 7) (e : Option (BitVec 32)) : Statement (.ldzH a b c e) :=
  of_pack _ _ _ _ _ _ _ (by decide) (by decide) rfl (by cases e <;> rfl)
theorem ldzW (a : BitVec 7) (b : BitVec 7) (c : BitVec 7) (e : Option (BitVec 32)) : Statement (.ldzW a b c e) :=
  of_pack _ _ _ _ _ _ _ (by decide) (by decide) rfl (by cases e <;> rfl)
theorem ldD (a : BitVec 7) (b : BitVec 7) (c : BitVec 7) (e : Option (BitVec 32)) : Statement (.ldD a b c e) :=
  of_pack _ _ _ _ _ _ _ (by decide) (by decide) rfl (by cases e <;> rfl)
theorem stB (a : BitVec 7) (b : BitVec 7) (c : BitVec 7) (e : Option (BitVec 32)) : Statement (.stB a b c e) :=
  of_pack _ _ _ _ _ _ _ (by decide) (by decide) rfl (by cases e <;> rfl)
theorem stH (a : BitVec 7) (b : BitVec 7) (c : BitVec 7) (e : Option (BitVec 32)) : Statement (.stH a b c e) :=
  of_pack _ _ _ _ _ _ _ (by decide) (by decide) rfl (by cases e <;> rfl)
theorem stW (a : BitVec 7) (b : BitVec 7) (c : BitVec 7) (e : Option (BitVec 32)) : Statement (.stW a b c e) :=
  of_pack _ _ _ _ _ _ _ (by decide) (by decide) rfl (by cases e <;> rfl)
theorem stD (a : BitVec 7) (b : BitVec 7) (c : BitVec 7) (e : Option (BitVec 32)) : Statement (.stD a b c e) :=
  of_pack _ _ _ _ _ _ _ (by decide) (by decide) rfl (by cases e <;> rfl)
theorem pf (b : BitVec 7) (c : BitVec 7) (e : Option (BitVec 32)) : Statement (.pf b c e) :=
  of_pack _ _ _ _ _ _ _ (by decide) (by decide) rfl (by cases e <;> rfl)
theorem evf (b : BitVec 7) (c : BitVec 7) (e : Option (BitVec 32)) : Statement (.evf b c e) :=
  of_pack _ _ _ _ _ _ _ (by decide) (by decide) rfl (by cases e <;> rfl)
theorem unpin (b : BitVec 7) (c : BitVec 7) (e : Option (BitVec 32)) : Statement (.unpin b c e) :=
  of_pack _ _ _ _ _ _ _ (by decide) (by decide) rfl (by cases e <;> rfl)
theorem vld (a : BitVec 7) (b : BitVec 7) (e : Option (BitVec 32)) : Statement (.vld a b e) :=
  of_pack _ _ _ _ _ _ _ (by decide) (by decide) rfl (by cases e <;> rfl)
theorem vlds (a : BitVec 7) (b : BitVec 7) (c : BitVec 7) (e : Option (BitVec 32)) : Statement (.vlds a b c e) :=
  of_pack _ _ _ _ _ _ _ (by decide) (by decide) rfl (by cases e <;> rfl)
theorem vldx (a : BitVec 7) (b : BitVec 7) (c : BitVec 7) (e : Option (BitVec 32)) : Statement (.vldx a b c e) :=
  of_pack _ _ _ _ _ _ _ (by decide) (by decide) rfl (by cases e <;> rfl)
theorem vldk (a : BitVec 7) (b : BitVec 7) (c : BitVec 7) (e : Option (BitVec 32)) : Statement (.vldk a b c e) :=
  of_pack _ _ _ _ _ _ _ (by decide) (by decide) rfl (by cases e <;> rfl)
theorem vst (a : BitVec 7) (b : BitVec 7) (e : Option (BitVec 32)) : Statement (.vst a b e) :=
  of_pack _ _ _ _ _ _ _ (by decide) (by decide) rfl (by cases e <;> rfl)
theorem vsts (a : BitVec 7) (b : BitVec 7) (c : BitVec 7) (e : Option (BitVec 32)) : Statement (.vsts a b c e) :=
  of_pack _ _ _ _ _ _ _ (by decide) (by decide) rfl (by cases e <;> rfl)
theorem vstx (a : BitVec 7) (b : BitVec 7) (c : BitVec 7) (e : Option (BitVec 32)) : Statement (.vstx a b c e) :=
  of_pack _ _ _ _ _ _ _ (by decide) (by decide) rfl (by cases e <;> rfl)
theorem vsbm (a : BitVec 7) (b : BitVec 7) (e : Option (BitVec 32)) : Statement (.vsbm a b e) :=
  of_pack _ _ _ _ _ _ _ (by decide) (by decide) rfl (by cases e <;> rfl)
theorem vstk (a : BitVec 7) (b : BitVec 7) (c : BitVec 7) (e : Option (BitVec 32)) : Statement (.vstk a b c e) :=
  of_pack _ _ _ _ _ _ _ (by decide) (by decide) rfl (by cases e <;> rfl)
theorem aaddS (a : BitVec 7) (b : BitVec 7) (c : BitVec 7) (e : Option (BitVec 32)) : Statement (.aaddS a b c e) :=
  of_pack _ _ _ _ _ _ _ (by decide) (by decide) rfl (by cases e <;> rfl)
theorem aandS (a : BitVec 7) (b : BitVec 7) (c : BitVec 7) (e : Option (BitVec 32)) : Statement (.aandS a b c e) :=
  of_pack _ _ _ _ _ _ _ (by decide) (by decide) rfl (by cases e <;> rfl)
theorem aorS (a : BitVec 7) (b : BitVec 7) (c : BitVec 7) (e : Option (BitVec 32)) : Statement (.aorS a b c e) :=
  of_pack _ _ _ _ _ _ _ (by decide) (by decide) rfl (by cases e <;> rfl)
theorem axorS (a : BitVec 7) (b : BitVec 7) (c : BitVec 7) (e : Option (BitVec 32)) : Statement (.axorS a b c e) :=
  of_pack _ _ _ _ _ _ _ (by decide) (by decide) rfl (by cases e <;> rfl)
theorem aminS (a : BitVec 7) (b : BitVec 7) (c : BitVec 7) (e : Option (BitVec 32)) : Statement (.aminS a b c e) :=
  of_pack _ _ _ _ _ _ _ (by decide) (by decide) rfl (by cases e <;> rfl)
theorem aminsS (a : BitVec 7) (b : BitVec 7) (c : BitVec 7) (e : Option (BitVec 32)) : Statement (.aminsS a b c e) :=
  of_pack _ _ _ _ _ _ _ (by decide) (by decide) rfl (by cases e <;> rfl)
theorem amaxS (a : BitVec 7) (b : BitVec 7) (c : BitVec 7) (e : Option (BitVec 32)) : Statement (.amaxS a b c e) :=
  of_pack _ _ _ _ _ _ _ (by decide) (by decide) rfl (by cases e <;> rfl)
theorem amaxsS (a : BitVec 7) (b : BitVec 7) (c : BitVec 7) (e : Option (BitVec 32)) : Statement (.amaxsS a b c e) :=
  of_pack _ _ _ _ _ _ _ (by decide) (by decide) rfl (by cases e <;> rfl)
theorem aswapS (a : BitVec 7) (b : BitVec 7) (c : BitVec 7) (e : Option (BitVec 32)) : Statement (.aswapS a b c e) :=
  of_pack _ _ _ _ _ _ _ (by decide) (by decide) rfl (by cases e <;> rfl)
theorem acasS (a : BitVec 7) (b : BitVec 7) (c : BitVec 7) (e : Option (BitVec 32)) : Statement (.acasS a b c e) :=
  of_pack _ _ _ _ _ _ _ (by decide) (by decide) rfl (by cases e <;> rfl)
theorem aaddV (a : BitVec 7) (b : BitVec 7) (c : BitVec 7) (e : Option (BitVec 32)) : Statement (.aaddV a b c e) :=
  of_pack _ _ _ _ _ _ _ (by decide) (by decide) rfl (by cases e <;> rfl)
theorem aandV (a : BitVec 7) (b : BitVec 7) (c : BitVec 7) (e : Option (BitVec 32)) : Statement (.aandV a b c e) :=
  of_pack _ _ _ _ _ _ _ (by decide) (by decide) rfl (by cases e <;> rfl)
theorem aorV (a : BitVec 7) (b : BitVec 7) (c : BitVec 7) (e : Option (BitVec 32)) : Statement (.aorV a b c e) :=
  of_pack _ _ _ _ _ _ _ (by decide) (by decide) rfl (by cases e <;> rfl)
theorem axorV (a : BitVec 7) (b : BitVec 7) (c : BitVec 7) (e : Option (BitVec 32)) : Statement (.axorV a b c e) :=
  of_pack _ _ _ _ _ _ _ (by decide) (by decide) rfl (by cases e <;> rfl)
theorem aminV (a : BitVec 7) (b : BitVec 7) (c : BitVec 7) (e : Option (BitVec 32)) : Statement (.aminV a b c e) :=
  of_pack _ _ _ _ _ _ _ (by decide) (by decide) rfl (by cases e <;> rfl)
theorem aminsV (a : BitVec 7) (b : BitVec 7) (c : BitVec 7) (e : Option (BitVec 32)) : Statement (.aminsV a b c e) :=
  of_pack _ _ _ _ _ _ _ (by decide) (by decide) rfl (by cases e <;> rfl)
theorem amaxV (a : BitVec 7) (b : BitVec 7) (c : BitVec 7) (e : Option (BitVec 32)) : Statement (.amaxV a b c e) :=
  of_pack _ _ _ _ _ _ _ (by decide) (by decide) rfl (by cases e <;> rfl)
theorem amaxsV (a : BitVec 7) (b : BitVec 7) (c : BitVec 7) (e : Option (BitVec 32)) : Statement (.amaxsV a b c e) :=
  of_pack _ _ _ _ _ _ _ (by decide) (by decide) rfl (by cases e <;> rfl)
theorem aswapV (a : BitVec 7) (b : BitVec 7) (c : BitVec 7) (e : Option (BitVec 32)) : Statement (.aswapV a b c e) :=
  of_pack _ _ _ _ _ _ _ (by decide) (by decide) rfl (by cases e <;> rfl)
theorem acasV (a : BitVec 7) (b : BitVec 7) (c : BitVec 7) (e : Option (BitVec 32)) : Statement (.acasV a b c e) :=
  of_pack _ _ _ _ _ _ _ (by decide) (by decide) rfl (by cases e <;> rfl)
theorem cwaitL (i : BitVec 14) : Statement (.cwaitL i) :=
  of_pack _ _ _ _ _ _ _ (by decide) (by decide) rfl (congrArg (fun k => DecodeResult.ok (.cwaitL k)) (imm_halves i))
theorem cwaitS (i : BitVec 14) : Statement (.cwaitS i) :=
  of_pack _ _ _ _ _ _ _ (by decide) (by decide) rfl (congrArg (fun k => DecodeResult.ok (.cwaitS k)) (imm_halves i))
theorem fwait (a : BitVec 7) (b : BitVec 7) (e : Option (BitVec 32)) : Statement (.fwait a b e) :=
  of_pack _ _ _ _ _ _ _ (by decide) (by decide) rfl (by cases e <;> rfl)
theorem vfwait (a : BitVec 7) (b : BitVec 7) (c : BitVec 7) (e : Option (BitVec 32)) : Statement (.vfwait a b c e) :=
  of_pack _ _ _ _ _ _ _ (by decide) (by decide) rfl (by cases e <;> rfl)
theorem ffill (a : BitVec 7) (b : BitVec 7) (c : BitVec 7) (e : Option (BitVec 32)) : Statement (.ffill a b c e) :=
  of_pack _ _ _ _ _ _ _ (by decide) (by decide) rfl (by cases e <;> rfl)
theorem vpf (b : BitVec 7) (e : Option (BitVec 32)) : Statement (.vpf b e) :=
  of_pack _ _ _ _ _ _ _ (by decide) (by decide) rfl (by cases e <;> rfl)
theorem vevf (b : BitVec 7) (e : Option (BitVec 32)) : Statement (.vevf b e) :=
  of_pack _ _ _ _ _ _ _ (by decide) (by decide) rfl (by cases e <;> rfl)
theorem vadd (a : BitVec 7) (b : BitVec 7) (c : BitVec 7) : Statement (.vadd a b c) :=
  of_pack _ _ _ _ _ _ _ (by decide) (by decide) rfl rfl
theorem vsub (a : BitVec 7) (b : BitVec 7) (c : BitVec 7) : Statement (.vsub a b c) :=
  of_pack _ _ _ _ _ _ _ (by decide) (by decide) rfl rfl
theorem vmul (a : BitVec 7) (b : BitVec 7) (c : BitVec 7) : Statement (.vmul a b c) :=
  of_pack _ _ _ _ _ _ _ (by decide) (by decide) rfl rfl
theorem vmulhs (a : BitVec 7) (b : BitVec 7) (c : BitVec 7) : Statement (.vmulhs a b c) :=
  of_pack _ _ _ _ _ _ _ (by decide) (by decide) rfl rfl
theorem vmulhz (a : BitVec 7) (b : BitVec 7) (c : BitVec 7) : Statement (.vmulhz a b c) :=
  of_pack _ _ _ _ _ _ _ (by decide) (by decide) rfl rfl
theorem vmacc (a : BitVec 7) (b : BitVec 7) (c : BitVec 7) : Statement (.vmacc a b c) :=
  of_pack _ _ _ _ _ _ _ (by decide) (by decide) rfl rfl
theorem vdivs (a : BitVec 7) (b : BitVec 7) (c : BitVec 7) : Statement (.vdivs a b c) :=
  of_pack _ _ _ _ _ _ _ (by decide) (by decide) rfl rfl
theorem vdivz (a : BitVec 7) (b : BitVec 7) (c : BitVec 7) : Statement (.vdivz a b c) :=
  of_pack _ _ _ _ _ _ _ (by decide) (by decide) rfl rfl
theorem vrems (a : BitVec 7) (b : BitVec 7) (c : BitVec 7) : Statement (.vrems a b c) :=
  of_pack _ _ _ _ _ _ _ (by decide) (by decide) rfl rfl
theorem vremz (a : BitVec 7) (b : BitVec 7) (c : BitVec 7) : Statement (.vremz a b c) :=
  of_pack _ _ _ _ _ _ _ (by decide) (by decide) rfl rfl
theorem vand (a : BitVec 7) (b : BitVec 7) (c : BitVec 7) : Statement (.vand a b c) :=
  of_pack _ _ _ _ _ _ _ (by decide) (by decide) rfl rfl
theorem vor (a : BitVec 7) (b : BitVec 7) (c : BitVec 7) : Statement (.vor a b c) :=
  of_pack _ _ _ _ _ _ _ (by decide) (by decide) rfl rfl
theorem vxor (a : BitVec 7) (b : BitVec 7) (c : BitVec 7) : Statement (.vxor a b c) :=
  of_pack _ _ _ _ _ _ _ (by decide) (by decide) rfl rfl
theorem vandn (a : BitVec 7) (b : BitVec 7) (c : BitVec 7) : Statement (.vandn a b c) :=
  of_pack _ _ _ _ _ _ _ (by decide) (by decide) rfl rfl
theorem vshl (a : BitVec 7) (b : BitVec 7) (c : BitVec 7) : Statement (.vshl a b c) :=
  of_pack _ _ _ _ _ _ _ (by decide) (by decide) rfl rfl
theorem vshrs (a : BitVec 7) (b : BitVec 7) (c : BitVec 7) : Statement (.vshrs a b c) :=
  of_pack _ _ _ _ _ _ _ (by decide) (by decide) rfl rfl
theorem vshrz (a : BitVec 7) (b : BitVec 7) (c : BitVec 7) : Statement (.vshrz a b c) :=
  of_pack _ _ _ _ _ _ _ (by decide) (by decide) rfl rfl
theorem vmins (a : BitVec 7) (b : BitVec 7) (c : BitVec 7) : Statement (.vmins a b c) :=
  of_pack _ _ _ _ _ _ _ (by decide) (by decide) rfl rfl
theorem vminz (a : BitVec 7) (b : BitVec 7) (c : BitVec 7) : Statement (.vminz a b c) :=
  of_pack _ _ _ _ _ _ _ (by decide) (by decide) rfl rfl
theorem vmaxs (a : BitVec 7) (b : BitVec 7) (c : BitVec 7) : Statement (.vmaxs a b c) :=
  of_pack _ _ _ _ _ _ _ (by decide) (by decide) rfl rfl
theorem vmaxz (a : BitVec 7) (b : BitVec 7) (c : BitVec 7) : Statement (.vmaxz a b c) :=
  of_pack _ _ _ _ _ _ _ (by decide) (by decide) rfl rfl
theorem vsadds (a : BitVec 7) (b : BitVec 7) (c : BitVec 7) : Statement (.vsadds a b c) :=
  of_pack _ _ _ _ _ _ _ (by decide) (by decide) rfl rfl
theorem vsaddz (a : BitVec 7) (b : BitVec 7) (c : BitVec 7) : Statement (.vsaddz a b c) :=
  of_pack _ _ _ _ _ _ _ (by decide) (by decide) rfl rfl
theorem vssubs (a : BitVec 7) (b : BitVec 7) (c : BitVec 7) : Statement (.vssubs a b c) :=
  of_pack _ _ _ _ _ _ _ (by decide) (by decide) rfl rfl
theorem vssubz (a : BitVec 7) (b : BitVec 7) (c : BitVec 7) : Statement (.vssubz a b c) :=
  of_pack _ _ _ _ _ _ _ (by decide) (by decide) rfl rfl
theorem vfma (a : BitVec 7) (b : BitVec 7) (c : BitVec 7) : Statement (.vfma a b c) :=
  of_pack _ _ _ _ _ _ _ (by decide) (by decide) rfl rfl
theorem vfadd (a : BitVec 7) (b : BitVec 7) (c : BitVec 7) : Statement (.vfadd a b c) :=
  of_pack _ _ _ _ _ _ _ (by decide) (by decide) rfl rfl
theorem vfsub (a : BitVec 7) (b : BitVec 7) (c : BitVec 7) : Statement (.vfsub a b c) :=
  of_pack _ _ _ _ _ _ _ (by decide) (by decide) rfl rfl
theorem vfmul (a : BitVec 7) (b : BitVec 7) (c : BitVec 7) : Statement (.vfmul a b c) :=
  of_pack _ _ _ _ _ _ _ (by decide) (by decide) rfl rfl
theorem vfdiv (a : BitVec 7) (b : BitVec 7) (c : BitVec 7) : Statement (.vfdiv a b c) :=
  of_pack _ _ _ _ _ _ _ (by decide) (by decide) rfl rfl
theorem vfsqrt (a : BitVec 7) (b : BitVec 7) : Statement (.vfsqrt a b) :=
  of_pack _ _ _ _ _ _ _ (by decide) (by decide) rfl rfl
theorem vfrcpe (a : BitVec 7) (b : BitVec 7) : Statement (.vfrcpe a b) :=
  of_pack _ _ _ _ _ _ _ (by decide) (by decide) rfl rfl
theorem vfrsqe (a : BitVec 7) (b : BitVec 7) : Statement (.vfrsqe a b) :=
  of_pack _ _ _ _ _ _ _ (by decide) (by decide) rfl rfl
theorem vfmin (a : BitVec 7) (b : BitVec 7) (c : BitVec 7) : Statement (.vfmin a b c) :=
  of_pack _ _ _ _ _ _ _ (by decide) (by decide) rfl rfl
theorem vfmax (a : BitVec 7) (b : BitVec 7) (c : BitVec 7) : Statement (.vfmax a b c) :=
  of_pack _ _ _ _ _ _ _ (by decide) (by decide) rfl rfl
theorem vfclass (a : BitVec 7) (b : BitVec 7) : Statement (.vfclass a b) :=
  of_pack _ _ _ _ _ _ _ (by decide) (by decide) rfl rfl
theorem vfabs (a : BitVec 7) (b : BitVec 7) : Statement (.vfabs a b) :=
  of_pack _ _ _ _ _ _ _ (by decide) (by decide) rfl rfl
theorem vfneg (a : BitVec 7) (b : BitVec 7) : Statement (.vfneg a b) :=
  of_pack _ _ _ _ _ _ _ (by decide) (by decide) rfl rfl
theorem vfsgnj (a : BitVec 7) (b : BitVec 7) (c : BitVec 7) : Statement (.vfsgnj a b c) :=
  of_pack _ _ _ _ _ _ _ (by decide) (by decide) rfl rfl
theorem vcmpeq (a : BitVec 7) (b : BitVec 7) (c : BitVec 7) : Statement (.vcmpeq a b c) :=
  of_pack _ _ _ _ _ _ _ (by decide) (by decide) rfl rfl
theorem vcmpne (a : BitVec 7) (b : BitVec 7) (c : BitVec 7) : Statement (.vcmpne a b c) :=
  of_pack _ _ _ _ _ _ _ (by decide) (by decide) rfl rfl
theorem vcmplts (a : BitVec 7) (b : BitVec 7) (c : BitVec 7) : Statement (.vcmplts a b c) :=
  of_pack _ _ _ _ _ _ _ (by decide) (by decide) rfl rfl
theorem vcmpltz (a : BitVec 7) (b : BitVec 7) (c : BitVec 7) : Statement (.vcmpltz a b c) :=
  of_pack _ _ _ _ _ _ _ (by decide) (by decide) rfl rfl
theorem vcmples (a : BitVec 7) (b : BitVec 7) (c : BitVec 7) : Statement (.vcmples a b c) :=
  of_pack _ _ _ _ _ _ _ (by decide) (by decide) rfl rfl
theorem vcmplez (a : BitVec 7) (b : BitVec 7) (c : BitVec 7) : Statement (.vcmplez a b c) :=
  of_pack _ _ _ _ _ _ _ (by decide) (by decide) rfl rfl
theorem vfcmpeq (a : BitVec 7) (b : BitVec 7) (c : BitVec 7) : Statement (.vfcmpeq a b c) :=
  of_pack _ _ _ _ _ _ _ (by decide) (by decide) rfl rfl
theorem vfcmplt (a : BitVec 7) (b : BitVec 7) (c : BitVec 7) : Statement (.vfcmplt a b c) :=
  of_pack _ _ _ _ _ _ _ (by decide) (by decide) rfl rfl
theorem vfcmple (a : BitVec 7) (b : BitVec 7) (c : BitVec 7) : Statement (.vfcmple a b c) :=
  of_pack _ _ _ _ _ _ _ (by decide) (by decide) rfl rfl
theorem vfcmpun (a : BitVec 7) (b : BitVec 7) (c : BitVec 7) : Statement (.vfcmpun a b c) :=
  of_pack _ _ _ _ _ _ _ (by decide) (by decide) rfl rfl
theorem vfcvt (a : BitVec 7) (b : BitVec 7) (c : BitVec 7) : Statement (.vfcvt a b c) :=
  of_pack _ _ _ _ _ _ _ (by decide) (by decide) rfl rfl
theorem vfcvts (a : BitVec 7) (b : BitVec 7) (c : BitVec 7) : Statement (.vfcvts a b c) :=
  of_pack _ _ _ _ _ _ _ (by decide) (by decide) rfl rfl
theorem vfcvtz (a : BitVec 7) (b : BitVec 7) (c : BitVec 7) : Statement (.vfcvtz a b c) :=
  of_pack _ _ _ _ _ _ _ (by decide) (by decide) rfl rfl
theorem vfcvtts (a : BitVec 7) (b : BitVec 7) (c : BitVec 7) : Statement (.vfcvtts a b c) :=
  of_pack _ _ _ _ _ _ _ (by decide) (by decide) rfl rfl
theorem vfcvttz (a : BitVec 7) (b : BitVec 7) (c : BitVec 7) : Statement (.vfcvttz a b c) :=
  of_pack _ _ _ _ _ _ _ (by decide) (by decide) rfl rfl
theorem vscvtf (a : BitVec 7) (b : BitVec 7) (c : BitVec 7) : Statement (.vscvtf a b c) :=
  of_pack _ _ _ _ _ _ _ (by decide) (by decide) rfl rfl
theorem vzcvtf (a : BitVec 7) (b : BitVec 7) (c : BitVec 7) : Statement (.vzcvtf a b c) :=
  of_pack _ _ _ _ _ _ _ (by decide) (by decide) rfl rfl
theorem vwidens (a : BitVec 7) (b : BitVec 7) (c : BitVec 7) : Statement (.vwidens a b c) :=
  of_pack _ _ _ _ _ _ _ (by decide) (by decide) rfl rfl
theorem vwidenz (a : BitVec 7) (b : BitVec 7) (c : BitVec 7) : Statement (.vwidenz a b c) :=
  of_pack _ _ _ _ _ _ _ (by decide) (by decide) rfl rfl
theorem vnarrs (a : BitVec 7) (b : BitVec 7) (c : BitVec 7) : Statement (.vnarrs a b c) :=
  of_pack _ _ _ _ _ _ _ (by decide) (by decide) rfl rfl
theorem vnarrz (a : BitVec 7) (b : BitVec 7) (c : BitVec 7) : Statement (.vnarrz a b c) :=
  of_pack _ _ _ _ _ _ _ (by decide) (by decide) rfl rfl
theorem vcmul (a : BitVec 7) (b : BitVec 7) (c : BitVec 7) : Statement (.vcmul a b c) :=
  of_pack _ _ _ _ _ _ _ (by decide) (by decide) rfl rfl
theorem vcmac (a : BitVec 7) (b : BitVec 7) (c : BitVec 7) : Statement (.vcmac a b c) :=
  of_pack _ _ _ _ _ _ _ (by decide) (by decide) rfl rfl
theorem vcconj (a : BitVec 7) (b : BitVec 7) : Statement (.vcconj a b) :=
  of_pack _ _ _ _ _ _ _ (by decide) (by decide) rfl rfl
theorem vcnorm (a : BitVec 7) (b : BitVec 7) : Statement (.vcnorm a b) :=
  of_pack _ _ _ _ _ _ _ (by decide) (by decide) rfl rfl
theorem vmov (a : BitVec 7) (b : BitVec 7) : Statement (.vmov a b) :=
  of_pack _ _ _ _ _ _ _ (by decide) (by decide) rfl rfl
theorem vsplat (a : BitVec 7) (b : BitVec 7) : Statement (.vsplat a b) :=
  of_pack _ _ _ _ _ _ _ (by decide) (by decide) rfl rfl
theorem vmerge (a : BitVec 7) (b : BitVec 7) (c : BitVec 7) : Statement (.vmerge a b c) :=
  of_pack _ _ _ _ _ _ _ (by decide) (by decide) rfl rfl
theorem vslup (a : BitVec 7) (b : BitVec 7) (c : BitVec 7) : Statement (.vslup a b c) :=
  of_pack _ _ _ _ _ _ _ (by decide) (by decide) rfl rfl
theorem vsldn (a : BitVec 7) (b : BitVec 7) (c : BitVec 7) : Statement (.vsldn a b c) :=
  of_pack _ _ _ _ _ _ _ (by decide) (by decide) rfl rfl
theorem vperm (a : BitVec 7) (b : BitVec 7) (c : BitVec 7) : Statement (.vperm a b c) :=
  of_pack _ _ _ _ _ _ _ (by decide) (by decide) rfl rfl
theorem vcomp (a : BitVec 7) (b : BitVec 7) : Statement (.vcomp a b) :=
  of_pack _ _ _ _ _ _ _ (by decide) (by decide) rfl rfl
theorem vexp (a : BitVec 7) (b : BitVec 7) : Statement (.vexp a b) :=
  of_pack _ _ _ _ _ _ _ (by decide) (by decide) rfl rfl
theorem vsh (a : BitVec 7) (b : BitVec 7) (c : BitVec 7) : Statement (.vsh a b c) :=
  of_pack _ _ _ _ _ _ _ (by decide) (by decide) rfl rfl
theorem vfsh (a : BitVec 7) (b : BitVec 7) (c : BitVec 7) : Statement (.vfsh a b c) :=
  of_pack _ _ _ _ _ _ _ (by decide) (by decide) rfl rfl
theorem vrsum (a : BitVec 7) (b : BitVec 7) (c : BitVec 7) : Statement (.vrsum a b c) :=
  of_pack _ _ _ _ _ _ _ (by decide) (by decide) rfl rfl
theorem vrfsum (a : BitVec 7) (b : BitVec 7) (c : BitVec 7) : Statement (.vrfsum a b c) :=
  of_pack _ _ _ _ _ _ _ (by decide) (by decide) rfl rfl
theorem vrmins (a : BitVec 7) (b : BitVec 7) (c : BitVec 7) : Statement (.vrmins a b c) :=
  of_pack _ _ _ _ _ _ _ (by decide) (by decide) rfl rfl
theorem vrminz (a : BitVec 7) (b : BitVec 7) (c : BitVec 7) : Statement (.vrminz a b c) :=
  of_pack _ _ _ _ _ _ _ (by decide) (by decide) rfl rfl
theorem vrmaxs (a : BitVec 7) (b : BitVec 7) (c : BitVec 7) : Statement (.vrmaxs a b c) :=
  of_pack _ _ _ _ _ _ _ (by decide) (by decide) rfl rfl
theorem vrmaxz (a : BitVec 7) (b : BitVec 7) (c : BitVec 7) : Statement (.vrmaxz a b c) :=
  of_pack _ _ _ _ _ _ _ (by decide) (by decide) rfl rfl
theorem vrfmin (a : BitVec 7) (b : BitVec 7) (c : BitVec 7) : Statement (.vrfmin a b c) :=
  of_pack _ _ _ _ _ _ _ (by decide) (by decide) rfl rfl
theorem vrfmax (a : BitVec 7) (b : BitVec 7) (c : BitVec 7) : Statement (.vrfmax a b c) :=
  of_pack _ _ _ _ _ _ _ (by decide) (by decide) rfl rfl
theorem vgmax (a : BitVec 7) (b : BitVec 7) (c : BitVec 7) : Statement (.vgmax a b c) :=
  of_pack _ _ _ _ _ _ _ (by decide) (by decide) rfl rfl
theorem vgsum (a : BitVec 7) (b : BitVec 7) (c : BitVec 7) : Statement (.vgsum a b c) :=
  of_pack _ _ _ _ _ _ _ (by decide) (by decide) rfl rfl
theorem maskAnd (a : BitVec 7) (b : BitVec 7) (c : BitVec 7) : Statement (.maskAnd a b c) :=
  of_pack _ _ _ _ _ _ _ (by decide) (by decide) rfl rfl
theorem maskOr (a : BitVec 7) (b : BitVec 7) (c : BitVec 7) : Statement (.maskOr a b c) :=
  of_pack _ _ _ _ _ _ _ (by decide) (by decide) rfl rfl
theorem maskXor (a : BitVec 7) (b : BitVec 7) (c : BitVec 7) : Statement (.maskXor a b c) :=
  of_pack _ _ _ _ _ _ _ (by decide) (by decide) rfl rfl
theorem maskAndn (a : BitVec 7) (b : BitVec 7) (c : BitVec 7) : Statement (.maskAndn a b c) :=
  of_pack _ _ _ _ _ _ _ (by decide) (by decide) rfl rfl
theorem mclr (a : BitVec 7) : Statement (.mclr a) :=
  of_pack _ _ _ _ _ _ _ (by decide) (by decide) rfl rfl
theorem mset (a : BitVec 7) : Statement (.mset a) :=
  of_pack _ _ _ _ _ _ _ (by decide) (by decide) rfl rfl
theorem mpopc (a : BitVec 7) (b : BitVec 7) : Statement (.mpopc a b) :=
  of_pack _ _ _ _ _ _ _ (by decide) (by decide) rfl rfl
theorem mfirst (a : BitVec 7) (b : BitVec 7) : Statement (.mfirst a b) :=
  of_pack _ _ _ _ _ _ _ (by decide) (by decide) rfl rfl
theorem vgetx (a : BitVec 7) (b : BitVec 7) (c : BitVec 7) : Statement (.vgetx a b c) :=
  of_pack _ _ _ _ _ _ _ (by decide) (by decide) rfl rfl
theorem vputx (a : BitVec 7) (b : BitVec 7) (c : BitVec 7) : Statement (.vputx a b c) :=
  of_pack _ _ _ _ _ _ _ (by decide) (by decide) rfl rfl
theorem fmt (t : BitVec 5) (u : BitVec 1) (x : BitVec 1) (b : BitVec 7) (c : BitVec 7) : Statement (.fmt t u x b c) :=
  of_pack _ _ _ _ _ _ _ (by decide) (by decide) rfl (decode_fmt t u x b c)
theorem mma (a : BitVec 7) (b : BitVec 7) (c : BitVec 7) : Statement (.mma a b c) :=
  of_pack _ _ _ _ _ _ _ (by decide) (by decide) rfl rfl
theorem mmai (a : BitVec 7) (b : BitVec 7) (c : BitVec 7) : Statement (.mmai a b c) :=
  of_pack _ _ _ _ _ _ _ (by decide) (by decide) rfl rfl
theorem mmalX (a : BitVec 7) (b : BitVec 7) (c : BitVec 7) (e : Option (BitVec 32)) : Statement (.mmalX a b c e) :=
  of_pack _ _ _ _ _ _ _ (by decide) (by decide) rfl (by cases e <;> rfl)
theorem mmalA (a : BitVec 7) (b : BitVec 7) (c : BitVec 7) (e : Option (BitVec 32)) : Statement (.mmalA a b c e) :=
  of_pack _ _ _ _ _ _ _ (by decide) (by decide) rfl (by cases e <;> rfl)
theorem ipload (b : BitVec 7) (c : BitVec 7) : Statement (.ipload b c) :=
  of_pack _ _ _ _ _ _ _ (by decide) (by decide) rfl rfl
theorem ipsave (b : BitVec 7) : Statement (.ipsave b) :=
  of_pack _ _ _ _ _ _ _ (by decide) (by decide) rfl rfl
theorem atzero (a : BitVec 7) (b : BitVec 7) : Statement (.atzero a b) :=
  of_pack _ _ _ _ _ _ _ (by decide) (by decide) rfl rfl
theorem atmov (a : BitVec 7) (b : BitVec 7) : Statement (.atmov a b) :=
  of_pack _ _ _ _ _ _ _ (by decide) (by decide) rfl rfl
theorem atload (a : BitVec 7) (b : BitVec 7) (c : BitVec 7) : Statement (.atload a b c) :=
  of_pack _ _ _ _ _ _ _ (by decide) (by decide) rfl rfl
theorem atsave (a : BitVec 7) (b : BitVec 7) : Statement (.atsave a b) :=
  of_pack _ _ _ _ _ _ _ (by decide) (by decide) rfl rfl
theorem attr (a : BitVec 7) : Statement (.attr a) :=
  of_pack _ _ _ _ _ _ _ (by decide) (by decide) rfl rfl
theorem atadd (a : BitVec 7) (b : BitVec 7) : Statement (.atadd a b) :=
  of_pack _ _ _ _ _ _ _ (by decide) (by decide) rfl rfl
theorem atgetF32 (a : BitVec 7) (b : BitVec 7) (c : BitVec 7) : Statement (.atgetF32 a b c) :=
  of_pack _ _ _ _ _ _ _ (by decide) (by decide) rfl rfl
theorem atgetBf16 (a : BitVec 7) (b : BitVec 7) (c : BitVec 7) : Statement (.atgetBf16 a b c) :=
  of_pack _ _ _ _ _ _ _ (by decide) (by decide) rfl rfl
theorem atgetI32 (a : BitVec 7) (b : BitVec 7) (c : BitVec 7) : Statement (.atgetI32 a b c) :=
  of_pack _ _ _ _ _ _ _ (by decide) (by decide) rfl rfl
theorem atputF32 (a : BitVec 7) (b : BitVec 7) (c : BitVec 7) : Statement (.atputF32 a b c) :=
  of_pack _ _ _ _ _ _ _ (by decide) (by decide) rfl rfl
theorem atputI32 (a : BitVec 7) (b : BitVec 7) (c : BitVec 7) : Statement (.atputI32 a b c) :=
  of_pack _ _ _ _ _ _ _ (by decide) (by decide) rfl rfl
theorem xdelta (a : BitVec 7) (b : BitVec 7) (c : BitVec 7) : Statement (.xdelta a b c) :=
  of_pack _ _ _ _ _ _ _ (by decide) (by decide) rfl rfl
theorem xundelta (a : BitVec 7) (b : BitVec 7) (c : BitVec 7) : Statement (.xundelta a b c) :=
  of_pack _ _ _ _ _ _ _ (by decide) (by decide) rfl rfl
theorem xzz (a : BitVec 7) (b : BitVec 7) : Statement (.xzz a b) :=
  of_pack _ _ _ _ _ _ _ (by decide) (by decide) rfl rfl
theorem xunzz (a : BitVec 7) (b : BitVec 7) : Statement (.xunzz a b) :=
  of_pack _ _ _ _ _ _ _ (by decide) (by decide) rfl rfl
theorem xpack (a : BitVec 7) (b : BitVec 7) (c : BitVec 7) : Statement (.xpack a b c) :=
  of_pack _ _ _ _ _ _ _ (by decide) (by decide) rfl rfl
theorem xunpack (a : BitVec 7) (b : BitVec 7) (c : BitVec 7) : Statement (.xunpack a b c) :=
  of_pack _ _ _ _ _ _ _ (by decide) (by decide) rfl rfl
theorem xpackg (a : BitVec 7) (b : BitVec 7) (c : BitVec 7) : Statement (.xpackg a b c) :=
  of_pack _ _ _ _ _ _ _ (by decide) (by decide) rfl rfl
theorem xunpackg (a : BitVec 7) (b : BitVec 7) (c : BitVec 7) : Statement (.xunpackg a b c) :=
  of_pack _ _ _ _ _ _ _ (by decide) (by decide) rfl rfl
theorem xdtab (b : BitVec 7) (c : BitVec 7) : Statement (.xdtab b c) :=
  of_pack _ _ _ _ _ _ _ (by decide) (by decide) rfl rfl
theorem xdec (a : BitVec 7) (b : BitVec 7) (c : BitVec 7) : Statement (.xdec a b c) :=
  of_pack _ _ _ _ _ _ _ (by decide) (by decide) rfl rfl
theorem xquant (a : BitVec 7) (b : BitVec 7) (c : BitVec 7) (e : BitVec 32) : Statement (.xquant a b c e) :=
  of_pack _ _ _ _ _ _ _ (by decide) (by decide) rfl rfl
theorem xdequant (a : BitVec 7) (b : BitVec 7) (c : BitVec 7) (e : BitVec 32) : Statement (.xdequant a b c e) :=
  of_pack _ _ _ _ _ _ _ (by decide) (by decide) rfl rfl
theorem xcrc (a : BitVec 7) (b : BitVec 7) : Statement (.xcrc a b) :=
  of_pack _ _ _ _ _ _ _ (by decide) (by decide) rfl rfl
theorem xcrcf (a : BitVec 7) (b : BitVec 7) : Statement (.xcrcf a b) :=
  of_pack _ _ _ _ _ _ _ (by decide) (by decide) rfl rfl
theorem xtopk (a : BitVec 7) (b : BitVec 7) (c : BitVec 7) : Statement (.xtopk a b c) :=
  of_pack _ _ _ _ _ _ _ (by decide) (by decide) rfl rfl
theorem xbotk (a : BitVec 7) (b : BitVec 7) (c : BitVec 7) : Statement (.xbotk a b c) :=
  of_pack _ _ _ _ _ _ _ (by decide) (by decide) rfl rfl
theorem xkmerge (a : BitVec 7) (b : BitVec 7) (c : BitVec 7) : Statement (.xkmerge a b c) :=
  of_pack _ _ _ _ _ _ _ (by decide) (by decide) rfl rfl
theorem xbkmerge (a : BitVec 7) (b : BitVec 7) (c : BitVec 7) : Statement (.xbkmerge a b c) :=
  of_pack _ _ _ _ _ _ _ (by decide) (by decide) rfl rfl
theorem tspawn (a : BitVec 7) (b : BitVec 7) (c : BitVec 7) : Statement (.tspawn a b c) :=
  of_pack _ _ _ _ _ _ _ (by decide) (by decide) rfl rfl
theorem tend (b : BitVec 7) : Statement (.tend b) :=
  of_pack _ _ _ _ _ _ _ (by decide) (by decide) rfl rfl
theorem tabort (b : BitVec 7) : Statement (.tabort b) :=
  of_pack _ _ _ _ _ _ _ (by decide) (by decide) rfl rfl
theorem tstat (a : BitVec 7) (b : BitVec 7) : Statement (.tstat a b) :=
  of_pack _ _ _ _ _ _ _ (by decide) (by decide) rfl rfl
theorem forkTask (a : BitVec 7) (b : BitVec 7) (c : BitVec 7) : Statement (.forkTask a b c) :=
  of_pack _ _ _ _ _ _ _ (by decide) (by decide) rfl rfl
theorem joinChild (a : BitVec 7) (b : BitVec 7) : Statement (.joinChild a b) :=
  of_pack _ _ _ _ _ _ _ (by decide) (by decide) rfl rfl
theorem joinall (a : BitVec 7) : Statement (.joinall a) :=
  of_pack _ _ _ _ _ _ _ (by decide) (by decide) rfl rfl
theorem cancelInst (b : BitVec 7) : Statement (.cancelInst b) :=
  of_pack _ _ _ _ _ _ _ (by decide) (by decide) rfl rfl
theorem bst (a : BitVec 7) (b : BitVec 7) (c : BitVec 7) (e : BitVec 32) : Statement (.bst a b c e) :=
  of_pack _ _ _ _ _ _ _ (by decide) (by decide) rfl rfl
theorem ordb (b : BitVec 7) : Statement (.ordb b) :=
  of_pack _ _ _ _ _ _ _ (by decide) (by decide) rfl rfl
theorem orde : Statement .orde :=
  of_pack _ _ _ _ _ _ _ (by decide) (by decide) rfl rfl
theorem tkget (a : BitVec 7) (b : BitVec 7) : Statement (.tkget a b) :=
  of_pack _ _ _ _ _ _ _ (by decide) (by decide) rfl rfl
theorem rope (a : BitVec 7) (b : BitVec 7) : Statement (.rope a b) :=
  of_pack _ _ _ _ _ _ _ (by decide) (by decide) rfl rfl
theorem unrope : Statement .unrope :=
  of_pack _ _ _ _ _ _ _ (by decide) (by decide) rfl rfl
theorem rbar (a : BitVec 7) (b : BitVec 7) : Statement (.rbar a b) :=
  of_pack _ _ _ _ _ _ _ (by decide) (by decide) rfl rfl
theorem msend (b : BitVec 7) (c : BitVec 7) : Statement (.msend b c) :=
  of_pack _ _ _ _ _ _ _ (by decide) (by decide) rfl rfl
theorem vmsend (b : BitVec 7) (c : BitVec 7) : Statement (.vmsend b c) :=
  of_pack _ _ _ _ _ _ _ (by decide) (by decide) rfl rfl
theorem mrecv (a : BitVec 7) (b : BitVec 7) : Statement (.mrecv a b) :=
  of_pack _ _ _ _ _ _ _ (by decide) (by decide) rfl rfl
theorem vmrecv (a : BitVec 7) (b : BitVec 7) (c : BitVec 7) : Statement (.vmrecv a b c) :=
  of_pack _ _ _ _ _ _ _ (by decide) (by decide) rfl rfl
theorem mpoll (a : BitVec 7) (b : BitVec 7) : Statement (.mpoll a b) :=
  of_pack _ _ _ _ _ _ _ (by decide) (by decide) rfl rfl
theorem vredq (a : BitVec 7) (b : BitVec 7) (c : BitVec 7) : Statement (.vredq a b c) :=
  of_pack _ _ _ _ _ _ _ (by decide) (by decide) rfl rfl
theorem vredqf (a : BitVec 7) (b : BitVec 7) (c : BitVec 7) : Statement (.vredqf a b c) :=
  of_pack _ _ _ _ _ _ _ (by decide) (by decide) rfl rfl
theorem twait (b : BitVec 7) : Statement (.twait b) :=
  of_pack _ _ _ _ _ _ _ (by decide) (by decide) rfl rfl
theorem twaitd (b : BitVec 7) : Statement (.twaitd b) :=
  of_pack _ _ _ _ _ _ _ (by decide) (by decide) rfl rfl
theorem rbox (a : BitVec 7) (b : BitVec 7) (c : BitVec 7) : Statement (.rbox a b c) :=
  of_pack _ _ _ _ _ _ _ (by decide) (by decide) rfl rfl
theorem rtri (a : BitVec 7) (b : BitVec 7) (c : BitVec 7) : Statement (.rtri a b c) :=
  of_pack _ _ _ _ _ _ _ (by decide) (by decide) rfl rfl
theorem rpush (a : BitVec 7) (b : BitVec 7) (c : BitVec 7) : Statement (.rpush a b c) :=
  of_pack _ _ _ _ _ _ _ (by decide) (by decide) rfl rfl
theorem rpop (a : BitVec 7) (b : BitVec 7) (c : BitVec 7) : Statement (.rpop a b c) :=
  of_pack _ _ _ _ _ _ _ (by decide) (by decide) rfl rfl
theorem rhit (a : BitVec 7) (b : BitVec 7) (c : BitVec 7) : Statement (.rhit a b c) :=
  of_pack _ _ _ _ _ _ _ (by decide) (by decide) rfl rfl
theorem rterm (a : BitVec 7) (b : BitVec 7) : Statement (.rterm a b) :=
  of_pack _ _ _ _ _ _ _ (by decide) (by decide) rfl rfl
theorem rspawn (a : BitVec 7) (b : BitVec 7) (c : BitVec 7) : Statement (.rspawn a b c) :=
  of_pack _ _ _ _ _ _ _ (by decide) (by decide) rfl rfl
theorem rdepth (a : BitVec 7) : Statement (.rdepth a) :=
  of_pack _ _ _ _ _ _ _ (by decide) (by decide) rfl rfl
theorem texBl (a : BitVec 7) (b : BitVec 7) (c : BitVec 7) : Statement (.texBl a b c) :=
  of_pack _ _ _ _ _ _ _ (by decide) (by decide) rfl rfl
theorem texSt (a : BitVec 7) (b : BitVec 7) (c : BitVec 7) : Statement (.texSt a b c) :=
  of_pack _ _ _ _ _ _ _ (by decide) (by decide) rfl rfl
theorem texPt (a : BitVec 7) (b : BitVec 7) (c : BitVec 7) : Statement (.texPt a b c) :=
  of_pack _ _ _ _ _ _ _ (by decide) (by decide) rfl rfl
theorem texq (a : BitVec 7) (b : BitVec 7) (c : BitVec 7) : Statement (.texq a b c) :=
  of_pack _ _ _ _ _ _ _ (by decide) (by decide) rfl rfl
theorem mout (a : BitVec 7) (b : BitVec 7) (c : BitVec 7) : Statement (.mout a b c) :=
  of_pack _ _ _ _ _ _ _ (by decide) (by decide) rfl rfl
theorem mprim (a : BitVec 7) (b : BitVec 7) : Statement (.mprim a b) :=
  of_pack _ _ _ _ _ _ _ (by decide) (by decide) rfl rfl
theorem mend (b : BitVec 7) (c : BitVec 7) : Statement (.mend b c) :=
  of_pack _ _ _ _ _ _ _ (by decide) (by decide) rfl rfl
theorem rast (a : BitVec 7) (b : BitVec 7) (c : BitVec 7) : Statement (.rast a b c) :=
  of_pack _ _ _ _ _ _ _ (by decide) (by decide) rfl rfl
theorem sget (a : BitVec 7) (n : BitVec 12) : Statement (.sget a n) :=
  of_pack _ _ _ _ _ _ _ (by decide) (by decide) rfl (decode_sys (fun n => .sget a n) n)
theorem sset (a : BitVec 7) (n : BitVec 12) : Statement (.sset a n) :=
  of_pack _ _ _ _ _ _ _ (by decide) (by decide) rfl (decode_sys (fun n => .sset a n) n)
theorem sswap (a : BitVec 7) (b : BitVec 7) (e : BitVec 32) : Statement (.sswap a b e) :=
  of_pack _ _ _ _ _ _ _ (by decide) (by decide) rfl rfl
theorem scall (i : BitVec 14) : Statement (.scall i) :=
  of_pack _ _ _ _ _ _ _ (by decide) (by decide) rfl (congrArg (fun k => DecodeResult.ok (.scall k)) (imm_halves i))
theorem eret : Statement .eret :=
  of_pack _ _ _ _ _ _ _ (by decide) (by decide) rfl rfl
theorem brk (i : BitVec 14) : Statement (.brk i) :=
  of_pack _ _ _ _ _ _ _ (by decide) (by decide) rfl (congrArg (fun k => DecodeResult.ok (.brk k)) (imm_halves i))
theorem wfi : Statement .wfi :=
  of_pack _ _ _ _ _ _ _ (by decide) (by decide) rfl rfl
theorem halt : Statement .halt :=
  of_pack _ _ _ _ _ _ _ (by decide) (by decide) rfl rfl
theorem tlbw (a : BitVec 7) (b : BitVec 7) (c : BitVec 7) : Statement (.tlbw a b c) :=
  of_pack _ _ _ _ _ _ _ (by decide) (by decide) rfl rfl
theorem tlbi (b : BitVec 7) (c : BitVec 7) : Statement (.tlbi b c) :=
  of_pack _ _ _ _ _ _ _ (by decide) (by decide) rfl rfl
theorem tlbr (a : BitVec 7) (b : BitVec 7) : Statement (.tlbr a b) :=
  of_pack _ _ _ _ _ _ _ (by decide) (by decide) rfl rfl
theorem hsave (b : BitVec 7) : Statement (.hsave b) :=
  of_pack _ _ _ _ _ _ _ (by decide) (by decide) rfl rfl
theorem hrest (b : BitVec 7) : Statement (.hrest b) :=
  of_pack _ _ _ _ _ _ _ (by decide) (by decide) rfl rfl
theorem pack (b : BitVec 7) (c : BitVec 7) : Statement (.pack b c) :=
  of_pack _ _ _ _ _ _ _ (by decide) (by decide) rfl rfl

end Sys2Proof.Laws.Encoding
end

