-- ==== Sys2Proof/Machine/Rounding.lean ====
section
/-! DEFINITION. Exact values and their one rounding, said in the real numbers: the terms in which claims speak of float
results, of conversions and of the scales of blocks (R45, R46, R49, R54, R59). The machine itself computes on integers. -/
namespace Sys2Proof.Machine

open Sys2Proof

/-- A finite value stands for a real number. -/
def FVal.Is (v : FVal) (x : ℝ) : Prop :=
  match v with
  | .fin n k e => x = (if n then -1 else 1) * (k : ℝ) * (2 : ℝ) ^ e
  | _ => False

/-- k is the integer nearest to x, the even one of two (R5, R45). -/
def NearestEven (x : ℝ) (k : Nat) : Prop := |x - k| ≤ 1 / 2 ∧ (|x - k| = 1 / 2 → k % 2 = 0)

/-- 2^q is the unit of the last place of a magnitude in a format: that of its binade, or of the subnormals (R42, R44). -/
def LastPlace (m : Fmt) (x : ℝ) (q : Int) : Prop :=
  let sub : Int := 1 - (m.bias : Int) - m.mbits
  sub ≤ q ∧ x < (2 : ℝ) ^ (q + m.mbits + 1) ∧ (sub < q → (2 : ℝ) ^ (q + m.mbits) ≤ x)

/-- A magnitude is tiny after rounding: rounded to the format's precision, its exponent unbounded, it stays below the least
normal value (R46). -/
def Tiny (m : Fmt) (x : ℝ) : Prop :=
  ∀ (q : Int) (k : Nat), (2 : ℝ) ^ (q + m.mbits) ≤ x → x < (2 : ℝ) ^ (q + m.mbits + 1) → NearestEven (x / (2 : ℝ) ^ q) k →
    (k : ℝ) * (2 : ℝ) ^ q < (2 : ℝ) ^ (1 - (m.bias : Int))

/-- A non-zero value is rounded once to a format, with NX when that changes it and UF when it is tiny too; one that rounds
beyond the largest finite value, of a sign, gives what `big` says for the sign (R45, R46, R49). -/
def Rounds (m : Fmt) (x : ℝ) (big : Bool → Res) (r : Res) : Prop :=
  ∃ (q : Int) (k : Nat) (n : Bool), LastPlace m |x| q ∧ NearestEven (|x| / (2 : ℝ) ^ q) k ∧ (n = true ↔ x < 0) ∧
    ∀ top : ℝ, (decodeF m m.maxCode).Is top →
      (top < k * (2 : ℝ) ^ q → r = big n) ∧
      (k * (2 : ℝ) ^ q ≤ top → r.sat = false ∧ r.bits < 2 ^ m.width ∧
        (∃ (j : Nat) (e : Int), decodeF m r.bits = .fin n j e ∧ (j : ℝ) * (2 : ℝ) ^ e = k * (2 : ℝ) ^ q) ∧
        (k * (2 : ℝ) ^ q = |x| → r.fl = 0) ∧
        (k * (2 : ℝ) ^ q ≠ |x| → (Tiny m |x| → r.fl = 3) ∧ (¬ Tiny m |x| → r.fl = 1)))

/-- An exact arithmetic result x is rounded once: overflow gives infinity with OF and NX, and a zero has the sign n (R44 to
R46, R111). -/
def Exactly (m : Fmt) (x : ℝ) (n : Bool) (r : Res) : Prop :=
  (x = 0 → r = ⟨signed m n 0, 0, false⟩) ∧ (x ≠ 0 → Rounds m x (fun n => ⟨infCode m n, 5, false⟩) r)

/-- An estimate of the exact value x: rounded once to at most twelve significant bits, no finer than the subnormals, and written
in the format; overflow gives infinity with OF and NX, a tiny inexact result UF and NX, and any other no flag (R113). -/
def Estimates (m : Fmt) (x : ℝ) (r : Res) : Prop :=
  ∃ (q : Int) (k : Nat) (n : Bool), let p : Int := min (m.mbits + 1) 12
    let sub : Int := 1 - (m.bias : Int) - m.mbits
    let v : ℝ := k * (2 : ℝ) ^ q
    sub ≤ q ∧ |x| < (2 : ℝ) ^ (q + p) ∧ (sub < q → (2 : ℝ) ^ (q + p - 1) ≤ |x|) ∧ NearestEven (|x| / (2 : ℝ) ^ q) k ∧
    (n = true ↔ x < 0) ∧ ∀ top : ℝ, (decodeF m m.maxCode).Is top →
      (top < v → r = ⟨infCode m n, 5, false⟩) ∧
      (v ≤ top → r.sat = false ∧ r.bits < 2 ^ m.width ∧
        (∃ (j : Nat) (e : Int), decodeF m r.bits = .fin n j e ∧ (j : ℝ) * (2 : ℝ) ^ e = v) ∧
        r.fl = if v < (2 : ℝ) ^ (1 - (m.bias : Int)) ∧ v ≠ |x| then 3 else 0)

/-- A finite value is converted: overflow gives the largest finite value with its saturation bit and SA, and a zero keeps
its sign (R44, R49). -/
def Converts (m : Fmt) (v : FVal) (x : ℝ) (r : Res) : Prop :=
  (x = 0 → r = ⟨signed m v.neg 0, 0, false⟩) ∧ (x ≠ 0 → Rounds m x (fun n => ⟨signed m n m.maxCode, 32, true⟩) r)

/-- A finite value is converted to an integer t of its own magnitude's sign: rounded to nearest, or towards zero; beyond the
range lo to hi the nearest end; NX when inexact and UF when that gives 0 (R49, R120). -/
def ToInteger (wd : Nat) (lo hi : Int) (tr n : Bool) (x : ℝ) (r : Nat × Nat × Bool) : Prop :=
  ∃ t : Nat, (if tr then (t : ℝ) ≤ |x| ∧ |x| < t + 1 else NearestEven |x| t) ∧
    let z : Int := if n then -(t : Int) else t
    (hi < z → r = (hi.toNat, 32, true)) ∧ (z < lo → r = (wrapInt wd lo, 32, true)) ∧
    (lo ≤ z → z ≤ hi → r.1 = wrapInt wd z ∧ r.2.2 = false ∧ ((t : ℝ) = |x| → r.2.1 = 0) ∧
      ((t : ℝ) ≠ |x| → r.2.1 = if t = 0 then 3 else 1))

/-- The greatest magnitude of some finite values lies in the binade of 2^l. -/
def TopBinade (vs : List FVal) (l : Int) : Prop :=
  (∀ v ∈ vs, ∀ x : ℝ, v.Is x → |x| < (2 : ℝ) ^ (l + 1)) ∧ ∃ v ∈ vs, ∃ x : ℝ, v.Is x ∧ (2 : ℝ) ^ l ≤ |x|

/-- Every magnitude of some finite values, in units of 2^q, rounds to at most m bits (R59). -/
def FitBits (m : Nat) (q : Int) (vs : List FVal) : Prop :=
  ∀ v ∈ vs, ∃ x : ℝ, v.Is x ∧ ∀ k, NearestEven (|x| / (2 : ℝ) ^ q) k → k < 2 ^ m

end Sys2Proof.Machine
end

