-- ==== Sys2Proof/WellFormed.lean ====
section
/-! DEFINITION. Which instructions and steps are well formed, from their fields alone: operand specifiers of the kind the
instruction takes (R70), shift amounts and memory attribute words that no state accepts otherwise (R75, R88), and units
that the node has (R1, R9, R18, R388). -/
namespace Sys2Proof

/-! ## Operand specifiers (R70) -/

/-- A scalar source: s0 to s95, o0 to o15, q0 to q3, pc, vl, zero. -/
def scalarSrc (x : BitVec 7) : Bool := decide (x.toNat ≤ 117 ∨ x.toNat = 127)
/-- A scalar destination: s0 to s95, o0 to o15, zero. -/
def scalarDest (x : BitVec 7) : Bool := decide (x.toNat < 112 ∨ x.toNat = 127)
/-- A vector source: v0 to v95, o0 to o15, q0 to q3, zero. -/
def vectorSrc (x : BitVec 7) : Bool := decide (x.toNat < 116 ∨ x.toNat = 127)
/-- A vector destination: v0 to v95, o0 to o15, zero. -/
def vectorDest (x : BitVec 7) : Bool := decide (x.toNat < 112 ∨ x.toNat = 127)
/-- A mask source: m0 to m7. -/
def maskSrc (x : BitVec 7) : Bool := decide (116 ≤ x.toNat ∧ x.toNat ≤ 123)
/-- A mask destination: m1 to m7 (R17). -/
def maskDest (x : BitVec 7) : Bool := decide (117 ≤ x.toNat ∧ x.toNat ≤ 123)
/-- A tile: at0, at1. -/
def tileSpec (x : BitVec 7) : Bool := decide (x.toNat = 124 ∨ x.toNat = 125)
/-- A specifier of some kind. -/
def someSpec (x : BitVec 7) : Bool := decide (x.toNat ≠ 126)

/-! ## Extension words and immediates (R75, R88) -/

/-- A memory attribute word: bits 5 to 3 are 0, SCOPE is not 7, and W is 0 where the instruction does not use it. -/
def attrWf (usesW : Bool) : Option Word → Bool
  | none => true
  | some x => decide (bits x 5 3 = 0 ∧ bits x 2 0 ≠ 7) && (usesW || !bit x 6)

/-! ## Units of the node (R1, R9, R18) -/

/-- A hart key: a tile's eight harts, a translation service core's two, or above those a tile's engine hart (R8, R172). -/
def hartKey (hk : Nat) : Bool :=
  (decide (hk < 65536) && (decide (hk / 8 % 128 < 96) || (decide (hk / 8 % 128 < 108) && decide (hk % 8 < 2))))
    || (decide (65536 ≤ hk ∧ hk < 73728) && decide (hk % 128 < 96))
/-- A core key. -/
def coreKey (ck : Nat) : Bool := decide (ck < 8192 ∧ ck % 128 < 108)
/-- A cluster key. -/
def clusterKey (cl : Nat) : Bool := decide (cl < 1024 ∧ cl % 16 < 12)
/-- A die key. -/
def dieKey (dk : Nat) : Bool := decide (dk < 64)
/-- A device number. -/
def deviceNo (dev : Nat) : Bool := decide (dev < 8)

/-- An instruction or step is well formed. -/
def WellFormed : Instr → Bool
  | .setLengthRequest a b => scalarDest a && scalarSrc b
  | .vcfgWrite _ | .wbaseWrite _ | .vlWrite _ | .hstatWrite _ => true
  | .accownWrite n _ => decide (n < 2)
  | .atsatClear n _ => decide (n < 2)
  | .mstWrite n _ => decide (n < 16)
  | .tbWrite _ => true
  | .artWrite n _ => decide (n < 8)
  | .registerWrite _ _ => true
  | .barrierArriveWait a n => scalarDest a && decide (n < 64)
  | .barrierQuery a n => scalarDest a && decide (n < 64)
  | .barrierArrive n => decide (n < 64)
  | .barrierConfigure n _ => decide (n < 64)
  | .mutexAcquire a n => scalarDest a && decide (n < 64)
  | .mutexRelease n => decide (n < 64)
  | .mutexTry a n => scalarDest a && decide (n < 64)
  | .mutexConfigure n _ => decide (n < 64)
  | .eventWait a n => scalarDest a && decide (n < 256)
  | .eventSet n _ => decide (n < 256)
  | .eventClear n => decide (n < 256)
  | .eventConfigure n _ => decide (n < 256)
  | .barrierRelease cl n => clusterKey cl && decide (n < 64)
  | .barrierParentArrival cl n => clusterKey cl && decide (n < 64)
  | .mutexGrant cl n => clusterKey cl && decide (n < 64)
  | .convoyIssue hk => hartKey hk
  | .asyncTrap hk => hartKey hk
  | .hintStallExpiry hk => hartKey hk
  | .loadDataReturn _ => true
  | .memoryOpPerformed _ => true
  | .remoteRefusal _ => true
  | .belayWake cl _ => clusterKey cl
  | .messageArrival _ => true
  | .sendRoom hk => hartKey hk
  | .twaitExpiry hk => hartKey hk
  | .childEnded _ => true
  | .ordbRelease hk => hartKey hk
  | .ordtmoExpiry hk => hartKey hk
  | .ropeForm hk => hartKey hk
  | .rbarRelease hk => hartKey hk
  | .mstSlotBoundary ck => coreKey ck
  | .translationRequest hk _ _ => hartKey hk
  | .fillc cl _ => clusterKey cl
  | .twekick ck _ => coreKey ck
  | .transferComplete ck => coreKey ck
  | .engineFence ck => coreKey ck
  | .repkick _ => true
  | .reprojectionDone dev => deviceNo dev
  | .doorbell dk sqn _ _ => dieKey dk && decide (sqn < 4096)
  | .fwctlWrite ck _ => coreKey ck
  | .dispatchCycle dk => dieKey dk
  | .tileResident ck _ => coreKey ck
  | .queueRoom _ | .cancelToken _ | .commitRelease _ | .commitPerformed _ => true
  | .preemptMessage ck _ => coreKey ck
  | .preemptDeadline ck => coreKey ck
  | .contextReturn p => coreKey p.1 && decide (p.2 < 65536)
  | .startMessage hk _ => hartKey hk
  | .wakeMessage hk => hartKey hk
  | .classifierTriangle dk => dieKey dk
  | .classifierRoom dk => dieKey dk
  | .submissionEntry _ | .launchNode _ | .copyNode _ | .signalNode _ | .waitNode _ | .timedNode _ => true
  | .condNode _ | .loopNode _ | .indirectNode _ | .endNode _ | .launchEnd _ | .ctxnew _ => true
  | .ctxdel _ | .qnew _ | .qdel _ | .sqnew _ | .sqdel _ | .mapPages _ => true
  | .unmap _ | .migrate _ | .tdopen _ | .tdclose _ | .drawopen _ | .drawseal _ => true
  | .drawclose _ | .sqreset _ | .fwupdate _ | .rehomeReply _ => true
  | .hello src dst _ _ => dieKey src && dieKey dst
  | .firmwareMailboxMessage src dst _ => dieKey src && dieKey dst
  | .moduleReset dev => deviceNo dev
  | .dieReset dk => dieKey dk
  | .uncorrectableError k _ => decide (k < 20)
  | .parityError hk _ => hartKey hk
  | .linkTrain dev port peer => deviceNo dev && decide (port < 23 ∧ peer < 10)
  | .linkDown dev port => deviceNo dev && decide (port < 23)
  | .flitReplay dev port => deviceNo dev && decide (port < 23)
  | .tbStep | .fabricAccess _ | .rdmaWrite _ _ _ | .rdmaRead _ _ | .roceSend _ _ | .roceCompareAndSwap _ _ _ => true
  | .roceFetchAndAdd _ _ | .hostAccess _ _ _ _ => true
  | .clockStepDown dk => dieKey dk
  | .clockStepUp dk => dieKey dk
  | .thermalShutdown dev => deviceNo dev
  | .lifetimeRecordWrite dev => deviceNo dev
  | .lifetimeRecordRefresh dev => deviceNo dev
  | .matrixInstructionComplete ck => coreKey ck
  | .correctedError dk g => dieKey dk && decide (g < 74)
  | .orderlyShutdown dev => deviceNo dev
  | .smbusManagementWrite dev _ _ => deviceNo dev
  | .add a b c => scalarDest a && scalarSrc b && scalarSrc c
  | .sub a b c => scalarDest a && scalarSrc b && scalarSrc c
  | .mul a b c => scalarDest a && scalarSrc b && scalarSrc c
  | .mulhs a b c => scalarDest a && scalarSrc b && scalarSrc c
  | .mulhz a b c => scalarDest a && scalarSrc b && scalarSrc c
  | .madd a b c => scalarDest a && scalarSrc b && scalarSrc c
  | .divs a b c => scalarDest a && scalarSrc b && scalarSrc c
  | .divz a b c => scalarDest a && scalarSrc b && scalarSrc c
  | .rems a b c => scalarDest a && scalarSrc b && scalarSrc c
  | .remz a b c => scalarDest a && scalarSrc b && scalarSrc c
  | .andReg a b c => scalarDest a && scalarSrc b && scalarSrc c
  | .orReg a b c => scalarDest a && scalarSrc b && scalarSrc c
  | .xorReg a b c => scalarDest a && scalarSrc b && scalarSrc c
  | .andn a b c => scalarDest a && scalarSrc b && scalarSrc c
  | .shl a b c => scalarDest a && scalarSrc b && scalarSrc c
  | .shrs a b c => scalarDest a && scalarSrc b && scalarSrc c
  | .shrz a b c => scalarDest a && scalarSrc b && scalarSrc c
  | .rotl a b c => scalarDest a && scalarSrc b && scalarSrc c
  | .rotr a b c => scalarDest a && scalarSrc b && scalarSrc c
  | .addiShort a _ => scalarDest a
  | .addiLong a b _ => scalarDest a && scalarSrc b
  | .andiShort a _ => scalarDest a
  | .andiLong a b _ => scalarDest a && scalarSrc b
  | .oriShort a _ => scalarDest a
  | .oriLong a b _ => scalarDest a && scalarSrc b
  | .xoriShort a _ => scalarDest a
  | .xoriLong a b _ => scalarDest a && scalarSrc b
  | .shliShort a i => scalarDest a && decide (i.toNat < 64)
  | .shliLong a b e => scalarDest a && scalarSrc b && decide (e.toNat < 64)
  | .rotriShort a i => scalarDest a && decide (i.toNat < 64)
  | .rotriLong a b e => scalarDest a && scalarSrc b && decide (e.toNat < 64)
  | .lih a b _ => scalarDest a && scalarSrc b
  | .slts a b c => scalarDest a && scalarSrc b && scalarSrc c
  | .sltz a b c => scalarDest a && scalarSrc b && scalarSrc c
  | .sel a b c => scalarDest a && scalarSrc b && scalarSrc c
  | .mins a b c => scalarDest a && scalarSrc b && scalarSrc c
  | .minz a b c => scalarDest a && scalarSrc b && scalarSrc c
  | .maxs a b c => scalarDest a && scalarSrc b && scalarSrc c
  | .maxz a b c => scalarDest a && scalarSrc b && scalarSrc c
  | .clz a b => scalarDest a && scalarSrc b
  | .ctz a b => scalarDest a && scalarSrc b
  | .popc a b => scalarDest a && scalarSrc b
  | .bswap a b => scalarDest a && scalarSrc b
  | .bextsShort a _ _ => scalarDest a
  | .bextsLong a b _ => scalarDest a && scalarSrc b
  | .bextzShort a _ _ => scalarDest a
  | .bextzLong a b _ => scalarDest a && scalarSrc b
  | .bins a b _ => scalarDest a && scalarSrc b
  | .brEqShort a b _ => scalarSrc a && scalarSrc b
  | .brEqLong a b _ => scalarSrc a && scalarSrc b
  | .brNeShort a b _ => scalarSrc a && scalarSrc b
  | .brNeLong a b _ => scalarSrc a && scalarSrc b
  | .brLtsShort a b _ => scalarSrc a && scalarSrc b
  | .brLtsLong a b _ => scalarSrc a && scalarSrc b
  | .brGesShort a b _ => scalarSrc a && scalarSrc b
  | .brGesLong a b _ => scalarSrc a && scalarSrc b
  | .brLtzShort a b _ => scalarSrc a && scalarSrc b
  | .brLtzLong a b _ => scalarSrc a && scalarSrc b
  | .brGezShort a b _ => scalarSrc a && scalarSrc b
  | .brGezLong a b _ => scalarSrc a && scalarSrc b
  | .brAnyShort m _ => maskSrc m
  | .brAnyLong m _ => maskSrc m
  | .jmpShort _ => true
  | .jmpLong _ => true
  | .jalShort a _ => scalarDest a
  | .jalLong a _ => scalarDest a
  | .jr a b => scalarDest a && scalarSrc b
  | .lrotShort a _ _ => scalarDest a
  | .lrotLong a _ _ => scalarDest a
  | .wbase _ _ => true
  | .nop => true
  | .yield => true
  | .ldsB a b c e => scalarDest a && scalarSrc b && scalarSrc c && attrWf false e
  | .ldsH a b c e => scalarDest a && scalarSrc b && scalarSrc c && attrWf false e
  | .ldsW a b c e => scalarDest a && scalarSrc b && scalarSrc c && attrWf false e
  | .ldzB a b c e => scalarDest a && scalarSrc b && scalarSrc c && attrWf false e
  | .ldzH a b c e => scalarDest a && scalarSrc b && scalarSrc c && attrWf false e
  | .ldzW a b c e => scalarDest a && scalarSrc b && scalarSrc c && attrWf false e
  | .ldD a b c e => scalarDest a && scalarSrc b && scalarSrc c && attrWf false e
  | .stB a b c e => scalarSrc a && scalarSrc b && scalarSrc c && attrWf false e
  | .stH a b c e => scalarSrc a && scalarSrc b && scalarSrc c && attrWf false e
  | .stW a b c e => scalarSrc a && scalarSrc b && scalarSrc c && attrWf false e
  | .stD a b c e => scalarSrc a && scalarSrc b && scalarSrc c && attrWf false e
  | .pf b c e => scalarSrc b && scalarSrc c && attrWf false e
  | .evf b c e => scalarSrc b && scalarSrc c && attrWf false e
  | .unpin b c e => scalarSrc b && scalarSrc c && attrWf false e
  | .vld a b e => vectorDest a && scalarSrc b && attrWf false e
  | .vlds a b c e => vectorDest a && scalarSrc b && scalarSrc c && attrWf false e
  | .vldx a b c e => vectorDest a && scalarSrc b && vectorSrc c && attrWf false e
  | .vldk a b c e => vectorDest a && scalarSrc b && scalarSrc c && attrWf false e
  | .vst a b e => vectorSrc a && scalarSrc b && attrWf false e
  | .vsts a b c e => vectorSrc a && scalarSrc b && scalarSrc c && attrWf false e
  | .vstx a b c e => vectorSrc a && scalarSrc b && vectorSrc c && attrWf false e
  | .vsbm a b e => vectorSrc a && scalarSrc b && attrWf false e
  | .vstk a b c e => vectorSrc a && scalarSrc b && scalarSrc c && attrWf false e
  | .aaddS a b c e => scalarDest a && scalarSrc b && scalarSrc c && attrWf true e
  | .aandS a b c e => scalarDest a && scalarSrc b && scalarSrc c && attrWf true e
  | .aorS a b c e => scalarDest a && scalarSrc b && scalarSrc c && attrWf true e
  | .axorS a b c e => scalarDest a && scalarSrc b && scalarSrc c && attrWf true e
  | .aminS a b c e => scalarDest a && scalarSrc b && scalarSrc c && attrWf true e
  | .aminsS a b c e => scalarDest a && scalarSrc b && scalarSrc c && attrWf true e
  | .amaxS a b c e => scalarDest a && scalarSrc b && scalarSrc c && attrWf true e
  | .amaxsS a b c e => scalarDest a && scalarSrc b && scalarSrc c && attrWf true e
  | .aswapS a b c e => scalarDest a && scalarSrc b && scalarSrc c && attrWf true e
  | .acasS a b c e => scalarDest a && scalarSrc b && scalarSrc c && attrWf true e
  | .aaddV a b c e => someSpec a && vectorSrc b && vectorSrc c && attrWf true e
  | .aandV a b c e => someSpec a && vectorSrc b && vectorSrc c && attrWf true e
  | .aorV a b c e => someSpec a && vectorSrc b && vectorSrc c && attrWf true e
  | .axorV a b c e => someSpec a && vectorSrc b && vectorSrc c && attrWf true e
  | .aminV a b c e => someSpec a && vectorSrc b && vectorSrc c && attrWf true e
  | .aminsV a b c e => someSpec a && vectorSrc b && vectorSrc c && attrWf true e
  | .amaxV a b c e => someSpec a && vectorSrc b && vectorSrc c && attrWf true e
  | .amaxsV a b c e => someSpec a && vectorSrc b && vectorSrc c && attrWf true e
  | .aswapV a b c e => someSpec a && vectorSrc b && vectorSrc c && attrWf true e
  | .acasV a b c e => someSpec a && vectorSrc b && vectorSrc c && attrWf true e
  | .cwaitL _ => true
  | .cwaitS _ => true
  | .fwait a b e => scalarDest a && scalarSrc b && attrWf false e
  | .vfwait a b c e => scalarDest a && scalarSrc b && vectorSrc c && attrWf false e
  | .ffill a b c e => scalarDest a && scalarSrc b && scalarSrc c && attrWf true e
  | .vpf b e => scalarSrc b && attrWf false e
  | .vevf b e => scalarSrc b && attrWf false e
  | .vadd a b c => vectorDest a && vectorSrc b && vectorSrc c
  | .vsub a b c => vectorDest a && vectorSrc b && vectorSrc c
  | .vmul a b c => vectorDest a && vectorSrc b && vectorSrc c
  | .vmulhs a b c => vectorDest a && vectorSrc b && vectorSrc c
  | .vmulhz a b c => vectorDest a && vectorSrc b && vectorSrc c
  | .vmacc a b c => vectorDest a && vectorSrc b && vectorSrc c
  | .vdivs a b c => vectorDest a && vectorSrc b && vectorSrc c
  | .vdivz a b c => vectorDest a && vectorSrc b && vectorSrc c
  | .vrems a b c => vectorDest a && vectorSrc b && vectorSrc c
  | .vremz a b c => vectorDest a && vectorSrc b && vectorSrc c
  | .vand a b c => vectorDest a && vectorSrc b && vectorSrc c
  | .vor a b c => vectorDest a && vectorSrc b && vectorSrc c
  | .vxor a b c => vectorDest a && vectorSrc b && vectorSrc c
  | .vandn a b c => vectorDest a && vectorSrc b && vectorSrc c
  | .vshl a b c => vectorDest a && vectorSrc b && vectorSrc c
  | .vshrs a b c => vectorDest a && vectorSrc b && vectorSrc c
  | .vshrz a b c => vectorDest a && vectorSrc b && vectorSrc c
  | .vmins a b c => vectorDest a && vectorSrc b && vectorSrc c
  | .vminz a b c => vectorDest a && vectorSrc b && vectorSrc c
  | .vmaxs a b c => vectorDest a && vectorSrc b && vectorSrc c
  | .vmaxz a b c => vectorDest a && vectorSrc b && vectorSrc c
  | .vsadds a b c => vectorDest a && vectorSrc b && vectorSrc c
  | .vsaddz a b c => vectorDest a && vectorSrc b && vectorSrc c
  | .vssubs a b c => vectorDest a && vectorSrc b && vectorSrc c
  | .vssubz a b c => vectorDest a && vectorSrc b && vectorSrc c
  | .vfma a b c => vectorDest a && vectorSrc b && vectorSrc c
  | .vfadd a b c => vectorDest a && vectorSrc b && vectorSrc c
  | .vfsub a b c => vectorDest a && vectorSrc b && vectorSrc c
  | .vfmul a b c => vectorDest a && vectorSrc b && vectorSrc c
  | .vfdiv a b c => vectorDest a && vectorSrc b && vectorSrc c
  | .vfsqrt a b => vectorDest a && vectorSrc b
  | .vfrcpe a b => vectorDest a && vectorSrc b
  | .vfrsqe a b => vectorDest a && vectorSrc b
  | .vfmin a b c => vectorDest a && vectorSrc b && vectorSrc c
  | .vfmax a b c => vectorDest a && vectorSrc b && vectorSrc c
  | .vfclass a b => vectorDest a && vectorSrc b
  | .vfabs a b => vectorDest a && vectorSrc b
  | .vfneg a b => vectorDest a && vectorSrc b
  | .vfsgnj a b c => vectorDest a && vectorSrc b && vectorSrc c
  | .vcmpeq a b c => maskDest a && vectorSrc b && vectorSrc c
  | .vcmpne a b c => maskDest a && vectorSrc b && vectorSrc c
  | .vcmplts a b c => maskDest a && vectorSrc b && vectorSrc c
  | .vcmpltz a b c => maskDest a && vectorSrc b && vectorSrc c
  | .vcmples a b c => maskDest a && vectorSrc b && vectorSrc c
  | .vcmplez a b c => maskDest a && vectorSrc b && vectorSrc c
  | .vfcmpeq a b c => maskDest a && vectorSrc b && vectorSrc c
  | .vfcmplt a b c => maskDest a && vectorSrc b && vectorSrc c
  | .vfcmple a b c => maskDest a && vectorSrc b && vectorSrc c
  | .vfcmpun a b c => maskDest a && vectorSrc b && vectorSrc c
  | .vfcvt a b _ => vectorDest a && vectorSrc b
  | .vfcvts a b _ => vectorDest a && vectorSrc b
  | .vfcvtz a b _ => vectorDest a && vectorSrc b
  | .vfcvtts a b _ => vectorDest a && vectorSrc b
  | .vfcvttz a b _ => vectorDest a && vectorSrc b
  | .vscvtf a b _ => vectorDest a && vectorSrc b
  | .vzcvtf a b _ => vectorDest a && vectorSrc b
  | .vwidens a b _ => vectorDest a && vectorSrc b
  | .vwidenz a b _ => vectorDest a && vectorSrc b
  | .vnarrs a b _ => vectorDest a && vectorSrc b
  | .vnarrz a b _ => vectorDest a && vectorSrc b
  | .vcmul a b c => vectorDest a && vectorSrc b && vectorSrc c
  | .vcmac a b c => vectorDest a && vectorSrc b && vectorSrc c
  | .vcconj a b => vectorDest a && vectorSrc b
  | .vcnorm a b => vectorDest a && vectorSrc b
  | .vmov a b => vectorDest a && vectorSrc b
  | .vsplat a b => vectorDest a && scalarSrc b
  | .vmerge a b c => vectorDest a && vectorSrc b && vectorSrc c
  | .vslup a b c => vectorDest a && vectorSrc b && scalarSrc c
  | .vsldn a b c => vectorDest a && vectorSrc b && scalarSrc c
  | .vperm a b c => vectorDest a && vectorSrc b && vectorSrc c
  | .vcomp a b => vectorDest a && vectorSrc b
  | .vexp a b => vectorDest a && vectorSrc b
  | .vsh a b c => vectorDest a && vectorSrc b && scalarSrc c
  | .vfsh a b c => vectorDest a && vectorSrc b && scalarSrc c
  | .vrsum a b c => scalarDest a && vectorSrc b && scalarSrc c
  | .vrfsum a b c => scalarDest a && vectorSrc b && scalarSrc c
  | .vrmins a b c => scalarDest a && vectorSrc b && scalarSrc c
  | .vrminz a b c => scalarDest a && vectorSrc b && scalarSrc c
  | .vrmaxs a b c => scalarDest a && vectorSrc b && scalarSrc c
  | .vrmaxz a b c => scalarDest a && vectorSrc b && scalarSrc c
  | .vrfmin a b c => scalarDest a && vectorSrc b && scalarSrc c
  | .vrfmax a b c => scalarDest a && vectorSrc b && scalarSrc c
  | .vgmax a b _ => vectorDest a && vectorSrc b
  | .vgsum a b _ => vectorDest a && vectorSrc b
  | .maskAnd a b c => maskDest a && maskSrc b && maskSrc c
  | .maskOr a b c => maskDest a && maskSrc b && maskSrc c
  | .maskXor a b c => maskDest a && maskSrc b && maskSrc c
  | .maskAndn a b c => maskDest a && maskSrc b && maskSrc c
  | .mclr a => maskDest a
  | .mset a => maskDest a
  | .mpopc a b => scalarDest a && maskSrc b
  | .mfirst a b => scalarDest a && maskSrc b
  | .vgetx a b c => scalarDest a && vectorSrc b && scalarSrc c
  | .vputx a b c => vectorDest a && scalarSrc b && scalarSrc c
  | .fmt _ _ _ b c => someSpec b && someSpec c
  | .mma a b c => tileSpec a && vectorSrc b && vectorSrc c
  | .mmai a b c => tileSpec a && vectorSrc b && vectorSrc c
  | .mmalX a b c _ => tileSpec a && vectorSrc b && vectorSrc c
  | .mmalA a b c _ => tileSpec a && vectorSrc b && vectorSrc c
  | .ipload b c => scalarSrc b && scalarSrc c
  | .ipsave b => scalarSrc b
  | .atzero a _ => tileSpec a
  | .atmov a b => tileSpec a && tileSpec b
  | .atload a b _ => tileSpec a && scalarSrc b
  | .atsave a b => tileSpec a && scalarSrc b
  | .attr a => tileSpec a
  | .atadd a b => tileSpec a && tileSpec b
  | .atgetF32 a b c => vectorDest a && tileSpec b && scalarSrc c
  | .atgetBf16 a b c => vectorDest a && tileSpec b && scalarSrc c
  | .atgetI32 a b c => vectorDest a && tileSpec b && scalarSrc c
  | .atputF32 a b c => someSpec a && someSpec b && someSpec c
  | .atputI32 a b c => someSpec a && someSpec b && someSpec c
  | .xdelta a b c => vectorDest a && vectorSrc b && scalarSrc c
  | .xundelta a b c => vectorDest a && vectorSrc b && scalarSrc c
  | .xzz a b => vectorDest a && vectorSrc b
  | .xunzz a b => vectorDest a && vectorSrc b
  | .xpack a b c => vectorDest a && vectorSrc b && scalarSrc c
  | .xunpack a b c => vectorDest a && vectorSrc b && scalarSrc c
  | .xpackg a b c => vectorDest a && vectorSrc b && vectorSrc c
  | .xunpackg a b c => vectorDest a && vectorSrc b && vectorSrc c
  | .xdtab b c => scalarSrc b && scalarSrc c
  | .xdec a b c => vectorDest a && scalarSrc b && scalarSrc c
  | .xquant a b c _ => vectorDest a && vectorSrc b && scalarSrc c
  | .xdequant a b c _ => vectorDest a && vectorSrc b && scalarSrc c
  | .xcrc a b => scalarDest a && vectorSrc b
  | .xcrcf a b => scalarDest a && vectorSrc b
  | .xtopk a b c => vectorDest a && vectorSrc b && scalarSrc c
  | .xbotk a b c => vectorDest a && vectorSrc b && scalarSrc c
  | .xkmerge a b c => vectorDest a && vectorSrc b && vectorSrc c
  | .xbkmerge a b c => vectorDest a && vectorSrc b && vectorSrc c
  | .tspawn a b c => scalarDest a && scalarSrc b && scalarSrc c
  | .tend b => scalarSrc b
  | .tabort b => scalarSrc b
  | .tstat a b => scalarDest a && scalarSrc b
  | .forkTask a b c => scalarDest a && scalarSrc b && scalarSrc c
  | .joinChild a b => scalarDest a && scalarSrc b
  | .joinall a => scalarDest a
  | .cancelInst b => scalarSrc b
  | .bst a b c _ => vectorSrc a && scalarSrc b && vectorSrc c
  | .ordb b => scalarSrc b
  | .orde => true
  | .tkget a b => scalarDest a && scalarSrc b
  | .rope a b => scalarDest a && scalarSrc b
  | .unrope => true
  | .rbar a b => scalarDest a && scalarSrc b
  | .msend b c => scalarSrc b && scalarSrc c
  | .vmsend b c => vectorSrc b && scalarSrc c
  | .mrecv a b => scalarDest a && scalarSrc b
  | .vmrecv a b c => vectorDest a && scalarSrc b && scalarSrc c
  | .mpoll a b => scalarDest a && scalarSrc b
  | .vredq a b c => vectorDest a && scalarSrc b && scalarSrc c
  | .vredqf a b c => vectorDest a && scalarSrc b && scalarSrc c
  | .twait b => scalarSrc b
  | .twaitd b => scalarSrc b
  | .rbox a b c => vectorDest a && vectorSrc b && vectorSrc c
  | .rtri a b c => vectorDest a && vectorSrc b && vectorSrc c
  | .rpush a b c => vectorSrc a && vectorSrc b && vectorDest c
  | .rpop a b c => vectorSrc a && vectorDest b && scalarDest c
  | .rhit a b c => vectorDest a && vectorSrc b && vectorSrc c
  | .rterm a b => vectorDest a && vectorDest b
  | .rspawn a b c => scalarDest a && vectorSrc b && scalarSrc c
  | .rdepth a => scalarDest a
  | .texBl a b c => vectorDest a && vectorSrc b && scalarSrc c
  | .texSt a b c => vectorDest a && vectorSrc b && scalarSrc c
  | .texPt a b c => vectorDest a && vectorSrc b && scalarSrc c
  | .texq a b c => scalarDest a && scalarSrc b && scalarSrc c
  | .mout a b c => vectorSrc a && scalarSrc b && scalarSrc c
  | .mprim a b => vectorSrc a && scalarSrc b
  | .mend b c => scalarSrc b && scalarSrc c
  | .rast a b c => scalarDest a && scalarSrc b && scalarSrc c
  | .sget a _ => scalarDest a
  | .sset a _ => scalarSrc a
  | .sswap a b _ => scalarDest a && scalarSrc b
  | .scall _ | .eret | .brk _ | .wfi | .halt => true
  | .tlbw a b c => scalarSrc a && scalarSrc b && scalarSrc c
  | .tlbi b c => scalarSrc b && scalarSrc c
  | .tlbr a b => scalarDest a && scalarSrc b
  | .hsave b => scalarSrc b
  | .hrest b => scalarSrc b
  | .pack b c => scalarSrc b && scalarSrc c

end Sys2Proof
end

