-- ==== Sys2Proof/Safety.lean ====
section
/-! DEFINITION. The terms in which claims speak of runs: a slot that is ready to execute, a slot that has completed, waits
or traps, and memory in its canonical form (R30, R35, R72, R73). -/
namespace Sys2Proof.Machine

open Sys2Proof

/-- Memory is in its canonical form. -/
def MemoryOk (s : State) : Prop := Memory.wf s.mem = true

/-- The slot reached by the hart in hand passes steps 2 and 3 of R73 and the checks of step 4 that every instruction of a
pair shares (R72 to R74, R176, R217): it may issue, it is not removed, its unused fields are 0 and its selector fits. -/
def SlotRuns (s : State) (major fn : Nat) : Prop :=
  allowed s s.cur major fn = true ∧ slotRemoved (getHart s s.cur) major fn = false
    ∧ (getHart s s.cur).curConv.bad = false ∧ selectorBad (getHart s s.cur) major fn = false

/-- The state once the slot in hand has completed with the effects that led to t: the hart stands past the slot, and a
prefix that was pending for it is consumed (R30, R35, R68). -/
def completed (s t : State) : State := finishSlot s.cur (getHart s s.cur).prefixLive (.done t)

/-- The state once the slot in hand waits, with the effects that led to t (R218). -/
def waiting (s : State) (w : Wait) (t : State) : State := finishSlot s.cur (getHart s s.cur).prefixLive (.wait w t)

/-- The state once the slot in hand has trapped, with the effects that led to t (R267, R269). -/
def trapped (s : State) (cause info : Nat) (faddr : DWord) (elem bitpos : Nat) (t : State) : State :=
  finishSlot s.cur (getHart s s.cur).prefixLive (.trap cause info faddr elem bitpos t)

/-- ILLEGAL-OPERAND at the slot in hand, nothing else changed (R69, R271). -/
def operandTrap (s : State) : State :=
  trapped s cILLEGALOPERAND (getHart s s.cur).slotWord.toNat 0 0 0 s

/-- ILLEGAL-INSTRUCTION at the slot in hand, nothing else changed (R73, R271). -/
def instructionTrap (s : State) : State :=
  trapped s cILLEGALINSTRUCTION (getHart s s.cur).slotWord.toNat 0 0 0 s

/-- The hart in hand. -/
def cur (s : State) : Hart := getHart s s.cur

/-- The hart in hand changed. -/
def withCur (s : State) (h : Hart) : State := setHart s s.cur h

/-- The registers of the hart in hand and its core's vector pool. -/
def curLocal (s : State) : Local := getLocal s s.cur

/-- The registers of the hart in hand and its core's vector pool changed. -/
def withLocal (s : State) (x : Local) : State := setLocal s s.cur x

/-- A scalar result written to a destination and pushed (R10, R15). -/
def scalarResult (s : State) (a : BitVec 7) (v : DWord) : State := withCur s ((cur s).result a v)

/-- The hart with a control transfer decided, to be made when its convoy retires (R96). -/
def goingTo (h : Hart) (t : DWord) : Hart := { h with conv := h.conv.map (fun c => { c with target := some t }) }

/-! ## Vector results (R104 to R107, R117) -/

/-- What an element of a destination holds after an instruction that computes `new` for it: the result when it is active,
else what MASKZ and TAILZ say; with VL = 0, and below the element where the slot is resumed, the old value (R35, R104). -/
def elemAfter (h : Hart) (i old new : Nat) : Nat :=
  if h.vl = 0 ∨ i < startElem h then old
  else if i < h.len then (if h.selBit i then new else if h.maskz then 0 else old)
  else if h.tailz then 0 else old

/-- Group v is written to destination a of g registers and pushed, flags are raised and saturation bits set, and nothing
else of the hart or its pool is changed (R15, R46, R50). -/
def VectorWritten (s : State) (a : BitVec 7) (g v fl : Nat) (sat : VReg) (o : Host.Outcome State Fault Refusal) : Prop :=
  ∃ y z, writeV (curLocal s) a g v = some y ∧ o = .next (completed s (withLocal s z)) ∧ z.pool = (pushV y g v).pool ∧
    z.h = { (pushV y g v).h with sticky := (cur s).sticky ||| BitVec.ofNat 6 fl, masks := z.h.masks } ∧
    ∀ k, z.h.maskReg k = if k = (cur s).smr then (cur s).maskReg k ||| sat else (cur s).maskReg k

/-- An element-wise instruction has completed: destination a, of elements of width wd, holds `f i` in every active element,
and the other elements as R104 says (R104 to R107). -/
def VectorResult (s : State) (a : BitVec 7) (wd : Nat) (f : Nat → Nat) (fl : Nat) (sat : VReg)
    (o : Host.Outcome State Fault Refusal) : Prop :=
  ∃ g n old v, destShape (cur s) wd = some (g, n) ∧ readV (curLocal s) a g = some old ∧ VectorWritten s a g v fl sat o ∧
    ∀ i, i < n → elem v i wd = elemAfter (cur s) i (elem old i wd) (f i % 2 ^ wd)

/-- The sources and the destination of an instruction whose elements all have SEW bits are readable, writable, aligned
and overlap in full or not at all: source values p and q, destination value d (R70, R105, R106). -/
def VvReady (s : State) (a b c : BitVec 7) (p q d : Nat) : Prop :=
  (cur s).maskFits = true ∧ (a.toNat < 112 ∨ a.toNat = 127) ∧
  readV (curLocal s) a (cur s).grp = some d ∧ readV (curLocal s) b (cur s).grp = some p ∧
  readV (curLocal s) c (cur s).grp = some q ∧
  overlapOk true a (cur s).grp b (cur s).grp = true ∧ overlapOk true a (cur s).grp c (cur s).grp = true

/-- The same for an instruction with one source group. -/
def V1Ready (s : State) (a b : BitVec 7) (p d : Nat) : Prop :=
  (cur s).maskFits = true ∧ (a.toNat < 112 ∨ a.toNat = 127) ∧
  readV (curLocal s) a (cur s).grp = some d ∧ readV (curLocal s) b (cur s).grp = some p ∧
  overlapOk true a (cur s).grp b (cur s).grp = true

/-- The hart's destination of width wd has a place beside a source group: sized, readable and writable, overlapping it in
full or not at all (R106). -/
def DestReady (s : State) (a b : BitVec 7) (wd : Nat) : Prop :=
  (cur s).maskFits = true ∧ (a.toNat < 112 ∨ a.toNat = 127) ∧
  ∃ g n d, destShape (cur s) wd = some (g, n) ∧ readV (curLocal s) a g = some d ∧
    overlapOk (decide (wd = (cur s).sew)) a g b (cur s).grp = true

/-- A compare has completed: bit i of the destination mask is `f i` for active elements, and the others follow MASKZ and
TAILZ; flags are raised, nothing is pushed (R117). -/
def MaskResult (s : State) (a : BitVec 7) (f : Nat → Bool) (fl : Nat) (o : Host.Outcome State Fault Refusal) : Prop :=
  ∃ v : VReg, o = .next (completed s (withLocal s ⟨raise (writeM (cur s) a v) fl, (curLocal s).pool⟩)) ∧
    ∀ i, i < 1024 → (v.getLsbD i).toNat
      = elemAfter (cur s) i (((cur s).maskReg (a.toNat - 116)).getLsbD i).toNat (f i).toNat

/-- The flags of the active elements together (R46). -/
def activeFlags (h : Hart) (n : Nat) (f : Nat → Nat) : Nat :=
  ((List.range n).filter h.active).foldl (fun t i => t ||| f i) 0

/-- The float format m that R103 gives for SEW, or BF16 at SEW 16 under a pending prefix that names it without scale
registers (R103, R108). -/
def FloatAt (h : Hart) (m : Fmt) : Prop :=
  (h.prefixLive = false ∧ ((h.sew = 64 ∧ m = f64) ∨ (h.sew = 32 ∧ m = f32) ∨ (h.sew = 16 ∧ m = f16))) ∨
  (h.prefixLive = true ∧ h.sew = 16 ∧ m = bf16 ∧ ∃ u, h.readPfx = some ⟨.bf16, u, noSpec, noSpec⟩)

/-- The saturation bits of a conversion: bit i of an active element below 1,024 that saturates (R50, R105). -/
def SatBits (h : Hart) (n : Nat) (f : Nat → Res) (sat : VReg) : Prop :=
  ∀ i, i < 1024 → sat.getLsbD i = (decide (i < n) && h.active i && (f i).sat)

/-- An element-wise conversion of results f into elements of width wd has completed, with its flags and saturation bits. -/
def ConvResult (s : State) (a : BitVec 7) (wd : Nat) (f : Nat → Res) (o : Host.Outcome State Fault Refusal) : Prop :=
  ∃ g n sat, destShape (cur s) wd = some (g, n) ∧ SatBits (cur s) n f sat ∧
    VectorResult s a wd (fun i => (f i).bits) (activeFlags (cur s) n (fun i => (f i).fl)) sat o

/-- A conversion of values y to the block format of prefix q has completed: the blocks that hold an element below vl, and begin no
earlier than the element where the slot is resumed, are written whole, with their scale elements, and nothing else of the
destination group (value `old`) or the scale register (value `sc`) changes; flags and saturation bits follow, and the group alone is pushed (R55, R123). -/
def BlockResult (s : State) (a : BitVec 7) (q : Pfx) (g n old sc : Nat) (y : Nat → FVal)
    (o : Host.Outcome State Fault Refusal) : Prop :=
  let h := cur s
  let k := q.f.block
  let blk (j : Nat) := blockOf q.f ((List.range k).map (fun i => if h.selected (j * k + i) then some (y (j * k + i)) else none))
  let res (i : Nat) : Res := (blk (i / k)).2.getD (i % k) ⟨0, 0, false⟩
  let done (j : Nat) : Bool := decide (j * k < h.len ∧ startElem h ≤ j * k)
  ∃ v sv l m z, writeV (curLocal s) a g v = some l ∧ writeV l q.b 1 sv = some m ∧ o = .next (completed s (withLocal s z)) ∧
    z.pool = (pushV m g v).pool ∧
    (∃ fl, z.h = { (pushV m g v).h with sticky := h.sticky ||| BitVec.ofNat 6 fl, masks := z.h.masks } ∧
      ∀ b, fl.testBit b = true ↔ ∃ i, done (i / k) = true ∧ (res i).fl.testBit b = true) ∧
    (∀ r, r ≠ h.smr ∨ r = 0 → z.h.maskReg r = h.maskReg r) ∧
    (h.smr ≠ 0 → ∀ i, i < 1024 → (z.h.maskReg h.smr).getLsbD i = ((h.maskReg h.smr).getLsbD i ||
      (done (i / k) && (res i).sat))) ∧
    (∀ i, i < n → elem v i q.f.width = if done (i / k) = true then (res i).bits % 2 ^ q.f.width else elem old i q.f.width) ∧
    ∀ j, j < 1024 / q.f.scaleWidth → elem sv j q.f.scaleWidth
      = if done j = true then (blk j).1 % 2 ^ q.f.scaleWidth else elem sc j q.f.scaleWidth

/-! ## Memory operations (R143 to R160) -/

/-- From state u, one memory operation of hart hk has been issued and nothing else done: it stands in the table under u's next
number with what its data will write and the refusals that will return, LCNT (counter 1) or SCNT (counter 2) has risen by
one, and of the rest only the lines that the L2 slices hold and what home slices know of them may differ (R147, R149, R150, R318,
R396). -/
def IssuedWith (hk : Nat) (u t : State) (counter : Nat) (ret : List Ret) (refused : List Async) : Prop :=
  ∃ o, o.hart = hk ∧ o.counter = counter ∧ o.ret = ret ∧ o.refused = refused ∧ o.reg = none ∧ o.ctx = ctxKeyOf u hk ∧
    t = { u with harts := SMap.put u.harts hk (if counter = 1 then { getHart u hk with lcnt := (getHart u hk).lcnt + 1 }
                   else { getHart u hk with scnt := (getHart u hk).scnt + 1 }),
                 ops := SMap.put u.ops u.nextId o, nextId := u.nextId + 1, l2 := t.l2,
                 sharers := t.sharers }

/-- One memory operation that nothing refuses has been issued. -/
def Issued (hk : Nat) (u t : State) (counter : Nat) (ret : List Ret) : Prop := IssuedWith hk u t counter ret []

/-- A hint treats addresses one after another, from state s through states `st`: what it does at each location that a load
could read there, nothing at an address that faults or leads elsewhere (R148). -/
def HintsDone (act : HintAct) (hk : Nat) (p : Path) (vas : List DWord) (s : State) (st : Nat → State) : Prop :=
  st 0 = s ∧ ∀ k va, vas[k]? = some va → match hintLoc (st k) hk va p with
    | .at l t => st (k + 1) = act hk t l
    | .skip t => st (k + 1) = t
    | .miss _ => False

/-- Scratchpad bytes have no forwarding state: R328 forwards the lines of a class-0 page only. -/
def ScratchHome (s : State) : Prop := ∀ l, scratchBase ≤ l → homeLoc s l = l

/-- A location none of the pieces of some elements holds, followed to its home. -/
def Outside (u : State) (as : List Acc) (loc : Nat) : Prop :=
  ∀ a ∈ as, ∀ p ∈ a.pieces, ∀ j, j < p.2 → homeLoc u (p.1 + j) ≠ loc

/-- A store of elements `as` with values `val` has been issued: they are written one after another in ascending order, each
through the view of the hart's task, no other byte of memory is changed, and SCNT rises (R149, R153, R226). -/
def StoreDone (hk scope : Nat) (evf : Bool) (u t : State) (as : List Acc) (val : Acc → Nat) : Prop :=
  ∃ w, storeAccs (fun v a => storeAcc v hk scope evf a (val a)) u as = .all w ∧ Issued hk w t 2 [] ∧ t.mem = w.mem ∧
    ∀ loc, Outside u as loc → memGet t.mem loc = memGet u.mem loc

/-- The elements of a destination after a load: those before the element a resumed slot starts at stay; an active element
is the value loaded for it; the others follow MASKZ and TAILZ; with VL = 0 nothing changes (R35, R104, R154). -/
def loadedElem (h : Hart) (i old new : Nat) : Nat :=
  if h.vl = 0 ∨ i < startElem h then old
  else if i < h.len then (if h.selBit i then new else if h.maskz then 0 else old)
  else if h.tailz then 0 else old

/-! ## The matrix unit (R24, R25, R178 to R198) -/

/-- The core of the hart in hand. -/
def curCore (s : State) : Core := getCore s (coreOf s.cur)

/-- Tile n is the hart's own, and no earlier instruction that names it is in flight, nor a write of its owner waiting
(R24, R25, R192). -/
def TileReady (s : State) (n : Nat) : Prop :=
  ownsTile s s.cur n = true ∧ tileBusy (curCore s) [n] = false ∧ ownerWaits s (coreOf s.cur) [n] = false

/-- Tile n of core c now holds `v i j` in row i, column j; the other tile and all else of the core is kept, but for
ATSAT, the owner registers and what is in flight. -/
def TileChanged (c d : Core) (n : Nat) (v : Nat → Nat → Nat) : Prop :=
  (∀ i j, i < 32 → j < 32 → cellAt (d.tile n) (32 * i + j) = v i j) ∧ d.tile (1 - n) = c.tile (1 - n) ∧
  d = { c with at0 := d.at0, at1 := d.at1, atsat0 := d.atsat0, atsat1 := d.atsat1, accown0 := d.accown0,
               accown1 := d.accown1, inflight := d.inflight }

/-- A matrix instruction has completed: the cells of the active rows below m hold their results, every other cell is
unchanged, owners and ATSAT are kept, the tile is in flight, and the flags of the results are raised (R178, R182). -/
def RowsDone (s : State) (n m : Nat) (usesW : Bool) (f : Nat → Nat → Nat × Nat) (more : Nat → Prop)
    (o : Host.Outcome State Fault Refusal) : Prop :=
  ∃ d fl, o = .next (completed s (withCur (setCore s (coreOf s.cur) d) (raise (cur s) fl))) ∧
    TileChanged (curCore s) d n (fun i j => if i < m ∧ (cur s).selBit i = true then (f i j).1 % 2 ^ 40
      else cellAt ((curCore s).tile n) (32 * i + j)) ∧
    d.inflight = (curCore s).inflight ++ [⟨s.cur, [n], usesW⟩] ∧
    (∀ k, d.accown k = (curCore s).accown k ∧ d.atsat k = (curCore s).atsat k) ∧
    ∀ k, fl.testBit k = true ↔
      (∃ i j, i < m ∧ (cur s).selBit i = true ∧ j < 32 ∧ (f i j).2.testBit k = true) ∨ more k

/-! ## Elements read for in order (R243, R257) -/

/-- The elements of a list are read for in order, those that need it, n bytes each at `va i`: the values are `vs i`, and
from state st k the read for the k-th element leaves st (k + 1) (R145, R146, R243). -/
def ReadsFor (hk n al : Nat) (is : List Nat) (need : Nat → Bool) (va : Nat → DWord) (st : Nat → State) (vs : Nat → Nat) :
    Prop :=
  ∀ k i, is[k]? = some i →
    if need i = true then fetchElem (st k) hk (va i) n al .gather = .ok (vs i) (st (k + 1)) else st (k + 1) = st k

/-! ## What a slot leaves as it was -/

/-- Outside the harts nothing has changed, and of the harts only the one in hand has. -/
def OnlyCur (s t : State) : Prop :=
  t = { s with harts := t.harts } ∧ ∀ k, k ≠ s.cur → getHart t k = getHart s k

/-- Every byte of memory reads as before. -/
def MemoryKept (s t : State) : Prop := ∀ a, memGet t.mem a = memGet s.mem a

/-- The scalar registers and the operand file are kept but for a destination. -/
def ScalarsKept (d : BitVec 7) (g h : Hart) : Prop :=
  (∀ i, i ≠ g.sIndex d.toNat ∨ 96 ≤ d.toNat → h.phys i = g.phys i) ∧
  ∀ i, i + 96 ≠ d.toNat → SMap.get 0 h.oregs i = SMap.get 0 g.oregs i

/-- The system registers of a hart are kept, and of HSTAT every bit but those of a pending prefix (R28, R30). -/
def SystemKept (g h : Hart) : Prop :=
  (∀ i, i ≠ 8 → i < 32 → h.hstat.getLsbD i = g.hstat.getLsbD i) ∧
  h.hcause = g.hcause ∧ h.hepc = g.hepc ∧ h.cvr = g.cvr ∧ h.vri = g.vri ∧ h.htvec = g.htvec ∧ h.hscr = g.hscr ∧
  h.faddr = g.faddr ∧ h.vcfg = g.vcfg ∧ h.vl = g.vl ∧ h.xcfg = g.xcfg ∧ h.ctxid = g.ctxid ∧ h.rstat = g.rstat ∧
  h.rbar = g.rbar ∧ h.ordtmo = g.ordtmo ∧ h.lcnt = g.lcnt ∧ h.scnt = g.scnt ∧ h.dtab = g.dtab ∧ h.task = g.task

/-- The masks, the float flags, the stage predicates and the windows are kept. -/
def FlagsKept (g h : Hart) : Prop :=
  (∀ i, h.maskReg i = g.maskReg i) ∧ h.sticky = g.sticky ∧ h.sprd = g.sprd ∧ h.wbase = g.wbase

end Sys2Proof.Machine
end

