-- ==== Sys2Proof/Certificates/Slice0/Obligations.lean ====
section
/-! DEFINITION. The statements for the provers: what the rules of spec/ say of single instructions, of the machine's step
and of the encoding. -/
open Sys2Proof Sys2Proof.Machine

/-- R85: each instruction of major 0x00 completes and writes the value of its row: sums, differences and low products
modulo 2^64, high halves of the exact 128-bit product, and `madd` on the old sd. -/
def Obligations.ScalarArithmeticResults : Prop :=
  ∀ (s : State) (a b c : BitVec 7) (x y d : DWord),
    sDest a = true → readS (cur s) b = some x → readS (cur s) c = some y →
    (SlotRuns s 0x00 1 → exec (.add a b c) s = .next (completed s (scalarResult s a (x + y)))) ∧
    (SlotRuns s 0x00 2 → exec (.sub a b c) s = .next (completed s (scalarResult s a (x - y)))) ∧
    (SlotRuns s 0x00 3 → exec (.mul a b c) s = .next (completed s (scalarResult s a (x * y)))) ∧
    (SlotRuns s 0x00 4 → exec (.mulhs a b c) s = .next (completed s (scalarResult s a
      ((x.signExtend 128 * y.signExtend 128).extractLsb' 64 64)))) ∧
    (SlotRuns s 0x00 5 → exec (.mulhz a b c) s = .next (completed s (scalarResult s a
      ((x.setWidth 128 * y.setWidth 128).extractLsb' 64 64)))) ∧
    (SlotRuns s 0x00 6 → readS (cur s) a = some d →
      exec (.madd a b c) s = .next (completed s (scalarResult s a (d + x * y))))

/-- R86: the four division instructions complete on every pair of operands, and write the value of the column that the
operands fall under: division by zero, the overflow of -2^63 by -1, or the quotient or remainder of a division rounded
towards zero. -/
def Obligations.ScalarDivisionResults : Prop :=
  ∀ (s : State) (a b c : BitVec 7) (x y : DWord),
    sDest a = true → readS (cur s) b = some x → readS (cur s) c = some y →
    (SlotRuns s 0x01 0 → ∃ q : DWord, exec (.divs a b c) s = .next (completed s (scalarResult s a q)) ∧
      (y = 0 → q = BitVec.allOnes 64) ∧ (x = BitVec.intMin 64 → y = BitVec.allOnes 64 → q = BitVec.intMin 64) ∧
      (y ≠ 0 → ¬ (x = BitVec.intMin 64 ∧ y = BitVec.allOnes 64) → q.toInt = x.toInt.tdiv y.toInt)) ∧
    (SlotRuns s 0x01 1 → ∃ q : DWord, exec (.divz a b c) s = .next (completed s (scalarResult s a q)) ∧
      (y = 0 → q = BitVec.allOnes 64) ∧ (y ≠ 0 → q.toNat = x.toNat / y.toNat)) ∧
    (SlotRuns s 0x01 2 → ∃ r : DWord, exec (.rems a b c) s = .next (completed s (scalarResult s a r)) ∧
      (y = 0 → r = x) ∧ (x = BitVec.intMin 64 → y = BitVec.allOnes 64 → r = 0) ∧
      (y ≠ 0 → ¬ (x = BitVec.intMin 64 ∧ y = BitVec.allOnes 64) → r.toInt = x.toInt.tmod y.toInt)) ∧
    (SlotRuns s 0x01 3 → ∃ r : DWord, exec (.remz a b c) s = .next (completed s (scalarResult s a r)) ∧
      (y = 0 → r = x) ∧ (y ≠ 0 → r.toNat = x.toNat % y.toNat))

/-- R87 and R90: each instruction of majors 0x02, 0x03, 0x05 and 0x06 completes and writes the value of its row; a shift or
rotate amount is bits [5:0] of sb. -/
def Obligations.ScalarLogicAndCompareResults : Prop :=
  ∀ (s : State) (a b c : BitVec 7) (x y d : DWord) (n : Nat),
    sDest a = true → readS (cur s) b = some x → readS (cur s) c = some y → n = (y &&& 63).toNat →
    (SlotRuns s 0x02 0 → exec (.andReg a b c) s = .next (completed s (scalarResult s a (x &&& y)))) ∧
    (SlotRuns s 0x02 1 → exec (.orReg a b c) s = .next (completed s (scalarResult s a (x ||| y)))) ∧
    (SlotRuns s 0x02 2 → exec (.xorReg a b c) s = .next (completed s (scalarResult s a (x ^^^ y)))) ∧
    (SlotRuns s 0x02 3 → exec (.andn a b c) s = .next (completed s (scalarResult s a (x &&& ~~~y)))) ∧
    (SlotRuns s 0x03 0 → exec (.shl a b c) s = .next (completed s (scalarResult s a (x <<< n)))) ∧
    (SlotRuns s 0x03 1 → exec (.shrs a b c) s = .next (completed s (scalarResult s a (x.sshiftRight n)))) ∧
    (SlotRuns s 0x03 2 → exec (.shrz a b c) s = .next (completed s (scalarResult s a (x >>> n)))) ∧
    (SlotRuns s 0x03 3 → exec (.rotl a b c) s = .next (completed s (scalarResult s a
      (if n = 0 then x else (x <<< n) ||| (x >>> (64 - n)))))) ∧
    (SlotRuns s 0x03 4 → exec (.rotr a b c) s = .next (completed s (scalarResult s a
      (if n = 0 then x else (x >>> n) ||| (x <<< (64 - n)))))) ∧
    (SlotRuns s 0x05 0 → exec (.slts a b c) s = .next (completed s (scalarResult s a
      (if x.toInt < y.toInt then 1 else 0)))) ∧
    (SlotRuns s 0x05 1 → exec (.sltz a b c) s = .next (completed s (scalarResult s a
      (if x.toNat < y.toNat then 1 else 0)))) ∧
    (SlotRuns s 0x05 2 → readS (cur s) a = some d →
      exec (.sel a b c) s = .next (completed s (scalarResult s a (if d ≠ 0 then x else y)))) ∧
    (SlotRuns s 0x06 0 → exec (.mins a b c) s = .next (completed s (scalarResult s a
      (if x.toInt ≤ y.toInt then x else y)))) ∧
    (SlotRuns s 0x06 1 → exec (.minz a b c) s = .next (completed s (scalarResult s a
      (if x.toNat ≤ y.toNat then x else y)))) ∧
    (SlotRuns s 0x06 2 → exec (.maxs a b c) s = .next (completed s (scalarResult s a
      (if x.toInt ≤ y.toInt then y else x)))) ∧
    (SlotRuns s 0x06 3 → exec (.maxz a b c) s = .next (completed s (scalarResult s a
      (if x.toNat ≤ y.toNat then y else x))))

/-- R88 and R89: the short form works on sd and the 14-bit immediate, the long form on sb and the extension word, both
sign-extended; a `shli` or `rotri` amount outside 0 to 63 raises ILLEGAL-OPERAND; `lih` replaces the upper half. -/
def Obligations.ScalarImmediateResults : Prop :=
  ∀ (s : State) (a b : BitVec 7) (i : BitVec 14) (e : Word) (x y : DWord),
    sDest a = true → readS (cur s) a = some x → readS (cur s) b = some y →
    (SlotRuns s 0x04 0 →
      exec (.addiShort a i) s = .next (completed s (scalarResult s a (x + i.signExtend 64))) ∧
      exec (.addiLong a b e) s = .next (completed s (scalarResult s a (y + e.signExtend 64)))) ∧
    (SlotRuns s 0x04 1 →
      exec (.andiShort a i) s = .next (completed s (scalarResult s a (x &&& i.signExtend 64))) ∧
      exec (.andiLong a b e) s = .next (completed s (scalarResult s a (y &&& e.signExtend 64)))) ∧
    (SlotRuns s 0x04 2 →
      exec (.oriShort a i) s = .next (completed s (scalarResult s a (x ||| i.signExtend 64))) ∧
      exec (.oriLong a b e) s = .next (completed s (scalarResult s a (y ||| e.signExtend 64)))) ∧
    (SlotRuns s 0x04 3 →
      exec (.xoriShort a i) s = .next (completed s (scalarResult s a (x ^^^ i.signExtend 64))) ∧
      exec (.xoriLong a b e) s = .next (completed s (scalarResult s a (y ^^^ e.signExtend 64)))) ∧
    (SlotRuns s 0x04 4 →
      exec (.shliShort a i) s = .next
        (if i.toInt < 0 ∨ 63 < i.toInt then operandTrap s else completed s (scalarResult s a (x <<< i.toNat))) ∧
      exec (.shliLong a b e) s = .next
        (if e.toInt < 0 ∨ 63 < e.toInt then operandTrap s else completed s (scalarResult s a (y <<< e.toNat)))) ∧
    (SlotRuns s 0x04 5 →
      exec (.rotriShort a i) s = .next
        (if i.toInt < 0 ∨ 63 < i.toInt then operandTrap s else completed s (scalarResult s a (x.rotateRight i.toNat))) ∧
      exec (.rotriLong a b e) s = .next
        (if e.toInt < 0 ∨ 63 < e.toInt then operandTrap s else completed s (scalarResult s a (y.rotateRight e.toNat)))) ∧
    (SlotRuns s 0x04 6 →
      exec (.lih a b e) s = .next (completed s (scalarResult s a ((e.setWidth 64 <<< 32) ||| (y &&& 0xFFFFFFFF)))))

/-- R91: `clz` and `ctz` count the zero bits above the highest and below the lowest 1 bit, 64 when there is none; `popc`
counts the 1 bits; `bswap` turns the bytes round. -/
def Obligations.ScalarBitCountResults : Prop :=
  ∀ (s : State) (a b : BitVec 7) (x : DWord), sDest a = true → readS (cur s) b = some x →
    (SlotRuns s 0x07 0 → ∃ n : Nat, exec (.clz a b) s = .next (completed s (scalarResult s a (BitVec.ofNat 64 n))) ∧
      (x = 0 → n = 64) ∧ (x ≠ 0 → n < 64 ∧ x.getLsbD (63 - n) = true) ∧
      ∀ i, 63 - i < n → i < 64 → x.getLsbD i = false) ∧
    (SlotRuns s 0x07 1 → ∃ n : Nat, exec (.ctz a b) s = .next (completed s (scalarResult s a (BitVec.ofNat 64 n))) ∧
      (x = 0 → n = 64) ∧ (x ≠ 0 → n < 64 ∧ x.getLsbD n = true) ∧ ∀ i, i < n → x.getLsbD i = false) ∧
    (SlotRuns s 0x07 2 → exec (.popc a b) s = .next (completed s (scalarResult s a
      (BitVec.ofNat 64 ((List.range 64).filter (fun i => x.getLsbD i)).length)))) ∧
    (SlotRuns s 0x07 3 → ∃ v : DWord, exec (.bswap a b) s = .next (completed s (scalarResult s a v)) ∧
      ∀ k, k < 8 → v.extractLsb' (8 * k) 8 = x.extractLsb' (8 * (7 - k)) 8)

/-- R92: with the descriptor's POS and LEN, `bexts` and `bextz` give the field sign- or zero-extended, `bins` replaces the
field of the old sd; POS + LEN + 1 above 64, or a non-zero reserved part of the long descriptor, raises ILLEGAL-OPERAND.
The short descriptor's reserved part never reaches the meaning: the decoder marks the slot. -/
def Obligations.BitFieldResults : Prop :=
  ∀ (s : State) (a b : BitVec 7) (p l : BitVec 6) (e : Word) (x y : DWord) (pos len : Nat),
    sDest a = true → readS (cur s) a = some x → readS (cur s) b = some y →
    pos = (e &&& 0x3F).toNat → len = ((e >>> 6) &&& 0x3F).toNat + 1 →
    (SlotRuns s 0x08 0 →
      exec (.bextsShort a p l) s = .next (if p.toNat + l.toNat + 1 > 64 then operandTrap s
        else completed s (scalarResult s a ((x.extractLsb' p.toNat (l.toNat + 1)).signExtend 64))) ∧
      exec (.bextsLong a b e) s = .next (if e >>> 12 = 0 ∧ pos + len ≤ 64 then
        completed s (scalarResult s a ((y.extractLsb' pos len).signExtend 64)) else operandTrap s)) ∧
    (SlotRuns s 0x08 1 →
      exec (.bextzShort a p l) s = .next (if p.toNat + l.toNat + 1 > 64 then operandTrap s
        else completed s (scalarResult s a ((x.extractLsb' p.toNat (l.toNat + 1)).setWidth 64))) ∧
      exec (.bextzLong a b e) s = .next (if e >>> 12 = 0 ∧ pos + len ≤ 64 then
        completed s (scalarResult s a ((y.extractLsb' pos len).setWidth 64)) else operandTrap s)) ∧
    (SlotRuns s 0x08 2 →
      (¬ (e >>> 12 = 0 ∧ pos + len ≤ 64) → exec (.bins a b e) s = .next (operandTrap s)) ∧
      (e >>> 12 = 0 ∧ pos + len ≤ 64 → ∃ v : DWord, exec (.bins a b e) s = .next (completed s (scalarResult s a v)) ∧
        ∀ i, i < 64 → v.getLsbD i = if pos ≤ i ∧ i < pos + len then y.getLsbD (i - pos) else x.getLsbD i))

/-- R10, R14, R15, R16, R70: a result written to `sn` is physical register WBASE.S + n and no other; to `on` it clears bits
[1023:64]; to `zero` nothing is written; in each case the value is pushed zero-extended, at once with CHAIN = 1 or outside
a convoy, as a pending entry with CHAIN = 0. The pc, the masks and the status are kept.
R70, R83: where a specifier is not readable as a scalar, or the destination is none, the slot raises ILLEGAL-OPERAND
before any effect: shown for a three-register, a unary and an immediate form of each group. -/
def Obligations.ScalarOperandsAndResults : Prop :=
  (∀ (h : Hart) (a : BitVec 7) (v : DWord),
     (a.toNat < 96 → (h.result a v).phys (h.wbS + a.toNat) = v ∧
       (∀ i, i ≠ h.wbS + a.toNat → (h.result a v).phys i = h.phys i) ∧ (h.result a v).oregs = h.oregs) ∧
     (96 ≤ a.toNat → a.toNat < 112 →
       SMap.get 0 (h.result a v).oregs (a.toNat - 96) = v.setWidth 1024 ∧
       (∀ i, i ≠ a.toNat - 96 → SMap.get 0 (h.result a v).oregs i = SMap.get 0 h.oregs i) ∧
       (h.result a v).sregs = h.sregs) ∧
     (a.toNat = 127 → (h.result a v).sregs = h.sregs ∧ (h.result a v).oregs = h.oregs) ∧
     (h.holdsPushes = false → (h.result a v).q.q0 = v.setWidth 1024 ∧ (h.result a v).q.q1 = h.q.q0 ∧
       (h.result a v).q.q2 = h.q.q1 ∧ (h.result a v).q.q3 = h.q.q2 ∧ (h.result a v).q.pend = h.q.pend) ∧
     (h.holdsPushes = true → (h.result a v).q = { h.q with pend := h.q.pend ++ [v.setWidth 1024] }) ∧
     (h.result a v).pc = h.pc ∧ (h.result a v).masks = h.masks ∧ (h.result a v).hstat = h.hstat) ∧
  (∀ (s : State) (a b c : BitVec 7) (i : BitVec 14) (e : Word),
     (sDest a = false ∨ readS (cur s) b = none ∨ readS (cur s) c = none →
       (SlotRuns s 0x00 1 → exec (.add a b c) s = .next (operandTrap s)) ∧
       (SlotRuns s 0x00 6 → exec (.madd a b c) s = .next (operandTrap s)) ∧
       (SlotRuns s 0x01 0 → exec (.divs a b c) s = .next (operandTrap s)) ∧
       (SlotRuns s 0x03 3 → exec (.rotl a b c) s = .next (operandTrap s)) ∧
       (SlotRuns s 0x05 2 → exec (.sel a b c) s = .next (operandTrap s)) ∧
       (SlotRuns s 0x06 0 → exec (.mins a b c) s = .next (operandTrap s))) ∧
     (sDest a = false ∨ readS (cur s) b = none →
       (SlotRuns s 0x07 0 → exec (.clz a b) s = .next (operandTrap s)) ∧
       (SlotRuns s 0x04 0 → exec (.addiLong a b e) s = .next (operandTrap s)) ∧
       (SlotRuns s 0x08 2 → exec (.bins a b e) s = .next (operandTrap s))) ∧
     (sDest a = false → SlotRuns s 0x04 0 → exec (.addiShort a i) s = .next (operandTrap s)))

/-- R93, R94: outside a rope, a branch completes, and decides the transfer to the address of its convoy plus 16 times its
offset exactly when its condition holds; `br.any` looks at the bits of the mask below VL. -/
def Obligations.ConditionalBranches : Prop :=
  ∀ (s : State) (a b o : BitVec 7) (e : Word) (x y : DWord) (m : VReg) (near far : Hart),
    (cur s).inRope = false → (cur s).curConv.crew = [] → (cur s).recorded = none →
    near = goingTo (cur s) ((cur s).pc + 16 * o.signExtend 64) →
    far = goingTo (cur s) ((cur s).pc + 16 * e.signExtend 64) →
    (readS (cur s) a = some x → readS (cur s) b = some y →
      (SlotRuns s 0x10 0 →
        exec (.brEqShort a b o) s = .next (completed s (withCur s (if x = y then near else cur s))) ∧
        exec (.brEqLong a b e) s = .next (completed s (withCur s (if x = y then far else cur s)))) ∧
      (SlotRuns s 0x10 1 →
        exec (.brNeShort a b o) s = .next (completed s (withCur s (if x ≠ y then near else cur s))) ∧
        exec (.brNeLong a b e) s = .next (completed s (withCur s (if x ≠ y then far else cur s)))) ∧
      (SlotRuns s 0x10 2 →
        exec (.brLtsShort a b o) s = .next (completed s (withCur s (if x.toInt < y.toInt then near else cur s))) ∧
        exec (.brLtsLong a b e) s = .next (completed s (withCur s (if x.toInt < y.toInt then far else cur s)))) ∧
      (SlotRuns s 0x10 3 →
        exec (.brGesShort a b o) s = .next (completed s (withCur s (if y.toInt ≤ x.toInt then near else cur s))) ∧
        exec (.brGesLong a b e) s = .next (completed s (withCur s (if y.toInt ≤ x.toInt then far else cur s)))) ∧
      (SlotRuns s 0x10 4 →
        exec (.brLtzShort a b o) s = .next (completed s (withCur s (if x.toNat < y.toNat then near else cur s))) ∧
        exec (.brLtzLong a b e) s = .next (completed s (withCur s (if x.toNat < y.toNat then far else cur s)))) ∧
      (SlotRuns s 0x10 5 →
        exec (.brGezShort a b o) s = .next (completed s (withCur s (if y.toNat ≤ x.toNat then near else cur s))) ∧
        exec (.brGezLong a b e) s = .next (completed s (withCur s (if y.toNat ≤ x.toNat then far else cur s))))) ∧
    (SlotRuns s 0x10 6 →
      (readM (cur s) a = some m →
        (∀ taken : Bool, (taken = true ↔ ∃ i, i < (cur s).vl.toNat ∧ m.getLsbD i = true) →
          exec (.brAnyShort a o) s = .next (completed s (withCur s (if taken then near else cur s))) ∧
          exec (.brAnyLong a e) s = .next (completed s (withCur s (if taken then far else cur s))))) ∧
      (readM (cur s) a = none →
        exec (.brAnyShort a o) s = .next (operandTrap s) ∧ exec (.brAnyLong a e) s = .next (operandTrap s)))

/-- R95: outside a rope, `jmp` transfers to its label; `jal` and `jr` write and push the address of the next convoy and
transfer; `jr` reads its target first, and one with any of bits [3:0] set raises ALIGN with nothing written. -/
def Obligations.Jumps : Prop :=
  ∀ (s : State) (a b : BitVec 7) (o : BitVec 14) (e : Word) (t : DWord),
    (cur s).inRope = false → (cur s).curConv.crew = [] → (cur s).recorded = none →
    (SlotRuns s 0x11 0 →
      exec (.jmpShort o) s = .next (completed s (withCur s (goingTo (cur s) ((cur s).pc + 16 * o.signExtend 64)))) ∧
      exec (.jmpLong e) s = .next (completed s (withCur s (goingTo (cur s) ((cur s).pc + 16 * e.signExtend 64))))) ∧
    (SlotRuns s 0x11 1 → sDest a = true →
      exec (.jalShort a o) s = .next (completed s (withCur s
        (goingTo ((cur s).result a ((cur s).pc + 16)) ((cur s).pc + 16 * o.signExtend 64)))) ∧
      exec (.jalLong a e) s = .next (completed s (withCur s
        (goingTo ((cur s).result a ((cur s).pc + 16)) ((cur s).pc + 16 * e.signExtend 64))))) ∧
    (SlotRuns s 0x11 2 → sDest a = true → readS (cur s) b = some t →
      (t.toNat % 16 = 0 → exec (.jr a b) s = .next (completed s (withCur s
        (goingTo ((cur s).result a ((cur s).pc + 16)) t)))) ∧
      (t.toNat % 16 ≠ 0 → exec (.jr a b) s = .next (trapped s cALIGN (alignInfo 16 true) t 0 0 s)))

/-- R99: outside a rope, with a pass counter x and a drain depth d of at most 30, `lrot` writes x - 1 and branches when x is
above 0 as a signed value, shifts SPRD left with 1 in bit 0 exactly when x - 1 is at least d, and moves WBASE.ROF one step
round a region that is not empty; it pushes nothing; a depth above 30 raises ILLEGAL-OPERAND.
R100, R101: on a hart with an allocation, `wbase` moves WBASE.S by 16 * ds and WBASE.V by 8 * dv where the new values
keep R10 and R11, leaving ROF and every other bit, and raises ILLEGAL-OPERAND where they do not (that a hart without an
allocation keeps WBASE.V = 0 is the model's choice, log 16); `nop` changes nothing; `yield` gives up one opportunity. -/
def Obligations.LoopsAndWindows : Prop :=
  (∀ (s : State) (a d o : BitVec 7) (e : Word) (x : DWord) (g k : Hart),
     SlotRuns s 0x12 0 → (cur s).inRope = false → (cur s).curConv.crew = [] → (cur s).recorded = none → sDest a = true → readS (cur s) a = some x →
     g = (if 0 < x.toInt then writeS (cur s) a (x - 1) else cur s) →
     k = { g with
       sprd := (g.sprd <<< 1) ||| (if 0 < x.toInt ∧ (d.toNat : Int) ≤ x.toInt - 1 then 1 else 0)
       wbase := if (cur s).rotR = 0 then g.wbase else withBits g.wbase 37 32 (((cur s).rof + 1) % (cur s).rotR) } →
     (d.toNat ≤ 30 →
       exec (.lrotShort a d o) s = .next (completed s (withCur s
         (if 0 < x.toInt then goingTo k ((cur s).pc + 16 * o.signExtend 64) else k))) ∧
       exec (.lrotLong a d e) s = .next (completed s (withCur s
         (if 0 < x.toInt then goingTo k ((cur s).pc + 16 * e.signExtend 64) else k)))) ∧
     (30 < d.toNat → exec (.lrotShort a d o) s = .next (operandTrap s) ∧ exec (.lrotLong a d e) s = .next (operandTrap s))) ∧
  (∀ (s : State) (ds dv : BitVec 7) (S V : Int),
     S = (cur s).wbS + 16 * ds.toInt → V = (cur s).wbV + 8 * dv.toInt → (cur s).valloc ≤ 512 →
     (SlotRuns s 0x12 1 → (cur s).chunks ≠ [] →
       ((0 ≤ S ∧ S ≤ 160 ∧ S % 16 = 0 ∧ 0 ≤ V ∧ V % 8 = 0 ∧ V + 96 ≤ (cur s).valloc) →
         ∃ w : DWord, exec (.wbase ds dv) s = .next (completed s (withCur s { cur s with wbase := w })) ∧
           (bits w 7 0 : Int) = S ∧ (bits w 24 16 : Int) = V ∧
           ∀ i, 8 ≤ i → i < 16 ∨ 24 < i → w.getLsbD i = (cur s).wbase.getLsbD i) ∧
       (¬ (0 ≤ S ∧ S ≤ 160 ∧ S % 16 = 0 ∧ 0 ≤ V ∧ V % 8 = 0 ∧ V + 96 ≤ (cur s).valloc) →
         exec (.wbase ds dv) s = .next (operandTrap s))) ∧
     (SlotRuns s 0x13 0 → exec .nop s = .next (completed s (withCur s (cur s)))) ∧
     (SlotRuns s 0x13 1 → exec .yield s = .next (completed s (withCur s { cur s with yield := true }))))

/-- R19, R98: in every form of every branch, jump and `lrot`, a rope's leader decides by its own operands, leaves that
decision with every member that has its convoy in hand, and applies it; a member applies the decision it was left with to
its own registers, whatever its own operands, and waits while its leader has not decided; the harts that began a convoy as a
rope complete it as one also where a trap has disbanded the rope meanwhile (R21). That a misaligned `jr` target of the leader
raises ALIGN on every member, and that a member whose leader has left the convoy decides on its own operands, is the model's
reading (log 73). -/
def Obligations.RopeDecisions : Prop :=
  ∀ (s : State) (a b d o : BitVec 7) (i : BitVec 14) (e : Word) (c : Decision) (t x y : DWord) (m : VReg),
    let g := cur s
    let leads := g.recorded = none ∧ isMember s s.cur = false
    let waits := g.recorded = none ∧ isMember s s.cur = true
    let settled (z : Decision) := recordDecision s s.cur z
    let near := g.pc + 16 * o.signExtend 64
    let far := g.pc + 16 * e.signExtend 64
    let Does (n : Instr) (u : State) := exec n s = .next (completed s u)
    let Follows (n : Instr) (f : State → Decision → State) :=
      (g.recorded = some (.decided c) → Does n (f s c)) ∧
      (waits → exec n s = .next (waiting s (.notReady false) s))
    let go (u : State) (z : Decision) := withCur u ((cur u).transfer z)
    let link (u : State) (z : Decision) := withCur u (((cur u).result a (g.pc + 16)).transfer z)
    let turn (u : State) (z : Decision) := withCur u ((Hart.rotate
      { (if z.1.isSome then writeS (cur u) a (x - 1) else cur u) with sprd := lrotSprd g.sprd z.2 }).transfer z)
    (∀ z k r, g.inRope = true ∨ g.curConv.crew ≠ [] → k ∈ crewOf s s.cur → (getHart s k).conv = some r →
      r.crew = g.curConv.crew →
      ∃ r', (getHart (settled z) k).conv = some r' ∧ (g.curConv.slot, Ruling.decided z) ∈ r'.ctl) ∧
    (∀ fn n l p, (fn, n, l, p) ∈ ([(0, .brEqShort a b o, .brEqLong a b e, decide (x = y)),
        (1, .brNeShort a b o, .brNeLong a b e, decide (x ≠ y)),
        (2, .brLtsShort a b o, .brLtsLong a b e, decide (x.toInt < y.toInt)),
        (3, .brGesShort a b o, .brGesLong a b e, decide (y.toInt ≤ x.toInt)),
        (4, .brLtzShort a b o, .brLtzLong a b e, decide (x.toNat < y.toNat)),
        (5, .brGezShort a b o, .brGezLong a b e, decide (y.toNat ≤ x.toNat))] : List (Nat × Instr × Instr × Bool)) →
      SlotRuns s 0x10 fn → readS g a = some x → readS g b = some y →
      let n1 : Decision := (if p then some near else none, false)
      let l1 : Decision := (if p then some far else none, false)
      Follows n go ∧ Follows l go ∧ (leads → Does n (go (settled n1) n1) ∧ Does l (go (settled l1) l1))) ∧
    (∀ p : Bool, (p = true ↔ ∃ k, k < g.vl.toNat ∧ m.getLsbD k = true) → SlotRuns s 0x10 6 → readM g a = some m →
      let n1 : Decision := (if p then some near else none, false)
      let l1 : Decision := (if p then some far else none, false)
      Follows (.brAnyShort a o) go ∧ Follows (.brAnyLong a e) go ∧
      (leads → Does (.brAnyShort a o) (go (settled n1) n1) ∧ Does (.brAnyLong a e) (go (settled l1) l1))) ∧
    (let n1 : Decision := (some (g.pc + 16 * i.signExtend 64), false)
     let l1 : Decision := (some far, false)
     (SlotRuns s 0x11 0 → Follows (.jmpShort i) go ∧ Follows (.jmpLong e) go ∧
       (leads → Does (.jmpShort i) (go (settled n1) n1) ∧ Does (.jmpLong e) (go (settled l1) l1))) ∧
     (SlotRuns s 0x11 1 → sDest a = true → Follows (.jalShort a i) link ∧ Follows (.jalLong a e) link ∧
       (leads → Does (.jalShort a i) (link (settled n1) n1) ∧ Does (.jalLong a e) (link (settled l1) l1)))) ∧
    (SlotRuns s 0x11 2 → sDest a = true → readS g b = some x →
      let n1 : Decision := (some x, false)
      let bad (u : State) (w : DWord) := exec (.jr a b) s = .next (trapped s cALIGN (alignInfo 16 true) w 0 0 u)
      (c.1 = some t → t.toNat % 16 = 0 → Follows (.jr a b) link) ∧
      (c.1 = some t → t.toNat % 16 ≠ 0 → g.recorded = some (.decided c) → bad s t) ∧
      (leads → if x.toNat % 16 = 0 then Does (.jr a b) (link (settled n1) n1) else bad (settled n1) x)) ∧
    (SlotRuns s 0x12 0 → sDest a = true → readS g a = some x → d.toNat ≤ 30 →
      let n1 : Decision := if 0 < x.toInt then (some near, decide ((d.toNat : Int) ≤ x.toInt - 1)) else (none, false)
      let l1 : Decision := if 0 < x.toInt then (some far, decide ((d.toNat : Int) ≤ x.toInt - 1)) else (none, false)
      Follows (.lrotShort a d o) turn ∧ Follows (.lrotLong a d e) turn ∧
      (leads → Does (.lrotShort a d o) (turn (settled n1) n1) ∧ Does (.lrotLong a d e) (turn (settled l1) l1)))

/-- R16, R74, R96: when every live slot has completed, the PC becomes the target a slot decided, or the next convoy; the
pending entries, up to the three of a convoy with CHAIN = 0, enter the last-result file in slot order; a convoy entered by `eret` clears HEPC, CVR and VRI; and the
hints of VER 1, the stall count and the yield, take effect. -/
def Obligations.ConvoyRetirement : Prop :=
  ∀ (s : State) (hk : Nat) (h : Hart) (c : Conv) (u v w : VReg),
    h = getHart s hk → h.conv = some c → hdrNS c.hdr ≤ c.slot →
    ∃ g : Hart, runConvoy s hk = setHart s hk g ∧
      g.conv = none ∧
      (∀ t, c.target = some t → g.pc = t) ∧ (c.target = none → g.pc = h.pc + 16) ∧
      (h.q.pend = [] → g.q = h.q) ∧
      (h.q.pend = [u] → g.q = { q0 := u, q1 := h.q.q0, q2 := h.q.q1, q3 := h.q.q2, pend := [] }) ∧
      (h.q.pend = [u, v] → g.q = { q0 := v, q1 := u, q2 := h.q.q0, q3 := h.q.q1, pend := [] }) ∧
      (h.q.pend = [u, v, w] → g.q = { q0 := w, q1 := v, q2 := u, q3 := h.q.q0, pend := [] }) ∧
      (c.ret = true → g.hepc = 0 ∧ g.cvr = 0 ∧ g.vri = 0) ∧
      (c.ret = false → g.hepc = h.hepc ∧ g.cvr = h.cvr ∧ g.vri = h.vri) ∧
      (hdrVer c.hdr = 1 → g.stall = hdrHint c.hdr % 8 ∧ g.yield = (h.yield || decide (8 ≤ hdrHint c.hdr))) ∧
      (hdrVer c.hdr ≠ 1 → g.stall = 0 ∧ g.yield = h.yield) ∧
      g.sregs = h.sregs ∧ g.oregs = h.oregs ∧ g.masks = h.masks ∧ g.hstat = h.hstat

/-- The frame of majors 0x00 to 0x08 and 0x13: an instruction with destination a that does not trap leaves every other
scalar register and operand register, every system register, the masks, flags, windows and SPRD, every other hart and
unit, and every byte of memory as they were.
The frame of majors 0x10 to 0x12 on a hart outside a rope: a control slot that does not trap leaves the PC (the
transfer waits for retirement), every scalar and operand register but the link or counter a, every system register, the
masks and flags, every other hart and unit, and every byte of memory; branches, jumps and `wbase` leave SPRD, and all but
`lrot` and `wbase` leave WBASE. -/
def Obligations.ScalarAndControlFrame : Prop :=
  (∀ (s t : State) (a b c : BitVec 7) (p l : BitVec 6) (i : BitVec 14) (e : Word) (n : Instr),
     n ∈ ([.add a b c, .sub a b c, .mul a b c, .mulhs a b c, .mulhz a b c, .madd a b c, .divs a b c, .divz a b c,
       .rems a b c, .remz a b c, .andReg a b c, .orReg a b c, .xorReg a b c, .andn a b c, .shl a b c, .shrs a b c,
       .shrz a b c, .rotl a b c, .rotr a b c, .addiShort a i, .addiLong a b e, .andiShort a i, .andiLong a b e,
       .oriShort a i, .oriLong a b e, .xoriShort a i, .xoriLong a b e, .shliShort a i, .shliLong a b e,
       .rotriShort a i, .rotriLong a b e, .lih a b e, .slts a b c, .sltz a b c, .sel a b c, .mins a b c, .minz a b c,
       .maxs a b c, .maxz a b c, .clz a b, .ctz a b, .popc a b, .bswap a b, .bextsShort a p l, .bextsLong a b e,
       .bextzShort a p l, .bextzLong a b e, .bins a b e, .nop, .yield] : List Instr) →
     exec n s = .next t → t ≠ operandTrap s → t ≠ instructionTrap s →
     OnlyCur s t ∧ MemoryKept s t ∧ ScalarsKept a (cur s) (cur t) ∧ SystemKept (cur s) (cur t) ∧ FlagsKept (cur s) (cur t)) ∧
  (∀ (s t : State) (a b c d : BitVec 7) (i : BitVec 14) (e : Word) (n : Instr),
     n ∈ ([.brEqShort b c d, .brEqLong b c e, .brNeShort b c d, .brNeLong b c e, .brLtsShort b c d, .brLtsLong b c e,
       .brGesShort b c d, .brGesLong b c e, .brLtzShort b c d, .brLtzLong b c e, .brGezShort b c d, .brGezLong b c e,
       .brAnyShort b d, .brAnyLong b e, .jmpShort i, .jmpLong e, .jalShort a i, .jalLong a e, .jr a b,
       .lrotShort a b d, .lrotLong a b e, .wbase b c] : List Instr) →
     (cur s).inRope = false → (cur s).curConv.crew = [] → (cur s).recorded = none → exec n s = .next t →
     t ≠ operandTrap s → t ≠ instructionTrap s → (∀ x, t ≠ trapped s cALIGN (alignInfo 16 true) x 0 0 s) →
     OnlyCur s t ∧ MemoryKept s t ∧ (cur t).pc = (cur s).pc ∧ ScalarsKept a (cur s) (cur t) ∧
       SystemKept (cur s) (cur t) ∧ (∀ k, (cur t).maskReg k = (cur s).maskReg k) ∧ (cur t).sticky = (cur s).sticky ∧
       ((∀ x y z, n ≠ .lrotShort x y z) → (∀ x y z, n ≠ .lrotLong x y z) → (cur t).sprd = (cur s).sprd ∧
         ((∀ x y, n ≠ .wbase x y) → (cur t).wbase = (cur s).wbase)))

/-- R110: with w = SEW of at least 8 and x i, y i, d i the elements of the sources and the old destination, each integer
instruction completes and gives every active element the value of its row, masked-off and tail elements as R104 says. -/
def Obligations.IntegerVectorResults : Prop :=
  ∀ (s : State) (a b c : BitVec 7) (p q o : Nat) (x y d : Nat → BitVec (cur s).sew),
    8 ≤ (cur s).sew → VvReady s a b c p q o →
    (∀ i, (x i).toNat = elem p i (cur s).sew) → (∀ i, (y i).toNat = elem q i (cur s).sew) →
    (∀ i, (d i).toNat = elem o i (cur s).sew) →
    let w := (cur s).sew
    let R (f : Nat → BitVec w) (u : Host.Outcome State Fault Refusal) := VectorResult s a w (fun i => (f i).toNat) 0 0 u
    (SlotRuns s 0x18 0 → R (fun i => x i + y i) (exec (.vadd a b c) s)) ∧
    (SlotRuns s 0x18 1 → R (fun i => x i - y i) (exec (.vsub a b c) s)) ∧
    (SlotRuns s 0x18 2 → R (fun i => x i * y i) (exec (.vmul a b c) s)) ∧
    (SlotRuns s 0x18 3 → R (fun i => ((x i).signExtend (2 * w) * (y i).signExtend (2 * w)).extractLsb' w w)
      (exec (.vmulhs a b c) s)) ∧
    (SlotRuns s 0x18 4 → R (fun i => ((x i).setWidth (2 * w) * (y i).setWidth (2 * w)).extractLsb' w w)
      (exec (.vmulhz a b c) s)) ∧
    (SlotRuns s 0x18 5 → R (fun i => d i + x i * y i) (exec (.vmacc a b c) s)) ∧
    (SlotRuns s 0x19 0 → R (fun i => if y i = 0 then BitVec.allOnes w
      else if x i = BitVec.intMin w ∧ y i = BitVec.allOnes w then BitVec.intMin w
      else BitVec.ofInt w ((x i).toInt.tdiv (y i).toInt)) (exec (.vdivs a b c) s)) ∧
    (SlotRuns s 0x19 1 → R (fun i => if y i = 0 then BitVec.allOnes w else BitVec.ofNat w ((x i).toNat / (y i).toNat))
      (exec (.vdivz a b c) s)) ∧
    (SlotRuns s 0x19 2 → R (fun i => if y i = 0 then x i
      else if x i = BitVec.intMin w ∧ y i = BitVec.allOnes w then 0
      else BitVec.ofInt w ((x i).toInt.tmod (y i).toInt)) (exec (.vrems a b c) s)) ∧
    (SlotRuns s 0x19 3 → R (fun i => if y i = 0 then x i else BitVec.ofNat w ((x i).toNat % (y i).toNat))
      (exec (.vremz a b c) s)) ∧
    (SlotRuns s 0x1A 0 → R (fun i => x i &&& y i) (exec (.vand a b c) s)) ∧
    (SlotRuns s 0x1A 1 → R (fun i => x i ||| y i) (exec (.vor a b c) s)) ∧
    (SlotRuns s 0x1A 2 → R (fun i => x i ^^^ y i) (exec (.vxor a b c) s)) ∧
    (SlotRuns s 0x1A 3 → R (fun i => x i &&& ~~~(y i)) (exec (.vandn a b c) s)) ∧
    (SlotRuns s 0x1B 0 → R (fun i => x i <<< ((y i).toNat % w)) (exec (.vshl a b c) s)) ∧
    (SlotRuns s 0x1B 1 → R (fun i => (x i).sshiftRight ((y i).toNat % w)) (exec (.vshrs a b c) s)) ∧
    (SlotRuns s 0x1B 2 → R (fun i => x i >>> ((y i).toNat % w)) (exec (.vshrz a b c) s)) ∧
    (SlotRuns s 0x1C 0 → R (fun i => if (x i).toInt ≤ (y i).toInt then x i else y i) (exec (.vmins a b c) s)) ∧
    (SlotRuns s 0x1C 1 → R (fun i => if (x i).toNat ≤ (y i).toNat then x i else y i) (exec (.vminz a b c) s)) ∧
    (SlotRuns s 0x1C 2 → R (fun i => if (x i).toInt ≤ (y i).toInt then y i else x i) (exec (.vmaxs a b c) s)) ∧
    (SlotRuns s 0x1C 3 → R (fun i => if (x i).toNat ≤ (y i).toNat then y i else x i) (exec (.vmaxz a b c) s)) ∧
    (SlotRuns s 0x1D 0 → R (fun i => BitVec.ofInt w (max (-(2 ^ (w - 1) : Nat)) (min ((2 ^ (w - 1) : Nat) - 1)
      ((x i).toInt + (y i).toInt)))) (exec (.vsadds a b c) s)) ∧
    (SlotRuns s 0x1D 1 → R (fun i => BitVec.ofNat w (min (2 ^ w - 1) ((x i).toNat + (y i).toNat)))
      (exec (.vsaddz a b c) s)) ∧
    (SlotRuns s 0x1D 2 → R (fun i => BitVec.ofInt w (max (-(2 ^ (w - 1) : Nat)) (min ((2 ^ (w - 1) : Nat) - 1)
      ((x i).toInt - (y i).toInt)))) (exec (.vssubs a b c) s)) ∧
    (SlotRuns s 0x1D 3 → R (fun i => BitVec.ofNat w ((x i).toNat - (y i).toNat)) (exec (.vssubz a b c) s))

/-- R117: with VL at most 1,024, a compare completes and sets bit i of its mask exactly when its relation holds for active
element i; of the float compares, those with a NaN operand hold for `vfcmpun` alone, and NV is raised for any NaN by
`vfcmplt` and `vfcmple`, for a signalling one by the others. -/
def Obligations.CompareResults : Prop :=
  ∀ (s : State) (a b c : BitVec 7) (p q : Nat) (x y : Nat → BitVec (cur s).sew) (m : Fmt) (u v : Nat → FVal),
    mDest a = true → (cur s).len ≤ 1024 →
    readV (curLocal s) b (cur s).grp = some p → readV (curLocal s) c (cur s).grp = some q →
    (∀ i, (x i).toNat = elem p i (cur s).sew) → (∀ i, (y i).toNat = elem q i (cur s).sew) →
    (∀ i, u i = decodeF m (elem p i (cur s).sew)) → (∀ i, v i = decodeF m (elem q i (cur s).sew)) →
    (8 ≤ (cur s).sew →
      (SlotRuns s 0x24 0 → MaskResult s a (fun i => decide (x i = y i)) 0 (exec (.vcmpeq a b c) s)) ∧
      (SlotRuns s 0x24 1 → MaskResult s a (fun i => decide (x i ≠ y i)) 0 (exec (.vcmpne a b c) s)) ∧
      (SlotRuns s 0x24 2 → MaskResult s a (fun i => decide ((x i).toInt < (y i).toInt)) 0 (exec (.vcmplts a b c) s)) ∧
      (SlotRuns s 0x24 3 → MaskResult s a (fun i => decide ((x i).toNat < (y i).toNat)) 0 (exec (.vcmpltz a b c) s)) ∧
      (SlotRuns s 0x24 4 → MaskResult s a (fun i => decide ((x i).toInt ≤ (y i).toInt)) 0 (exec (.vcmples a b c) s)) ∧
      (SlotRuns s 0x24 5 → MaskResult s a (fun i => decide ((x i).toNat ≤ (y i).toNat)) 0 (exec (.vcmplez a b c) s))) ∧
    (FloatAt (cur s) m →
      let nan (i : Nat) := (u i).isNan || (v i).isNan
      let sig (i : Nat) := (u i).isSig || (v i).isSig
      let F (nv : Nat → Bool) := activeFlags (cur s) 1024 (fun i => if nv i then 16 else 0)
      (SlotRuns s 0x25 0 → MaskResult s a (fun i => !nan i && eqF (u i) (v i)) (F sig) (exec (.vfcmpeq a b c) s)) ∧
      (SlotRuns s 0x25 1 → MaskResult s a (fun i => !nan i && ltF (u i) (v i)) (F nan) (exec (.vfcmplt a b c) s)) ∧
      (SlotRuns s 0x25 2 → MaskResult s a (fun i => !nan i && (ltF (u i) (v i) || eqF (u i) (v i))) (F nan)
        (exec (.vfcmple a b c) s)) ∧
      (SlotRuns s 0x25 3 → MaskResult s a nan (F sig) (exec (.vfcmpun a b c) s)))

/-- R103, R108, R111 to R116: at SEW 64, 32 or 16, or under a BF16 prefix at SEW 16, each float instruction completes; every
active element takes the value of its element function in that format and raises its flags, and no saturation bit is set.
The element functions have statements of their own. -/
def Obligations.FloatVectorResults : Prop :=
  ∀ (s : State) (a b c : BitVec 7) (p q o : Nat) (m : Fmt) (x y d : Nat → Nat),
    VvReady s a b c p q o → FloatAt (cur s) m →
    (∀ i, x i = elem p i (cur s).sew) → (∀ i, y i = elem q i (cur s).sew) → (∀ i, d i = elem o i (cur s).sew) →
    let R (f : Nat → Res) (u : Host.Outcome State Fault Refusal) := VectorResult s a (cur s).sew (fun i => (f i).bits)
      (activeFlags (cur s) (1024 * (cur s).grp / (cur s).sew) (fun i => (f i).fl)) 0 u
    (SlotRuns s 0x20 0 → R (fun i => fmaF m (d i) (x i) (y i)) (exec (.vfma a b c) s)) ∧
    (SlotRuns s 0x20 1 → R (fun i => addF m (x i) (y i)) (exec (.vfadd a b c) s)) ∧
    (SlotRuns s 0x20 2 → R (fun i => subF m (x i) (y i)) (exec (.vfsub a b c) s)) ∧
    (SlotRuns s 0x20 3 → R (fun i => mulF m (x i) (y i)) (exec (.vfmul a b c) s)) ∧
    (SlotRuns s 0x20 4 → R (fun i => divF m (x i) (y i)) (exec (.vfdiv a b c) s)) ∧
    (SlotRuns s 0x20 5 → R (fun i => sqrtF m (x i)) (exec (.vfsqrt a b) s)) ∧
    (SlotRuns s 0x21 0 → R (fun i => rcpF m (x i)) (exec (.vfrcpe a b) s)) ∧
    (SlotRuns s 0x21 1 → R (fun i => rsqF m (x i)) (exec (.vfrsqe a b) s)) ∧
    (SlotRuns s 0x21 2 → R (fun i => minMaxF true m (x i) (y i)) (exec (.vfmin a b c) s)) ∧
    (SlotRuns s 0x21 3 → R (fun i => minMaxF false m (x i) (y i)) (exec (.vfmax a b c) s)) ∧
    (SlotRuns s 0x21 4 → R (fun i => { bits := classF m (x i) }) (exec (.vfclass a b) s)) ∧
    (SlotRuns s 0x22 0 → R (fun i => signF m (x i) false) (exec (.vfabs a b) s)) ∧
    (SlotRuns s 0x22 1 → R (fun i => signF m (x i) (!signBit m (x i))) (exec (.vfneg a b) s)) ∧
    (SlotRuns s 0x22 2 → R (fun i => signF m (x i) (signBit m (y i))) (exec (.vfsgnj a b c) s))

/-- R43, R112 to R116, in FP64, FP32, FP16 and BF16: a NaN operand gives the canonical NaN, and NV when it signals; the
invalid cases give the canonical NaN with NV; every other operation with an infinity gives the infinity or zero of exact
arithmetic and no flag; a finite non-zero value over zero gives a signed infinity with DZ; the estimates follow their table, a
finite non-zero value giving its exact reciprocal, or reciprocal root, rounded once to at most twelve bits; minimum and maximum
pass over one NaN and else give the smaller or larger operand, -0 below +0; the class has the one bit of its row.
R45, R46, R111, R112: of finite operands, the sum, difference, product, fused product and sum, quotient by a non-zero and
root are the exact real result rounded once to nearest, ties to even, with OF, UF and NX as R46 says. R45, R49: so is a
finite value converted to any of the seven element formats, which saturates instead of overflowing. R49, R120: a finite
value converted to an integer is rounded to nearest, or truncated, and beyond the range becomes its nearest end (that a
non-zero value which gives 0 raises UF beside NX is read from R49: log 71); infinities and NaNs give what the table of R49
says, each with its saturation bit. -/
def Obligations.FloatCornersAndRounding : Prop :=
  (∀ (m : Fmt) (a b d : Nat), m ∈ [f64, f32, f16, bf16] →
     let x := decodeF m a
     let y := decodeF m b
     let z := decodeF m d
     let nv (t : Bool) : Nat := if t then 16 else 0
     (x.isNan || y.isNan → addF m a b = ⟨m.nan, nv (x.isSig || y.isSig), false⟩ ∧
       subF m a b = ⟨m.nan, nv (x.isSig || y.isSig), false⟩ ∧ mulF m a b = ⟨m.nan, nv (x.isSig || y.isSig), false⟩ ∧
       divF m a b = ⟨m.nan, nv (x.isSig || y.isSig), false⟩ ∧
       fmaF m d a b = ⟨m.nan, nv (x.isSig || y.isSig || z.isSig), false⟩) ∧
     (z.isNan → (fmaF m d a b).bits = m.nan ∧ (¬ (x.isZero && y.isInf || x.isInf && y.isZero) →
       fmaF m d a b = ⟨m.nan, nv (x.isSig || y.isSig || z.isSig), false⟩)) ∧
     (x.isNan → sqrtF m a = ⟨m.nan, nv x.isSig, false⟩ ∧ rcpF m a = ⟨m.nan, nv x.isSig, false⟩ ∧
       rsqF m a = ⟨m.nan, nv x.isSig, false⟩) ∧
     (∀ n, x = .inf n → y = .inf (!n) → addF m a b = ⟨m.nan, 16, false⟩) ∧
     (∀ n, x = .inf n → y = .inf n → subF m a b = ⟨m.nan, 16, false⟩) ∧
     (x.isZero && y.isInf || x.isInf && y.isZero → mulF m a b = ⟨m.nan, 16, false⟩ ∧ fmaF m d a b = ⟨m.nan, 16, false⟩) ∧
     (x.isZero && y.isZero || x.isInf && y.isInf → divF m a b = ⟨m.nan, 16, false⟩) ∧
     (∀ n, x = .inf n → y.isNan = false →
       (y ≠ .inf (!n) → addF m a b = ⟨infCode m n, 0, false⟩) ∧ (y ≠ .inf n → subF m a b = ⟨infCode m n, 0, false⟩) ∧
       (y.isZero = false → mulF m a b = ⟨infCode m (n != y.neg), 0, false⟩) ∧
       (y.isInf = false → divF m a b = ⟨infCode m (n != y.neg), 0, false⟩)) ∧
     (∀ n, y = .inf n → x.isNan = false → x.isInf = false → addF m a b = ⟨infCode m n, 0, false⟩ ∧
       subF m a b = ⟨infCode m (!n), 0, false⟩ ∧ (x.isZero = false → mulF m a b = ⟨infCode m (x.neg != n), 0, false⟩) ∧
       divF m a b = ⟨signed m (x.neg != n) 0, 0, false⟩) ∧
     (x = .inf false → sqrtF m a = ⟨infCode m false, 0, false⟩) ∧
     (∀ n, z = .inf n → x.isNan = false → y.isNan = false → x.isInf = false → y.isInf = false →
       fmaF m d a b = ⟨infCode m n, 0, false⟩) ∧
     (∀ n, (x.isInf && !y.isNan && !y.isZero || y.isInf && !x.isNan && !x.isZero) → (x.neg != y.neg) = n →
       (z = .inf (!n) → fmaF m d a b = ⟨m.nan, 16, false⟩) ∧
       (z.isNan = false → z ≠ .inf (!n) → fmaF m d a b = ⟨infCode m n, 0, false⟩)) ∧
     (x.isNan = false → x.isInf = false → x.isZero = false → y.isZero → divF m a b = ⟨infCode m (x.neg != y.neg), 8, false⟩) ∧
     (x.isNan = false → x.isZero = false → x.neg → sqrtF m a = ⟨m.nan, 16, false⟩ ∧ rsqF m a = ⟨m.nan, 16, false⟩) ∧
     (x.isZero → sqrtF m a = ⟨signed m x.neg 0, 0, false⟩ ∧ rcpF m a = ⟨infCode m x.neg, 8, false⟩ ∧
       rsqF m a = ⟨infCode m x.neg, 8, false⟩) ∧
     (x.isInf → rcpF m a = ⟨signed m x.neg 0, 0, false⟩ ∧ (x.neg = false → rsqF m a = ⟨0, 0, false⟩)) ∧
     (∀ u : ℝ, x.Is u → u ≠ 0 → Estimates m (1 / u) (rcpF m a) ∧ (0 < u → Estimates m (1 / √u) (rsqF m a))) ∧
     (∀ less, (x.isNan → y.isNan → (minMaxF less m a b).bits = m.nan) ∧
       (x.isNan → y.isNan = false → (minMaxF less m a b).bits = b) ∧
       (x.isNan = false → y.isNan → (minMaxF less m a b).bits = a) ∧
       (minMaxF less m a b).fl = nv (x.isSig || y.isSig) ∧
       (∀ u v : ℝ, x.Is u → y.Is v →
         (u < v ∨ u = 0 ∧ v = 0 ∧ x.neg = true ∧ y.neg = false → (minMaxF less m a b).bits = if less then a else b) ∧
         (v < u ∨ u = 0 ∧ v = 0 ∧ x.neg = false ∧ y.neg = true → (minMaxF less m a b).bits = if less then b else a) ∧
         (u = v → x.neg = y.neg → (minMaxF less m a b).bits = a)) ∧
       (∀ n, x = .inf n → y.isNan = false → (minMaxF less m a b).bits = if y = x ∨ n = less then a else b) ∧
       (∀ n, y = .inf n → x.isNan = false → (minMaxF less m a b).bits = if x = y ∨ n ≠ less then a else b)) ∧
     (∀ n, x.isNan = false → (signF m a n).bits = a % 2 ^ (m.ebits + m.mbits) + (if n then 2 ^ (m.ebits + m.mbits) else 0) ∧
       (signF m a n).fl = 0) ∧
     (∀ n, x.isNan → signF m a n = ⟨m.nan, nv x.isSig, false⟩) ∧
     (x.isZero → classF m a = if x.neg then 8 else 16) ∧ (x.isInf → classF m a = if x.neg then 1 else 128) ∧
     (x.isNan → classF m a = if x.isSig then 256 else 512) ∧
     (∀ u : ℝ, x.Is u → u ≠ 0 → classF m a = if (2 : ℝ) ^ (1 - (m.bias : Int)) ≤ |u| then (if x.neg then 2 else 64)
       else (if x.neg then 4 else 32)) ∧ (∃ k, k < 10 ∧ classF m a = 2 ^ k)) ∧
  ((∀ (m : Fmt) (a b d : Nat) (x y z : ℝ), m ∈ [f64, f32, f16, bf16] →
     (decodeF m a).Is x → (decodeF m b).Is y → (decodeF m d).Is z →
     let sa := (decodeF m a).neg
     let sb := (decodeF m b).neg
     let sd := (decodeF m d).neg
     Exactly m (x + y) (sa && sb) (addF m a b) ∧ Exactly m (x - y) (sa && !sb) (subF m a b) ∧
     Exactly m (x * y) (sa != sb) (mulF m a b) ∧ Exactly m (z + x * y) (sd && (sa != sb)) (fmaF m d a b) ∧
     (y ≠ 0 → Exactly m (x / y) (sa != sb) (divF m a b)) ∧ (0 ≤ x → Exactly m √x sa (sqrtF m a))) ∧
   (∀ (m : Fmt) (v : FVal) (x : ℝ), m ∈ [f64, f32, f16, bf16, e5m2, e4m3, e2m1] → v.Is x → Converts m v x (convElem m v)) ∧
   (∀ n, (∀ m ∈ [f64, f32, f16, bf16, e5m2], convElem m (.inf n) = ⟨infCode m n, 0, false⟩) ∧
     convElem e4m3 (.inf n) = ⟨if n then 0xFE else 0x7E, 32, true⟩ ∧
     convElem e2m1 (.inf n) = ⟨if n then 0xF else 0x7, 32, true⟩) ∧
   (∀ g, (∀ m ∈ [f64, f32, f16, bf16, e5m2, e4m3], convElem m (.nan g) = ⟨m.nan, if g then 16 else 0, false⟩) ∧
     convElem e2m1 (.nan g) = ⟨0, 48, true⟩) ∧
   (∀ (wd : Nat) (sgn tr : Bool), wd ∈ [4, 8, 16, 32, 64] →
     let lo : Int := if sgn then -(2 ^ (wd - 1) : Nat) else 0
     let hi : Int := if sgn then (2 ^ (wd - 1) : Nat) - 1 else (2 ^ wd : Nat) - 1
     (∀ g, toIntF wd sgn tr (.nan g) = (0, 48, true)) ∧
     (∀ n, toIntF wd sgn tr (.inf n) = (if n then wrapInt wd lo else hi.toNat, 32, true)) ∧
     ∀ (v : FVal) (x : ℝ), v.Is x → ToInteger wd lo hi tr v.neg x (toIntF wd sgn tr v)))

/-- R118 to R122, with no prefix pending: where the destination of the width that C names has its place, `vfcvt` rounds the
IEEE source at SEW to FP64, FP32, FP16 or BF16; the float to integer conversions round or truncate to 4 to 64 bits;
`vscvtf` and `vzcvtf` round the integer; `vwiden` extends and `vnarr` clamps, with saturation bits where a value was
changed; a width that is not wider, or not narrower, raises ILLEGAL-OPERAND, whatever the operands (R122).
R118 to R121, R123: with a prefix that names a plain float format without scale registers, code 8 converts the IEEE
source at SEW, or the integers of `vscvtf` and `vzcvtf`, to that format; with one that names a block format and a scale
register, to whole blocks and their scale elements, nothing beyond them being written; with a prefix whose container is SEW
wide, the conversions from float with codes 0 to 4 read each source element in that format, under its block's scale where it
is a block format (R177 has a prefix for codes 0 to 3 name no register, so that the scales are then open values; code 4, which
has no row there, takes them from the register of R123: log 21). A prefix with codes 0 to 3 that names a register, and any
before `vscvtf` or `vzcvtf` with those codes, raises ILLEGAL-OPERAND. So do code 8 without a prefix or with an integer format, and every code that R118 reserves. R54, R55, R59: the scale and the payloads that the elements of one block choose, those masked off or beyond
vl counting as zero (that an element which the scale rule of R54 clamps raises NX is the model's reading, log 23). -/
def Obligations.Conversions : Prop :=
  (∀ (s : State) (a b c : BitVec 7) (p wd : Nat) (m f : Fmt) (x : Nat → FVal) (u z : Nat → Int),
     (cur s).prefixLive = false → readV (curLocal s) b (cur s).grp = some p → DestReady s a b wd →
     (∀ i, u i = (elem p i (cur s).sew : Nat)) → (∀ i, z i = toSigned (cur s).sew (elem p i (cur s).sew)) →
     let num (k : Int) : FVal := .fin (decide (k < 0)) k.natAbs 0
     let N (r : Int × Bool) : Res := ⟨wrapInt wd r.1, if r.2 then 32 else 0, r.2⟩
     let I (r : Nat × Nat × Bool) : Res := ⟨r.1, r.2.1, r.2.2⟩
     (c.toNat < 4 → f = [f64, f32, f16, bf16].getD c.toNat f64 → wd = f.width →
       (FloatAt (cur s) m → (∀ i, x i = decodeF m (elem p i (cur s).sew)) → SlotRuns s 0x28 0 →
         ConvResult s a wd (fun i => convElem f (x i)) (exec (.vfcvt a b c) s)) ∧
       (8 ≤ (cur s).sew →
         (SlotRuns s 0x29 0 → ConvResult s a wd (fun i => convElem f (num (z i))) (exec (.vscvtf a b c) s)) ∧
         (SlotRuns s 0x29 1 → ConvResult s a wd (fun i => convElem f (num (u i))) (exec (.vzcvtf a b c) s)))) ∧
     (c.toNat < 5 → wd = 4 * 2 ^ c.toNat →
       (FloatAt (cur s) m → (∀ i, x i = decodeF m (elem p i (cur s).sew)) →
         (SlotRuns s 0x28 1 → ConvResult s a wd (fun i => I (toIntF wd true false (x i))) (exec (.vfcvts a b c) s)) ∧
         (SlotRuns s 0x28 2 → ConvResult s a wd (fun i => I (toIntF wd false false (x i))) (exec (.vfcvtz a b c) s)) ∧
         (SlotRuns s 0x28 3 → ConvResult s a wd (fun i => I (toIntF wd true true (x i))) (exec (.vfcvtts a b c) s)) ∧
         (SlotRuns s 0x28 4 → ConvResult s a wd (fun i => I (toIntF wd false true (x i))) (exec (.vfcvttz a b c) s))) ∧
       ((cur s).sew < wd →
         (SlotRuns s 0x2A 0 → ConvResult s a wd (fun i => { bits := wrapInt wd (z i) }) (exec (.vwidens a b c) s)) ∧
         (SlotRuns s 0x2A 1 → ConvResult s a wd (fun i => { bits := wrapInt wd (u i) }) (exec (.vwidenz a b c) s))) ∧
       (wd < (cur s).sew →
         (SlotRuns s 0x2A 2 → ConvResult s a wd (fun i => N (clampS wd (z i))) (exec (.vnarrs a b c) s)) ∧
         (SlotRuns s 0x2A 3 → ConvResult s a wd (fun i => N (clampU wd (u i))) (exec (.vnarrz a b c) s)))) ∧
     (c.toNat < 5 →
       (4 * 2 ^ c.toNat ≤ (cur s).sew →
         (SlotRuns s 0x2A 0 → exec (.vwidens a b c) s = .next (operandTrap s)) ∧
         (SlotRuns s 0x2A 1 → exec (.vwidenz a b c) s = .next (operandTrap s))) ∧
       ((cur s).sew ≤ 4 * 2 ^ c.toNat →
         (SlotRuns s 0x2A 2 → exec (.vnarrs a b c) s = .next (operandTrap s)) ∧
         (SlotRuns s 0x2A 3 → exec (.vnarrz a b c) s = .next (operandTrap s))))) ∧
  ((∀ (s : State) (a b c : BitVec 7) (p sc old g n : Nat) (m f : Fmt) (q : Pfx) (x : Nat → FVal),
     let num (k : Int) : FVal := .fin (decide (k < 0)) k.natAbs 0
     let u (i : Nat) : FVal := num (elem p i (cur s).sew : Nat)
     let z (i : Nat) : FVal := num (toSigned (cur s).sew (elem p i (cur s).sew))
     let I (r : Nat × Nat × Bool) : Res := ⟨r.1, r.2.1, r.2.2⟩
     let fl (wd : Nat) (h : Nat → FVal → Res) (i : Instr) (y : Nat → FVal) := ConvResult s a wd (fun k => h wd (y k)) (exec i s)
     readV (curLocal s) b (cur s).grp = some p →
     ((cur s).prefixLive = true → (cur s).readPfx = some q → q.c = noSpec → q.f.isInt = false →
       (c.toNat = 8 → (∀ i, x i = decodeF m (elem p i (cur s).sew)) →
         let To (P : Instr → (Nat → FVal) → Prop) :=
           (m ∈ [f64, f32, f16] → m.width = (cur s).sew → SlotRuns s 0x28 0 → P (.vfcvt a b c) x) ∧
           (8 ≤ (cur s).sew → SlotRuns s 0x29 0 → P (.vscvtf a b c) z) ∧
           (8 ≤ (cur s).sew → SlotRuns s 0x29 1 → P (.vzcvtf a b c) u)
         (q.f.block = 0 → q.b = noSpec → q.f.elem = some f → DestReady s a b q.f.width →
           To (fl q.f.width (fun _ => convElem f))) ∧
         (q.f.block ≠ 0 → q.b.toNat < 96 → DestReady s a b q.f.width → destShape (cur s) q.f.width = some (g, n) →
           readV (curLocal s) a g = some old → readV (curLocal s) q.b 1 = some sc → scalesFit q.f (cur s).len = true →
           overlaps q.b 1 b (cur s).grp = false → overlaps q.b 1 a g = false →
           To (fun i y => BlockResult s a q g n old sc y (exec i s)))) ∧
       (q.f.width = (cur s).sew →
         (q.f.block = 0 ∧ q.b = noSpec ∧ sc = 0 ∨
           (q.f.block ≠ 0 ∧ c.toNat < 4 ∧ q.b = noSpec ∧ sc = Config.openScales q.f.scaleWidth ∧
             scalesFit q.f (cur s).len = true) ∨
           (q.f.block ≠ 0 ∧ c.toNat = 4 ∧ q.b.toNat < 96 ∧ readV (curLocal s) q.b 1 = some sc ∧ scalesFit q.f (cur s).len = true ∧
             overlaps q.b 1 b (cur s).grp = false ∧
             ∀ g, g ≤ 8 → overlaps q.b 1 a g = false)) →
         (∀ i, x i = bfmtValue q.f q.u sc i (elem p i (cur s).sew)) →
         (c.toNat < 4 → f = [f64, f32, f16, bf16].getD c.toNat f64 → DestReady s a b f.width → SlotRuns s 0x28 0 →
           fl f.width (fun _ => convElem f) (.vfcvt a b c) x) ∧
         (c.toNat < 5 → DestReady s a b (4 * 2 ^ c.toNat) →
           let R (sgn tr : Bool) (i : Instr) := fl (4 * 2 ^ c.toNat) (fun w v => I (toIntF w sgn tr v)) i x
           (SlotRuns s 0x28 1 → R true false (.vfcvts a b c)) ∧ (SlotRuns s 0x28 2 → R false false (.vfcvtz a b c)) ∧
           (SlotRuns s 0x28 3 → R true true (.vfcvtts a b c)) ∧ (SlotRuns s 0x28 4 → R false true (.vfcvttz a b c))))) ∧
     (let no (i : Instr) := exec i s = .next (operandTrap s)
      (3 < c.toNat → c.toNat ≠ 8 ∨ (cur s).prefixLive = false ∨ (∃ q, (cur s).readPfx = some q ∧ q.f.isInt = true) →
        (SlotRuns s 0x28 0 → no (.vfcvt a b c)) ∧ (SlotRuns s 0x29 0 → no (.vscvtf a b c)) ∧
        (SlotRuns s 0x29 1 → no (.vzcvtf a b c))) ∧
      (c.toNat < 4 → (cur s).prefixLive = true →
        (SlotRuns s 0x29 0 → no (.vscvtf a b c)) ∧ (SlotRuns s 0x29 1 → no (.vzcvtf a b c)) ∧
        ((∃ q, (cur s).readPfx = some q ∧ (q.b ≠ noSpec ∨ q.c ≠ noSpec ∨ q.f.isInt = true)) →
          (SlotRuns s 0x28 0 → no (.vfcvt a b c)) ∧ (SlotRuns s 0x28 1 → no (.vfcvts a b c)) ∧
          (SlotRuns s 0x28 2 → no (.vfcvtz a b c)) ∧ (SlotRuns s 0x28 3 → no (.vfcvtts a b c)) ∧
          (SlotRuns s 0x28 4 → no (.vfcvttz a b c)))) ∧
      (4 < c.toNat →
        (SlotRuns s 0x28 1 → no (.vfcvts a b c)) ∧ (SlotRuns s 0x28 2 → no (.vfcvtz a b c)) ∧
        (SlotRuns s 0x28 3 → no (.vfcvtts a b c)) ∧ (SlotRuns s 0x28 4 → no (.vfcvttz a b c)) ∧
        (SlotRuns s 0x2A 0 → no (.vwidens a b c)) ∧ (SlotRuns s 0x2A 1 → no (.vwidenz a b c)) ∧
        (SlotRuns s 0x2A 2 → no (.vnarrs a b c)) ∧ (SlotRuns s 0x2A 3 → no (.vnarrz a b c))))) ∧
   (∀ (f : BFmt) (xs : List (Option FVal)), f.block ≠ 0 → xs.length = f.block →
     let act := xs.filterMap id
     let vals := xs.map (fun y => y.getD (.fin false 0 0))
     let X := (blockOf f xs).1
     let at_ (j : Nat) : Res := (blockOf f xs).2.getD j ⟨0, 0, false⟩
     (blockOf f xs).2.length = f.block ∧ (∀ j, xs[j]? = some none → at_ j = ⟨0, 0, false⟩) ∧
     (act.any FVal.isNan = true → X = 0xFF ∧ ∀ j v, xs[j]? = some (some v) →
       at_ j = ⟨0, if v.isSig then 16 else 0, false⟩) ∧
     (act.any FVal.isNan = false → f.isKx = false → ∃ big : Bool,
       (act.any FVal.isInf = true → X = 254 ∧ big = true) ∧
       ((∀ v ∈ act, v.isZero = true) → X = 0 ∧ big = false) ∧
       (∀ l : Int, act.any FVal.isInf = false → TopBinade act l →
         (X : Int) = max 0 (min 254 (l - mxEmax f + 127)) ∧ (big = true ↔ 254 < l - mxEmax f + 127)) ∧
       (∀ j v m, xs[j]? = some (some v) → f.elem = some m →
         (∀ n, v = .inf n → at_ j = convElem m (.inf n)) ∧
         ∀ x : ℝ, v.Is x → (x = 0 → at_ j = ⟨signed m v.neg 0, 0, false⟩) ∧
           (x ≠ 0 → Rounds m (x / (2 : ℝ) ^ ((X : Int) - 127))
             (fun n => ⟨signed m n m.maxCode, if big then 32 else 1, big⟩) (at_ j))) ∧
       (∀ j v, xs[j]? = some (some v) → f.elem = none →
         let low : Nat := if v.neg then 0x80 else 0x7F
         (v.isInf = true → at_ j = ⟨low, 32, true⟩) ∧
         ∀ x : ℝ, v.Is x → ∃ k, NearestEven (|x| / (2 : ℝ) ^ ((X : Int) - 127 - 6)) k ∧
           (k ≤ (if v.neg then 128 else 127) → (at_ j).bits = wrapInt 8 (if v.neg then -(k : Int) else k) ∧ (at_ j).sat = false) ∧
           ((if v.neg then 128 else 127) < k → at_ j = ⟨low, if big then 32 else 1, big⟩))) ∧
     (act.any FVal.isNan = false → f.isKx = true →
       let m := f.kxBits
       let E : Int := (X % 256 : Nat)
       let mu (r : Nat) : Nat := X / 2 ^ (8 + 2 * r) % 4
       E ≤ 254 ∧ (E = 254 ∨ FitBits m (E - 127 - ((m : Int) - 1)) vals) ∧
       (∀ e : Int, 0 ≤ e → e < E → ¬ FitBits m (e - 127 - ((m : Int) - 1)) vals) ∧
       (∀ r, r < 4 → let quad := (vals.drop (4 * r)).take 4
         (mu r = 0 ∨ FitBits m (E - 127 - (mu r : Int) - ((m : Int) - 1)) quad) ∧
         ∀ w : Nat, mu r < w → w ≤ 3 → ¬ FitBits m (E - 127 - (w : Int) - ((m : Int) - 1)) quad) ∧
       (∀ j v, vals[j]? = some v →
         let sg := if v.neg then 2 ^ m else 0
         (v.isInf = true → at_ j = ⟨2 ^ m - 1 + sg, 32, true⟩) ∧
         ∀ x : ℝ, v.Is x → ∃ k, NearestEven (|x| / (2 : ℝ) ^ (E - 127 - (mu (j / 4) : Int) - ((m : Int) - 1))) k ∧
           (k < 2 ^ m → (at_ j).bits = k + sg ∧ (at_ j).sat = false) ∧
           (2 ^ m ≤ k → at_ j = ⟨2 ^ m - 1 + sg, 32, true⟩)))))

/-- R124, R125: at SEW 64 each complex instruction completes on complex elements. Each part of `vcmul` and `vcmac` is the exact
sum of its two products, with the accumulator's part, rounded once; `vcconj` flips the imaginary sign, a NaN part becoming
the canonical NaN; `vcnorm` gives each part over the exact magnitude, rounded once, and for zeros, infinities and NaNs the
values of its table (that two infinite parts raise no flag is the model's choice, log 72). -/
def Obligations.ComplexResults : Prop :=
  let re (z : Nat) := decodeF f32 (z % 2 ^ 32)
  let im (z : Nat) := decodeF f32 (z / 2 ^ 32)
  let part (ts : List Term) := rneArith f32 (sumTerms false ts)
  let pair (r i : Nat × Nat) : Res := ⟨r.1 + i.1 * 2 ^ 32, r.2 ||| i.2, false⟩
  let conj (z : Nat) (flip : Bool) : Nat × Nat :=
    if (decodeF f32 z).isNan then (0x7FC00000, if (decodeF f32 z).isSig then 16 else 0)
    else (if flip then z ^^^ 2 ^ 31 else z, 0)
  (∀ (s : State) (a b c : BitVec 7) (p q o : Nat) (x y d : Nat → Nat),
    (cur s).sew = 64 → VvReady s a b c p q o →
    (∀ i, x i = elem p i 64) → (∀ i, y i = elem q i 64) → (∀ i, d i = elem o i 64) →
    let R (f : Nat → Res) (u : Host.Outcome State Fault Refusal) := VectorResult s a 64 (fun i => (f i).bits)
      (activeFlags (cur s) (1024 * (cur s).grp / 64) (fun i => (f i).fl)) 0 u
    (SlotRuns s 0x2C 0 → R (fun i => pair
        (part [mulTerm (re (x i)) (re (y i)), (mulTerm (im (x i)) (im (y i))).negate])
        (part [mulTerm (re (x i)) (im (y i)), mulTerm (im (x i)) (re (y i))])) (exec (.vcmul a b c) s)) ∧
    (SlotRuns s 0x2C 1 → R (fun i => pair
        (part [.val (re (d i)), mulTerm (re (x i)) (re (y i)), (mulTerm (im (x i)) (im (y i))).negate])
        (part [.val (im (d i)), mulTerm (re (x i)) (im (y i)), mulTerm (im (x i)) (re (y i))])) (exec (.vcmac a b c) s)) ∧
    (SlotRuns s 0x2C 2 → R (fun i => pair (conj (x i % 2 ^ 32) false) (conj (x i / 2 ^ 32) true)) (exec (.vcconj a b) s)) ∧
    (SlotRuns s 0x2C 3 → R (fun i => cNorm (x i)) (exec (.vcnorm a b) s))) ∧
  (∀ z : Nat, z < 2 ^ 64 →
    let one (n : Bool) : Nat := if n then 0xBF800000 else 0x3F800000
    let nul (n : Bool) : Nat := if n then 0x80000000 else 0
    let half (n : Bool) : Nat := if n then 0xBF3504F3 else 0x3F3504F3
    (∀ x y : ℝ, (re z).Is x → (im z).Is y → x ≠ 0 ∨ y ≠ 0 → ∃ r i : Res, cNorm z = pair (r.bits, r.fl) (i.bits, i.fl) ∧
      Exactly f32 (x / √(x ^ 2 + y ^ 2)) (re z).neg r ∧ Exactly f32 (y / √(x ^ 2 + y ^ 2)) (im z).neg i) ∧
    ((re z).isZero → (im z).isZero → cNorm z = ⟨z, 0, false⟩) ∧
    (∀ n x, re z = .inf n → (im z).Is x → cNorm z = ⟨one n + nul (im z).neg * 2 ^ 32, 0, false⟩) ∧
    (∀ n x, im z = .inf n → (re z).Is x → cNorm z = ⟨nul (re z).neg + one n * 2 ^ 32, 0, false⟩) ∧
    (∀ n k, re z = .inf n → im z = .inf k → cNorm z = ⟨half n + half k * 2 ^ 32, 0, false⟩) ∧
    ((re z).isNan ∨ (im z).isNan → cNorm z = ⟨0x7FC000007FC00000, if (re z).isSig || (im z).isSig then 16 else 0, false⟩))

/-- R129 to R133, R137, R140: each instruction completes where its groups are readable, and the destination holds, element
by element, what its pseudocode writes; the elements it does not write follow MASKZ and TAILZ, or stay, as its rule says.
With VL = 0 the group is unchanged, and so are the elements below the one where the slot is resumed (R35). -/
def Obligations.VectorMoveResults : Prop :=
  ∀ (s : State) (a b c : BitVec 7) (p q o : Nat) (v n : DWord) (x y d : Nat → Nat) (act : Nat → Bool),
    let w := (cur s).sew
    let L := (cur s).vl.toNat
    let E := 1024 * (cur s).grp / w
    (∀ i, x i = elem p i w) → (∀ i, y i = elem q i w) → (∀ i, d i = elem o i w) →
    (∀ i, act i = (decide (i < L) && (cur s).selBit i)) →
    let tail (i : Nat) := if (cur s).tailz then 0 else d i
    let off (i : Nat) := if (cur s).maskz then 0 else d i
    let S := p % 2 ^ (L * w)
    let R (f : Nat → Nat) (u : Host.Outcome State Fault Refusal) := ∃ g, VectorWritten s a (cur s).grp g 0 0 u ∧
      (L = 0 → g = o) ∧ (L ≠ 0 → ∀ i, i < E → elem g i w = if i < startElem (cur s) then d i else f i % 2 ^ w)
    let M (f : Nat → Nat) (i : Nat) := if act i then f i else if i < L then off i else tail i
    (V1Ready s a b p o →
      (SlotRuns s 0x30 0 → R (M x) (exec (.vmov a b) s)) ∧
      (SlotRuns s 0x31 3 → R (fun i => match ((List.range L).filter act)[i]? with | some j => x j | none => tail i)
        (exec (.vcomp a b) s)) ∧
      (SlotRuns s 0x31 4 → R (M (fun i => x ((List.range i).filter act).length)) (exec (.vexp a b) s)) ∧
      (readS (cur s) c = some n →
        (SlotRuns s 0x31 0 → R (fun i => if i < L ∧ i < n.toNat then d i else M (fun i => x (i - n.toNat)) i)
          (exec (.vslup a b c) s)) ∧
        (SlotRuns s 0x31 1 → R (M (fun i => if i + n.toNat < L then x (i + n.toNat) else 0)) (exec (.vsldn a b c) s)) ∧
        (SlotRuns s 0x32 0 → R (M (fun i => elem (if 0 ≤ n.toInt then S * 2 ^ n.toNat % 2 ^ (L * w)
          else S / 2 ^ (-n.toInt).toNat) i w)) (exec (.vsh a b c) s)) ∧
        (SlotRuns s 0x32 1 → R (M (fun i =>
          elem ((o % 2 ^ (L * w) * 2 ^ (L * w) + S) / 2 ^ n.toNat % 2 ^ (L * w)) i w)) (exec (.vfsh a b c) s))) ∧
      (8 ≤ w → 1 ≤ c.toNat → c.toNat ≤ 6 →
        let G := 2 ^ c.toNat
        let run (j : Nat) := ((List.range G).map (fun t => j * G + t)).filter act
        let N := (L + G - 1) / G
        (SlotRuns s 0x34 0 → R (fun j => if j < N then ((run j).map x).foldl max 0 else tail j) (exec (.vgmax a b c) s)) ∧
        (SlotRuns s 0x34 1 → R (fun j => if j < N then ((run j).map x).foldl (· + ·) 0 else tail j)
          (exec (.vgsum a b c) s)))) ∧
    (VvReady s a b c p q o →
      (SlotRuns s 0x30 2 → R (fun i => if act i then x i else if i < L then y i else tail i) (exec (.vmerge a b c) s)) ∧
      (SlotRuns s 0x31 2 → R (M (fun i => if y i < L then x (y i) else 0)) (exec (.vperm a b c) s))) ∧
    (V1Ready s a a o o → readS (cur s) b = some v →
      (SlotRuns s 0x30 1 → R (M (fun _ => v.toNat)) (exec (.vsplat a b) s)) ∧
      (readS (cur s) c = some n → SlotRuns s 0x36 3 →
        ∃ g, VectorWritten s a (cur s).grp g 0 0 (exec (.vputx a b c) s) ∧
          ∀ i, i < E → elem g i w = if i = n.toNat then v.toNat % 2 ^ w else d i))

/-- R134 to R136, R138 to R140: integer reductions fold the active elements into the initial value and extend it as the
table says; the float reductions give the tree of R135 and the minimum and maximum of R136; the mask logicals act on all
1,024 bits with VL at most 1,024; `mpopc` and `mfirst` count and search below VL; `vgetx` reads an element below VLMAX. -/
def Obligations.ReductionAndMaskResults : Prop :=
  ∀ (s : State) (a b c : BitVec 7) (p : Nat) (v : DWord) (m1 m2 : VReg) (x : Nat → BitVec (cur s).sew) (m : Fmt),
    let w := (cur s).sew
    let act := (List.range (cur s).vl.toNat).filter (cur s).selBit
    let R (r : DWord) (u : Host.Outcome State Fault Refusal) :=
      u = .next (completed s (withLocal s ⟨(cur s).result a r, (curLocal s).pool⟩))
    (sDest a = true → readS (cur s) c = some v → readV (curLocal s) b (cur s).grp = some p →
      (∀ i, (x i).toNat = elem p i w) →
      ((cur s).maskFits = true →
        (8 ≤ w →
          (SlotRuns s 0x33 0 → R (((act.map x).foldl (· + ·) (v.setWidth w)).setWidth 64) (exec (.vrsum a b c) s)) ∧
          (SlotRuns s 0x33 2 → R (((act.map x).foldl (fun t e => if e.toInt < t.toInt then e else t)
            (v.setWidth w)).signExtend 64) (exec (.vrmins a b c) s)) ∧
          (SlotRuns s 0x33 3 → R (((act.map x).foldl (fun t e => if e.toNat < t.toNat then e else t)
            (v.setWidth w)).setWidth 64) (exec (.vrminz a b c) s)) ∧
          (SlotRuns s 0x33 4 → R (((act.map x).foldl (fun t e => if t.toInt < e.toInt then e else t)
            (v.setWidth w)).signExtend 64) (exec (.vrmaxs a b c) s)) ∧
          (SlotRuns s 0x33 5 → R (((act.map x).foldl (fun t e => if t.toNat < e.toNat then e else t)
            (v.setWidth w)).setWidth 64) (exec (.vrmaxz a b c) s))) ∧
        (FloatAt (cur s) m →
          let F (r : Nat × Nat) (u : Host.Outcome State Fault Refusal) := u = .next (completed s (withLocal s
            ⟨raise ((cur s).result a (BitVec.ofNat 64 r.1)) r.2, (curLocal s).pool⟩))
          let leaf (i : Nat) := if act.contains i then (x i).toNat else signed m true 0
          let tree := treeSum m 12 ((List.range (pow2AtLeast (cur s).vl.toNat)).map leaf)
          let v0 := v.toNat % 2 ^ w
          let pick (less : Bool) := (act.map x).foldl (fun t e =>
            ((minMaxF less m t.1 e.toNat).bits, t.2 ||| (minMaxF less m t.1 e.toNat).fl))
            (canonF m v0, if (decodeF m v0).isSig then 16 else 0)
          (SlotRuns s 0x33 1 → F ((addF m v0 tree.1).bits, tree.2 ||| (addF m v0 tree.1).fl) (exec (.vrfsum a b c) s)) ∧
          (SlotRuns s 0x33 6 → F (pick true) (exec (.vrfmin a b c) s)) ∧
          (SlotRuns s 0x33 7 → F (pick false) (exec (.vrfmax a b c) s)))) ∧
      (SlotRuns s 0x36 2 → tscOperand b s s.cur = true →
        R (if v.toNat < (cur s).vlmax then (x v.toNat).setWidth 64 else 0) (exec (.vgetx a b c) s))) ∧
    (mDest a = true → (cur s).len ≤ 1024 →
      let W (r : VReg) (u : Host.Outcome State Fault Refusal) := u = .next (completed s (withCur s (writeM (cur s) a r)))
      (readM (cur s) b = some m1 → readM (cur s) c = some m2 →
        (SlotRuns s 0x35 0 → W (m1 &&& m2) (exec (.maskAnd a b c) s)) ∧
        (SlotRuns s 0x35 1 → W (m1 ||| m2) (exec (.maskOr a b c) s)) ∧
        (SlotRuns s 0x35 2 → W (m1 ^^^ m2) (exec (.maskXor a b c) s)) ∧
        (SlotRuns s 0x35 3 → W (m1 &&& ~~~m2) (exec (.maskAndn a b c) s))) ∧
      (SlotRuns s 0x35 4 → W 0 (exec (.mclr a) s)) ∧ (SlotRuns s 0x35 5 → W (BitVec.allOnes 1024) (exec (.mset a) s))) ∧
    (sDest a = true → readM (cur s) b = some m1 →
      let ones := (List.range (min (cur s).vl.toNat 1024)).filter (fun i => m1.getLsbD i)
      (SlotRuns s 0x36 0 → exec (.mpopc a b) s = .next (completed s (scalarResult s a (BitVec.ofNat 64 ones.length)))) ∧
      (SlotRuns s 0x36 1 → exec (.mfirst a b) s = .next (completed s (scalarResult s a
        (match ones with | i :: _ => BitVec.ofNat 64 i | [] => BitVec.allOnes 64)))))

/-- The frame of majors 0x18 to 0x36: an instruction that does not trap leaves every unit but the hart and its core's pool,
every byte of memory, the PC, the system registers, SPRD and the windows; scalar registers but a scalar destination;
masks but a mask destination and the saturation mask; and pool registers outside the destination group, of G registers
from name a for the instructions whose elements keep their width, of at most 8 for a conversion with a code below 8. -/
def Obligations.VectorFrame : Prop :=
  ∀ (s t : State) (a b c : BitVec 7) (n : Instr),
    let V : List Instr := [.vadd a b c, .vsub a b c, .vmul a b c, .vmulhs a b c, .vmulhz a b c, .vmacc a b c,
      .vdivs a b c, .vdivz a b c, .vrems a b c, .vremz a b c, .vand a b c, .vor a b c, .vxor a b c, .vandn a b c,
      .vshl a b c, .vshrs a b c, .vshrz a b c, .vmins a b c, .vminz a b c, .vmaxs a b c, .vmaxz a b c, .vsadds a b c,
      .vsaddz a b c, .vssubs a b c, .vssubz a b c, .vfma a b c, .vfadd a b c, .vfsub a b c, .vfmul a b c, .vfdiv a b c,
      .vfsqrt a b, .vfrcpe a b, .vfrsqe a b, .vfmin a b c, .vfmax a b c, .vfclass a b, .vfabs a b, .vfneg a b,
      .vfsgnj a b c, .vcmul a b c, .vcmac a b c, .vcconj a b, .vcnorm a b, .vmov a b, .vsplat a b, .vmerge a b c,
      .vslup a b c, .vsldn a b c, .vperm a b c, .vcomp a b, .vexp a b, .vsh a b c, .vfsh a b c, .vgmax a b c,
      .vgsum a b c, .vputx a b c]
    let C : List Instr := [.vfcvt a b c, .vfcvts a b c, .vfcvtz a b c, .vfcvtts a b c, .vfcvttz a b c, .vscvtf a b c,
      .vzcvtf a b c, .vwidens a b c, .vwidenz a b c, .vnarrs a b c, .vnarrz a b c]
    let M : List Instr := [.vcmpeq a b c, .vcmpne a b c, .vcmplts a b c, .vcmpltz a b c, .vcmples a b c, .vcmplez a b c,
      .vfcmpeq a b c, .vfcmplt a b c, .vfcmple a b c, .vfcmpun a b c, .maskAnd a b c, .maskOr a b c, .maskXor a b c,
      .maskAndn a b c, .mclr a, .mset a]
    let S : List Instr := [.vrsum a b c, .vrfsum a b c, .vrmins a b c, .vrminz a b c, .vrmaxs a b c, .vrmaxz a b c,
      .vrfmin a b c, .vrfmax a b c, .mpopc a b, .mfirst a b, .vgetx a b c]
    n ∈ V ++ C ++ M ++ S → exec n s = .next t → t ≠ operandTrap s → t ≠ instructionTrap s →
    let g := cur s
    let h := cur t
    let ck := coreOf s.cur
    let outside (k r : Nat) := ∀ i, i < k → g.vPhys (g.vIndex (a.toNat + i)) ≠ some r
    (t = { s with harts := t.harts, cores := t.cores } ∧ (∀ k, k ≠ s.cur → getHart t k = getHart s k) ∧
      (∀ k, k ≠ ck → getCore t k = getCore s k) ∧ getCore t ck = { getCore s ck with pool := (getCore t ck).pool }) ∧
    MemoryKept s t ∧ SystemKept g h ∧ h.pc = g.pc ∧ h.sprd = g.sprd ∧ h.wbase = g.wbase ∧
    (n ∉ S → (∀ i, h.phys i = g.phys i)) ∧ (n ∈ S → ScalarsKept a g h) ∧
    (∀ i, i ≠ g.smr → (n ∈ M → i + 116 ≠ a.toNat) → h.maskReg i = g.maskReg i) ∧
    (n ∉ C → (n ∈ M → g.smr + 116 ≠ a.toNat) → h.maskReg g.smr = g.maskReg g.smr) ∧
    (∀ i, i + 96 ≠ a.toNat → SMap.get 0 h.oregs i = SMap.get 0 g.oregs i) ∧
    (∀ r, (n ∈ V → outside g.grp r) → (n ∈ C → c.toNat < 8 ∧ outside 8 r) →
      SMap.get 0 (getCore t ck).pool r = SMap.get 0 (getCore s ck).pool r)

/-- R143, R149 to R151: a scalar load at B + C + OFS outside the event window, whose address passes the checks of R146 and
that no target refuses, completes; its data, 1 to 8 bytes of memory as the hart's view holds them, sign- or zero-extended,
is on its way to the destination, LCNT has risen, and memory is unchanged. A load that its target refuses completes too, its
data reading as zero and its refusal still to return (R147).
R143, R149 to R151: a scalar store at B + C + OFS outside the event window, whose address passes the checks of R146,
that no target refuses and for which the revision store has room, completes; the low n bytes of sa are written there
through the hart's view, every byte of memory outside those is unchanged, no register but SCNT is, and SCNT has risen; a
hart that runs no task finds byte j of sa at the j-th location afterwards, where the locations have different homes. -/
def Obligations.ScalarLoadsAndStores : Prop :=
  (∀ (s u : State) (a b c : BitVec 7) (e : Option Word) (t : Attr) (x y va : DWord) (n fn : Nat) (sgn : Bool)
     (ps : List (Nat × Nat)) (i : Instr),
     (i, n, sgn, fn) ∈ ([(.ldsB a b c e, 1, true, 0), (.ldsH a b c e, 2, true, 1), (.ldsW a b c e, 4, true, 2),
       (.ldzB a b c e, 1, false, 3), (.ldzH a b c e, 2, false, 4), (.ldzW a b c e, 4, false, 5),
       (.ldD a b c e, 8, false, 6)] : List (Instr × Nat × Bool × Nat)) →
     SlotRuns s 0x14 fn → attrOf false e = some t → readS (cur s) b = some x → readS (cur s) c = some y →
     va = x + y + BitVec.ofInt 64 t.ofs → sDest a = true → windowOf va ≠ 0xE3 → (cur s).lcnt < 63 →
     elemCheck s (agentOf s s.cur) .load va n 1 .scalar = .ok ps u → isReg (ps.headD (0, 0)).1 = false →
     let v := viewPieces u s.cur va ps
     ∃ w, exec i s = .next (completed s w) ∧ w.mem = s.mem ∧
       (accRefusal u s.cur .load ⟨0, va, n, ps⟩ = none → Issued s.cur u w 1
         [.scalar a.toNat (if sgn then BitVec.ofInt 64 (toSigned (8 * n) v) else BitVec.ofNat 64 v) true]) ∧
       ∀ f, accRefusal u s.cur .load ⟨0, va, n, ps⟩ = some f → IssuedWith s.cur u w 1 [.scalar a.toNat 0 true] [f]) ∧
  (∀ (s u : State) (a b c : BitVec 7) (e : Option Word) (t : Attr) (x y z va : DWord) (n fn : Nat)
     (ps : List (Nat × Nat)) (i : Instr),
     (i, n, fn) ∈ ([(.stB a b c e, 1, 0), (.stH a b c e, 2, 1), (.stW a b c e, 4, 2), (.stD a b c e, 8, 3)] :
       List (Instr × Nat × Nat)) →
     SlotRuns s 0x15 fn → attrOf false e = some t → readS (cur s) b = some x → readS (cur s) c = some y →
     readS (cur s) a = some z → va = x + y + BitVec.ofInt 64 t.ofs → windowOf va ≠ 0xE3 → (cur s).scnt < 63 →
     elemCheck s (agentOf s s.cur) .store va n 1 .scalar = .ok ps u → isReg (ps.headD (0, 0)).1 = false →
     accRefusal u s.cur .store ⟨0, va, n, ps⟩ = none → noRoom u s.cur false (Acc.key ⟨0, va, n, ps⟩) n = false →
     ∃ w, exec i s = .next (completed s w) ∧
       StoreDone s.cur t.scope t.evf u w [⟨0, va, n, ps⟩] (fun _ => z.toNat) ∧ u.mem = s.mem ∧
       (∀ l, (cur s).task = none → ps = [(l, n)] → (∀ j, j < n → storable (l + j) = true) →
         (∀ j k, j < n → k < n → homeLoc u (l + j) = homeLoc u (l + k) → j = k) →
         ∀ j, j < n → memGet w.mem (homeLoc u (l + j)) = z.extractLsb' (8 * j) 8))

/-- R148, R152, R157: `pf`, `evf`, `vpf`, `vevf` and `unpin` with readable operands never trap on their addresses; the addresses
treated are the one given, each sector or line that holds a byte of the vector's range, or each whole line of the range that
`unpin` names; where no translation is still to be filled the instruction completes, having brought each sector in, marked
each line or released it, and where one is, it waits. R318, R320, R322: a sector brought in, of no caddy line at home, whose set has a way to take is
resident and its line the most recently used of its set, and the lines that had to leave do so after it; a resident line outside
the reserved ways is marked, and is the set's only marked one; a released line is retained no more.
R147, R149, R150, R329, R399: a load's data is written to its destinations, scalar or vector, with the scale register of
`vldk`, and pushed; an operation with nothing outstanding, and none it comes after, leaves the table and its counter falls;
a refused one gives its data, which its load read as zeros, leaves the table too, its traps become pending in element
order, and no convoy that reads the destination begins while IE is 0; of an engine's access, its running transfer faults there (R393); a re-home reply frees it to go on; the fabric port executes its class-3 requests, after those sent before it between the same devices; R165: a wake makes every hart
parked on the location in that cluster's table go on. None changes memory, but for a register store that performs. -/
def Obligations.HintsAndMemoryEvents : Prop :=
  (∀ (s : State) (b c : BitVec 7) (e : Option Word) (t : Attr) (x y : DWord) (st : Nat → State) (l dev : Nat),
     let lo := addOfs x.toNat t.ofs
     let n := ((cur s).len * (cur s).sew + 7) / 8
     let parts (z : Nat) := (List.range (if n = 0 then 0 else (lo + n - 1) / z + 1 - lo / z)).map (fun j =>
       BitVec.ofNat 64 (if j = 0 then lo else (lo / z + j) * z))
     let lines := (List.range ((lo + y.toNat) / 512 - (lo + 511) / 512)).map (fun j => BitVec.ofNat 64 ((lo + 511) / 512 * 512 + 512 * j))
     let H (i : Instr) (act : HintAct) (p : Machine.Path) (vas : List DWord) :=
       (HintsDone act s.cur p vas s st → exec i s = .next (completed s (st vas.length)) ∧ MemoryKept s (st vas.length) ∧
         ∃ z : State, st vas.length = { z with harts := s.harts, ops := s.ops, pending := s.pending, mem := s.mem }) ∧
       (∀ va vs u, vas = va :: vs → hintLoc s s.cur va p = .miss u → exec i s = .next (waiting s (.notReady false)
         (modHart u s.cur (fun h => { h with conv := h.conv.map (fun z => { z with elem := 0, resumed := true }) }))))
     attrOf false e = some t → readS (cur s) b = some x → readS (cur s) c = some y → (cur s).curConv.resumed = false →
     (SlotRuns s 0x16 0 → H (.pf b c e) prefetchAt .scalar [x + y + BitVec.ofInt 64 t.ofs]) ∧
     (SlotRuns s 0x16 1 → H (.evf b c e) evictAt .scalar [x + y + BitVec.ofInt 64 t.ofs]) ∧
     (SlotRuns s 0x3E 0 → H (.vpf b e) prefetchAt .gather (parts 64)) ∧
     (SlotRuns s 0x3E 1 → H (.vevf b e) evictAt .gather (parts 512)) ∧
     (SlotRuns s 0x16 2 → (cur s).scnt < 63 → HintsDone unpinAt s.cur .scalar lines s st →
       ∃ w, exec (.unpin b c e) s = .next (completed s w) ∧ Issued s.cur (st lines.length) w 2 [] ∧ MemoryKept s w) ∧
     (let a := homeLoc s l
      let key := setKey s dev a
      classOf a < 2 →
       (∃ gone, touchSector s dev none l = leave (touchOnce s dev none a).1 gone) ∧
       ((inCaddy s a = true → homeDev a ≠ dev % 8) → 0 < openWays s (dieOfSet key) →
         (∀ z ∈ linesOf s key, z.revised = false ∧ (z.kept = true → z.way ≠ none)) →
         ∃ z zs, linesOf (touchOnce s dev none a).1 key = z :: zs ∧ z.line = a / 512 ∧ z.sectors.getLsbD (a / 64 % 8) = true) ∧
       ((∃ z ∈ linesOf s key, z.line = a / 512 ∧ z.way = none) →
         ∀ z ∈ linesOf (markLine s dev l) key, z.marked = true ↔ z.line = a / 512) ∧
       ∀ z ∈ linesOf (unpinLine s dev l) key, z.line = a / 512 → z.kept = false)) ∧
  (∀ (s : State) (id cl loc : Nat) (o : Op) (sp sq : BitVec 7) (v : DWord) (g w sc : Nat) (push : Bool) (y z : Local),
     (SMap.find s.ops id = some o →
       (o.refused = [] → o.fabric = [] → o.rehome = [] → writeV (getLocal s o.hart) sp g w = some y →
         o.ret = [.vector sp.toNat g w push] ∨
           (o.ret = [.vector sp.toNat g w push, .vector sq.toNat 1 sc false] ∧
             writeV (if push then pushV y g w else y) sq 1 sc = some z) →
         ∃ t, exec (.loadDataReturn id) s = .next t ∧ SMap.find t.ops id = some { o with ret := [] } ∧ t.mem = s.mem ∧
           (o.ret.length = 1 → getLocal t o.hart = if push then pushV y g w else y) ∧
           (o.ret.length = 2 → getLocal t o.hart = z) ∧
           (∀ k, k ≠ o.hart → getHart t k = getHart s k) ∧ ∀ k, k ≠ coreOf o.hart → getCore t k = getCore s k) ∧
       (o.refused = [] → o.fabric = [] → o.rehome = [] → o.ret = [.scalar sp.toNat v true] →
         ∃ t, exec (.loadDataReturn id) s = .next t ∧ getHart t o.hart = (getHart s o.hart).result sp v ∧
           SMap.find t.ops id = some { o with ret := [] } ∧ t.mem = s.mem ∧
           ∀ k, k ≠ o.hart → getHart t k = getHart s k) ∧
       (o.refused = [] → o.fabric = [] → o.rehome = [] → o.ret = [] → o.reg = none →
         s.tokens.any (fun p => p.2.op == id) = false → (∀ k ∈ o.after, SMap.find s.ops k = none) →
         ∃ t, exec (.memoryOpPerformed id) s = .next t ∧ SMap.find t.ops id = none ∧ t.mem = s.mem ∧
           getHart t o.hart = (if o.counter = 1 then
               { getHart s o.hart with lcnt := (getHart s o.hart).lcnt - 1, acq := max (getHart s o.hart).acq (o.scope + 1) }
             else if o.counter = 2 then { getHart s o.hart with scnt := (getHart s o.hart).scnt - 1 }
             else getHart s o.hart)) ∧
       (o.refused ≠ [] → o.fabric = [] → o.rehome = [] → isEngine o.hart = true → o.counter = 0 → o.ret = [] →
         ∃ t, exec (.remoteRefusal id) s = .next t ∧ SMap.find t.ops id = none ∧ t.mem = s.mem ∧ t.harts = s.harts ∧
           ∀ k ks, (getCore s (coreOf o.hart)).kicks = k :: ks → k.fault = none →
             (getCore t (coreOf o.hart)).kicks = { k with fault := o.refused.head?.map (fun a => a.faddr.toNat) } :: ks) ∧
       (o.refused ≠ [] → o.fabric = [] → o.rehome = [] → validHart o.hart = true → (isEngine o.hart = true → o.counter ≠ 0) →
         ∃ t, exec (.remoteRefusal id) s = .next t ∧ SMap.find t.ops id = none ∧ t.mem = s.mem ∧
           (getHart t o.hart).async = (getHart s o.hart).async ++ o.refused ∧
           (o.ret = [.scalar sp.toNat v true] → o.dest = [] → sp.toNat < 112 → (getHart t o.hart).zeroed =
             (getHart s o.hart).zeroed ++ o.refused.map (fun a => ⟨a, (getHart s o.hart).scalarRegs sp⟩)) ∧
           (o.ret = [.scalar sp.toNat v true] → (getHart t o.hart).sregs = ((getHart s o.hart).result sp v).sregs ∧
             (getHart t o.hart).q = ((getHart s o.hart).result sp v).q) ∧
           (o.ret = [.vector sp.toNat g w push] → writeV (getLocal s o.hart) sp g w = some y →
             (getCore t (coreOf o.hart)).pool = y.pool) ∧
           (o.counter = 1 → (getHart t o.hart).lcnt = (getHart s o.hart).lcnt - 1) ∧
           (o.counter = 2 → (getHart t o.hart).scnt = (getHart s o.hart).scnt - 1)) ∧
       (exec (.rehomeReply id) s = .next { s with ops := SMap.put s.ops id { o with rehome := [] } }) ∧
       (o.fabric ≠ [] → ∃ t o', exec (.fabricAccess (.executed id)) s = .next t ∧ SMap.find t.ops id = some o' ∧ o'.fabric = [] ∧
         o'.ret = o.ret ∧ t.mem = s.mem)) ∧
     (∀ (t : State) (hk : Nat) (hdr : Word) (ws : List Word),
       let h := getHart s hk
       let v := modCore s (coreOf hk) (fun c => { c with lastHart := hartNo hk })
       validHart hk = true → (getDev s (devOfHart hk)).off = false → h.st = .running → h.conv = none → h.ie = false →
       h.ending = .none → h.inRope = false → h.stall = 0 → h.yield = false → h.resume = false →
       fetchConvoy v hk h.pc = .ok (hdr, ws) t → (getHart t hk).inRope = false → (getHart t hk).resume = false →
       headerOk (isTsc (unitOf (coreOf hk)) || isEngine hk) hdr ws = true → readsRefused v hdr ws hk = true →
       exec (.convoyIssue hk) s = .next t) ∧
     (∃ t, exec (.belayWake cl loc) s = .next t ∧ t.mem = s.mem ∧
       ∀ hk ls c, (hk, loc) ∈ (getClus s cl).belay → (getHart s hk).wait = .future ls c →
         (∃ p ∈ ls, homeLoc s p.2 = loc) → (getHart s hk).st = .parked →
         (getHart t hk).st = (getHart s hk).awake))

/-- R147, R153, R154: a unit, strided or indexed vector load whose operands are readable and whose active elements all pass
the checks of R146 completes; element i was read at its address, its destination will hold it (at SEW 4 the nibble of its
byte), or 0 where its target refused it, with the refusals to return in element order; the other elements follow MASKZ and
TAILZ, LCNT has risen and memory is unchanged. -/
def Obligations.VectorLoads : Prop :=
  ∀ (s u : State) (a b c : BitVec 7) (e : Option Word) (t : Attr) (m : Mode) (addr : Nat → Nat) (old fn : Nat)
    (as : List Acc) (i : Instr),
    (i, m, fn) ∈ ([(.vld a b e, .unit, 0), (.vlds a b c e, .stride c, 1), (.vldx a b c e, .index c, 2)] :
      List (Instr × Mode × Nat)) →
    SlotRuns s 0x38 fn → attrOf false e = some t → (cur s).maskFits = true → vecAddrs (curLocal s) m a b t = some addr →
    a.toNat < 112 ∨ a.toNat = 127 → readV (curLocal s) a (cur s).grp = some old → (cur s).lcnt < 63 →
    checkMode m (addr 0) .load (elemAccs (cur s) (elemBytes (cur s)) addr) s s.cur = .all as u →
    ∃ w V, exec i s = .next (completed s w) ∧ w.mem = s.mem ∧
      IssuedWith s.cur u w 1 [.vector a.toNat (cur s).grp V true] (refusals u s.cur .load as) ∧
      (∀ k, k < 1024 * (cur s).grp / (cur s).sew → ∃ got,
        elem V k (cur s).sew = loadedElem (cur s) k (elem old k (cur s).sew) (got % 2 ^ (cur s).sew) ∧
        (k < (cur s).len → (cur s).selBit k = true → startElem (cur s) ≤ k →
          ∃ acc ∈ as, acc.idx = k ∧ acc.va = BitVec.ofNat 64 (addr k) ∧
            got = elemBits (cur s) k (if (accRefusal u s.cur .load acc).isSome then 0
              else viewPieces u s.cur acc.va acc.pieces)))

/-- R143, R153: a scalar access lies at B + C + OFS, C being 0 when it names 127; element i of a vector access lies at
sb + OFS + i * SEW / 8 for the unit form, + i * sc for the strided one, + the unsigned index element of width max(SEW, 32)
for the indexed one, all modulo 2^64; the strided and indexed forms refuse SEW 4. -/
def Obligations.EffectiveAddresses : Prop :=
  ∀ (x : Local) (a b c : BitVec 7) (t : Attr) (p q : DWord) (g v i : Nat) (addr : Nat → Nat),
    readS x.h b = some p →
    (readS x.h c = some q → scalarAddr x.h b c t = some (p + q + BitVec.ofInt 64 t.ofs)) ∧
    (c = 127#7 → scalarAddr x.h b c t = some (p + BitVec.ofInt 64 t.ofs)) ∧
    (vecAddrs x .unit a b t = some addr →
      BitVec.ofNat 64 (addr i) = p + BitVec.ofInt 64 t.ofs + BitVec.ofNat 64 (i * x.h.sew / 8)) ∧
    (8 ≤ x.h.sew → readS x.h c = some q → vecAddrs x (.stride c) a b t = some addr →
      BitVec.ofNat 64 (addr i) = p + BitVec.ofInt 64 t.ofs + BitVec.ofNat 64 i * q) ∧
    (8 ≤ x.h.sew → g = x.h.grp * max x.h.sew 32 / x.h.sew → readV x c g = some v →
      vecAddrs x (.index c) a b t = some addr →
      BitVec.ofNat 64 (addr i) = p + BitVec.ofInt 64 t.ofs + BitVec.ofNat 64 (elem v i (max x.h.sew 32))) ∧
    (x.h.sew = 4 → vecAddrs x (.stride c) a b t = none ∧ vecAddrs x (.index c) a b t = none) ∧
    (x.h.grp * max x.h.sew 32 / x.h.sew > 8 → vecAddrs x (.index c) a b t = none)

/-- R153 to R155: a vector store, or `vsbm`, whose operands are readable and whose selected elements (bytes for `vsbm`) all
pass the checks of R146, are refused by no target and find room, completes; they are written in ascending order, every
other byte of memory is unchanged, nothing is pushed, and SCNT has risen. SEW 4 writes nibbles and is stated of the
masked elements' locations alone. -/
def Obligations.VectorStores : Prop :=
  ∀ (s u w : State) (a b c : BitVec 7) (e : Option Word) (t : Attr) (m : Mode) (addr : Nat → Nat) (x : DWord)
    (v fn : Nat) (as : List Acc) (i : Instr),
    attrOf false e = some t → (cur s).scnt < 63 → readV (curLocal s) a (cur s).grp = some v →
    ((i, m, fn) ∈ ([(.vst a b e, .unit, 0), (.vsts a b c e, .stride c, 1), (.vstx a b c e, .index c, 2)] :
        List (Instr × Mode × Nat)) →
      SlotRuns s 0x39 fn → (cur s).maskFits = true → vecAddrs (curLocal s) m a b t = some addr →
      checkMode m (addr 0) .store (elemAccs (cur s) (elemBytes (cur s)) addr) s s.cur = .all as u → refusals u s.cur .store as = [] → coveredSectors u (decide ((cur s).sew = 4)) as = [] →
      ((cur s).sew ≠ 4 → storeAccs (fun r k => storeAcc r s.cur t.scope t.evf k (elem v k.idx (cur s).sew)) u as = .all w →
        ∃ z, exec i s = .next (completed s z) ∧ u.mem = s.mem ∧
          StoreDone s.cur t.scope t.evf u z as (fun k => elem v k.idx (cur s).sew)) ∧
      ((cur s).sew = 4 → storeAccs (fun r k => storeNibble r s.cur t.scope t.evf k (decide (k.idx % 2 = 1))
          (elem v k.idx 4)) u as = .all w →
        ∃ z, exec i s = .next (completed s z) ∧ Issued s.cur w z 2 [] ∧ z.mem = w.mem ∧
          ∀ loc, Outside u as loc → memGet z.mem loc = memGet s.mem loc)) ∧
    (SlotRuns s 0x39 3 → readS (cur s) b = some x → (cur s).sew ≠ 4 → (cur s).len * (cur s).sew / 8 ≤ 1024 →
      checkMode .unit (addOfs x.toNat t.ofs) .store
        (((List.range ((cur s).len * (cur s).sew / 8)).filter
          (fun j => (cur s).selBit j && decide (startElem (cur s) ≤ j))).map
          (fun j => { idx := j, va := x + BitVec.ofInt 64 t.ofs + BitVec.ofNat 64 j, n := 1 })) s s.cur = .all as u →
      refusals u s.cur .store as = [] → coveredSectors u false as = [] →
      storeAccs (fun r k => storeAcc r s.cur t.scope t.evf k (elem v k.idx 8)) u as = .all w →
      ∃ z, exec (.vsbm a b e) s = .next (completed s z) ∧ u.mem = s.mem ∧
        StoreDone s.cur t.scope t.evf u z as (fun k => elem v k.idx 8))

/-- R156: with a prefix that passes its checks and every access of the plan checked and not refused, `vldk` completes with
each loaded payload on its way to its container and each scale element to its place in the scale register, LCNT risen and
memory unchanged; `vstk` completes with the payloads and scale elements below vl written in order, every other byte of
memory kept and SCNT risen. -/
def Obligations.BlockFormatMoves : Prop :=
  ∀ (s u w : State) (a b c : BitVec 7) (e : Option Word) (t : Attr) (p : Pfx) (x y : DWord) (old olds lo : Nat)
    (as : List Acc),
    attrOf false e = some t → blockPfx (curLocal s) a c = some p → readS (cur s) b = some x → readS (cur s) c = some y →
    lo = addOfs x.toNat t.ofs → readV (curLocal s) a (cur s).grp = some old → readV (curLocal s) p.b 1 = some olds →
    (SlotRuns s 0x38 3 → a.toNat < 112 ∨ a.toNat = 127 → (cur s).maskFits = true → (cur s).lcnt < 63 →
      let plan := blockLoads (cur s) p.f lo y.toNat
      checkMode .unit lo .load (plan.map Prod.fst) s s.cur = .all as u →
      refusals u s.cur .load as = [] →
      ∃ z V S, exec (.vldk a b c e) s = .next (completed s z) ∧ z.mem = s.mem ∧
        Issued s.cur u z 1 ([.vector a.toNat (cur s).grp V true] ++
          (if p.f.block = 0 then [] else [.vector p.b.toNat 1 S false])) ∧
        (∀ k, k < 1024 * (cur s).grp / (cur s).sew → ∃ got,
          elem V k (cur s).sew = loadedElem (cur s) k (elem old k (cur s).sew) (got % 2 ^ (cur s).sew) ∧
          ∀ (j : Nat) (acc : Acc), plan[j]? = some (acc, some k) →
            (∀ (j' : Nat) (acc' : Acc), plan[j']? = some (acc', some k) → j ≤ j') →
            ∃ r : Acc, as[j]? = some r ∧ r.va = acc.va ∧ r.n = acc.n ∧
              got = payElem p.f k (viewPieces u s.cur r.va r.pieces)) ∧
        (p.f.block ≠ 0 →
          (∀ (j : Nat) (acc : Acc), plan[j]? = some (acc, none) → ∃ (r : Acc) (d : Nat), as[j]? = some r ∧
            r.va = y + BitVec.ofNat 64 (d * (p.f.scaleWidth / 8)) ∧ r.n = p.f.scaleWidth / 8 ∧ acc.idx = d * p.f.block ∧
            elem S d p.f.scaleWidth = viewPieces u s.cur r.va r.pieces % 2 ^ p.f.scaleWidth) ∧
          ∀ d, (∀ acc, (acc, none) ∈ plan → acc.idx ≠ d * p.f.block) →
            elem S d p.f.scaleWidth = elem olds d p.f.scaleWidth)) ∧
    (SlotRuns s 0x39 4 → (cur s).scnt < 63 →
      let plan := blockStores (cur s) p.f lo y.toNat old olds
      let val (k : Acc) := match plan.find? (fun q => q.1.va == k.va && q.1.idx == k.idx && q.1.n == k.n) with
        | some q => q.2 | none => 0
      checkMode .unit lo .store (plan.map Prod.fst) s s.cur = .all as u →
      refusals u s.cur .store as = [] → coveredSectors u (decide (p.f.block = 0 ∧ p.f.width = 4)) as = [] →
      storeAccs (fun r k => if p.f.block = 0 ∧ p.f.width = 4 then
          storeNibble r s.cur t.scope t.evf k (decide (k.idx % 2 = 1)) (val k)
        else storeBlock r s.cur t.scope t.evf k (val k) (if p.f.block ≠ 0 ∧ k.n = p.f.blockBytes then
          as.find? (fun q => q.idx == k.idx && q.n != k.n) else none)) u as = .all w →
      ∃ z, exec (.vstk a b c e) s = .next (completed s z) ∧ Issued s.cur w z 2 [] ∧ z.mem = w.mem ∧
        ∀ loc, Outside u as loc → memGet z.mem loc = memGet s.mem loc)

/-- R158, R159: an atomic whose operands are readable and whose address, aligned to its width, passes the checks and is
refused by no target completes: the location holds the new value its operation gives, the old one zero-extended is on its
way to A and LCNT has risen, or with A = 127 nothing is returned and SCNT has risen; a vector atomic at SEW 64 does so for
its active elements one after another in ascending order: with `st j` the state before the j-th of them, the location then
holds the operation's value on what it held in `st j`, which is the element that the destination receives; the other elements
follow MASKZ and TAILZ. -/
def Obligations.Atomics : Prop :=
  ∀ (s u : State) (a b c : BitVec 7) (e : Option Word) (t : Attr) (fn n : Nat) (i : Instr)
    (f : Nat → Nat → Nat → Nat → Nat) (as : List Acc) (ps : List (Nat × Nat)) (x y z va : DWord) (p q o : Nat)
    (st : Nat → State),
    attrOf true e = some t → n = (if t.w then 4 else 8) →
    let w := 8 * n
    let K := if a = 127#7 then 2 else 1
    (fn, f) ∈ ([(0, fun w o x _ => (o + x) % 2 ^ w), (1, fun _ o x _ => Nat.land o x), (2, fun _ o x _ => Nat.lor o x),
      (3, fun _ o x _ => Nat.xor o x), (4, fun _ o x _ => min o x),
      (5, fun w o x _ => if toSigned w x < toSigned w o then x else o), (6, fun _ o x _ => max o x),
      (7, fun w o x _ => if toSigned w o < toSigned w x then x else o), (8, fun _ _ x _ => x),
      (9, fun _ o x k => if o = k then x else o)] : List (Nat × (Nat → Nat → Nat → Nat → Nat))) →
    counterFull (cur s) K = false →
    ((i, fn) ∈ ([(.aaddS a b c e, 0), (.aandS a b c e, 1), (.aorS a b c e, 2), (.axorS a b c e, 3), (.aminS a b c e, 4),
        (.aminsS a b c e, 5), (.amaxS a b c e, 6), (.amaxsS a b c e, 7), (.aswapS a b c e, 8), (.acasS a b c e, 9)] :
        List (Instr × Nat)) →
      SlotRuns s 0x3A fn → sDest a = true → readS (cur s) b = some x → readS (cur s) c = some y →
      readS (cur s) a = some z → va = x + BitVec.ofInt 64 t.ofs →
      elemCheck s (agentOf s s.cur) .atomic va n n .scalar = .ok ps u → ps.any (fun p => isRemote p.1) = false →
      accRefusal u s.cur .atomic ⟨0, va, n, ps⟩ = none → noRoom u s.cur true (Acc.key ⟨0, va, n, ps⟩) n = false →
      let old := directView u s.cur ⟨0, va, n, ps⟩
      let v := directWrite u s.cur ⟨0, va, n, ps⟩ (f w old (y.toNat % 2 ^ w) (z.toNat % 2 ^ w))
      ∃ r, exec i s = .next (completed s r) ∧ r.mem = v.mem ∧
        Issued s.cur v r K (if a = 127#7 then [] else [.scalar a.toNat (BitVec.ofNat 64 old) true]) ∧
        ∀ loc, Outside u [⟨0, va, n, ps⟩] loc → memGet r.mem loc = memGet s.mem loc) ∧
    ((i, fn) ∈ ([(.aaddV a b c e, 0), (.aandV a b c e, 1), (.aorV a b c e, 2), (.axorV a b c e, 3), (.aminV a b c e, 4),
        (.aminsV a b c e, 5), (.amaxV a b c e, 6), (.amaxsV a b c e, 7), (.aswapV a b c e, 8), (.acasV a b c e, 9)] :
        List (Instr × Nat)) →
      SlotRuns s 0x3B fn → (cur s).sew = 64 → a.toNat < 112 ∨ a.toNat = 127 →
      overlaps a (cur s).grp b (cur s).grp = false → (overlaps a (cur s).grp c (cur s).grp = false ∨ a = c) →
      readV (curLocal s) b (cur s).grp = some p → readV (curLocal s) c (cur s).grp = some q →
      readV (curLocal s) a (cur s).grp = some o →
      checkAccs s s.cur .atomic n .gather [] (elemAccs (cur s) n (fun k => addOfs (elem p k 64) t.ofs)) = .all as u →
      refusals u s.cur .atomic as = [] →
      st 0 = u →
      (∀ (j : Nat) (acc : Acc), as[j]? = some acc →
        acc.pieces.any (fun r => isRemote r.1) = false ∧ accRefusal (st j) s.cur .atomic acc = none ∧
        noRoom (st j) s.cur true acc.key n = false ∧
        st (j + 1) = directWrite (st j) s.cur acc (f w (directView (st j) s.cur acc) (elem q acc.idx 64 % 2 ^ w)
          (elem o acc.idx 64 % 2 ^ w))) →
      ∃ z V, exec i s = .next (completed s z) ∧ z.mem = (st as.length).mem ∧
        Issued s.cur (st as.length) z K (if a = 127#7 then [] else [.vector a.toNat (cur s).grp V true]) ∧
        (∀ k, k < 16 * (cur s).grp →
          (∀ (j : Nat) (acc : Acc), as[j]? = some acc → acc.idx = k → elem V k 64 = directView (st j) s.cur acc) ∧
          ((∀ acc ∈ as, acc.idx ≠ k) → elem V k 64 = loadedElem (cur s) k (elem o k 64) 0)) ∧
        ∀ loc, Outside u as loc → memGet z.mem loc = memGet s.mem loc)

/-- R162 to R166: `cwait` completes exactly when its counter is at most n, in a rope every member's that stands in the slot or
has still to reach it, waits unparked above, and refuses n above 63, a `cwait.l 0` completing the acquire of what was loaded (R289);
`fwait` on a full future writes its word, releases its belay entry and completes, on an empty one arms an entry and waits;
`vfwait` returns the number of futures it covered once each is full; `ffill` swaps the word for the value with bit 63 set,
wakes the belay tables of its scope, and returns the old word unless A is 127. -/
def Obligations.CounterWaitsAndFutures : Prop :=
  ∀ (s u : State) (a b c : BitVec 7) (n : BitVec 14) (e : Option Word) (t : Attr) (x y va : DWord) (l k g : Nat),
    let low (f : Hart → Nat) : Prop := f (cur s) ≤ n.toNat ∧ ∀ m ∈ ropeOf s s.cur, m ≠ s.cur →
      ∀ d, (getHart s m).conv = some d → (cur s).curConv.slot < d.slot ∨
        ((cur s).curConv.slot = d.slot ∧ f (getHart s m) ≤ n.toNat)
    let waits (i : Instr) (f : Hart → Nat) (r : State) :=
      (n.toNat ≤ 63 → low f → exec i s = .next (completed s r)) ∧
      (n.toNat ≤ 63 → ¬ low f → exec i s = .next (waiting s (.notReady false) s)) ∧
      (63 < n.toNat → exec i s = .next (operandTrap s))
    (SlotRuns s 0x3C 0 → waits (.cwaitL n) (fun h => h.lcnt) (if n = 0 then acquire s s.cur else s)) ∧
    (SlotRuns s 0x3C 1 → waits (.cwaitS n) (fun h => h.scnt) s) ∧
    (readS (cur s) b = some x → sDest a = true →
      (attrOf false e = some t → va = x + BitVec.ofInt 64 t.ofs → SlotRuns s 0x3D 0 →
        elemCheck s (agentOf s s.cur) .load va 8 8 .scalar = .ok [(l, 8)] u →
        accRefusal u s.cur .load ⟨0, va, 8, [(l, 8)]⟩ = none →
        let v := BitVec.ofNat 64 (viewPieces u s.cur va [(l, 8)])
        (v.getLsbD 63 = true → ∃ r : State, exec (.fwait a b e) s = .next (completed s
          { modHart (disarm u s.cur) s.cur (fun h => h.result a v) with l2 := r.l2, sharers := r.sharers })) ∧
        (v.getLsbD 63 = false → ∃ w, exec (.fwait a b e) s = .next (waiting s (.future [(va.toNat, l)] 0) w) ∧
          w = { u with clusters := w.clusters, l2 := w.l2, sharers := w.sharers } ∧ (s.cur, homeLoc u l) ∈ (getClus w (clusKey (coreOf s.cur))).belay)) ∧
      (attrOf false e = some t → SlotRuns s 0x3D 1 → (cur s).sew = 64 → readV (curLocal s) c (cur s).grp = some g →
        (cur s).wait = .none →
        examine t s.cur (fun i => addOfs (addOfs x.toNat t.ofs) ((elem g i 64 : Nat) : Int)) [] s
          (List.range (cur s).len) (cur s).len = .upTo k [] u →
        ∃ r : State, exec (.vfwait a b c e) s = .next (completed s
          { modHart (disarm u s.cur) s.cur (fun h => h.result a (BitVec.ofNat 64 k)) with l2 := r.l2, sharers := r.sharers })) ∧
      (attrOf true e = some t → va = x + BitVec.ofInt 64 t.ofs → SlotRuns s 0x3D 2 → readS (cur s) c = some y →
        counterFull (cur s) (if a = 127#7 then 2 else 1) = false →
        elemCheck s (agentOf s s.cur) .fill va 8 8 .scalar = .ok [(l, 8)] u → isRemote l = false →
        accRefusal u s.cur .fill ⟨0, va, 8, [(l, 8)]⟩ = none →
        noRoom u s.cur true (Acc.key ⟨0, va, 8, [(l, 8)]⟩) 8 = false →
        let word := (if t.w then y.toNat % 2 ^ 32 else y.toNat % 2 ^ 63) + 2 ^ 63
        let v := directWrite u s.cur ⟨0, va, 8, [(l, 8)]⟩ word
        let old := directView u s.cur ⟨0, va, 8, [(l, 8)]⟩
        ∃ w, exec (.ffill a b c e) s = .next (completed s w) ∧ w.mem = v.mem ∧
          Issued s.cur (sendWakes v (clusKey (coreOf s.cur)) t.scope (homeLoc v l)) w (if a = 127#7 then 2 else 1)
            (if a = 127#7 then [] else [.scalar a.toNat (BitVec.ofNat 64 old) true]) ∧
          (∀ k, (scopeClusters (clusKey (coreOf s.cur)) t.scope).contains k = true →
            (getClus v k).belay.any (fun z => z.2 == homeLoc v l) = true →
            Instr.belayWake k (homeLoc v l) ∈ w.pending)))

/-- R168 to R171: on an object of the hart's own cluster that is valid and of the hart's context, a query returns arrivals
and generation; an arrival-and-wait arrives and waits for its generation, once resumed it waits on for the generation it
arrived in unless that has been released, and a granted wait writes and pushes its value
and completes (that it then returns the generation modulo 2^47, all that BITPOS holds, is the model's choice: log 27); a free
mutex is taken and returns 1, a held one returns 0 to a try, and an acquire resumed with BITPOS 1 returns 1 at once; a set event returns its word; stores
arrive, release, set, clear and, from supervisor mode up, configure, and count in SCNT.
R169, R170: a barrier whose COUNT is met and whose parent, if it is chained, has released takes COUNT arrivals away,
starts the next generation and grants every waiter of the old one that generation's number, and every chained barrier that has
sent it its arrival may then release too; a chained one that is met sends one arrival to its parent, once (that a parent that is
not configured, or is of another context, takes no arrival is the model's choice: log 27); the oldest waiter of a free mutex
becomes its holder and is granted 1. -/
def Obligations.EventUnits : Prop :=
  (∀ (s : State) (a : BitVec 7) (n : Nat) (v : DWord) (k g : Nat),
     let clk := clusKey (coreOf s.cur)
     let o (kind : Nat) := evGet s clk kind n
     let R (x : State) (r : DWord) := completed s (modHart x s.cur (fun h => h.result a r))
     let I (i : Instr) (x : State) := ∃ w, exec i s = .next (completed s w) ∧ Issued s.cur x w 2 []
     (cur s).idem = false →
     (SlotRuns s 0x14 6 →
       ((cur s).wait = .event k n g → (cur s).grant = some v →
         exec (.barrierArriveWait a n) s = .next (R s v) ∧ exec (.mutexAcquire a n) s = .next (R s v) ∧
         exec (.eventWait a n) s = .next (R s v)) ∧
       ((cur s).wait = .none → n < 64 → (o 0).usable (cur s) = true →
         exec (.barrierQuery a n) s = .next (R s (BitVec.ofNat 64 ((o 0).arrivals % 2 ^ 16 * 2 ^ 48 + (o 0).gen))) ∧
         ((cur s).curConv.resumed = false → exec (.barrierArriveWait a n) s
           = .next (waiting s (.event 0 n (o 0).nextGen) (barrierArrival s clk n (some s.cur)))) ∧
         (∀ j, (cur s).curConv.resumed = true → (cur s).curConv.bitpos = 2 ^ 47 + j → j < 2 ^ 47 →
           let ahead := (j + 2 ^ 47 - (o 0).gen % 2 ^ 47) % 2 ^ 47
           (ahead < 2 ^ 46 → exec (.barrierArriveWait a n) s = .next (waiting s (.event 0 n j)
             (evPut s clk 0 n { o 0 with waiters := (o 0).waiters ++ [s.cur] }))) ∧
           (2 ^ 46 ≤ ahead → exec (.barrierArriveWait a n) s = .next (R s (BitVec.ofNat 64 j))))) ∧
       ((cur s).wait = .none → n < 64 → (o 1).usable (cur s) = true → (cur s).curConv.resumed = false →
         ((o 1).holder = none → (o 1).waiters = [] →
           exec (.mutexAcquire a n) s = .next (R (evPut s clk 1 n { o 1 with holder := some s.cur }) 1) ∧
           exec (.mutexTry a n) s = .next (R (evPut s clk 1 n { o 1 with holder := some s.cur }) 1)) ∧
         ((o 1).holder ≠ none →
           exec (.mutexAcquire a n) s = .next (waiting s (.event 1 n 0)
             (evPut s clk 1 n { o 1 with waiters := (o 1).waiters ++ [s.cur] })) ∧
           exec (.mutexTry a n) s = .next (R s 0))) ∧
       ((cur s).wait = .none → n < 64 → (o 1).usable (cur s) = true → (cur s).curConv.resumed = true →
         (cur s).curConv.bitpos = 1 → exec (.mutexAcquire a n) s = .next (R s 1)) ∧
       ((cur s).wait = .none → n < 256 → (o 2).usable (cur s) = true →
         ((o 2).word.getLsbD 63 = true → exec (.eventWait a n) s = .next (R s (o 2).word)) ∧
         ((o 2).word.getLsbD 63 = false → exec (.eventWait a n) s = .next (waiting s (.event 2 n 0)
           (evPut s clk 2 n { o 2 with waiters := (o 2).waiters ++ [s.cur] }))))) ∧
     (SlotRuns s 0x15 3 → (cur s).scnt < 63 →
       (n < 64 → (o 0).usable (cur s) = true → I (.barrierArrive n) (barrierArrival s clk n none)) ∧
       (n < 64 → (o 1).usable (cur s) = true →
         ((o 1).holder ≠ some s.cur → I (.mutexRelease n) s) ∧
         ((o 1).holder = some s.cur → (o 1).waiters = [] →
           I (.mutexRelease n) (evPut s clk 1 n { o 1 with holder := none })) ∧
         ((o 1).holder = some s.cur → (o 1).waiters ≠ [] →
           I (.mutexRelease n) (post (evPut s clk 1 n { o 1 with holder := none }) (.mutexGrant clk n)))) ∧
       (n < 256 → (o 2).usable (cur s) = true →
         I (.eventSet n v) (releaseAll (evPut s clk 2 n { o 2 with word := v ||| 0x8000000000000000, waiters := [] })
           (o 2).waiters (v ||| 0x8000000000000000)) ∧
         I (.eventClear n) (evPut s clk 2 n { o 2 with word := 0 })) ∧
       ((cur s).mode ≠ 0 →
         (n < 64 → evConfigOk (cur s) 0 v = true → (cur s).mode = 3 ∨ (o 0).v = false ∨ (o 0).ctx = (cur s).ctxid.toNat →
           I (.barrierConfigure n v) (configureObj s clk 0 n v)) ∧
         (n < 64 → evConfigOk (cur s) 1 v = true → (cur s).mode = 3 ∨ (o 1).v = false ∨ (o 1).ctx = (cur s).ctxid.toNat →
           I (.mutexConfigure n v) (configureObj s clk 1 n v)) ∧
         (n < 256 → evConfigOk (cur s) 2 v = true → (cur s).mode = 3 ∨ (o 2).v = false ∨ (o 2).ctx = (cur s).ctxid.toNat →
           I (.eventConfigure n v) (configureObj s clk 2 n v))))) ∧
  (∀ (s : State) (clk n : Nat),
     (∃ t, exec (.barrierRelease clk n) s = .next t ∧ t.mem = s.mem ∧
       let o := evGet s clk 0 n
       ((o.v = false ∨ o.arrivals < o.count ∨ (o.chained = true ∧ o.met = false)) → t = s) ∧
       (o.v = true → o.count ≤ o.arrivals → o.chained = false ∨ o.met = true →
         (evGet t clk 0 n).gen = (o.gen + 1) % 2 ^ 48 ∧ (evGet t clk 0 n).arrivals = o.arrivals - o.count ∧
         (∀ hk ∈ o.waiters, waitsGen s o.gen hk = true → (getHart t hk).grant = some (BitVec.ofNat 64 o.gen)) ∧
         ∀ cl m, (cl, m) ≠ (clk, n) →
           let b := evGet s cl 0 m
           b.v = true → b.chained = true → b.sent = true → b.met = false → b.parent = (clk, n) →
             (evGet t cl 0 m).met = true ∧ Instr.barrierRelease cl m ∈ t.pending)) ∧
     (∃ t, exec (.barrierParentArrival clk n) s = .next t ∧ t.mem = s.mem ∧
       let o := evGet s clk 0 n
       (o.v = true → o.chained = true → o.sent = false → o.count ≤ o.arrivals →
         let s1 := evPut s clk 0 n { o with sent := true }
         let q := evGet s1 o.parent.1 0 o.parent.2
         t = if q.v = true ∧ q.ctx = o.ctx then barrierArrival s1 o.parent.1 o.parent.2 none else s1) ∧
       (o.v = false ∨ o.chained = false ∨ o.sent = true ∨ o.arrivals < o.count → t = s)) ∧
     (∃ t, exec (.mutexGrant clk n) s = .next t ∧ t.mem = s.mem ∧
       let o := evGet s clk 1 n
       (∀ w ws, o.holder = none → o.waiters = w :: ws → (evGet t clk 1 n).holder = some w ∧
         (evGet t clk 1 n).waiters = ws ∧ ((getHart s w).wait = .event 1 n 0 → (getHart t w).grant = some 1)) ∧
       (o.holder ≠ none ∨ o.waiters = [] → t = s)))

/-- R144 to R146, R301 to R303: in the global window an access that leaves it raises WINDOW-STRADDLE, then a misaligned one
ALIGN; in window 0xE0 a tile reaches its own scratchpad, in 0xE1 the one an absolute address names, in 0xE2 the one at the
signed distances from its own place, at the offset in bits [19:0]; an access past its end raises WINDOW-STRADDLE, and
every other window raises WINDOW-FAULT. -/
def Obligations.AccessChecks : Prop :=
  ∀ (s : State) (hk n al : Nat) (k : Kind) (p : Machine.Path) (va : DWord) (x y : Nat),
    let ck := coreOf hk
    let E := elemCheck s (agentOf s hk) k va n al p
    let last := va + BitVec.ofNat 64 (n - 1)
    (windowOf va = 0 → windowOf last ≠ 0 → E = .fault cWINDOWSTRADDLE (windowOf last * 65536) va s) ∧
    (windowOf va = 0 → windowOf last = 0 → va.toNat % al ≠ 0 → E = .fault cALIGN (al.log2 * 16) va s) ∧
    (windowOf va ≠ 0 → windowOf va ≠ 0xE0 → windowOf va ≠ 0xE1 → windowOf va ≠ 0xE2 →
      E = .fault cWINDOWFAULT (windowOf va * 256 + (if k = .fetch then 1 else 0)) va s) ∧
    (∀ l, (getCore s ck).meshes = [] → 0 < n →
      (windowOf va = 0xE0 ∧ bits va 55 20 = 0 ∧ unitOf ck < 96 ∧ l = scratchLoc ck (bits va 19 0)) ∨
      (windowOf va = 0xE1 ∧ bits va 55 33 = 0 ∧ bits va 26 23 < 12 ∧ l = scratchBase + bits va 32 0) ∨
      (windowOf va = 0xE2 ∧ bits va 55 33 = 0 ∧ unitOf ck < 96 ∧ devOf (dieOf ck) < 8 ∧
        bits va 32 27 = 0 ∧ x < 12 ∧ y < 8 ∧ toSigned 4 (bits va 26 23) = (x : Int) - tileX (unitOf ck) ∧
        toSigned 3 (bits va 22 20) = (y : Int) - tileY (unitOf ck) ∧
        l = scratchLoc (mkCore (devOf (dieOf ck)) (dieNo (dieOf ck)) (y * 12 + x)) (bits va 19 0)) →
      (bits va 19 0 + n ≤ 2 ^ 20 → va.toNat % al = 0 → E = .ok [(l, n)] s) ∧
      (bits va 19 0 + n ≤ 2 ^ 20 → va.toNat % al ≠ 0 → E = .fault cALIGN (al.log2 * 16) va s) ∧
      (2 ^ 20 < bits va 19 0 + n →
        E = .fault cWINDOWSTRADDLE (windowOf last * 65536 + windowOf va * 256) va s))

/-- R69, R71, R75, R77: the slot words that the worked examples of the chapters build from major, fn, A, B and C, one for
each of many families, with the extension word where the form takes one, decode to the instruction and operands of those
examples. -/
def Obligations.DecodeSampleWords : Prop :=
  (∀ p ∈ ([(0xFFFC1804, none, .addiShort 3 0x3FFF), (0x01FC2804, some 0x12345678, .addiLong 5 127 0x12345678),
      (0x00142B04, some 0xAB, .lih 5 5 0xAB), (0x33303808, none, .bextsShort 7 12 51),
      (0x16306080, none, .add 12 12 11), (0x14285980, none, .mul 11 10 10),
      (0xFC08A012, none, .lrotShort 20 2 126), (0x080040A0, none, .vfadd 8 0 4),
      (0x0DC049A0, none, .vfmul 9 112 6), (0x04008028, none, .vfcvt 16 0 2),
      (0x0400202C, none, .vcmul 4 0 2), (0x0A0040B2, none, .vfsh 8 0 5), (0x04002034, none, .vgmax 4 0 2)] :
      List (Word × Option Word × Instr)), decodeSlot p.1 p.2.1 = .ok p.2.2) ∧
  (∀ p ∈ ([(0x1213FB3A, some 3, .amaxS 127 4 9 (some 3)), (0x0000003C, none, .cwaitL 0),
      (0x001400BC, none, .cwaitS 5), (0x201040BD, none, .vfwait 8 4 16 none),
      (0x2023E145, none, .mmalX 124 8 16 none), (0x2023E845, none, .mma 125 8 16),
      (0x52A05044, none, .fmt 10 0 0 40 41), (0x0A100046, none, .ipload 4 5),
      (0x0A00204C, none, .xdelta 4 0 5), (0x0C10404D, none, .xpack 8 4 6), (0x000028D0, none, .xcrcf 5 0),
      (0x0A004051, none, .xtopk 8 0 5), (0x4001405C, none, .rbox 40 0 32),
      (0x0CE1A05F, none, .texBl 52 56 6), (0x00802864, none, .sget 5 0x020)] :
      List (Word × Option Word × Instr)), decodeSlot p.1 p.2.1 = .ok p.2.2)

/-- R69, R71, R75, R77: for every instruction that has slot words, whatever its operands, decoding the slot word and
extension word that the encoder gives it answers that instruction and those operands. -/
def Obligations.DecodeEncode : Prop := ∀ i : Instr, Laws.Encoding.Statement i

/-- R69, R71, R75, R77: when a slot word with its extension word decodes to an instruction, encoding that instruction gives
back the same words: no two words stand for one instruction, and no bit of a word is dropped. -/
def Obligations.EncodeDecode : Prop :=
  ∀ (w : Word) (e : Option Word) (i : Instr), decodeSlot w e = .ok i → encode i = some (w, e)

/-- R8, R65 to R68, R73: a step executes the head of the inputs, else the head of what earlier steps made due, else what a
unit can do of itself (the order of the three is the model's, log 5). A slot of a convoy in progress runs exactly the
instruction its word and extension word decode to. Issuing a hart that stands between convoys begins the convoy its PC
fetches and runs its slots, or raises ILLEGAL-CONVOY where R67 refuses the header; of a convoy of one slot it runs the
instruction in the fetched state and then retires the convoy. A hart that may not issue stays as it is, only that its core
notes the turn. -/
def Obligations.StepRunsDecodedInstruction : Prop :=
  (∀ (s : State) (i : Instr) (rest : List Instr), s.inputs = i :: rest → step s = exec i { s with inputs := rest }) ∧
  (∀ (s : State) (i : Instr) (rest : List Instr), s.inputs = [] → s.pending = i :: rest →
    step s = exec i { s with pending := rest }) ∧
  (∀ s : State, s.inputs = [] → s.pending = [] → step s = exec (ownStep s) { s with turn := s.turn + 1 }) ∧
  (∀ (s u : State) (hk : Nat) (c : Conv) (i : Instr), (getHart s hk).conv = some c →
    decodeSlot (c.words.getD c.slot 0) (extOf c.hdr c.words c.slot) = .ok i →
    exec i { setHart s hk { getHart s hk with conv := some { c with bad := false } } with cur := hk } = .next u →
    stepSlot s hk = u) ∧
  (∀ (s t : State) (hk : Nat) (hdr : Word) (ws : List Word),
    let h := getHart s hk
    let v := modCore s (coreOf hk) (fun c => { c with lastHart := hartNo hk })
    validHart hk = true →
    (mayIssue v hk = false → exec (.convoyIssue hk) s = .next v) ∧
    ((getDev s (devOfHart hk)).off = false → h.st = .running → h.conv = none → h.async = [] → h.ending = .none →
      h.inRope = false → h.stall = 0 →
      (h.yield = true → exec (.convoyIssue hk) s = .next (setHart v hk { h with yield := false })) ∧
      (h.yield = false → fetchConvoy v hk h.pc = .ok (hdr, ws) t → (getHart t hk).inRope = false →
        (headerOk (isTsc (unitOf (coreOf hk)) || isEngine hk) hdr ws = false →
          exec (.convoyIssue hk) s = .next (raiseTrap t hk (convoyTrap hdr h.pc))) ∧
        (headerOk (isTsc (unitOf (coreOf hk)) || isEngine hk) hdr ws = true → resumeBad (getHart t hk) hdr = false →
          exec (.convoyIssue hk) s = .next (runConvoy (modHart t hk (Hart.begin [] h.pc hdr ws)) hk))))) ∧
  (∀ (s t u : State) (hk : Nat) (rest : List Instr) (hdr w : Word) (ws : List Word) (i : Instr) (c : Conv),
    let h := getHart s hk
    s.inputs = .convoyIssue hk :: rest → validHart hk = true → (getDev s (devOfHart hk)).off = false →
    h.st = .running → h.conv = none → h.async = [] → h.ending = .none → h.inRope = false → h.stall = 0 →
    h.yield = false →
    fetchConvoy (modCore { s with inputs := rest } (coreOf hk) (fun c => { c with lastHart := hartNo hk })) hk h.pc
      = .ok (hdr, w :: ws) t →
    (getHart t hk).resume = false → (getHart t hk).inRope = false → hdrNS hdr = 1 → hdrExt1 hdr = false →
    headerOk (isTsc (unitOf (coreOf hk)) || isEngine hk) hdr (w :: ws) = true → decodeSlot w none = .ok i →
    exec i { modHart t hk (Hart.begin [] h.pc hdr (w :: ws)) with cur := hk } = .next u →
    (getHart (settle u hk) hk).conv = some c → c.hdr = hdr → c.slot = 1 → (getHart (settle u hk) hk).wait = .none →
    step s = .next (modHart (settle u hk) hk Hart.retire))

/-- R72 to R74: for every slot instruction: where the mode, unit or task may not issue it the slot raises
ILLEGAL-INSTRUCTION with its slot word as INFO; a slot removed by its stage predicate or mask completes with no effect of
its own, but that a rope's leader settles for the members that nothing is done in its removed control slot, and a member
whose own is removed waits for what the leader settles and follows its PC (R19, R98; the settling of a removed slot is the
model's reading, log 73); one with a non-zero unused field or a selector it does not take raises ILLEGAL-OPERAND. `sget`, `sset`, `sswap`,
`vmrecv` and `vgetx` have a further check at step 2, so their last two clauses are stated elsewhere. -/
def Obligations.SlotChecks : Prop :=
  ∀ (s : State) (major fn : Nat) (a b c : BitVec 7) (e : Option Word) (i : Instr),
    instrOf major fn a b c e = some i →
    (allowed s s.cur major fn = false → exec i s = .next (instructionTrap s)) ∧
    (allowed s s.cur major fn = true → major ≠ 0x64 → ¬ (major = 0x59 ∧ fn = 3) → ¬ (major = 0x36 ∧ fn = 2) →
      (slotRemoved (cur s) major fn = true →
        let past (h : Hart) := Hart.advance (if (cur s).prefixLive then h.dropPrefix false else h)
        let rules := leaderRules (fieldMajor (cur s).slotWord) (fieldFn (cur s).slotWord) (cur s).slotExt
        (rules = false → exec i s = .next (modHart s s.cur past)) ∧
        (rules = true →
          ((cur s).recorded = none → isMember s s.cur = true → exec i s = .next (waiting s (.notReady false) s)) ∧
          ((cur s).recorded = none → isMember s s.cur = false →
            exec i s = .next (modHart (recordRuling s s.cur (fun _ => .skipped)) s.cur past)) ∧
          ∀ r, (cur s).recorded = some r →
            ((∀ d, r ≠ .decided d) → exec i s = .next (modHart s s.cur past)) ∧
            (∀ d, r = .decided d → exec i s = .next (modHart s s.cur (fun h => past (h.transfer d)))))) ∧
      (slotRemoved (cur s) major fn = false → (cur s).curConv.bad = true ∨ selectorBad (cur s) major fn = true →
        exec i s = .next (operandTrap s)))

/-- R9, R26, R28, R30, R36: after reset every system register of R28 that has a reset value holds it (VCFG 0x7003, ORDTMO
0x100000, HSTAT.MODE 3 on firmware-column and translation service cores, the others 0), and the translation service harts
are idle. That every other hart is idle, that no queue, context or operation exists, and that memory lists nothing are the
model's choices where R28 gives no value (log 1, log 2), as are mode 0 of engine harts (log 80) and slices that hold no line
(log 81), among them the columns that are firmware columns (log 3). -/
def Obligations.ResetValues : Prop :=
  ∀ hk n : Nat,
    let s := State.reset
    ((regRow n).isSome = true → n ∉ [0x000, 0x010, 0x021, 0x022, 0x071] → sysReg s hk n = 0) ∧
    sysReg s hk 0x010 = 0x7003 ∧ sysReg s hk 0x071 = 0x100000 ∧
    sysReg s hk 0x000 = (if isFwCore s (coreOf hk) && !isEngine hk then 3 else 0) ∧
    (getHart s hk).st = .idle ∧ (getHart s hk).conv = none ∧ (getHart s hk).task = none ∧ (getHart s hk).async = [] ∧
    (getHart s hk).valloc = 0 ∧ s.mem = [] ∧ s.l2 = [] ∧ MemoryOk s ∧ s.ops = [] ∧ s.queues = [] ∧ s.ctxs = [] ∧ s.pending = []

/-- R174: a live `fmt` sets PXF to its slot word and PXP to 1 and nothing else. R178 to R184, R190, R194, R198: on a tile of
the hart's own, in the right mode and with the slot table open, `mma`, `mmai`, `mmal.x` and `mmal.a` complete: each cell of an active
row below M takes the sum of its rule, `mmai` also its ATSAT bits, every other cell is unchanged, the named tile is in
flight; on a tile of another owner each raises ACC-CLAIM with the tile's code, and `mmal.x` and `mmal.a` on another owner's
infuser with code 2. R184, R185: a cell of a block format takes the sum of its groups' exact sums, each aligned to the greatest
scale exponent with T bits below it and truncated, NX for what that drops, and special values as R184 says; R190: the BF16
values between the two products of `mmal` are exact sums rounded to FP32 and then to BF16. That `mmal.x` raises the flags of
those values only where a row is active, and that the operand checks come before the owners', is the model's reading (log
34). -/
def Obligations.MatrixInstructions : Prop :=
  (∀ (s : State) (a b c : BitVec 7) (e : Option Word) (f : BitVec 5) (u x : BitVec 1) (t av bv sa sb cb : Nat) (p : Pfx),
    (SlotRuns s 0x44 0 → ∃ h : Hart, exec (.fmt f u x b c) s = .next (completed s (withCur s h)) ∧
      h = { cur s with hstat := h.hstat, pxStack := h.pxStack } ∧ h.pxp = true ∧
      bits h.hstat 63 32 = (pack 0x44 0 (x ++ u ++ f) b c).toNat ∧
      ∀ k, k < 32 → k ≠ 8 → h.hstat.getLsbD k = (cur s).hstat.getLsbD k) ∧
    (tileOf a = some t → c.toNat % 8 = 0 → slotOpen (curCore s) (cur s).ctxid.toNat = true → TileReady s t →
      let K := 256 / (cur s).sew
      let M := (cur s).len / K
      let cell (i n : Nat) := cellAt ((curCore s).tile t) (32 * i + n)
      let latent (n j : Nat) := bfAt bv (n * (curCore s).infNL + j)
      let w (j d : Nat) := decodeF bf16 ((curCore s).infAt j d)
      (SlotRuns s 0x45 0 → matrixFmt (cur s) 0 = some p → (cur s).len % K = 0 → (cur s).len ≤ 32 * K →
        readV (curLocal s) b (cur s).grp = some av → c.toNat + 8 ≤ 96 → readRun (curLocal s) c.toNat 8 = some bv →
        readScaleGroup (curLocal s) p.f p.b b (cur s).grp c = some sa →
        readScaleGroup (curLocal s) p.f p.c b (cur s).grp c = some sb → (curCore s).cellMode t = 0 →
        (p.f.block = 0 → RowsDone s t M false (fun i n => rneArith fa40 (sumTerms true (.val (decodeF fa40 (cell i n)) ::
            (List.range K).map (fun k => mulTerm (bfmtValue p.f false 0 0 (elem av (i * K + k) (cur s).sew))
              (bfmtValue p.f false 0 0 (elem bv (n * K + k) (cur s).sew)))))) (fun _ => False)
          (exec (.mma a b c) s)) ∧
        (p.f.block ≠ 0 → RowsDone s t M false (fun i n => accumulateBlocks p.f (cell i n)
            ((List.range p.f.gb).map (fun g =>
              let xa := elem sa (i * p.f.gb + g) p.f.scaleWidth
              let xb := elem sb (n * p.f.gb + g) p.f.scaleWidth
              ⟨(List.range (K / p.f.gb)).map (fun j => mulTerm
                (blockElem p.f xa j (elem av (i * K + g * (K / p.f.gb) + j) (cur s).sew))
                (blockElem p.f xb j (elem bv (n * K + g * (K / p.f.gb) + j) (cur s).sew))), xa % 256, xb % 256⟩)))
          (fun _ => False) (exec (.mma a b c) s))) ∧
      (SlotRuns s 0x45 1 → matrixFmt (cur s) 1 = some p → (cur s).len % K = 0 → (cur s).len ≤ 32 * K →
        readV (curLocal s) b (cur s).grp = some av → c.toNat + 8 ≤ 96 → readRun (curLocal s) c.toNat 8 = some bv →
        (curCore s).cellMode t = 1 →
        let sum (i n : Nat) : Int := toSigned 40 (cell i n) + ((List.range K).map (fun k =>
          intElem p.u (cur s).sew av (i * K + k) * intElem p.u (cur s).sew bv (n * K + k))).sum
        ∃ d, exec (.mmai a b c) s = .next (completed s (setCore s (coreOf s.cur) d)) ∧
          TileChanged (curCore s) d t (fun i n => if i < M ∧ (cur s).selBit i = true then
            wrapInt 40 (max (-2 ^ 39) (min (2 ^ 39 - 1) (sum i n))) else cell i n) ∧
          (∀ k, d.accown k = (curCore s).accown k) ∧ d.atsat (1 - t) = (curCore s).atsat (1 - t) ∧
          (∀ i, i < 64 → ((d.atsat t).getLsbD i = true ↔ ((curCore s).atsat t).getLsbD i = true ∨
            (i < M ∧ (cur s).selBit i = true ∧ ∃ n, n < 32 ∧ (sum i n < -2 ^ 39 ∨ 2 ^ 39 ≤ sum i n))))) ∧
      (cbOf e = some cb → (cur s).len % 16 = 0 → (cur s).len ≤ 512 → (curCore s).cellMode t = 0 →
        ownsInfuser s s.cur = true → c.toNat + (curCore s).infNL / 2 ≤ 96 →
        readRun (curLocal s) c.toNat ((curCore s).infNL / 2) = some bv →
        (SlotRuns s 0x45 2 → (matrixFmt (cur s) 2).isSome = true → readV (curLocal s) b (cur s).grp = some av →
          cb < (curCore s).infND / 16 →
          let xkn (k n : Nat) := roundTwice ((List.range (curCore s).infNL).map (fun j =>
            mulTerm (latent n j) (w j (16 * cb + k))))
          RowsDone s t ((cur s).len / 16) true (fun i n => rneArith fa40 (sumTerms true (.val (decodeF fa40 (cell i n)) ::
              (List.range 16).map (fun k => mulTerm (bfAt av (i * 16 + k)) (decodeF bf16 (xkn k n).1)))))
            (fun z => (∃ i, i < (cur s).len / 16 ∧ (cur s).selBit i = true) ∧
              ∃ k n, k < 16 ∧ n < 32 ∧ (xkn k n).2.testBit z = true)
            (exec (.mmalX a b c e) s)) ∧
        (SlotRuns s 0x45 3 → (matrixFmt (cur s) 3).isSome = true → b.toNat % 8 = 0 →
          b.toNat + (curCore s).infND / 2 ≤ 96 → readRun (curLocal s) b.toNat ((curCore s).infND / 2) = some av →
          cb < (curCore s).infNL / 16 →
          let yik (i k : Nat) := roundTwice ((List.range (curCore s).infND).map (fun d =>
            mulTerm (bfAt av (i * (curCore s).infND + d)) (w (16 * cb + k) d)))
          RowsDone s t ((cur s).len / 16) true (fun i n => rneArith fa40 (sumTerms true (.val (decodeF fa40 (cell i n)) ::
              (List.range 16).map (fun k => mulTerm (decodeF bf16 (yik i k).1) (latent n (16 * cb + k))))))
            (fun z => ∃ i k, i < (cur s).len / 16 ∧ (cur s).selBit i = true ∧ k < 16 ∧ (yik i k).2.testBit z = true)
            (exec (.mmalA a b c e) s)))) ∧
    (∀ o, tileOf a = some t → ownsTile s s.cur t = false →
      (SlotRuns s 0x45 0 → matOperands 0 (curLocal s) a b c = some o →
        exec (.mma a b c) s = .next (trapped s cACCCLAIM t 0 0 0 s)) ∧
      (SlotRuns s 0x45 1 → matOperands 1 (curLocal s) a b c = some o →
        exec (.mmai a b c) s = .next (trapped s cACCCLAIM t 0 0 0 s))) ∧
    (∀ o code, tileOf a = some t → cbOf e = some cb → c.toNat % 8 = 0 → c.toNat < 96 →
      (ownsTile s s.cur t = false ∧ code = t ∨ ownsTile s s.cur t = true ∧ ownsInfuser s s.cur = false ∧ code = 2) →
      (SlotRuns s 0x45 2 → (matrixFmt (cur s) 2).isSome = true → rowsOf (cur s) 16 = some o →
        readV (curLocal s) b (cur s).grp = some av →
        exec (.mmalX a b c e) s = .next (trapped s cACCCLAIM code 0 0 0 s)) ∧
      (SlotRuns s 0x45 3 → (matrixFmt (cur s) 3).isSome = true → rowsOf (cur s) 16 = some o → b.toNat % 8 = 0 →
        b.toNat < 96 → exec (.mmalA a b c e) s = .next (trapped s cACCCLAIM code 0 0 0 s)))) ∧
  (∀ (f : BFmt) (T cell : Nat) (gs : List ScaleGroup),
    (f, T) ∈ ([(.mxe4, 16), (.mxe5, 2), (.mxi8, 31), (.mxe2, 27), (.kx8, 32), (.kx5, 32), (.kx3, 31)] : List (BFmt × Nat)) →
    let r := accumulateBlocks f cell gs
    let ts := gs.flatMap (fun g => g.terms)
    let infs (n : Bool) := Term.val (.inf n) ∈ ts
    let odd := (∃ g ∈ gs, g.sa = 255 ∨ g.sb = 255) ∨ Term.invalid ∈ ts ∨ (∃ b, Term.val (.nan b) ∈ ts)
    (odd ∨ (infs true ∧ infs false) → r = (fa40.nan, 16)) ∧
    (∀ n, ¬ odd → infs n → ¬ infs (!n) →
      ((decodeF fa40 cell).isNan = true ∨ decodeF fa40 cell = .inf (!n) → r = (fa40.nan, 16)) ∧
      ((decodeF fa40 cell).isNan = false → decodeF fa40 cell ≠ .inf (!n) → r = (infCode fa40 n, 0))) ∧
    (∀ (S : Nat → ℝ) (E acc : Int), ¬ (∃ g ∈ gs, g.sa = 255 ∨ g.sb = 255) →
      (∀ k g, gs[k]? = some g → ∃ (vs : List FVal) (xs : List ℝ), g.terms = vs.map Term.val ∧ List.Forall₂ FVal.Is vs xs ∧
        S k = xs.sum) →
      let ex (k : Nat) : Int := match gs[k]? with | some g => (g.sa : Int) + g.sb - 254 | none => 0
      let part (k : Nat) : ℝ := |S k| * (2 : ℝ) ^ (ex k - E + T)
      (∀ k, k < gs.length → ex k ≤ E) → (∃ k, k < gs.length ∧ ex k = E) →
      acc = ((List.range gs.length).map (fun k => (if S k < 0 then -1 else 1) * ⌊part k⌋)).sum →
      ∃ fl, (∀ n, r.2.testBit n = true ↔ fl.testBit n = true ∨ n = 0 ∧ ∃ k, k < gs.length ∧ (⌊part k⌋ : ℝ) ≠ part k) ∧
        (∀ z : ℝ, (decodeF fa40 cell).Is z → Exactly fa40 (z + acc * (2 : ℝ) ^ (E - T)) false ⟨r.1, fl, false⟩) ∧
        ((decodeF fa40 cell).isNan = true → r.1 = fa40.nan ∧ fl = 16) ∧
        ∀ n, decodeF fa40 cell = .inf n → r.1 = infCode fa40 n ∧ fl = 0)) ∧
  (∀ (vs : List FVal) (xs : List ℝ) (zero : Bool), List.Forall₂ FVal.Is vs xs →
    (zero = true ↔ vs ≠ [] ∧ ∀ v ∈ vs, v.isZero = true ∧ v.neg = true) →
    let r := roundTwice (vs.map Term.val)
    ∃ m f g, Exactly f32 xs.sum zero ⟨m, f, false⟩ ∧ r.2 = f ||| g ∧
      (∀ n, decodeF f32 m = .inf n → r.1 = infCode bf16 n ∧ g = 0) ∧
      ∀ y : ℝ, (decodeF f32 m).Is y → Exactly bf16 y (decodeF f32 m).neg ⟨r.1, g, false⟩)

/-- R189 to R194: on tiles of the hart's own that no earlier instruction in flight names: `atzero`, `atmov`, `attr` and
`atadd` give every cell its value and leave or set MODE and ATSAT as R192 says; `atload` and `atsave` move the 5,120-byte
image in 64-byte pieces, counting in LCNT and SCNT; `atget` writes the rounded or clamped cells to a vector group;
the writing forms write the active elements into their cells and nothing else. -/
def Obligations.TileInstructions : Prop :=
  ∀ (s u : State) (a b c : BitVec 7) (t r n : Nat) (x y : DWord) (v old : Nat) (as : List Acc),
    tileOf a = some t → TileReady s t →
    let core := curCore s
    let cell (k i j : Nat) := cellAt (core.tile k) (32 * i + j)
    let D (i : Instr) (d : Core) (fl : Nat) :=
      exec i s = .next (completed s (withCur (setCore s (coreOf s.cur) d) (raise (cur s) fl)))
    let others (d : Core) := d.accown (1 - t) = core.accown (1 - t) ∧ d.atsat (1 - t) = core.atsat (1 - t)
    (SlotRuns s 0x47 0 → b.toNat < 2 → ∃ d, D (.atzero a b) d 0 ∧ TileChanged core d t (fun _ _ => 0) ∧ others d ∧
      d.atsat t = 0 ∧ d.cellMode t = b.toNat ∧ ∀ k, k ≠ 30 → (d.accown t).getLsbD k = (core.accown t).getLsbD k) ∧
    (SlotRuns s 0x47 1 → tileOf b = some n → TileReady s n → ∃ d, D (.atmov a b) d 0 ∧
      TileChanged core d t (fun i j => cell n i j) ∧ others d ∧ d.atsat t = core.atsat n ∧
      d.cellMode t = core.cellMode n ∧ ∀ k, k ≠ 30 → (d.accown t).getLsbD k = (core.accown t).getLsbD k) ∧
    (SlotRuns s 0x47 4 → ∃ d, D (.attr a) d 0 ∧ TileChanged core d t (fun i j => cell t j i) ∧ others d ∧
      d.atsat t = core.atsat t ∧ d.accown t = core.accown t) ∧
    (SlotRuns s 0x47 5 → tileOf b = some n → TileReady s n → core.cellMode t = core.cellMode n →
      ∃ d fl, D (.atadd a b) d fl ∧ others d ∧ d.accown t = core.accown t ∧
        (core.cellMode t = 0 → d.atsat t = core.atsat t ∧
          let f (i j : Nat) := rneArith fa40 (sumTerms true [.val (decodeF fa40 (cell t i j)), .val (decodeF fa40 (cell n i j))])
          TileChanged core d t (fun i j => (f i j).1 % 2 ^ 40) ∧
          ∀ k, fl.testBit k = true ↔ ∃ i j, i < 32 ∧ j < 32 ∧ (f i j).2.testBit k = true) ∧
        (core.cellMode t = 1 → fl = 0 ∧
          let z (i j : Nat) : Int := toSigned 40 (cell t i j) + toSigned 40 (cell n i j)
          TileChanged core d t (fun i j => wrapInt 40 (max (-2 ^ 39) (min (2 ^ 39 - 1) (z i j)))) ∧
          ∀ i, i < 64 → ((d.atsat t).getLsbD i = true ↔ (core.atsat t).getLsbD i = true ∨
            (i < 32 ∧ ∃ j, j < 32 ∧ (z i j < -2 ^ 39 ∨ 2 ^ 39 ≤ z i j))))) ∧
    (readS (cur s) b = some x → startElem (cur s) = 0 →
      (SlotRuns s 0x47 2 → c.toNat < 2 → (cur s).lcnt < 63 →
        checkAccs s s.cur .load 64 .scalar [] (pieces64 (cur s) x.toNat 80) = .all as u → refusals u s.cur .load as = [] →
        ∃ w d V, exec (.atload a b c) s = .next (completed s w) ∧ w.mem = s.mem ∧
          Issued s.cur (setCore u (coreOf s.cur) d) w 1 [] ∧
          TileChanged (getCore u (coreOf s.cur)) d t (fun i j => elem V (32 * i + j) 40) ∧ d.atsat t = 0 ∧
          d.cellMode t = c.toNat ∧ d.accown (1 - t) = (getCore u (coreOf s.cur)).accown (1 - t) ∧
          d.atsat (1 - t) = (getCore u (coreOf s.cur)).atsat (1 - t) ∧ ∀ i, i < 80 → ∃ acc ∈ as, acc.idx = i ∧
            acc.va = x + BitVec.ofNat 64 (64 * i) ∧ elem V i 512 = viewPieces u s.cur acc.va acc.pieces % 2 ^ 512) ∧
      (SlotRuns s 0x47 3 → (cur s).scnt < 63 →
        checkAccs s s.cur .store 64 .scalar [] (pieces64 (cur s) x.toNat 80) = .all as u → refusals u s.cur .store as = [] →
        ∃ V, (∀ i j, i < 32 → j < 32 → elem V (32 * i + j) 40 = cell t i j) ∧
          ∀ w, storeAccs (fun g k => storeAcc g s.cur 4 false k (elem V k.idx 512)) u as = .all w →
            ∃ z, exec (.atsave a b) s = .next (completed s z) ∧ u.mem = s.mem ∧
              StoreDone s.cur 4 false u z as (fun k => elem V k.idx 512) ∧ getCore z (coreOf s.cur) = getCore u (coreOf s.cur))) ∧
    (readS (cur s) c = some y → r = 32 * y.toNat → r + (cur s).len ≤ 1024 →
      (∀ (g : BitVec 7) (w m fn : Nat) (f : Nat → Res) (i : Instr),
        (i, fn, w, m, f) ∈ ([(.atgetF32 g a c, 0, 32, 0, fun k => convElem f32 (decodeF fa40 k)),
          (.atgetBf16 g a c, 1, 16, 0, fun k => convElem bf16 (decodeF fa40 k)),
          (.atgetI32 g a c, 2, 32, 1, fun k =>
            let z := max (-2 ^ 31) (min (2 ^ 31 - 1) (toSigned 40 k))
            ⟨wrapInt 32 z, if z = toSigned 40 k then 0 else flSA, decide (z ≠ toSigned 40 k)⟩)] :
          List (Instr × Nat × Nat × Nat × (Nat → Res))) →
        SlotRuns s 0x48 fn → (cur s).sew = w → core.cellMode t = m → (cur s).maskFits = true →
        g.toNat < 112 ∨ g.toNat = 127 → readV (curLocal s) g (cur s).grp = some old →
        ∃ z, exec i s = .next (completed s (modCore (withLocal s z) (coreOf s.cur) (fly s.cur [t] false))) ∧
          ConvResult s g w (fun k => f (cellAt (core.tile t) (r + k))) (.next (completed s (withLocal s z)))) ∧
      (∀ (fn m : Nat) (f : Nat → Nat × Nat) (i : Instr),
        (i, fn, m, f) ∈ ([(.atputF32 a b c, 3, 0, fun k => rneArith fa40 (decodeF f32 k).res),
          (.atputI32 a b c, 4, 1, fun k => (wrapInt 40 (toSigned 32 k), 0))] :
          List (Instr × Nat × Nat × (Nat → Nat × Nat))) →
        SlotRuns s 0x48 fn → (cur s).sew = 32 → core.cellMode t = m → readV (curLocal s) b (cur s).grp = some v →
        ∃ d fl, D i d fl ∧ others d ∧ d.atsat t = core.atsat t ∧ d.accown t = core.accown t ∧
          TileChanged core d t (fun i j => if r ≤ 32 * i + j ∧ (cur s).active (32 * i + j - r) = true then
            (f (elem v (32 * i + j - r) 32)).1 % 2 ^ 40 else cell t i j) ∧
          ∀ k, fl.testBit k = true ↔ ∃ i, (cur s).active i = true ∧ (f (elem v i 32)).2.testBit k = true))

/-- R186 to R189: `ipload` makes every W[j][d] the BF16 at its address and the hart the owner, or with REL releases the
infuser; `ipsave` writes W in that layout and the descriptor piece, every other byte of memory kept; in user mode both raise ACC-CLAIM 2 on
another hart's infuser. R25: the oldest instruction in flight completes. R198: at a slot's end the table's writes come into force and the
next valid entry, in ascending order and round again, begins its slot. -/
def Obligations.InfuserAndSlotTable : Prop :=
  (∀ (s u : State) (b c : BitVec 7) (x y : DWord) (rel : Bool) (rc dc : Nat) (as : List Acc),
    readS (cur s) b = some x → readS (cur s) c = some y → bits y 30 11 = 0 → bits y 7 3 = 0 →
    bits y 10 8 = dc → dc < 4 → bits y 2 0 = rc → rc < 4 → y.getLsbD 31 = rel →
    let nd := 16 * 2 ^ dc
    (SlotRuns s 0x46 0 → rel = true → (cur s).mode ≠ 0 → exec (.ipload b c) s
      = .next (completed s (setCore s (coreOf s.cur) { curCore s with infV := false }))) ∧
    (SlotRuns s 0x46 0 → rel = false → infuserFree s s.cur = false →
      exec (.ipload b c) s = .next (trapped s cACCCLAIM 2 0 0 0 s)) ∧
    (SlotRuns s 0x46 1 → infuserFree s s.cur = false → exec (.ipsave b) s = .next (trapped s cACCCLAIM 2 0 0 0 s)) ∧
    (SlotRuns s 0x46 0 → rel = false → infuserFree s s.cur = true → (curCore s).inflight = [] → (cur s).lcnt < 63 →
      startElem (cur s) = 0 → checkAccs s s.cur .load 64 .scalar [] (pieces64 (cur s) x.toNat (8 * 2 ^ (rc + dc))) = .all as u →
      refusals u s.cur .load as = [] →
      ∃ w d, exec (.ipload b c) s = .next (completed s w) ∧ w.mem = s.mem ∧
        Issued s.cur (setCore u (coreOf s.cur) d) w 1 [] ∧
        d = { getCore u (coreOf s.cur) with infV := true, infCtx := (cur s).ctxid.toNat, infHart := s.cur % 8,
                                            infRC := rc, infDC := dc, infW := d.infW } ∧
        ∀ j k, j < 16 * 2 ^ rc → k < nd → ∃ acc ∈ as, acc.idx = (j * nd + k) / 32 ∧
          acc.va = x + BitVec.ofNat 64 (64 * acc.idx) ∧
          d.infAt j k = elem (viewPieces u s.cur acc.va acc.pieces) ((j * nd + k) % 32) 16) ∧
    (SlotRuns s 0x46 1 → infuserFree s s.cur = true → (cur s).scnt < 63 → startElem (cur s) = 0 →
      let i := curCore s
      let n := if i.infV then i.infNL * i.infND / 32 else 0
      checkAccs s s.cur .store 64 .scalar [] (pieces64 (cur s) x.toNat n ++ [⟨n, x + 32768, 64, []⟩]) = .all as u →
      refusals u s.cur .store as = [] →
      ∃ val : Nat → Nat,
        (∀ j k, j < i.infNL → k < i.infND → i.infV = true →
          elem (val ((j * i.infND + k) / 32)) ((j * i.infND + k) % 32) 16 = i.infAt j k) ∧
        val n = (if i.infV then 2 ^ 63 + i.infHart % 8 * 2 ^ 48 + i.infCtx % 2 ^ 16 * 2 ^ 32 + i.infDC % 8 * 2 ^ 8 + i.infRC % 8
          else 0) ∧
        ∀ w, storeAccs (fun g k => storeAcc g s.cur 4 false k (val k.idx)) u as = .all w →
          ∃ z, exec (.ipsave b) s = .next (completed s z) ∧ u.mem = s.mem ∧
            StoreDone s.cur 4 false u z as (fun k => val k.idx))) ∧
  (∀ (s : State) (ck : Nat),
    exec (.matrixInstructionComplete ck) s
      = .next (setCore s ck { getCore s ck with inflight := (getCore s ck).inflight.drop 1 }) ∧
    ∃ d, exec (.mstSlotBoundary ck) s = .next (setCore s ck d) ∧
      let c := getCore s ck
      let valid (i : Nat) := i < 16 ∧ (SMap.get 0 c.mst i).getLsbD 31 = true
      (c.mstSlot = none → d = c) ∧
      ∀ e len n, c.mstSlot = some (e, len, n) →
        (n < len → d = c) ∧
        (len ≤ n → (∀ i, ¬ valid i) → d = { c with mstLive := c.mst, mstSlot := none }) ∧
        (len ≤ n → ∀ i, valid i → (e < i ∧ ∀ j, valid j → e < j → i ≤ j) ∨ ((∀ j, valid j → j ≤ e) ∧ ∀ j, valid j → i ≤ j) →
          d = { c with mstLive := c.mst, mstSlot := some (i, bits (SMap.get 0 c.mst i) 15 0, 0) }))

/-- R203 to R205, R213 to R216: with VL inside the group, each coding instruction completes and gives the elements below its
count their values and the rest as tail; packing lays each element's low bits at its offset and unpacking reads them back;
the CRC instructions write the register after the bytes; the selections write the best k candidates best first, empty
entries after them, and keep the entries from k up (that of a list only its first k entries are candidates is the model's
reading: log 36). One candidate is better than another where its value is larger, or smaller for the `bot` forms, in the order of
XCFG.KORD, unsigned, signed or that of real numbers with infinities at the ends and -0 equal to +0, or where the values are equal
and its index is lower; no chosen entry stands behind a worse one, no NaN is chosen, and no candidate left out is better than one
chosen. With VL = 0, and below the element where a coding slot is resumed, nothing is written (R35, R104). -/
def Obligations.TransformResults : Prop :=
  ∀ (s : State) (a b c : BitVec 7) (p q o : Nat) (y d : DWord),
    (cur s).len ≤ 1024 * (cur s).grp / (cur s).sew →
    let h := cur s
    let w := h.sew
    let x (i : Nat) := BitVec.ofNat w (elem p i w)
    let tail (i : Nat) := if h.vl = 0 then elem o i w else if h.tailz then 0 else elem o i w
    let E (n : Nat) (f : Nat → Nat) (u : Host.Outcome State Fault Refusal) := ∃ V, VectorWritten s a h.grp V 0 0 u ∧
      ∀ i, i < 1024 * h.grp / w → elem V i w = if i < startElem h then elem o i w
        else if h.vl ≠ 0 ∧ i < n then f i else tail i
    (8 ≤ w → V1Ready s a b p o →
      (SlotRuns s 0x4C 0 → readS h c = some y →
        E h.len (fun i => (x i - (if i = 0 then y.setWidth w else x (i - 1))).toNat) (exec (.xdelta a b c) s)) ∧
      (SlotRuns s 0x4C 1 → readS h c = some y →
        E h.len (fun i => (y.toNat + ((List.range (i + 1)).map (fun k => elem p k w)).sum) % 2 ^ w)
          (exec (.xundelta a b c) s)) ∧
      (SlotRuns s 0x4C 2 → E h.len (fun i => ((x i <<< 1) ^^^ (if (x i).msb then BitVec.allOnes w else 0)).toNat)
        (exec (.xzz a b) s)) ∧
      (SlotRuns s 0x4C 3 → E h.len (fun i => ((x i >>> 1) ^^^ (if (x i).getLsbD 0 then BitVec.allOnes w else 0)).toNat)
        (exec (.xunzz a b) s)) ∧
      (∀ (wd off : Nat → Nat), (∀ i, off i = ((List.range i).map wd).sum) → (∀ i, i < h.len → wd i ≤ w) →
        let P (u : Host.Outcome State Fault Refusal) := ∃ V, VectorWritten s a h.grp V 0 0 u ∧
          (∀ i t, i < h.len → t < wd i → startElem h ≤ (off i + t) / w →
            (elem V ((off i + t) / w) w).testBit ((off i + t) % w) = (elem p i w).testBit t) ∧
          (∀ t, off h.len ≤ t → t < (off h.len + w - 1) / w * w → startElem h ≤ t / w → (elem V (t / w) w).testBit (t % w) = false) ∧
          (∀ j, (off h.len + w - 1) / w ≤ j → startElem h ≤ j → j < 1024 * h.grp / w → elem V j w = tail j) ∧
          ∀ j, j < startElem h → j < 1024 * h.grp / w → elem V j w = elem o j w
        let U (u : Host.Outcome State Fault Refusal) := E h.len (fun i => (p >>> off i) % 2 ^ wd i) u
        (readS h c = some y → (∀ i, wd i = y.toNat) → y.toNat ≤ w →
          (SlotRuns s 0x4D 0 → P (exec (.xpack a b c) s)) ∧ (SlotRuns s 0x4D 1 → U (exec (.xunpack a b c) s))) ∧
        (VvReady s a b c p q o → (∀ i, wd i = elem q (i / 2 ^ bits h.xcfg 13 11) w) →
          (SlotRuns s 0x4D 2 → P (exec (.xpackg a b c) s)) ∧ (SlotRuns s 0x4D 3 → U (exec (.xunpackg a b c) s))))) ∧
    (8 ≤ w → readV (curLocal s) b h.grp = some p → readS h a = some d → sDest a = true →
      let run (v : Nat) := (List.range (h.len * w / 8)).foldl (fun v j => (List.range 8).foldl (fun c _ =>
        if c % 2 = 1 then Nat.xor (c / 2) 0x82F63B78 else c / 2) (Nat.xor v (elem p j 8))) v
      let R (i : Instr) (v : Nat) := exec i s
        = .next (completed s (withLocal s ⟨h.result a (BitVec.ofNat 64 v), (curLocal s).pool⟩))
      (SlotRuns s 0x50 0 → R (.xcrc a b) (run (d.toNat % 2 ^ 32))) ∧
      (SlotRuns s 0x50 1 → R (.xcrcf a b) (Nat.xor (run (Nat.xor (d.toNat % 2 ^ 32) 0xFFFFFFFF)) 0xFFFFFFFF))) ∧
    (∀ (g k : Nat) (big : Bool) (i j : Instr) (fn : Nat), (i, j, fn, big) ∈ ([(.xtopk a b c, .xkmerge a b c, 0, true),
        (.xbotk a b c, .xbkmerge a b c, 1, false)] : List (Instr × Instr × Nat × Bool)) →
      k = bits h.xcfg 22 16 + 1 → g = listRegs k → selectOk h = true → a.toNat < 112 ∨ a.toNat = 127 →
      readV (curLocal s) a g = some o →
      let F := if h.kord = 3 then bf16 else if w = 32 then f32 else f16
      let val (e : Cand) := decodeF F e.1
      let skip (e : Cand) : Bool := decide (2 ≤ h.kord) && (val e).isNan
      let below (e f : Cand) : Prop :=
        if h.kord = 0 then e.1 < f.1 else if h.kord = 1 then toSigned w e.1 < toSigned w f.1
        else (∃ u v : ℝ, (val e).Is u ∧ (val f).Is v ∧ u < v) ∨ (val e = .inf true ∧ val f ≠ .inf true) ∨
          (val f = .inf false ∧ val e ≠ .inf false)
      (∀ e f : Cand, skip e = false → skip f = false → (better h.kord w big e f = true ↔
        (if big = true then below f e else below e f) ∨ (¬ below e f ∧ ¬ below f e ∧ e.2 < f.2))) ∧
      let S (cs : List Cand) (u : Host.Outcome State Fault Refusal) := ∃ V L, VectorWritten s a g V 0 0 u ∧
        L = selectBest h big cs ∧
        (∀ n, n < 16 * g → elem V n 64 = if h.vl = 0 ∨ k ≤ n then elem o n 64 else
          match L[n]? with | some e => e.2 * 2 ^ 32 + e.1 | none => 0xFFFFFFFF00000000) ∧
        (h.kord < 2 → L.Pairwise (fun e f => better h.kord w big e f = true) ∧ (∀ e ∈ L, e ∈ cs) ∧
          ∀ e ∈ cs, e ∈ L ∨ (L.length = k ∧ ∀ f ∈ L, better h.kord w big f e = true)) ∧
        L.Pairwise (fun e f => better h.kord w big f e = false) ∧ (∀ e ∈ L, e ∈ cs ∧ skip e = false) ∧
        ∀ e ∈ cs, skip e = true ∨ e ∈ L ∨ (L.length = k ∧ ∀ f ∈ L, better h.kord w big e f = false)
      (SlotRuns s 0x51 fn → overlaps a g b h.grp = false → h.maskFits = true → readS h c = some y →
        readV (curLocal s) b h.grp = some p → bits y 62 16 = 0 → bits y 15 0 + h.len ≤ 65536 →
        S ((if y.getLsbD 63 then [] else listEntries o k w)
          ++ ((List.range h.len).filter h.selBit).map (fun n => (elem p n w, bits y 15 0 + n))) (exec i s)) ∧
      (SlotRuns s 0x51 (fn + 2) → overlapOk true a g b g = true → overlapOk true a g c g = true →
        readV (curLocal s) b g = some p → readV (curLocal s) c g = some q →
        S (listEntries p k w ++ listEntries q k w) (exec j s)))

/-- R207: `xdtab` loads entries 0 to c - 1 and zeroes the rest, or with c = 0 clears the table. R208, R209: `xdec` whose
stream bytes are readable writes the symbols it decodes, the rest as tail, and the result word of status, count and position
to sc; a symbol is found by looking the next bits of the stream up in the table, the root first and then up to four sub-tables
that links name, and its value is the entry's plus the raw bits behind the code; the stream's bits are those of the bytes at sb,
the least significant first; an end entry stops with status 1 after its code, and every entry that R208 calls bad with status 2
before the symbol. R211, R212: `xquant` and `xdequant` read the scale, convert every active element, count in LCNT, and `xquant` folds the largest
magnitude into the maximum; with no such element it writes no byte of memory. R211: the quotient of an element and the scale is
exact, rounded once to the nearest integer, ties to even, clamped to the width with its saturation bit and SA, NX where it is
inexact (that a quotient which rounds to 0 raises no UF is the model's reading: log 71), DZ and the largest magnitude for a
division by zero, and 0 with NV and SA for a NaN, 0 / 0 and infinities. -/
def Obligations.DecodeAndQuantise : Prop :=
  (∀ (s u : State) (a b c : BitVec 7) (e : Word) (x y : DWord) (p n l : Nat) (as : List Acc),
    (SlotRuns s 0x4E 0 → readS (cur s) b = some x → readS (cur s) c = some y → y.toNat = n → n ≤ 512 →
      (n = 0 → exec (.xdtab b c) s = .next (completed s (withCur s { cur s with dtab := [] }))) ∧
      (0 < n → (cur s).lcnt < 63 → startElem (cur s) = 0 →
        checkAccs s s.cur .load 64 .scalar [] (pieces64 (cur s) x.toNat ((4 * n + 63) / 64)) = .all as u →
        refusals u s.cur .load as = [] →
        ∃ w m, exec (.xdtab b c) s = .next (completed s w) ∧ w.mem = s.mem ∧
          Issued s.cur (setHart u s.cur { getHart u s.cur with dtab := m }) w 1 [] ∧
          ∀ i, i < 512 → (n ≤ i → SMap.get 0 m i = 0) ∧ (i < n → ∃ acc ∈ as, acc.idx = i / 16 ∧
            acc.va = x + BitVec.ofNat 64 (64 * acc.idx) ∧
            (SMap.get 0 m i).toNat = elem (viewPieces u s.cur acc.va acc.pieces) (i % 16) 32))) ∧
    (∀ (vals : List Nat) (st q old : Nat), SlotRuns s 0x4E 1 → 8 ≤ (cur s).sew → (cur s).sew ≤ 32 →
      (cur s).curConv.resumed = false → readS (cur s) b = some x → readS (cur s) c = some y → sDest c = true →
      a.toNat < 112 ∨ a.toNat = 127 → readV (curLocal s) a (cur s).grp = some old →
      decodeStream s.cur x.toNat ((bits (cur s).xcfg 3 0) + 1) (cur s).len (y.toNat % 2 ^ 48) [] s = .fin vals st q u →
      ∃ z V, writeV (getLocal u s.cur) a (cur s).grp V = some z ∧ u.mem = s.mem ∧
        exec (.xdec a b c) s = .next (completed s (setLocal u s.cur { z with
          h := z.h.result c (BitVec.ofNat 64 (st * 2 ^ 62 + vals.length % 2 ^ 14 * 2 ^ 48 + q)) })) ∧
        ∀ i, i < 1024 * (cur s).grp / (cur s).sew → elem V i (cur s).sew =
          if (cur s).vl = 0 then elem old i (cur s).sew
          else if i < vals.length then vals.getD i 0 % 2 ^ (cur s).sew
          else if (cur s).tailz then 0 else elem old i (cur s).sew) ∧
    (readS (cur s) c = some x → (cur s).lcnt < 63 → bits e 31 16 = 0 → bits e 11 3 = 0 → bits e 2 0 ≠ 7 →
      elemCheck s (agentOf s s.cur) .load x 8 8 .scalar = .ok [(l, 8)] u →
      accRefusal u s.cur .load ⟨0, x, 8, [(l, 8)]⟩ = none →
      let sc := viewPieces u s.cur x [(l, 8)] % 2 ^ 32
      let mags := (((List.range (cur s).len).filter (cur s).selBit).map (fun i => elem p i 32 % 2 ^ 31)).filter
        (fun m => decide (m ≤ 0x7F800000))
      (∀ wd, SlotRuns s 0x4F 0 → (bits e 15 12, wd) ∈ [(0, 4), (1, 8), (2, 16)] → (cur s).sew = 32 → DestReady s a b wd →
        readV (curLocal s) b (cur s).grp = some p → mags = [] →
        ∃ y w, vApply (getLocal u s.cur) a wd (fun i => quantElem wd (elem p i 32) sc) = some y ∧
          exec (.xquant a b c e) s = .next (completed s w) ∧ w.mem = s.mem ∧ Issued s.cur (setLocal u s.cur y) w 1 []) ∧
      (∀ wd v, SlotRuns s 0x4F 0 → (bits e 15 12, wd) ∈ [(0, 4), (1, 8), (2, 16)] → (cur s).sew = 32 → DestReady s a b wd →
        readV (curLocal s) b (cur s).grp = some p → mags ≠ [] →
        elemCheck u (agentOf u s.cur) .atomic x 8 8 .scalar = .ok [(l, 8)] v → accRefusal v s.cur .load ⟨0, x, 8, [(l, 8)]⟩ = none →
        viewPieces v s.cur x [(l, 8)] % 2 ^ 32 = sc →
        ∃ y, vApply (getLocal v s.cur) a wd (fun i => quantElem wd (elem p i 32) sc) = some y ∧
          ∀ o, atomicStep 6 (setLocal v s.cur y) s.cur ⟨0, x + 4, 4, [(l + 4, 4)]⟩ (mags.foldl max 0) 0 = some o →
            ∃ w, exec (.xquant a b c e) s = .next (completed s w) ∧ w.mem = o.1.mem ∧ IssuedWith s.cur o.1 w 1 []
              (refusals (setLocal v s.cur y) s.cur .atomic [⟨0, x + 4, 4, [(l + 4, 4)]⟩])) ∧
      (∀ m, SlotRuns s 0x4F 1 → (bits e 15 12, m) ∈ [(1, f32), (2, f16), (3, bf16)] → (cur s).sew ≤ 16 →
        DestReady s a b m.width → readV (curLocal s) b (cur s).grp = some p →
        ∃ y w, vApply (getLocal u s.cur) a m.width (fun i =>
            let z := toSigned (cur s).sew (elem p i (cur s).sew)
            sumF m [mulTerm (.fin (decide (z < 0)) z.natAbs 0) (decodeF f32 sc)]) = some y ∧
          exec (.xdequant a b c e) s = .next (completed s w) ∧ w.mem = s.mem ∧ Issued s.cur (setLocal u s.cur y) w 1 []))) ∧
  (∀ (s : State) (hk sb k N : Nat) (P : State → Prop) (Y : Nat → Nat) (B : Nat → Nat → Nat), N ≤ 2 ^ 45 →
    let T (i : Nat) := SMap.get 0 (getHart s hk).dtab i
    let In (q n : Nat) : Prop := q % 2 ^ 48 + n ≤ 8 * N
    P s → (∀ v, P v → (getHart v hk).dtab = (getHart s hk).dtab ∧ ((getHart v hk).ie = false ∨ (getHart v hk).async = [])) →
    (∀ v j, P v → j < N → ∃ ps w, elemCheck v (agentOf v hk) .load (BitVec.ofNat 64 (sb + j)) 1 1 .gather = .ok ps w ∧
      accRefusal w hk .load ⟨0, BitVec.ofNat 64 (sb + j), 1, ps⟩ = none ∧
      viewPieces w hk (BitVec.ofNat 64 (sb + j)) ps = Y j ∧ Y j < 256 ∧
      P (touchDirect w hk 0 false false [⟨0, BitVec.ofNat 64 (sb + j), 1, ps⟩])) →
    (∀ q n i, (B q n).testBit i = (decide (i < n) && (Y ((q % 2 ^ 48 + i) / 8)).testBit ((q % 2 ^ 48 + i) % 8))) →
    (∀ (m p : Nat) (b w q : Nat → Nat), m ≤ 4 → b 0 = 0 → w 0 = k → q 0 = p →
      let e (i : Nat) := T (b i + B (q i) (w i))
      let kind (i : Nat) := bits (e i) 31 30
      let len (i : Nat) := bits (e i) 29 25
      let ext (i : Nat) := bits (e i) 24 21
      (∀ i, i < m → In (q i) (w i) ∧ b i + 2 ^ w i ≤ 512 ∧ len i ≤ w i ∧ kind i = 2 ∧ 1 ≤ ext i ∧ ext i ≤ 9 ∧ b (i + 1) = bits (e i) 8 0 ∧
        w (i + 1) = ext i ∧ q (i + 1) = q i + len i) →
      let E (r : State → Symbol) := ∃ v, P v ∧ decodeSymbol hk sb p 6 0 k 0 p s = r v
      (512 < b m + 2 ^ w m → E (.stop 2 p)) ∧
      (b m + 2 ^ w m ≤ 512 → In (q m) (w m) →
        (len m ≤ w m → kind m = 1 → len m ≠ 0 → In (q m + len m) (ext m) →
          E (.sym (bits (e m) 15 0 + B (q m + len m) (ext m)) (q m + len m + ext m))) ∧
        (len m ≤ w m → kind m = 3 → E (.stop 1 (q m + len m))) ∧
        (w m < len m ∨ kind m = 0 ∨ (kind m = 1 ∧ len m = 0) ∨ (kind m = 2 ∧ (ext m < 1 ∨ 9 < ext m ∨ m = 4)) →
          E (.stop 2 p)))) ∧
    (∀ (n i : Nat) (p v : Nat → Nat) (t : Nat → State), t 0 = s → i ≤ n →
      (∀ j, j < i → ∃ c, decodeSymbol hk sb (p j) 6 0 k 0 (p j) (t j) = .sym (v j) c (t (j + 1)) ∧ p (j + 1) = c % 2 ^ 48 ∧
        P (t (j + 1))) →
      let vs := (List.range i).map v
      (i = n → decodeStream hk sb k n (p 0) [] s = .fin vs 0 (p i) (t i)) ∧
      (∀ st c w, i < n → decodeSymbol hk sb (p i) 6 0 k 0 (p i) (t i) = .stop st c w →
        decodeStream hk sb k n (p 0) [] s = .fin vs st (c % 2 ^ 48) w))) ∧
  (∀ wd a c : Nat, wd ∈ [4, 8, 16] →
    let x := decodeF f32 a
    let y := decodeF f32 c
    let hi : Int := 2 ^ (wd - 1) - 1
    let lo : Int := -2 ^ (wd - 1)
    let top (n : Bool) := wrapInt wd (if n then lo else hi)
    (x.isNan ∨ y.isNan ∨ x.isZero ∧ y.isZero ∨ x.isInf ∧ y.isInf → quantElem wd a c = ⟨0, 48, true⟩) ∧
    (∀ u : ℝ, x.Is u → y.isInf → quantElem wd a c = ⟨0, 0, false⟩) ∧
    (∀ n, x = .inf n → y.isNan = false → y.isInf = false → quantElem wd a c = ⟨top (n != y.neg), 32, true⟩) ∧
    (∀ u : ℝ, x.Is u → u ≠ 0 → y.isZero → quantElem wd a c = ⟨top (x.neg != y.neg), 40, true⟩) ∧
    (∀ u v : ℝ, x.Is u → y.Is v → v ≠ 0 → ∃ k, NearestEven |u / v| k ∧
      let z : Int := if (x.neg != y.neg) = true then -(k : Int) else k
      (z < lo ∨ hi < z → quantElem wd a c = ⟨top (x.neg != y.neg), 32, true⟩) ∧
      (lo ≤ z → z ≤ hi → quantElem wd a c = ⟨wrapInt wd z, if (k : ℝ) = |u / v| then 0 else 1, false⟩)))

/-- R220: `tspawn` whose record is read returns 2 for a record that breaks R219 whatever the queue, else 3 for no such queue,
holds the record in an idempotent task, places it in the queue, or at a full queue returns 1 or waits (the order of the
statuses 2, 3 and 1 is log 40). R221, R222: a drained task with nothing open
ends by `tend` with its completion word, `tabort` ends it committing nothing, and with no word of its own asked for memory is
as before, since an aborted child writes no completion word (log 41); the hart is idle. R223, R230, R234:
`tstat`, `tkget` and `cancel` complete with the statistic, the next ticket or all ones, and a token for every die. -/
def Obligations.TaskInstructions : Prop :=
  ∀ (s u : State) (a b c : BitVec 7) (x y : DWord) (k : Task) (v : Nat),
    (cur s).task = some k → readS (cur s) b = some x →
    let dev := devOfHart s.cur
    let ctx := (cur s).ctxid.toNat
    let G (t : State) (r : DWord) := completed s (modHart t s.cur (fun h => h.result a r))
    (SlotRuns s 0x54 0 → readS (cur s) c = some y → bits y 63 12 = 0 → sDest a = true →
      (cur s).idem = true ∨ (cur s).scnt = 0 → fetchElem s s.cur x 128 8 .scalar = .ok v u →
      let ws := toWords v 16
      let qk := dev * 4096 + y.toNat
      (recordOk ws = false → exec (.tspawn a b c) s = .next (G u 2)) ∧
      (recordOk ws = true → queueFor u dev ctx y.toNat = none → exec (.tspawn a b c) s = .next (G u 3)) ∧
      (∀ q, recordOk ws = true → queueFor u dev ctx y.toNat = some q →
        ((cur s).idem = true → exec (.tspawn a b c) s = .next (G (modTask u s.cur (fun t =>
          { t with buf := t.buf ++ [.spawn y.toNat ws 0] })) 0)) ∧
        ((cur s).idem = false → q.count < q.cap → q.stalled = [] →
          ∃ w e r, exec (.tspawn a b c) s = .next (G w 0) ∧ w.mem = u.mem ∧ SMap.find w.queues qk = some r ∧
            r.entries = insertEntry q.ordd e q.entries ∧ e.seq = q.seq + 1 ∧ r.seq = q.seq + 1 ∧ e.words = ws ∧
            e.launch = k.launch ∧ e.ginst = bits (recW ws 3) 31 0 ∧ e.depth = 0 ∧ e.ctx = ctx) ∧
        ((cur s).idem = false → q.cap ≤ q.count → q.returnsStatus = true → exec (.tspawn a b c) s = .next (G u 1)) ∧
        ((cur s).idem = false → q.cap ≤ q.count → q.returnsStatus = false →
          exec (.tspawn a b c) s = .next (waiting s (.queue qk) (joinStalled u qk q s.cur))))) ∧
    (SlotRuns s 0x54 1 → validHart s.cur = true → drained s s.cur = true → k.sect = none → (cur s).inRope = false →
      k.children = [] → (cur s).lost = false → sending s k.uid = false → ∃ t, exec (.tend b) s = .next t ∧ (getHart t s.cur).st = .idle ∧ (getHart t s.cur).task = none ∧
        let word := BitVec.ofNat 64 (2 ^ 63 + x.toNat % 2 ^ 32 * 2 ^ 16 + (cur s).sticky.toNat)
        (k.idem = false → t = closeTask (leaveDone (idleHart s s.cur) s.cur) (dieOf (coreOf s.cur)) ctx k word true) ∧
        (k.idem = true → ∃ d, SMap.find t.commits k.uid = some d ∧ d.task = k ∧ d.word = word ∧ t.mem = s.mem ∧
          (commitReady s k = true → d.released = true ∧ Instr.commitPerformed k.uid ∈ t.pending))) ∧
    (SlotRuns s 0x54 2 → validHart s.cur = true → drained s s.cur = true → (cur s).lost = false →
      ∃ t, exec (.tabort b) s = .next t ∧ (getHart t s.cur).st = .idle ∧ (getHart t s.cur).task = none ∧
        (recCpl k.words = false → t.mem = s.mem)) ∧
    (SlotRuns s 0x54 3 → sDest a = true →
      (x = 0 → exec (.tstat a b) s = .next (G s (BitVec.ofNat 64 k.children.length))) ∧
      (x = 1 → exec (.tstat a b) s = .next (G s (BitVec.ofNat 64 (taskSectors s k.dev k.uid)))) ∧
      (x = 2 → exec (.tstat a b) s = .next (G s (BitVec.ofNat 64 (taskSpilled s k.dev k.uid)))) ∧
      taskSpilled s k.dev k.uid ≤ taskSectors s k.dev k.uid ∧
      (x = 3 → exec (.tstat a b) s = .next (G s (BitVec.ofNat 64 k.ginst))) ∧
      (3 < x.toNat → exec (.tstat a b) s = .next (operandTrap s))) ∧
    (SlotRuns s 0x57 3 → sDest a = true → bits x 63 16 = 0 →
      (∀ d, SMap.find s.domains (dev * 65536 + x.toNat) = some d → d.v = true → d.ctx = ctx →
        exec (.tkget a b) s = .next (G { s with
          domains := SMap.put s.domains (dev * 65536 + x.toNat) { d with next := d.next + 1 } } (BitVec.ofNat 64 d.next))) ∧
      ((∀ d, SMap.find s.domains (dev * 65536 + x.toNat) = some d → d.v = false ∨ d.ctx ≠ ctx) →
        exec (.tkget a b) s = .next (G s (BitVec.allOnes 64)))) ∧
    (SlotRuns s 0x56 0 → (bits x 63 32 ≠ 0 → exec (.cancelInst b) s = .next (operandTrap s)) ∧
      (bits x 63 32 = 0 → (cur s).scnt < 63 → ∃ t id z, exec (.cancelInst b) s = .next (completed s t) ∧ t.mem = s.mem ∧
        SMap.find t.tokens id = some z ∧ z.ginst = x.toNat ∧ z.ctx = ctx ∧ z.dev = dev ∧ z.dies = diesOfDev dev ∧
        Instr.cancelToken id ∈ t.pending ∧ (getHart t s.cur).scnt = (cur s).scnt + 1))

/-- R225, R226: `fork` whose record and regions are read and fit starts a child with the lowest free handle and a revision
over them. R227, R228: each merge code gives the element of its row, codes 3 to 5 of the float types by R111, R112 and R114
with their flags; `join` of an ended child returns its completion word and frees it once every merged element has performed,
and waits till then with the copies gone; both wait for a child still running. The model's own reading (log 41): `joinall`
waits for every child before it merges the first and counts those it joined before a wait in the number it writes, and a
merged element that the parent may not write (R310) raises PAGE-FAULT at element 0 with nothing written. R232, R233: `bst` records its blend stores
in order and writes nothing; `ordb` opens a free section, waits for lower tickets; `orde` publishes its stores and closes
it once they have performed. -/
def Obligations.ForksAndSections : Prop :=
  (∀ (ty code w : Nat) (p c a : BitVec w),
    (ty, w) ∈ [(0, 8), (1, 16), (2, 32), (3, 64), (4, 16), (5, 32), (6, 64)] → ty < 4 ∨ code < 3 ∨ 5 < code →
    (mergeElem ty code p.toNat c.toNat a.toNat).1 = (match code with
      | 0 => p | 1 => if c ≠ a then c else p | 2 => if c ≠ a ∧ p = a then c else p | 3 => p + (c - a)
      | 4 => if p.slt c then c else p
      | 5 => if c.slt p then c else p
      | 6 => (p ||| (c &&& ~~~a)) &&& ~~~(a &&& ~~~c) | _ => p ^^^ c ^^^ a).toNat ∧
    (ty < 4 → (mergeElem ty code p.toNat c.toNat a.toNat).2 = 0)) ∧
  (∀ (ty : Nat) (f : Fmt) (p c a : Nat), (ty, f) ∈ [(4, f16), (5, f32), (6, f64)] →
    (c = a → mergeElem ty 3 p c a = (p, 0)) ∧
    (c ≠ a → mergeElem ty 3 p c a =
      ((addF f p (subF f c a).bits).bits, (subF f c a).fl ||| (addF f p (subF f c a).bits).fl)) ∧
    mergeElem ty 4 p c a = ((minMaxF false f p c).bits, (minMaxF false f p c).fl) ∧
    mergeElem ty 5 p c a = ((minMaxF true f p c).bits, (minMaxF true f p c).fl)) ∧
  ∀ (s : State) (a b c : BitVec 7) (x y : DWord) (k : Task) (v : Nat), (cur s).task = some k →
    let dev := devOfHart s.cur
    let ctx := (cur s).ctxid.toNat
    let G (t : State) (r : DWord) := completed s (modHart t s.cur (fun h => h.result a r))
    (∀ (st : Nat → State) (vs : Nat → Nat) (rs : List Region) (hd : Nat) (q : Queue),
      SlotRuns s 0x55 0 → readS (cur s) b = some x → readS (cur s) c = some y → sDest a = true → (cur s).scnt = 0 →
      fetchElem s s.cur x 128 8 .scalar = .ok v (st 0) →
      let ws := toWords v 16
      let n := recNreg ws
      (∀ i, i < n → fetchElem (st i) s.cur (y + BitVec.ofNat 64 (16 * i)) 16 1 .scalar = .ok (vs i) (st (i + 1))) →
      recordForkOk ws = true → recTkv ws = false → (cur s).idem = false ∨ recIdem ws = true →
      ((List.range n).map vs).mapM regionOf = some rs → disjoint rs = true → regionsFit rs k.children = true →
      hd < 16 → (∀ d ∈ k.children, d.handle ≠ hd) → (∀ i, i < hd → ∃ d ∈ k.children, d.handle = i) → queueFor (st n) dev ctx (recQueue ws) = some q → q.count < q.cap → q.stalled = [] →
      ∃ w e g r, exec (.forkTask a b c) s = .next (G w (BitVec.ofNat 64 hd)) ∧ w.mem = (st n).mem ∧
        (getHart w s.cur).task = some { k with children := k.children ++ [⟨hd, e.uid, rs, none⟩] } ∧
        SMap.find w.queues (dev * 4096 + recQueue ws) = some r ∧ r.entries = insertEntry q.ordd e q.entries ∧ e.words = ws ∧
        e.parent = some (k.uid, hd) ∧ e.ginst = k.ginst ∧ e.ctx = ctx ∧ SMap.find w.revs e.uid = some g ∧
        g.regions = rs ∧ g.parent = k.uid ∧ g.cairns = [] ∧ g.copies = []) ∧
    (∀ (d : Child), SlotRuns s 0x55 1 → readS (cur s) b = some x → sDest a = true →
      k.children.find? (fun d => d.handle == x.toNat) = some d →
      (d.result = none → exec (.joinChild a b) s = .next (waiting s (.notReady true) s)) ∧
      (∀ w i va, d.result = some w → bits w 62 61 = 0 → mergeChild s s.cur d.uid = .fault i va →
        exec (.joinChild a b) s = .next (trapped s cPAGEFAULT i va 0 0 s)) ∧
      (∀ w t j, d.result = some w → (if bits w 62 61 = 0 then mergeChild s s.cur d.uid else .ok s) = .ok t →
        (getHart t s.cur).task = some j →
        (sending t j.uid = false → exec (.joinChild a b) s = .next (G (modTask { t with revs := SMap.del t.revs d.uid } s.cur
          (fun k => { k with children := k.children.filter (fun e => e.uid != d.uid) })) w)) ∧
        (sending t j.uid = true → ∃ z, exec (.joinChild a b) s = .next (waiting s (.notReady false) z) ∧
          z.mem = t.mem ∧ z.revs = SMap.del t.revs d.uid ∧ z.ops = t.ops ∧ (getHart z s.cur).task = some j))) ∧
    (SlotRuns s 0x55 2 → sDest a = true →
      ((∃ d ∈ k.children, d.result = none) → exec (.joinall a) s = .next (waiting s (.notReady true) s)) ∧
      (∀ st : Nat → State, (∀ d ∈ k.children, d.result ≠ none) → st 0 = s →
        (∀ i d, k.children[i]? = some d → joinOne (st i) s.cur d (d.result.getD 0) = .ok (st (i + 1))) →
        exec (.joinall a) s = .next (G (st k.children.length)
          (BitVec.ofNat 64 ((cur s).curConv.elem + k.children.length))))) ∧
    (∀ (e : Word) (src idx : Nat) (as : List Acc) (u : State), SlotRuns s 0x57 0 → readS (cur s) b = some x →
      readV (curLocal s) a (cur s).grp = some src → readV (curLocal s) c (cur s).grp = some idx → bits e 31 3 = 0 →
      bits e 2 0 ≤ 4 → (cur s).sew = 32 → overlaps a (cur s).grp c (cur s).grp = false → (cur s).maskFits = true →
      (cur s).scnt < 63 →
      checkAccs s s.cur .store 4 .gather [] (elemAccs (cur s) 4 (fun i => addOfs x.toNat (elem idx i 32 : Nat))) = .all as u →
      refusals u s.cur .store as = [] →
      ∃ t z, exec (.bst a b c e) s = .next (completed s z) ∧ z.mem = s.mem ∧ Issued s.cur t z 2 [] ∧
        (getHart t s.cur).task = some { k with
          buf := k.buf ++ as.map (fun g => .blend g.key (elem src g.idx 32) (bits e 2 0) k.sect []) }) ∧
    (SlotRuns s 0x57 1 → readS (cur s) b = some x → (cur s).grant = none →
      (k.sect ≠ none ∨ k.closed.contains (bits x 31 0) = true → exec (.ordb b) s = .next (operandTrap s)) ∧
      (k.sect = none → k.closed.contains (bits x 31 0) = false →
        (sectionFree s k (bits x 31 0) = false → exec (.ordb b) s = .next (waiting s (.notReady true) s)) ∧
        (sectionFree s k (bits x 31 0) = true → ∃ h, exec (.ordb b) s = .next (completed s (withCur s h)) ∧
          h = { cur s with hstat := h.hstat, secCount := 0, secOver := false, task := some { k with sect := some (bits x 31 0), ordOnce := true } } ∧
          ∀ i, i < 64 → h.hstat.getLsbD i = if i = 10 then true else (cur s).hstat.getLsbD i))) ∧
    (SlotRuns s 0x57 2 → (k.sect = none → exec .orde s = .next (operandTrap s)) ∧
      (∀ key, k.sect = some key → partialPoison s k.uid ((publishedStores s dev ctx key k [] k.buf).flatMap
          (fun o => resolveBytes s dev ctx o.2.2)) = false →
        let p := publishSection s s.cur
        (sending p k.uid = true → exec .orde s = .next (waiting s (.notReady false) p)) ∧
        (sending p k.uid = false →
          ∃ t j, exec .orde s = .next (completed s t) ∧ (getHart t s.cur).task = some j ∧ j.sect = none ∧
            j.closed = k.closed ++ [key] ∧ j.buf = (unpublished key k.buf).1 ∧
            (getHart t s.cur).hstat.getLsbD 10 = false ∧
            ((publishedStores s dev ctx key k [] k.buf) = [] → t.mem = s.mem))))

/-- R235: `rope` of a size not 1 to 3 is refused, one in a rope or in a firmware column returns all ones, and otherwise
waits until every member has come, when each gets its index, RSTAT and the leader's RBAR (the model's choice, log 11) and the
followers stop fetching;
the leader's `unrope` disbands the rope. R236: `rbar` adds its operand to RBAR, in a rope once every member has come with
its stores performed. R240: `twait` and `twaitd` complete at their time and wait before it; only `twaitd`
has the limit 2^48 (log 38). R228, R233, R234: a child's end
makes its parent's join due, a free section opens, and a section past ORDTMO cancels its graph instance. -/
def Obligations.RopesAndWaits : Prop :=
  ∀ (s : State) (a b : BitVec 7) (x : DWord) (hk uid : Nat),
    let G (t : State) (r : DWord) := completed s (modHart t s.cur (fun h => h.result a r))
    let bad (i : Instr) := exec i s = .next (operandTrap s)
    (SlotRuns s 0x58 0 → readS (cur s) b = some x → sDest a = true →
      let ms := ropeMembers s.cur x.toNat
      (x.toNat = 0 ∨ 3 < x.toNat → bad (.rope a b)) ∧
      (0 < x.toNat → x.toNat ≤ 3 →
        (∀ k, (cur s).grant = some k → exec (.rope a b) s = .next (G s k)) ∧
        ((cur s).grant = none →
          ((cur s).inRope = true ∨ (∃ m ∈ ms, isFwCol s (coreOf m) = true) → exec (.rope a b) s = .next (G s (BitVec.allOnes 64))) ∧
          ((cur s).inRope = false → (∀ m ∈ ms, isFwCol s (coreOf m) = false) →
            ∃ t, exec (.rope a b) s = .next (waiting s (.notReady true) t) ∧
              ((∃ m ∈ ms, m ≠ s.cur ∧ hasArrived s x.toNat (cur s).ctxid.toNat m = false) → t = s) ∧
              ((∀ m ∈ ms, m ≠ s.cur → hasArrived s x.toNat (cur s).ctxid.toNat m = true) →
                Instr.ropeForm s.cur ∈ t.pending ∧ t = { s with pending := t.pending }))))) ∧
    (SlotRuns s 0x58 1 → ∃ t, exec .unrope s = .next (completed s t) ∧ t.mem = s.mem ∧
      ((cur s).inRope = false ∨ ropeLeader s s.cur ≠ s.cur → t = s) ∧
      ((cur s).inRope = true → ropeLeader s s.cur = s.cur → (∀ m ∈ ropeOf s s.cur, (getHart t m).rstat = 0 ∧
          (getHart t m).st = (if (getHart s m).st = .follower then .running else (getHart s m).st)) ∧
        ∀ m, m ∉ ropeOf s s.cur → getHart t m = getHart s m)) ∧
    (SlotRuns s 0x58 2 → readS (cur s) b = some x → sDest a = true →
      (∀ w, (cur s).grant = some w → exec (.rbar a b) s = .next (G s w)) ∧
      ((cur s).grant = none →
        ((cur s).scnt ≠ 0 → exec (.rbar a b) s = .next (waiting s (.notReady true) s)) ∧
        ((cur s).scnt = 0 → (cur s).inRope = false → exec (.rbar a b) s
          = .next (G (modHart s s.cur (fun h => { h with rbar := h.rbar + x })) ((cur s).rbar + x))) ∧
        ((cur s).scnt = 0 → (cur s).inRope = true → ∃ t, exec (.rbar a b) s = .next (waiting s (.notReady true) t) ∧
          ((∀ m ∈ ropeOf s s.cur, m ≠ s.cur → atRbar s m = true) → Instr.rbarRelease s.cur ∈ t.pending) ∧
          t = { s with pending := t.pending }))) ∧
    (SlotRuns s 0x5A 0 → readS (cur s) b = some x → exec (.twait b) s = .next
      (if x.toNat ≤ (tbOf s s.cur).toNat then completed s s else waiting s (.time x.toNat false) s)) ∧
    (SlotRuns s 0x5A 1 → readS (cur s) b = some x →
      (∀ t, (cur s).wait = .time t true → exec (.twaitd b) s = .next
        (if t ≤ (tbOf s s.cur).toNat then completed s s else waiting s (.time t true) s)) ∧
      ((cur s).wait = .none →
        (2 ^ 48 ≤ x.toNat → bad (.twaitd b)) ∧
        (x = 0 → (cur s).curConv.resumed = false → exec (.twaitd b) s = .next (completed s s)) ∧
        (0 < x.toNat → x.toNat < 2 ^ 48 → (cur s).curConv.resumed = false →
          exec (.twaitd b) s = .next (waiting s (.time ((tbOf s s.cur).toNat + x.toNat) true) s)) ∧
        (x.toNat < 2 ^ 48 → (cur s).curConv.resumed = true → 0 < (cur s).curConv.bitpos → exec (.twaitd b) s
          = .next (waiting s (.time ((tbOf s s.cur).toNat + (cur s).curConv.bitpos) true) s)))) ∧
    (∃ t, exec (.ropeForm hk) s = .next t ∧ t.mem = s.mem ∧ ∀ code, 0 < code → code ≤ 3 →
      (getHart s hk).ropeAsked = some code → (getHart s hk).inRope = false →
      let ms := ropeMembers hk code
      let org := ropeOrigin (unitOf (coreOf hk)) code
      ((∃ m ∈ ms, hasArrived s code (getHart s hk).ctxid.toNat m = false) → t = s) ∧
      ((∀ m ∈ ms, hasArrived s code (getHart s hk).ctxid.toNat m = true) → ∀ k m, ms[k]? = some m →
        getHart t m = { getHart s m with
          rstat := BitVec.ofNat 64 (1 + code * 2 + k * 8 + org.2 * 64 + org.1 * 256), rbar := (getHart s (ms.headD hk)).rbar,
          grant := some (BitVec.ofNat 64 k), st := if k = 0 then (getHart s m).st else .follower })) ∧
    (∃ t, exec (.rbarRelease hk) s = .next t ∧ t.mem = s.mem ∧
      let ms := ropeOf s hk
      ((∃ m ∈ ms, atRbar s m = false) → t = s) ∧
      ((∀ m ∈ ms, atRbar s m = true) →
        let total := (ms.map (fun m => (readS (getHart s m) (fieldB (getHart s m).slotWord)).getD 0)).foldl (· + ·)
          (getHart s (ms.headD hk)).rbar
        ∀ m ∈ ms, (getHart t m).rbar = total ∧ (getHart t m).grant = some total)) ∧
    (∃ t, exec (.twaitExpiry hk) s = .next t ∧ ∀ e rel, (getHart s hk).wait = .time e rel →
      (e ≤ (tbOf s hk).toNat → (getHart s hk).st = .parked → t = modHart s hk (fun h => { h with st := h.awake })) ∧
      ((tbOf s hk).toNat < e → t = s)) ∧
    (∃ t, exec (.childEnded uid) s = .next t ∧
      let has (h : Hart) : Prop := ∃ k d, h.task = some k ∧ d ∈ k.children ∧ d.uid = uid ∧ d.result ≠ none
      ((∀ p ∈ s.harts, ¬ has p.2) → t = s) ∧
      (∀ h w, (hk, h) ∈ s.harts → has h → (∀ p ∈ s.harts, has p.2 → p = (hk, h)) → h.wait = .notReady w →
        Instr.convoyIssue hk ∈ t.pending ∧ t = { s with pending := t.pending })) ∧
    (∃ t, exec (.ordbRelease hk) s = .next t ∧ ∀ k, (getHart s hk).task = some k → (getHart s hk).waitsIn 0x57 1 = true →
      (getHart s hk).grant = none → readS (getHart s hk) (fieldB (getHart s hk).slotWord) = some x →
      (sectionFree s k (bits x 31 0) = false → t = s) ∧
      (sectionFree s k (bits x 31 0) = true → (getHart t hk).grant = some 0 ∧ (getHart t hk).hstat.getLsbD 10 = true ∧
        (getHart t hk).task = some { k with sect := some (bits x 31 0), ordOnce := true } ∧ t.mem = s.mem)) ∧
    (∃ t, exec (.ordtmoExpiry hk) s = .next t ∧ ∀ k, (getHart s hk).task = some k →
      (k.sect = none ∨ (getHart s hk).ordtmo = 0 ∨ (getHart s hk).secCount ≤ (getHart s hk).ordtmo.toNat ∨
        (getHart s hk).secOver = true → t = s) ∧
      (k.sect ≠ none → (getHart s hk).ordtmo ≠ 0 → (getHart s hk).ordtmo.toNat < (getHart s hk).secCount →
        (getHart s hk).secOver = false →
        ∃ id z, SMap.find t.tokens id = some z ∧ z.ginst = k.ginst ∧ z.ctx = (getHart s hk).ctxid.toNat ∧
          z.dies = diesOfDev k.dev ∧ Instr.cancelToken id ∈ t.pending ∧ t.mem = s.mem ∧
          t.harts = (modHart s hk (fun h => { h with secOver := true })).harts))

/-- R237: `msend` and `vmsend` send their bytes to the hart and queue a destination word names, and complete once the
message has entered; a refusal raises REMOTE-NACK with FAULT 6, or 4 from the firewall, and FADDR 0 (the model's choice, log 28). A message is
refused by an idle receiver or one of another context, enters a queue with room, or the spill list of that queue (each queue
has one of its own: log 43), and parks its sender at a full one; it arrives behind those sent before it between the same two
tiles (R387). R238: `mrecv` and
`vmrecv`, which pushes its register alone (log 43), take the oldest message or wait, `mpoll` counts. R239: `vredq` and `vredqf` add as many messages as asked to the
active elements of their accumulator, and wait where the queue runs empty. -/
def Obligations.Channels : Prop :=
  ∀ (s : State) (a b c : BitVec 7) (x y : DWord) (m hk : Nat),
    let bad (i : Instr) := exec i s = .next (operandTrap s)
    let Sends (i : Instr) (d : DWord) (msg : Msg) : Prop :=
      (destination d = none → bad i) ∧
      ∀ dst q, destination d = some (dst, q) →
        ((cur s).grant = some 0 → exec i s = .next (completed s s)) ∧
        ((cur s).grant = some 1 → exec i s = .next (trapped s cREMOTENACK 6 0 0 0 s)) ∧
        ((cur s).grant = some 2 → exec i s = .next (trapped s cREMOTENACK 4 0 0 0 s)) ∧
        ((cur s).grant = none → (∀ p ∈ s.flights, p.2.src ≠ s.cur) →
          exec i s = .next (waiting s (.notReady false) (post { s with
            flights := SMap.put s.flights s.nextId ⟨s.cur, dst, q, msg⟩, nextId := s.nextId + 1 } (.messageArrival s.nextId))))
    let Taken (q : Nat) (ms : List Msg) (t : State) : Prop :=
      t = { s with harts := t.harts, pending := t.pending, clusters := t.clusters } ∧
      ∃ rest, getHart t s.cur = { cur s with rq := SMap.set [] (cur s).rq q rest, spill := (getHart t s.cur).spill } ∧
        rest = ms ++ (SMap.get [] (cur s).spill q).take 1 ∧
        SMap.get [] (getHart t s.cur).spill q = (SMap.get [] (cur s).spill q).drop 1
    let Awaits (i : Instr) (q : Nat) : Prop := ∃ t, exec i s = .next (waiting s (.recv q) t) ∧
      t = { s with clusters := t.clusters } ∧ (s.cur, recvKey s.cur q) ∈ (getClus t (clusKey (coreOf s.cur))).belay
    let Folds (i : Instr) (op : Nat → Nat → Res) : Prop :=
      ∀ acc, bits y 63 16 = 0 → (cur s).len * (cur s).sew ≤ 1024 → (cur s).maskFits = true →
        readV (curLocal s) a (cur s).grp = some acc → a.toNat < 112 →
        let q := bits x 1 0
        let ms := SMap.get [] (cur s).rq q
        let fl (v : Nat → Nat) (k : Nat) := BitVec.ofNat 6 (((List.range (cur s).len).filter (cur s).selected).foldl (fun g i =>
          g ||| (op (elem (v k) i (cur s).sew) (elem (valueOf (ms.getD k [])) i (cur s).sew)).fl) 0)
        SMap.get [] (cur s).spill q = [] →
        ((cur s).curConv.elem < y.toNat → ms = [] →
          ∃ t, exec i s = .next (waiting s (.recv q) t) ∧ t.mem = s.mem ∧ (getHart t s.cur).conv = (cur s).conv) ∧
        ((cur s).curConv.elem = 0 → y.toNat ≤ ms.length → ∃ (v w : Nat → Nat) (z : Nat → Local) (t : State),
          exec i s = .next (completed s t) ∧ t.mem = s.mem ∧ z 0 = curLocal s ∧ getLocal t s.cur = z y.toNat ∧
          SMap.get [] (getHart t s.cur).rq q = ms.drop y.toNat ∧
          ∀ k, k < y.toNat → readV (z k) a (cur s).grp = some (v k) ∧
            (∃ u, writeV (z k) a (cur s).grp (w k) = some u ∧ (z (k + 1)).pool = u.pool ∧
              (z (k + 1)).h = { u.h with rq := (z (k + 1)).h.rq, sticky := (z k).h.sticky ||| fl v k }) ∧
            ∀ i, elem (w k) i (cur s).sew = if i < (cur s).len ∧ (cur s).selected i = true
              then (op (elem (v k) i (cur s).sew) (elem (valueOf (ms.getD k [])) i (cur s).sew)).bits % 2 ^ (cur s).sew
              else elem (v k) i (cur s).sew)
    (SlotRuns s 0x59 0 → readS (cur s) b = some x → readS (cur s) c = some y → Sends (.msend b c) y (bytesOf x.toNat 8)) ∧
    (∀ p, SlotRuns s 0x59 1 → readV (curLocal s) b (cur s).grp = some p → readS (cur s) c = some y →
      let n := ((cur s).len * (cur s).sew + 7) / 8
      (128 < n → bad (.vmsend b c)) ∧
      (n ≤ 128 → Sends (.vmsend b c) y (bytesOf (p % 2 ^ ((cur s).len * (cur s).sew)) n))) ∧
    (readS (cur s) b = some x →
      (4 ≤ x.toNat → (SlotRuns s 0x59 2 → bad (.mrecv a b)) ∧ (SlotRuns s 0x59 4 → bad (.mpoll a b)) ∧
        (SlotRuns s 0x59 3 → tscOperand a s s.cur = true → bad (.vmrecv a b c))) ∧
      (x.toNat < 4 →
        let q := SMap.get [] (cur s).rq x.toNat
        (SlotRuns s 0x59 4 → sDest a = true →
          exec (.mpoll a b) s = .next (completed s (scalarResult s a (BitVec.ofNat 64 q.length)))) ∧
        (SlotRuns s 0x59 2 → sDest a = true →
          (q = [] → Awaits (.mrecv a b) x.toNat) ∧
          (∀ e ms, q = e :: ms → ∃ t, Taken x.toNat ms t ∧ exec (.mrecv a b) s
            = .next (completed s (modHart t s.cur (fun h => h.result a (BitVec.ofNat 64 (valueOf (e.take 8)))))))) ∧
        (SlotRuns s 0x59 3 → tscOperand a s s.cur = true → sDest c = true → (∃ z, writeV (curLocal s) a 1 0 = some z) →
          (q = [] → Awaits (.vmrecv a b c) x.toNat) ∧
          (∀ e ms, q = e :: ms → ∃ t z, Taken x.toNat ms t ∧ writeV (getLocal t s.cur) a 1 (valueOf e) = some z ∧
            exec (.vmrecv a b c) s = .next (completed s (setLocal t s.cur { pushV z 1 (valueOf e) with
              h := writeS (pushV z 1 (valueOf e)).h c (BitVec.ofNat 64 e.length) })))))) ∧
    (readS (cur s) b = some x → readS (cur s) c = some y →
      (SlotRuns s 0x59 5 → ((cur s).sew = 4 → bad (.vredq a b c)) ∧
        ((cur s).sew ≠ 4 → Folds (.vredq a b c) (fun p r => ⟨(p + r) % 2 ^ (cur s).sew, 0, false⟩))) ∧
      (SlotRuns s 0x59 6 → ((cur s).sew < 16 → bad (.vredqf a b c)) ∧
        ∀ f, ((cur s).sew, f) ∈ [(16, f16), (32, f32), (64, f64)] → Folds (.vredqf a b c) (addF f))) ∧
    (∃ t, exec (.messageArrival m) s = .next t ∧ t.mem = s.mem ∧ (SMap.find s.flights m = none → t = s) ∧
      let upTo (k : Nat) (f : Flight) := s.flights.filter (fun p =>
        decide (p.1 ≤ k) && coreOf p.2.src == coreOf f.src && coreOf p.2.dst == coreOf f.dst)
      (∀ f k g u, SMap.find s.flights m = some f → upTo m f = [(k, g), (m, f)] → k < m →
        exec (.messageArrival k) s = .next u → SMap.find u.flights k = none →
        exec (.messageArrival m) s = exec (.messageArrival m) u) ∧
      ∀ f, SMap.find s.flights m = some f → upTo m f = [(m, f)] →
        let r := getHart s f.dst
        let Answered (v : DWord) : Prop := (getHart t f.src).grant = some v ∧ SMap.find t.flights m = none
        (channelBlocked s f.src f.dst = true → Answered 2 ∧ (f.dst ≠ f.src → getHart t f.dst = r)) ∧
        (channelBlocked s f.src f.dst = false →
          (r.st = .idle ∨ r.ctxid ≠ (getHart s f.src).ctxid → Answered 1 ∧ (f.dst ≠ f.src → getHart t f.dst = r)) ∧
          (r.st ≠ .idle → r.ctxid = (getHart s f.src).ctxid →
            (receiverFull s f.dst f.q = true → (getHart t f.src).wait = .send f.dst f.q ∧ t.flights = s.flights ∧
              (f.dst ≠ f.src → getHart t f.dst = r)) ∧
            (receiverFull s f.dst f.q = false → Answered 0 ∧
              (r.spills f.q = false → SMap.get [] (getHart t f.dst).rq f.q = SMap.get [] r.rq f.q ++ [f.msg] ∧
                (getHart t f.dst).spill = r.spill) ∧
              (r.spills f.q = true → SMap.get [] (getHart t f.dst).spill f.q = SMap.get [] r.spill f.q ++ [f.msg] ∧
                (getHart t f.dst).rq = r.rq))))) ∧
    (∀ d q, (∀ i j, (getHart s hk).wait ≠ .send i j → exec (.sendRoom hk) s = .next s) ∧
      ((getHart s hk).wait = .send d q → (∀ p ∈ s.flights, p.2.src ≠ hk) → exec (.sendRoom hk) s = .next s) ∧
      ∀ f, (getHart s hk).wait = .send d q → s.flights.find? (fun p => p.2.src == hk) = some (m, f) →
        exec (.sendRoom hk) s = exec (.messageArrival m) s)

/-- R247, R250: with their nodes and records read, `rbox` gives each active element the hit list of its ray, and `rtri` its
candidate and the reference past the triangle. The hit list of a finite ray against a node of finite boxes holds the number of
the children hit and then those children by exact entry distance, the lower number first of equal ones; the candidate of
finite inputs is PRIM with t, u and v rounded once where the exact edge values agree in sign and tmin <= t <= tmax, else a miss
(every component of the ray counts as an input that has to be finite, log 44; a t, u or v of exactly 0 is +0, log 87). R248, R249: `rpush` takes the first hit and pushes
the others, `rpop` refills empty elements and counts the live ones, `rterm` empties a stack. R251: `rhit` keeps the nearer
candidate; a ray with an infinite or NaN component misses every triangle. R252, R253: `rspawn` answers 2, 3, 4, 0 or 1 with
its count, or waits, and in an idempotent task checks the template and the depth alone; `rdepth` returns the spawn depth. A
stack whose DEPTH is 33 to 63 counts as full, and `rspawn` on a hart that runs no task raises ILLEGAL-OPERAND: both are the
model's choice (log 79). -/
def Obligations.RayInstructions : Prop :=
  (∀ (node : Nat) (bs : List Nat) (ray : List Ext), bs.mapM extOf = some ray → hitList node bs % 16
      = ((List.range 8).filter (fun c => takesPart node c && (boxEntry node c bs ray).isSome)).length) ∧
  (∀ (rec : Nat) (bs : List Nat), bs.length = 8 → (∃ x ∈ bs, ∀ n, Machine.extOf x ≠ some (Ext.fin n)) →
    triCandidate rec bs = missCandidate) ∧
  (∀ (node : Nat) (bs : List Nat) (r : Nat → Int) (lo hi : Nat → Nat → Int), bs.length = 8 →
    (∀ j, j < 8 → Machine.extOf (bs.getD j 0) = some (Ext.fin (r j))) →
    (∀ c, c < 8 → takesPart node c = true → ∀ x, x < 3 → childSlab node c x = some (Ext.fin (lo c x), Ext.fin (hi c x))) →
    let near (c x : Nat) : ℚ := min (((lo c x - r x : Int) : ℚ) / r (3 + x)) (((hi c x - r x : Int) : ℚ) / r (3 + x))
    let far (c x : Nat) : ℚ := max (((lo c x - r x : Int) : ℚ) / r (3 + x)) (((hi c x - r x : Int) : ℚ) / r (3 + x))
    let hit (c : Nat) (e : ℚ) : Prop := c < 8 ∧ takesPart node c = true ∧
      (∀ x, x < 3 → r (3 + x) = 0 → lo c x ≤ r x ∧ r x ≤ hi c x) ∧
      IsGreatest ({(r 6 : ℚ) / 2 ^ 149} ∪ {q | ∃ x, x < 3 ∧ r (3 + x) ≠ 0 ∧ q = near c x}) e ∧
      e ≤ (r 7 : ℚ) / 2 ^ 149 ∧ ∀ x, x < 3 → r (3 + x) ≠ 0 → e ≤ far c x
    let n := hitList node bs % 16
    let child (k : Nat) := hitList node bs / 2 ^ (3 * k + 4) % 8
    hitList node bs < 2 ^ (3 * n + 4) ∧ (∀ k, k < n → ∃ e, hit (child k) e) ∧
    (∀ c e, hit c e → ∃ k, k < n ∧ child k = c) ∧
    ∀ j k e f, j < k → k < n → hit (child j) e → hit (child k) f → e < f ∨ (e = f ∧ child j < child k)) ∧
  (∀ (rec : Nat) (bs : List Nat) (o d v0 v1 v2 : Vec) (tmin tmax : Int), bs.length = 8 →
    let g (j : Nat) : Nat := bs.getD j 0
    let vert (k : Nat) := vecOf (part rec (12 * k) 4) (part rec (12 * k + 4) 4) (part rec (12 * k + 8) 4)
    vecOf (g 0) (g 1) (g 2) = some o → vecOf (g 3) (g 4) (g 5) = some d → Machine.extOf (g 6) = some (Ext.fin tmin) →
    Machine.extOf (g 7) = some (Ext.fin tmax) → vert 0 = some v0 → vert 1 = some v1 → vert 2 = some v2 →
    let U := d.dot ((v1.sub o).cross (v2.sub o))
    let V := d.dot ((v2.sub o).cross (v0.sub o))
    let W := d.dot ((v0.sub o).cross (v1.sub o))
    let D := U + V + W
    let T := (v0.sub o).dot ((v1.sub v0).cross (v2.sub v0))
    let hit : Prop := D ≠ 0 ∧ ((0 ≤ U ∧ 0 ≤ V ∧ 0 ≤ W) ∨ (U ≤ 0 ∧ V ≤ 0 ∧ W ≤ 0)) ∧
      (tmin : ℚ) / 2 ^ 149 ≤ (T : ℚ) / D ∧ (T : ℚ) / D ≤ (tmax : ℚ) / 2 ^ 149
    (¬ hit → triCandidate rec bs = [0x7F800000, 0, 0, 0xFFFFFFFF]) ∧
    (hit → ∃ t u v : Res, Exactly f32 ((T : ℝ) / D) false t ∧ Exactly f32 ((V : ℝ) / D) false u ∧
      Exactly f32 ((W : ℝ) / D) false v ∧ triCandidate rec bs = [t.bits, u.bits, v.bits, part rec 0x24 4])) ∧
  ∀ (s : State) (a b c : BitVec 7) (p q o : Nat) (st : Nat → State) (vs : Nat → Nat) (sc : DWord), st 0 = s →
    let h := cur s
    let act := (List.range h.len).filter h.selBit
    let is := activeElems h
    let u := st is.length
    let ray (i : Nat) := rayBits p i
    h.graphics = true → h.len ≤ 32 →
    (SlotRuns s 0x5C 0 → readBlock (curLocal s) b 8 = some p → readBlock (curLocal s) c 2 = some q →
      readV (curLocal s) a 1 = some o → overlaps a 1 b 8 = false → overlaps a 1 c 2 = false → overlaps b 8 c 2 = false →
      (∃ z, writeV (getLocal u s.cur) a 1 0 = some z) → (a.toNat < 112 ∨ a.toNat = 127) →
      let need (i : Nat) := isInternal (elem q i 64) && ((ray i).mapM extOf).isSome
      ReadsFor s.cur 128 128 is need (fun i => BitVec.ofNat 64 (elem q i 64)) st vs →
      ∃ V z, writeV (getLocal u s.cur) a 1 V = some z ∧
        exec (.rbox a b c) s = .next (completed s (setLocal u s.cur (pushV z 1 V))) ∧
        ∀ i, i < 32 → elem V i 32 = loadedElem h i (elem o i 32) (if need i = true then hitList (vs i) (ray i) % 2 ^ 32 else 0)) ∧
    (SlotRuns s 0x5C 1 → readBlock (curLocal s) b 8 = some p → readBlock (curLocal s) c 2 = some q →
      readBlock (curLocal s) a 4 = some o → overlaps a 4 b 8 = false → overlaps a 4 c 2 = false → overlaps b 8 c 2 = false →
      let leaf (i : Nat) := decide (elem q i 64 % 2 = 1)
      ReadsFor s.cur 64 64 is leaf (fun i => BitVec.ofNat 64 (elem q i 64 / 32 * 32)) st vs →
      (∀ V W, ∃ x, ((writeV (getLocal u s.cur) a 4 V).bind (fun y => writeV y c 2 W)) = some x) →
      let z (i : Nat) := if leaf i = true then triCandidate (vs i) (ray i) else missCandidate
      ∃ V W y, (writeV (getLocal u s.cur) a 4 V).bind (fun y => writeV y c 2 W) = some y ∧
        exec (.rtri a b c) s = .next (completed s (setLocal u s.cur y)) ∧
        (∀ i j, i < 32 → j < 4 → laneElem V j i = loadedElem h i (laneElem o j i) ((z i).getD j 0 % 2 ^ 32)) ∧
        ∀ i, elem W i 64 = if i ∈ is ∧ leaf i = true then nextLeaf (elem q i 64) % 2 ^ 64 else elem q i 64) ∧
    (SlotRuns s 0x5D 0 → readBlock (curLocal s) a 2 = some p → readV (curLocal s) b 1 = some q →
      readV (curLocal s) c 1 = some o → (c.toNat < 112 ∨ c.toNat = 127) → overlaps a 2 b 1 = false → overlaps a 2 c 1 = false →
      overlaps b 1 c 1 = false →
      let n (i : Nat) := min (elem q i 32 % 16) 8
      let need (i : Nat) := isInternal (elem p i 64) && decide (n i ≠ 0)
      let child (i k : Nat) := childRef (vs i) (elem q i 32 / 2 ^ (3 * k + 4) % 8)
      ReadsFor s.cur 128 128 is need (fun i => BitVec.ofNat 64 (elem p i 64)) st vs →
      ScratchHome u → (∀ V W, ∃ x, ((writeV (getLocal u s.cur) a 2 V).bind (fun y => writeV y c 1 W)) = some x) →
      ∃ V W t y, (writeV (getLocal t s.cur) a 2 V).bind (fun y => writeV y c 1 W) = some y ∧ t = { u with mem := t.mem } ∧
        exec (.rpush a b c) s = .next (completed s (setLocal t s.cur y)) ∧
        (∀ i, elem V i 64 = if i ∈ is ∧ isInternal (elem p i 64) = true
          then (if n i = 0 then 0 else child i 0 % 2 ^ 64) else elem p i 64) ∧
        (∀ i, elem W i 32 = if i ∈ is ∧ need i = true ∧ 1 < n i
          then stackWord (if 32 ≤ stDepth (elem o i 32) then stDepth (elem o i 32) else min 32 (stDepth (elem o i 32) + n i - 1))
            (stOvf (elem o i 32) || decide (32 < stDepth (elem o i 32) + n i - 1))
            ((stTop (elem o i 32) + n i - 1) % 32) (stBase (elem o i 32))
          else elem o i 32) ∧
        (∀ i k, is = [i] → need i = true → 0 < k → k < n i →
          readN t (stackLoc s.cur (elem o i 32) ((stTop (elem o i 32) + (n i - 1 - k)) % 32)) 8 = child i k % 2 ^ 64) ∧
        ∀ l, (∀ i ∈ is, ∀ r, r < 32 → ∀ j, j < 8 → l ≠ stackLoc s.cur (elem o i 32) r + j) → memGet t.mem l = memGet u.mem l) ∧
    (SlotRuns s 0x5D 1 → readBlock (curLocal s) a 2 = some p → readV (curLocal s) b 1 = some o →
      (b.toNat < 112 ∨ b.toNat = 127) → sDest c = true → overlaps a 2 b 1 = false →
      let pops (i : Nat) := decide (i ∈ act ∧ elem p i 64 = 0 ∧ 0 < stDepth (elem o i 32))
      let top (i : Nat) := (stTop (elem o i 32) + 31) % 32
      ∃ V W y n, (writeV (curLocal s) a 2 V).bind (fun y => writeV y b 1 W) = some y ∧
        exec (.rpop a b c) s = .next (completed s (modHart (withLocal s y) s.cur (fun h => h.result c (BitVec.ofNat 64 n)))) ∧
        n = (act.filter (fun i => elem V i 64 != 0)).length ∧
        (∀ i, elem V i 64 = if pops i = true then readN s (stackLoc s.cur (elem o i 32) (top i)) 8 else elem p i 64) ∧
        ∀ i, elem W i 32 = if pops i = true then stackWord (stDepth (elem o i 32) - 1) (stOvf (elem o i 32)) (top i)
          (stBase (elem o i 32)) else elem o i 32) ∧
    (SlotRuns s 0x5D 3 → readBlock (curLocal s) a 2 = some p → readV (curLocal s) b 1 = some o →
      (b.toNat < 112 ∨ b.toNat = 127) → overlaps a 2 b 1 = false →
      ∃ V W y, (writeV (curLocal s) a 2 V).bind (fun y => writeV y b 1 W) = some y ∧
        exec (.rterm a b) s = .next (completed s (withLocal s y)) ∧
        (∀ i, elem V i 64 = if i ∈ act then 0 else elem p i 64) ∧
        ∀ i, elem W i 32 = if i ∈ act then stackWord 0 (stOvf (elem o i 32)) 0 (stBase (elem o i 32)) else elem o i 32) ∧
    (SlotRuns s 0x5D 2 → readBlock (curLocal s) a 8 = some p → readBlock (curLocal s) b 4 = some q →
      readBlock (curLocal s) c 4 = some o → overlaps a 8 b 4 = false → overlaps a 8 c 4 = false → overlaps b 4 c 4 = false →
      let near (i : Nat) : Prop := i ∈ act ∧ laneElem q 3 i ≠ 0xFFFFFFFF ∧
        ∃ t m : Ext, Machine.extOf (laneElem q 0 i) = some t ∧ Machine.extOf (laneElem p 7 i) = some m ∧ t.le m = true
      ∃ V W y, (writeV (curLocal s) a 8 V).bind (fun y => writeV y c 4 W) = some y ∧
        exec (.rhit a b c) s = .next (completed s (withLocal s y)) ∧
        ∀ i j, i < 32 → j < 8 → (near i → laneElem V j i = (if j = 7 then laneElem q 0 i else laneElem p j i) ∧
            (j < 4 → laneElem W j i = laneElem q j i)) ∧
          (¬ near i → laneElem V j i = laneElem p j i ∧ (j < 4 → laneElem W j i = laneElem o j i))) ∧
    (SlotRuns s 0x5E 1 → sDest a = true → exec (.rdepth a) s = .next (completed s (scalarResult s a (BitVec.ofNat 64 h.depth)))) ∧
    (∀ (k : Task) (v : Nat) (w : State), SlotRuns s 0x5E 0 → readBlock (curLocal s) b 8 = some p → readS h c = some sc →
      sDest a = true → fetchElem s s.cur sc 128 8 .scalar = .ok v w →
      let h := getHart w s.cur
      let act := (List.range h.len).filter h.selBit
      let ws := toWords v 16
      let dev := devOfHart s.cur
      let qk := dev * 4096 + recQueue ws
      let G (t : State) (status n : Nat) := exec (.rspawn a b c) s
        = .next (completed s (modHart t s.cur (fun j => j.result a (BitVec.ofNat 64 (status * 2 ^ 60 + n)))))
      (h.task = none → exec (.rspawn a b c) s = .next (finishSlot s.cur (getHart s s.cur).prefixLive (badOperand w s.cur))) ∧
      (h.task = some k → recordSpawnOk ws = false → G w 2 0) ∧
      (h.task = some k → recordSpawnOk ws = true →
        (h.idem = true → 8 ≤ h.depth →
          G (modTask w s.cur (fun t => { t with buf := t.buf ++ [.addTo (sc + 0x70).toNat act.length] })) 4 0) ∧
        (h.idem = true → h.depth < 8 → ∃ t, G t 0 act.length ∧ t = { w with harts := t.harts } ∧
          (getHart t s.cur).task = some { k with
            buf := k.buf ++ act.map (fun i => .spawn (recQueue ws) (rayRecord ws k.ginst p i) (h.depth + 1)) }) ∧
        (h.idem = false → queueFor w dev h.ctxid.toNat (recQueue ws) = none → G w 3 0) ∧
        ∀ x, queueFor w dev h.ctxid.toNat (recQueue ws) = some x →
          (8 ≤ h.depth → h.idem = false → h.scnt < 63 → ∃ t, G t 4 0 ∧
              Issued s.cur (addCounter w dev h.ctxid.toNat k.queue (sc + 0x70).toNat act.length) t 2 []) ∧
          (h.depth < 8 →
            (h.idem = false → h.scnt ≠ 0 → exec (.rspawn a b c) s = .next (waiting s (.notReady true) w)) ∧
            (h.idem = false → h.scnt = 0 → h.curConv.resumed = false → h.curConv.elem = 0 → x.stalled = [] → act ≠ [] →
              (x.cap ≤ x.count → x.returnsStatus = true → G w 1 0) ∧
              (x.cap ≤ x.count → x.returnsStatus = false → ∃ t, exec (.rspawn a b c) s = .next (waiting s (.queue qk) t) ∧
                t.mem = w.mem ∧ SMap.find t.queues qk = some { x with stalled := [.hart s.cur] }) ∧
              (x.count + act.length ≤ x.cap → x.entries.length + act.length ≤ x.cap → ∃ t r, G t 0 act.length ∧ t.mem = w.mem ∧
                SMap.find t.queues qk = some r ∧ r.seq = x.seq + act.length ∧
                r.entries.length = x.entries.length + act.length ∧
                ∀ i ∈ act, ∃ e ∈ r.entries, e.words = rayRecord ws k.ginst p i ∧ e.depth = h.depth + 1 ∧ e.ctx = h.ctxid.toNat ∧
                  e.launch = k.launch)))))

/-- R254 to R259: with a sound descriptor and its texels read, `tex.pt` and `tex.st` give each active element the channels of
the texel they choose, `tex.bl` the blend of four. The level is the rounded lod kept to the levels there are, the position the
rounded 256 (u W - 1/2), and the blend the exact sum of four weighted texels rounded once, all four being read whatever their
weight (log 45, as is a weight of 0 on an infinity); `tex.st` picks one of the four by the hash of R258. An ASTC block of one colour gives that colour and one of high dynamic range
or with a reserved mode the error colour (the block layout is the cited standard's, log 17), and `texq` the size of a level and the level count; a bad descriptor is
refused. R260 to R262, R357: `mout` and `mprim` fill the mesh buffer and its bytes in the scratchpad, `mend` clears both, held
in an idempotent task and waiting where the classifier has no room, and `rast` hands over the records that name an open draw
and counts them. R356: primitives go to the draw that named the launch, known by the number of its opening; a sealed or
closed draw takes none. R358, R361: the classifier takes its oldest triangle, none while the bin staging is full (its size is
Config's, log 46), and a waiting hart goes on when there is room. Only indices counted without wrapping are stated (log 79). -/
def Obligations.TexturesAndMeshes : Prop :=
  ∀ (s : State) (a b c : BitVec 7) (p o d : Nat) (x y desc : DWord) (dk : Nat),
    let h := cur s
    let act := (List.range h.len).filter h.selBit
    h.len ≤ 32 →
    (∀ (u : State) (st : Nat → State) (vs : Nat → List Nat), h.graphics = true → readBlock (curLocal s) b 4 = some p →
      readBlock (curLocal s) a 4 = some o → readS h c = some desc → overlaps a 4 b 4 = false →
      fetchElem s s.cur desc 32 32 .scalar = .ok d u →
      let bad (i : Instr) := exec i s = .next (finishSlot s.cur h.prefixLive (badOperand u s.cur))
      (txOk d = false → (SlotRuns s 0x5F 0 → bad (.texBl a b c)) ∧ (SlotRuns s 0x5F 1 → bad (.texSt a b c)) ∧
        (SlotRuns s 0x5F 2 → bad (.texPt a b c))) ∧
      (txOk d = true → ∀ (form : Sampling), st 0 = u →
        (∀ k i, (activeElems h)[k]? = some i → sample form d s.cur p i (st k) = .ok (vs i) (st (k + 1))) →
        let z := st (activeElems h).length
        (∃ w, writeV (getLocal z s.cur) a 4 0 = some w) →
        let Done (i : Instr) := ∃ V w, writeV (getLocal z s.cur) a 4 V = some w ∧
          exec i s = .next (completed s (setLocal z s.cur w)) ∧
          ∀ i j, i < 32 → j < 4 → laneElem V j i = loadedElem h i (laneElem o j i) ((vs i).getD j 0 % 2 ^ 32)
        (form = .bilinear → SlotRuns s 0x5F 0 → Done (.texBl a b c)) ∧
        (form = .stochastic → SlotRuns s 0x5F 1 → Done (.texSt a b c)) ∧
        (form = .point → SlotRuns s 0x5F 2 → Done (.texPt a b c)))) ∧
    (∀ (i v : Nat), let l := levelOf (laneElem p 2 i) (txLm1 d)
      ∀ n m w, Machine.extOf (laneElem p 0 i) = some (Ext.fin n) → Machine.extOf (laneElem p 1 i) = some (Ext.fin m) →
        let X := wrapCoord (txWrapU d) (n * (levelW d l : Int) / 2 ^ 149) (levelW d l)
        let Y := wrapCoord (txWrapV d) (m * (levelH d l : Int) / 2 ^ 149) (levelH d l)
        fetchElem s s.cur (BitVec.ofNat 64 (texelAddr d l X Y).1) (texelAddr d l X Y).2 1 .gather = .ok v w →
        sample .point d s.cur p i s = .ok ((texelOf d v X Y).map channelBits) w) ∧
    (∀ (z : Int) (n : Nat), 0 < n →
      (wrapCoord 0 z n : Int) = z % n ∧ (wrapCoord 1 z n : Int) = min (max z 0) (n - 1) ∧
      (wrapCoord 2 z n : Int) = if z % (2 * n) < n then z % (2 * n) else 2 * n - 1 - z % (2 * n)) ∧
    let Near (r : ℝ) (k : Int) : Prop := |r - k| ≤ 1 / 2 ∧ (|r - k| = 1 / 2 → k % 2 = 0)
    let At (u n : Nat) (k : Int) : Prop := (Machine.extOf u = none → k = 0) ∧
      (∀ neg, Machine.extOf u = some (Ext.inf neg) → k = if neg then -2 ^ 31 else 2 ^ 31 - 1) ∧
      ∀ m, Machine.extOf u = some (Ext.fin m) →
        ∃ r, Near (256 * ((m : ℝ) / 2 ^ 149 * n - 1 / 2)) r ∧ k = max (-2 ^ 31) (min r (2 ^ 31 - 1))
    let Level (lod l : Nat) : Prop := (Machine.extOf lod = none → l = 0) ∧
      (∀ neg, Machine.extOf lod = some (Ext.inf neg) → l = if neg then 0 else txLm1 d) ∧
      ∀ m, Machine.extOf lod = some (Ext.fin m) → ∃ r, Near ((m : ℝ) / 2 ^ 149) r ∧ (l : Int) = min (max r 0) (txLm1 d)
    let Is (t : Texel) (r : ℝ) : Prop := match t with | .unorm n m => r = (n : ℝ) / m | .flt f => f.Is r
    let Rounded (r : ℝ) (b : Nat) : Prop := ∃ n q, Exactly f32 r n q ∧ b = q.bits
    (∀ (i l : Nat) (X Y : Int) (xy : Nat → Nat × Nat) (st : Nat → State) (vs : Nat → Nat), txOk d = true → st 0 = s →
      Level (laneElem p 2 i) l → At (laneElem p 0 i) (levelW d l) X → At (laneElem p 1 i) (levelH d l) Y →
      (∀ j, xy j = (wrapCoord (txWrapU d) (X / 256 + (j % 2 : Nat)) (levelW d l),
        wrapCoord (txWrapV d) (Y / 256 + (j / 2 : Nat)) (levelH d l))) →
      let ax := (X % 256).toNat
      let ay := (Y % 256).toNat
      let w := [(256 - ax) * (256 - ay), ax * (256 - ay), (256 - ax) * ay, ax * ay]
      let reads (t t' : State) (j v : Nat) : Prop :=
        fetchElem t s.cur (BitVec.ofNat 64 (texelAddr d l (xy j).1 (xy j).2).1) (texelAddr d l (xy j).1 (xy j).2).2 1 .gather
          = .ok v t'
      let texel (j v k : Nat) := (texelOf d v (xy j).1 (xy j).2).getD k (.unorm 0 255)
      ((∀ j, j < 4 → reads (st j) (st (j + 1)) j (vs j)) → ∃ V, V.length = 4 ∧
        sample .bilinear d s.cur p i s = .ok V (st 4) ∧ ∀ k, k < 4 → ∀ r : Nat → ℝ,
          (∀ j, j < 4 → Is (texel j (vs j) k) (r j)) →
          Rounded ((w.getD 0 0 * r 0 + w.getD 1 0 * r 1 + w.getD 2 0 * r 2 + w.getD 3 0 * r 3) / 65536) (V.getD k 0)) ∧
      (let mx (g : BitVec 32) : BitVec 32 :=
          let e := (g ^^^ (g >>> 16)) * 0x7FEB352D#32
          let f := (e ^^^ (e >>> 15)) * 0x846CA68B#32
          f ^^^ (f >>> 16)
        let hash := mx (mx (mx (BitVec.ofNat 32 (laneElem p 3 i) ^^^ BitVec.ofInt 32 X) ^^^ BitVec.ofInt 32 Y) ^^^ BitVec.ofNat 32 l)
        let r := hash.toNat % 65536
        let j := if r < w.getD 0 0 then 0 else if r < w.getD 0 0 + w.getD 1 0 then 1
          else if r < w.getD 0 0 + w.getD 1 0 + w.getD 2 0 then 2 else 3
        reads s (st 1) j (vs 0) → ∃ V, V.length = 4 ∧ sample .stochastic d s.cur p i s = .ok V (st 1) ∧
          ∀ k, k < 4 → ∀ q : ℝ, Is (texel j (vs 0) k) q → Rounded q (V.getD k 0))) ∧
    (∀ v i j bw bh : Nat, txFootprint d = some (bw, bh) →
      let error := [Texel.unorm 65535 65535, .unorm 0 65535, .unorm 65535 65535, .unorm 65535 65535]
      (v % 2 ^ 4 = 0 → texelOf d v i j = error) ∧ (v % 2 ^ 9 = 0x1FC → v / 2 ^ 9 % 2 = 1 → texelOf d v i j = error) ∧
      (v % 2 ^ 9 = 0x1FC → v / 2 ^ 9 % 8 = 6 → v / 2 ^ 12 % 2 ^ 52 = 2 ^ 52 - 1 →
        texelOf d v i j = (List.range 4).map (fun k => .unorm (v / 2 ^ (64 + 16 * k) % 2 ^ 16) 65535))) ∧
    (SlotRuns s 0x5F 3 → readS h b = some desc → readS h c = some y → sDest a = true →
      ∀ u, fetchElem s s.cur desc 32 32 .scalar = .ok d u →
        (txOk d = false → exec (.texq a b c) s = .next (finishSlot s.cur h.prefixLive (badOperand u s.cur))) ∧
        (txOk d = true → exec (.texq a b c) s = .next (completed s (modHart u s.cur (fun j => j.result a (BitVec.ofNat 64
          ((if y.toNat ≤ txLm1 d then max 1 (txWidth d >>> y.toNat) + max 1 (txHeight d >>> y.toNat) * 2 ^ 32 else 0)
            + txLm1 d * 2 ^ 56))))))) ∧
    let Placed (t : State) (m : Nat) (words : Nat × Nat → Prop) : Prop :=
      (∀ e, words e → readN t (scratchLoc (coreOf s.cur) (m + e.1)) 4 = e.2) ∧
      ∀ l, (∀ e, words e → ∀ q, q < 4 → l ≠ scratchLoc (coreOf s.cur) (m + e.1) + q) → memGet t.mem l = memGet s.mem l
    let Emptied (k : Task) (u t : State) : Prop := (k.mesh = none → t.mem = u.mem) ∧ ∀ m, k.mesh = some m →
      ∀ l, memGet t.mem l = if scratchLoc (coreOf s.cur) m ≤ l ∧ l < scratchLoc (coreOf s.cur) m + 34816 then 0
        else memGet u.mem l
    (∀ (k : Task) (r : Nat), h.task = some k → h.graphics = true →
      (SlotRuns s 0x60 0 → readS h b = some x → readS h c = some y →
        let slot := bits y 4 0
        let n := bits y 9 5 + 1
        (bits y 63 10 ≠ 0 ∨ 32 < slot + n ∨ 96 < a.toNat + n → exec (.mout a b c) s = .next (operandTrap s)) ∧
        (bits y 63 10 = 0 → slot + n ≤ 32 → a.toNat + n ≤ 96 → readRun (curLocal s) a.toNat n = some r →
          x.toNat + 32 ≤ 2 ^ 64 → ∃ t z, exec (.mout a b c) s = .next (completed s t) ∧
            (getHart t s.cur).task = some { k with verts := z } ∧
            (∀ v j, v < 256 → j < 32 → SMap.get 0 z (v * 32 + j) =
              if slot ≤ j ∧ j < slot + n ∧ x.toNat ≤ v ∧ v - x.toNat ∈ act then laneElem r (j - slot) (v - x.toNat)
              else SMap.get 0 k.verts (v * 32 + j)) ∧
            ((∀ i ∈ act, x.toNat + i < 256) → (k.mesh = none → t.mem = s.mem) ∧ ∀ m, k.mesh = some m → ScratchHome s →
              Placed t m (fun e => ∃ i ∈ act, ∃ j, j < n ∧ e = (4 * ((x.toNat + i) * 32 + slot + j), laneElem r j i))))) ∧
      (SlotRuns s 0x60 1 → readS h b = some x → readV (curLocal s) a 1 = some r → x.toNat + 32 ≤ 2 ^ 64 →
        ∃ t z, exec (.mprim a b) s = .next (completed s t) ∧ (getHart t s.cur).task = some { k with prims := z } ∧
          (∀ i, i < 512 → SMap.get 0 z i = if x.toNat ≤ i ∧ i - x.toNat ∈ act then elem r (i - x.toNat) 32 % 2 ^ 24
            else SMap.get 0 k.prims i) ∧
          ((∀ i ∈ act, x.toNat + i < 512) → (k.mesh = none → t.mem = s.mem) ∧ ∀ m, k.mesh = some m → ScratchHome s →
            Placed t m (fun e => ∃ i ∈ act, e = (32768 + 4 * (x.toNat + i), elem r i 32 % 2 ^ 24))))) ∧
    (∀ k : Task, h.task = some k → SlotRuns s 0x60 2 → readS h b = some x → readS h c = some y →
      (k.idem = true → ∃ t, exec (.mend b c) s = .next (completed s t) ∧ t = { s with harts := t.harts, mem := t.mem } ∧
        (getHart t s.cur).task = some { k with
          verts := [], prims := [], buf := k.buf ++ [.mesh k.verts k.prims x.toNat y.toNat] } ∧ Emptied k s t) ∧
      (k.idem = false →
        (classifierOpen s (dieOf (coreOf s.cur)) = false → exec (.mend b c) s = .next (waiting s (.notReady true) s)) ∧
        (classifierOpen s (dieOf (coreOf s.cur)) = true → ∃ t, exec (.mend b c) s = .next (completed s t) ∧
          (getHart t s.cur).task = some { k with verts := [], prims := [] } ∧
          (drawOf s k = none → t = { s with harts := t.harts, mem := t.mem } ∧ Emptied k s t) ∧
          ∀ key e, drawOf s k = some key → drawAt s key = some e → part e.val 0x38 8 = 0 →
            (e.isOpen = false → (getDie t (dieOf (coreOf s.cur))).cls = (getDie s (dieOf (coreOf s.cur))).cls) ∧
            (e.isOpen = true → (getDie t (dieOf (coreOf s.cur))).cls = (getDie s (dieOf (coreOf s.cur))).cls ++
              (((List.range (min y.toNat 512)).map (fun p => (p, SMap.get 0 k.prims p))).filter (fun p =>
                (primVerts p.2).all (fun v => decide (v < min x.toNat 256)))).map
                (fun p => meshTri key.1 h.ctxid.toNat k.pinst k.verts p.1 p.2))))) ∧
    (SlotRuns s 0x61 0 → readS h b = some x → readS h c = some y → sDest a = true → h.curConv.elem = 0 →
      h.curConv.bitpos = 0 →
      (4096 < y.toNat → exec (.rast a b c) s = .next (operandTrap s)) ∧
      (y.toNat ≤ 4096 → x.toNat % 64 ≠ 0 → exec (.rast a b c) s = .next (trapped s cALIGN (6 * 16) x 0 0 s)) ∧
      (x.toNat % 64 = 0 → y = 0 → exec (.rast a b c) s = .next (completed s (scalarResult s a 0))) ∧
      (∀ v u, x.toNat % 64 = 0 → y = 1 → fetchElem s s.cur x 64 64 .scalar = .ok v u →
        let draw := recordDraw u (devOfHart s.cur) h.ctxid.toNat v
        let G (t : State) (n : DWord) := exec (.rast a b c) s = .next (completed s (modHart t s.cur (fun j => j.result a n)))
        (draw = none → G u 0) ∧
        ∀ key, draw = some key →
          (h.idem = true → G (modTask u s.cur (fun k => { k with buf := k.buf ++ [.rast key (recordWords v)] })) 1) ∧
          (h.idem = false → classifierOpen u (dieOf (coreOf s.cur)) = true → ∃ t, G t 1 ∧ t.mem = u.mem ∧
            (getDie t (dieOf (coreOf s.cur))).cls = (getDie u (dieOf (coreOf s.cur))).cls ++
              [⟨key.1, h.ctxid.toNat, part v 0x24 4, (List.range 9).map (fun k => part v (4 * k) 4), false,
                BitVec.ofNat 64 (part v 0x30 8)⟩]))) ∧
    (∃ t, exec (.classifierTriangle dk) s = .next t ∧ ((getDie s dk).cls = [] → t = s) ∧
      (stagingFull s dk = true → t = s) ∧
      ∀ e es, stagingFull s dk = false → (getDie s dk).cls = e :: es → (es = [] ∨ Instr.classifierTriangle dk ∈ t.pending) ∧
        (SMap.find s.draws e.draw = none → t.mem = s.mem ∧ (getDie t dk).cls = es)) ∧
    (∃ t, exec (.classifierRoom dk) s = .next t ∧ t = { s with pending := t.pending } ∧
      (classifierOpen s dk = true → ∀ hk ∈ classifierWaiters s dk, Instr.convoyIssue hk ∈ t.pending) ∧
      (classifierOpen s dk = false → t = s))

/-- R27 to R29, R264: a register a mode cannot reach raises ILLEGAL-INSTRUCTION and a number outside the table
ILLEGAL-OPERAND; `sget` returns the register, `sset` and `sswap` write it: read-only registers ignore the write, ATSAT bits
are cleared by ones, a reserved value is refused, and otherwise the register holds the value's writable bits afterwards
and every other register is kept, but VL (zeroed by a new SEW or GRP) and ROF (by a new ROT); `sswap` gives the old value to sd as the
windows stood before the write. R20, R102: a set-length request grants min(request, VLMAX), in a rope the
members' parts of it, for a request that is the leader's sa (the model's choice, log 73), and traps where SEW or GRP differ. R397: a write of TB above its value on the master's die makes a step due, at the
present time (the model's choice, log 49). The writable bits are those of the field maps of R30 to R38, R197, R202, R305, R319
and R359, and the reserved values those of R10 to R12, R29, R30, R33, R36, R37, R102 and these rules. -/
def Obligations.SystemRegisters : Prop :=
  ∀ (s : State) (a b : BitVec 7) (r : BitVec 12) (e : Word) (v : DWord) (i : Nat),
    let hk := s.cur
    let acc (n : Nat) := regAccess (cur s).mode n
    let Written (n : Nat) (v : DWord) (t : State) : Prop :=
      let w := mergeReg n (sysReg s hk n) v
      t.mem = s.mem ∧
      (acc n = some .ro → t = s) ∧
      (acc n = some .w1c → sysReg t hk n = sysReg s hk n &&& ~~~v ∧ t = { s with cores := t.cores }) ∧
      (acc n = some .rw →
        (n = 0x020 → dieOf (coreOf hk) = 0 → (tbOf s hk).toNat < w.toNat →
          t.tbStep = some ((tbOf s hk).toNat, w.toNat) ∧ Instr.tbStep ∈ t.pending) ∧
        (n = 0x020 → dieOf (coreOf hk) ≠ 0 ∨ w.toNat ≤ (tbOf s hk).toNat → t = s) ∧
        (n ≠ 0x020 → n ≠ 0x025 ∨ hk ∈ ropeOf s hk → sysReg t hk n = w) ∧
        (n = 0x025 → ∀ m ∈ ropeOf s hk, (getHart t m).rbar = w) ∧
        (n = 0x010 → (getHart t hk).vl = (if bits w 2 0 = bits (cur s).vcfg 2 0 ∧ bits w 5 4 = bits (cur s).vcfg 5 4
            then (cur s).vl else 0) ∧
          ((getHart t hk).wbase = if bits w 11 8 = bits (cur s).vcfg 11 8 then (cur s).wbase
            else withBits (cur s).wbase 37 32 0)) ∧
        ((cur s).vl.toNat ≤ (cur s).vlmax → (getHart t hk).vl.toNat ≤ (getHart t hk).vlmax)) ∧
      ∀ k, regRow k ≠ none → k ≠ n → (n = 0x010 → k ≠ 0x011 ∧ k ≠ 0x014) → sysReg t hk k = sysReg s hk k
    let Write (i : Instr) (n : Nat) (v : DWord) (last : State → State) : Prop :=
      let w := mergeReg n (sysReg s hk n) v
      (acc n = none → exec i s = .next (operandTrap s)) ∧
      (acc n = some .ro ∨ acc n = some .w1c ∨ (acc n = some .rw ∧ regReserved s hk n w = false ∧ regWaits s hk n = false) →
        ∃ t, exec i s = .next (completed s (last t)) ∧ Written n v t) ∧
      (acc n = some .rw → regReserved s hk n w = true → exec i s = .next (operandTrap s)) ∧
      (acc n = some .rw → regReserved s hk n w = false → regWaits s hk n = true →
        exec i s = .next (waiting s (.notReady false) s))
    (∀ n fs, (n, fs) ∈ ([(0x000, [(63, 32), (8, 4)]), (0x001, [(63, 32), (8, 0)]), (0x002, [(63, 4), (1, 0)]),
        (0x003, [(7, 7), (3, 0)]), (0x004, [(63, 0)]), (0x005, [(63, 4)]), (0x006, [(63, 0)]),
        (0x010, [(17, 16), (14, 8), (5, 4), (2, 0)]), (0x012, [(23, 11), (3, 0)]), (0x013, [(31, 0)]),
        (0x014, [(37, 32), (24, 16), (7, 0)]), (0x023, [(15, 0)]), (0x025, [(63, 0)]), (0x030, [(31, 30), (23, 8), (2, 0)]),
        (0x031, [(31, 30), (23, 8), (2, 0)]), (0x040, [(47, 31), (15, 0)]), (0x04F, [(47, 31), (15, 0)]),
        (0x050, [(63, 60), (47, 32), (29, 16), (13, 0)]), (0x053, [(63, 60), (47, 32), (29, 16), (13, 0)]),
        (0x060, [(63, 59), (54, 30), (24, 0)]), (0x067, [(63, 59), (54, 30), (24, 0)]), (0x070, [(31, 0)])] :
        List (Nat × List (Nat × Nat))) → ∀ old w k, k < 64 → (mergeReg n old w).getLsbD k =
      if ∃ f ∈ fs, f.2 ≤ k ∧ k ≤ f.1 then w.getLsbD k else old.getLsbD k) ∧
    (∀ n w, regReserved s hk n w = true ↔
      (n = 0x000 ∧ bits w 7 6 = 2) ∨ (n = 0x003 ∧ (bits w 3 2 = 3 ∨ bits w 1 0 = 3)) ∨
      (n = 0x010 ∧ (4 < bits w 2 0 ∨ 8 < bits w 11 8)) ∨ (n = 0x011 ∧ (cur s).vlmax < w.toNat) ∨
      (n = 0x012 ∧ (bits w 13 11 = 7 ∨ 8 < bits w 3 0)) ∨
      (n = 0x014 ∧ (160 < bits w 7 0 ∨ bits w 7 0 % 16 ≠ 0 ∨ bits w 24 16 % 8 ≠ 0 ∨
        ((cur s).chunks = [] ∧ bits w 24 16 ≠ 0) ∨ ((cur s).chunks ≠ [] ∧ (cur s).valloc < bits w 24 16 + 96) ∨
        (bits w 37 32 ≠ 0 ∧ 8 * bits (cur s).vcfg 11 8 ≤ bits w 37 32))) ∨
      (0x040 ≤ n ∧ n ≤ 0x04F ∧ bit w 31 = true ∧ bits w 15 0 = 0) ∨
      (0x050 ≤ n ∧ n ≤ 0x053 ∧ ((bit w 63 = true ∧ bits w 29 16 < bits w 13 0) ∨
        (bit w 60 = true ∧ (bit w 62 = false ∨ bit w 61 = false)))) ∨
      (0x060 ≤ n ∧ n ≤ 0x067 ∧ (8 < bits w 62 59 ∨ (bit w 63 = true ∧ (bits w 54 30 < bits w 24 0 ∨
        12 < bits w 62 59 + ((List.range 8).map (fun j => if 0x060 + j = n then 0
          else artWays (getDie s (dieOf (coreOf hk))) j)).sum + caddyWays s (dieOf (coreOf hk)))))) ∨
      (n = 0x070 ∧ ((bit w 31 = true ∧ bits w 30 0 ≠ 0) ∨ (bits w 30 23 = 255 ∧ bits w 22 0 ≠ 0)))) ∧
    (SlotRuns s 0x64 0 → (acc r.toNat = some .dash → exec (.sget a r) s = .next (instructionTrap s)) ∧
      (acc r.toNat = none → exec (.sget a r) s = .next (operandTrap s)) ∧
      (acc r.toNat ≠ none → acc r.toNat ≠ some .dash → sDest a = true →
        exec (.sget a r) s = .next (completed s (scalarResult s a (sysReg s hk r.toNat))))) ∧
    (SlotRuns s 0x64 1 →
      (acc r.toNat = some .dash → exec (.sset a r) s = .next (instructionTrap s) ∧
        exec (.registerWrite r v) s = .next (instructionTrap s)) ∧
      (acc r.toNat ≠ some .dash → (readS (cur s) a = some v → Write (.sset a r) r.toNat v id) ∧
        Write (.registerWrite r v) r.toNat v id) ∧
      Write (.vcfgWrite v) 0x010 v id ∧ Write (.wbaseWrite v) 0x014 v id ∧ Write (.vlWrite v) 0x011 v id ∧
      Write (.hstatWrite v) 0x000 v id ∧ Write (.atsatClear i v) (0x032 + i % 2) v id ∧ Write (.tbWrite v) 0x020 v id ∧
      ((cur s).mode ≠ 0 → Write (.accownWrite i v) (0x030 + i % 2) v id ∧ Write (.mstWrite i v) (0x040 + i % 16) v id) ∧
      ((cur s).mode = 3 → Write (.artWrite i v) (0x060 + i % 8) v id) ∧
      ((cur s).mode = 0 → exec (.accownWrite i v) s = .next (instructionTrap s) ∧
        exec (.mstWrite i v) s = .next (instructionTrap s)) ∧
      ((cur s).mode ≠ 3 → exec (.artWrite i v) s = .next (instructionTrap s))) ∧
    (SlotRuns s 0x64 2 → readS (cur s) b = some v →
      let n := bits e 11 0
      (acc n = some .dash → exec (.sswap a b e) s = .next (instructionTrap s)) ∧
      (acc n ≠ some .dash → (bits e 31 12 ≠ 0 ∨ sDest a = false → exec (.sswap a b e) s = .next (operandTrap s)) ∧
        (bits e 31 12 = 0 → sDest a = true →
          (n ≠ 0x011 → Write (.sswap a b e) n v (fun t => modHart t hk (fun h =>
            { Hart.result { h with wbase := (cur s).wbase } a (sysReg s hk n) with wbase := h.wbase }))) ∧
          (n = 0x011 → exec (.sswap a b e) s = exec (.setLengthRequest a b) s)))) ∧
    (SlotRuns s 0x64 2 → readS (cur s) b = some v → sDest a = true → (cur s).recorded = none →
      ((cur s).inRope = false → (cur s).curConv.crew = [] → let T := min v.toNat (cur s).vlmax
        exec (.setLengthRequest a b) s = .next (completed s (modHart s hk (fun h =>
          Hart.result { h with vl := BitVec.ofNat 16 T } a (BitVec.ofNat 64 T))))) ∧
      (isMember s hk = true → exec (.setLengthRequest a b) s = .next (waiting s (.notReady false) s)) ∧
      (isMember s hk = false → sameShape s hk = false →
        exec (.setLengthRequest a b) s = .next (finishSlot hk (cur s).prefixLive (badOperand (recordRuling s hk (fun _ => .differ)) hk))) ∧
      ((cur s).inRope = true ∨ (cur s).curConv.crew ≠ [] → isMember s hk = false → sameShape s hk = true →
        let ms := crewOf s hk
        ms.Nodup → (∀ m ∈ ms, (getHart s m).curConv.crew = (cur s).curConv.crew) →
        let T := min v.toNat (ms.length * (cur s).vlmax)
        let part (k : Nat) := if ms.length ≤ T then T / ms.length else if k < T then 1 else 0
        let total := if ms.length ≤ T then ms.length * (T / ms.length) else T
        ∃ t, exec (.setLengthRequest a b) s = .next (completed s (modHart t hk (fun h =>
            Hart.result { h with vl := BitVec.ofNat 16 (part 0) } a (BitVec.ofNat 64 total)))) ∧ t.mem = s.mem ∧
          ∀ k m, ms[k]? = some m →
            getHart t m = { getHart s m with conv := (getHart s m).conv.map (fun c =>
              { c with ctl := c.ctl ++ [((cur s).curConv.slot, Ruling.granted (part k) total)] }) })) ∧
    (SlotRuns s 0x64 2 → readS (cur s) b = some v → sDest a = true →
      (∀ part total, (cur s).recorded = some (.granted part total) →
        exec (.setLengthRequest a b) s = .next (completed s (modHart s hk (fun h =>
          Hart.result { h with vl := BitVec.ofNat 16 part } a (BitVec.ofNat 64 total))))) ∧
      ((cur s).recorded = some .differ → exec (.setLengthRequest a b) s = .next (operandTrap s)) ∧
      ((cur s).recorded = some .skipped → exec (.setLengthRequest a b) s = .next (completed s s)))

/-- R267 to R269: a trap with a handler saves cause, INFO, convoy, slot, fault address and last-result file, moves MODE and
IE to PMODE and PIE, clears IE, raises the mode and goes to HTVEC; a double trap writes no register of the hart's trap state
and fences the context; a hart that is to end its task ends here instead, without the trap (the model's reading, log 76). R270: `scall` and `brk` trap with their immediate, the
slot complete. R275: `eret` restores mode, IE, last-result file and PC, and the convoy is resumed where CVR.V = 1, under the SPRD with which it first began (log 74)
and with as many pending entries as CVR.QP says, those that were not kept being 0 (log 54); on a firmware
core the mode stays 3 (R26; the model's reading, log 75). On an engine hart a trap fences the engine (the model's reading, log 80). R276: `wfi` waits unless a trap is pending, `halt` ends once its accesses have performed. -/
def Obligations.TrapsAndReturns : Prop :=
  ∀ (s : State) (i : BitVec 14) (cause info el bp : Nat) (fa : DWord),
    let h := cur s
    let fw := isFwCore s (coreOf s.cur)
    let t := trapped s cause info fa el bp s
    let here : Prop := isEngine s.cur = false ∧ h.ending = .none ∧ requeues h cause info = false
    (isEngine s.cur = true → t = post (modHart s s.cur Hart.toIdle) (.engineFence (coreOf s.cur))) ∧
    (isEngine s.cur = false → h.ending ≠ .none → t = endHart s s.cur h.ending) ∧
    (here → (h.mode = 0 ∨ h.ie = true) → h.htvec ≠ 0 →
      let g := getHart t s.cur
      g.hcause = BitVec.ofNat 64 (info % 2 ^ 32 * 2 ^ 32 + cause) ∧
      g.hepc = BitVec.ofNat 64 (h.pc.toNat / 16 * 16 + h.curConv.slot % 4) ∧
      g.cvr = BitVec.ofNat 64 (128 + h.q.pend.length % 4 * 4 + h.curConv.slot % 4) ∧
      g.vri = BitVec.ofNat 64 (bp % 2 ^ 48 * 2 ^ 16 + el % 2 ^ 16) ∧ g.faddr = fa ∧ g.kept = h.q ∧ g.q = {} ∧
      g.pc = h.htvec ∧ g.conv = none ∧ g.mode = (if fw then 3 else 1) ∧ g.ie = false ∧ g.pmode = h.mode ∧ g.pie = h.ie ∧
      (∀ k, 8 ≤ k → k < 64 → g.hstat.getLsbD k = h.hstat.getLsbD k) ∧ g.sregs = h.sregs ∧ g.oregs = h.oregs ∧
      g.masks = h.masks ∧ g.htvec = h.htvec ∧ g.hscr = h.hscr ∧ g.vcfg = h.vcfg ∧ g.vl = h.vl ∧ g.wbase = h.wbase ∧
      g.ctxid = h.ctxid ∧ g.sticky = h.sticky ∧ t.mem = s.mem) ∧
    (here → h.mode ≠ 0 → h.ie = false →
      t = fenceContext s (devOfHart s.cur) h.ctxid.toNat 2 s.cur cause) ∧
    (SlotRuns s 0x65 0 → exec (.scall i) s = .next (trapped s cSYSTEMCALL i.toNat 0 0xFFFF 0 s)) ∧
    (SlotRuns s 0x65 2 → exec (.brk i) s = .next (trapped s cBREAKPOINT i.toNat 0 0xFFFF 0 s)) ∧
    (SlotRuns s 0x65 1 →
      (h.mode < h.pmode ∨ h.pmode = 2 → exec .eret s = .next (operandTrap s)) ∧
      (h.pmode ≤ h.mode → h.pmode ≠ 2 → ∃ g, exec .eret s = .next (withCur s g) ∧
        g.mode = (if fw then 3 else h.pmode) ∧ g.ie = h.pie ∧ (∀ k, k ≠ 0 → k ≠ 1 → k ≠ 4 → g.hstat.getLsbD k = h.hstat.getLsbD k) ∧
        g.pc = BitVec.ofNat 64 (h.hepc.toNat / 16 * 16) ∧ g.conv = none ∧ g.resume = bit h.cvr 7 ∧
        g.sprdKept = (if bit h.cvr 7 then h.sprdKept else h.sprdKept.drop 1) ∧
        (∀ k, g.q.at k = h.kept.at k) ∧ g.q.pend.length = (if bit h.cvr 7 then min (h.kept.pend.length + 2) (bits h.cvr 3 2) else 0) ∧
        g = { h with
          hstat := g.hstat, q := g.q, pc := g.pc, held := g.held, conv := none, wait := .none, grant := none,
          resume := g.resume, sprdKept := g.sprdKept, pxStack := g.pxStack })) ∧
    (SlotRuns s 0x65 3 →
      (h.grant = none → h.async = [] → exec .wfi s = .next (waiting s .wfi s)) ∧
      (h.grant ≠ none ∨ h.async ≠ [] → exec .wfi s = .next (completed s s))) ∧
    (SlotRuns s 0x65 4 →
      (h.lcnt ≠ 0 ∨ h.scnt ≠ 0 → exec .halt s = .next (waiting s (.notReady false) s)) ∧
      (h.lcnt = 0 → h.scnt = 0 → validHart s.cur = true → ∃ t, exec .halt s = .next t ∧ (getHart t s.cur).st = .idle ∧
        (getHart t s.cur).sregs = h.sregs ∧ t.mem = s.mem))

/-- R277: in firmware mode `tlbw` enters the entry it is given, in supervisor mode it waits for the walk that the cluster's
translation service core makes and returns 0, 1 or 2; `tlbr` returns what the core's TLBs hold (the unit-stride register does
not count: log 50). R278: `tlbi` drops the entries its selector names, on the issuing core or on every core and cluster TLB of
its device, a miss walked before then fills nothing (log 50), and it counts in SCNT until the accesses that may have used one
have performed. Addresses count modulo 2^56 and bits [63:48] of the selector are ignored (log 92). R279 to R281: an image
holds the hart's registers in the order of R279; `hsave` stores it piece by piece, past the buffer of an idempotent task
(log 51), `hrest` refuses a broken one and otherwise loads it. R283: `pack` records its operands and the hart is pre-empted, its
queued messages going to the spill list of their queue (each queue has one of its own: log 43). -/
def Obligations.TranslationsAndImages : Prop :=
  ∀ (s : State) (a b c : BitVec 7) (x y : DWord),
    let h := cur s
    let ck := coreOf s.cur
    let ctx := h.ctxid.toNat
    let v := x.toNat % 2 ^ 56
    let G (t : State) (r : DWord) := completed s (modHart t s.cur (fun j => j.result a r))
    (SlotRuns s 0x66 0 → readS h b = some x → readS h c = some y → sDest a = true →
      (h.mode = 3 → ∃ t, exec (.tlbw a b c) s = .next (G t 0) ∧ t = { s with cores := t.cores } ∧
        heldEntry (getCore t ck) ctx v = y ∧
        ∃ g ∈ (getCore t ck).gtlb, g.1 = bankOf v ∧ g.2.ctx = ctx ∧ g.2.page = v >>> entrySize y ∧ g.2.entry = y) ∧
      (h.mode ≠ 3 → c.toNat ≠ 127 → exec (.tlbw a b c) s = .next (operandTrap s)) ∧
      (h.mode ≠ 3 → c.toNat = 127 →
        (∀ r, (getClus s (clusKey ck)).fails = [(s.cur, ctx, v / 65536, r)] → ∃ t,
          exec (.tlbw a b c) s = .next (G t (if r = 0 then 1 else 2)) ∧ t = { s with clusters := t.clusters } ∧
          (getClus t (clusKey ck)).fails = []) ∧
        ((getClus s (clusKey ck)).fails = [] →
          (tlbFind (getClus s (clusKey ck)).ctlb ctx v = none →
            ∃ t, exec (.tlbw a b c) s = .next (waiting s (.notReady false) t) ∧ t.mem = s.mem ∧ t.cores = s.cores ∧
              ((getClus s (clusKey ck)).misses = [] → (SMap.get [] (getHart s (tscOf (clusKey ck) * 8)).rq 0).length < 8 →
                ∃ m, (getClus t (clusKey ck)).misses = [m] ∧ m.ctx = ctx ∧ m.page = v / 65536 ∧ m.harts = [s.cur])) ∧
          ∀ e, tlbFind (getClus s (clusKey ck)).ctlb ctx v = some e → ∃ t, exec (.tlbw a b c) s = .next (G t 0) ∧
            t = { s with cores := t.cores } ∧ heldEntry (getCore t ck) ctx v = e.entry))) ∧
    (SlotRuns s 0x66 2 → readS h b = some x → sDest a = true →
      exec (.tlbr a b) s = .next (completed s (scalarResult s a (heldEntry (getCore s ck) ctx v)))) ∧
    (SlotRuns s 0x66 1 → readS h b = some x → readS h c = some y →
      let whole := y.getLsbD 0
      let C := if h.mode = 3 then bits y 47 32 else ctx
      (bits y 31 2 ≠ 0 ∨ (h.mode ≠ 3 ∧ bits y 47 32 ≠ 0) → exec (.tlbi b c) s = .next (operandTrap s)) ∧
      (bits y 31 2 = 0 → h.mode = 3 ∨ bits y 47 32 = 0 → h.scnt < 63 → ∃ t u, exec (.tlbi b c) s = .next (completed s t) ∧
        Issued s.cur u t 2 [] ∧ (SMap.find t.ops u.nextId).map (fun o => o.after) = some (accessesOf s s.cur (bits y 1 0) C) ∧
        u = { s with cores := u.cores, clusters := u.clusters, harts := u.harts } ∧
        let device := y.getLsbD 1
        let named (k : Nat) : Prop := if device = true then devOf (dieOf k) = devOfHart s.cur else k = ck
        let goes (e : TlbEnt) : Prop := e.ctx = C ∧ (whole = true ∨ e.page = v >>> e.size)
        (∀ k, named k → (∀ e, e ∈ (getCore u k).tlb ↔ e ∈ (getCore s k).tlb ∧ ¬ goes e) ∧
          (∀ g, g ∈ (getCore u k).gtlb ↔ g ∈ (getCore s k).gtlb ∧ ¬ goes g.2)) ∧
        (∀ k, ¬ named k → getCore u k = getCore s k) ∧
        (∀ j, named (coreOf j) → (getHart s j).ctxid.toNat = C →
          ∀ e, (getHart u j).ustride = some e ↔ (getHart s j).ustride = some e ∧ ¬ goes e) ∧
        (∀ k, ¬ (device = true ∧ devOf (k / 16) = devOfHart s.cur) → getClus u k = getClus s k) ∧
        ∀ k, device = true → devOf (k / 16) = devOfHart s.cur →
          (∀ e, e ∈ (getClus u k).ctlb ↔ e ∈ (getClus s k).ctlb ∧ ¬ goes e) ∧
          (∀ m ∈ (getClus u k).misses, m.ctx = C → whole = true ∨ m.va.toNat % 2 ^ 56 / 2 ^ 30 = v / 2 ^ 30 → m.stale = true))) ∧
    (∀ l : Local, let j := l.h
      imageWord l 1 = j.hstat ∧ imageWord l 2 = j.hcause ∧ imageWord l 3 = j.hepc ∧ imageWord l 4 = j.cvr ∧
      imageWord l 5 = j.vri ∧ imageWord l 6 = j.hscr ∧ imageWord l 7 = j.faddr ∧ imageWord l 8 = j.vcfg ∧
      imageWord l 9 = j.vl.setWidth 64 ∧ imageWord l 10 = j.xcfg ∧ imageWord l 11 = j.sprd.setWidth 64 ∧
      imageWord l 12 = j.wbase ∧ imageWord l 13 = j.rbar ∧ (∀ i, i < 256 → imageWord l (16 + i) = j.phys i)) ∧
    (∀ (as : List Acc) (u w : State), SlotRuns s 0x67 0 → readS h b = some x → drained s s.cur = true →
      checkAccs s s.cur .store 64 .scalar [] (pieces64 h x.toNat (imageSize h / 64)) = .all as u →
      refusals u s.cur .store as = [] → storeAccs (fun t e => storePast (curLocal s) t s.cur e) u as = .all w →
      ∃ t, exec (.hsave b) s = .next (completed s t) ∧ Issued s.cur w t 2 [] ∧ t.mem = w.mem) ∧
    (SlotRuns s 0x67 0 → readS h b = some x → drained s s.cur = false →
      exec (.hsave b) s = .next (waiting s (.notReady false) s)) ∧
    (∀ (as : List Acc) (u : State), SlotRuns s 0x67 1 → readS h b = some x →
      checkAccs s s.cur .load 64 .scalar [] ((List.range (imageSize h / 64)).map (fun i =>
        { idx := i, va := x + BitVec.ofNat 64 (64 * i), n := 64 })) = .all as u → refusals u s.cur .load as = [] →
      let ws := loadedWords u s.cur as
      (imageBad h ws = true → exec (.hrest b) s = .next (finishSlot s.cur h.prefixLive (badOperand u s.cur))) ∧
      (imageBad h ws = false → ∃ t, exec (.hrest b) s = .next (completed s t) ∧ t.mem = u.mem ∧
        let g := getHart t s.cur
        (∀ i, i < 256 → g.phys i = ws.getD (16 + i) 0) ∧ g.vri = ws.getD 5 0 ∧ g.hscr = ws.getD 6 0 ∧ g.faddr = ws.getD 7 0 ∧
        g.vl = (ws.getD 9 0).setWidth 16 ∧ g.rbar = ws.getD 13 0 ∧ g.hcause = (ws.getD 2 0 &&& regMask 0x001) ∧
        g.mode = (getHart u s.cur).mode ∧ g.idem = (getHart u s.cur).idem ∧ g.ord = (getHart u s.cur).ord ∧
        g.htvec = (getHart u s.cur).htvec ∧ g.ctxid = (getHart u s.cur).ctxid)) ∧
    (SlotRuns s 0x67 2 → readS h b = some x → readS h c = some y →
      (packReady s s.cur = false ∨ x.toNat % 64 ≠ 0 ∨ y.toNat % 16 ≠ 0 → exec (.pack b c) s = .next (operandTrap s)) ∧
      (packReady s s.cur = true → x.toNat % 64 = 0 → y.toNat % 16 = 0 →
        (h.lcnt ≠ 0 ∨ h.scnt ≠ 0 → exec (.pack b c) s = .next (waiting s (.notReady false) s)) ∧
        (h.lcnt = 0 → h.scnt = 0 → ∃ t k, exec (.pack b c) s = .next t ∧ t.mem = s.mem ∧
          (getHart t s.cur).st = .preempted ∧ (getHart t s.cur).chunks = [] ∧ (getHart t s.cur).packed = some k ∧
          k.image = x ∧ k.resume = y ∧ k.htvec = h.htvec ∧ k.ctxid = ctx ∧ k.chunks = h.chunks.length ∧ k.ordtmo = h.ordtmo ∧
          k.section_ = h.secCount ∧ k.idem = h.idem ∧ k.ord = h.ord ∧
          ∀ q, q < 4 → SMap.get [] (getHart t s.cur).spill q = SMap.get [] h.rq q ++ SMap.get [] h.spill q)))

/-- R312, R313: a miss joins the outstanding request for its page or sends a new one, and a fill answers it with the entry,
or with the reason its harts get; one that a `tlbi` has overtaken installs nothing (log 50). R391 to R393: a kick joins an
engine's queue unless five stand there or it is fenced, when its hart takes REMOTE-NACK with FADDR 0 (log 56); the running
transfer waits for each translation it misses and goes on from there, and leaves the queue once its mailbox has been filled: with
STATUS 0 and the checksum when every element has moved, with 2 after a fault, with 1 for a broken descriptor or one that cannot
be read, whose mailbox is then the one that its word 4 gives (log 68); a widened element is copied, sign-extended or converted. R365, R366, R408: a reprojection kick needs a task and room, a job whose
units have all finished ends with its counts in DONE, and one whose copies a full queue does not take keeps its units; a fenced engine has no kicks, and a fenced reprojection unit
takes no job of its device (log 11). R372: FWCTL changes until it is locked. -/
def Obligations.EnginesAndFills : Prop :=
  ∀ (s : State) (hk cl ck k dev : Nat) (va v : DWord),
    let h := cur s
    (∃ t, exec (.translationRequest hk va k) s = .next t ∧ t.mem = s.mem ∧ (validHart hk = false → t = s) ∧
      (validHart hk = true →
        let c := clusKey (coreOf hk)
        let ctx := (getHart s hk).ctxid.toNat
        let same (m : Miss) := m.ctx == ctx && m.page == va.toNat % 2 ^ 56 / 65536
        (∀ m, (getClus s c).misses.find? same = some m →
          (hk ∈ m.harts → t = s) ∧
          (hk ∉ m.harts → (getClus t c).misses = (getClus s c).misses.map (fun x =>
            if x.tag = m.tag then { x with harts := x.harts ++ [hk] } else x))) ∧
        ((getClus s c).misses.find? same = none →
          (freeTag (getClus s c).misses = none ∨ 8 ≤ (SMap.get [] (getHart s (tscOf c * 8)).rq 0).length → t = s) ∧
          ∀ tag, freeTag (getClus s c).misses = some tag → (SMap.get [] (getHart s (tscOf c * 8)).rq 0).length < 8 →
            (getClus t c).misses = (getClus s c).misses ++ [⟨tag, ctx, va.toNat % 2 ^ 56 / 65536, [hk], k, va, false⟩] ∧
            SMap.get [] (getHart t (tscOf c * 8)).rq 0 = SMap.get [] (getHart s (tscOf c * 8)).rq 0 ++
              [requestMsg va ctx ((coreNum (coreOf hk) * 8 + hartNo hk) % 8192) k tag]))) ∧
    (∃ t, exec (.fillc cl v) s = .next t ∧ t.mem = s.mem ∧
      let c := getClus s cl
      ((∀ m ∈ c.misses, m.tag ≠ bits v 15 0) → t = s) ∧
      ∀ m, c.misses.find? (fun m => m.tag == bits v 15 0) = some m →
        (getClus t cl).misses = c.misses.filter (fun x => x.tag != m.tag) ∧
        (m.stale = true → (getClus t cl).fails = c.fails ∧ (getClus t cl).ctlb = c.ctlb) ∧
        (m.stale = false → bits v 63 56 = 1 → (getClus t cl).fails = c.fails ++ m.harts.map (fun h => (h, m.ctx, m.page, 0))) ∧
        (m.stale = false → bits v 63 56 ≠ 1 → bits v 63 56 ≠ 0 ∨ leafBad c.fille = true →
          (getClus t cl).fails = c.fails ++ m.harts.map (fun h => (h, m.ctx, m.page, 2))) ∧
        (m.stale = false → bits v 63 56 = 0 → leafBad c.fille = false → (getClus t cl).fails = c.fails ∧
          ⟨m.ctx, (m.va.toNat % 2 ^ 56) >>> entrySize c.fille, entrySize c.fille, c.fille⟩ ∈ (getClus t cl).ctlb)) ∧
    (∃ t, exec (.twekick ck v) s = .next t ∧ t.mem = s.mem ∧
      ((getCore s ck).engFenced = true → (getHart t s.cur).async = h.async ++ [⟨cREMOTENACK, 4, 0⟩]) ∧
      ((getCore s ck).engFenced = false → (5 ≤ (getCore s ck).kicks.length → t = s) ∧
        ((getCore s ck).kicks.length < 5 →
          t = modCore s ck (fun c => { c with kicks := c.kicks ++ [{ ctx := h.ctxid.toNat, desc := v, dev := devOfHart s.cur }] })))) ∧
    (∃ t, exec (.transferComplete ck) s = .next t ∧ ((getCore s ck).refusedKicks = [] →
      let r := modCore s ck (fun c => { c with refusedKicks := [] })
      ((getCore s ck).kicks = [] → t = r) ∧
      ∀ j js, (getCore s ck).kicks = j :: js → j.report = none → j.fault = none →
        let kicks := (getCore t ck).kicks
        let Ends (u : State) (mbox : Nat) (k : Kick) (status crc : Nat) : Prop := mbox % 8 = 0 →
          (∀ w, engineLocs u ck k.dev k.ctx .fill mbox 8 = .miss w → kicks = { k with report := some (status, crc) } :: js) ∧
          (∀ w, engineLocs u ck k.dev k.ctx .fill mbox 8 = .fault w → kicks = js ∧ t.mem = w.mem) ∧
          ∀ ls w, engineLocs u ck k.dev k.ctx .fill mbox 8 = .ok ls w → kicks = js ∧
            ((∀ l ∈ ls, storable l = true) → (ls.map (homeLoc w)).Nodup → ls.length = 8 →
              readLocs t ls = 2 ^ 63 + status * 2 ^ 61 + crc)
        let Moves (u : State) (k : Kick) : Prop :=
          let d := k.words
          let run := moveElems ck (xferRows d * xferCols d - k.elem) u k
          (∀ w m, run = .miss w m → kicks = m :: js) ∧
          (∀ w m, run = .ok w m → (engineBusy w ck = true → kicks = m :: js) ∧ (engineBusy w ck = false →
            Ends w (xferMbox m.words) m 0 (if xferCrc m.words = true then crcOf m.out else 0))) ∧
          ∀ w m a, run = .fault w m a → (engineBusy w ck = true → kicks = { m with fault := some a } :: js) ∧
            ∀ ls y, engineBusy w ck = false → engineLocs w ck m.dev m.ctx .store (m.desc.toNat + 40) 8 = .ok ls y →
              m.words ≠ [] → Ends (engineWrite y ck m.dev m.ctx (xferScope m.words) (m.desc.toNat + 40) ls a) (xferMbox m.words)
                { m with fault := some a } 2 0
        (j.words ≠ [] → Moves r j) ∧
        (j.words = [] →
          (∀ w, engineLocs r ck j.dev j.ctx .load j.desc.toNat 64 = .miss w → kicks = j :: js ∧ t.mem = w.mem) ∧
          (∀ ls w x z, engineLocs r ck j.dev j.ctx .load j.desc.toNat 64 = .ok ls w →
            engineRead w ck j.dev j.ctx 4 j.desc.toNat ls = (x, z) →
            (xferOk j.desc (toWords x 8) = true → Moves z { j with words := toWords x 8 }) ∧
            (xferOk j.desc (toWords x 8) = false →
              Ends z (xferMbox (toWords x 8)) { j with words := toWords x 8 } 1 0)) ∧
          ∀ w, engineLocs r ck j.dev j.ctx .load j.desc.toNat 64 = .fault w →
            (∀ y, engineLocs w ck j.dev j.ctx .load (j.desc.toNat + 32) 8 = .fault y → kicks = js ∧ t.mem = y.mem) ∧
            ∀ ls y mb z x, engineLocs w ck j.dev j.ctx .load (j.desc.toNat + 32) 8 = .ok ls y →
              engineRead y ck j.dev j.ctx 4 (j.desc.toNat + 32) ls = (mb, z) →
              engineLocs z ck j.dev j.ctx .load (j.desc.toNat + 28) 4 = .fault x → Ends x mb j 1 0))) ∧
    (∀ (d : List DWord) (x : Nat), x < 2 ^ (8 * xferSw d) → xferSw d ≤ xferDw d →
      (xferSw d = xferDw d ∨ xferExt d = 0 → widenElem d x = x) ∧
      (xferExt d = 1 → xferSw d < xferDw d → toSigned (8 * xferDw d) (widenElem d x) = toSigned (8 * xferSw d) x)) ∧
    (∃ t, exec (.engineFence ck) s = .next t ∧ (getCore t ck).kicks = [] ∧ (getCore t ck).engFenced = true ∧
      ((getCore s ck).kicks = [] → (getCore s ck).refusedKicks = [] → t.mem = s.mem ∧ t.harts = s.harts ∧
        Instr.lifetimeRecordWrite (devOf (dieOf ck)) ∈ t.pending)) ∧
    (∃ t, exec (.repkick v) s = .next t ∧ t.mem = s.mem ∧
      (h.task = none ∨ repOut s (devOfHart s.cur) = true → (getHart t s.cur).async = h.async ++ [⟨cREMOTENACK, 4, 0⟩]) ∧
      ∀ j, h.task = some j → repOut s (devOfHart s.cur) = false →
        let js := SMap.get [] s.jobs (devOfHart s.cur)
        (5 ≤ js.length → t = s) ∧
        (js.length < 5 → SMap.get [] t.jobs (devOfHart s.cur) = js ++ [{ ctx := h.ctxid.toNat, launch := j.launch, addr := v }])) ∧
    (∃ t, exec (.reprojectionDone dev) s = .next t ∧ (SMap.get [] s.jobs dev = [] → t = s) ∧
      ∀ j js d, SMap.get [] s.jobs dev = j :: js → ctxWords s dev j.ctx j.addr.toNat 8 = some d →
        (∀ n m, j.ran = some (n, m) → j.units = [] → SMap.get [] t.jobs dev = js ∧
          t = endJob s dev j (d.getD 7 0).toNat (n % 2 ^ 30 * 2 ^ 32 + m % 2 ^ 32)) ∧
        ∀ tpl, ctxWords s dev j.ctx (d.getD 6 0).toNat 16 = some tpl →
          (j.ran = none → jobOk s dev j.ctx j.addr d tpl = false → SMap.get [] t.jobs dev = js) ∧
          ∀ n m us w,
            ((j.ran = none ∧ jobOk s dev j.ctx j.addr d tpl = true ∧
                runUnits dev j d tpl (jobUnits dev d) (s, 0, 0) = .inl (w, n, m, us)) ∨
              (∃ a b, j.ran = some (a, b) ∧ j.units ≠ [] ∧ runUnits dev j d tpl j.units (s, a, b) = .inl (w, n, m, us))) →
            SMap.get [] t.jobs dev = { j with ran := some (n, m), units := us } :: js ∧ t.mem = w.mem ∧
              (us = [] → Instr.reprojectionDone dev ∈ t.pending)) ∧
    (∃ t, exec (.fwctlWrite ck v) s = .next t ∧ (isFwCol s ck = false ∨ (getCore s ck).fwctl.getLsbD 62 = true →
        (getCore t ck).fwctl = (getCore s ck).fwctl) ∧ t = { s with cores := t.cores } ∧
      (isFwCol s ck = true → (getCore s ck).fwctl.getLsbD 62 = false → ∀ i, i < 64 → (getCore t ck).fwctl.getLsbD i =
        (decide (i = 0 ∨ i = 62 ∨ i = 63) && v.getLsbD i)))

/-- R269, R274: the pending trap of lowest rank is taken, recorded as asynchronous, unless the hart is to end its task at the
place where it stands (log 76 names the waits). R22: a task starts with its record's
arguments in `s0` to `s7`, its instance, their number and its block in `s8` to `s10`, in user mode. R345: a cycle counts time
(R397; a correction of 1 ns at a time is log 84), drops heads, and then looks through the die's queues, the higher priority
first and from RR on within one, where the first entry that may start does: on a core that can host it with its inputs
resident, that of the fewest running harts and then the nearest from the core pointer, on its lowest free hart; one whose inputs
are nowhere resident is staged. A tile arrives, a queue has room, a launch with no task left ends. R232, R234, R349, R351: a blend's channels; a commit is released
and performs in program order, delayed by a full queue, where it holds one place at a time (log 83), and by its own stores under
way; a token reaches one die after another. R282, R284: pre-emption, a message for which changes nothing while
harts are leaving, its deadline, and the return of one context, with ASYNC 0 in HCAUSE (log 55); start and wake messages (that of
an engine hart is the model's reading, log 80; one for a core without a role or a compute core is ignored, log 56). -/
def Obligations.HartAndTaskSteps : Prop :=
  ∀ (s : State) (hk ck dk q id dom : Nat) (v : DWord),
    let g := getHart s hk
    (∃ t, exec (.asyncTrap hk) s = .next t ∧
      (g.endsNow = true → t = endHart s hk g.ending) ∧
      (g.endsNow = false → g.takeable = false → t = s) ∧
      (g.endsNow = false → g.takeable = true → isEngine hk = false → g.htvec ≠ 0 → ∃ a ∈ g.async, (∀ b ∈ g.async, asyncRank a.cause ≤ asyncRank b.cause) ∧
        let n := getHart t hk
        n.async = g.async.erase a ∧ n.pc = g.htvec ∧ n.ie = false ∧ n.pie = true ∧ n.pmode = g.mode ∧
        n.hcause = BitVec.ofNat 64 (a.info % 2 ^ 32 * 2 ^ 32 + 2 ^ 8 + a.cause) ∧ n.faddr = a.faddr ∧
        (g.conv = none → n.hepc = BitVec.ofNat 64 (g.pc.toNat / 16 * 16) ∧ n.cvr = 0) ∧ n.kept = g.q ∧ t.mem = s.mem)) ∧
    (∃ t, exec (.hintStallExpiry hk) s = .next t ∧ getHart t hk = (if g.stall ≤ 1 then { g with stall := 0 } else g) ∧
      t.mem = s.mem) ∧
    (∀ (t : Task) (ctx depth : Nat) (rstat block : DWord) (cs : List Nat),
      let n := Hart.start t ctx depth rstat block cs g
      n.pc = t.words.getD 0 0 ∧ (∀ i, i < 8 → n.phys i = t.words.getD (6 + i) 0) ∧ n.phys 8 = BitVec.ofNat 64 t.inst ∧
      n.phys 9 = BitVec.ofNat 64 t.icount ∧ n.phys 10 = block ∧ n.mode = 0 ∧ n.ie = true ∧ n.pxp = false ∧
      n.idem = (t.words.getD 1 0).getLsbD 0 ∧ n.vcfg = 0x7003 ∧ n.vl = 0 ∧ n.wbase = 0 ∧ n.sprd = 0 ∧ n.lcnt = 0 ∧ n.scnt = 0 ∧
      n.sticky = 0 ∧ n.q = {} ∧ n.task = some t ∧ n.chunks = cs ∧ n.depth = depth ∧
      (g.lastCtx ≠ ctx → g.lastCtx ≠ 0 → ∀ i, 11 ≤ i → n.phys i = 0)) ∧
    (∃ t, exec (.dispatchCycle dk) s = .next t ∧ (64 ≤ dk ∨ (getDev s (devOf dk)).off = true → t = s) ∧
      (dk < 64 → (getDev s (devOf dk)).off = false →
        let d := getDie s dk
        let n := (d.phase + 1000) / max 1 d.clk
        (s.queues = [] → (getDie t dk).phase = (d.phase + 1000) % max 1 d.clk ∧ ∃ k, (getDie t dk).tb = d.tb + BitVec.ofNat 64 k ∧
          (dk = 0 ∨ routed s (devOf dk) 0 = false ∨ d.slew + n < 10000 → k = n) ∧
          (k = n ∨ (k = n + 1 ∧ d.tb.toNat + n < (getDie s 0).tb.toNat) ∨
            (k = n - 1 ∧ (getDie s 0).tb.toNat < d.tb.toNat + n))) ∧
        let u := dropAll (tickDie s dk) dk
        let tb := (getDie u dk).tb.toNat
        let due (qk : Nat) (q : Queue) (e : QEntry) (l : Launch) (ds : List (List DWord)) : Prop :=
          qk ∈ servedQueues u dk ∧ SMap.find u.queues qk = some q ∧ q.kind = 0 ∧ q.ordd = false ∧ q.fenced = false ∧
          q.entries = [e] ∧ e.aside = none ∧ e.staged = none ∧ e.tiles = none ∧ beforeLead q e tb = false ∧
          SMap.find u.launches e.launch = some l ∧ entryRope l e = 0 ∧ consider u qk e l = .ok ds
        let rank (qk : Nat) := (qk % 4096 + 4095 - SMap.get 0 (getDie u dk).rr ((SMap.find u.queues qk).map Queue.prio |>.getD 0)) % 4096
        let after (qk j : Nat) : Prop := ∀ r q, SMap.find u.queues j = some r → SMap.find u.queues qk = some q →
          r.entries = [] ∨ r.fenced = true ∨ r.prio < q.prio ∨ (r.prio = q.prio ∧ rank qk < rank j) ∨
          (r.kind = 0 ∧ ∀ e es, waitingEntries r none = e :: es → e.staged = none ∧ beforeLead r e tb = true)
        let hosts (qk : Nat) (q : Queue) (e : QEntry) (l : Launch) (ds : List (List DWord)) (c : Nat) : Prop :=
          c ∈ (diesOfDev (qk / 4096)).flatMap tilesOfDie ∧ freeHarts u q e l ds c ≠ []
        let turn (c : Nat) := (coreNum c + 768 - (getDie u dk).corePtr % 768) % 768
        (∀ qk q e l, due qk q e l [] → List.Pairwise (fun i j => i % 4096 < j % 4096) (servedQueues u dk) →
          (∀ j ∈ servedQueues u dk, j ≠ qk → after qk j) → isEarly e tb = false → u.tokens = [] →
          (∃ c, hosts qk q e l [] c) → ∃ c i is k r, hosts qk q e l [] c ∧ freeHarts u q e l [] c = i :: is ∧
            (∀ b, hosts qk q e l [] b → runningOn u c < runningOn u b ∨ (runningOn u c = runningOn u b ∧ turn c ≤ turn b)) ∧
            (getHart t (c * 8 + i)).task = some k ∧ k.words = e.words ∧ k.launch = e.launch ∧ k.inst = e.inst ∧
            k.icount = e.total ∧ k.ginst = e.ginst ∧ k.queue = qk ∧ (getHart t (c * 8 + i)).st = .running ∧
            (getHart t (c * 8 + i)).pc = e.words.getD 0 0 ∧ (∀ j, j ≠ c * 8 + i → getHart t j = getHart u j) ∧
            SMap.find t.queues qk = some r ∧ r.pops = q.pops + 1 ∧
            r.entries = (if e.icount ≤ e.inst + 1 then [] else [{ e with inst := e.inst + 1, staged := none, tiles := none }]) ∧
            SMap.get 0 (getDie t dk).rr q.prio = qk % 4096 ∧ (getDie t dk).corePtr = (coreNum c + 1) % 768) ∧
        ∀ qk q e l ds, due qk q e l ds → servedQueues u dk = [qk] →
          ((∀ c, ¬ hosts qk q e l ds c) → t.harts = u.harts ∧ t.cores = u.cores) ∧
          ((∃ c, hosts qk q e l ds c) → (∀ c, hosts qk q e l ds c → ¬ ∀ d ∈ ds, tileReady (getCore u c) e.launch e.uid d = true) →
            t.harts = u.harts ∧ ∃ c i r x, hosts qk q e l ds c ∧ SMap.find t.queues qk = some r ∧ r.entries = [x] ∧
              x = { e with staged := some ([c], i), tiles := some ds } ∧ i ∈ freeHarts u q e l ds c))) ∧
    (∃ t, exec (.tileResident ck id) s = .next t ∧
      let c := getCore s ck
      ((∀ e ∈ c.tiles, e.id ≠ id) → t = s) ∧
      ∀ e b us bs, c.tiles.find? (fun e => e.id == id) = some e → c.blocks.find? (fun b => b.launch == e.launch) = some b →
        tileUsers s ck e = us → us ≠ [] →
        readTile s (devOf (dieOf ck)) e.ctx e.desc 0 (tileRows e.desc) = Sum.inl bs → ScratchHome s →
        (∀ j, j < bs.length → memGet t.mem (scratchLoc ck (b.off + tileDst e.desc + j)) = bs.getD j 0) ∧
        (∀ l, (∀ j, j < bs.length → l ≠ scratchLoc ck (b.off + tileDst e.desc + j)) → memGet t.mem l = memGet s.mem l) ∧
        ∀ x ∈ (getCore t ck).tiles, x.id = id → x.resident = true) ∧
    (∃ t, exec (.queueRoom q) s = .next t ∧ t.mem = s.mem ∧ ∀ r, SMap.find s.queues q = some r →
      (r.stalled = [] → t = s) ∧
      (∀ k ps, r.stalled = .hart k :: ps → (queueFull r 0 = true → t = s) ∧
        (queueFull r 0 = false → Instr.convoyIssue k ∈ t.pending ∧ t = { s with pending := t.pending })) ∧
      (∀ e ps, r.stalled = .held e :: ps → (queueFull r e.tile = true → t = s) ∧
        (queueFull r e.tile = false → ∃ u, SMap.find t.queues q = some u ∧ u.stalled = ps ∧ u.seq = r.seq + 1 ∧
          u.entries.length = r.entries.length + 1)) ∧
      (∀ u ps, r.stalled = .commit u :: ps → queueFull r 0 = false → Instr.commitPerformed u ∈ t.pending ∧
        t = { s with pending := t.pending }) ∧
      (∀ d ps, r.stalled = .unit d :: ps → queueFull r 0 = false → Instr.reprojectionDone (devOf d) ∈ t.pending ∧
        t = { s with pending := t.pending }) ∧
      (∀ w e ps x, r.stalled = .walk w e :: ps → queueFull r 0 = false → SMap.find s.walks w = some x → ∃ u,
        SMap.find t.queues q = some u ∧ u.stalled = ps ∧ u.entries.length = r.entries.length + 1 ∧
        SMap.find t.walks w = some ({ x with blocked := false } : Walk).pass)) ∧
    (∃ t, exec (.launchEnd id) s = .next t ∧ t.mem = s.mem ∧ (SMap.find s.launches id = none → t = s) ∧
      ∀ l, SMap.find s.launches id = some l → (l.live ≠ 0 → t = s) ∧
        (l.live = 0 → SMap.find t.launches id = none ∧ (∀ c, ∀ b ∈ (getCore t c).blocks, b.launch ≠ id) ∧
          ∀ w n x, l.walk = some (w, n) → SMap.find s.walks w = some x →
            SMap.find t.walks w = some { x with outstanding := x.outstanding.filter (fun i => i != n) })) ∧
    (∀ a b al, a < 256 → b < 256 → al < 256 → blendChannel 0 false a b al = a ∧
      blendChannel 1 false a b al = min 255 (rneDiv (255 * a + b * (255 - al)) 255) ∧
      blendChannel 2 false a b al = rneDiv (a * al + b * (255 - al)) 255 ∧
      blendChannel 2 true a b al = rneDiv (255 * al + b * (255 - al)) 255 ∧
      blendChannel 3 false a b al = min 255 (a + b) ∧ blendChannel 4 false a b al = rneDiv (a * b) 255) ∧
    (∃ t, exec (.commitRelease dom) s = .next t ∧ t.mem = s.mem ∧ ∀ d, SMap.find s.domains dom = some d →
      (waitingCommit s dom d.low = none → t = s) ∧
      ∀ u c, waitingCommit s dom d.low = some u → SMap.find s.commits u = some c →
        SMap.find t.commits u = some { c with released := true } ∧ Instr.commitPerformed u ∈ t.pending) ∧
    (∃ t, exec (.commitPerformed id) s = .next t ∧ (SMap.find s.commits id = none → t = s) ∧
      ∀ c, SMap.find s.commits id = some c → (c.released = false ∨ sending s id = true → t = s) ∧
        (c.released = true → sending s id = false →
          let goOn (z : State) (es : List Buffered) : Prop := ∀ u r, applyEntries c z es = (u, r) →
            (r = [] → sending u id = false →
              t = closeTask { u with commits := SMap.del u.commits id } c.die c.ctx c.task c.word true) ∧
            (r ≠ [] ∨ sending u id = true → t = { u with commits := SMap.put u.commits id { c with rest := some r } })
          let ws := resolveBytes s c.dev c.ctx (commitBytes c.task.buf)
          (∀ es, c.rest = some es → goOn s es) ∧
          (c.rest = none → partialPoison s id ws = true → t = fenceContext s c.dev c.ctx 9 c.hart 0) ∧
          (c.rest = none → partialPoison s id ws = false →
            (fullQueue s c = none → goOn (healSectors (giveUpPlaces s (fun x => decide (x = .commit id))) id ws) c.task.buf) ∧
            ∀ qk x, fullQueue s c = some (qk, x) → SMap.find s.queues qk = some x →
              (∀ p ∈ s.queues, .commit id ∉ p.2.stalled) → t.mem = s.mem ∧ t.commits = s.commits ∧
              SMap.find t.queues qk = some { x with stalled := x.stalled ++ [.commit id] }))) ∧
    (∀ (c : Commit) (e : Buffered) (es : List Buffered), sending (applyBuffered c s e) c.task.uid = false →
      applyEntries c s (e :: es) = applyEntries c (applyBuffered c s e) es) ∧
    (∃ t, exec (.cancelToken id) s = .next t ∧ (SMap.find s.tokens id = none → t = s) ∧
      ∀ k d ds, SMap.find s.tokens id = some k → k.dies = d :: ds →
        (256 ≤ (getDie s d).tokens.length → t = s) ∧
        ((getDie s d).tokens.length < 256 →
          (ds = [] → SMap.find t.tokens id = none ∧ Instr.memoryOpPerformed k.op ∈ t.pending) ∧
          (ds ≠ [] → SMap.find t.tokens id = some { k with dies := ds } ∧ Instr.cancelToken id ∈ t.pending))) ∧
    (∃ t, exec (.preemptMessage ck v) s = .next t ∧ t.mem = s.mem ∧
      (isCompute s ck = false ∨ leavingOn s ck ≠ [] → t = s) ∧
      (isCompute s ck = true → leavingOn s ck = [] → ∃ p, (getCore t ck).preempt = some p ∧ p.deadline = v.toNat ∧
        ∀ k, k ∈ p.harts ↔ k ∈ hartsOf ck ∧ ((getHart s k).st = .running ∨ (getHart s k).st = .parked ∨
          (getHart s k).st = .follower)) ∧
      (isCompute s ck = true → leavingOn s ck = [] → ∀ k ∈ hartsOf ck, (getHart s k).st = .running →
        (getHart t k).async = (getHart s k).async ++ [⟨cPREEMPT, 0, 0⟩])) ∧
    (∃ t, exec (.preemptDeadline ck) s = .next t ∧ ((getCore s ck).preempt = none → t = s) ∧
      ∀ p, (getCore s ck).preempt = some p → ((getDie s (dieOf ck)).tb.toNat < p.deadline → t = s) ∧
        (p.deadline ≤ (getDie s (dieOf ck)).tb.toNat → leavingOn t ck = [])) ∧
    (∀ ctx, ∃ t, exec (.contextReturn (ck, ctx)) s = .next t ∧ (leavingOn s ck ≠ [] → t = s) ∧
      (leavingOn s ck = [] → ∀ k ∈ hartsOf ck, (∀ p, (getHart s k).packed = some p → p.ctxid ≠ ctx) →
        (getHart t k).packed = (getHart s k).packed ∧ (getHart t k).st = (getHart s k).st) ∧
      ∀ k p, leavingOn s ck = [] → k ∈ hartsOf ck → (∀ j ∈ hartsOf ck, j ≠ k → (getHart s j).packed = none) →
        (getHart s k).packed = some p → p.ctxid = ctx → (getHart s k).st = .preempted → (freeChunks s ck p.chunks).length = p.chunks →
        let n := getHart t k
        n.pc = p.resume ∧ n.st = .running ∧ n.htvec = p.htvec ∧ n.hscr = p.image ∧ n.mode = 1 ∧ n.ie = false ∧
        n.hcause = BitVec.ofNat 64 (2 ^ 32 + cPREEMPT) ∧ n.idem = p.idem ∧ n.ord = p.ord ∧ n.ordtmo = p.ordtmo ∧
        n.ctxid = BitVec.ofNat 16 p.ctxid ∧ n.vcfg = 0 ∧ n.vl = 0 ∧ n.chunks.length = p.chunks ∧ (∀ i, n.phys i = 0) ∧ n.task = (getHart s k).task ∧
        n.packed = none ∧ (getCore t ck).preempt = none ∧
        ∀ i, i < 4 → SMap.get [] n.rq i = (SMap.get [] (getHart s k).spill i).take 8) ∧
    (∃ t, exec (.startMessage hk v) s = .next t ∧
      let may := validHart hk && (isTsc (unitOf (coreOf hk)) || decide (roleOf s (coreOf hk) ≠ 0))
        && !(getDev s (devOfHart hk)).down
      (may = false ∧ isEngine hk = false ∨ g.st ≠ .idle → t = s) ∧
      (isEngine hk = true → validHart hk = true → g.st = .idle → (getCore s (coreOf hk)).engFenced = false →
        (getDev s (devOfHart hk)).down = false → ∃ n, t = setHart s hk n ∧ n.pc = BitVec.ofNat 64 (v.toNat / 16 * 16) ∧
          n.st = .running ∧ n.hstat = 0 ∧
          ∀ j js, (getCore s (coreOf hk)).kicks = j :: js → n.ctxid = BitVec.ofNat 16 j.ctx ∧
            (g.lastCtx = j.ctx → n.sregs = g.sregs) ∧ (g.lastCtx ≠ j.ctx → g.lastCtx ≠ 0 → n.sregs = [])) ∧
      (may = true → isEngine hk = false → g.st = .idle → ∃ n, t = setHart s hk n ∧ n = { g with
        pc := BitVec.ofNat 64 (v.toNat / 16 * 16), st := .running, started := true, hstat := 3 })) ∧
    (∃ t, exec (.wakeMessage hk) s = .next t ∧ (validHart hk = false ∨ g.wait ≠ .wfi → t = s) ∧
      (validHart hk = true → g.wait = .wfi → t = setHart s hk { g with
        st := if g.st = .parked then (if g.inRope ∧ g.ropeMember ≠ 0 then .follower else .running) else g.st,
        grant := some 0 }))

/-- R377: a doorbell takes a tail that runs ahead, ignores a stale one and faults one out of range; one of a queue that does not
exist or of another die's queue is ignored (the model's reading, log 29), and a dead device answers no host (log 60). R378: an
entry read from a graph queue begins a walk, one read from an admin queue becomes a request; HEAD moves past a malformed one too
(log 13). R379 to R382: each node passes when what it names
is done: a launch enters its queue or waits, a copy is kicked, a future is filled or full, a time has come, a predicate
chooses the next node; INDIRECT opens a buffer, END closes one or the entry. R383, R384: a fault ends the walk and fences its
queue, and a cancelled walk ends, with status 2, when what it started has, a WAIT or TIMED under way among it, also past its
last END. -/
def Obligations.CommandNodes : Prop :=
  ∀ (s : State) (dk sqn sq w : Nat) (v : DWord) (host : Bool),
    (∃ t, exec (.doorbell dk sqn v host) s = .next t ∧
      let key := devOf dk * 4096 + sqn
      ((host = true ∧ (getDev s (devOf dk)).dead = true) ∨ SMap.find s.sqs key = none → t = s) ∧
      ∀ q, SMap.find s.sqs key = some q → (host = false ∨ (getDev s (devOf dk)).dead = false) →
        let T : BitVec 32 := v.setWidth 32
        let H := BitVec.ofNat 32 q.head
        let size := 2 ^ (bits (q.desc.getD 1 0) 7 0 % 32)
        q.head < 2 ^ 32 → q.tail < 2 ^ 32 →
        (sqDie (devOf dk) q ≠ dk → t = s) ∧
        (sqn < 4096 → sqDie (devOf dk) q = dk →
          ((T - H).toNat ≤ size → (BitVec.ofNat 32 q.tail - H).toNat < (T - H).toNat →
            t = { s with sqs := SMap.put s.sqs key { q with tail := T.toNat } }) ∧
          ((T - H).toNat ≤ size → (T - H).toNat ≤ (BitVec.ofNat 32 q.tail - H).toNat → t = s) ∧
          (size < (T - H).toNat → (H - T).toNat ≤ size → t = s) ∧
          (size < (T - H).toNat → size < (H - T).toNat → q.fenced = true → t = s) ∧
          (size < (T - H).toNat → size < (H - T).toNat → q.fenced = false →
            SMap.find t.sqs key = some { q with fenced := true }))) ∧
    (∃ t, exec (.submissionEntry sq) s = .next t ∧ (SMap.find s.sqs sq = none → t = s) ∧
      ∀ q, SMap.find s.sqs sq = some q → (sqReady s sq q = false → t = s) ∧
        (sqReady s sq q = true →
          let moved (f : Sq → Sq) := SMap.find t.sqs sq = some (f { q with head := (q.head + 1) % 2 ^ 32 })
          (ownerWords s (sq / 4096) q.ctx (q.entryAt q.head) 8 = none → moved (fun q => { q with fenced := true })) ∧
          ∀ e, ownerWords s (sq / 4096) q.ctx (q.entryAt q.head) 8 = some e →
            (q.admin = false → bits (e.getD 1 0) 32 32 = 0 →
              (entryOk e = false → moved (fun q => { q with fenced := true })) ∧
              (entryOk e = true → ∃ id x, moved (fun q => { q with last := some id }) ∧ SMap.find t.walks id = some x ∧
                x.frames = [{ buf := e.getD 0 0 }] ∧ x.ginst = bits (e.getD 1 0) 31 0 ∧ x.done = e.getD 2 0 ∧ x.ctx = q.ctx ∧
                x.sq = sq ∧ x.outstanding = [] ∧ x.cancelled = false ∧ t.mem = s.mem)) ∧
            (q.admin = true → e.getD 1 0 = 0 →
              let op := bits (e.getD 0 0) 31 0
              let good := decide (bits (e.getD 0 0) 63 32 = 0) && argsOk op (e.drop 3) &&
                contextOk (sq % 4096) q.ctx op ((e.drop 3).getD 4 0).toNat
              moved id ∧ (good = true → ∃ id a, SMap.find t.admins id = some a ∧ a.op = op ∧ a.args = e.drop 3 ∧
                a.done = e.getD 2 0 ∧ a.bad = false ∧ adminEvent op id ∈ t.pending ∧ t.mem = s.mem)))) ∧
    (∀ p ∈ [(1, Instr.launchNode w), (2, .copyNode w), (3, .signalNode w), (4, .waitNode w), (5, .timedNode w),
        (6, .condNode w), (7, .loopNode w), (8, .indirectNode w), (0, .endNode w)],
      (SMap.find s.walks w = none → exec p.2 s = .next s) ∧
      ∀ x c, SMap.find s.walks w = some x → SMap.find s.ctxs (x.dev * 65536 + x.ctx) = some c →
        (c.fenced = true → ∃ t, exec p.2 s = .next t ∧ SMap.find t.walks w = none ∧ t.mem = s.mem) ∧
        (c.fenced = false → (x.blocked = true → exec p.2 s = .next s) ∧
          (x.blocked = false → x.cancelled = true → x.begun = false ∨ x.ended = true →
            (x.outstanding ≠ [] → exec p.2 s = .next s) ∧
            (x.outstanding = [] → exec p.2 s = .next (endWalk s w x 2))) ∧
          (x.blocked = false → x.cancelled = false → x.ended = true →
            exec p.2 s = .next (if x.outstanding = [] then endWalk s w x 0 else s)) ∧
          (x.blocked = false → x.cancelled = false ∨ x.begun = true → x.ended = false →
            (∀ r, reachNode s x = .fault r → ∃ t, exec p.2 s = .next t ∧ SMap.find t.walks w = none ∧
              ∀ q, SMap.find s.sqs x.sq = some q → ∃ u, SMap.find t.sqs x.sq = some u ∧ u.fenced = true) ∧
            (∀ y n, reachNode s x = .node y n → exec p.2 s = exec p.2 (setWalk s w y)) ∧
            (∀ n, x.cur = some n → nodeKind n = p.1 → nodeFence n = true → x.outstanding ≠ [] → exec p.2 s = .next (setWalk s w x))))) ∧
    (∀ (x : Walk) (c : Ctx) (n : List DWord), SMap.find s.walks w = some x → SMap.find s.ctxs (x.dev * 65536 + x.ctx) = some c →
      c.fenced = false → x.blocked = false → x.cancelled = false ∨ x.begun = true → x.ended = false → x.cur = some n →
      nodeFence n = false ∨ x.outstanding = [] →
      let s1 := setWalk s w x
      let node := (x.frames.headD { buf := 0 }).node
      let To (i : Instr) (y : Walk) := ∃ t, exec i s = .next t ∧ SMap.find t.walks w = some y
      let Quiet (i : Instr) (y : Walk) := exec i s = .next (setWalk s1 w y)
      let Ends (i : Instr) := ∃ t, exec i s = .next t ∧ SMap.find t.walks w = none
      (nodeKind n = 1 →
        (∀ r, readLaunch s1 x.dev x.ctx x.ginst (nodeAddr n) = .fault r → Ends (.launchNode w)) ∧
        ∀ l r qk q, readLaunch s1 x.dev x.ctx x.ginst (nodeAddr n) = .ok l r qk → SMap.find s.queues qk = some q →
          let y := { x with outstanding := x.outstanding ++ [x.nextId], nextId := x.nextId + 1 }
          (queueFull q 0 = false → q.stalled = [] → ∃ t u id e, exec (.launchNode w) s = .next t ∧
            SMap.find t.walks w = some y.pass ∧ SMap.find t.queues qk = some u ∧ e ∈ u.entries ∧ e.kind = 1 ∧ e.launch = id ∧
            e.icount = l.live ∧ e.ginst = x.ginst ∧ e.words = r.set 3 (BitVec.ofNat 64 x.ginst) ∧
            SMap.find t.launches id = some { l with walk := some (w, x.nextId) } ∧ t.mem = s.mem) ∧
          (queueFull q 0 = true ∨ q.stalled ≠ [] → To (.launchNode w) { y with blocked := true })) ∧
      (nodeKind n = 2 → (engineFor s1 x.die = none → exec (.copyNode w) s = .next s1) ∧
        ∀ ck, engineFor s1 x.die = some ck → ∃ t, exec (.copyNode w) s = .next t ∧ t.mem = s.mem ∧
          (getCore t ck).kicks = (getCore s ck).kicks ++ [{ ctx := x.ctx, desc := n.getD 1 0, dev := x.dev, walk := some (w, x.nextId) }] ∧
          SMap.find t.walks w = some ({ x with outstanding := x.outstanding ++ [x.nextId], nextId := x.nextId + 1 } : Walk).pass) ∧
      (nodeKind n = 3 → (ctxFill s1 x.die x.ctx (nodeAddr n) (nodeValue n) (nodeScope n) = none → Ends (.signalNode w)) ∧
        ∀ u, ctxFill s1 x.die x.ctx (nodeAddr n) (nodeValue n) (nodeScope n) = some u →
          exec (.signalNode w) s = .next (setWalk u w x.pass)) ∧
      (nodeKind n = 4 → (ctxRead s1 x.dev x.ctx (nodeAddr n) 8 = none → Ends (.waitNode w)) ∧
        ∀ r, ctxRead s1 x.dev x.ctx (nodeAddr n) 8 = some r →
          exec (.waitNode w) s = .next (if 2 ^ 63 ≤ r then setWalk s1 w x.pass else setWalk s1 w { x with begun := true })) ∧
      (nodeKind n = 5 → exec (.timedNode w) s = .next
        (if nodeAddr n + (if (n.getD 2 0).getLsbD 0 then x.start else 0) ≤ (getDie s x.die).tb.toNat then setWalk s1 w x.pass
          else setWalk s1 w { x with begun := true })) ∧
      (nodeKind n = 6 → (ctxRead s1 x.dev x.ctx (nodeAddr n) 8 = none → Ends (.condNode w)) ∧
        ∀ r, ctxRead s1 x.dev x.ctx (nodeAddr n) 8 = some r →
          ((r ≠ 0 ↔ (n.getD 0 0).getLsbD 8 = false) → Quiet (.condNode w) x.pass) ∧
          (¬ (r ≠ 0 ↔ (n.getD 0 0).getLsbD 8 = false) →
            Quiet (.condNode w) { x.goto (node + 1 + nodeParam n) with passed := x.passed + 1 })) ∧
      (nodeKind n = 7 → (ctxRead s1 x.dev x.ctx (nodeAddr n) 8 = none → Ends (.loopNode w)) ∧
        ∀ r, ctxRead s1 x.dev x.ctx (nodeAddr n) 8 = some r →
          let count := SMap.get 0 (x.frames.headD { buf := 0 }).counts node
          ((r ≠ 0 ↔ (n.getD 0 0).getLsbD 8 = false) → count < nodeMaxIter n →
            Quiet (.loopNode w) { (x.setCount node (count + 1)).goto (nodeParam n) with passed := x.passed + 1 }) ∧
          ((r ≠ 0 ↔ (n.getD 0 0).getLsbD 8 = false) → nodeMaxIter n ≤ count →
            Quiet (.loopNode w) ({ x.setCount node 0 with limit := true } : Walk).pass) ∧
          (¬ (r ≠ 0 ↔ (n.getD 0 0).getLsbD 8 = false) →
            Quiet (.loopNode w) ({ x.setCount node 0 with limit := x.limit } : Walk).pass)) ∧
      (nodeKind n = 8 →
        (x.frames.length ≤ 4 → (∀ f ∈ x.frames, f.buf.toNat ≠ nodeAddr n) →
          Quiet (.indirectNode w) { x with frames := { buf := n.getD 1 0 } :: x.frames, cur := none }) ∧
        (4 < x.frames.length ∨ (∃ f ∈ x.frames, f.buf.toNat = nodeAddr n) → Ends (.indirectNode w))) ∧
      (nodeKind n = 0 →
        (∀ f g fs, x.frames = f :: g :: fs →
          Quiet (.endNode w) ({ x with frames := g :: fs, passed := x.passed + 1 } : Walk).pass) ∧
        (x.frames.length ≤ 1 → (x.outstanding = [] → Ends (.endNode w)) ∧
          (x.outstanding ≠ [] → Quiet (.endNode w) { x with passed := x.passed + 1, ended := true }))))

/-- R374, R375: a request whose turn it is completes with status 0, 1 or 2 and leaves the table, or waits: contexts (R374),
task queues (R331), submission queues (R376), page mappings and set-aside tasks (R309, R343), migration in three steps (R328),
ticket domains (R350), draws opened, sealed and closed (R353, R356, R363), and the reset of a queue (R383). The result of every
request but CTXNEW and a DRAWSEAL that succeeds (0) is a free value (log 10), requests on a busy object follow log 13, and
the place of the records that software may read is the model's (log 82). -/
def Obligations.AdminRequests : Prop :=
  ∀ (s : State) (id : Nat) (a : Admin), SMap.find s.admins id = some a →
    let E (op : Nat) (i : Instr) (P : State → Prop) : Prop := ∃ t, exec i s = .next t ∧
      (a.op ≠ op ∨ a.bad = true ∨ (getDev s a.dev).off = true → t = s) ∧
      (a.op = op → a.bad = false → (getDev s a.dev).off = false → P t)
    let key := a.dev * 4096 + a.arg 0
    let mine (c : Nat) := a.sq % 4096 = 0 ∨ c = a.ctx
    let Recorded (u : State) (at_ : Nat) (ws : List Nat) : Prop := (∀ j, j < 64 → homeLoc s (at_ + j) = at_ + j) →
      ∀ k, k < 8 → readN u (at_ + 8 * k) 8 = ws.getD k 0 % 2 ^ 64
    (a.op = 13 → finishAdmin s id 0 = completeAdmin (fresh s).2 id 0 0) ∧
    (∀ st r u, completeAdmin s id st r = u → SMap.find u.admins id = none ∧ u =
      ownerFill { s with admins := SMap.del s.admins id } a.die a.qctx a.done.toNat (st * 2 ^ 60 + r % 2 ^ 32) 6) ∧
    E 1 (.ctxnew id) (fun t => (ownerWords s a.dev 0 (a.arg 0) 8 = none → t = finishAdmin s id 1) ∧
      ∀ ws, ownerWords s a.dev 0 (a.arg 0) 8 = some ws →
        let k := a.dev * 65536 + (ws.getD 0 0).toNat
        (recordImageOk ws = false ∨ SMap.find s.ctxs k ≠ none → t = finishAdmin s id 1) ∧
        (recordImageOk ws = true → SMap.find s.ctxs k = none →
          ∃ u, t = completeAdmin u id 0 (ws.getD 0 0).toNat ∧
            u = { s with ctxs := SMap.put s.ctxs k { words := ws }, mem := u.mem } ∧
            Recorded u (contextRecord a.dev (ws.getD 0 0).toNat) (ws.map BitVec.toNat))) ∧
    E 2 (.ctxdel id) (fun t => (SMap.find s.ctxs (a.dev * 65536 + a.arg 0) = none → t = finishAdmin s id 1) ∧
      (SMap.find s.ctxs (a.dev * 65536 + a.arg 0) ≠ none → (contextBusy s a.dev (a.arg 0) = true → t = finishAdmin s id 2) ∧
        (contextBusy s a.dev (a.arg 0) = false → (contextAccesses s a.dev (a.arg 0) = true → t = s) ∧
          (contextAccesses s a.dev (a.arg 0) = false → ∃ u, t = finishAdmin u id 0 ∧
            Recorded u (contextRecord a.dev (a.arg 0)) [] ∧ (s.forward = [] → ∀ l, l < tableBase a.dev ∨ tableBase a.dev + 2 ^ 23 ≤ l →
              memGet u.mem l = memGet s.mem l) ∧ SMap.find u.ctxs (a.dev * 65536 + a.arg 0) = none ∧
            ∀ p ∈ u.queues, p.1 / 4096 = a.dev → p.2.ctx ≠ a.arg 0)))) ∧
    E 3 (.qnew id) (fun t => (ctxWords s a.dev a.ctx (a.arg 1) 8 = none → t = finishAdmin s id 1) ∧
      ∀ d, ctxWords s a.dev a.ctx (a.arg 1) 8 = some d →
        let q := queueOf d
        let sound := queueOk q = true ∧ SMap.find s.queues key = none ∧ SMap.find s.ctxs (a.dev * 65536 + q.ctx) ≠ none ∧
          mine q.ctx ∧ caddyHolds s a.dev q = true
        (sound → q.entries = [] ∧ q.ctl = d.getD 0 0 ∧ ∃ u, t = finishAdmin u id 0 ∧
          u = { s with queues := SMap.put s.queues key q, mem := u.mem } ∧ Recorded u (queueRecord key) q.words) ∧
        (¬ sound → t = finishAdmin s id 1)) ∧
    E 4 (.qdel id) (fun t => (SMap.find s.queues key = none → t = finishAdmin s id 1) ∧
      ∀ q, SMap.find s.queues key = some q → (¬ mine q.ctx → t = finishAdmin s id 1) ∧
        (mine q.ctx → ∃ u, t = finishAdmin u id 0 ∧ SMap.find u.queues key = none ∧ Recorded u (queueRecord key) [])) ∧
    E 5 (.sqnew id) (fun t => (ctxWords s a.dev a.ctx (a.arg 0) 4 = none → t = finishAdmin s id 1) ∧
      ∀ d, ctxWords s a.dev a.ctx (a.arg 0) 4 = some d →
        let sqn := bits (d.getD 1 0) 47 32
        let c := bits (d.getD 1 0) 31 16
        let pa := doorbellAt a.dev (bits (d.getD 1 0) 55 48) sqn
        let sound := sqOk d = true ∧ SMap.find s.sqs (a.dev * 4096 + sqn) = none ∧ mine c ∧ sqn ≠ 0 ∧ a.arg 1 < 2 ^ 56 ∧
          a.arg 1 % 65536 = pa % 65536
        (¬ sound → t = finishAdmin s id 1) ∧
        (sound → (writeLeaf s a.dev c (a.arg 1) (doorbellLeaf pa) = none → t = finishAdmin s id 1) ∧
          ∀ u, writeLeaf s a.dev c (a.arg 1) (doorbellLeaf pa) = some u →
            let q : Sq := { desc := d, ctx := c, doorVa := BitVec.ofNat 64 (a.arg 1) }
            t = finishAdmin { u with sqs := SMap.put u.sqs (a.dev * 4096 + sqn) q } id 0)) ∧
    E 6 (.sqdel id) (fun t => (SMap.find s.sqs key = none → t = finishAdmin s id 1) ∧
      ∀ q, SMap.find s.sqs key = some q → (¬ mine q.ctx ∨ a.arg 0 = 0 → t = finishAdmin s id 1) ∧
        (mine q.ctx → a.arg 0 ≠ 0 → ((∃ p ∈ s.walks, p.2.sq = key) → t = finishAdmin s id 2) ∧
          ((∀ p ∈ s.walks, p.2.sq ≠ key) → t = finishAdmin { s with sqs := SMap.del s.sqs key } id 0))) ∧
    E 7 (.mapPages id) (fun t =>
      let e := a.args.getD 2 0
      let z := 2 ^ entrySize e
      let sound := e.getLsbD 0 = true ∧ e.getLsbD 1 = true ∧ leafBad e = false ∧ a.arg 1 ≠ 0 ∧ a.arg 0 % z = 0 ∧
        a.arg 1 % z = 0 ∧ a.arg 0 + a.arg 1 ≤ 2 ^ 56
      (¬ sound → t = finishAdmin s id 1) ∧
      (sound → (mapLeaves a.dev a.ctx (a.arg 1 / z) (a.arg 0) e s = none → t = finishAdmin s id 1) ∧
        ∀ u, mapLeaves a.dev a.ctx (a.arg 1 / z) (a.arg 0) e s = some u → ∃ x, t = finishAdmin x id 0 ∧ x.mem = u.mem ∧
          ((∀ p ∈ s.queues, ∀ y ∈ p.2.entries, y.aside = none) → u.queues = s.queues → x = u))) ∧
    E 8 (.unmap id) (fun t =>
      let sound := a.arg 1 ≠ 0 ∧ a.arg 0 % 65536 = 0 ∧ a.arg 1 % 65536 = 0 ∧ a.arg 0 + a.arg 1 ≤ 2 ^ 56 ∧
        SMap.find s.ctxs a.ctxKey ≠ none
      (¬ sound → t = finishAdmin s id 1) ∧
      (sound → (unmapLeaves a.dev a.ctx (a.arg 0 + a.arg 1) (a.arg 1 / 65536) (a.arg 0) s = none → t = finishAdmin s id 1) ∧
        ∀ u, unmapLeaves a.dev a.ctx (a.arg 0 + a.arg 1) (a.arg 1 / 65536) (a.arg 0) s = some u → ∃ x,
          t = finishAdmin x id 0 ∧ x.mem = u.mem ∧ ∀ k, devOf (dieOf k) = a.dev → ∀ e ∈ (getCore x k).tlb, e.ctx ≠ a.ctx)) ∧
    E 9 (.migrate id) (fun t => (a.stage = 0 → leafOf s a.dev a.ctx (a.arg 0) = none → t = finishAdmin s id 1) ∧
      (a.stage = 0 → ∀ l e z, leafOf s a.dev a.ctx (a.arg 0) = some (l, e, z) → a.arg 0 % 2 ^ z ≠ 0 ∨ classOf (physOf e z (a.arg 0)) ≠ 0 →
        t = finishAdmin s id 1) ∧
      (a.stage = 1 → SMap.find t.admins id = some { a with stage := 2 } ∧ Instr.migrate id ∈ t.pending ∧ t.mem = s.mem ∧
        ∀ k, devOf (dieOf k) = a.dev → ∀ e ∈ (getCore t k).tlb, e.ctx ≠ a.ctx) ∧
      (1 < a.stage → ((∃ p ∈ s.ops, ∃ l ∈ p.2.rehome, a.old / 512 ≤ l ∧ l < (a.old + a.new) / 512) → t = s) ∧
        ((∀ p ∈ s.ops, ∀ l ∈ p.2.rehome, l < a.old / 512 ∨ (a.old + a.new) / 512 ≤ l) → ∃ u, t = finishAdmin u id 0 ∧
          u.mem = s.mem ∧ ∀ p, p ∈ u.forward ↔ p ∈ s.forward ∧ ¬ (a.old / 512 ≤ p.1 ∧ p.1 < (a.old + a.new) / 512)))) ∧
    E 10 (.tdopen id) (fun t =>
      let sound := 1 ≤ a.arg 1 ∧ a.arg 0 + a.arg 1 ≤ 65536 ∧ SMap.find s.ctxs a.ctxKey ≠ none ∧
        ∀ k ∈ domainKeys a, ∀ d, SMap.find s.domains k = some d → d.v = false
      (¬ sound → t = finishAdmin s id 1) ∧
      (sound → ∃ u, t = finishAdmin u id 0 ∧ u = { s with domains := u.domains } ∧
        (∀ k ∈ domainKeys a, SMap.find u.domains k = some { v := true, ctx := a.ctx }) ∧
        ∀ k, k ∉ domainKeys a → SMap.find u.domains k = SMap.find s.domains k)) ∧
    E 11 (.tdclose id) (fun t =>
      let owned := 1 ≤ a.arg 1 ∧ a.arg 0 + a.arg 1 ≤ 65536 ∧
        ∀ k ∈ domainKeys a, ∃ d, SMap.find s.domains k = some d ∧ d.v = true ∧ d.ctx = a.ctx
      let quiet := ∀ k ∈ domainKeys a, ∀ d, SMap.find s.domains k = some d → d.low = d.next
      (¬ owned → t = finishAdmin s id 1) ∧ (owned → ¬ quiet → t = finishAdmin s id 2) ∧
      (owned → quiet → ∃ u, t = finishAdmin u id 0 ∧ u = { s with domains := u.domains } ∧
        ∀ k ∈ domainKeys a, SMap.find u.domains k = none)) ∧
    E 12 (.drawopen id) (fun t =>
      let k := a.dev * 65536 + a.arg 0
      (SMap.find s.draws k ≠ none → t = finishAdmin s id 1) ∧
      (SMap.find s.draws k = none → (ctxWords s a.dev a.ctx (a.arg 1) 16 = none → t = drawFault s id a 3) ∧
        ∀ d m l, ctxWords s a.dev a.ctx (a.arg 1) 16 = some d → ctxWords s a.dev a.ctx (d.getD 3 0).toNat 16 = some m →
          ctxWords s a.dev a.ctx (d.getD 4 0).toNat 16 = some l →
          let x : Draw := { num := id, ctx := a.ctx, ginst := a.arg 2, desc := d, small := m, large := l }
          let ord := (d.getD 0 0).getLsbD 2
          let sound := drawOk d = true ∧ templateOk ord (d.getD 3 0) m = true ∧ templateOk ord (d.getD 4 0) l = true ∧
            binSetOk s a.dev a.ctx x = true
          (sound → t = finishAdmin { s with draws := SMap.put s.draws k x } id 0) ∧ (¬ sound → t = drawFault s id a 4))) ∧
    E 13 (.drawseal id) (fun t =>
      let k := a.dev * 65536 + a.arg 0
      (SMap.find s.draws k = none → t = finishAdmin s id 1) ∧
      ∀ d, SMap.find s.draws k = some d →
        (d.ctx ≠ a.ctx ∨ (a.stage = 0 ∧ d.isOpen = false) → t = finishAdmin s id 1) ∧
        (d.ctx = a.ctx → (a.stage = 0 → d.isOpen = true →
            SMap.find t.draws k = some { d with isOpen := false, sealing := some id } ∧ Instr.drawseal id ∈ t.pending ∧
            SMap.find t.admins id = some { a with stage := 1 } ∧ t.mem = s.mem) ∧
          (a.stage = 1 → classifying s k = true → t = s) ∧
          (a.stage = 1 → classifying s k = false → SMap.find t.admins id = some { a with stage := 2 } ∧
            Instr.drawseal id ∈ t.pending ∧ (d.bins = [] → t.queues = s.queues)) ∧
          (1 < a.stage → (sealStalled s k d = true → t = s) ∧ (sealStalled s k d = false →
            t = finishAdmin { s with draws := SMap.put s.draws k { d with sealed := true, sealing := none } } id 0)))) ∧
    E 14 (.drawclose id) (fun t =>
      let k := a.dev * 65536 + a.arg 0
      (SMap.find s.draws k = none → t = finishAdmin s id 1) ∧
      ∀ d, SMap.find s.draws k = some d → (d.ctx ≠ a.ctx → t = finishAdmin s id 1) ∧
        let busy := d.sealed = false ∨ ∃ l, d.blaunch = some l ∧ SMap.find s.launches l ≠ none
        (d.ctx = a.ctx → busy → t = finishAdmin s id 2) ∧
        (d.ctx = a.ctx → ¬ busy → t = finishAdmin { s with
          draws := SMap.del s.draws k, closedDraws := SMap.put s.closedDraws (closedKey (k, d.num)) d } id 0)) ∧
    E 15 (.sqreset id) (fun t => (SMap.find s.sqs key = none → t = finishAdmin s id 1) ∧
      ∀ q c, SMap.find s.sqs key = some q → SMap.find s.ctxs (a.dev * 65536 + q.ctx) = some c →
        (¬ mine q.ctx → t = finishAdmin s id 1) ∧
        (mine q.ctx → ∃ u, t = finishAdmin u id 0 ∧ SMap.find u.sqs key = some { q with head := q.tail, fenced := c.fenced } ∧
          (q.head = q.tail → q.tail < 2 ^ 32 → u.mem = s.mem)))

/-- R385: HELLO settles the version two dies use, the highest both support, or that they exchange none and the sender, which started
last, serves no queues; a message enters a
mailbox of 16 places, waits outside a full one, and is handled, in the order of arrival, where the receiver runs. R386: an update
verifies the image, hands the die over, loads the image and restarts the firmware column on it, and takes the die back when
every other die agrees on a version, else restarts the previous image. R410: a module reset boots from the newer set
that passes, or leaves configuration space only; the harts of firmware-column cores with a role start (R371), and those of the
translation service cores (R9). R412: a die reset fences the contexts on it, ends their tasks there, resets its units and boots from
the image already verified; a fenced engine stays fenced (R402). That memory keeps its contents over a
reset, where the image lies and where it starts its harts, that a die reset leaves the mailboxes alone, and the order in which a
module boots its dies are the model's choices (log 10, log 14, log 86). -/
def Obligations.FirmwareAndResets : Prop :=
  ∀ (s : State) (src dst lo hi m dev dk id : Nat),
    let Runs (t : State) (hk : Nat) : Prop := let n := getHart t hk
      n.st = .running ∧ n.hstat = 3 ∧ n.started = true ∧ n.pc.toNat % 16 = 0 ∧ n.conv = none ∧ n.async = []
    let Started (t : State) (ck : Nat) : Prop := roleOf t ck ≠ 0 → ∀ hk ∈ hartsOf ck, Runs t hk
    let Served (t : State) (ck : Nat) : Prop := isTsc (unitOf ck) = true → ∀ n < 2, Runs t (ck * 8 + n)
    let without (n : Nat) (l : List Nat) : List Nat := l.filter (fun x => x != n)
    let region (c : DieCfg) (d : Nat) : Nat × Nat := (d * 2 ^ 38 + bits c.fwr 17 0 * 2 ^ 20, bits c.fwr 35 18 * 2 ^ 20)
    let Loaded (u t : State) (dk : Nat) (img : List Byte) : Prop := let r := region (dieCfg u dk) (devOf dk % 8)
      u.forward = [] → (∀ j b, j < r.2 → img[j]? = some b → memGet t.mem (r.1 + j) = b) ∧
        ∀ a, a < r.1 ∨ r.1 + r.2 ≤ a → memGet t.mem a = memGet u.mem a
    (∃ t, exec (.hello src dst lo hi) s = .next t ∧ t.mem = s.mem ∧ t.harts = s.harts ∧
      (src = dst ∨ devOf src ≠ devOf dst → t = s) ∧
      (src ≠ dst → devOf src = devOf dst →
        let e := getDie s dst
        let e' := getDie s src
        let v := if max lo e.fwMin ≤ min hi e.fwMax then some (min hi e.fwMax) else none
        let after := getDie t dst
        let ok (p : Nat × Nat) : Bool := decide (p.1 = dieNo src) || ((SMap.find e.agreed p.1).getD none).isSome
        (getDie t src).fwMin = lo ∧ (getDie t src).fwMax = hi ∧ versionWith t src dst = v ∧ versionWith t dst src = v ∧
        (getDie t src).fwUp = e'.fwUp ∧ after.noQueues = without (dieNo src) e.noQueues ∧
        (getDie t src).noQueues = without (dieNo dst) e'.noQueues ++ (if v = none then [dieNo dst] else []) ∧
        (v = none → (getDie t src).mail = e'.mail ∧ after.mail = e.mail) ∧
        (v ≠ none → e.fwUp = true → boxOf after (dieNo src) = [] ∧
          ∃ later, after.handled = later ++ (e.mail.filter ok).reverse ++ e.handled))) ∧
    (∃ t, exec (.firmwareMailboxMessage src dst m) s = .next t ∧ t.mem = s.mem ∧ t.harts = s.harts ∧
      (src = dst ∨ devOf src ≠ devOf dst ∨ (getDie s src).fwUp = false ∨ versionWith s src dst = none → t = s) ∧
      (src ≠ dst → devOf src = devOf dst → (getDie s src).fwUp = true → versionWith s src dst ≠ none →
        let d := getDie s dst
        let box := boxOf d (dieNo src)
        let waits (x : Die) : List (Nat × Nat) := x.mailWait.filter (fun p => p.1 == dieNo src)
        let after := getDie t dst
        (d.fwUp = false → box.length < 16 → waits d = [] → boxOf after (dieNo src) = box ++ [m] ∧ waits after = []) ∧
        (d.fwUp = false → 16 ≤ box.length → boxOf after (dieNo src) = box ∧ waits after = waits d ++ [(dieNo src, m)]) ∧
        (d.fwUp = true → versionWith s dst src ≠ none →
          boxOf after (dieNo src) = [] ∧ (dieNo src, m) ∈ after.handled ∧
          ∃ later, after.handled = later ++
            (d.mail.filter (fun p => ((SMap.find d.agreed p.1).getD none).isSome)).reverse ++ d.handled))) ∧
    (∃ t, exec (.moduleReset dev) s = .next t ∧ (8 ≤ dev → t = s) ∧
      (dev < 8 → let d := getDev s dev
        (getDev t dev).flash = d.flash ∧ (getDev t dev).off = false ∧ (getDev t dev).lifeFlash = d.lifeFlash ∧
        (∀ hk, devOfHart hk = dev → bestSet d.flash = none ∨ isEngine hk = true ∨
            (roleOf t (coreOf hk) = 0 ∧ isTsc (unitOf (coreOf hk)) = false) →
          SMap.find t.harts hk = none) ∧
        (∀ k, k / 65536 = dev → SMap.find t.ctxs k = none) ∧ (∀ k, k / 4096 = dev → SMap.find t.queues k = none) ∧
        (∀ hk, devOfHart hk ≠ dev → SMap.find t.harts hk = SMap.find s.harts hk) ∧
        (bestSet d.flash = none →
          (getDev t dev).dead = true ∧ (getDev t dev).booted = false ∧ t.mem = s.mem) ∧
        ∀ f, bestSet d.flash = some f →
          f ∈ d.flash ∧ tableOk f.table = true ∧ imageOk f.table f.image = true ∧
          (∀ g ∈ d.flash, tableOk g.table = true → imageOk g.table g.image = true → g.age ≤ f.age) ∧
          (getDev t dev).dead = false ∧ (getDev t dev).booted = true ∧ (getDev t dev).table = f.table ∧
          (getDev t dev).image = f.image ∧ (∀ ck, devOf (dieOf ck) = dev → isTile (unitOf ck) = true → Started t ck) ∧
          (∀ ck, devOf (dieOf ck) = dev → Served t ck) ∧
          (s.forward = [] → ∀ a, (∀ die < 8, let r := region (cfgOf (dieBlock f.table die)) dev; a < r.1 ∨ r.1 + r.2 ≤ a) →
            memGet t.mem a = memGet s.mem a) ∧
          (∀ i j, i < j → j < 8 → dieNo (dev * 8 + j) ∉ (getDie t (dev * 8 + i)).noQueues ∧
            (i ∈ (getDie t (dev * 8 + j)).noQueues ↔ versionWith t (dev * 8 + j) (dev * 8 + i) = none)) ∧
          (∀ p < 7, portState t dev p = 1) ∧
          SMap.find t.sqs (dev * 4096) = some (queue0 dev) ∧
          ∀ die < 8, let k := dev * 8 + die
            dieCfg t k = cfgOf (dieBlock f.table die) ∧
            (getDie t k).fwlo = (fwRange (cfgOf (dieBlock f.table die))).1 ∧
            (getDie t k).fwhi = (fwRange (cfgOf (dieBlock f.table die))).2)) ∧
    (∃ t, exec (.dieReset dk) s = .next t ∧ (64 ≤ dk → t = s) ∧
      (dk < 64 →
        let u := quitDie ((contextsOn s dk).foldl (fun t c => fenceContext t (devOf dk) c 10 (firstHartOn s dk c) 0) s) dk
        let boots : Prop := (getDev u (devOf dk)).booted = true
        (∀ hk, dieOf (coreOf hk) = dk → (getHart u hk).task = none) ∧
        (∀ hk, dieOf (coreOf hk) = dk → (¬ boots) ∨ isEngine hk = true ∨
            (roleOf t (coreOf hk) = 0 ∧ isTsc (unitOf (coreOf hk)) = false) →
          SMap.find t.harts hk = none) ∧
        (boots → ∀ ck, dieOf ck = dk → (isTile (unitOf ck) = true → Started t ck) ∧
          ((getDev u (devOf dk)).down = false → Served t ck)) ∧
        (∀ hk, dieOf (coreOf hk) ≠ dk → SMap.find t.harts hk = SMap.find u.harts hk) ∧
        t.ctxs = u.ctxs ∧ t.queues = u.queues ∧ (getDev t (devOf dk)).flash = (getDev u (devOf dk)).flash ∧
        (getDie t dk).repFenced = (getDie u dk).repFenced ∧
        (∀ ck, dieOf ck = dk → ((getCore u ck).engFenced = true → (getCore t ck).engFenced = true) ∧
          ((getCore t ck).engFenced = true → ∃ p ∈ u.cores, p.1 = ck ∧ p.2.engFenced = true)) ∧
        (¬ boots → t.mem = u.mem ∧ (getDie t dk).fwUp = false ∧ (getDie t dk).agreed = [] ∧
          (getDie t dk).mail = (getDie u dk).mail ∧ (getDie t dk).mailWait = (getDie u dk).mailWait) ∧
        (boots →
          (getDie t dk).fwMin = (Config.imageRange (getDev u (devOf dk)).image (dieNo dk)).1 ∧
          (getDie t dk).fwlo = (fwRange (dieCfg u dk)).1 ∧ (getDie t dk).fwhi = (fwRange (dieCfg u dk)).2 ∧
          Loaded u t dk (getDev u (devOf dk)).image ∧
          (∀ o, devOf o = devOf dk → o ≠ dk → (getDie u o).fwUp = true → dieNo dk ∉ (getDie t o).noQueues ∧
            (dieNo o ∈ (getDie t dk).noQueues ↔ versionWith t dk o = none)) ∧
          (getDie t dk).clk = 1600 ∧ (routed u (devOf dk) 0 = true → dk ≠ 0 → (getDie u 0).tb.toNat ≤ (getDie t dk).tb.toNat)))) ∧
    (∀ a : Admin, SMap.find s.admins id = some a → a.op = 16 → a.bad = false → (getDev s a.dev).off = false →
      let d := a.stage / 2
      let k := a.dev * 8 + d
      let img := updateImage s (a.arg 0)
      let others := (diesOfDev a.dev).filter (· != k)
      ∃ t, exec (.fwupdate id) s = .next t ∧
        (8 ≤ d → t = finishAdmin s id 0) ∧
        (d < 8 → (a.arg 1).testBit d = false → t.mem = s.mem ∧ Instr.fwupdate id ∈ t.pending ∧
          SMap.find t.admins id = some { a with stage := 2 * (d + 1) }) ∧
        (d < 8 → (a.arg 1).testBit d = true → a.stage % 2 = 0 →
          (physOk (a.arg 0) = false ∨ imageOk (getDev s a.dev).table img = false → t = finishAdmin s id 1) ∧
          (physOk (a.arg 0) = true → imageOk (getDev s a.dev).table img = true →
            let v := Config.imageRange img d
            Loaded s t k img ∧ (getDie t k).fwUp = false ∧ (getDie t k).agreed = [] ∧ (getDie t k).fwMin = v.1 ∧
            (getDie t k).fwMax = v.2 ∧ Instr.fwupdate id ∈ t.pending ∧
            (∀ o ∈ others, Instr.hello k o v.1 v.2 ∈ t.pending) ∧
            (∀ ck, dieOf ck = k → isTile (unitOf ck) = true → Started t ck ∧
              ∀ hk ∈ hartsOf ck, (isFwCol s ck = true → roleOf t ck = 0 → SMap.find t.harts hk = none) ∧
                (isFwCol s ck = false → SMap.find t.harts hk = SMap.find s.harts hk)) ∧
            ∃ b, SMap.find t.admins id = some b ∧ b.stage = a.stage + 1 ∧ b.old = (getDie s k).fwMin ∧
              b.new = (getDie s k).fwMax)) ∧
        (d < 8 → (a.arg 1).testBit d = true → a.stage % 2 = 1 →
          ((∃ o ∈ others, SMap.find (getDie s k).agreed (dieNo o) = none) → t = s) ∧
          ((∀ o ∈ others, versionWith s k o ≠ none) → (getDie t k).fwUp = true ∧
            t.mem = s.mem ∧ t.harts = s.harts ∧ (∀ o ∈ others, versionWith t k o = versionWith s k o) ∧
            Instr.fwupdate id ∈ t.pending ∧
            SMap.find t.admins id = some { a with stage := 2 * (d + 1) }) ∧
          ((∀ o ∈ others, SMap.find (getDie s k).agreed (dieNo o) ≠ none) → (∃ o ∈ others, versionWith s k o = none) →
            ∃ u, t = finishAdmin u id 1 ∧ (getDie u k).fwMin = a.old ∧ (getDie u k).fwMax = a.new ∧ (getDie u k).fwUp = true ∧
              Loaded s u k (getDev s a.dev).image ∧ ∀ ck, dieOf ck = k → isTile (unitOf ck) = true → Started u ck)))

/-- R325 to R327: the metadata a partial write-back needs poisons its line, and the harts that stored to it take POISON, INFO bit 1,
with REASON 6; a spilled record that fails its check gives REASON 5. R405, R406: an uncorrectable error poisons what memory or a
scratchpad holds there, fences the context or queue that owns the structure, drops a cached translation, releases waiters to look again, or resets the die; a first parity failure marks the
slot and a second in the same slot fences; a corrected error is counted and changes nothing else. R409: counters hold at their
maximum, the record is written to flash and its live copy refreshed. R413: clock steps of 100 MHz between 800 and 1600, one
millisecond apart on the way up, the first a millisecond after the condition clears; the module stops at its thermal limit. R410: a management write replaces the older set. The
kinds' numbers and counter places within the record follow log 11. That each further 100 MHz comes a millisecond later, that a
thermal shutdown writes the record to flash, that a new set takes the older one's place, and that a spilled message which fails its check
records FADDR 0 are the model's choices (log 57, log 86). -/
def Obligations.ErrorsAndPower : Prop :=
  ∀ (s : State) (k x hk dk g dev : Nat) (again : Bool) (tab img : List Byte),
    let up (v w : Nat) : Nat := min (v + 1) (2 ^ w - 1)
    let lifeOf (u : State) (d o : Nat) : Nat := SMap.get 0 (getDev u d).life o
    let Poisons (t : State) (a n : Nat) : Prop := (∀ j < n, isPoisoned t (a + 64 * j) = true) ∧
      ∀ b, (∀ j < n, homeLoc s b / 64 ≠ homeLoc s (a + 64 * j) / 64) → isPoisoned t b = isPoisoned s b
    (∃ t, exec (.uncorrectableError k x) s = .next t ∧
      (k = 0 ∨ 19 < k → t = s) ∧
      (k = 1 ∨ k = 2 → t = { s with poison := t.poison } ∧ Poisons t (x / 512 * 512) 8) ∧
      (k = 3 → t = { s with poison := t.poison } ∧ isPoisoned t x = true ∧
        ∀ b, homeLoc s b / 64 ≠ homeLoc s x / 64 → isPoisoned t b = isPoisoned s b) ∧
      (k = 4 → let a := x % 2 ^ 48
        let o := 0x03A0 + 4 * (x / 2 ^ 48 % 64)
        t = { s with poison := t.poison, devs := t.devs } ∧ Poisons t (a / 512 * 512) 8 ∧
        (lifeOf s (homeDev a) o < 2 ^ 32 → lifeOf t (homeDev a) o = up (lifeOf s (homeDev a) o) 32)) ∧
      (k = 5 → t = fenceQueue s x) ∧
      (k = 6 → let Of (q : Nat × Hart) : Prop := devOfHart q.1 = x / 65536 ∧ q.2.ctxid.toNat = x % 65536 ∧ q.2.st ≠ .idle
        ∃ h, t = fenceContext s (x / 65536) (x % 65536) 8 h 0 ∧
          ((∃ q ∈ s.harts, q.1 = h ∧ Of q) ∨ (h = noHart ∧ ∀ q ∈ s.harts, ¬ Of q))) ∧
      (∀ n < 2, k = 7 + n → let w := (getCore s x).accown n
        (w.getLsbD 31 = false → t = s) ∧
        (w.getLsbD 31 = true → t = fenceContext s (devOf (dieOf x)) (bits w 23 8) 8 (x * 8 + bits w 2 0) 0)) ∧
      (k = 9 → ((getCore s x).infV = false → t = s) ∧ ((getCore s x).infV = true →
        t = fenceContext s (devOf (dieOf x)) (getCore s x).infCtx 8 (x * 8 + (getCore s x).infHart) 0)) ∧
      (k = 10 → (∀ e, (getClus s (x / 256)).belay[x % 256]? = some e →
          t = { s with pending := s.pending ++ [.belayWake (x / 256) e.2] }) ∧
        ((getClus s (x / 256)).belay[x % 256]? = none → t = s)) ∧
      (k = 11 → t.mem = s.mem ∧ ∀ h ∈ (eventRow (getClus s (x / 384)) (x % 384)).waiters, Instr.convoyIssue h ∈ t.pending) ∧
      (k = 12 → t = fenceEngine s x) ∧ (k = 13 → t = fenceReprojection s x) ∧
      (k = 14 → (validHart x = false → t = s) ∧
        (validHart x = true → t = fenceContext s (devOfHart x) (getHart s x).ctxid.toNat 8 x 0)) ∧
      (k = 15 → let c := getCore s (x % 65536)
        let n := x / 65536
        t = setCore s (x % 65536) (if n < c.tlb.length then { c with tlb := c.tlb.eraseIdx n }
          else { c with gtlb := c.gtlb.eraseIdx (n - c.tlb.length) })) ∧
      (k = 16 → t = setClus s (x % 65536) { getClus s (x % 65536) with ctlb := (getClus s (x % 65536)).ctlb.eraseIdx (x / 65536) }) ∧
      (k = 18 → (classOf x ≠ 0 ∨ metaReserved s (homeDev x) = false ∨ inCaddy s x = true → t = s) ∧
        (classOf x = 0 → metaReserved s (homeDev x) = true → inCaddy s x = false →
          let u := poisonLine (dropLine s x) x
          let refuse (v : State) (w : Writer) : State :=
            let known : Prop := validHart w.hart = true ∧ isEngine w.hart = false
            let here : Prop := known ∧ (getHart v w.hart).st ≠ .idle ∧
              devOfHart w.hart * 65536 + (getHart v w.hart).ctxid.toNat = w.ctx
            fenceContext (if here then queueAsync v w.hart ⟨cPOISON, 2, w.va⟩ else v) (w.ctx / 65536) (w.ctx % 65536) 6
              (if known then w.hart else noHart) cPOISON
          (homeLine s x = none → t = { s with poison := t.poison } ∧ Poisons t (x / 512 * 512) 8) ∧
          ∀ y, homeLine s x = some y →
            (y.dirty = [] → y.sectors = 0xFF → t = s) ∧
            (y.dirty = [] → y.sectors ≠ 0xFF → t = { s with poison := t.poison } ∧ Poisons t (x / 512 * 512) 8) ∧
            (y.dirty.length = 8 → t = s) ∧
            (y.dirty ≠ [] → y.dirty.length ≠ 8 →
              Poisons u (x / 512 * 512) 8 ∧ t = (y.dirty.map Prod.snd).foldl refuse u))) ∧
      (k = 19 → let die := x % 256
        let n := (spilledOn s die).length
        (∀ r, (spilledOn s die)[x / 256]? = some r →
          (taskHart s r.uid = none → t = fenceContext s (devOf die) r.ctx 5 noHart cPOISON) ∧
          ∀ h, h ≠ noHart → taskHart s r.uid = some h →
            t = fenceContext (queueAsync s h ⟨cPOISON, 0, BitVec.ofNat 64 (r.sector * 64)⟩) (devOf die) r.ctx 5 h cPOISON) ∧
        (n ≤ x / 256 → (spilledMsgs s die)[x / 256 - n]? = none → t = s) ∧
        (n ≤ x / 256 → ∀ h q i, (spilledMsgs s die)[x / 256 - n]? = some (h, q, i) → dieOf (coreOf h) = die ∧
          let v := setHart s h { getHart s h with
            spill := SMap.set [] (getHart s h).spill q ((SMap.get [] (getHart s h).spill q).eraseIdx i) }
          t = fenceContext (queueAsync v h ⟨cPOISON, 0, 0⟩) (devOf die) (getHart s h).ctxid.toNat 5 h cPOISON)) ∧
      (k = 17 → t = { s with pending := s.pending ++ [.dieReset x] })) ∧
    (∀ h, h = getHart s hk →
      (validHart hk = false ∨ h.st = .idle ∨ h.st = .preempted → exec (.parityError hk again) s = .next s) ∧
      (validHart hk = true → h.st ≠ .idle → h.st ≠ .preempted →
        (again = true → h.parity = true →
          exec (.parityError hk again) s = .next (fenceContext
            (setHart s hk { h with conv := none, wait := .none, grant := none }) (devOfHart hk) h.ctxid.toNat 7 hk 0)) ∧
        (again = false ∨ h.parity = false → exec (.parityError hk again) s = .next (setHart s hk { h with parity := true })))) ∧
    (∃ t, exec (.correctedError dk g) s = .next t ∧ t = { s with devs := t.devs } ∧ (64 ≤ dk ∨ 74 ≤ g → t = s) ∧
      (dk < 64 → g < 74 → let w := if g < 10 then 64 else 32
        let o := if g < 10 then 0x0020 + 8 * (dieNo dk * 10 + g) else 0x02A0 + 4 * (g - 10)
        lifeOf s (devOf dk) o < 2 ^ w → lifeOf t (devOf dk) o = up (lifeOf s (devOf dk) o) w ∧
          ∀ p, p ≠ o → lifeOf t (devOf dk) p = lifeOf s (devOf dk) p)) ∧
    (∃ t, exec (.lifetimeRecordWrite dev) s = .next t ∧ t = { s with devs := t.devs } ∧
      (getDev t dev).lifeFlash = (getDev t dev).life ∧
      (lifeOf s dev 0x18 < 2 ^ 64 → lifeOf t dev 0x18 = up (lifeOf s dev 0x18) 64) ∧
      ∀ p, p ≠ 0x18 → lifeOf t dev p = lifeOf s dev p) ∧
    (∃ t, exec (.lifetimeRecordRefresh dev) s = .next t ∧ t.harts = s.harts ∧
      ((getDev s dev).booted = false → t = s) ∧
      ((getDev s dev).booted = true →
        let r := dieCfg s (dev * 8)
        let base := dev * 2 ^ 38 + (bits r.fwr 17 0 + bits r.fwr 35 18 - 1) * 2 ^ 20
        (bits r.fwr 35 18 = 0 → t.mem = s.mem) ∧
        (bits r.fwr 35 18 ≠ 0 → dev < 8 → s.forward = [] →
          (∀ j < 523, readN t (base + 8 * j) 8 = recordWord (getDev t dev).life (8 * j) % 2 ^ 64) ∧
          ∀ b, b < base ∨ base + 4184 ≤ b → memGet t.mem b = memGet s.mem b))) ∧
    (exec (.clockStepDown dk) s = .next (setDie s dk { getDie s dk with
      clk := max 800 ((getDie s dk).clk - 100), clearAt := none })) ∧
    (∃ t, exec (.clockStepUp dk) s = .next t ∧ t = { s with dies := t.dies } ∧
      ((getDie s dk).clearAt = none → getDie t dk = (if (getDie s dk).clk < 1600 then
        { getDie s dk with clearAt := some ((getDie s dk).tb.toNat + 1000000) } else getDie s dk)) ∧
      ∀ c, (getDie s dk).clearAt = some c → ((getDie s dk).tb.toNat < c → getDie t dk = getDie s dk) ∧
        (c ≤ (getDie s dk).tb.toNat → let f := min 1600 ((getDie s dk).clk + 100)
          getDie t dk = { getDie s dk with
            clk := f, clearAt := if f < 1600 then some ((getDie s dk).tb.toNat + 1000000) else none })) ∧
    let Stopped (t : State) : Prop := t.mem = s.mem ∧ (getDev t dev).off = true ∧ (getDev t dev).flash = (getDev s dev).flash ∧
      (∀ h, devOfHart h = dev → SMap.find t.harts h = none) ∧ (∀ h, devOfHart h ≠ dev → SMap.find t.harts h = SMap.find s.harts h) ∧
      (∀ q, q / 65536 = dev → SMap.find t.ctxs q = none) ∧ ∀ q, q / 65536 ≠ dev → SMap.find t.ctxs q = SMap.find s.ctxs q
    (∃ t, exec (.thermalShutdown dev) s = .next t ∧ Stopped t ∧
      (getDev t dev).lifeFlash = (getDev t dev).life ∧
      (lifeOf s dev 0x10 / 2 ^ 32 % 2 ^ 16 < 2 ^ 16 - 1 → lifeOf t dev 0x10 = lifeOf s dev 0x10 + 2 ^ 32) ∧
      (lifeOf s dev 0x10 / 2 ^ 32 % 2 ^ 16 = 2 ^ 16 - 1 → lifeOf t dev 0x10 = lifeOf s dev 0x10)) ∧
    (∃ t, exec (.orderlyShutdown dev) s = .next t ∧ Stopped t ∧
      (getDev t dev).lifeFlash = (getDev t dev).life ∧ ∀ p, p ≠ 0x18 → lifeOf t dev p = lifeOf s dev p) ∧
    (∃ t, exec (.smbusManagementWrite dev tab img) s = .next t ∧ t = { s with devs := t.devs } ∧
      ∃ f : FlashSet, f.table = tab ∧ f.image = img ∧ (∀ o ∈ (getDev s dev).flash, o.age < f.age) ∧
        ((getDev s dev).flash.length < 2 → (getDev t dev).flash = (getDev s dev).flash ++ [f]) ∧
        ∀ p q, (getDev s dev).flash = [p, q] →
          (p.age < q.age → (getDev t dev).flash = [q, f]) ∧ (q.age < p.age → (getDev t dev).flash = [p, f]))

/-- R390, R395: a port that trains is up when it meets the right peer, else fenced, and a further training counts as a
retrain; a resent flit counts up to 0xFFFF. R396: a Ratal Link port that goes down takes its peer's end with it, and is fenced
where no route is left. R397: a die that joins steps forward, and a step of the master's
timebase reaches every die with a route to it. R400: the network writes, reads, sends, and executes atomics with
the old value returned. R401: the host reads and writes memory, reads registers, and rings doorbells. R407: poison answers no
read and turns a partial write away. The peer numbers 8 and 9 stand for training that begins and training that fails; that a
training after the first is a retrain, that both ends of a Ratal Link port go down together, and what fences one are log 59's; which
units of BAR0 the host reaches and that poison answers nothing are log 60's; that the step of the timebase is taken at
the present time is log 49's. -/
def Obligations.LinksAndHost : Prop :=
  ∀ (s : State) (dev p peer a n v : Nat) (c d : DWord) (wr : Bool),
    let Kept (t : State) : Prop := ∀ e q, ¬ (e = dev ∧ q = p) → q < 23 → portWord (getDev t e) q = portWord (getDev s e) q
    let Wrote (t : State) (v : Nat) : Prop := t = { s with mem := t.mem, poison := t.poison } ∧
      (s.forward = [] → readN t a n = v % 256 ^ n ∧ ∀ b, b < a ∨ a + n ≤ b → memGet t.mem b = memGet s.mem b)
    let clean : Prop := rangeOk a n = true ∧ ∀ k < n, isPoisoned s (a + k) = false
    (∃ t, exec (.linkTrain dev p peer) s = .next t ∧ t.mem = s.mem ∧ t.harts = s.harts ∧
      (8 ≤ dev ∨ 23 ≤ p ∨ (getDev s dev).down = true ∨ (p < 7 ∧ peer < 8 ∧ (getDev s peer).down = true) → t = s) ∧
      (∀ dk, (getDie s dk).tb.toNat ≤ (getDie t dk).tb.toNat) ∧
      (dev < 8 → p < 23 → (getDev s dev).down = false → 8 ≤ peer → Kept t ∧
        (peer = 8 → portWord (getDev t dev) p =
          (if portState s dev p = 3 then portWord (getDev s dev) p else withBits (portWord (getDev s dev) p) 1 0 1)) ∧
        (peer ≠ 8 → portWord (getDev t dev) p = withBits (portWord (getDev s dev) p) 1 0 3 ∧
          Instr.lifetimeRecordWrite dev ∈ t.pending)) ∧
      (dev < 8 → p < 23 → (getDev s dev).down = false → peer < 8 → (7 ≤ p ∨ (getDev s peer).down = false) →
        let old := portWord (getDev s dev) p
        let w := portWord (getDev t dev) p
        let again := (getDev s dev).trained.contains p
        bits w 1 0 = (if 7 ≤ p ∨ peer = peerOf dev p then 2 else 3) ∧ bits w 10 8 = (if p < 7 then peer % 8 else 0) ∧
        bits w 31 16 = bits old 31 16 ∧ bits w 63 32 = (if again then (bits old 63 32 + 1) % 2 ^ 32 else bits old 63 32) ∧
        (bits w 1 0 = 3 → Instr.lifetimeRecordWrite dev ∈ t.pending) ∧
        (getDev t dev).trained.contains p = true ∧ Kept t)) ∧
    (∃ t, exec (.linkDown dev p) s = .next t ∧ t = { s with devs := t.devs, pending := t.pending } ∧ (8 ≤ dev ∨ 23 ≤ p → t = s) ∧
      (dev < 8 → p < 7 →
        portState t dev p = (if portState s dev p = 3 ∨
          ((getDev s dev).trained.contains p = true ∧ routed t dev (peerOf dev p) = false) then 3 else 0) ∧
        (∀ e q, e < 8 → q < 7 → portState s e q = 3 → portState t e q = 3) ∧
        portState t (peerOf dev p) p ≠ 2 ∧
        ∀ e q, e < 8 → q < 7 → portState s e q = 2 → ¬ (q = p ∧ (e = dev ∨ e = peerOf dev p)) → portState t e q = 2) ∧
      (dev < 8 → 7 ≤ p → p < 23 → portState t dev p = (if portState s dev p = 3 then 3 else 0) ∧ Kept t)) ∧
    (∃ t, exec .tbStep s = .next t ∧ t = { s with dies := t.dies, tbStep := t.tbStep } ∧ (s.tbStep = none → t = s) ∧
      ∀ t0 w, s.tbStep = some (t0, w) → let now := (getDie s 0).tb.toNat
        (now < t0 → t = s) ∧
        (t0 ≤ now → t.tbStep = none ∧ ∀ dk < 64,
          (routed s (devOf dk) 0 = true →
            getDie t dk = { getDie s dk with tb := BitVec.ofNat 64 (max (getDie s dk).tb.toNat (w + (now - t0))) }) ∧
          (routed s (devOf dk) 0 = false → getDie t dk = getDie s dk))) ∧
    (∃ t, exec (.flitReplay dev p) s = .next t ∧ t = { s with devs := t.devs } ∧ (8 ≤ dev ∨ 23 ≤ p → t = s) ∧
      (dev < 8 → p < 23 → let old := portWord (getDev s dev) p
        let w := portWord (getDev t dev) p
        bits w 31 16 = min 0xFFFF (bits old 31 16 + 1) ∧ bits w 15 0 = bits old 15 0 ∧ bits w 63 32 = bits old 63 32 ∧ Kept t)) ∧
    (∃ t, exec (.rdmaWrite a n v) s = .next t ∧
      (etherUp s (portDev a) = false ∨ rangeOk a n = false ∨ partPoisoned s a n = true → t = s) ∧
      (etherUp s (portDev a) = true → rangeOk a n = true → partPoisoned s a n = false → Wrote t v)) ∧
    (∃ t, exec (.rdmaRead a n) s = .next t ∧ t = { s with devs := t.devs } ∧
      (etherUp s (portDev a) = false ∨ ¬ clean → t = s) ∧
      (etherUp s (portDev a) = true → clean →
        (getDev t (portDev a)).netOut = readN s a n :: (getDev s (portDev a)).netOut)) ∧
    (∃ t, exec (.roceSend n v) s = .next t ∧ t = { s with devs := t.devs } ∧
      (8 ≤ n / 65536 ∨ etherUp s (n / 65536) = false → t = s) ∧
      (n / 65536 < 8 → etherUp s (n / 65536) = true →
        SMap.get [] (getDev t (n / 65536)).qp (n % 65536) = v :: SMap.get [] (getDev s (n / 65536)).qp (n % 65536))) ∧
    (∀ q ∈ [(Instr.roceCompareAndSwap a c d, fun old => if old = c.toNat then d.toNat else old),
        (.roceFetchAndAdd a d, fun old => (old + d.toNat) % 2 ^ 64)],
      ∃ t, exec q.1 s = .next t ∧ t = { s with mem := t.mem, devs := t.devs } ∧
        (etherUp s (portDev a) = false ∨ a % 8 ≠ 0 ∨ (n = 8 ∧ ¬ clean) → t = s) ∧
        (etherUp s (portDev a) = true → a % 8 = 0 → n = 8 → clean →
          (getDev t (portDev a)).netOut = readN s a 8 :: (getDev s (portDev a)).netOut ∧
          (s.forward = [] → readN t a 8 = q.2 (readN s a 8) ∧
            ∀ b, b < a ∨ a + 8 ≤ b → memGet t.mem b = memGet s.mem b))) ∧
    (∃ t, exec (.hostAccess wr a n v) s = .next t ∧
      let host := if classOf a = 2 then regDev a else portDev a
      ((getDev s host).dead = true ∨ (getDev s host).off = true → t = s) ∧
      ((getDev s host).dead = false → (getDev s host).off = false →
        (classOf a = 2 →
          (n ≠ 8 ∨ a % 8 ≠ 0 ∨ regUnit a < 0x70 ∨ regReached s 0 a = false → t = s) ∧
          (n = 8 → a % 8 = 0 → 0x70 ≤ regUnit a → regReached s 0 a = true →
            (wr = false → t = { s with devs := t.devs } ∧
              (getDev t host).hostOut = (regRead s a).toNat :: (getDev s host).hostOut) ∧
            (wr = true → regUnit a = 0x80 →
              exec (.doorbell (regDieKey a) (regOfs a / 8) (BitVec.ofNat 64 v) true) s = .next t) ∧
            (wr = true → regUnit a ≠ 0x80 → t = s))) ∧
        (classOf a ≠ 2 → wr = true → (rangeOk a n = false ∨ partPoisoned s a n = true → t = s) ∧
          (rangeOk a n = true → partPoisoned s a n = false → Wrote t v)) ∧
        (classOf a ≠ 2 → wr = false → t = { s with devs := t.devs } ∧ (¬ clean → t = s) ∧
          (clean → (getDev t host).hostOut = readN s a n :: (getDev s host).hostOut))))

/-- R4, R307: memory is one value per byte address; the model lists it in one canonical form (log 1). Whatever instruction or
event a step runs, on every path, memory that is in that form stays in it, so that equal contents are equal states. -/
def Obligations.StepKeepsMemory : Prop :=
  ∀ s t : State, MemoryOk s → step s = .next t → MemoryOk t
end

