-- ==== Sys2Proof/Laws/Cache.lean ====
section
/-! SUPPORT. What the operations on the L2 slices can do: each changes the lines held, or the skews noted, and nothing else
(R315, R318, R320). -/
namespace Sys2Proof.Machine

open Sys2Proof

/-- Replacing the lines of a set changes the lines held alone. -/
theorem setLines_frame (s : State) (k : Nat) (ls : List L2Line) :
    setLines s k ls = { s with l2 := (setLines s k ls).l2 } := rfl

/-- Two states agree but for the lines that slices hold and what home slices know of them. -/
def SameLinesApart (s t : State) : Prop := t = { s with l2 := t.l2, sharers := t.sharers }

theorem SameLinesApart.rfl (s : State) : SameLinesApart s s := by unfold SameLinesApart; cases s; simp

theorem SameLinesApart.trans {s t u : State} (h : SameLinesApart s t) (k : SameLinesApart t u) : SameLinesApart s u := by
  unfold SameLinesApart at *
  rw [k, h]

/-- A fold of steps that each change those two alone changes those two alone. -/
theorem SameLinesApart.fold {α β : Type} (f : State × β → α → State × β)
    (hf : ∀ p a, SameLinesApart p.1 (f p a).1) (l : List α) (p : State × β) : SameLinesApart p.1 (l.foldl f p).1 := by
  induction l generalizing p with
  | nil => exact SameLinesApart.rfl _
  | cons a l ih => exact (hf p a).trans (ih (f p a))

/-- What a home slice notes of a copy. -/
theorem putSharers_frame (s : State) (line : Nat) (v : Sharers) : SameLinesApart s (putSharers s line v) := by
  unfold SameLinesApart putSharers; cases s; simp

theorem noteCopy_frame (s : State) (dev line : Nat) (wr : Bool) : SameLinesApart s (noteCopy s dev line wr) := by
  unfold noteCopy
  split
  · exact putSharers_frame _ _ _
  · exact SameLinesApart.rfl s

theorem noteLeft_frame (s : State) (dev line : Nat) (left : Option L2Line) : SameLinesApart s (noteLeft s dev line left) :=
  putSharers_frame _ _ _

theorem setLines_same (s : State) (k : Nat) (ls : List L2Line) : SameLinesApart s (setLines s k ls) := by
  unfold SameLinesApart setLines; cases s; simp

theorem touchOnce_frame (s : State) (dev : Nat) (wr : Option Writer) (a : Nat) :
    SameLinesApart s (touchOnce s dev wr a).1 := by
  unfold touchOnce
  split
  · exact SameLinesApart.rfl s
  · refine SameLinesApart.trans ?_ (setLines_same _ _ _)
    split
    · exact noteCopy_frame _ _ _ _
    · exact SameLinesApart.rfl s

theorem settleLines_frame (n : Nat) (s : State) (l : List Leaving) : SameLinesApart s (settleLines n s l) := by
  induction n generalizing s l with
  | zero => exact SameLinesApart.rfl s
  | succ n ih =>
    cases l with
    | nil => exact SameLinesApart.rfl s
    | cons x rest =>
      simp only [settleLines]
      split
      · refine SameLinesApart.trans ?_ (ih _ _)
        refine (noteLeft_frame s x.dev x.line.line x.left).trans ?_
        exact SameLinesApart.fold _ (fun p a => by exact touchOnce_frame _ _ _ _) _ (noteLeft s x.dev x.line.line x.left, [])
      · exact ih s rest

theorem leave_frame (s : State) (l : List Leaving) : SameLinesApart s (leave s l) := by
  unfold leave
  split
  · exact SameLinesApart.rfl s
  · exact settleLines_frame _ _ _

/-- An access to a sector changes the lines held and what home slices know of them alone. -/
theorem touchSector_frame (s : State) (dev : Nat) (wr : Option Writer) (l : Nat) :
    SameLinesApart s (touchSector s dev wr l) :=
  (touchOnce_frame s dev wr (homeLoc s l)).trans (leave_frame _ _)

/-- A sweep of a device's copies changes those alone. -/
theorem sweep_frame (s : State) (dev : Nat) (sel : L2Line → Option (SMap Writer × Option L2Line)) :
    SameLinesApart s (sweep s dev sel) := by
  unfold sweep
  refine SameLinesApart.trans ?_ (leave_frame _ _)
  unfold SameLinesApart; cases s; rfl

/-- A mark changes the lines held alone. -/
theorem markLine_frame (s : State) (dev l : Nat) : markLine s dev l = { s with l2 := (markLine s dev l).l2 } := by
  unfold markLine
  simp only
  split <;> rfl

/-- A release changes the lines held alone. -/
theorem unpinLine_frame (s : State) (dev l : Nat) : unpinLine s dev l = { s with l2 := (unpinLine s dev l).l2 } := by
  unfold unpinLine
  simp only
  split <;> rfl

/-- An entry used notes a skew and changes nothing else. -/
theorem noteSkew_frame (s : State) (pa : Nat) (e : DWord) :
    noteSkew s pa e = { s with skews := (noteSkew s pa e).skews } := by
  unfold noteSkew
  split <;> rfl

/-- A mark is the only one of its set. -/
theorem markSet_marks (line : Nat) (ls : List L2Line) (h : ls.any (fun x => x.line == line && x.way.isNone) = true)
    (x : L2Line) (hx : x ∈ markSet line ls) : x.marked = (x.line == line) := by
  unfold markSet at hx
  rw [if_pos h] at hx
  obtain ⟨y, -, rfl⟩ := List.mem_map.mp hx
  rfl

/-- A mark leaves the lines of a set, their sectors and their ways as they are. -/
theorem markSet_lines (line : Nat) (ls : List L2Line) :
    (markSet line ls).map (fun x => (x.line, x.sectors, x.way, x.kept)) = ls.map (fun x => (x.line, x.sectors, x.way, x.kept)) := by
  unfold markSet
  split
  · simp [List.map_map, Function.comp_def]
  · rfl

/-- The victim among candidates is one of them. -/
theorem victimOf_mem (c : List L2Line) (x : L2Line) (h : victimOf c = some x) : x ∈ c := by
  unfold victimOf at h
  split at h
  · rename_i y hy
    exact Option.some.inj h ▸ List.mem_of_find?_eq_some hy
  · exact List.mem_of_getLast? h

/-- A fill of an ordinary line evicts no retained line, and none of a revision store (R320, R323). -/
theorem wayFor_keeps (ways : Nat → Nat) (n : Nat) (ls : List L2Line) (x : L2Line) (hx : x ∈ ls) (hk : x.free = false)
    (w : Option Nat × List L2Line) (hw : wayFor ways n ls = some w) : x ∈ w.2 := by
  unfold wayFor at hw
  split at hw
  · cases hw; exact hx
  · split at hw
    · cases hw; exact hx
    · obtain ⟨y, hy, rfl⟩ := Option.map_eq_some_iff.mp hw
      refine (List.mem_erase_of_ne ?_).mpr hx
      rintro rfl
      have := (List.mem_filter.mp (victimOf_mem _ _ hy)).2
      simp [hk] at this

end Sys2Proof.Machine
end

