-- ==== Sys2Proof/Laws/SMap.lean ====
section
/-! SUPPORT. What the finite maps do: reading after writing, and that writing keeps the canonical form. -/
namespace Sys2Proof.SMap

/-- The value listed first is found. -/
theorem find_cons {α : Type} (k : Nat) (v : α) (m : SMap α) (i : Nat) :
    find ((k, v) :: m) i = if k = i then some v else find m i := rfl

/-- A key just listed is found. -/
@[simp] theorem find_put_same {α : Type} (m : SMap α) (i : Nat) (v : α) : find (put m i v) i = some v := by
  induction m with
  | nil => simp [put, find]
  | cons p m ih =>
    obtain ⟨k, w⟩ := p
    by_cases h1 : i < k
    · simp [put, h1, find]
    · by_cases h2 : i = k
      · simp [put, h2, find]
      · have h3 : ¬ k = i := fun h => h2 h.symm
        simp [put, h1, h2, h3, find, ih]

/-- Listing a key leaves the others. -/
theorem find_put_other {α : Type} (m : SMap α) (i j : Nat) (v : α) (h : i ≠ j) : find (put m i v) j = find m j := by
  induction m with
  | nil => simp [put, find, h]
  | cons p m ih =>
    obtain ⟨k, w⟩ := p
    by_cases h1 : i < k
    · simp [put, h1, find, h]
    · by_cases h2 : i = k
      · subst h2
        simp [put, find, h]
      · simp only [put, h1, h2, if_false, find_cons, ih]

/-- A removed key is not found. -/
@[simp] theorem find_del_same {α : Type} (m : SMap α) (i : Nat) : find (del m i) i = none := by
  induction m with
  | nil => rfl
  | cons p m ih =>
    obtain ⟨k, w⟩ := p
    by_cases h : k = i
    · simp [del, h, ih]
    · simp [del, h, find, ih]

/-- Removing a key leaves the others. -/
theorem find_del_other {α : Type} (m : SMap α) (i j : Nat) (h : i ≠ j) : find (del m i) j = find m j := by
  induction m with
  | nil => rfl
  | cons p m ih =>
    obtain ⟨k, w⟩ := p
    by_cases h1 : k = i
    · subst h1
      simp [del, find, h, ih]
    · simp only [del, h1, if_false, find_cons, ih]

/-- The value just written is read. -/
@[simp] theorem get_set_same {α : Type} [DecidableEq α] (d : α) (m : SMap α) (i : Nat) (v : α) :
    get d (set d m i v) i = v := by
  unfold get set
  split <;> simp_all

/-- Writing a key leaves what the others read as. -/
theorem get_set_other {α : Type} [DecidableEq α] (d : α) (m : SMap α) (i j : Nat) (v : α) (h : i ≠ j) :
    get d (set d m i v) j = get d m j := by
  unfold get set
  split
  · rw [find_del_other m i j h]
  · rw [find_put_other m i j v h]

/-- A value just listed is read. -/
@[simp] theorem get_put_same {α : Type} (d : α) (m : SMap α) (i : Nat) (v : α) : get d (put m i v) i = v := by
  simp [get]

/-- Listing a key leaves what the others read as. -/
theorem get_put_other {α : Type} (d : α) (m : SMap α) (i j : Nat) (v : α) (h : i ≠ j) :
    get d (put m i v) j = get d m j := by
  simp [get, find_put_other m i j v h]

/-- Listing a key twice keeps the last value. -/
theorem put_put {α : Type} (m : SMap α) (i : Nat) (u v : α) : put (put m i u) i v = put m i v := by
  induction m with
  | nil => simp [put]
  | cons p m ih =>
    obtain ⟨k, w⟩ := p
    by_cases h1 : i < k
    · simp [put, h1]
    · by_cases h2 : i = k
      · simp [put, h2]
      · simp [put, h1, h2, ih]

/-! ## Canonical form -/

/-- A lower bound lies below what a higher one does. -/
theorem below_of_below (b : Option Nat) (j k : Nat) (hj : below b j = true) (hk : j < k) : below b k = true := by
  cases b with
  | none => rfl
  | some x => simp only [below, decide_eq_true_eq] at *; omega

/-- Keys that rise from a bound rise from a lower one. -/
theorem above_of_above {α : Type} (m : SMap α) (b : Option Nat) (k : Nat) (hb : below b k = true)
    (h : above (some k) m = true) : above b m = true := by
  cases m with
  | nil => rfl
  | cons p m =>
    obtain ⟨l, w⟩ := p
    simp only [above, Bool.and_eq_true] at h ⊢
    exact ⟨below_of_below b k l hb (by simpa [below] using h.1), h.2⟩

/-- Removing a key keeps the keys rising. -/
theorem above_del {α : Type} (m : SMap α) (b : Option Nat) (i : Nat) (h : above b m = true) :
    above b (del m i) = true := by
  induction m generalizing b with
  | nil => rfl
  | cons p m ih =>
    obtain ⟨k, w⟩ := p
    simp only [above, Bool.and_eq_true] at h
    by_cases hk : k = i
    · simp only [del, hk, if_true]
      exact ih _ (above_of_above m b k h.1 h.2)
    · simp only [del, hk, if_false, above, Bool.and_eq_true]
      exact ⟨h.1, ih _ h.2⟩

/-- Listing a key above the bound keeps the keys rising. -/
theorem above_put {α : Type} (m : SMap α) (b : Option Nat) (i : Nat) (v : α) (hb : below b i = true)
    (h : above b m = true) : above b (put m i v) = true := by
  induction m generalizing b with
  | nil => simp [put, above, hb]
  | cons p m ih =>
    obtain ⟨k, w⟩ := p
    simp only [above, Bool.and_eq_true] at h
    by_cases h1 : i < k
    · have h3 : below (some i) k = true := by simpa only [below, decide_eq_true_eq] using h1
      simp only [put, h1, if_true, above, hb, h3, h.2, Bool.and_self]
    · by_cases h2 : i = k
      · subst h2
        simp [put, above, hb, h.2]
      · have h3 : below (some k) i = true := by simp only [below, decide_eq_true_eq]; omega
        simp [put, h1, h2, above, h.1, ih (some k) h3 h.2]

/-- Removing keeps every listed value from the default. -/
theorem all_del {α : Type} (m : SMap α) (i : Nat) (f : Nat × α → Bool) (h : m.all f = true) : (del m i).all f = true := by
  induction m with
  | nil => rfl
  | cons p m ih =>
    obtain ⟨k, w⟩ := p
    simp only [List.all_cons, Bool.and_eq_true] at h
    by_cases hk : k = i
    · simp [del, hk, ih h.2]
    · simp only [del, hk, if_false, List.all_cons, Bool.and_eq_true]
      exact ⟨h.1, ih h.2⟩

/-- Listing a value that passes keeps every listed value passing. -/
theorem all_put {α : Type} (m : SMap α) (i : Nat) (v : α) (f : Nat × α → Bool) (hv : f (i, v) = true)
    (h : m.all f = true) : (put m i v).all f = true := by
  induction m with
  | nil => simp [put, hv]
  | cons p m ih =>
    obtain ⟨k, w⟩ := p
    have h' := h
    simp only [List.all_cons, Bool.and_eq_true] at h'
    by_cases h1 : i < k
    · simp only [put, h1, if_true, List.all_cons, Bool.and_eq_true]
      exact ⟨hv, h'⟩
    · by_cases h2 : i = k
      · subst h2
        simp only [put, Nat.lt_irrefl, if_false, if_true, List.all_cons, Bool.and_eq_true]
        exact ⟨hv, h'.2⟩
      · simp only [put, h1, h2, if_false, List.all_cons, Bool.and_eq_true]
        exact ⟨h'.1, ih h'.2⟩

/-- Writing a value keeps the canonical form. -/
theorem canon_set {α : Type} [DecidableEq α] (d : α) (m : SMap α) (i : Nat) (v : α) (h : canon d m = true) :
    canon d (set d m i v) = true := by
  simp only [canon, Bool.and_eq_true] at h ⊢
  unfold set
  split
  · exact ⟨above_del m none i h.1, all_del m i _ h.2⟩
  · next hv => exact ⟨above_put m none i v rfl h.1, all_put m i v _ (by simpa using hv) h.2⟩

end Sys2Proof.SMap
end

