-- ==== Sys2Proof/Laws/Memory.lean ====
section
/-! SUPPORT. What the memory operations do: reading after writing, frames, and the canonical form. -/
namespace Sys2Proof.Machine

open Sys2Proof

/-! ## Bytes -/

/-- A byte just written is read. -/
@[simp] theorem memGet_memSet_same (m : List Host.Cell) (a : Nat) (v : Byte) : memGet (memSet m a v) a = v := by
  simp [memGet, memSet]

/-- Writing a byte leaves the others. -/
theorem memGet_memSet_other (m : List Host.Cell) (a b : Nat) (v : Byte) (h : a ≠ b) :
    memGet (memSet m a v) b = memGet m b := SMap.get_set_other emptyByte m a b v h

/-- Writing a byte keeps the canonical form. -/
theorem memSet_wf (m : List Host.Cell) (a : Nat) (v : Byte) (h : Memory.wf m = true) : Memory.wf (memSet m a v) = true :=
  SMap.canon_set emptyByte m a v h

/-- Keeping some cells keeps the keys rising. -/
theorem above_filter {α : Type} (m : SMap α) (b : Option Nat) (f : Nat × α → Bool) (h : SMap.above b m = true) :
    SMap.above b (m.filter f) = true := by
  induction m generalizing b with
  | nil => rfl
  | cons p m ih =>
    obtain ⟨k, w⟩ := p
    simp only [SMap.above, Bool.and_eq_true] at h
    by_cases hf : f (k, w) = true
    · simp only [List.filter_cons, hf, if_true, SMap.above, Bool.and_eq_true]
      exact ⟨h.1, ih _ h.2⟩
    · simp only [List.filter_cons, hf]
      exact ih _ (SMap.above_of_above m b k h.1 h.2)

/-- Dropping cells keeps the canonical form. -/
theorem filter_wf (m : List Host.Cell) (f : Host.Cell → Bool) (h : Memory.wf m = true) :
    Memory.wf (m.filter f) = true := by
  simp only [Memory.wf, SMap.canon, Bool.and_eq_true] at h ⊢
  refine ⟨above_filter m none f h.1, ?_⟩
  have h2 := h.2
  simp only [List.all_eq_true] at h2 ⊢
  exact fun p hp => h2 p (List.mem_filter.mp hp).1

/-- Bytes set back to what nothing has written keep the canonical form. -/
theorem zeroBytes_wf (s : State) (a n : Nat) (h : Memory.wf s.mem = true) : Memory.wf (zeroBytes s a n).mem = true :=
  filter_wf s.mem _ h

/-! ## Bytes of the node -/

/-- A byte written changes memory alone. -/
theorem writeByte_frame (s : State) (a : Nat) (v : Byte) : writeByte s a v = { s with mem := (writeByte s a v).mem } := by
  unfold writeByte
  split <;> rfl

/-- A byte written keeps the canonical form. -/
theorem writeByte_wf (s : State) (a : Nat) (v : Byte) (h : Memory.wf s.mem = true) :
    Memory.wf (writeByte s a v).mem = true := by
  unfold writeByte
  split
  · exact memSet_wf _ _ _ h
  · exact h

/-- A location that holds a byte is no location of another node. -/
theorem classOf_storable (a : Nat) (h : storable a = true) : classOf a ≠ 3 := by
  unfold storable isScratch scratchBase classOf at *
  simp at h
  omega

/-- A byte just written to a location of the node is read. -/
theorem readByte_writeByte_same (s : State) (a : Nat) (v : Byte) (h : storable a = true) :
    readByte (writeByte s a v) a = v := by
  simp [readByte, writeByte, h, classOf_storable a h, homeLoc]

/-- Writing a byte leaves every byte with another home. -/
theorem readByte_writeByte_other (s : State) (a b : Nat) (v : Byte) (h : homeLoc s a ≠ homeLoc s b) :
    readByte (writeByte s a v) b = readByte s b := by
  unfold writeByte
  split
  · unfold readByte
    split
    · rfl
    · exact memGet_memSet_other s.mem _ _ v h
  · rfl

/-- Bytes written change memory alone. -/
theorem writeN_frame (s : State) (a n v : Nat) : writeN s a n v = { s with mem := (writeN s a n v).mem } := by
  induction n generalizing s a v with
  | zero => rfl
  | succ n ih =>
    simp only [writeN]
    rw [ih, writeByte_frame]

/-- Bytes written keep the canonical form. -/
theorem writeN_wf (s : State) (a n v : Nat) (h : Memory.wf s.mem = true) : Memory.wf (writeN s a n v).mem = true := by
  induction n generalizing s a v with
  | zero => exact h
  | succ n ih => exact ih _ _ _ (writeByte_wf s a _ h)

/-- Where no line is forwarded, a location is its own home. -/
theorem homeLoc_plain (s : State) (a : Nat) (h : s.forward = []) : homeLoc s a = a := by
  simp [homeLoc, h, SMap.find]

/-- Where no line is forwarded, bytes outside those written are unchanged. -/
theorem readByte_writeN_other (s : State) (a n v b : Nat) (hf : s.forward = []) (h : b < a ∨ a + n ≤ b) :
    readByte (writeN s a n v) b = readByte s b := by
  induction n generalizing s a v with
  | zero => rfl
  | succ n ih =>
    have hf' : (writeByte s a (BitVec.ofNat 8 v)).forward = [] := by
      rw [writeByte_frame]
      exact hf
    rw [writeN, ih _ _ _ hf' (by omega), readByte_writeByte_other]
    rw [homeLoc_plain s a hf, homeLoc_plain s b hf]
    omega

end Sys2Proof.Machine
end

