-- ==== Sys2Proof/Laws/State.lean ====
section
/-! SUPPORT. What each update of a unit leaves: one lemma per field and update, and reading a unit after an update. -/
namespace Sys2Proof.Machine

open Sys2Proof

/-! ## `setHart` changes `harts` only -/

@[simp] theorem setHart_node (s : State) (hk : Nat) (h : Hart) : (setHart s hk h).node = s.node := rfl
@[simp] theorem setHart_cur (s : State) (hk : Nat) (h : Hart) : (setHart s hk h).cur = s.cur := rfl
@[simp] theorem setHart_cores (s : State) (hk : Nat) (h : Hart) : (setHart s hk h).cores = s.cores := rfl
@[simp] theorem setHart_clusters (s : State) (hk : Nat) (h : Hart) : (setHart s hk h).clusters = s.clusters := rfl
@[simp] theorem setHart_dies (s : State) (hk : Nat) (h : Hart) : (setHart s hk h).dies = s.dies := rfl
@[simp] theorem setHart_devs (s : State) (hk : Nat) (h : Hart) : (setHart s hk h).devs = s.devs := rfl
@[simp] theorem setHart_ctxs (s : State) (hk : Nat) (h : Hart) : (setHart s hk h).ctxs = s.ctxs := rfl
@[simp] theorem setHart_queues (s : State) (hk : Nat) (h : Hart) : (setHart s hk h).queues = s.queues := rfl
@[simp] theorem setHart_launches (s : State) (hk : Nat) (h : Hart) : (setHart s hk h).launches = s.launches := rfl
@[simp] theorem setHart_domains (s : State) (hk : Nat) (h : Hart) : (setHart s hk h).domains = s.domains := rfl
@[simp] theorem setHart_commits (s : State) (hk : Nat) (h : Hart) : (setHart s hk h).commits = s.commits := rfl
@[simp] theorem setHart_draws (s : State) (hk : Nat) (h : Hart) : (setHart s hk h).draws = s.draws := rfl
@[simp] theorem setHart_closedDraws (s : State) (hk : Nat) (h : Hart) : (setHart s hk h).closedDraws = s.closedDraws := rfl
@[simp] theorem setHart_sqs (s : State) (hk : Nat) (h : Hart) : (setHart s hk h).sqs = s.sqs := rfl
@[simp] theorem setHart_walks (s : State) (hk : Nat) (h : Hart) : (setHart s hk h).walks = s.walks := rfl
@[simp] theorem setHart_admins (s : State) (hk : Nat) (h : Hart) : (setHart s hk h).admins = s.admins := rfl
@[simp] theorem setHart_jobs (s : State) (hk : Nat) (h : Hart) : (setHart s hk h).jobs = s.jobs := rfl
@[simp] theorem setHart_tokens (s : State) (hk : Nat) (h : Hart) : (setHart s hk h).tokens = s.tokens := rfl
@[simp] theorem setHart_ops (s : State) (hk : Nat) (h : Hart) : (setHart s hk h).ops = s.ops := rfl
@[simp] theorem setHart_revs (s : State) (hk : Nat) (h : Hart) : (setHart s hk h).revs = s.revs := rfl
@[simp] theorem setHart_flights (s : State) (hk : Nat) (h : Hart) : (setHart s hk h).flights = s.flights := rfl
@[simp] theorem setHart_poison (s : State) (hk : Nat) (h : Hart) : (setHart s hk h).poison = s.poison := rfl
@[simp] theorem setHart_forward (s : State) (hk : Nat) (h : Hart) : (setHart s hk h).forward = s.forward := rfl
@[simp] theorem setHart_l2 (s : State) (hk : Nat) (h : Hart) : (setHart s hk h).l2 = s.l2 := rfl
@[simp] theorem setHart_sharers (s : State) (hk : Nat) (h : Hart) : (setHart s hk h).sharers = s.sharers := rfl
@[simp] theorem setHart_skews (s : State) (hk : Nat) (h : Hart) : (setHart s hk h).skews = s.skews := rfl
@[simp] theorem setHart_tbStep (s : State) (hk : Nat) (h : Hart) : (setHart s hk h).tbStep = s.tbStep := rfl
@[simp] theorem setHart_mem (s : State) (hk : Nat) (h : Hart) : (setHart s hk h).mem = s.mem := rfl
@[simp] theorem setHart_inputs (s : State) (hk : Nat) (h : Hart) : (setHart s hk h).inputs = s.inputs := rfl
@[simp] theorem setHart_pending (s : State) (hk : Nat) (h : Hart) : (setHart s hk h).pending = s.pending := rfl
@[simp] theorem setHart_turn (s : State) (hk : Nat) (h : Hart) : (setHart s hk h).turn = s.turn := rfl
@[simp] theorem setHart_nextId (s : State) (hk : Nat) (h : Hart) : (setHart s hk h).nextId = s.nextId := rfl

/-! ## `modHart` changes `harts` only -/

@[simp] theorem modHart_node (s : State) (hk : Nat) (f : Hart → Hart) : (modHart s hk f).node = s.node := rfl
@[simp] theorem modHart_cur (s : State) (hk : Nat) (f : Hart → Hart) : (modHart s hk f).cur = s.cur := rfl
@[simp] theorem modHart_cores (s : State) (hk : Nat) (f : Hart → Hart) : (modHart s hk f).cores = s.cores := rfl
@[simp] theorem modHart_clusters (s : State) (hk : Nat) (f : Hart → Hart) : (modHart s hk f).clusters = s.clusters := rfl
@[simp] theorem modHart_dies (s : State) (hk : Nat) (f : Hart → Hart) : (modHart s hk f).dies = s.dies := rfl
@[simp] theorem modHart_devs (s : State) (hk : Nat) (f : Hart → Hart) : (modHart s hk f).devs = s.devs := rfl
@[simp] theorem modHart_ctxs (s : State) (hk : Nat) (f : Hart → Hart) : (modHart s hk f).ctxs = s.ctxs := rfl
@[simp] theorem modHart_queues (s : State) (hk : Nat) (f : Hart → Hart) : (modHart s hk f).queues = s.queues := rfl
@[simp] theorem modHart_launches (s : State) (hk : Nat) (f : Hart → Hart) : (modHart s hk f).launches = s.launches := rfl
@[simp] theorem modHart_domains (s : State) (hk : Nat) (f : Hart → Hart) : (modHart s hk f).domains = s.domains := rfl
@[simp] theorem modHart_commits (s : State) (hk : Nat) (f : Hart → Hart) : (modHart s hk f).commits = s.commits := rfl
@[simp] theorem modHart_draws (s : State) (hk : Nat) (f : Hart → Hart) : (modHart s hk f).draws = s.draws := rfl
@[simp] theorem modHart_closedDraws (s : State) (hk : Nat) (f : Hart → Hart) : (modHart s hk f).closedDraws = s.closedDraws := rfl
@[simp] theorem modHart_sqs (s : State) (hk : Nat) (f : Hart → Hart) : (modHart s hk f).sqs = s.sqs := rfl
@[simp] theorem modHart_walks (s : State) (hk : Nat) (f : Hart → Hart) : (modHart s hk f).walks = s.walks := rfl
@[simp] theorem modHart_admins (s : State) (hk : Nat) (f : Hart → Hart) : (modHart s hk f).admins = s.admins := rfl
@[simp] theorem modHart_jobs (s : State) (hk : Nat) (f : Hart → Hart) : (modHart s hk f).jobs = s.jobs := rfl
@[simp] theorem modHart_tokens (s : State) (hk : Nat) (f : Hart → Hart) : (modHart s hk f).tokens = s.tokens := rfl
@[simp] theorem modHart_ops (s : State) (hk : Nat) (f : Hart → Hart) : (modHart s hk f).ops = s.ops := rfl
@[simp] theorem modHart_revs (s : State) (hk : Nat) (f : Hart → Hart) : (modHart s hk f).revs = s.revs := rfl
@[simp] theorem modHart_flights (s : State) (hk : Nat) (f : Hart → Hart) : (modHart s hk f).flights = s.flights := rfl
@[simp] theorem modHart_poison (s : State) (hk : Nat) (f : Hart → Hart) : (modHart s hk f).poison = s.poison := rfl
@[simp] theorem modHart_forward (s : State) (hk : Nat) (f : Hart → Hart) : (modHart s hk f).forward = s.forward := rfl
@[simp] theorem modHart_l2 (s : State) (hk : Nat) (f : Hart → Hart) : (modHart s hk f).l2 = s.l2 := rfl
@[simp] theorem modHart_sharers (s : State) (hk : Nat) (f : Hart → Hart) : (modHart s hk f).sharers = s.sharers := rfl
@[simp] theorem modHart_skews (s : State) (hk : Nat) (f : Hart → Hart) : (modHart s hk f).skews = s.skews := rfl
@[simp] theorem modHart_tbStep (s : State) (hk : Nat) (f : Hart → Hart) : (modHart s hk f).tbStep = s.tbStep := rfl
@[simp] theorem modHart_mem (s : State) (hk : Nat) (f : Hart → Hart) : (modHart s hk f).mem = s.mem := rfl
@[simp] theorem modHart_inputs (s : State) (hk : Nat) (f : Hart → Hart) : (modHart s hk f).inputs = s.inputs := rfl
@[simp] theorem modHart_pending (s : State) (hk : Nat) (f : Hart → Hart) : (modHart s hk f).pending = s.pending := rfl
@[simp] theorem modHart_turn (s : State) (hk : Nat) (f : Hart → Hart) : (modHart s hk f).turn = s.turn := rfl
@[simp] theorem modHart_nextId (s : State) (hk : Nat) (f : Hart → Hart) : (modHart s hk f).nextId = s.nextId := rfl

/-! ## `setCore` changes `cores` only -/

@[simp] theorem setCore_node (s : State) (k : Nat) (c : Core) : (setCore s k c).node = s.node := rfl
@[simp] theorem setCore_cur (s : State) (k : Nat) (c : Core) : (setCore s k c).cur = s.cur := rfl
@[simp] theorem setCore_harts (s : State) (k : Nat) (c : Core) : (setCore s k c).harts = s.harts := rfl
@[simp] theorem setCore_clusters (s : State) (k : Nat) (c : Core) : (setCore s k c).clusters = s.clusters := rfl
@[simp] theorem setCore_dies (s : State) (k : Nat) (c : Core) : (setCore s k c).dies = s.dies := rfl
@[simp] theorem setCore_devs (s : State) (k : Nat) (c : Core) : (setCore s k c).devs = s.devs := rfl
@[simp] theorem setCore_ctxs (s : State) (k : Nat) (c : Core) : (setCore s k c).ctxs = s.ctxs := rfl
@[simp] theorem setCore_queues (s : State) (k : Nat) (c : Core) : (setCore s k c).queues = s.queues := rfl
@[simp] theorem setCore_launches (s : State) (k : Nat) (c : Core) : (setCore s k c).launches = s.launches := rfl
@[simp] theorem setCore_domains (s : State) (k : Nat) (c : Core) : (setCore s k c).domains = s.domains := rfl
@[simp] theorem setCore_commits (s : State) (k : Nat) (c : Core) : (setCore s k c).commits = s.commits := rfl
@[simp] theorem setCore_draws (s : State) (k : Nat) (c : Core) : (setCore s k c).draws = s.draws := rfl
@[simp] theorem setCore_closedDraws (s : State) (k : Nat) (c : Core) : (setCore s k c).closedDraws = s.closedDraws := rfl
@[simp] theorem setCore_sqs (s : State) (k : Nat) (c : Core) : (setCore s k c).sqs = s.sqs := rfl
@[simp] theorem setCore_walks (s : State) (k : Nat) (c : Core) : (setCore s k c).walks = s.walks := rfl
@[simp] theorem setCore_admins (s : State) (k : Nat) (c : Core) : (setCore s k c).admins = s.admins := rfl
@[simp] theorem setCore_jobs (s : State) (k : Nat) (c : Core) : (setCore s k c).jobs = s.jobs := rfl
@[simp] theorem setCore_tokens (s : State) (k : Nat) (c : Core) : (setCore s k c).tokens = s.tokens := rfl
@[simp] theorem setCore_ops (s : State) (k : Nat) (c : Core) : (setCore s k c).ops = s.ops := rfl
@[simp] theorem setCore_revs (s : State) (k : Nat) (c : Core) : (setCore s k c).revs = s.revs := rfl
@[simp] theorem setCore_flights (s : State) (k : Nat) (c : Core) : (setCore s k c).flights = s.flights := rfl
@[simp] theorem setCore_poison (s : State) (k : Nat) (c : Core) : (setCore s k c).poison = s.poison := rfl
@[simp] theorem setCore_forward (s : State) (k : Nat) (c : Core) : (setCore s k c).forward = s.forward := rfl
@[simp] theorem setCore_l2 (s : State) (k : Nat) (c : Core) : (setCore s k c).l2 = s.l2 := rfl
@[simp] theorem setCore_sharers (s : State) (k : Nat) (c : Core) : (setCore s k c).sharers = s.sharers := rfl
@[simp] theorem setCore_skews (s : State) (k : Nat) (c : Core) : (setCore s k c).skews = s.skews := rfl
@[simp] theorem setCore_tbStep (s : State) (k : Nat) (c : Core) : (setCore s k c).tbStep = s.tbStep := rfl
@[simp] theorem setCore_mem (s : State) (k : Nat) (c : Core) : (setCore s k c).mem = s.mem := rfl
@[simp] theorem setCore_inputs (s : State) (k : Nat) (c : Core) : (setCore s k c).inputs = s.inputs := rfl
@[simp] theorem setCore_pending (s : State) (k : Nat) (c : Core) : (setCore s k c).pending = s.pending := rfl
@[simp] theorem setCore_turn (s : State) (k : Nat) (c : Core) : (setCore s k c).turn = s.turn := rfl
@[simp] theorem setCore_nextId (s : State) (k : Nat) (c : Core) : (setCore s k c).nextId = s.nextId := rfl

/-! ## `modCore` changes `cores` only -/

@[simp] theorem modCore_node (s : State) (k : Nat) (f : Core → Core) : (modCore s k f).node = s.node := rfl
@[simp] theorem modCore_cur (s : State) (k : Nat) (f : Core → Core) : (modCore s k f).cur = s.cur := rfl
@[simp] theorem modCore_harts (s : State) (k : Nat) (f : Core → Core) : (modCore s k f).harts = s.harts := rfl
@[simp] theorem modCore_clusters (s : State) (k : Nat) (f : Core → Core) : (modCore s k f).clusters = s.clusters := rfl
@[simp] theorem modCore_dies (s : State) (k : Nat) (f : Core → Core) : (modCore s k f).dies = s.dies := rfl
@[simp] theorem modCore_devs (s : State) (k : Nat) (f : Core → Core) : (modCore s k f).devs = s.devs := rfl
@[simp] theorem modCore_ctxs (s : State) (k : Nat) (f : Core → Core) : (modCore s k f).ctxs = s.ctxs := rfl
@[simp] theorem modCore_queues (s : State) (k : Nat) (f : Core → Core) : (modCore s k f).queues = s.queues := rfl
@[simp] theorem modCore_launches (s : State) (k : Nat) (f : Core → Core) : (modCore s k f).launches = s.launches := rfl
@[simp] theorem modCore_domains (s : State) (k : Nat) (f : Core → Core) : (modCore s k f).domains = s.domains := rfl
@[simp] theorem modCore_commits (s : State) (k : Nat) (f : Core → Core) : (modCore s k f).commits = s.commits := rfl
@[simp] theorem modCore_draws (s : State) (k : Nat) (f : Core → Core) : (modCore s k f).draws = s.draws := rfl
@[simp] theorem modCore_closedDraws (s : State) (k : Nat) (f : Core → Core) : (modCore s k f).closedDraws = s.closedDraws := rfl
@[simp] theorem modCore_sqs (s : State) (k : Nat) (f : Core → Core) : (modCore s k f).sqs = s.sqs := rfl
@[simp] theorem modCore_walks (s : State) (k : Nat) (f : Core → Core) : (modCore s k f).walks = s.walks := rfl
@[simp] theorem modCore_admins (s : State) (k : Nat) (f : Core → Core) : (modCore s k f).admins = s.admins := rfl
@[simp] theorem modCore_jobs (s : State) (k : Nat) (f : Core → Core) : (modCore s k f).jobs = s.jobs := rfl
@[simp] theorem modCore_tokens (s : State) (k : Nat) (f : Core → Core) : (modCore s k f).tokens = s.tokens := rfl
@[simp] theorem modCore_ops (s : State) (k : Nat) (f : Core → Core) : (modCore s k f).ops = s.ops := rfl
@[simp] theorem modCore_revs (s : State) (k : Nat) (f : Core → Core) : (modCore s k f).revs = s.revs := rfl
@[simp] theorem modCore_flights (s : State) (k : Nat) (f : Core → Core) : (modCore s k f).flights = s.flights := rfl
@[simp] theorem modCore_poison (s : State) (k : Nat) (f : Core → Core) : (modCore s k f).poison = s.poison := rfl
@[simp] theorem modCore_forward (s : State) (k : Nat) (f : Core → Core) : (modCore s k f).forward = s.forward := rfl
@[simp] theorem modCore_l2 (s : State) (k : Nat) (f : Core → Core) : (modCore s k f).l2 = s.l2 := rfl
@[simp] theorem modCore_sharers (s : State) (k : Nat) (f : Core → Core) : (modCore s k f).sharers = s.sharers := rfl
@[simp] theorem modCore_skews (s : State) (k : Nat) (f : Core → Core) : (modCore s k f).skews = s.skews := rfl
@[simp] theorem modCore_tbStep (s : State) (k : Nat) (f : Core → Core) : (modCore s k f).tbStep = s.tbStep := rfl
@[simp] theorem modCore_mem (s : State) (k : Nat) (f : Core → Core) : (modCore s k f).mem = s.mem := rfl
@[simp] theorem modCore_inputs (s : State) (k : Nat) (f : Core → Core) : (modCore s k f).inputs = s.inputs := rfl
@[simp] theorem modCore_pending (s : State) (k : Nat) (f : Core → Core) : (modCore s k f).pending = s.pending := rfl
@[simp] theorem modCore_turn (s : State) (k : Nat) (f : Core → Core) : (modCore s k f).turn = s.turn := rfl
@[simp] theorem modCore_nextId (s : State) (k : Nat) (f : Core → Core) : (modCore s k f).nextId = s.nextId := rfl

/-! ## `setClus` changes `clusters` only -/

@[simp] theorem setClus_node (s : State) (k : Nat) (c : Cluster) : (setClus s k c).node = s.node := rfl
@[simp] theorem setClus_cur (s : State) (k : Nat) (c : Cluster) : (setClus s k c).cur = s.cur := rfl
@[simp] theorem setClus_harts (s : State) (k : Nat) (c : Cluster) : (setClus s k c).harts = s.harts := rfl
@[simp] theorem setClus_cores (s : State) (k : Nat) (c : Cluster) : (setClus s k c).cores = s.cores := rfl
@[simp] theorem setClus_dies (s : State) (k : Nat) (c : Cluster) : (setClus s k c).dies = s.dies := rfl
@[simp] theorem setClus_devs (s : State) (k : Nat) (c : Cluster) : (setClus s k c).devs = s.devs := rfl
@[simp] theorem setClus_ctxs (s : State) (k : Nat) (c : Cluster) : (setClus s k c).ctxs = s.ctxs := rfl
@[simp] theorem setClus_queues (s : State) (k : Nat) (c : Cluster) : (setClus s k c).queues = s.queues := rfl
@[simp] theorem setClus_launches (s : State) (k : Nat) (c : Cluster) : (setClus s k c).launches = s.launches := rfl
@[simp] theorem setClus_domains (s : State) (k : Nat) (c : Cluster) : (setClus s k c).domains = s.domains := rfl
@[simp] theorem setClus_commits (s : State) (k : Nat) (c : Cluster) : (setClus s k c).commits = s.commits := rfl
@[simp] theorem setClus_draws (s : State) (k : Nat) (c : Cluster) : (setClus s k c).draws = s.draws := rfl
@[simp] theorem setClus_closedDraws (s : State) (k : Nat) (c : Cluster) : (setClus s k c).closedDraws = s.closedDraws := rfl
@[simp] theorem setClus_sqs (s : State) (k : Nat) (c : Cluster) : (setClus s k c).sqs = s.sqs := rfl
@[simp] theorem setClus_walks (s : State) (k : Nat) (c : Cluster) : (setClus s k c).walks = s.walks := rfl
@[simp] theorem setClus_admins (s : State) (k : Nat) (c : Cluster) : (setClus s k c).admins = s.admins := rfl
@[simp] theorem setClus_jobs (s : State) (k : Nat) (c : Cluster) : (setClus s k c).jobs = s.jobs := rfl
@[simp] theorem setClus_tokens (s : State) (k : Nat) (c : Cluster) : (setClus s k c).tokens = s.tokens := rfl
@[simp] theorem setClus_ops (s : State) (k : Nat) (c : Cluster) : (setClus s k c).ops = s.ops := rfl
@[simp] theorem setClus_revs (s : State) (k : Nat) (c : Cluster) : (setClus s k c).revs = s.revs := rfl
@[simp] theorem setClus_flights (s : State) (k : Nat) (c : Cluster) : (setClus s k c).flights = s.flights := rfl
@[simp] theorem setClus_poison (s : State) (k : Nat) (c : Cluster) : (setClus s k c).poison = s.poison := rfl
@[simp] theorem setClus_forward (s : State) (k : Nat) (c : Cluster) : (setClus s k c).forward = s.forward := rfl
@[simp] theorem setClus_l2 (s : State) (k : Nat) (c : Cluster) : (setClus s k c).l2 = s.l2 := rfl
@[simp] theorem setClus_sharers (s : State) (k : Nat) (c : Cluster) : (setClus s k c).sharers = s.sharers := rfl
@[simp] theorem setClus_skews (s : State) (k : Nat) (c : Cluster) : (setClus s k c).skews = s.skews := rfl
@[simp] theorem setClus_tbStep (s : State) (k : Nat) (c : Cluster) : (setClus s k c).tbStep = s.tbStep := rfl
@[simp] theorem setClus_mem (s : State) (k : Nat) (c : Cluster) : (setClus s k c).mem = s.mem := rfl
@[simp] theorem setClus_inputs (s : State) (k : Nat) (c : Cluster) : (setClus s k c).inputs = s.inputs := rfl
@[simp] theorem setClus_pending (s : State) (k : Nat) (c : Cluster) : (setClus s k c).pending = s.pending := rfl
@[simp] theorem setClus_turn (s : State) (k : Nat) (c : Cluster) : (setClus s k c).turn = s.turn := rfl
@[simp] theorem setClus_nextId (s : State) (k : Nat) (c : Cluster) : (setClus s k c).nextId = s.nextId := rfl

/-! ## `modClus` changes `clusters` only -/

@[simp] theorem modClus_node (s : State) (k : Nat) (f : Cluster → Cluster) : (modClus s k f).node = s.node := rfl
@[simp] theorem modClus_cur (s : State) (k : Nat) (f : Cluster → Cluster) : (modClus s k f).cur = s.cur := rfl
@[simp] theorem modClus_harts (s : State) (k : Nat) (f : Cluster → Cluster) : (modClus s k f).harts = s.harts := rfl
@[simp] theorem modClus_cores (s : State) (k : Nat) (f : Cluster → Cluster) : (modClus s k f).cores = s.cores := rfl
@[simp] theorem modClus_dies (s : State) (k : Nat) (f : Cluster → Cluster) : (modClus s k f).dies = s.dies := rfl
@[simp] theorem modClus_devs (s : State) (k : Nat) (f : Cluster → Cluster) : (modClus s k f).devs = s.devs := rfl
@[simp] theorem modClus_ctxs (s : State) (k : Nat) (f : Cluster → Cluster) : (modClus s k f).ctxs = s.ctxs := rfl
@[simp] theorem modClus_queues (s : State) (k : Nat) (f : Cluster → Cluster) : (modClus s k f).queues = s.queues := rfl
@[simp] theorem modClus_launches (s : State) (k : Nat) (f : Cluster → Cluster) : (modClus s k f).launches = s.launches := rfl
@[simp] theorem modClus_domains (s : State) (k : Nat) (f : Cluster → Cluster) : (modClus s k f).domains = s.domains := rfl
@[simp] theorem modClus_commits (s : State) (k : Nat) (f : Cluster → Cluster) : (modClus s k f).commits = s.commits := rfl
@[simp] theorem modClus_draws (s : State) (k : Nat) (f : Cluster → Cluster) : (modClus s k f).draws = s.draws := rfl
@[simp] theorem modClus_closedDraws (s : State) (k : Nat) (f : Cluster → Cluster) : (modClus s k f).closedDraws = s.closedDraws := rfl
@[simp] theorem modClus_sqs (s : State) (k : Nat) (f : Cluster → Cluster) : (modClus s k f).sqs = s.sqs := rfl
@[simp] theorem modClus_walks (s : State) (k : Nat) (f : Cluster → Cluster) : (modClus s k f).walks = s.walks := rfl
@[simp] theorem modClus_admins (s : State) (k : Nat) (f : Cluster → Cluster) : (modClus s k f).admins = s.admins := rfl
@[simp] theorem modClus_jobs (s : State) (k : Nat) (f : Cluster → Cluster) : (modClus s k f).jobs = s.jobs := rfl
@[simp] theorem modClus_tokens (s : State) (k : Nat) (f : Cluster → Cluster) : (modClus s k f).tokens = s.tokens := rfl
@[simp] theorem modClus_ops (s : State) (k : Nat) (f : Cluster → Cluster) : (modClus s k f).ops = s.ops := rfl
@[simp] theorem modClus_revs (s : State) (k : Nat) (f : Cluster → Cluster) : (modClus s k f).revs = s.revs := rfl
@[simp] theorem modClus_flights (s : State) (k : Nat) (f : Cluster → Cluster) : (modClus s k f).flights = s.flights := rfl
@[simp] theorem modClus_poison (s : State) (k : Nat) (f : Cluster → Cluster) : (modClus s k f).poison = s.poison := rfl
@[simp] theorem modClus_forward (s : State) (k : Nat) (f : Cluster → Cluster) : (modClus s k f).forward = s.forward := rfl
@[simp] theorem modClus_l2 (s : State) (k : Nat) (f : Cluster → Cluster) : (modClus s k f).l2 = s.l2 := rfl
@[simp] theorem modClus_sharers (s : State) (k : Nat) (f : Cluster → Cluster) : (modClus s k f).sharers = s.sharers := rfl
@[simp] theorem modClus_skews (s : State) (k : Nat) (f : Cluster → Cluster) : (modClus s k f).skews = s.skews := rfl
@[simp] theorem modClus_tbStep (s : State) (k : Nat) (f : Cluster → Cluster) : (modClus s k f).tbStep = s.tbStep := rfl
@[simp] theorem modClus_mem (s : State) (k : Nat) (f : Cluster → Cluster) : (modClus s k f).mem = s.mem := rfl
@[simp] theorem modClus_inputs (s : State) (k : Nat) (f : Cluster → Cluster) : (modClus s k f).inputs = s.inputs := rfl
@[simp] theorem modClus_pending (s : State) (k : Nat) (f : Cluster → Cluster) : (modClus s k f).pending = s.pending := rfl
@[simp] theorem modClus_turn (s : State) (k : Nat) (f : Cluster → Cluster) : (modClus s k f).turn = s.turn := rfl
@[simp] theorem modClus_nextId (s : State) (k : Nat) (f : Cluster → Cluster) : (modClus s k f).nextId = s.nextId := rfl

/-! ## `setDie` changes `dies` only -/

@[simp] theorem setDie_node (s : State) (k : Nat) (d : Die) : (setDie s k d).node = s.node := rfl
@[simp] theorem setDie_cur (s : State) (k : Nat) (d : Die) : (setDie s k d).cur = s.cur := rfl
@[simp] theorem setDie_harts (s : State) (k : Nat) (d : Die) : (setDie s k d).harts = s.harts := rfl
@[simp] theorem setDie_cores (s : State) (k : Nat) (d : Die) : (setDie s k d).cores = s.cores := rfl
@[simp] theorem setDie_clusters (s : State) (k : Nat) (d : Die) : (setDie s k d).clusters = s.clusters := rfl
@[simp] theorem setDie_devs (s : State) (k : Nat) (d : Die) : (setDie s k d).devs = s.devs := rfl
@[simp] theorem setDie_ctxs (s : State) (k : Nat) (d : Die) : (setDie s k d).ctxs = s.ctxs := rfl
@[simp] theorem setDie_queues (s : State) (k : Nat) (d : Die) : (setDie s k d).queues = s.queues := rfl
@[simp] theorem setDie_launches (s : State) (k : Nat) (d : Die) : (setDie s k d).launches = s.launches := rfl
@[simp] theorem setDie_domains (s : State) (k : Nat) (d : Die) : (setDie s k d).domains = s.domains := rfl
@[simp] theorem setDie_commits (s : State) (k : Nat) (d : Die) : (setDie s k d).commits = s.commits := rfl
@[simp] theorem setDie_draws (s : State) (k : Nat) (d : Die) : (setDie s k d).draws = s.draws := rfl
@[simp] theorem setDie_closedDraws (s : State) (k : Nat) (d : Die) : (setDie s k d).closedDraws = s.closedDraws := rfl
@[simp] theorem setDie_sqs (s : State) (k : Nat) (d : Die) : (setDie s k d).sqs = s.sqs := rfl
@[simp] theorem setDie_walks (s : State) (k : Nat) (d : Die) : (setDie s k d).walks = s.walks := rfl
@[simp] theorem setDie_admins (s : State) (k : Nat) (d : Die) : (setDie s k d).admins = s.admins := rfl
@[simp] theorem setDie_jobs (s : State) (k : Nat) (d : Die) : (setDie s k d).jobs = s.jobs := rfl
@[simp] theorem setDie_tokens (s : State) (k : Nat) (d : Die) : (setDie s k d).tokens = s.tokens := rfl
@[simp] theorem setDie_ops (s : State) (k : Nat) (d : Die) : (setDie s k d).ops = s.ops := rfl
@[simp] theorem setDie_revs (s : State) (k : Nat) (d : Die) : (setDie s k d).revs = s.revs := rfl
@[simp] theorem setDie_flights (s : State) (k : Nat) (d : Die) : (setDie s k d).flights = s.flights := rfl
@[simp] theorem setDie_poison (s : State) (k : Nat) (d : Die) : (setDie s k d).poison = s.poison := rfl
@[simp] theorem setDie_forward (s : State) (k : Nat) (d : Die) : (setDie s k d).forward = s.forward := rfl
@[simp] theorem setDie_l2 (s : State) (k : Nat) (d : Die) : (setDie s k d).l2 = s.l2 := rfl
@[simp] theorem setDie_sharers (s : State) (k : Nat) (d : Die) : (setDie s k d).sharers = s.sharers := rfl
@[simp] theorem setDie_skews (s : State) (k : Nat) (d : Die) : (setDie s k d).skews = s.skews := rfl
@[simp] theorem setDie_tbStep (s : State) (k : Nat) (d : Die) : (setDie s k d).tbStep = s.tbStep := rfl
@[simp] theorem setDie_mem (s : State) (k : Nat) (d : Die) : (setDie s k d).mem = s.mem := rfl
@[simp] theorem setDie_inputs (s : State) (k : Nat) (d : Die) : (setDie s k d).inputs = s.inputs := rfl
@[simp] theorem setDie_pending (s : State) (k : Nat) (d : Die) : (setDie s k d).pending = s.pending := rfl
@[simp] theorem setDie_turn (s : State) (k : Nat) (d : Die) : (setDie s k d).turn = s.turn := rfl
@[simp] theorem setDie_nextId (s : State) (k : Nat) (d : Die) : (setDie s k d).nextId = s.nextId := rfl

/-! ## `modDie` changes `dies` only -/

@[simp] theorem modDie_node (s : State) (k : Nat) (f : Die → Die) : (modDie s k f).node = s.node := rfl
@[simp] theorem modDie_cur (s : State) (k : Nat) (f : Die → Die) : (modDie s k f).cur = s.cur := rfl
@[simp] theorem modDie_harts (s : State) (k : Nat) (f : Die → Die) : (modDie s k f).harts = s.harts := rfl
@[simp] theorem modDie_cores (s : State) (k : Nat) (f : Die → Die) : (modDie s k f).cores = s.cores := rfl
@[simp] theorem modDie_clusters (s : State) (k : Nat) (f : Die → Die) : (modDie s k f).clusters = s.clusters := rfl
@[simp] theorem modDie_devs (s : State) (k : Nat) (f : Die → Die) : (modDie s k f).devs = s.devs := rfl
@[simp] theorem modDie_ctxs (s : State) (k : Nat) (f : Die → Die) : (modDie s k f).ctxs = s.ctxs := rfl
@[simp] theorem modDie_queues (s : State) (k : Nat) (f : Die → Die) : (modDie s k f).queues = s.queues := rfl
@[simp] theorem modDie_launches (s : State) (k : Nat) (f : Die → Die) : (modDie s k f).launches = s.launches := rfl
@[simp] theorem modDie_domains (s : State) (k : Nat) (f : Die → Die) : (modDie s k f).domains = s.domains := rfl
@[simp] theorem modDie_commits (s : State) (k : Nat) (f : Die → Die) : (modDie s k f).commits = s.commits := rfl
@[simp] theorem modDie_draws (s : State) (k : Nat) (f : Die → Die) : (modDie s k f).draws = s.draws := rfl
@[simp] theorem modDie_closedDraws (s : State) (k : Nat) (f : Die → Die) : (modDie s k f).closedDraws = s.closedDraws := rfl
@[simp] theorem modDie_sqs (s : State) (k : Nat) (f : Die → Die) : (modDie s k f).sqs = s.sqs := rfl
@[simp] theorem modDie_walks (s : State) (k : Nat) (f : Die → Die) : (modDie s k f).walks = s.walks := rfl
@[simp] theorem modDie_admins (s : State) (k : Nat) (f : Die → Die) : (modDie s k f).admins = s.admins := rfl
@[simp] theorem modDie_jobs (s : State) (k : Nat) (f : Die → Die) : (modDie s k f).jobs = s.jobs := rfl
@[simp] theorem modDie_tokens (s : State) (k : Nat) (f : Die → Die) : (modDie s k f).tokens = s.tokens := rfl
@[simp] theorem modDie_ops (s : State) (k : Nat) (f : Die → Die) : (modDie s k f).ops = s.ops := rfl
@[simp] theorem modDie_revs (s : State) (k : Nat) (f : Die → Die) : (modDie s k f).revs = s.revs := rfl
@[simp] theorem modDie_flights (s : State) (k : Nat) (f : Die → Die) : (modDie s k f).flights = s.flights := rfl
@[simp] theorem modDie_poison (s : State) (k : Nat) (f : Die → Die) : (modDie s k f).poison = s.poison := rfl
@[simp] theorem modDie_forward (s : State) (k : Nat) (f : Die → Die) : (modDie s k f).forward = s.forward := rfl
@[simp] theorem modDie_l2 (s : State) (k : Nat) (f : Die → Die) : (modDie s k f).l2 = s.l2 := rfl
@[simp] theorem modDie_sharers (s : State) (k : Nat) (f : Die → Die) : (modDie s k f).sharers = s.sharers := rfl
@[simp] theorem modDie_skews (s : State) (k : Nat) (f : Die → Die) : (modDie s k f).skews = s.skews := rfl
@[simp] theorem modDie_tbStep (s : State) (k : Nat) (f : Die → Die) : (modDie s k f).tbStep = s.tbStep := rfl
@[simp] theorem modDie_mem (s : State) (k : Nat) (f : Die → Die) : (modDie s k f).mem = s.mem := rfl
@[simp] theorem modDie_inputs (s : State) (k : Nat) (f : Die → Die) : (modDie s k f).inputs = s.inputs := rfl
@[simp] theorem modDie_pending (s : State) (k : Nat) (f : Die → Die) : (modDie s k f).pending = s.pending := rfl
@[simp] theorem modDie_turn (s : State) (k : Nat) (f : Die → Die) : (modDie s k f).turn = s.turn := rfl
@[simp] theorem modDie_nextId (s : State) (k : Nat) (f : Die → Die) : (modDie s k f).nextId = s.nextId := rfl

/-! ## `setDev` changes `devs` only -/

@[simp] theorem setDev_node (s : State) (k : Nat) (d : Device) : (setDev s k d).node = s.node := rfl
@[simp] theorem setDev_cur (s : State) (k : Nat) (d : Device) : (setDev s k d).cur = s.cur := rfl
@[simp] theorem setDev_harts (s : State) (k : Nat) (d : Device) : (setDev s k d).harts = s.harts := rfl
@[simp] theorem setDev_cores (s : State) (k : Nat) (d : Device) : (setDev s k d).cores = s.cores := rfl
@[simp] theorem setDev_clusters (s : State) (k : Nat) (d : Device) : (setDev s k d).clusters = s.clusters := rfl
@[simp] theorem setDev_dies (s : State) (k : Nat) (d : Device) : (setDev s k d).dies = s.dies := rfl
@[simp] theorem setDev_ctxs (s : State) (k : Nat) (d : Device) : (setDev s k d).ctxs = s.ctxs := rfl
@[simp] theorem setDev_queues (s : State) (k : Nat) (d : Device) : (setDev s k d).queues = s.queues := rfl
@[simp] theorem setDev_launches (s : State) (k : Nat) (d : Device) : (setDev s k d).launches = s.launches := rfl
@[simp] theorem setDev_domains (s : State) (k : Nat) (d : Device) : (setDev s k d).domains = s.domains := rfl
@[simp] theorem setDev_commits (s : State) (k : Nat) (d : Device) : (setDev s k d).commits = s.commits := rfl
@[simp] theorem setDev_draws (s : State) (k : Nat) (d : Device) : (setDev s k d).draws = s.draws := rfl
@[simp] theorem setDev_closedDraws (s : State) (k : Nat) (d : Device) : (setDev s k d).closedDraws = s.closedDraws := rfl
@[simp] theorem setDev_sqs (s : State) (k : Nat) (d : Device) : (setDev s k d).sqs = s.sqs := rfl
@[simp] theorem setDev_walks (s : State) (k : Nat) (d : Device) : (setDev s k d).walks = s.walks := rfl
@[simp] theorem setDev_admins (s : State) (k : Nat) (d : Device) : (setDev s k d).admins = s.admins := rfl
@[simp] theorem setDev_jobs (s : State) (k : Nat) (d : Device) : (setDev s k d).jobs = s.jobs := rfl
@[simp] theorem setDev_tokens (s : State) (k : Nat) (d : Device) : (setDev s k d).tokens = s.tokens := rfl
@[simp] theorem setDev_ops (s : State) (k : Nat) (d : Device) : (setDev s k d).ops = s.ops := rfl
@[simp] theorem setDev_revs (s : State) (k : Nat) (d : Device) : (setDev s k d).revs = s.revs := rfl
@[simp] theorem setDev_flights (s : State) (k : Nat) (d : Device) : (setDev s k d).flights = s.flights := rfl
@[simp] theorem setDev_poison (s : State) (k : Nat) (d : Device) : (setDev s k d).poison = s.poison := rfl
@[simp] theorem setDev_forward (s : State) (k : Nat) (d : Device) : (setDev s k d).forward = s.forward := rfl
@[simp] theorem setDev_l2 (s : State) (k : Nat) (d : Device) : (setDev s k d).l2 = s.l2 := rfl
@[simp] theorem setDev_sharers (s : State) (k : Nat) (d : Device) : (setDev s k d).sharers = s.sharers := rfl
@[simp] theorem setDev_skews (s : State) (k : Nat) (d : Device) : (setDev s k d).skews = s.skews := rfl
@[simp] theorem setDev_tbStep (s : State) (k : Nat) (d : Device) : (setDev s k d).tbStep = s.tbStep := rfl
@[simp] theorem setDev_mem (s : State) (k : Nat) (d : Device) : (setDev s k d).mem = s.mem := rfl
@[simp] theorem setDev_inputs (s : State) (k : Nat) (d : Device) : (setDev s k d).inputs = s.inputs := rfl
@[simp] theorem setDev_pending (s : State) (k : Nat) (d : Device) : (setDev s k d).pending = s.pending := rfl
@[simp] theorem setDev_turn (s : State) (k : Nat) (d : Device) : (setDev s k d).turn = s.turn := rfl
@[simp] theorem setDev_nextId (s : State) (k : Nat) (d : Device) : (setDev s k d).nextId = s.nextId := rfl

/-! ## `modDev` changes `devs` only -/

@[simp] theorem modDev_node (s : State) (k : Nat) (f : Device → Device) : (modDev s k f).node = s.node := rfl
@[simp] theorem modDev_cur (s : State) (k : Nat) (f : Device → Device) : (modDev s k f).cur = s.cur := rfl
@[simp] theorem modDev_harts (s : State) (k : Nat) (f : Device → Device) : (modDev s k f).harts = s.harts := rfl
@[simp] theorem modDev_cores (s : State) (k : Nat) (f : Device → Device) : (modDev s k f).cores = s.cores := rfl
@[simp] theorem modDev_clusters (s : State) (k : Nat) (f : Device → Device) : (modDev s k f).clusters = s.clusters := rfl
@[simp] theorem modDev_dies (s : State) (k : Nat) (f : Device → Device) : (modDev s k f).dies = s.dies := rfl
@[simp] theorem modDev_ctxs (s : State) (k : Nat) (f : Device → Device) : (modDev s k f).ctxs = s.ctxs := rfl
@[simp] theorem modDev_queues (s : State) (k : Nat) (f : Device → Device) : (modDev s k f).queues = s.queues := rfl
@[simp] theorem modDev_launches (s : State) (k : Nat) (f : Device → Device) : (modDev s k f).launches = s.launches := rfl
@[simp] theorem modDev_domains (s : State) (k : Nat) (f : Device → Device) : (modDev s k f).domains = s.domains := rfl
@[simp] theorem modDev_commits (s : State) (k : Nat) (f : Device → Device) : (modDev s k f).commits = s.commits := rfl
@[simp] theorem modDev_draws (s : State) (k : Nat) (f : Device → Device) : (modDev s k f).draws = s.draws := rfl
@[simp] theorem modDev_closedDraws (s : State) (k : Nat) (f : Device → Device) : (modDev s k f).closedDraws = s.closedDraws := rfl
@[simp] theorem modDev_sqs (s : State) (k : Nat) (f : Device → Device) : (modDev s k f).sqs = s.sqs := rfl
@[simp] theorem modDev_walks (s : State) (k : Nat) (f : Device → Device) : (modDev s k f).walks = s.walks := rfl
@[simp] theorem modDev_admins (s : State) (k : Nat) (f : Device → Device) : (modDev s k f).admins = s.admins := rfl
@[simp] theorem modDev_jobs (s : State) (k : Nat) (f : Device → Device) : (modDev s k f).jobs = s.jobs := rfl
@[simp] theorem modDev_tokens (s : State) (k : Nat) (f : Device → Device) : (modDev s k f).tokens = s.tokens := rfl
@[simp] theorem modDev_ops (s : State) (k : Nat) (f : Device → Device) : (modDev s k f).ops = s.ops := rfl
@[simp] theorem modDev_revs (s : State) (k : Nat) (f : Device → Device) : (modDev s k f).revs = s.revs := rfl
@[simp] theorem modDev_flights (s : State) (k : Nat) (f : Device → Device) : (modDev s k f).flights = s.flights := rfl
@[simp] theorem modDev_poison (s : State) (k : Nat) (f : Device → Device) : (modDev s k f).poison = s.poison := rfl
@[simp] theorem modDev_forward (s : State) (k : Nat) (f : Device → Device) : (modDev s k f).forward = s.forward := rfl
@[simp] theorem modDev_l2 (s : State) (k : Nat) (f : Device → Device) : (modDev s k f).l2 = s.l2 := rfl
@[simp] theorem modDev_sharers (s : State) (k : Nat) (f : Device → Device) : (modDev s k f).sharers = s.sharers := rfl
@[simp] theorem modDev_skews (s : State) (k : Nat) (f : Device → Device) : (modDev s k f).skews = s.skews := rfl
@[simp] theorem modDev_tbStep (s : State) (k : Nat) (f : Device → Device) : (modDev s k f).tbStep = s.tbStep := rfl
@[simp] theorem modDev_mem (s : State) (k : Nat) (f : Device → Device) : (modDev s k f).mem = s.mem := rfl
@[simp] theorem modDev_inputs (s : State) (k : Nat) (f : Device → Device) : (modDev s k f).inputs = s.inputs := rfl
@[simp] theorem modDev_pending (s : State) (k : Nat) (f : Device → Device) : (modDev s k f).pending = s.pending := rfl
@[simp] theorem modDev_turn (s : State) (k : Nat) (f : Device → Device) : (modDev s k f).turn = s.turn := rfl
@[simp] theorem modDev_nextId (s : State) (k : Nat) (f : Device → Device) : (modDev s k f).nextId = s.nextId := rfl

/-! ## `post` changes `pending` only -/

@[simp] theorem post_node (s : State) (i : Instr) : (post s i).node = s.node := rfl
@[simp] theorem post_cur (s : State) (i : Instr) : (post s i).cur = s.cur := rfl
@[simp] theorem post_harts (s : State) (i : Instr) : (post s i).harts = s.harts := rfl
@[simp] theorem post_cores (s : State) (i : Instr) : (post s i).cores = s.cores := rfl
@[simp] theorem post_clusters (s : State) (i : Instr) : (post s i).clusters = s.clusters := rfl
@[simp] theorem post_dies (s : State) (i : Instr) : (post s i).dies = s.dies := rfl
@[simp] theorem post_devs (s : State) (i : Instr) : (post s i).devs = s.devs := rfl
@[simp] theorem post_ctxs (s : State) (i : Instr) : (post s i).ctxs = s.ctxs := rfl
@[simp] theorem post_queues (s : State) (i : Instr) : (post s i).queues = s.queues := rfl
@[simp] theorem post_launches (s : State) (i : Instr) : (post s i).launches = s.launches := rfl
@[simp] theorem post_domains (s : State) (i : Instr) : (post s i).domains = s.domains := rfl
@[simp] theorem post_commits (s : State) (i : Instr) : (post s i).commits = s.commits := rfl
@[simp] theorem post_draws (s : State) (i : Instr) : (post s i).draws = s.draws := rfl
@[simp] theorem post_closedDraws (s : State) (i : Instr) : (post s i).closedDraws = s.closedDraws := rfl
@[simp] theorem post_sqs (s : State) (i : Instr) : (post s i).sqs = s.sqs := rfl
@[simp] theorem post_walks (s : State) (i : Instr) : (post s i).walks = s.walks := rfl
@[simp] theorem post_admins (s : State) (i : Instr) : (post s i).admins = s.admins := rfl
@[simp] theorem post_jobs (s : State) (i : Instr) : (post s i).jobs = s.jobs := rfl
@[simp] theorem post_tokens (s : State) (i : Instr) : (post s i).tokens = s.tokens := rfl
@[simp] theorem post_ops (s : State) (i : Instr) : (post s i).ops = s.ops := rfl
@[simp] theorem post_revs (s : State) (i : Instr) : (post s i).revs = s.revs := rfl
@[simp] theorem post_flights (s : State) (i : Instr) : (post s i).flights = s.flights := rfl
@[simp] theorem post_poison (s : State) (i : Instr) : (post s i).poison = s.poison := rfl
@[simp] theorem post_forward (s : State) (i : Instr) : (post s i).forward = s.forward := rfl
@[simp] theorem post_l2 (s : State) (i : Instr) : (post s i).l2 = s.l2 := rfl
@[simp] theorem post_sharers (s : State) (i : Instr) : (post s i).sharers = s.sharers := rfl
@[simp] theorem post_skews (s : State) (i : Instr) : (post s i).skews = s.skews := rfl
@[simp] theorem post_tbStep (s : State) (i : Instr) : (post s i).tbStep = s.tbStep := rfl
@[simp] theorem post_mem (s : State) (i : Instr) : (post s i).mem = s.mem := rfl
@[simp] theorem post_inputs (s : State) (i : Instr) : (post s i).inputs = s.inputs := rfl
@[simp] theorem post_turn (s : State) (i : Instr) : (post s i).turn = s.turn := rfl
@[simp] theorem post_nextId (s : State) (i : Instr) : (post s i).nextId = s.nextId := rfl

/-! ## Reading a unit after an update -/

@[simp] theorem getCore_setHart (s : State) (hk k : Nat) (h : Hart) : getCore (setHart s hk h) k = getCore s k := rfl
@[simp] theorem getClus_setHart (s : State) (hk k : Nat) (h : Hart) : getClus (setHart s hk h) k = getClus s k := rfl
@[simp] theorem getDie_setHart (s : State) (hk k : Nat) (h : Hart) : getDie (setHart s hk h) k = getDie s k := rfl
@[simp] theorem getDev_setHart (s : State) (hk k : Nat) (h : Hart) : getDev (setHart s hk h) k = getDev s k := rfl
@[simp] theorem getHart_setCore (s : State) (hk k : Nat) (c : Core) : getHart (setCore s k c) hk = getHart s hk := rfl
@[simp] theorem getHart_modCore (s : State) (hk k : Nat) (f : Core → Core) : getHart (modCore s k f) hk = getHart s hk := rfl

/-- A hart just replaced is read. -/
@[simp] theorem getHart_setHart_same (s : State) (hk : Nat) (h : Hart) : getHart (setHart s hk h) hk = h := by
  simp [getHart, setHart]

/-- Replacing a hart leaves the others. -/
theorem getHart_setHart_other (s : State) (hk k : Nat) (h : Hart) (hne : hk ≠ k) :
    getHart (setHart s hk h) k = getHart s k := by
  simp [getHart, setHart, SMap.get_put_other, hne, isFwCore, isFwCol, dieCfg, getDev]

/-- A hart just changed is read. -/
@[simp] theorem getHart_modHart_same (s : State) (hk : Nat) (f : Hart → Hart) :
    getHart (modHart s hk f) hk = f (getHart s hk) := by
  simp [modHart]

/-- Changing a hart leaves the others. -/
theorem getHart_modHart_other (s : State) (hk k : Nat) (f : Hart → Hart) (hne : hk ≠ k) :
    getHart (modHart s hk f) k = getHart s k := getHart_setHart_other s hk k _ hne

/-- A core just replaced is read. -/
@[simp] theorem getCore_setCore_same (s : State) (k : Nat) (c : Core) : getCore (setCore s k c) k = c := by
  simp [getCore, setCore]

/-- Replacing a core leaves the others. -/
theorem getCore_setCore_other (s : State) (k j : Nat) (c : Core) (hne : k ≠ j) :
    getCore (setCore s k c) j = getCore s j := by
  simp [getCore, setCore, SMap.get_put_other, hne]

/-- A core just changed is read. -/
@[simp] theorem getCore_modCore_same (s : State) (k : Nat) (f : Core → Core) :
    getCore (modCore s k f) k = f (getCore s k) := by
  simp [modCore]

/-- Changing a core leaves the others. -/
theorem getCore_modCore_other (s : State) (k j : Nat) (f : Core → Core) (hne : k ≠ j) :
    getCore (modCore s k f) j = getCore s j := getCore_setCore_other s k j _ hne

/-- Replacing a hart twice keeps the last. -/
theorem setHart_setHart (s : State) (hk : Nat) (g h : Hart) : setHart (setHart s hk g) hk h = setHart s hk h := by
  simp only [setHart]
  congr 1
  exact SMap.put_put s.harts hk g h

/-! ## `Hart.advance` -/

@[simp] theorem Hart_advance_pc (h : Hart) : (Hart.advance h).pc = h.pc := rfl
@[simp] theorem Hart_advance_sregs (h : Hart) : (Hart.advance h).sregs = h.sregs := rfl
@[simp] theorem Hart_advance_chunks (h : Hart) : (Hart.advance h).chunks = h.chunks := rfl
@[simp] theorem Hart_advance_oregs (h : Hart) : (Hart.advance h).oregs = h.oregs := rfl
@[simp] theorem Hart_advance_q (h : Hart) : (Hart.advance h).q = h.q := rfl
@[simp] theorem Hart_advance_kept (h : Hart) : (Hart.advance h).kept = h.kept := rfl
@[simp] theorem Hart_advance_masks (h : Hart) : (Hart.advance h).masks = h.masks := rfl
@[simp] theorem Hart_advance_sprd (h : Hart) : (Hart.advance h).sprd = h.sprd := rfl
@[simp] theorem Hart_advance_lcnt (h : Hart) : (Hart.advance h).lcnt = h.lcnt := rfl
@[simp] theorem Hart_advance_scnt (h : Hart) : (Hart.advance h).scnt = h.scnt := rfl
@[simp] theorem Hart_advance_hstat (h : Hart) : (Hart.advance h).hstat = h.hstat := rfl
@[simp] theorem Hart_advance_hcause (h : Hart) : (Hart.advance h).hcause = h.hcause := rfl
@[simp] theorem Hart_advance_hepc (h : Hart) : (Hart.advance h).hepc = h.hepc := rfl
@[simp] theorem Hart_advance_cvr (h : Hart) : (Hart.advance h).cvr = h.cvr := rfl
@[simp] theorem Hart_advance_vri (h : Hart) : (Hart.advance h).vri = h.vri := rfl
@[simp] theorem Hart_advance_htvec (h : Hart) : (Hart.advance h).htvec = h.htvec := rfl
@[simp] theorem Hart_advance_hscr (h : Hart) : (Hart.advance h).hscr = h.hscr := rfl
@[simp] theorem Hart_advance_vcfg (h : Hart) : (Hart.advance h).vcfg = h.vcfg := rfl
@[simp] theorem Hart_advance_vl (h : Hart) : (Hart.advance h).vl = h.vl := rfl
@[simp] theorem Hart_advance_xcfg (h : Hart) : (Hart.advance h).xcfg = h.xcfg := rfl
@[simp] theorem Hart_advance_wbase (h : Hart) : (Hart.advance h).wbase = h.wbase := rfl
@[simp] theorem Hart_advance_ctxid (h : Hart) : (Hart.advance h).ctxid = h.ctxid := rfl
@[simp] theorem Hart_advance_rstat (h : Hart) : (Hart.advance h).rstat = h.rstat := rfl
@[simp] theorem Hart_advance_rbar (h : Hart) : (Hart.advance h).rbar = h.rbar := rfl
@[simp] theorem Hart_advance_ordtmo (h : Hart) : (Hart.advance h).ordtmo = h.ordtmo := rfl
@[simp] theorem Hart_advance_faddr (h : Hart) : (Hart.advance h).faddr = h.faddr := rfl
@[simp] theorem Hart_advance_held (h : Hart) : (Hart.advance h).held = h.held := rfl
@[simp] theorem Hart_advance_sticky (h : Hart) : (Hart.advance h).sticky = h.sticky := rfl
@[simp] theorem Hart_advance_dtab (h : Hart) : (Hart.advance h).dtab = h.dtab := rfl
@[simp] theorem Hart_advance_rq (h : Hart) : (Hart.advance h).rq = h.rq := rfl
@[simp] theorem Hart_advance_spill (h : Hart) : (Hart.advance h).spill = h.spill := rfl
@[simp] theorem Hart_advance_task (h : Hart) : (Hart.advance h).task = h.task := rfl
@[simp] theorem Hart_advance_started (h : Hart) : (Hart.advance h).started = h.started := rfl
@[simp] theorem Hart_advance_async (h : Hart) : (Hart.advance h).async = h.async := rfl
@[simp] theorem Hart_advance_zeroed (h : Hart) : (Hart.advance h).zeroed = h.zeroed := rfl
@[simp] theorem Hart_advance_ustride (h : Hart) : (Hart.advance h).ustride = h.ustride := rfl
@[simp] theorem Hart_advance_resume (h : Hart) : (Hart.advance h).resume = h.resume := rfl
@[simp] theorem Hart_advance_secCount (h : Hart) : (Hart.advance h).secCount = h.secCount := rfl
@[simp] theorem Hart_advance_depth (h : Hart) : (Hart.advance h).depth = h.depth := rfl
@[simp] theorem Hart_advance_stall (h : Hart) : (Hart.advance h).stall = h.stall := rfl
@[simp] theorem Hart_advance_yield (h : Hart) : (Hart.advance h).yield = h.yield := rfl
@[simp] theorem Hart_advance_lastCtx (h : Hart) : (Hart.advance h).lastCtx = h.lastCtx := rfl
@[simp] theorem Hart_advance_packed (h : Hart) : (Hart.advance h).packed = h.packed := rfl
@[simp] theorem Hart_advance_leaving (h : Hart) : (Hart.advance h).leaving = h.leaving := rfl
@[simp] theorem Hart_advance_ending (h : Hart) : (Hart.advance h).ending = h.ending := rfl
@[simp] theorem Hart_advance_sprdKept (h : Hart) : (Hart.advance h).sprdKept = h.sprdKept := rfl
@[simp] theorem Hart_advance_secOver (h : Hart) : (Hart.advance h).secOver = h.secOver := rfl
@[simp] theorem Hart_advance_pxStack (h : Hart) : (Hart.advance h).pxStack = h.pxStack := rfl

/-! ## `raise` -/

@[simp] theorem raise_pc (h : Hart) (fl : Nat) : (raise h fl).pc = h.pc := rfl
@[simp] theorem raise_st (h : Hart) (fl : Nat) : (raise h fl).st = h.st := rfl
@[simp] theorem raise_wait (h : Hart) (fl : Nat) : (raise h fl).wait = h.wait := rfl
@[simp] theorem raise_grant (h : Hart) (fl : Nat) : (raise h fl).grant = h.grant := rfl
@[simp] theorem raise_sregs (h : Hart) (fl : Nat) : (raise h fl).sregs = h.sregs := rfl
@[simp] theorem raise_chunks (h : Hart) (fl : Nat) : (raise h fl).chunks = h.chunks := rfl
@[simp] theorem raise_oregs (h : Hart) (fl : Nat) : (raise h fl).oregs = h.oregs := rfl
@[simp] theorem raise_q (h : Hart) (fl : Nat) : (raise h fl).q = h.q := rfl
@[simp] theorem raise_kept (h : Hart) (fl : Nat) : (raise h fl).kept = h.kept := rfl
@[simp] theorem raise_masks (h : Hart) (fl : Nat) : (raise h fl).masks = h.masks := rfl
@[simp] theorem raise_sprd (h : Hart) (fl : Nat) : (raise h fl).sprd = h.sprd := rfl
@[simp] theorem raise_lcnt (h : Hart) (fl : Nat) : (raise h fl).lcnt = h.lcnt := rfl
@[simp] theorem raise_scnt (h : Hart) (fl : Nat) : (raise h fl).scnt = h.scnt := rfl
@[simp] theorem raise_hstat (h : Hart) (fl : Nat) : (raise h fl).hstat = h.hstat := rfl
@[simp] theorem raise_hcause (h : Hart) (fl : Nat) : (raise h fl).hcause = h.hcause := rfl
@[simp] theorem raise_hepc (h : Hart) (fl : Nat) : (raise h fl).hepc = h.hepc := rfl
@[simp] theorem raise_cvr (h : Hart) (fl : Nat) : (raise h fl).cvr = h.cvr := rfl
@[simp] theorem raise_vri (h : Hart) (fl : Nat) : (raise h fl).vri = h.vri := rfl
@[simp] theorem raise_htvec (h : Hart) (fl : Nat) : (raise h fl).htvec = h.htvec := rfl
@[simp] theorem raise_hscr (h : Hart) (fl : Nat) : (raise h fl).hscr = h.hscr := rfl
@[simp] theorem raise_vcfg (h : Hart) (fl : Nat) : (raise h fl).vcfg = h.vcfg := rfl
@[simp] theorem raise_vl (h : Hart) (fl : Nat) : (raise h fl).vl = h.vl := rfl
@[simp] theorem raise_xcfg (h : Hart) (fl : Nat) : (raise h fl).xcfg = h.xcfg := rfl
@[simp] theorem raise_wbase (h : Hart) (fl : Nat) : (raise h fl).wbase = h.wbase := rfl
@[simp] theorem raise_ctxid (h : Hart) (fl : Nat) : (raise h fl).ctxid = h.ctxid := rfl
@[simp] theorem raise_rstat (h : Hart) (fl : Nat) : (raise h fl).rstat = h.rstat := rfl
@[simp] theorem raise_rbar (h : Hart) (fl : Nat) : (raise h fl).rbar = h.rbar := rfl
@[simp] theorem raise_ordtmo (h : Hart) (fl : Nat) : (raise h fl).ordtmo = h.ordtmo := rfl
@[simp] theorem raise_faddr (h : Hart) (fl : Nat) : (raise h fl).faddr = h.faddr := rfl
@[simp] theorem raise_held (h : Hart) (fl : Nat) : (raise h fl).held = h.held := rfl
@[simp] theorem raise_dtab (h : Hart) (fl : Nat) : (raise h fl).dtab = h.dtab := rfl
@[simp] theorem raise_rq (h : Hart) (fl : Nat) : (raise h fl).rq = h.rq := rfl
@[simp] theorem raise_spill (h : Hart) (fl : Nat) : (raise h fl).spill = h.spill := rfl
@[simp] theorem raise_task (h : Hart) (fl : Nat) : (raise h fl).task = h.task := rfl
@[simp] theorem raise_started (h : Hart) (fl : Nat) : (raise h fl).started = h.started := rfl
@[simp] theorem raise_async (h : Hart) (fl : Nat) : (raise h fl).async = h.async := rfl
@[simp] theorem raise_zeroed (h : Hart) (fl : Nat) : (raise h fl).zeroed = h.zeroed := rfl
@[simp] theorem raise_conv (h : Hart) (fl : Nat) : (raise h fl).conv = h.conv := rfl
@[simp] theorem raise_ustride (h : Hart) (fl : Nat) : (raise h fl).ustride = h.ustride := rfl
@[simp] theorem raise_resume (h : Hart) (fl : Nat) : (raise h fl).resume = h.resume := rfl
@[simp] theorem raise_secCount (h : Hart) (fl : Nat) : (raise h fl).secCount = h.secCount := rfl
@[simp] theorem raise_depth (h : Hart) (fl : Nat) : (raise h fl).depth = h.depth := rfl
@[simp] theorem raise_stall (h : Hart) (fl : Nat) : (raise h fl).stall = h.stall := rfl
@[simp] theorem raise_yield (h : Hart) (fl : Nat) : (raise h fl).yield = h.yield := rfl
@[simp] theorem raise_lastCtx (h : Hart) (fl : Nat) : (raise h fl).lastCtx = h.lastCtx := rfl
@[simp] theorem raise_packed (h : Hart) (fl : Nat) : (raise h fl).packed = h.packed := rfl
@[simp] theorem raise_leaving (h : Hart) (fl : Nat) : (raise h fl).leaving = h.leaving := rfl
@[simp] theorem raise_ending (h : Hart) (fl : Nat) : (raise h fl).ending = h.ending := rfl
@[simp] theorem raise_sprdKept (h : Hart) (fl : Nat) : (raise h fl).sprdKept = h.sprdKept := rfl
@[simp] theorem raise_secOver (h : Hart) (fl : Nat) : (raise h fl).secOver = h.secOver := rfl
@[simp] theorem raise_parity (h : Hart) (fl : Nat) : (raise h fl).parity = h.parity := rfl
@[simp] theorem raise_pxStack (h : Hart) (fl : Nat) : (raise h fl).pxStack = h.pxStack := rfl

/-! ## Writing registers: which fields change -/

/-- A scalar write changes the scalar file or the operand file alone (R10, R14). -/
theorem writeS_frame (h : Hart) (sp : BitVec 7) (v : DWord) :
    writeS h sp v = { h with sregs := (writeS h sp v).sregs, oregs := (writeS h sp v).oregs } := by
  simp only [writeS]
  split
  · rfl
  · split <;> rfl

/-- A push changes the last-result file alone (R15). -/
theorem push_frame (h : Hart) (v : VReg) : push h v = { h with q := (push h v).q } := by
  simp only [push]
  split <;> rfl

/-- A mask write changes the masks alone (R17). -/
theorem setMask_frame (h : Hart) (i : Nat) (v : VReg) : setMask h i v = { h with masks := (setMask h i v).masks } := by
  simp only [setMask]
  split <;> rfl

/-- A scalar result changes the scalar file, the operand file and the last-result file alone (R10, R14, R15). -/
theorem result_frame (h : Hart) (a : BitVec 7) (v : DWord) :
    h.result a v = { h with
      sregs := (h.result a v).sregs, oregs := (h.result a v).oregs, q := (h.result a v).q } := by
  simp only [Hart.result, pushS]
  rw [push_frame, writeS_frame]

end Sys2Proof.Machine
end

