-- ==== Sys2Proof/Laws/Slot.lean ====
section
/-! SUPPORT. What one slot can do (R35, R72, R73): each way through the checks, once, for every instruction. -/
namespace Sys2Proof.Machine

open Sys2Proof

/-- A slot that passes every check runs its own body. -/
theorem runSlot_runs (s : State) (major fn : Nat) (body : State → Nat → SlotRes) (h : SlotRuns s major fn) :
    runSlot major fn body s = .next (finishSlot s.cur (getHart s s.cur).prefixLive (body s s.cur)) := by
  obtain ⟨h1, h2, h3, h4⟩ := h
  simp [runSlot, slotBody, h1, h2, h3, h4]

/-- The same where the instruction has a check of its own. -/
theorem runSlotIf_runs (s : State) (major fn : Nat) (legal : State → Nat → Bool) (body : State → Nat → SlotRes)
    (h : SlotRuns s major fn) (hl : legal s s.cur = true) :
    runSlotIf major fn legal body s = .next (finishSlot s.cur (getHart s s.cur).prefixLive (body s s.cur)) := by
  obtain ⟨h1, h2, h3, h4⟩ := h
  simp [runSlotIf, slotBody, h1, h2, h3, h4, hl]

/-- A slot that may not issue raises ILLEGAL-INSTRUCTION. -/
theorem runSlot_illegal (s : State) (major fn : Nat) (body : State → Nat → SlotRes)
    (h : allowed s s.cur major fn = false) :
    runSlot major fn body s
      = .next (finishSlot s.cur (getHart s s.cur).prefixLive (badInstruction s s.cur)) := by
  simp [runSlot, slotBody, h]

/-- A removed slot does nothing of its own: it moves on, once the leader of its rope has settled a control slot (R19, R96). -/
theorem runSlot_removed (s : State) (major fn : Nat) (body : State → Nat → SlotRes)
    (h : allowed s s.cur major fn = true) (hr : slotRemoved (getHart s s.cur) major fn = true) :
    runSlot major fn body s = .next (finishRemoved s.cur (getHart s s.cur).prefixLive (removedBody s s.cur)) := by
  simp [runSlot, slotBody, h, hr]

/-- A removed slot that is no control slot only moves past itself. -/
theorem removedBody_plain (s : State) (hk : Nat)
    (h : leaderRules (fieldMajor (getHart s hk).slotWord) (fieldFn (getHart s hk).slotWord) (getHart s hk).slotExt = false) :
    removedBody s hk = .done s := by
  simp [removedBody, h]

/-- A slot whose unused fields or selector are wrong raises ILLEGAL-OPERAND. -/
theorem runSlot_malformed (s : State) (major fn : Nat) (body : State → Nat → SlotRes)
    (h : allowed s s.cur major fn = true) (hr : slotRemoved (getHart s s.cur) major fn = false)
    (hb : (getHart s s.cur).curConv.bad = true ∨ selectorBad (getHart s s.cur) major fn = true) :
    runSlot major fn body s
      = .next (finishSlot s.cur (getHart s s.cur).prefixLive (badOperand s s.cur)) := by
  rcases hb with hb | hb <;> simp [runSlot, slotBody, h, hr, hb]

end Sys2Proof.Machine
end

