-- ==== Sys2Proof/Laws/Vector.lean ====
section
/-! SUPPORT. What the shared vector operations do (R104 to R107): the elements of a built group, a destination that can be
written, and one element-wise instruction as a whole. -/
namespace Sys2Proof.Machine

open Sys2Proof

/-- Element i of a built group is the i-th of its elements. -/
theorem elem_buildElems (w : Nat) (l : List Nat) (i : Nat) :
    elem (buildElems w l) i w = l.getD i 0 % 2 ^ w := by
  induction l generalizing i with
  | nil => simp [buildElems, elem]
  | cons e es ih =>
    cases i with
    | zero => simp [buildElems, elem, Nat.add_mul_mod_self_left]
    | succ i =>
      have hp : 0 < 2 ^ w := Nat.two_pow_pos w
      have h : (e % 2 ^ w + 2 ^ w * buildElems w es) / 2 ^ w = buildElems w es := by
        rw [Nat.add_mul_div_left _ _ hp, Nat.div_eq_of_lt (Nat.mod_lt _ hp), Nat.zero_add]
      have := ih i
      simp only [elem, Nat.shiftRight_eq_div_pow] at this ⊢
      rw [buildElems, Nat.succ_mul, Nat.add_comm (i * w), Nat.pow_add, ← Nat.div_div_eq_div_mul, h, this]
      simp

/-- A register that can be read can be written. -/
theorem writeV1_of_readV1 (x : Local) (n : Nat) (u v : VReg) (h : readV1 x n = some u) :
    ∃ y, writeV1 x n v = some y ∧ y.h = x.h := by
  simp only [readV1, Option.map_eq_some_iff] at h
  obtain ⟨p, hp, -⟩ := h
  exact ⟨{ x with pool := SMap.set 0 x.pool p v }, by simp [writeV1, hp], rfl⟩

/-- Whether a register can be read depends on the hart alone. -/
theorem readRun_isSome (x y : Local) (h : y.h = x.h) (n g : Nat) : (readRun y n g).isSome = (readRun x n g).isSome := by
  induction g generalizing n with
  | zero => rfl
  | succ g ih =>
    have i := ih (n + 1)
    simp only [readRun, readV1, h]
    cases hx : readRun x (n + 1) g <;> cases hy : readRun y (n + 1) g <;> rw [hx, hy] at i <;>
      cases x.h.vPhys (x.h.vIndex n) <;> simp_all

/-- A run that can be read can be written. -/
theorem writeRun_of_readRun (x : Local) (n g v : Nat) (h : (readRun x n g).isSome = true) :
    ∃ y, writeRun x n g v = some y ∧ y.h = x.h := by
  induction g generalizing x n v with
  | zero => exact ⟨x, rfl, rfl⟩
  | succ g ih =>
    simp only [readRun] at h
    cases hl : readV1 x n with
    | none => simp [hl] at h
    | some lo =>
      cases hh : readRun x (n + 1) g with
      | none => simp [hl, hh] at h
      | some hi =>
        obtain ⟨y, hy, hyh⟩ := writeV1_of_readV1 x n lo (BitVec.ofNat 1024 v) hl
        have hs : (readRun y (n + 1) g).isSome = true := by rw [readRun_isSome x y hyh, hh]; rfl
        obtain ⟨z, hz, hzh⟩ := ih y (n + 1) (v >>> 1024) hs
        exact ⟨z, by simp [writeRun, hy, hz], hzh.trans hyh⟩

/-- A group that can be read and is no last-result entry can be written; only the pool and the operand file change. -/
theorem writeV_of_readV (x : Local) (a : BitVec 7) (g v d : Nat) (h : readV x a g = some d)
    (ha : a.toNat < 112 ∨ a.toNat = 127) :
    ∃ y, writeV x a g v = some y ∧ y.h = { x.h with oregs := y.h.oregs } := by
  unfold readV at h
  unfold writeV
  by_cases h1 : a.toNat < 96
  · simp only [h1, if_true] at h ⊢
    by_cases h2 : a.toNat % g = 0
    · simp only [h2, if_true] at h ⊢
      obtain ⟨y, hy, hyh⟩ := writeRun_of_readRun x a.toNat g v (by rw [h]; rfl)
      exact ⟨y, hy, by rw [hyh]⟩
    · simp [h2] at h
  · by_cases h2 : a.toNat < 112
    · simp only [h1, h2, if_true, if_false] at h ⊢
      by_cases h3 : g = 1
      · simp only [h3, if_true]
        exact ⟨_, rfl, rfl⟩
      · simp [h3] at h
    · have h3 : a.toNat = 127 := by omega
      simp only [h3]
      exact ⟨x, by simp, rfl⟩

/-- Saturation bits enter the selected mask alone, and m0 stays all ones. -/
theorem setSat_maskReg (h : Hart) (sat k : Nat) :
    (setSat h sat).maskReg k = if k = h.smr then h.maskReg k ||| BitVec.ofNat 1024 sat else h.maskReg k := by
  unfold setSat setMask
  by_cases h0 : h.smr = 0
  · simp only [h0, if_true]
    by_cases hk : k = 0
    · subst hk
      simp only [Hart.maskReg, if_true, BitVec.allOnes_or]
    · simp [hk]
  · simp only [h0, if_false]
    by_cases hk : k = h.smr
    · subst hk
      simp [Hart.maskReg, h0]
    · by_cases hz : k = 0
      · subst hz; simp [Hart.maskReg, hk]
      · simp only [Hart.maskReg, hz, if_false, hk]
        exact SMap.get_set_other _ _ _ _ _ (fun e => hk e.symm)

/-- All flags of the results of n elements. -/
theorem allFlags_results (h : Hart) (n : Nat) (f : Nat → Res) :
    allFlags (results h n f) = activeFlags h n (fun i => (f i).fl) := by
  have key : ∀ (l : List Nat) (t : Nat),
      (l.map (fun i => if h.active i then some (f i) else none)).foldl
        (fun n r => match r with | some x => n ||| x.fl | none => n) t
      = (l.filter h.active).foldl (fun t i => t ||| (f i).fl) t := by
    intro l
    induction l with
    | nil => intro t; rfl
    | cons a l ih =>
      intro t
      by_cases ha : h.active a = true <;> simp [ha, ih]
  exact key (List.range n) 0

/-- An element-wise instruction as a whole: it completes wherever its destination has a size, can be written and the mask
fits; its elements, its pool, and what it changes of the hart (R104 to R107). -/
theorem vApply_spec (x : Local) (a : BitVec 7) (wd g n old : Nat) (f : Nat → Res)
    (hs : destShape x.h wd = some (g, n)) (hm : x.h.maskFits = true) (hr : readV x a g = some old)
    (ha : a.toNat < 112 ∨ a.toNat = 127) :
    ∃ v y z, writeV x a g v = some y ∧ vApply x a wd f = some z ∧ z.pool = (pushV y g v).pool ∧
      z.h = note (pushV y g v).h (results x.h n f) ∧
      v = mergeElems x.h wd old (results x.h n f) := by
  obtain ⟨y, hy, -⟩ := writeV_of_readV x a g (mergeElems x.h wd old (results x.h n f)) old hr ha
  refine ⟨_, y, ⟨note (pushV y g (mergeElems x.h wd old (results x.h n f))).h (results x.h n f),
    (pushV y g (mergeElems x.h wd old (results x.h n f))).pool⟩, hy, ?_, rfl, rfl, rfl⟩
  simp [vApply, hs, hm, hr, hy, guard]

/-- The elements of a merged destination. -/
theorem elem_mergeElems (h : Hart) (w old n i : Nat) (f : Nat → Res) (hi : i < n) :
    elem (mergeElems h w old (results h n f)) i w = elemAfter h i (elem old i w) ((f i).bits % 2 ^ w) := by
  have hlt : elem old i w < 2 ^ w := Nat.mod_lt _ (Nat.two_pow_pos w)
  unfold mergeElems elemAfter
  have hl : h.len = 0 ↔ h.vl = 0 := by
    simp only [Hart.len]
    constructor
    · intro e; exact BitVec.eq_of_toNat_eq (by simpa using e)
    · intro e; simp [e]
  by_cases h0 : h.vl = 0
  · simp [h0, hl.mpr h0]
  · rw [if_neg (fun e => h0 (hl.mp e)), elem_buildElems]
    have e : (results h n f)[i]? = some (if h.active i then some (f i) else none) := by
      simp [results, hi]
    rw [List.getD_eq_getElem?_getD, List.getElem?_map, List.getElem?_zipIdx, e]
    simp only [Option.map_some, Option.getD_some, Nat.zero_add]
    by_cases hs : i < startElem h
    · have ha : h.active i = false := by simp [Hart.active, Nat.not_le.mpr hs]
      simp [ha, keptElem, hs, Nat.mod_eq_of_lt hlt]
    · have hs' : startElem h ≤ i := Nat.not_lt.mp hs
      simp only [h0, hs, or_self, if_false]
      by_cases h1 : i < h.len
      · by_cases h2 : h.selBit i = true
        · simp [Hart.active, Hart.selected, h1, h2, hs']
        · by_cases h3 : h.maskz = true <;> simp [Hart.active, Hart.selected, keptElem, h1, h2, hs, h3, Nat.mod_eq_of_lt hlt]
      · by_cases h3 : h.tailz = true <;> simp [Hart.active, Hart.selected, keptElem, h1, hs, h3, Nat.mod_eq_of_lt hlt]

/-- A push of a written group keeps everything but the pool, the operand file and the last-result file. -/
theorem pushV_writeV_frame (x y : Local) (a : BitVec 7) (g v d : Nat) (hr : readV x a g = some d)
    (ha : a.toNat < 112 ∨ a.toNat = 127) (hy : writeV x a g v = some y) :
    (pushV y g v).h = { x.h with oregs := (pushV y g v).h.oregs, q := (pushV y g v).h.q } := by
  obtain ⟨y', hy', e⟩ := writeV_of_readV x a g v d hr ha
  have : y' = y := by rw [hy] at hy'; exact (Option.some.inj hy').symm
  subst this
  unfold pushV
  obtain ⟨yh, yp⟩ := y'
  simp only at e ⊢
  generalize yh.oregs = o at e
  subst e
  split
  · simp only [push]
    split <;> rfl
  · rfl

/-- What `note` changes of a hart: the float flags and the masks (R46, R50). -/
theorem note_frame (h : Hart) (rs : List (Option Res)) :
    note h rs = { h with sticky := h.sticky ||| BitVec.ofNat 6 (allFlags rs), masks := (note h rs).masks } := by
  unfold note setSat
  split
  · rfl
  · rw [setMask_frame]; rfl

/-- A slot whose body is one element-wise instruction. -/
theorem vectorResult_of_vApply (s : State) (major fn : Nat) (F : Local → Option Local) (a : BitVec 7)
    (wd g n old : Nat) (f : Nat → Res) (h : SlotRuns s major fn) (hF : F (curLocal s) = vApply (curLocal s) a wd f)
    (hs : destShape (cur s) wd = some (g, n)) (hm : (cur s).maskFits = true)
    (hr : readV (curLocal s) a g = some old) (ha : a.toNat < 112 ∨ a.toNat = 127) :
    VectorResult s a wd (fun i => (f i).bits) (activeFlags (cur s) n (fun i => (f i).fl))
      (BitVec.ofNat 1024 (allSats (results (cur s) n f))) (runSlot major fn (localBody F) s) := by
  obtain ⟨v, y, z, hy, hz, hp, hh, hv⟩ := vApply_spec (curLocal s) a wd g n old f hs hm hr ha
  refine ⟨g, n, old, v, hs, hr, ⟨y, z, hy, ?_, hp, ?_, ?_⟩, ?_⟩
  · rw [runSlot_runs _ _ _ _ h]
    simp only [completed]
    have : localBody F s s.cur = .done (withLocal s z) := by
      simp only [localBody]
      rw [show getLocal s s.cur = curLocal s from rfl, hF, hz]
      rfl
    rw [this]
  · rw [hh, note_frame]
    have e := pushV_writeV_frame (curLocal s) y a g v old hr ha hy
    rw [allFlags_results]
    have e2 : (pushV y g v).h.sticky = (cur s).sticky := by rw [e]; rfl
    rw [e2]
    rfl
  · intro k
    have e := pushV_writeV_frame (curLocal s) y a g v old hr ha hy
    rw [hh, note, setSat_maskReg]
    have e2 : (raise (pushV y g v).h (allFlags (results (curLocal s).h n f))).maskReg k = (cur s).maskReg k := by
      rw [e]; rfl
    have e3 : (raise (pushV y g v).h (allFlags (results (curLocal s).h n f))).smr = (cur s).smr := by
      rw [e]; rfl
    rw [e2, e3]
    rfl
  · intro i hi
    rw [hv]
    exact elem_mergeElems (cur s) wd old n i f hi

/-- No flags where no element raises one. -/
theorem activeFlags_zero (h : Hart) (n : Nat) : activeFlags h n (fun _ => 0) = 0 := by
  have key : ∀ l : List Nat, l.foldl (fun t _ => t ||| 0) 0 = 0 := by
    intro l
    induction l with
    | nil => rfl
    | cons a l ih => simpa using ih
  exact key _

/-- No saturation bits where no element saturates. -/
theorem allSats_zero (h : Hart) (n : Nat) (f : Nat → Nat) :
    allSats (results h n (fun i => { bits := f i })) = 0 := by
  have key : ∀ l : List (Option Res), (∀ r, some r ∈ l → r.sat = false) →
      buildElems 1 (l.map (fun r => match r with | some x => b2n x.sat | none => 0)) = 0 := by
    intro l
    induction l with
    | nil => intro _; rfl
    | cons r l ih =>
      intro hl
      have := ih (fun r hr => hl r (List.mem_cons_of_mem _ hr))
      cases r with
      | none => simp [buildElems, this]
      | some r =>
        have := hl r (by simp)
        simp_all [buildElems, b2n]
  apply key
  intro r hr
  have := List.mem_of_mem_take hr
  simp only [results, List.mem_map] at this
  obtain ⟨i, -, hi⟩ := this
  split at hi
  · cases hi; rfl
  · cases hi

end Sys2Proof.Machine
end

