-- ==== Sys2Proof/Tests/Slice0.lean ====
section
/-! SUPPORT. Tests: words written out from the encodings of the spec that decode to their instructions; ill-formed terms that
the well-formedness check refuses; single steps on small states; and, under the name of each obligation with hypotheses, a
state and operands that meet them. -/
namespace Sys2Proof.Tests

open Sys2Proof Sys2Proof.Machine

set_option Elab.async false

/-! ## Decoding: words built bit by bit from major, fn, A, B and C (R69, R71, R75, R77) -/

/-- A slot word, its extension word if the form takes one, and the instruction they stand for. -/
abbrev Sample := Word × Option Word × Instr
theorem test_decode_scalar : ∀ p ∈ ([
    (0x12141880, none, .add 3 5 9), (0x12141900, none, .sub 3 5 9), (0x12141980, none, .mul 3 5 9),
    (0x12141A00, none, .mulhs 3 5 9), (0x12141A80, none, .mulhz 3 5 9), (0x12141B00, none, .madd 3 5 9),
    (0x12141801, none, .divs 3 5 9), (0x12141881, none, .divz 3 5 9), (0x12141901, none, .rems 3 5 9),
    (0x12141981, none, .remz 3 5 9), (0x12141802, none, .andReg 3 5 9), (0x12141882, none, .orReg 3 5 9),
    (0x12141902, none, .xorReg 3 5 9), (0x12141982, none, .andn 3 5 9), (0x12141803, none, .shl 3 5 9),
    (0x12141883, none, .shrs 3 5 9), (0x12141903, none, .shrz 3 5 9), (0x12141983, none, .rotl 3 5 9),
    (0x12141A03, none, .rotr 3 5 9), (0x48D01804, none, .addiShort 3 0x1234),
    (0x00141804, some 0x89ABCDEF, .addiLong 3 5 0x89ABCDEF), (0x48D01884, none, .andiShort 3 0x1234),
    (0x00141884, some 0x89ABCDEF, .andiLong 3 5 0x89ABCDEF), (0x48D01904, none, .oriShort 3 0x1234),
    (0x00141904, some 0x89ABCDEF, .oriLong 3 5 0x89ABCDEF), (0x48D01984, none, .xoriShort 3 0x1234),
    (0x00141984, some 0x89ABCDEF, .xoriLong 3 5 0x89ABCDEF), (0x48D01A04, none, .shliShort 3 0x1234),
    (0x00141A04, some 0x89ABCDEF, .shliLong 3 5 0x89ABCDEF), (0x48D01A84, none, .rotriShort 3 0x1234),
    (0x00141A84, some 0x89ABCDEF, .rotriLong 3 5 0x89ABCDEF), (0x00141B04, some 0x89ABCDEF, .lih 3 5 0x89ABCDEF),
    (0x12141805, none, .slts 3 5 9), (0x12141885, none, .sltz 3 5 9), (0x12141905, none, .sel 3 5 9),
    (0x12141806, none, .mins 3 5 9), (0x12141886, none, .minz 3 5 9), (0x12141906, none, .maxs 3 5 9),
    (0x12141986, none, .maxz 3 5 9), (0x00141807, none, .clz 3 5), (0x00141887, none, .ctz 3 5),
    (0x00141907, none, .popc 3 5), (0x00141987, none, .bswap 3 5), (0x11A81808, none, .bextsShort 3 0x2A 0x11),
    (0x00141808, some 0x89ABCDEF, .bextsLong 3 5 0x89ABCDEF), (0x11A81888, none, .bextzShort 3 0x2A 0x11),
    (0x00141888, some 0x89ABCDEF, .bextzLong 3 5 0x89ABCDEF), (0x00141908, some 0x89ABCDEF, .bins 3 5 0x89ABCDEF)] : List Sample),
    decodeSlot p.1 p.2.1 = .ok p.2.2 := by decide

theorem test_decode_control : ∀ p ∈ ([
    (0x12141810, none, .brEqShort 3 5 9), (0x00141810, some 0x89ABCDEF, .brEqLong 3 5 0x89ABCDEF),
    (0x12141890, none, .brNeShort 3 5 9), (0x00141890, some 0x89ABCDEF, .brNeLong 3 5 0x89ABCDEF),
    (0x12141910, none, .brLtsShort 3 5 9), (0x00141910, some 0x89ABCDEF, .brLtsLong 3 5 0x89ABCDEF),
    (0x12141990, none, .brGesShort 3 5 9), (0x00141990, some 0x89ABCDEF, .brGesLong 3 5 0x89ABCDEF),
    (0x12141A10, none, .brLtzShort 3 5 9), (0x00141A10, some 0x89ABCDEF, .brLtzLong 3 5 0x89ABCDEF),
    (0x12141A90, none, .brGezShort 3 5 9), (0x00141A90, some 0x89ABCDEF, .brGezLong 3 5 0x89ABCDEF),
    (0x12001B10, none, .brAnyShort 3 9), (0x00001B10, some 0x89ABCDEF, .brAnyLong 3 0x89ABCDEF),
    (0x48D00011, none, .jmpShort 0x1234), (0x00000011, some 0x89ABCDEF, .jmpLong 0x89ABCDEF),
    (0x48D01891, none, .jalShort 3 0x1234), (0x00001891, some 0x89ABCDEF, .jalLong 3 0x89ABCDEF),
    (0x00141911, none, .jr 3 5), (0x12141812, none, .lrotShort 3 5 9),
    (0x00141812, some 0x89ABCDEF, .lrotLong 3 5 0x89ABCDEF), (0x12140092, none, .wbase 5 9), (0x00000013, none, .nop),
    (0x00000093, none, .yield)] : List Sample),
    decodeSlot p.1 p.2.1 = .ok p.2.2 := by decide

theorem test_decode_scalar_memory : ∀ p ∈ ([
    (0x12141814, none, .ldsB 3 5 9 none), (0x12141894, some 0x100004, .ldsH 3 5 9 (some 0x100004)),
    (0x12141914, none, .ldsW 3 5 9 none), (0x12141994, some 0x100004, .ldzB 3 5 9 (some 0x100004)),
    (0x12141A14, none, .ldzH 3 5 9 none), (0x12141A94, some 0x100004, .ldzW 3 5 9 (some 0x100004)),
    (0x12141B14, none, .ldD 3 5 9 none), (0x12141815, none, .stB 3 5 9 none),
    (0x12141895, some 0x100004, .stH 3 5 9 (some 0x100004)), (0x12141915, none, .stW 3 5 9 none),
    (0x12141995, some 0x100004, .stD 3 5 9 (some 0x100004)), (0x12140016, none, .pf 5 9 none),
    (0x12140096, some 0x100004, .evf 5 9 (some 0x100004)), (0x12140116, none, .unpin 5 9 none)] : List Sample),
    decodeSlot p.1 p.2.1 = .ok p.2.2 := by decide

theorem test_decode_vector_integer : ∀ p ∈ ([
    (0x12141818, none, .vadd 3 5 9), (0x12141898, none, .vsub 3 5 9), (0x12141918, none, .vmul 3 5 9),
    (0x12141998, none, .vmulhs 3 5 9), (0x12141A18, none, .vmulhz 3 5 9), (0x12141A98, none, .vmacc 3 5 9),
    (0x12141819, none, .vdivs 3 5 9), (0x12141899, none, .vdivz 3 5 9), (0x12141919, none, .vrems 3 5 9),
    (0x12141999, none, .vremz 3 5 9), (0x1214181A, none, .vand 3 5 9), (0x1214189A, none, .vor 3 5 9),
    (0x1214191A, none, .vxor 3 5 9), (0x1214199A, none, .vandn 3 5 9), (0x1214181B, none, .vshl 3 5 9),
    (0x1214189B, none, .vshrs 3 5 9), (0x1214191B, none, .vshrz 3 5 9), (0x1214181C, none, .vmins 3 5 9),
    (0x1214189C, none, .vminz 3 5 9), (0x1214191C, none, .vmaxs 3 5 9), (0x1214199C, none, .vmaxz 3 5 9),
    (0x1214181D, none, .vsadds 3 5 9), (0x1214189D, none, .vsaddz 3 5 9), (0x1214191D, none, .vssubs 3 5 9),
    (0x1214199D, none, .vssubz 3 5 9)] : List Sample),
    decodeSlot p.1 p.2.1 = .ok p.2.2 := by decide

theorem test_decode_vector_float : ∀ p ∈ ([
    (0x12141820, none, .vfma 3 5 9), (0x121418A0, none, .vfadd 3 5 9), (0x12141920, none, .vfsub 3 5 9),
    (0x121419A0, none, .vfmul 3 5 9), (0x12141A20, none, .vfdiv 3 5 9), (0x00141AA0, none, .vfsqrt 3 5),
    (0x00141821, none, .vfrcpe 3 5), (0x001418A1, none, .vfrsqe 3 5), (0x12141921, none, .vfmin 3 5 9),
    (0x121419A1, none, .vfmax 3 5 9), (0x00141A21, none, .vfclass 3 5), (0x00141822, none, .vfabs 3 5),
    (0x001418A2, none, .vfneg 3 5), (0x12141922, none, .vfsgnj 3 5 9), (0x12141824, none, .vcmpeq 3 5 9),
    (0x121418A4, none, .vcmpne 3 5 9), (0x12141924, none, .vcmplts 3 5 9), (0x121419A4, none, .vcmpltz 3 5 9),
    (0x12141A24, none, .vcmples 3 5 9), (0x12141AA4, none, .vcmplez 3 5 9), (0x12141825, none, .vfcmpeq 3 5 9),
    (0x121418A5, none, .vfcmplt 3 5 9), (0x12141925, none, .vfcmple 3 5 9), (0x121419A5, none, .vfcmpun 3 5 9)] : List Sample),
    decodeSlot p.1 p.2.1 = .ok p.2.2 := by decide

theorem test_decode_vector_convert : ∀ p ∈ ([
    (0x12141828, none, .vfcvt 3 5 9), (0x121418A8, none, .vfcvts 3 5 9), (0x12141928, none, .vfcvtz 3 5 9),
    (0x121419A8, none, .vfcvtts 3 5 9), (0x12141A28, none, .vfcvttz 3 5 9), (0x12141829, none, .vscvtf 3 5 9),
    (0x121418A9, none, .vzcvtf 3 5 9), (0x1214182A, none, .vwidens 3 5 9), (0x121418AA, none, .vwidenz 3 5 9),
    (0x1214192A, none, .vnarrs 3 5 9), (0x121419AA, none, .vnarrz 3 5 9), (0x1214182C, none, .vcmul 3 5 9),
    (0x121418AC, none, .vcmac 3 5 9), (0x0014192C, none, .vcconj 3 5), (0x001419AC, none, .vcnorm 3 5)] : List Sample),
    decodeSlot p.1 p.2.1 = .ok p.2.2 := by decide

theorem test_decode_vector_move : ∀ p ∈ ([
    (0x00141830, none, .vmov 3 5), (0x001418B0, none, .vsplat 3 5), (0x12141930, none, .vmerge 3 5 9),
    (0x12141831, none, .vslup 3 5 9), (0x121418B1, none, .vsldn 3 5 9), (0x12141931, none, .vperm 3 5 9),
    (0x001419B1, none, .vcomp 3 5), (0x00141A31, none, .vexp 3 5), (0x12141832, none, .vsh 3 5 9),
    (0x121418B2, none, .vfsh 3 5 9), (0x12141833, none, .vrsum 3 5 9), (0x121418B3, none, .vrfsum 3 5 9),
    (0x12141933, none, .vrmins 3 5 9), (0x121419B3, none, .vrminz 3 5 9), (0x12141A33, none, .vrmaxs 3 5 9),
    (0x12141AB3, none, .vrmaxz 3 5 9), (0x12141B33, none, .vrfmin 3 5 9), (0x12141BB3, none, .vrfmax 3 5 9),
    (0x12141834, none, .vgmax 3 5 9), (0x121418B4, none, .vgsum 3 5 9), (0x12141835, none, .maskAnd 3 5 9),
    (0x121418B5, none, .maskOr 3 5 9), (0x12141935, none, .maskXor 3 5 9), (0x121419B5, none, .maskAndn 3 5 9),
    (0x00001A35, none, .mclr 3), (0x00001AB5, none, .mset 3), (0x00141836, none, .mpopc 3 5),
    (0x001418B6, none, .mfirst 3 5), (0x12141936, none, .vgetx 3 5 9), (0x121419B6, none, .vputx 3 5 9)] : List Sample),
    decodeSlot p.1 p.2.1 = .ok p.2.2 := by decide

theorem test_decode_vector_memory : ∀ p ∈ ([
    (0x00141838, none, .vld 3 5 none), (0x121418B8, some 0x100004, .vlds 3 5 9 (some 0x100004)),
    (0x12141938, none, .vldx 3 5 9 none), (0x121419B8, some 0x100004, .vldk 3 5 9 (some 0x100004)),
    (0x00141839, none, .vst 3 5 none), (0x121418B9, some 0x100004, .vsts 3 5 9 (some 0x100004)),
    (0x12141939, none, .vstx 3 5 9 none), (0x001419B9, some 0x100004, .vsbm 3 5 (some 0x100004)),
    (0x12141A39, none, .vstk 3 5 9 none)] : List Sample),
    decodeSlot p.1 p.2.1 = .ok p.2.2 := by decide

theorem test_decode_atomics : ∀ p ∈ ([
    (0x1214183A, none, .aaddS 3 5 9 none), (0x121418BA, some 0x100004, .aandS 3 5 9 (some 0x100004)),
    (0x1214193A, none, .aorS 3 5 9 none), (0x121419BA, some 0x100004, .axorS 3 5 9 (some 0x100004)),
    (0x12141A3A, none, .aminS 3 5 9 none), (0x12141ABA, some 0x100004, .aminsS 3 5 9 (some 0x100004)),
    (0x12141B3A, none, .amaxS 3 5 9 none), (0x12141BBA, some 0x100004, .amaxsS 3 5 9 (some 0x100004)),
    (0x12141C3A, none, .aswapS 3 5 9 none), (0x12141CBA, some 0x100004, .acasS 3 5 9 (some 0x100004)),
    (0x1214183B, none, .aaddV 3 5 9 none), (0x121418BB, some 0x100004, .aandV 3 5 9 (some 0x100004)),
    (0x1214193B, none, .aorV 3 5 9 none), (0x121419BB, some 0x100004, .axorV 3 5 9 (some 0x100004)),
    (0x12141A3B, none, .aminV 3 5 9 none), (0x12141ABB, some 0x100004, .aminsV 3 5 9 (some 0x100004)),
    (0x12141B3B, none, .amaxV 3 5 9 none), (0x12141BBB, some 0x100004, .amaxsV 3 5 9 (some 0x100004)),
    (0x12141C3B, none, .aswapV 3 5 9 none), (0x12141CBB, some 0x100004, .acasV 3 5 9 (some 0x100004))] : List Sample),
    decodeSlot p.1 p.2.1 = .ok p.2.2 := by decide

theorem test_decode_sync : ∀ p ∈ ([
    (0x48D0003C, none, .cwaitL 0x1234), (0x48D000BC, none, .cwaitS 0x1234), (0x0014183D, none, .fwait 3 5 none),
    (0x121418BD, some 0x100004, .vfwait 3 5 9 (some 0x100004)), (0x1214193D, none, .ffill 3 5 9 none),
    (0x0014003E, none, .vpf 5 none), (0x001400BE, some 0x100004, .vevf 5 (some 0x100004))] : List Sample),
    decodeSlot p.1 p.2.1 = .ok p.2.2 := by decide

theorem test_decode_matrix : ∀ p ∈ ([
    (0x1217A844, none, .fmt 0x15 1 1 5 9), (0x12141845, none, .mma 3 5 9), (0x121418C5, none, .mmai 3 5 9),
    (0x12141945, none, .mmalX 3 5 9 none), (0x121419C5, some 0x100004, .mmalA 3 5 9 (some 0x100004)),
    (0x12140046, none, .ipload 5 9), (0x001400C6, none, .ipsave 5), (0x00141847, none, .atzero 3 5),
    (0x001418C7, none, .atmov 3 5), (0x12141947, none, .atload 3 5 9), (0x001419C7, none, .atsave 3 5),
    (0x00001A47, none, .attr 3), (0x00141AC7, none, .atadd 3 5), (0x12141848, none, .atgetF32 3 5 9),
    (0x121418C8, none, .atgetBf16 3 5 9), (0x12141948, none, .atgetI32 3 5 9), (0x121419C8, none, .atputF32 3 5 9),
    (0x12141A48, none, .atputI32 3 5 9)] : List Sample),
    decodeSlot p.1 p.2.1 = .ok p.2.2 := by decide

theorem test_decode_transform : ∀ p ∈ ([
    (0x1214184C, none, .xdelta 3 5 9), (0x121418CC, none, .xundelta 3 5 9), (0x0014194C, none, .xzz 3 5),
    (0x001419CC, none, .xunzz 3 5), (0x1214184D, none, .xpack 3 5 9), (0x121418CD, none, .xunpack 3 5 9),
    (0x1214194D, none, .xpackg 3 5 9), (0x121419CD, none, .xunpackg 3 5 9), (0x1214004E, none, .xdtab 5 9),
    (0x121418CE, none, .xdec 3 5 9), (0x1214184F, some 0x89ABCDEF, .xquant 3 5 9 0x89ABCDEF),
    (0x121418CF, some 0x89ABCDEF, .xdequant 3 5 9 0x89ABCDEF), (0x00141850, none, .xcrc 3 5),
    (0x001418D0, none, .xcrcf 3 5), (0x12141851, none, .xtopk 3 5 9), (0x121418D1, none, .xbotk 3 5 9),
    (0x12141951, none, .xkmerge 3 5 9), (0x121419D1, none, .xbkmerge 3 5 9)] : List Sample),
    decodeSlot p.1 p.2.1 = .ok p.2.2 := by decide

theorem test_decode_tasks : ∀ p ∈ ([
    (0x12141854, none, .tspawn 3 5 9), (0x001400D4, none, .tend 5), (0x00140154, none, .tabort 5),
    (0x001419D4, none, .tstat 3 5), (0x12141855, none, .forkTask 3 5 9), (0x001418D5, none, .joinChild 3 5),
    (0x00001955, none, .joinall 3), (0x00140056, none, .cancelInst 5),
    (0x12141857, some 0x89ABCDEF, .bst 3 5 9 0x89ABCDEF), (0x001400D7, none, .ordb 5), (0x00000157, none, .orde),
    (0x001419D7, none, .tkget 3 5)] : List Sample),
    decodeSlot p.1 p.2.1 = .ok p.2.2 := by decide

theorem test_decode_channels : ∀ p ∈ ([
    (0x00141858, none, .rope 3 5), (0x000000D8, none, .unrope), (0x00141958, none, .rbar 3 5),
    (0x12140059, none, .msend 5 9), (0x121400D9, none, .vmsend 5 9), (0x00141959, none, .mrecv 3 5),
    (0x121419D9, none, .vmrecv 3 5 9), (0x00141A59, none, .mpoll 3 5), (0x12141AD9, none, .vredq 3 5 9),
    (0x12141B59, none, .vredqf 3 5 9), (0x0014005A, none, .twait 5), (0x001400DA, none, .twaitd 5)] : List Sample),
    decodeSlot p.1 p.2.1 = .ok p.2.2 := by decide

theorem test_decode_graphics : ∀ p ∈ ([
    (0x1214185C, none, .rbox 3 5 9), (0x121418DC, none, .rtri 3 5 9), (0x1214185D, none, .rpush 3 5 9),
    (0x121418DD, none, .rpop 3 5 9), (0x1214195D, none, .rhit 3 5 9), (0x001419DD, none, .rterm 3 5),
    (0x1214185E, none, .rspawn 3 5 9), (0x000018DE, none, .rdepth 3), (0x1214185F, none, .texBl 3 5 9),
    (0x121418DF, none, .texSt 3 5 9), (0x1214195F, none, .texPt 3 5 9), (0x121419DF, none, .texq 3 5 9),
    (0x12141860, none, .mout 3 5 9), (0x001418E0, none, .mprim 3 5), (0x12140160, none, .mend 5 9),
    (0x12141861, none, .rast 3 5 9)] : List Sample),
    decodeSlot p.1 p.2.1 = .ok p.2.2 := by decide

theorem test_decode_system : ∀ p ∈ ([
    (0x00841864, none, .sget 3 0x21), (0x008418E4, none, .sset 3 0x21),
    (0x00141964, some 0x89ABCDEF, .sswap 3 5 0x89ABCDEF), (0x48D00065, none, .scall 0x1234),
    (0x000000E5, none, .eret), (0x48D00165, none, .brk 0x1234), (0x000001E5, none, .wfi), (0x00000265, none, .halt),
    (0x12141866, none, .tlbw 3 5 9), (0x121400E6, none, .tlbi 5 9), (0x00141966, none, .tlbr 3 5),
    (0x00140067, none, .hsave 5), (0x001400E7, none, .hrest 5), (0x12140167, none, .pack 5 9)] : List Sample),
    decodeSlot p.1 p.2.1 = .ok p.2.2 := by decide

/-! ## Small states -/

/-- A machine in which hart 0 of tile 0 runs one convoy of three slots in user mode and nothing else is going on. -/
def user (f : Hart → Hart) : State :=
  { State.reset with cur := 0, harts := [(0, f (Hart.begin [] 0 4 [0] { st := .running, chunks := [0, 1, 2], vl := 32 }))] }
/-- The same on hart 0 of the tile in the firmware column, in firmware mode. -/
def firmware (f : Hart → Hart) : State :=
  { State.reset with
    cur := 88
    harts := [(88, f (Hart.begin [] 0 4 [0] { st := .running, chunks := [0, 1, 2], vl := 32, hstat := 3 }))] }
/-- s10 = 3, s11 = 4, s12 = 100. -/
def args (h : Hart) : Hart := { h with sregs := [(10, 3), (11, 4), (12, 100)] }
/-- What one step of an instruction leaves in scalar register n of the hart in hand. -/
def after (i : Instr) (s : State) (n : BitVec 7) : Option DWord :=
  match exec i s with | .next t => readS (getHart t s.cur) n | _ => none
/-- The cause recorded by one step of an instruction, with its INFO. -/
def causeAfter (i : Instr) (s : State) : Option (Nat × Nat) :=
  match exec i s with | .next t => some (bits (getHart t s.cur).hcause 7 0, bits (getHart t s.cur).hcause 63 32) | _ => none
/-- Element i of width w of register n of the hart in hand after a step. -/
def elemAt (i : Instr) (s : State) (n : BitVec 7) (k w : Nat) : Option Nat :=
  match exec i s with | .next t => (readV (getLocal t s.cur) n 1).map (fun v => elem v k w) | _ => none

theorem next_of {o : Host.Outcome State Fault Refusal} (p : State → Prop) [DecidablePred p]
    (h : (match o with | .next t => decide (p t) | _ => false) = true) : ∃ t, o = .next t ∧ p t := by
  cases o <;> simp_all
theorem all_of {o : Checked} (p : List Acc → State → Prop) [∀ a t, Decidable (p a t)]
    (h : (match o with | .all a t => decide (p a t) | _ => false) = true) : ∃ a t, o = .all a t ∧ p a t := by
  cases o with
  | all a t => exact ⟨a, t, rfl, of_decide_eq_true h⟩
  | _ => cases h
theorem ok_of {α : Type} {o : Chk α} (p : α → State → Prop) [∀ a t, Decidable (p a t)]
    (h : (match o with | .ok a t => decide (p a t) | _ => false) = true) : ∃ a t, o = .ok a t ∧ p a t := by
  cases o with
  | ok a t => exact ⟨a, t, rfl, of_decide_eq_true h⟩
  | _ => cases h

/-! ## Decoding: pairs that mean nothing, fields that must be 0, extensions that are missing (R69, R71, R76) -/

theorem test_decode_undefined_pairs : decodeSlot 0x00000000 none = .undefined ∧ decodeSlot 0x00000380 none = .undefined ∧
    decodeSlot 0x000002A1 none = .undefined ∧ decodeSlot 0x00000467 none = .undefined ∧
    decodeSlot 0x0000007F none = .undefined := by decide +kernel
theorem test_decode_unused_field : decodeSlot 0x04285807 none = .malformed (.clz 11 10) := by decide +kernel
theorem test_decode_short_descriptor_reserved : decodeSlot (0x33303808 ||| 0x40000000) none = .malformed (.bextsShort 7 12 51) := by
  decide +kernel
theorem test_decode_missing_extension : decodeSlot 0x00142B04 none = .malformed (.lih 5 5 0) := by decide +kernel
theorem test_decode_long_form_with_c : decodeSlot (0x01FC2804 ||| 0x02000000) (some 7) = .malformed (.addiLong 5 127 7) := by
  decide

/-! ## Well-formedness: an ill-formed term for every kind of check (R18, R70, R75, R88) -/

theorem test_ill_formed : ∀ i ∈ ([.add 112 0 0, .add 0 118 0, .add 0 0 126, .madd 116 0 0, .setLengthRequest 117 0,
    .vadd 112 0 0, .vadd 0 116 0, .vadd 0 0 124, .maskAnd 116 116 116, .maskAnd 117 115 117, .maskAnd 117 117 124,
    .mma 123 0 0, .atzero 126 0, .shliShort 0 64, .shliLong 0 0 64, .rotriShort 0 0x3FFF, .rotriLong 0 0 0xFFFFFFFF,
    .ldD 0 0 127 (some 0x38), .stD 0 0 127 (some 7), .ldD 0 0 127 (some 0x40), .barrierQuery 0 64, .mutexTry 0 64,
    .eventWait 0 256, .eventSet 256 0, .accownWrite 2 0, .atsatClear 2 0, .mstWrite 16 0, .artWrite 8 0,
    .uncorrectableError 20 0, .correctedError 0 74, .correctedError 64 0, .linkTrain 0 23 0, .linkTrain 0 0 10,
    .linkDown 8 0, .flitReplay 0 23, .convoyIssue 65632, .convoyIssue 858, .mstSlotBoundary 108, .fillc 12 0,
    .dispatchCycle 64, .moduleReset 8, .doorbell 0 4096 0 false, .hello 64 0 0 0] : List Instr), WellFormed i = false := by decide +kernel
theorem test_well_formed : ∀ i ∈ ([.add 111 117 127, .vadd 111 115 127, .maskAnd 117 116 123, .mma 125 8 16, .shliShort 0 63,
    .ldD 0 0 127 (some 0x100004), .barrierQuery 0 63, .eventWait 0 255, .convoyIssue 857, .convoyIssue 65536, .linkTrain 7 22 7] : List Instr),
    WellFormed i = true := by decide +kernel

theorem test_slots_user : ∀ p ∈ ([(0x00, 1), (0x00, 2), (0x00, 3), (0x00, 4), (0x00, 5), (0x00, 6), (0x01, 0), (0x01, 1),
    (0x01, 2), (0x01, 3), (0x02, 0), (0x02, 1), (0x02, 2), (0x02, 3), (0x03, 0), (0x03, 1), (0x03, 2), (0x03, 3), (0x03, 4),
    (0x04, 0), (0x04, 1), (0x04, 2), (0x04, 3), (0x04, 4), (0x04, 5), (0x04, 6), (0x05, 0), (0x05, 1), (0x05, 2), (0x06, 0),
    (0x06, 1), (0x06, 2), (0x06, 3), (0x07, 0), (0x07, 1), (0x07, 2), (0x07, 3), (0x08, 0), (0x08, 1), (0x08, 2), (0x10, 0),
    (0x10, 1), (0x10, 2), (0x10, 3), (0x10, 4), (0x10, 5), (0x10, 6), (0x11, 0), (0x11, 1), (0x11, 2), (0x12, 0), (0x12, 1),
    (0x13, 0), (0x13, 1)] : List (Nat × Nat)), SlotRuns (user args) p.1 p.2 := by unfold SlotRuns; decide +kernel

/-! ## Scalar instructions -/

theorem test_hyps_ScalarArithmeticResults : sDest 12 = true ∧ readS (cur (user args)) 10 = some 3 ∧
    readS (cur (user args)) 11 = some 4 ∧ readS (cur (user args)) 12 = some 100 ∧ SlotRuns (user args) 0x00 1 ∧
    SlotRuns (user args) 0x00 6 := by unfold SlotRuns; decide +kernel
/-- s10 and s11 hold a dividend and a divisor. -/
def dividing (x y : DWord) : State := user (fun h => { h with sregs := [(10, x), (11, y)] })
theorem test_hyps_ScalarDivisionResults : sDest 127 = true ∧
    (readS (cur (dividing 3 0)) 10 = some 3 ∧ readS (cur (dividing 3 0)) 11 = some 0) ∧
    (readS (cur (dividing 0x8000000000000000 0xFFFFFFFFFFFFFFFF)) 10 = some 0x8000000000000000 ∧
      readS (cur (dividing 0x8000000000000000 0xFFFFFFFFFFFFFFFF)) 11 = some 0xFFFFFFFFFFFFFFFF) ∧
    (readS (cur (dividing 3 4)) 10 = some 3 ∧ readS (cur (dividing 3 4)) 11 = some 4) ∧ SlotRuns (dividing 3 0) 0x01 0 ∧
    SlotRuns (dividing 0x8000000000000000 0xFFFFFFFFFFFFFFFF) 0x01 0 ∧ SlotRuns (dividing 3 4) 0x01 3 := by
  unfold SlotRuns; decide +kernel
theorem test_hyps_ScalarLogicAndCompareResults : (4 : Nat) = ((4 : DWord) &&& 63).toNat ∧ readS (cur (user args)) 10 = some 3 ∧
    readS (cur (user args)) 11 = some 4 ∧ readS (cur (user args)) 12 = some 100 ∧ sDest 12 = true ∧
    SlotRuns (user args) 0x03 4 ∧ SlotRuns (user args) 0x05 2 := by unfold SlotRuns; decide +kernel
theorem test_hyps_ScalarImmediateResults : sDest 12 = true ∧ readS (cur (user args)) 12 = some 100 ∧
    readS (cur (user args)) 10 = some 3 ∧ SlotRuns (user args) 0x04 0 ∧ SlotRuns (user args) 0x04 6 ∧
    ¬ ((63 : BitVec 14).toInt < 0 ∨ 63 < (63 : BitVec 14).toInt) ∧ 63 < (64 : BitVec 14).toInt ∧
    (0x3FFF : BitVec 14).toInt < 0 := by unfold SlotRuns; decide +kernel
theorem test_hyps_ScalarBitCountResults : sDest 12 = true ∧ readS (cur (user args)) 10 = some 3 ∧
    readS (cur (user args)) 20 = some 0 ∧ SlotRuns (user args) 0x07 0 ∧ SlotRuns (user args) 0x07 1 := by
  unfold SlotRuns; decide +kernel
theorem test_hyps_BitFieldResults : sDest 12 = true ∧ readS (cur (user args)) 12 = some 100 ∧ readS (cur (user args)) 10 = some 3 ∧
    SlotRuns (user args) 0x08 0 ∧ SlotRuns (user args) 0x08 2 ∧
    (1 = ((0x0FC1 : Word) &&& 0x3F).toNat ∧ 64 = (((0x0FC1 : Word) >>> 6) &&& 0x3F).toNat + 1 ∧
      ¬ ((0x0FC1 : Word) >>> 12 = 0 ∧ 1 + 64 ≤ 64)) ∧
    (0 = ((0x0FC0 : Word) &&& 0x3F).toNat ∧ (0x0FC0 : Word) >>> 12 = 0 ∧ 0 + 64 ≤ 64) := by unfold SlotRuns; decide +kernel
theorem test_hyps_ScalarOperandsAndResults_registers : (95 : BitVec 7).toNat < 96 ∧ 96 ≤ (111 : BitVec 7).toNat ∧ (111 : BitVec 7).toNat < 112 ∧
    ({} : Hart).holdsPushes = false ∧ (getHart (user (fun h => Hart.begin [] 0 0 [0] h)) 0).holdsPushes = true := by decide +kernel
theorem test_hyps_ScalarOperandsAndResults_specifiers : sDest 112 = false ∧ readS (cur (user args)) 118 = none ∧
    readS (cur (user args)) 126 = none ∧ SlotRuns (user args) 0x00 1 ∧ SlotRuns (user args) 0x04 0 := by unfold SlotRuns; decide +kernel
theorem test_hyps_ScalarAndControlFrame_scalar : ∃ t, exec (.add 12 10 11) (user args) = .next t ∧ t ≠ operandTrap (user args) ∧
    t ≠ instructionTrap (user args) :=
  next_of (fun t => t ≠ operandTrap (user args) ∧ t ≠ instructionTrap (user args)) (by decide +kernel)

theorem test_add_wraps : after (.add 12 10 11) (user (fun h => { h with sregs := [(10, 0xFFFFFFFFFFFFFFFF), (11, 2)] })) 12
    = some 1 := by decide +kernel
theorem test_sub_borrows : after (.sub 12 10 11) (user args) 12 = some 0xFFFFFFFFFFFFFFFF := by decide +kernel
theorem test_madd_uses_old_destination : after (.madd 12 10 11) (user args) 12 = some 112 := by decide +kernel
theorem test_mulhs_signs : after (.mulhs 12 10 11) (user (fun h => { h with sregs := [(10, 0xFFFFFFFFFFFFFFFF), (11, 2)] })) 12
    = some 0xFFFFFFFFFFFFFFFF := by decide +kernel
theorem test_divs_towards_zero : after (.divs 12 10 11) (user (fun h => { h with sregs := [(10, 0xFFFFFFFFFFFFFFF9), (11, 2)] }))
    12 = some 0xFFFFFFFFFFFFFFFD := by decide +kernel
theorem test_remz_by_zero : after (.remz 12 10 20) (user args) 12 = some 3 := by decide +kernel
theorem test_rotr_of_one : after (.rotr 12 10 11) (user args) 12 = some 0x3000000000000000 := by decide +kernel
theorem test_sel_zero_takes_second : after (.sel 20 10 11) (user args) 20 = some 4 := by decide +kernel
theorem test_shli_refuses_64 : causeAfter (.shliShort 12 64) (user args) = some (0x02, 0) := by decide +kernel
theorem test_result_into_zero_is_pushed : after (.add 127 10 11)
    (user (fun h => Hart.begin [] 0 0x44 [0] (args h))) 112 = some 7 := by decide +kernel
theorem test_bexts_sign : after (.bextsLong 12 10 0x41) (user args) 12 = some 1 := by decide +kernel

/-! ## Control transfer -/

theorem test_hyps_ConditionalBranches : (cur (user args)).inRope = false ∧ (cur (user args)).recorded = none ∧
    readS (cur (user args)) 10 = some 3 ∧ readS (cur (user args)) 11 = some 4 ∧ SlotRuns (user args) 0x10 0 ∧
    SlotRuns (user args) 0x10 6 ∧ (readM (cur (user args)) 117).isSome = true ∧ readM (cur (user args)) 10 = none := by
  unfold SlotRuns; decide +kernel
theorem test_hyps_Jumps : (cur (user args)).inRope = false ∧ (cur (user args)).recorded = none ∧ sDest 12 = true ∧
    readS (cur (user args)) 10 = some 3 ∧ (3 : DWord).toNat % 16 ≠ 0 ∧ readS (cur (user args)) 20 = some 0 ∧
    (0 : DWord).toNat % 16 = 0 ∧ SlotRuns (user args) 0x11 0 ∧ SlotRuns (user args) 0x11 1 ∧ SlotRuns (user args) 0x11 2 := by
  unfold SlotRuns; decide +kernel
theorem test_hyps_LoopRotate : SlotRuns (user args) 0x12 0 ∧ (cur (user args)).inRope = false ∧
    (cur (user args)).recorded = none ∧ sDest 10 = true ∧ readS (cur (user args)) 10 = some 3 ∧ 0 < (3 : DWord).toInt ∧
    readS (cur (user args)) 20 = some 0 ∧ (30 : BitVec 7).toNat ≤ 30 ∧ 30 < (31 : BitVec 7).toNat := by
  unfold SlotRuns; decide +kernel
/-- An allocation of 192 vector registers: WBASE.V may stand at 96 at most. -/
def wide : State := user (fun h => { h with chunks := [0, 1, 2, 3, 4, 5] })
theorem test_hyps_LoopsAndWindows_windows : (cur wide).valloc ≤ 512 ∧ (cur wide).chunks ≠ [] ∧ SlotRuns wide 0x12 1 ∧ SlotRuns wide 0x13 1 ∧
    (160 : Int) = (cur wide).wbS + 16 * (10 : BitVec 7).toInt ∧ (96 : Int) = (cur wide).wbV + 8 * (12 : BitVec 7).toInt ∧
    96 + 96 ≤ (cur wide).valloc ∧ (176 : Int) = (cur wide).wbS + 16 * (11 : BitVec 7).toInt := by
  unfold SlotRuns; decide +kernel
theorem test_hyps_EncodeDecode : decodeSlot 0x00142B04 (some 0xAB) = .ok (.lih 5 5 0xAB) := by decide +kernel
theorem test_hyps_LoopsAndWindows_loops : SlotRuns (user args) 0x12 0 ∧ (cur (user args)).inRope = false ∧
    (cur (user args)).recorded = none ∧ sDest 12 = true ∧ readS (cur (user args)) 12 = some 100 ∧ (30 : BitVec 7).toNat ≤ 30 ∧
    30 < (31 : BitVec 7).toNat := by unfold SlotRuns; decide +kernel
/-- Harts 0 of two tiles, one above the other: one rope with hart 0 of tile 0 its leader (code 1). -/
def roped (hk : Nat) (f : Hart → Hart) : State :=
  { State.reset with
    cur := hk
    harts := [(0, f (Hart.begin [] 0 4 [0] { st := .running, chunks := [0, 1, 2], rstat := 3, ctxid := 1, sregs := [(10, 3)] })),
      (96, f (Hart.begin [] 0 4 [0] { st := .follower, chunks := [0, 1, 2], rstat := 11, ctxid := 1, sregs := [(10, 3)] }))] }
/-- The same rope, its leader's decision standing in hart 96's first control slot. -/
def told : State := roped 96 (fun h => { h with conv := h.conv.map (fun c => { c with ctl := [(0, .decided (some 64, true))] }) })
theorem test_hyps_RopeDecisions : (cur (roped 0 id)).inRope = true ∧ 96 ∈ ropeOf (roped 0 id) 0 ∧
    (getHart (roped 0 id) 96).conv.isSome = true ∧
    (cur (roped 0 id)).recorded = none ∧ isMember (roped 0 id) (roped 0 id).cur = false ∧
    (cur (roped 96 id)).recorded = none ∧ isMember (roped 96 id) (roped 96 id).cur = true ∧
    (cur told).recorded = some (.decided (some 64, true)) ∧ (64 : DWord).toNat % 16 = 0 ∧ (68 : DWord).toNat % 16 ≠ 0 ∧
    sDest 12 = true ∧ readS (cur told) 10 = some 3 ∧ readS (cur told) 11 = some 0 ∧ (30 : BitVec 7).toNat ≤ 30 ∧
    readM (cur told) 117 = some 0 ∧ readM (cur told) 116 = some (BitVec.allOnes 1024) ∧
    (∀ f ∈ [0, 1, 2, 3, 4, 5, 6], SlotRuns (roped 0 id) 0x10 f ∧ SlotRuns (roped 96 id) 0x10 f) ∧
    (∀ f ∈ [0, 1, 2], SlotRuns (roped 0 id) 0x11 f ∧ SlotRuns (roped 96 id) 0x11 f) ∧
    SlotRuns (roped 0 id) 0x12 0 ∧ SlotRuns (roped 96 id) 0x12 0 := by
  unfold SlotRuns; decide +kernel
theorem test_hyps_ConvoyRetirement : ∀ q ∈ ([([], none, false, 0), ([5], some 64, true, 1), ([5, 6], none, false, 3)] :
    List (List VReg × Option DWord × Bool × Nat)),
    let h := cur (user (fun h => { h with
      q := { pend := q.1 }
      conv := some { hdr := 4 + BitVec.ofNat 32 q.2.2.2, slot := 1, target := q.2.1, ret := q.2.2.1 } }))
    ∃ c, h.conv = some c ∧ hdrNS c.hdr ≤ c.slot ∧ h.q.pend = q.1 ∧ c.target = q.2.1 ∧ c.ret = q.2.2.1 := by
  intro q hq; simp only [List.mem_cons, List.not_mem_nil, or_false] at hq
  rcases hq with rfl | rfl | rfl <;> exact ⟨_, rfl, by decide +kernel, rfl, rfl, rfl⟩
theorem test_hyps_ScalarAndControlFrame_control : (cur (user args)).inRope = false ∧ (cur (user args)).recorded = none ∧
    ∃ t, exec (.lrotShort 10 0 2) (user args) = .next t ∧ t ≠ operandTrap (user args) ∧ t ≠ instructionTrap (user args) ∧
      (getHart t 0).hcause = 0 :=
  ⟨by decide +kernel, by decide +kernel, next_of (fun t => t ≠ operandTrap (user args) ∧ t ≠ instructionTrap (user args) ∧
    (getHart t 0).hcause = 0) (by decide +kernel)⟩

/-- Where a control slot of the convoy at address 0x1000 decided to go. -/
def target (i : Instr) : Option (Option DWord) :=
  match exec i (user (fun h => { args h with pc := 0x1000 })) with
  | .next t => (getHart t 0).conv.map (·.target)
  | _ => none
theorem test_br_lts_taken_backwards : target (.brLtsShort 10 11 0x7F) = some (some 0xFF0) := by decide +kernel
theorem test_br_eq_not_taken : target (.brEqShort 10 11 0x7F) = some none := by decide +kernel
theorem test_jr_misaligned : causeAfter (.jr 12 10) (user args) = some (cALIGN, alignInfo 16 true) := by decide +kernel
theorem test_jal_links : after (.jalShort 12 4) (user (fun h => { h with pc := 0x1000 })) 12 = some 0x1010 := by decide +kernel
theorem test_lrot_counts_down : after (.lrotShort 10 0 1) (user args) 10 = some 2 := by decide +kernel
theorem test_wbase_past_the_file : causeAfter (.wbase 11 0) (user args) = some (cILLEGALOPERAND, 0) := by decide +kernel

/-! ## Vector instructions -/

/-- v0 holds 1, 2, 3, 4 and v1 holds 5, 6, 7, 8 in its 32-bit elements, v2 the IEEE single 1.0 in two; VL = 4. -/
def vecs (sew : Nat) (f : Hart → Hart) : State :=
  let h : Hart := { st := .running, chunks := [0, 1, 2], vl := 4, vcfg := BitVec.ofNat 64 sew }
  { State.reset with
    cur := 0
    harts := [(0, f (Hart.begin [] 0 0x44 [0] h))]
    cores := [(0, { pool := [(0, 0x00000004000000030000000200000001), (1, 0x00000008000000070000000600000005),
      (2, 0x3F8000003F800000)] })] }
theorem test_vecs_shape : (cur (vecs 3 id)).sew = 32 ∧ (cur (vecs 3 id)).grp = 1 ∧ (cur (vecs 3 id)).vl = 4 := by decide +kernel
theorem test_vadd_lanes : elemAt (.vadd 3 0 1) (vecs 3 id) 3 2 32 = some 10 := by decide +kernel
theorem test_vadd_tail_kept : elemAt (.vadd 0 0 1) (vecs 3 (fun h => { h with vl := 2 })) 0 2 32 = some 3 := by decide +kernel
theorem test_vfadd_ones : elemAt (.vfadd 3 2 2) (vecs 3 id) 3 1 32 = some 0x40000000 := by decide +kernel
theorem test_vssubz_clamps : elemAt (.vssubz 3 0 1) (vecs 3 id) 3 0 32 = some 0 := by decide +kernel

theorem elem_bv (v w : Nat) : ∃ x : Nat → BitVec w, ∀ i, (x i).toNat = elem v i w :=
  ⟨fun i => BitVec.ofNat w (elem v i w), fun i => by
    rw [BitVec.toNat_ofNat, Nat.mod_eq_of_lt]; exact Nat.mod_lt _ (Nat.two_pow_pos w)⟩

/-- A status with a prefix pending that names format code f and specifiers b and c. -/
def pfx (f b c : Nat) : DWord := BitVec.ofNat 64 (0x100 + (0x44 + f * 2 ^ 11 + b * 2 ^ 18 + c * 2 ^ 25) * 2 ^ 32)

theorem test_slots_vector : ∀ p ∈ ([(0x18, 0), (0x18, 1), (0x18, 2), (0x18, 3), (0x18, 4), (0x18, 5), (0x19, 0), (0x19, 1),
    (0x19, 2), (0x19, 3), (0x1A, 0), (0x1A, 1), (0x1A, 2), (0x1A, 3), (0x1B, 0), (0x1B, 1), (0x1B, 2), (0x1C, 0), (0x1C, 1),
    (0x1C, 2), (0x1C, 3), (0x1D, 0), (0x1D, 1), (0x1D, 2), (0x1D, 3), (0x20, 0), (0x20, 1), (0x20, 2), (0x20, 3), (0x20, 4),
    (0x20, 5), (0x21, 0), (0x21, 1), (0x21, 2), (0x21, 3), (0x21, 4), (0x22, 0), (0x22, 1), (0x22, 2), (0x24, 0), (0x24, 1),
    (0x24, 2), (0x24, 3), (0x24, 4), (0x24, 5), (0x25, 0), (0x25, 1), (0x25, 2), (0x25, 3), (0x28, 0), (0x28, 1), (0x28, 2),
    (0x28, 3), (0x28, 4), (0x29, 0), (0x29, 1), (0x2A, 0), (0x2A, 1), (0x2A, 2), (0x2A, 3), (0x30, 0), (0x30, 1), (0x30, 2),
    (0x31, 0), (0x31, 1), (0x31, 2), (0x31, 3), (0x31, 4), (0x32, 0), (0x32, 1), (0x33, 0), (0x33, 1), (0x33, 2), (0x33, 3),
    (0x33, 4), (0x33, 5), (0x33, 6), (0x33, 7), (0x34, 0), (0x34, 1), (0x35, 0), (0x35, 1), (0x35, 2), (0x35, 3), (0x35, 4),
    (0x35, 5), (0x36, 0), (0x36, 1), (0x36, 2), (0x36, 3)] : List (Nat × Nat)), SlotRuns (vecs 3 id) p.1 p.2 := by
  unfold SlotRuns; decide +kernel
/-- The values of v0 and v1 in the state above. -/
def v0 : Nat := 0x00000004000000030000000200000001
def v1 : Nat := 0x00000008000000070000000600000005
theorem test_hyps_IntegerVectorResults : 8 ≤ (cur (vecs 3 id)).sew ∧ VvReady (vecs 3 id) 3 0 1 v0 v1 0 ∧
    SlotRuns (vecs 3 id) 0x18 0 ∧ SlotRuns (vecs 3 id) 0x1D 3 ∧
    ∃ x y d : Nat → BitVec (cur (vecs 3 id)).sew, (∀ i, (x i).toNat = elem v0 i (cur (vecs 3 id)).sew) ∧
      (∀ i, (y i).toNat = elem v1 i (cur (vecs 3 id)).sew) ∧ ∀ i, (d i).toNat = elem 0 i (cur (vecs 3 id)).sew := by
  obtain ⟨x, hx⟩ := elem_bv v0 (cur (vecs 3 id)).sew
  obtain ⟨y, hy⟩ := elem_bv v1 (cur (vecs 3 id)).sew
  obtain ⟨d, hd⟩ := elem_bv 0 (cur (vecs 3 id)).sew
  exact ⟨by decide +kernel, by unfold VvReady; decide +kernel, by unfold SlotRuns; decide +kernel,
    by unfold SlotRuns; decide +kernel, x, y, d, hx, hy, hd⟩
theorem test_hyps_CompareResults : mDest 117 = true ∧ (cur (vecs 3 id)).len ≤ 1024 ∧ 8 ≤ (cur (vecs 3 id)).sew ∧
    readV (curLocal (vecs 3 id)) 0 (cur (vecs 3 id)).grp = some v0 ∧ readV (curLocal (vecs 3 id)) 1 (cur (vecs 3 id)).grp = some v1 ∧
    FloatAt (cur (vecs 3 id)) f32 ∧ SlotRuns (vecs 3 id) 0x24 0 ∧ SlotRuns (vecs 3 id) 0x25 3 :=
  ⟨by decide +kernel, by decide +kernel, by decide +kernel, by decide +kernel, by decide +kernel,
    .inl ⟨by decide +kernel, .inr (.inl ⟨by decide +kernel, rfl⟩)⟩, by unfold SlotRuns; decide +kernel,
    by unfold SlotRuns; decide +kernel⟩
theorem test_hyps_FloatVectorResults : VvReady (vecs 3 id) 3 0 1 v0 v1 0 ∧ FloatAt (cur (vecs 3 id)) f32 ∧
    SlotRuns (vecs 3 id) 0x20 0 ∧ SlotRuns (vecs 3 id) 0x22 2 ∧
    FloatAt (cur (vecs 2 (fun h => { h with hstat := pfx 0 127 127 }))) bf16 :=
  ⟨by unfold VvReady; decide +kernel, .inl ⟨by decide +kernel, .inr (.inl ⟨by decide +kernel, rfl⟩)⟩,
    by unfold SlotRuns; decide +kernel, by unfold SlotRuns; decide +kernel,
    .inr ⟨by decide +kernel, by decide +kernel, rfl, false, by decide +kernel⟩⟩
/-- Codes of BF16: 1, infinities, zeros, quiet and signalling NaN, -1. -/
theorem test_hyps_FloatCornersAndRounding_corners : bf16 ∈ [f64, f32, f16, bf16] ∧ (decodeF bf16 0x7FC0).isNan = true ∧
    (decodeF bf16 0x7F81).isSig = true ∧ decodeF bf16 0x7F80 = .inf false ∧ decodeF bf16 0xFF80 = .inf true ∧
    (decodeF bf16 0x8000).isZero = true ∧ (decodeF bf16 0x8000).neg = true ∧ (decodeF bf16 0xBF80).neg = true ∧
    (decodeF bf16 0xBF80).isNan = false ∧ (decodeF bf16 0xBF80).isZero = false ∧ (decodeF bf16 0xBF80).isInf = false := by
  decide +kernel
theorem test_hyps_FloatCornersAndRounding_rounding : 0 < 1 ∧ f64 ∈ [f64, f32, f16, bf16, e5m2] ∧ 8 ∈ [4, 8, 16, 32, 64] ∧
    (((2 ^ (8 - 1) : Nat) - 1 : Int) < 128 ∧ (-129 : Int) < -(2 ^ (8 - 1) : Nat) ∧ (-(2 ^ (8 - 1) : Nat) : Int) ≤ -128) := by
  decide +kernel
theorem test_hyps_Conversions_results : (cur (vecs 3 id)).prefixLive = false ∧
    readV (curLocal (vecs 3 id)) 0 (cur (vecs 3 id)).grp = some v0 ∧ DestReady (vecs 3 id) 8 0 64 ∧ DestReady (vecs 3 id) 8 0 4 ∧
    (0 : BitVec 7).toNat < 4 ∧ 64 = f64.width ∧ 64 = 4 * 2 ^ (4 : BitVec 7).toNat ∧ 4 = 4 * 2 ^ (0 : BitVec 7).toNat ∧
    FloatAt (cur (vecs 3 id)) f32 ∧ (cur (vecs 3 id)).sew < 64 ∧ 4 < (cur (vecs 3 id)).sew ∧ SlotRuns (vecs 3 id) 0x28 0 ∧
    SlotRuns (vecs 3 id) 0x2A 3 :=
  ⟨by decide +kernel, by decide +kernel, ⟨by decide +kernel, by decide +kernel, _, _, _, rfl, rfl, by decide +kernel⟩,
    ⟨by decide +kernel, by decide +kernel, _, _, _, rfl, rfl, by decide +kernel⟩, by decide +kernel, by decide +kernel,
    by decide +kernel, by decide +kernel, .inl ⟨by decide +kernel, .inr (.inl ⟨by decide +kernel, rfl⟩)⟩, by decide +kernel,
    by decide +kernel, by unfold SlotRuns; decide +kernel, by unfold SlotRuns; decide +kernel⟩
theorem test_hyps_Conversions_prefixed :
    (let s := vecs 3 (fun h => { h with hstat := pfx 0x02 127 127 })
     let q : Pfx := ⟨.e4m3, false, noSpec, noSpec⟩
     readV (curLocal s) 0 (cur s).grp = some v0 ∧ (cur s).prefixLive = true ∧ (cur s).readPfx = some q ∧ q.c = noSpec ∧
       q.f.isInt = false ∧ q.f.block = 0 ∧ q.b = noSpec ∧ q.f.elem = some e4m3 ∧ (8 : BitVec 7).toNat = 8 ∧
       DestReady s 8 0 q.f.width ∧ f32 ∈ [f64, f32, f16] ∧ f32.width = (cur s).sew ∧ SlotRuns s 0x28 0) ∧
    (let s := vecs 1 (fun h => { h with hstat := pfx 0x08 2 127 })
     let q : Pfx := ⟨.mxe4, false, 2, noSpec⟩
     readV (curLocal s) 0 (cur s).grp = some v0 ∧ (cur s).prefixLive = true ∧ (cur s).readPfx = some q ∧
       q.f.isInt = false ∧ q.f.width = (cur s).sew ∧ DestReady s 8 0 f32.width ∧ q.f.block ≠ 0 ∧ q.b.toNat < 96 ∧
       readV (curLocal s) q.b 1 = some 0x3F8000003F800000 ∧ scalesFit q.f (cur s).len = true ∧
       overlaps q.b 1 0 (cur s).grp = false ∧ (∀ g n, destShape (cur s) f32.width = some (g, n) → overlaps q.b 1 8 g = false) ∧
       SlotRuns s 0x28 0) ∧
    (cur (vecs 3 id)).prefixLive = false ∧ SlotRuns (vecs 3 id) 0x28 0 ∧ SlotRuns (vecs 3 id) 0x28 1 ∧ 4 < (5 : BitVec 7).toNat := by
  refine ⟨⟨by decide +kernel, by decide +kernel, by decide +kernel, rfl, rfl, rfl, rfl, by decide +kernel, by decide +kernel,
    ⟨by decide +kernel, by decide +kernel, _, _, _, rfl, rfl, by decide +kernel⟩, by decide +kernel, by decide +kernel,
    by unfold SlotRuns; decide +kernel⟩, ⟨by decide +kernel, by decide +kernel, by decide +kernel, rfl, by decide +kernel,
    ⟨by decide +kernel, by decide +kernel, _, _, _, rfl, rfl, by decide +kernel⟩, by decide +kernel, by decide +kernel,
    by decide +kernel, by decide +kernel, by decide +kernel, ?_, by unfold SlotRuns; decide +kernel⟩, by decide +kernel,
    by unfold SlotRuns; decide +kernel, by unfold SlotRuns; decide +kernel, by decide +kernel⟩
  intro g n h
  have e : destShape (cur (vecs 1 (fun h => { h with hstat := pfx 0x08 2 127 }))) f32.width = some (4, 128) := by decide +kernel
  rw [e] at h; cases h; decide +kernel
theorem test_hyps_ComplexResults : (cur (vecs 4 id)).sew = 64 ∧ VvReady (vecs 4 id) 3 0 1 v0 v1 0 ∧ SlotRuns (vecs 4 id) 0x2C 0 ∧
    SlotRuns (vecs 4 id) 0x2C 1 ∧ SlotRuns (vecs 4 id) 0x2C 2 ∧ SlotRuns (vecs 4 id) 0x2C 3 ∧ (cRe 0).isZero = true ∧
    (cIm 0).isZero = true ∧ (cRe 0x7F800000FF800000).isInf = true ∧ (cIm 0x7F800000FF800000).isInf = true ∧
    (cRe 0x7FC00000).isNan = true := by unfold SlotRuns VvReady; decide +kernel
theorem test_hyps_VectorMoveResults : let s := vecs 3 (fun h => { h with sregs := [(10, 1)] })
    V1Ready s 3 0 v0 0 ∧ VvReady s 3 0 1 v0 v1 0 ∧ V1Ready s 3 3 0 0 ∧ readS (cur s) 10 = some 1 ∧ 8 ≤ (cur s).sew ∧
    1 ≤ (6 : BitVec 7).toNat ∧ (6 : BitVec 7).toNat ≤ 6 ∧ SlotRuns s 0x30 0 ∧ SlotRuns s 0x34 1 ∧ SlotRuns s 0x36 3 ∧
    (0 : Nat) ≠ (cur s).vl.toNat ∧ (cur (vecs 3 (fun h => { h with vl := 0 }))).vl.toNat = 0 := by
  unfold SlotRuns VvReady V1Ready; decide +kernel
theorem test_hyps_ReductionAndMaskResults : let s := vecs 3 (fun h => { h with sregs := [(10, 1)] })
    sDest 12 = true ∧ readS (cur s) 10 = some 1 ∧ readV (curLocal s) 0 (cur s).grp = some v0 ∧ (cur s).maskFits = true ∧
    8 ≤ (cur s).sew ∧ FloatAt (cur s) f32 ∧ tscOperand 0 s s.cur = true ∧ mDest 117 = true ∧ (cur s).len ≤ 1024 ∧
    (readM (cur s) 116).isSome = true ∧ SlotRuns s 0x33 0 ∧ SlotRuns s 0x35 5 ∧ SlotRuns s 0x36 2 :=
  ⟨by decide +kernel, by decide +kernel, by decide +kernel, by decide +kernel, by decide +kernel,
    .inl ⟨by decide +kernel, .inr (.inl ⟨by decide +kernel, rfl⟩)⟩, by decide +kernel, by decide +kernel, by decide +kernel,
    by decide +kernel, by unfold SlotRuns; decide +kernel, by unfold SlotRuns; decide +kernel, by unfold SlotRuns; decide +kernel⟩
theorem test_hyps_VectorFrame : ∀ i ∈ ([.vadd 3 0 1, .vwidens 8 0 4, .vcmpeq 117 0 1, .vrsum 12 0 10] : List Instr),
    (match exec i (vecs 3 id) with
      | .next t => decide (t ≠ operandTrap (vecs 3 id) ∧ t ≠ instructionTrap (vecs 3 id)) | _ => false) = true := by
  decide +kernel

theorem test_vdivs_overflow : elemAt (.vdivs 3 0 1) { vecs 3 id with
    cores := [(0, { pool := [(0, 0x80000000), (1, 0xFFFFFFFF)] })] } 3 0 32 = some 0x80000000 := by decide +kernel
theorem test_vrsum_adds_initial : after (.vrsum 12 0 10) (vecs 3 (fun h => { h with sregs := [(10, 100)] })) 12 = some 110 := by
  decide +kernel
theorem test_vnarrz_sets_saturation : elemAt (.vnarrz 3 0 1) { vecs 3 id with
    cores := [(0, { pool := [(0, 0x00000001FFFFFFFF)] })] } 3 0 8 = some 255 := by decide +kernel
theorem test_vfcvt_to_bf16 : elemAt (.vfcvt 3 2 3) (vecs 3 id) 3 1 16 = some 0x3F80 := by decide +kernel
theorem test_vsldn : elemAt (.vsldn 3 0 10) (vecs 3 (fun h => { h with sregs := [(10, 1)] })) 3 0 32 = some 2 := by decide +kernel
theorem test_vcmpltz_mask : (match exec (.vcmpltz 117 0 1) (vecs 3 id) with
    | .next t => some ((getHart t 0).maskReg 1) | _ => none) = some 15 := by decide +kernel
theorem test_mfirst_of_none : after (.mfirst 12 117) (vecs 3 id) 12 = some (BitVec.allOnes 64) := by decide +kernel

/-! ## Memory instructions -/

theorem stored_of {o : Stored} (h : (match o with | .all _ => true | _ => false) = true) : ∃ w, o = .all w := by
  cases o with
  | all w => exact ⟨w, rfl⟩
  | _ => cases h
theorem some_of {α : Type} {o : Option α} (h : o.isSome = true) : ∃ x, o = some x := Option.isSome_iff_exists.mp h
theorem some_all_of {α : Type} {o : Option α} {f : α → Checked} (p : α → List Acc → State → Prop)
    [∀ x a t, Decidable (p x a t)]
    (h : (match o with
      | some x => (match f x with | .all a t => decide (p x a t) | _ => false)
      | none => false) = true) : ∃ x a t, o = some x ∧ f x = .all a t ∧ p x a t := by
  cases o with
  | none => cases h
  | some x => exact let ⟨a, t, h1, h2⟩ := all_of (p x) h; ⟨x, a, t, rfl, h1, h2⟩
/-- Whether every element of a store is written. -/
def storesAll (o : Stored) : Bool := match o with | .all _ => true | _ => false

/-- s10 names byte 0x100 of the core's own scratchpad, which holds 0xFF81 there, s11 = 8, s12 = 100. -/
def spad (sew : Nat) (f : Hart → Hart) : State :=
  let s := vecs sew (fun h => f { h with sregs := [(10, 0xE000000000000100), (11, 8), (12, 100)] })
  { s with mem := [(scratchLoc 0 0x100, 0x81), (scratchLoc 0 0x101, 0xFF)] }
theorem test_slots_memory : ∀ p ∈ ([(0x14, 0), (0x14, 1), (0x14, 2), (0x14, 3), (0x14, 4), (0x14, 5), (0x14, 6), (0x15, 0),
    (0x15, 1), (0x15, 2), (0x15, 3), (0x16, 0), (0x16, 1), (0x16, 2), (0x38, 0), (0x38, 1), (0x38, 2), (0x38, 3), (0x39, 0),
    (0x39, 1), (0x39, 2), (0x39, 3), (0x39, 4), (0x3A, 0), (0x3A, 1), (0x3A, 2), (0x3A, 3), (0x3A, 4), (0x3A, 5), (0x3A, 6),
    (0x3A, 7), (0x3A, 8), (0x3A, 9), (0x3B, 0), (0x3B, 1), (0x3B, 2), (0x3B, 3), (0x3B, 4), (0x3B, 5), (0x3B, 6), (0x3B, 7),
    (0x3B, 8), (0x3B, 9), (0x3C, 0), (0x3C, 1), (0x3D, 0), (0x3D, 1), (0x3D, 2), (0x3E, 0), (0x3E, 1)] : List (Nat × Nat)),
    SlotRuns (spad 3 id) p.1 p.2 := by unfold SlotRuns; decide +kernel
theorem test_hyps_ScalarLoadsAndStores_loads : SlotRuns (spad 3 id) 0x14 6 ∧ attrOf false none = some {} ∧
    readS (cur (spad 3 id)) 10 = some 0xE000000000000100 ∧ readS (cur (spad 3 id)) 127 = some 0 ∧ sDest 12 = true ∧
    windowOf 0xE000000000000100 ≠ 0xE3 ∧ (cur (spad 3 id)).lcnt < 63 ∧
    ∃ ps u, elemCheck (spad 3 id) (agentOf (spad 3 id) (spad 3 id).cur) .load 0xE000000000000100 8 1 .scalar = .ok ps u ∧
      isReg (ps.headD (0, 0)).1 = false ∧ accRefusal u (spad 3 id).cur .load ⟨0, 0xE000000000000100, 8, ps⟩ = none := by
  refine ⟨by unfold SlotRuns; decide +kernel, ?_, ?_, ?_, ?_,
    ?_, ?_, ok_of (fun ps u => isReg (ps.headD (0, 0)).1 = false ∧
      accRefusal u (spad 3 id).cur .load ⟨0, 0xE000000000000100, 8, ps⟩ = none) (by decide +kernel)⟩
  all_goals decide +kernel
theorem test_hyps_ScalarLoadsAndStores_stores : SlotRuns (spad 3 id) 0x15 3 ∧ attrOf false none = some {} ∧
    readS (cur (spad 3 id)) 10 = some 0xE000000000000100 ∧ readS (cur (spad 3 id)) 127 = some 0 ∧
    readS (cur (spad 3 id)) 12 = some 100 ∧ windowOf 0xE000000000000100 ≠ 0xE3 ∧ (cur (spad 3 id)).scnt < 63 ∧
    (cur (spad 3 id)).task = none ∧
    ∃ ps u, elemCheck (spad 3 id) (agentOf (spad 3 id) (spad 3 id).cur) .store 0xE000000000000100 8 1 .scalar = .ok ps u ∧
      isReg (ps.headD (0, 0)).1 = false ∧ accRefusal u (spad 3 id).cur .store ⟨0, 0xE000000000000100, 8, ps⟩ = none ∧
      noRoom u (spad 3 id).cur false (Acc.key ⟨0, 0xE000000000000100, 8, ps⟩) 8 = false ∧ ps = [(scratchLoc 0 0x100, 8)] ∧
      (∀ j, j < 8 → storable (scratchLoc 0 0x100 + j) = true) ∧ ∀ j, j < 8 → ∀ k, k < 8 →
        homeLoc u (scratchLoc 0 0x100 + j) = homeLoc u (scratchLoc 0 0x100 + k) → j = k := by
  refine ⟨by unfold SlotRuns; decide +kernel, ?_, ?_, ?_, ?_,
    ?_, ?_, ?_, ok_of (fun (ps : List (Nat × Nat)) (u : State) => isReg (ps.headD (0, 0)).1 = false ∧
      accRefusal u (spad 3 id).cur .store ⟨0, 0xE000000000000100, 8, ps⟩ = none ∧
      noRoom u (spad 3 id).cur false (Acc.key ⟨0, 0xE000000000000100, 8, ps⟩) 8 = false ∧ ps = [(scratchLoc 0 0x100, 8)] ∧
      (∀ j, j < 8 → storable (scratchLoc 0 0x100 + j) = true) ∧ ∀ j, j < 8 → ∀ k, k < 8 →
        homeLoc u (scratchLoc 0 0x100 + j) = homeLoc u (scratchLoc 0 0x100 + k) → j = k) (by decide +kernel)⟩
  all_goals decide +kernel
theorem test_hyps_HintsAndMemoryEvents_hints : attrOf false none = some {} ∧ readS (cur (spad 3 id)) 10 = some 0xE000000000000100 ∧
    readS (cur (spad 3 id)) 127 = some 0 ∧ SlotRuns (spad 3 id) 0x16 0 ∧ SlotRuns (spad 3 id) 0x16 2 ∧
    SlotRuns (spad 3 id) 0x3E 1 ∧ (cur (spad 3 id)).scnt < 63 := by unfold SlotRuns; decide +kernel
theorem test_hyps_VectorLoads : ∀ q ∈ ([(.unit, 0), (.stride 11, 1), (.index 5, 2)] : List (Mode × Nat)),
    let s := spad 3 id
    SlotRuns s 0x38 q.2 ∧ (cur s).maskFits = true ∧ readV (curLocal s) 3 (cur s).grp = some 0 ∧ (cur s).lcnt < 63 ∧
    ∃ addr as u, vecAddrs (curLocal s) q.1 3 10 {} = some addr ∧ checkMode q.1 (addr 0) .load
        (elemAccs (cur s) (elemBytes (cur s)) addr) s s.cur = .all as u ∧ refusals u s.cur .load as = [] := by
  intro q hq; simp only [List.mem_cons, List.not_mem_nil, or_false] at hq
  rcases hq with rfl | rfl | rfl <;>
  exact ⟨by unfold SlotRuns; decide +kernel, by decide +kernel, by decide +kernel, by decide +kernel,
    some_all_of (fun _ as u => refusals u (spad 3 id).cur .load as = []) (by decide +kernel)⟩
theorem test_hyps_EffectiveAddresses : let x := curLocal (spad 3 id)
    readS x.h 10 = some 0xE000000000000100 ∧ readS x.h 11 = some 8 ∧ 8 ≤ x.h.sew ∧ x.h.grp * max x.h.sew 32 / x.h.sew = 1 ∧
    readV x 5 1 = some 0 ∧ (∃ f, vecAddrs x .unit 3 10 {} = some f) ∧ (∃ f, vecAddrs x (.stride 11) 3 10 {} = some f) ∧
    (∃ f, vecAddrs x (.index 5) 3 10 {} = some f) ∧ (curLocal (spad 0 id)).h.sew = 4 ∧
    (let y := curLocal (spad 1 (fun h => { h with vcfg := 0x21 })); y.h.grp * max y.h.sew 32 / y.h.sew > 8) :=
  ⟨by decide +kernel, by decide +kernel, by decide +kernel, by decide +kernel, by decide +kernel, some_of (by decide +kernel),
    some_of (by decide +kernel), some_of (by decide +kernel), by decide +kernel, by decide +kernel⟩
theorem test_hyps_VectorStores : (∀ n ∈ [0, 3], let s := spad n id
    (cur s).scnt < 63 ∧ readV (curLocal s) 0 (cur s).grp = some v0 ∧ SlotRuns s 0x39 0 ∧ (cur s).maskFits = true ∧
    ∃ addr as u w, vecAddrs (curLocal s) .unit 0 10 {} = some addr ∧ checkMode .unit (addr 0) .store
        (elemAccs (cur s) (elemBytes (cur s)) addr) s s.cur = .all as u ∧ refusals u s.cur .store as = [] ∧
      coveredSectors u (decide ((cur s).sew = 4)) as = [] ∧
      (n = 3 → (cur s).sew ≠ 4 ∧
        storeAccs (fun r k => storeAcc r s.cur 0 false k (elem v0 k.idx (cur s).sew)) u as = .all w) ∧
      (n = 0 → (cur s).sew = 4 ∧ storeAccs (fun r k => storeNibble r s.cur 0 false k (decide (k.idx % 2 = 1)) (elem v0 k.idx 4)) u as
        = .all w)) ∧
    (let s := spad 3 id
     SlotRuns s 0x39 3 ∧ readS (cur s) 10 = some 0xE000000000000100 ∧ (cur s).sew ≠ 4 ∧ (cur s).len * (cur s).sew / 8 ≤ 1024 ∧
     ∃ as u w, checkMode .unit (addOfs (0xE000000000000100 : DWord).toNat 0) .store
        (((List.range ((cur s).len * (cur s).sew / 8)).filter (fun j => (cur s).selBit j && decide (startElem (cur s) ≤ j))).map
          (fun j => { idx := j, va := (0xE000000000000100 : DWord) + BitVec.ofInt 64 0 + BitVec.ofNat 64 j, n := 1 })) s s.cur = .all as u ∧
       refusals u s.cur .store as = [] ∧ coveredSectors u false as = [] ∧
       storeAccs (fun r k => storeAcc r s.cur 0 false k (elem v0 k.idx 8)) u as = .all w) := by
  refine ⟨fun n hn => ?_, ?_⟩
  · simp only [List.mem_cons, List.not_mem_nil, or_false] at hn
    rcases hn with rfl | rfl
    · obtain ⟨addr, as, u, h1, h2, h3, h4, h5⟩ := some_all_of (o := vecAddrs (curLocal (spad 0 id)) .unit 0 10 {})
        (f := fun addr => checkMode .unit (addr 0) .store
          (elemAccs (cur (spad 0 id)) (elemBytes (cur (spad 0 id))) addr) (spad 0 id) 0)
        (fun _ as u => refusals u 0 .store as = [] ∧ coveredSectors u true as = [] ∧
          storesAll (storeAccs (fun r k => storeNibble r 0 0 false k (decide (k.idx % 2 = 1)) (elem v0 k.idx 4)) u as) = true)
        (by decide +kernel)
      obtain ⟨w, hw⟩ := stored_of h5
      exact ⟨by decide +kernel, by decide +kernel, by unfold SlotRuns; decide +kernel, by decide +kernel, addr, as, u, w, h1, h2,
        h3, h4, by simp, fun _ => ⟨by decide +kernel, hw⟩⟩
    · obtain ⟨addr, as, u, h1, h2, h3, h4, h5⟩ := some_all_of (o := vecAddrs (curLocal (spad 3 id)) .unit 0 10 {})
        (f := fun addr => checkMode .unit (addr 0) .store
          (elemAccs (cur (spad 3 id)) (elemBytes (cur (spad 3 id))) addr) (spad 3 id) 0)
        (fun _ as u => refusals u 0 .store as = [] ∧ coveredSectors u false as = [] ∧
          storesAll (storeAccs (fun r k => storeAcc r 0 0 false k (elem v0 k.idx (cur (spad 3 id)).sew)) u as) = true)
        (by decide +kernel)
      obtain ⟨w, hw⟩ := stored_of h5
      exact ⟨by decide +kernel, by decide +kernel, by unfold SlotRuns; decide +kernel, by decide +kernel, addr, as, u, w, h1, h2,
        h3, h4, fun _ => ⟨by decide +kernel, hw⟩, by simp⟩
  · obtain ⟨as, u, h1, h2, h3, h4⟩ := all_of (o := checkMode .unit (addOfs (0xE000000000000100 : DWord).toNat 0)
        .store (((List.range ((cur (spad 3 id)).len * (cur (spad 3 id)).sew / 8)).filter (fun j =>
          (cur (spad 3 id)).selBit j && decide (startElem (cur (spad 3 id)) ≤ j))).map (fun j =>
          { idx := j, va := (0xE000000000000100 : DWord) + BitVec.ofInt 64 0 + BitVec.ofNat 64 j, n := 1 })) (spad 3 id) 0)
      (fun as u => refusals u 0 .store as = [] ∧ coveredSectors u false as = [] ∧
        storesAll (storeAccs (fun r k => storeAcc r 0 0 false k (elem v0 k.idx 8)) u as) = true) (by decide +kernel)
    obtain ⟨w, hw⟩ := stored_of h4
    exact ⟨by unfold SlotRuns; decide +kernel, by decide +kernel, by decide +kernel, by decide +kernel, as, u, w, h1, h2, h3, hw⟩
theorem test_hyps_BlockFormatMoves : let s := spad 1 (fun h => { h with hstat := pfx 0x08 2 127 })
    let p : Pfx := ⟨.mxe4, false, 2, noSpec⟩
    blockPfx (curLocal s) 3 11 = some p ∧ readS (cur s) 10 = some 0xE000000000000100 ∧
    readV (curLocal s) 3 (cur s).grp = some 0 ∧ (readV (curLocal s) p.b 1).isSome = true ∧ SlotRuns s 0x38 3 ∧ SlotRuns s 0x39 4 ∧
    (cur s).maskFits = true ∧ (cur s).lcnt < 63 ∧ (cur s).scnt < 63 ∧ p.f.blockBytes = 32 ∧
    (blockLoads (cur s) p.f 0xE000000000000100 0xE000000000000200).any (fun q => q.2.isNone) = true ∧
    (let t := spad 1 (fun h => { h with hstat := pfx 0x08 2 127 })
     let lo := (0xE000000000000100 : DWord).toNat
     let hi := (0xE000000000000200 : DWord).toNat
     (∃ as u, checkMode .unit lo .load ((blockLoads (cur t) p.f lo hi).map Prod.fst) t t.cur
       = .all as u ∧ refusals u t.cur .load as = []) ∧
     ∃ as u w, checkMode .unit lo .store ((blockStores (cur t) p.f lo hi 0 0).map Prod.fst) t t.cur
       = .all as u ∧ refusals u t.cur .store as = [] ∧ coveredSectors u false as = [] ∧
       storeAccs (fun r k => storeBlock r t.cur 0 false k 0 (if k.n = 32 then as.find? (fun q => q.idx == k.idx && q.n != k.n) else none)) u as = .all w) := by
  refine ⟨by decide +kernel, by decide +kernel, by decide +kernel, by decide +kernel, by unfold SlotRuns; decide +kernel,
    by unfold SlotRuns; decide +kernel, by decide +kernel, by decide +kernel, by decide +kernel, by decide +kernel, by decide +kernel,
    all_of (fun as (u : State) => refusals u 0 .load as = []) (by decide +kernel), ?_⟩
  obtain ⟨as, u, h1, h2, h3, h4⟩ := all_of (o := checkMode .unit (0xE000000000000100 : DWord).toNat .store
      ((blockStores (cur (spad 1 (fun h => { h with hstat := pfx 0x08 2 127 }))) .mxe4 (0xE000000000000100 : DWord).toNat
        (0xE000000000000200 : DWord).toNat 0 0).map Prod.fst) (spad 1 (fun h => { h with hstat := pfx 0x08 2 127 })) 0)
    (fun as u => refusals u 0 .store as = [] ∧ coveredSectors u false as = [] ∧
      storesAll (storeAccs (fun r k => storeBlock r 0 0 false k 0 (if k.n = 32 then as.find? (fun q => q.idx == k.idx && q.n != k.n) else none)) u as) = true) (by decide +kernel)
  obtain ⟨w, hw⟩ := stored_of h4
  exact ⟨as, u, w, h1, h2, h3, hw⟩
theorem upTo_of {o : Examined} (h : (match o with | .upTo _ [] _ => true | _ => false) = true) : ∃ k u, o = .upTo k [] u := by
  cases o with
  | upTo k as u => cases as with | nil => exact ⟨k, u, rfl⟩ | cons _ _ => cases h
  | _ => cases h
/-- Two 64-bit elements of v0 name two places of the scratchpad. -/
def gather : State :=
  let s := spad 4 (fun h => { h with vl := 2 })
  { s with cores := [(0, { pool := [(0, 0xE000000000000100 + 0xE000000000000108 * 2 ^ 64), (1, 7)] })] }
/-- Every element of a chain of `aadd` of 7 stays on the device, is refused by nothing and finds room: `st (j + 1)` of the
statement is the state that the recursion goes on with. -/
def atomicChain (s : State) : List Acc → Bool
  | [] => true
  | acc :: rest => !acc.pieces.any (fun r => isRemote r.1) && (accRefusal s 0 .atomic acc).isNone && !noRoom s 0 true acc.key 8 &&
    atomicChain (directWrite s 0 acc ((directView s 0 acc + elem 7 acc.idx 64) % 2 ^ 64)) rest
theorem test_hyps_Atomics : attrOf true none = some {} ∧ counterFull (cur (spad 3 id)) 1 = false ∧
    counterFull (cur (spad 3 id)) 2 = false ∧ SlotRuns (spad 3 id) 0x3A 0 ∧ sDest 12 = true ∧
    readS (cur (spad 3 id)) 10 = some 0xE000000000000100 ∧ readS (cur (spad 3 id)) 11 = some 8 ∧
    (∃ ps u, elemCheck (spad 3 id) (agentOf (spad 3 id) 0) .atomic 0xE000000000000100 8 8 .scalar = .ok ps u ∧
      ps.any (fun p => isRemote p.1) = false ∧ accRefusal u 0 .atomic ⟨0, 0xE000000000000100, 8, ps⟩ = none ∧
      noRoom u 0 true (Acc.key ⟨0, 0xE000000000000100, 8, ps⟩) 8 = false) ∧
    SlotRuns gather 0x3B 0 ∧ (cur gather).sew = 64 ∧ overlaps 3 (cur gather).grp 0 (cur gather).grp = false ∧
    overlaps 3 (cur gather).grp 1 (cur gather).grp = false ∧ readV (curLocal gather) 1 (cur gather).grp = some 7 ∧
    readV (curLocal gather) 3 (cur gather).grp = some 0 ∧
    ∃ p, readV (curLocal gather) 0 (cur gather).grp = some p ∧
      ∃ as u, checkAccs gather 0 .atomic 8 .gather [] (elemAccs (cur gather) 8 (fun k => addOfs (elem p k 64) 0)) = .all as u ∧
        refusals u 0 .atomic as = [] ∧ atomicChain u as = true :=
  ⟨by decide +kernel, by decide +kernel, by decide +kernel, by unfold SlotRuns; decide +kernel, by decide +kernel,
    by decide +kernel, by decide +kernel,
    ok_of (fun (ps : List (Nat × Nat)) (u : State) => ps.any (fun p => isRemote p.1) = false ∧
      accRefusal u 0 .atomic ⟨0, 0xE000000000000100, 8, ps⟩ = none ∧
      noRoom u 0 true (Acc.key ⟨0, 0xE000000000000100, 8, ps⟩) 8 = false) (by decide +kernel),
    by unfold SlotRuns; decide +kernel, by decide +kernel, by decide +kernel, by decide +kernel, by decide +kernel,
    by decide +kernel, 0xE000000000000100 + 0xE000000000000108 * 2 ^ 64, by decide +kernel,
    all_of (fun as (u : State) => refusals u 0 .atomic as = [] ∧ atomicChain u as = true) (by decide +kernel)⟩
theorem test_hyps_CounterWaitsAndFutures : SlotRuns (spad 4 id) 0x3C 0 ∧ SlotRuns (spad 4 id) 0x3C 1 ∧
    (63 : BitVec 14).toNat ≤ 63 ∧ (cur (spad 4 id)).lcnt ≤ 0 ∧ 0 < (cur (spad 4 (fun h => { h with lcnt := 1, scnt := 1 }))).lcnt ∧
    63 < (64 : BitVec 14).toNat ∧ SlotRuns (spad 4 id) 0x3D 0 ∧ SlotRuns (spad 4 id) 0x3D 1 ∧ SlotRuns (spad 4 id) 0x3D 2 ∧
    (∀ m ∈ [0, 0x80], let s := { spad 4 id with mem := [(scratchLoc 0 0x107, m)] }
      ∃ ps u, elemCheck s (agentOf s 0) .load 0xE000000000000100 8 8 .scalar = .ok ps u ∧ ps = [(scratchLoc 0 0x100, 8)] ∧
        accRefusal u 0 .load ⟨0, 0xE000000000000100, 8, ps⟩ = none ∧
        (BitVec.ofNat 64 (viewPieces u 0 0xE000000000000100 ps)).getLsbD 63 = decide (m = 0x80)) ∧
    (cur (spad 4 id)).sew = 64 ∧ readV (curLocal (spad 4 id)) 3 (cur (spad 4 id)).grp = some 0 ∧ (cur (spad 4 id)).wait = .none ∧
    (let s := { spad 4 id with mem := [(scratchLoc 0 0x107, 0x80)] }
     ∃ k u, examine {} 0 (fun i => addOfs (addOfs (0xE000000000000100 : DWord).toNat 0) ((elem 0 i 64 : Nat) : Int)) [] s
       (List.range (cur s).len) (cur s).len = .upTo k [] u) ∧
    (∃ ps u, elemCheck (spad 4 id) (agentOf (spad 4 id) 0) .fill 0xE000000000000100 8 8 .scalar = .ok ps u ∧
      ps = [(scratchLoc 0 0x100, 8)] ∧ isRemote (scratchLoc 0 0x100) = false ∧
      accRefusal u 0 .fill ⟨0, 0xE000000000000100, 8, ps⟩ = none ∧
      noRoom u 0 true (Acc.key ⟨0, 0xE000000000000100, 8, ps⟩) 8 = false) := by
  refine ⟨by unfold SlotRuns; decide +kernel, by unfold SlotRuns; decide +kernel, by decide +kernel, by decide +kernel,
    by decide +kernel, by decide +kernel, by unfold SlotRuns; decide +kernel, by unfold SlotRuns; decide +kernel,
    by unfold SlotRuns; decide +kernel, fun m hm => ?_, by decide +kernel, by decide +kernel, by decide +kernel, ?_,
    ok_of (fun (ps : List (Nat × Nat)) (u : State) => ps = [(scratchLoc 0 0x100, 8)] ∧ isRemote (scratchLoc 0 0x100) = false ∧
      accRefusal u 0 .fill ⟨0, 0xE000000000000100, 8, ps⟩ = none ∧
      noRoom u 0 true (Acc.key ⟨0, 0xE000000000000100, 8, ps⟩) 8 = false) (by decide +kernel)⟩
  · simp only [List.mem_cons, List.not_mem_nil, or_false] at hm
    rcases hm with rfl | rfl
    · exact ok_of (fun (ps : List (Nat × Nat)) (u : State) => ps = [(scratchLoc 0 0x100, 8)] ∧
        accRefusal u 0 .load ⟨0, 0xE000000000000100, 8, ps⟩ = none ∧
        (BitVec.ofNat 64 (viewPieces u 0 0xE000000000000100 ps)).getLsbD 63 = decide ((0 : BitVec 8) = 0x80)) (by decide +kernel)
    · exact ok_of (fun (ps : List (Nat × Nat)) (u : State) => ps = [(scratchLoc 0 0x100, 8)] ∧
        accRefusal u 0 .load ⟨0, 0xE000000000000100, 8, ps⟩ = none ∧
        (BitVec.ofNat 64 (viewPieces u 0 0xE000000000000100 ps)).getLsbD 63 = decide ((0x80 : BitVec 8) = 0x80)) (by decide +kernel)
  · exact upTo_of (by decide +kernel)
theorem test_hyps_HintsAndMemoryEvents_events : let o : Op := { hart := 0, counter := 1, scope := 0 }
    let s := { spad 3 id with ops := [(1, { o with ret := [.scalar 12 5 true] }), (2, o),
      (3, { o with refused := [⟨cREMOTENACK, 0, 0⟩] }), (4, { o with fabric := [{ addr := 0, n := 8 }] })] }
    (∃ p, SMap.find s.ops 1 = some p ∧ p.refused = [] ∧ p.fabric = [] ∧ p.rehome = [] ∧ p.ret = [.scalar (12 : BitVec 7).toNat 5 true]) ∧
    (∃ p, SMap.find s.ops 2 = some p ∧ p.refused = [] ∧ p.fabric = [] ∧ p.rehome = [] ∧ p.ret = [] ∧ p.reg = none ∧
      s.tokens.any (fun q => q.2.op == 2) = false) ∧
    (∃ p, SMap.find s.ops 3 = some p ∧ p.refused ≠ [] ∧ p.fabric = [] ∧ p.rehome = [] ∧ p.ret = [] ∧ validHart p.hart = true) ∧
    (∃ p, SMap.find s.ops 4 = some p ∧ p.fabric ≠ []) ∧
    (let t := { spad 3 (fun h => { h with st := .parked, wait := .future [(0, 64)] 0 }) with clusters := [(0, { belay := [(0, 64)] })] }
     (0, 64) ∈ (getClus t 0).belay ∧ (getHart t 0).wait = .future [(0, 64)] 0 ∧ homeLoc t 64 = 64 ∧ (getHart t 0).st = .parked) := by
  refine ⟨⟨_, rfl, ?_⟩, ⟨_, rfl, ?_⟩, ⟨_, rfl, ?_⟩, ⟨_, rfl, ?_⟩, ?_⟩ <;> decide +kernel

theorem test_ldzH : (match exec (.ldzH 12 10 127 none) (spad 3 id) with
    | .next t => some (t.ops.map (fun p => p.2.ret)) | _ => none) = some [[.scalar 12 0xFF81 true]] := by decide +kernel
theorem test_ldsB_signs : (match exec (.ldsB 12 10 127 none) (spad 3 id) with
    | .next t => some (t.ops.map (fun p => p.2.ret)) | _ => none) = some [[.scalar 12 0xFFFFFFFFFFFFFF81 true]] := by decide +kernel
theorem test_stB_writes_one_byte : (match exec (.stB 12 10 127 none) (spad 3 id) with
    | .next t => some (t.mem, (getHart t 0).scnt) | _ => none)
    = some ([(scratchLoc 0 0x100, 100), (scratchLoc 0 0x101, 0xFF)], 1) := by decide +kernel
theorem test_store_of_zero_removes_the_byte : (match exec (.stB 127 10 127 none) (spad 3 id) with
    | .next t => some t.mem | _ => none) = some [(scratchLoc 0 0x101, 0xFF)] := by decide +kernel
theorem test_aadd_returns_old : (match exec (.aaddS 12 10 11 none) (spad 3 id) with
    | .next t => some (t.ops.map (fun p => p.2.ret), t.mem) | _ => none)
    = some ([[.scalar 12 0xFF81 true]], [(scratchLoc 0 0x100, 0x89), (scratchLoc 0 0x101, 0xFF)]) := by decide +kernel
theorem test_misaligned_atomic : causeAfter (.aaddS 12 10 11 (some 0x100)) (spad 3 id) = some (cALIGN, 0x30) := by decide +kernel

/-! ## The event window, the windows of a core -/

/-- Object 63 of each kind of the hart's cluster is configured for context 0; COUNT of the barrier is 2. -/
def events (w : DWord) (f : Hart → Hart) (arrived : Nat) : State :=
  let v : DWord := 0x8000000000000000
  let c : Cluster := {
    bars := [(63, { cfg := v + 2, arrivals := arrived, waiters := [0] })]
    muts := [(63, { cfg := v })]
    evts := [(255, { cfg := v, word := w })] }
  { user f with clusters := [(clusKey 0, c)] }
theorem test_hyps_EventUnits_operations : (cur (events 0 id 0)).idem = false ∧ SlotRuns (events 0 id 0) 0x14 6 ∧
    SlotRuns (events 0 id 0) 0x15 3 ∧ (cur (events 0 id 0)).scnt < 63 ∧ (63 : Nat) < 64 ∧ (255 : Nat) < 256 ∧
    (cur (events 0 id 0)).wait = .none ∧ (evGet (events 0 id 0) (clusKey (coreOf (events 0 id 0).cur)) 0 63).usable (cur (events 0 id 0)) = true ∧
    (evGet (events 0 id 0) (clusKey 0) 1 63).usable (cur (events 0 id 0)) = true ∧
    (evGet (events 0 id 0) (clusKey 0) 2 255).usable (cur (events 0 id 0)) = true ∧
    (cur (events 0 id 0)).curConv.resumed = false ∧ (evGet (events 0 id 0) (clusKey 0) 1 63).holder = none ∧
    (evGet (events 0 id 0) (clusKey 0) 1 63).waiters = [] ∧ (evGet (events 0 id 0) (clusKey 0) 2 255).word.getLsbD 63 = false ∧
    (evGet (events 0x8000000000000005 id 0) (clusKey 0) 2 255).word.getLsbD 63 = true ∧
    (cur (events 0 (fun h => { h with wait := .event 0 63 0, grant := some 0 }) 0)).grant = some 0 ∧
    (cur (events 0 (fun h => { h with hstat := 1 }) 0)).mode ≠ 0 ∧
    evConfigOk (cur (events 0 (fun h => { h with hstat := 1 }) 0)) 0 0x8000000000000001 = true ∧
    evConfigOk (cur (events 0 (fun h => { h with hstat := 1 }) 0)) 2 0x8000000000000000 = true := by
  unfold SlotRuns; decide +kernel
theorem test_hyps_EventUnits_releases : let h (h : Hart) : Hart := { h with wait := .event 0 63 0 }
    let o := evGet (events 0 h 2) (clusKey 0) 0 63
    o.v = true ∧ o.count ≤ o.arrivals ∧ o.chained = false ∧ 0 ∈ o.waiters ∧ waitsGen (events 0 h 2) o.gen 0 = true ∧
    (let c : Cluster := {
       bars := [(63, { cfg := 0xC000000000000001, arrivals := 1 })]
       muts := [(63, { cfg := 0x8000000000000000, waiters := [0] })] }
     let s := { events 0 id 0 with clusters := [(clusKey 0, c)] }
     (evGet s (clusKey 0) 0 63).v = true ∧ (evGet s (clusKey 0) 0 63).chained = true ∧ (evGet s (clusKey 0) 0 63).sent = false ∧
     (evGet s (clusKey 0) 0 63).count ≤ (evGet s (clusKey 0) 0 63).arrivals ∧ (evGet s (clusKey 0) 1 63).holder = none ∧
     (evGet s (clusKey 0) 1 63).waiters = [0]) := by decide +kernel
theorem test_hyps_AccessChecks : windowOf 0x00FFFFFFFFFFFFFF = 0 ∧ windowOf (0x00FFFFFFFFFFFFFF + BitVec.ofNat 64 (2 - 1)) ≠ 0 ∧
    windowOf 4 = 0 ∧ windowOf (4 + BitVec.ofNat 64 (8 - 1)) = 0 ∧ (4 : DWord).toNat % 8 ≠ 0 ∧ windowOf 0xE400000000000000 ≠ 0 ∧
    windowOf 0xE400000000000000 ≠ 0xE0 ∧ windowOf 0xE400000000000000 ≠ 0xE1 ∧ windowOf 0xE400000000000000 ≠ 0xE2 ∧
    (getCore (user id) (coreOf 0)).meshes = [] ∧
    (windowOf 0xE0000000000FFFF8 = 0xE0 ∧ bits (0xE0000000000FFFF8 : DWord) 55 20 = 0 ∧ unitOf (coreOf 0) < 96 ∧
      bits (0xE0000000000FFFF8 : DWord) 19 0 + 8 ≤ 2 ^ 20 ∧ 2 ^ 20 < bits (0xE0000000000FFFFC : DWord) 19 0 + 8) ∧
    (windowOf 0xE100000000000000 = 0xE1 ∧ bits (0xE100000000000000 : DWord) 55 33 = 0 ∧
      bits (0xE100000000000000 : DWord) 26 23 < 12) ∧
    (windowOf 0xE200000000800000 = 0xE2 ∧ bits (0xE200000000800000 : DWord) 55 33 = 0 ∧ devOf (dieOf (coreOf 0)) < 8 ∧
      bits (0xE200000000800000 : DWord) 32 27 = 0 ∧ toSigned 4 (bits (0xE200000000800000 : DWord) 26 23) = (1 : Int) - tileX (unitOf (coreOf 0)) ∧
      toSigned 3 (bits (0xE200000000800000 : DWord) 22 20) = (0 : Int) - tileY (unitOf (coreOf 0))) := by decide +kernel
theorem test_event_wait_returns_word : after (.eventWait 12 255) (events 0x8000000000000005 id 0) 12
    = some 0x8000000000000005 := by decide +kernel

/-! ## Steps, checks of a slot, reset -/

/-- The state placed to fetch `add s12, s12, s11` alone. -/
def placed : State := State.reset.withFetchWord 32 0x16306080
theorem test_hyps_StepRunsDecodedInstruction :
    (placed.inputs = .convoyIssue 88 :: [] ∧ (user id).inputs = [] ∧ { user id with pending := [.nop] }.pending = .nop :: [] ∧
      (user id).pending = []) ∧
    (∃ c, (getHart (user id) 0).conv = some c ∧ decodeSlot 0x16306080 (extOf c.hdr c.words c.slot) = .ok (.add 12 12 11)) ∧
    validHart 88 = true ∧ (getDev placed (devOfHart 88)).off = false ∧ (getHart placed 88).st = .running ∧
    (getHart placed 88).conv = none ∧ (getHart placed 88).async = [] ∧ (getHart placed 88).ending = .none ∧
    (getHart placed 88).inRope = false ∧ (getHart placed 88).stall = 0 ∧ (getHart placed 88).yield = false ∧
    hdrNS 4 = 1 ∧ hdrExt1 4 = false ∧ decodeSlot 0x16306080 none = .ok (.add 12 12 11) ∧
    ∃ v t, fetchConvoy (modCore { placed with inputs := [] } (coreOf 88) (fun c => { c with lastHart := hartNo 88 })) 88
        (getHart placed 88).pc = .ok v t ∧ v = (4, [0x16306080, 0, 0]) ∧ (getHart t 88).resume = false ∧
      (getHart t 88).inRope = false ∧ headerOk (isTsc (unitOf (coreOf 88))) 4 [0x16306080, 0, 0] = true ∧
      (match exec (.add 12 12 11) { modHart t 88 (Hart.begin [] (getHart placed 88).pc 4 [0x16306080, 0, 0]) with cur := 88 } with
        | .next u => (match (getHart (settle u 88) 88).conv with | some c => decide (c.hdr = 4 ∧ c.slot = 1) | none => false)
            && decide ((getHart (settle u 88) 88).wait = .none)
        | _ => false) = true := by
  refine ⟨by decide +kernel, ⟨_, rfl, by decide +kernel⟩, ?_, ?_, ?_, ?_,
    ?_, ?_, ?_, ?_, ?_, ?_,
    ?_, ?_,
    ok_of (fun (v : Word × List Word) (t : State) => v = (4, [0x16306080, 0, 0]) ∧ (getHart t 88).resume = false ∧
      (getHart t 88).inRope = false ∧ headerOk (isTsc (unitOf (coreOf 88))) 4 [0x16306080, 0, 0] = true ∧
      (match exec (.add 12 12 11) { modHart t 88 (Hart.begin [] (getHart placed 88).pc 4 [0x16306080, 0, 0]) with cur := 88 } with
        | .next u => (match (getHart (settle u 88) 88).conv with | some c => decide (c.hdr = 4 ∧ c.slot = 1) | none => false)
            && decide ((getHart (settle u 88) 88).wait = .none)
        | _ => false) = true) (by decide +kernel)⟩
  all_goals decide +kernel
theorem test_hyps_SlotChecks : instrOf 0x67 1 0 10 0 none = some (.hrest 10) ∧ allowed (user id) (user id).cur 0x67 1 = false ∧
    instrOf 0x00 1 12 10 11 none = some (.add 12 10 11) ∧ allowed (user id) (user id).cur 0x00 1 = true ∧
    (let s := user (fun h => Hart.begin [] 0 (4 + 8 * 2 ^ 7) [0] h)
     slotRemoved (cur s) 0x00 1 = true ∧ allowed s s.cur 0x00 1 = true) ∧ slotRemoved (cur (user id)) 0x00 1 = false ∧
    (let s := user (fun h => { h with conv := h.conv.map (fun c => { c with bad := true }) })
     (cur s).curConv.bad = true ∧ slotRemoved (cur s) 0x00 1 = false) := by decide +kernel
theorem test_hyps_ResetValues : (regRow 0x001).isSome = true ∧ (0x001 : Nat) ∉ [0x000, 0x010, 0x021, 0x022, 0x071] := by
  decide +kernel
theorem test_hyps_StepKeepsMemory : MemoryOk placed ∧ ∃ t, step placed = .next t ∧ (readS (getHart t 88) 112).isSome = true :=
  ⟨by unfold MemoryOk; decide +kernel, next_of (fun t => (readS (getHart t 88) 112).isSome = true) (by decide +kernel)⟩
theorem test_first_instruction_runs : (match step (State.reset.withFetchWord 32 0x00143004) with
    | .next t => some (getHart t 88).pc | _ => none) = some 16 := by decide +kernel

/-! ## Tiles, the infuser and matrix instructions -/

/-- Hart 0 owns both tiles (mode m) and, with `inf`, the infuser; s10 names the scratchpad; SEW code w, length n. -/
def mat (w n m : Nat) (inf : Bool) : State :=
  let own : DWord := BitVec.ofNat 64 (2 ^ 31 + m * 2 ^ 30)
  let s := spad w (fun h => { h with vl := BitVec.ofNat 16 n, sregs := [(10, 0xE000000000000000), (11, 0x10000)] })
  { s with cores := [(0, { accown0 := own, accown1 := own, infV := inf, at0 := [(0, 5)] })] }
theorem test_slots_matrix : ∀ p ∈ ([(0x44, 0), (0x45, 0), (0x45, 1), (0x45, 2), (0x45, 3), (0x46, 0), (0x46, 1), (0x47, 0),
    (0x47, 1), (0x47, 2), (0x47, 3), (0x47, 4), (0x47, 5), (0x48, 0), (0x48, 1), (0x48, 2), (0x48, 3), (0x48, 4)] :
    List (Nat × Nat)), SlotRuns (mat 2 32 0 true) p.1 p.2 := by unfold SlotRuns; decide +kernel
theorem test_hyps_MatrixInstructions :
    (let s := mat 2 32 0 true
     tileOf 124 = some 0 ∧ (8 : BitVec 7).toNat % 8 = 0 ∧ slotOpen (curCore s) (cur s).ctxid.toNat = true ∧ TileReady s 0 ∧
     SlotRuns s 0x45 0 ∧ matrixFmt (cur s) 0 = some ⟨.bf16, false, noSpec, noSpec⟩ ∧ (cur s).len % (256 / (cur s).sew) = 0 ∧
     (cur s).len ≤ 32 * (256 / (cur s).sew) ∧ (readV (curLocal s) 4 (cur s).grp).isSome = true ∧ (8 : BitVec 7).toNat + 8 ≤ 96 ∧
     (readRun (curLocal s) 8 8).isSome = true ∧ readScaleGroup (curLocal s) .bf16 noSpec 4 (cur s).grp 8 = some 0 ∧
     (curCore s).cellMode 0 = 0 ∧ cbOf none = some 0 ∧ ownsInfuser s s.cur = true ∧
     (8 : BitVec 7).toNat + (curCore s).infNL / 2 ≤ 96 ∧ (readRun (curLocal s) 8 ((curCore s).infNL / 2)).isSome = true ∧
     SlotRuns s 0x45 2 ∧ (matrixFmt (cur s) 2).isSome = true ∧ 0 < (curCore s).infND / 16 ∧ SlotRuns s 0x45 3 ∧
     (matrixFmt (cur s) 3).isSome = true ∧ (16 : BitVec 7).toNat + (curCore s).infND / 2 ≤ 96 ∧ 0 < (curCore s).infNL / 16) ∧
    (let s := mat 1 32 1 false
     SlotRuns s 0x45 1 ∧ matrixFmt (cur s) 1 = some ⟨.i8, false, noSpec, noSpec⟩ ∧ (cur s).len % (256 / (cur s).sew) = 0 ∧
     (curCore s).cellMode 0 = 1) ∧
    (let s := { mat 2 32 0 false with cores := [] }
     ownsTile s s.cur 0 = false ∧ (matOperands 0 (curLocal s) 124 4 8).isSome = true) := by
  unfold SlotRuns TileReady; decide +kernel
theorem test_hyps_TileInstructions :
    (let s := mat 3 32 0 true
     tileOf 124 = some 0 ∧ TileReady s 0 ∧ (1 : BitVec 7).toNat < 2 ∧ tileOf 125 = some 1 ∧ TileReady s 1 ∧
     (curCore s).cellMode 0 = (curCore s).cellMode 1 ∧ readS (cur s) 10 = some 0xE000000000000000 ∧ startElem (cur s) = 0 ∧
     SlotRuns s 0x47 2 ∧ (cur s).lcnt < 63 ∧ (cur s).scnt < 63 ∧ readS (cur s) 20 = some 0 ∧ 32 * 0 + (cur s).len ≤ 1024 ∧
     SlotRuns s 0x48 0 ∧ (cur s).sew = 32 ∧ (curCore s).cellMode 0 = 0 ∧ (cur s).maskFits = true ∧
     readV (curLocal s) 3 (cur s).grp = some 0) ∧
    (∃ as u, checkAccs (mat 3 32 0 true) 0 .load 64 .scalar [] (pieces64 (cur (mat 3 32 0 true)) (0xE000000000000000 : DWord).toNat 80)
      = .all as u ∧ refusals u 0 .load as = []) ∧
    (∃ as u, checkAccs (mat 3 32 0 true) 0 .store 64 .scalar [] (pieces64 (cur (mat 3 32 0 true)) (0xE000000000000000 : DWord).toNat 80)
      = .all as u ∧ refusals u 0 .store as = []) ∧
    (curCore (mat 3 32 1 true)).cellMode 0 = 1 ∧ (cur (mat 2 32 0 true)).sew = 16 :=
  ⟨by unfold SlotRuns TileReady; decide +kernel,
    all_of (fun as (u : State) => refusals u 0 .load as = []) (by decide +kernel),
    all_of (fun as (u : State) => refusals u 0 .store as = []) (by decide +kernel), by decide +kernel, by decide +kernel⟩
theorem test_hyps_InfuserAndSlotTable :
    (let s := mat 2 32 0 false
     readS (cur s) 10 = some 0xE000000000000000 ∧ readS (cur s) 20 = some 0 ∧ bits (0 : DWord) 30 11 = 0 ∧
     bits (0 : DWord) 7 3 = 0 ∧ bits (0 : DWord) 10 8 < 4 ∧ bits (0 : DWord) 2 0 < 4 ∧ (0 : DWord).getLsbD 31 = false ∧
     (0x80000000 : DWord).getLsbD 31 = true ∧ bits (0x303 : DWord) 10 8 = 3 ∧ bits (0x303 : DWord) 2 0 = 3 ∧
     SlotRuns s 0x46 0 ∧ SlotRuns s 0x46 1 ∧ infuserFree s s.cur = true ∧
     (curCore s).inflight = [] ∧ (cur s).lcnt < 63 ∧ (cur s).scnt < 63 ∧ startElem (cur s) = 0) ∧
    (∃ as u, checkAccs (mat 2 32 0 false) 0 .load 64 .scalar [] (pieces64 (cur (mat 2 32 0 false))
      (0xE000000000000000 : DWord).toNat (8 * 2 ^ (0 + 0))) = .all as u ∧ refusals u 0 .load as = []) ∧
    (∃ as u, checkAccs (mat 2 32 0 true) 0 .store 64 .scalar [] (pieces64 (cur (mat 2 32 0 true)) (0xE000000000000000 : DWord).toNat
      ((curCore (mat 2 32 0 true)).infNL * (curCore (mat 2 32 0 true)).infND / 32)
        ++ [⟨8, 0xE000000000000000 + 32768, 64, []⟩]) = .all as u ∧ refusals u 0 .store as = []) ∧
    infuserFree { mat 2 32 0 false with cores := [(0, { infV := true, infHart := 1 })] } 0 = false ∧
    (cur (firmware id)).mode ≠ 0 ∧
    (let c : Core := { mst := [(2, 0x80000005), (9, 0x80000003)], mstSlot := some (2, 5, 5) }
     c.mstSlot = some (2, 5, 5) ∧ 9 < 16 ∧ (SMap.get 0 c.mst 9).getLsbD 31 = true) :=
  ⟨by unfold SlotRuns; decide +kernel,
    all_of (fun as (u : State) => refusals u 0 .load as = []) (by decide +kernel),
    all_of (fun as (u : State) => refusals u 0 .store as = []) (by decide +kernel), by decide +kernel, by decide +kernel,
    by decide +kernel⟩
theorem test_atmov_copies : (match exec (.atmov 125 124) (mat 2 32 0 true) with
    | .next t => some ((getCore t 0).at1) | _ => none) = some [(0, 5)] := by decide +kernel
theorem test_mma_without_claim : (causeAfter (.mma 124 4 8) { mat 2 32 0 true with cores := [] }) = some (cACCCLAIM, 0) := by
  decide +kernel

/-! ## Transforms -/

theorem test_slots_transform : ∀ p ∈ ([(0x4C, 0), (0x4C, 1), (0x4C, 2), (0x4C, 3), (0x4D, 0), (0x4D, 1), (0x4D, 2), (0x4D, 3),
    (0x4E, 0), (0x4E, 1), (0x4F, 0), (0x4F, 1), (0x50, 0), (0x50, 1), (0x51, 0), (0x51, 1), (0x51, 2), (0x51, 3)] :
    List (Nat × Nat)), SlotRuns (spad 3 id) p.1 p.2 := by unfold SlotRuns; decide +kernel
theorem test_hyps_TransformResults : let s := spad 3 (fun h => { h with sregs := [(10, 3), (11, 8)] })
    (cur s).len ≤ 1024 * (cur s).grp / (cur s).sew ∧ 8 ≤ (cur s).sew ∧ V1Ready s 3 0 v0 0 ∧ VvReady s 3 0 1 v0 v1 0 ∧
    readS (cur s) 11 = some 8 ∧ (8 : DWord).toNat ≤ (cur s).sew ∧ SlotRuns s 0x4D 2 ∧ SlotRuns s 0x50 0 ∧ readS (cur s) 10 = some 3 ∧
    sDest 10 = true ∧ (∀ i, i < (cur s).len → elem v1 (i / 2 ^ bits (cur s).xcfg 13 11) (cur s).sew ≤ (cur s).sew) ∧
    selectOk (cur s) = true ∧ listRegs (bits (cur s).xcfg 22 16 + 1) = 1 ∧ SlotRuns s 0x51 0 ∧
    overlaps 3 1 0 (cur s).grp = false ∧ bits (8 : DWord) 62 16 = 0 ∧ bits (8 : DWord) 15 0 + (cur s).len ≤ 65536 ∧
    SlotRuns s 0x51 3 ∧ overlapOk true 3 1 0 1 = true ∧ overlapOk true 3 1 1 1 = true := by
  unfold SlotRuns V1Ready VvReady; decide +kernel
theorem fin_of {o : Decoded} (h : (match o with | .fin .. => true | _ => false) = true) : ∃ v st q u, o = .fin v st q u := by
  cases o with
  | fin v st q u => exact ⟨v, st, q, u, rfl⟩
  | _ => cases h
theorem test_hyps_DecodeAndQuantise :
    (let s := spad 3 (fun h => { h with dtab := [(0, 0x42000007)], sregs := [(10, 0xE000000000000100), (11, 0), (12, 1), (13, 512)] })
     SlotRuns s 0x4E 0 ∧ readS (cur s) 10 = some 0xE000000000000100 ∧ readS (cur s) 13 = some 512 ∧ (512 : DWord).toNat ≤ 512 ∧
     readS (cur s) 11 = some 0 ∧ (cur s).lcnt < 63 ∧ startElem (cur s) = 0 ∧ SlotRuns s 0x4E 1 ∧ 8 ≤ (cur s).sew ∧
     (cur s).sew ≤ 32 ∧ (cur s).curConv.resumed = false ∧ sDest 11 = true ∧ readV (curLocal s) 3 (cur s).grp = some 0) ∧
    (∃ as u, checkAccs (spad 3 id) 0 .load 64 .scalar [] (pieces64 (cur (spad 3 id)) (0xE000000000000100 : DWord).toNat ((4 * 512 + 63) / 64))
      = .all as u ∧ refusals u 0 .load as = []) ∧
    (∃ v st q u, decodeStream 0 (0xE000000000000100 : DWord).toNat (bits (cur (spad 3 id)).xcfg 3 0 + 1) (cur (spad 3 id)).len
      ((0 : DWord).toNat % 2 ^ 48) [] (spad 3 (fun h => { h with dtab := [(0, 0x42000007)] })) = .fin v st q u) ∧
    (bits (0x1000 : Word) 31 16 = 0 ∧ bits (0x1000 : Word) 11 3 = 0 ∧ bits (0x1000 : Word) 2 0 ≠ 7 ∧
      (bits (0x1000 : Word) 15 12, 8) ∈ [(0, 4), (1, 8), (2, 16)] ∧ (bits (0x1000 : Word) 15 12, f32) ∈ [(1, f32), (2, f16), (3, bf16)]) ∧
    (∃ ps u, elemCheck (spad 3 id) (agentOf (spad 3 id) 0) .load 0xE000000000000100 8 8 .scalar = .ok ps u ∧
      ps = [(scratchLoc 0 0x100, 8)] ∧ accRefusal u 0 .load ⟨0, 0xE000000000000100, 8, ps⟩ = none ∧
      (match elemCheck u (agentOf u 0) .atomic 0xE000000000000100 8 8 .scalar with
        | .ok qs v => decide (qs = ps ∧ accRefusal v 0 .load ⟨0, 0xE000000000000100, 8, ps⟩ = none ∧
            viewPieces v 0 0xE000000000000100 ps % 2 ^ 32 = viewPieces u 0 0xE000000000000100 ps % 2 ^ 32)
        | _ => false) = true) ∧
    (cur (spad 3 id)).sew = 32 ∧ DestReady (spad 3 id) 3 0 8 ∧ SlotRuns (spad 3 id) 0x4F 0 ∧
    readV (curLocal (spad 3 id)) 0 (cur (spad 3 id)).grp = some v0 ∧
    (((List.range (cur (spad 3 id)).len).filter (cur (spad 3 id)).selBit).map (fun i => elem v0 i 32 % 2 ^ 31)).filter
      (fun m => decide (m ≤ 0x7F800000)) ≠ [] ∧
    (((List.range (cur (spad 3 (fun h => { h with vl := 0 }))).len).filter (cur (spad 3 id)).selBit).map (fun i => elem v0 i 32 % 2 ^ 31)).filter
      (fun m => decide (m ≤ 0x7F800000)) = [] ∧
    (cur (spad 1 id)).sew ≤ 16 ∧ DestReady (spad 1 id) 8 0 f32.width ∧ SlotRuns (spad 1 id) 0x4F 1 :=
  ⟨by unfold SlotRuns; decide +kernel, all_of (fun as (u : State) => refusals u 0 .load as = []) (by decide +kernel),
    fin_of (by decide +kernel), by decide +kernel,
    ok_of (fun (ps : List (Nat × Nat)) (u : State) => ps = [(scratchLoc 0 0x100, 8)] ∧
      accRefusal u 0 .load ⟨0, 0xE000000000000100, 8, ps⟩ = none ∧
      (match elemCheck u (agentOf u 0) .atomic 0xE000000000000100 8 8 .scalar with
        | .ok qs v => decide (qs = ps ∧ accRefusal v 0 .load ⟨0, 0xE000000000000100, 8, ps⟩ = none ∧
            viewPieces v 0 0xE000000000000100 ps % 2 ^ 32 = viewPieces u 0 0xE000000000000100 ps % 2 ^ 32)
        | _ => false) = true) (by decide +kernel),
    by decide +kernel, ⟨by decide +kernel, by decide +kernel, _, _, _, rfl, rfl, by decide +kernel⟩,
    by unfold SlotRuns; decide +kernel, by decide +kernel, by decide +kernel, by decide +kernel, by decide +kernel,
    ⟨by decide +kernel, by decide +kernel, _, _, _, rfl, rfl, by decide +kernel⟩, by unfold SlotRuns; decide +kernel⟩
theorem test_xdelta_first_differs_from_seed : elemAt (.xdelta 3 0 11) (spad 3 id) 3 0 32 = some 0xFFFFFFF9 := by decide +kernel
theorem test_xzz_of_minus_one : elemAt (.xzz 3 0) { vecs 3 id with cores := [(0, { pool := [(0, 0xFFFFFFFF)] })] } 3 0 32
    = some 1 := by decide +kernel
/-- The check value of CRC-32C: 0xE3069283 for the nine digits "123456789". -/
theorem test_xcrcf_check_value : after (.xcrcf 12 0) { vecs 1 (fun h => { h with vl := 9 }) with
    cores := [(0, { pool := [(0, 0x393837363534333231)] })] } 12 = some 0xE3069283 := by decide +kernel

/-! ## Tasks -/

theorem got_of {α : Type} {o : Got α} (p : α → State → Prop) [∀ a t, Decidable (p a t)]
    (h : (match o with | .ok a t => decide (p a t) | _ => false) = true) : ∃ a t, o = .ok a t ∧ p a t := by
  cases o with
  | ok a t => exact ⟨a, t, rfl, of_decide_eq_true h⟩
  | _ => cases h

/-- A task with a child of handle 0 that has ended and one of handle 1 that runs. -/
def parentTask : Task :=
  { uid := 7, words := List.replicate 16 0, launch := 3, ginst := 9, children := [⟨0, 20, [], some 5⟩, ⟨1, 21, [], none⟩] }
/-- A task without children, in ticket domain 4 where idempotent. -/
def plainTask (idem : Bool) : Task :=
  { uid := 7, words := if idem then [0, 0x40003, 5, 0, 0, 0, 0, 0, 0, 0, 0, 0, 0, 0, 0, 0] else List.replicate 16 0, launch := 3,
    ginst := 9 }
/-- The hart runs a task; queues 0 (of 2 entries) and 1 (of none) and ticket domain 4 are open for its context; at 0x200 of the
scratchpad stands a record with FORKW naming queue 0 and one region, and at 0x300 that region. s13 names the record, s14 the
region. -/
def tasked (k : Task) (f : Hart → Hart) : State :=
  { spad 3 (fun h => f { h with
      task := some k
      sregs := [(10, 0xE000000000000100), (11, 1), (12, 4), (13, 0xE000000000000200), (14, 0xE000000000000300)] }) with
    queues := [(0, { ctl := 0x8000000000020000, clus := 0, lead := 0 }), (1, { ctl := 0x8000000000000000, clus := 0, lead := 0 }),
      (2, { ctl := 0x8800000000000000, clus := 0, lead := 0 })]
    domains := [(4, { v := true, next := 6, low := 5 })]
    mem := [(scratchLoc 0 0x278, 1), (scratchLoc 0 0x308, 8)] }
/-- The same in an idempotent task that holds ticket 5. -/
def idem (f : Hart → Hart) : State := tasked (plainTask true) (fun h => f { h with hstat := 0x200 })
theorem test_slots_task : (∀ p ∈ ([(0x54, 0), (0x54, 1), (0x54, 2), (0x54, 3), (0x55, 0), (0x55, 1), (0x55, 2), (0x56, 0),
    (0x57, 3), (0x58, 0), (0x58, 1), (0x58, 2), (0x59, 0), (0x59, 1), (0x59, 2), (0x59, 3), (0x59, 4), (0x59, 5), (0x59, 6),
    (0x5A, 0), (0x5A, 1)] : List (Nat × Nat)), SlotRuns (tasked parentTask id) p.1 p.2) ∧
    ∀ p ∈ ([(0x57, 0), (0x57, 1), (0x57, 2)] : List (Nat × Nat)), SlotRuns (idem id) p.1 p.2 := by
  unfold SlotRuns; decide +kernel
theorem test_hyps_TaskInstructions :
    (let s := tasked (plainTask false) id
     (cur s).task = some (plainTask false) ∧ readS (cur s) 13 = some 0xE000000000000200 ∧ readS (cur s) 20 = some 0 ∧
     bits (0 : DWord) 63 12 = 0 ∧ sDest 12 = true ∧ (cur s).scnt = 0 ∧ SlotRuns s 0x54 0 ∧ (cur s).idem = false ∧
     (∃ q, queueFor s 0 0 0 = some q ∧ q.count < q.cap ∧ q.stalled = []) ∧
     (∃ q, queueFor s 0 0 1 = some q ∧ q.cap ≤ q.count ∧ q.returnsStatus = false) ∧
     (∃ q, queueFor s 0 0 2 = some q ∧ q.cap ≤ q.count ∧ q.returnsStatus = true) ∧ queueFor s 0 0 5 = none ∧
     validHart s.cur = true ∧ drained s s.cur = true ∧ (plainTask false).sect = none ∧ (cur s).inRope = false ∧
     (plainTask false).children = [] ∧ SlotRuns s 0x54 1 ∧ SlotRuns s 0x54 2 ∧ SlotRuns s 0x54 3 ∧ SlotRuns s 0x57 3 ∧
     readS (cur s) 12 = some 4 ∧ bits (4 : DWord) 63 16 = 0 ∧ 3 < (4 : DWord).toNat ∧ readS (cur s) 11 = some 1 ∧
     SMap.find s.domains (devOfHart s.cur * 65536 + (4 : DWord).toNat) = some { v := true, next := 6, low := 5 } ∧
     SMap.find s.domains (devOfHart s.cur * 65536 + (1 : DWord).toNat) = none ∧ SlotRuns s 0x56 0 ∧ bits (4 : DWord) 63 32 = 0 ∧
     bits (0xE000000000000200 : DWord) 63 32 ≠ 0) ∧
    (∃ v u, fetchElem (tasked (plainTask false) id) 0 0xE000000000000400 128 8 .scalar = .ok v u ∧ recordOk (toWords v 16) = true ∧
      (queueFor u 0 0 0).isSome = true) ∧
    (∃ v u, fetchElem (tasked (plainTask false) id) 0 0xE000000000000200 128 8 .scalar = .ok v u ∧ recordOk (toWords v 16) = false) ∧
    (cur (idem id)).idem = true ∧ (∃ v u, fetchElem (idem id) 0 0xE000000000000400 128 8 .scalar = .ok v u ∧
      recordOk (toWords v 16) = true ∧ (queueFor u 0 0 0).isSome = true) := by
  refine ⟨⟨?_, ?_, ?_, ?_, ?_, ?_,
    by unfold SlotRuns; decide +kernel, by decide +kernel, ⟨_, rfl, by decide +kernel⟩, ⟨_, rfl, by decide +kernel⟩,
    ⟨_, rfl, by decide +kernel⟩, by unfold SlotRuns; decide +kernel⟩,
    got_of (fun (v : Nat) (u : State) => recordOk (toWords v 16) = true ∧ (queueFor u 0 0 0).isSome = true) (by decide +kernel),
    got_of (fun (v : Nat) (_ : State) => recordOk (toWords v 16) = false) (by decide +kernel), by decide +kernel,
    got_of (fun (v : Nat) (u : State) => recordOk (toWords v 16) = true ∧ (queueFor u 0 0 0).isSome = true) (by decide +kernel)⟩
  all_goals decide +kernel
theorem test_hyps_ForksAndSections :
    (3, 64) ∈ ([(0, 8), (1, 16), (2, 32), (3, 64)] : List (Nat × Nat)) ∧
    (let s := tasked (plainTask false) id
     (cur s).task = some (plainTask false) ∧ SlotRuns s 0x55 0 ∧ readS (cur s) 13 = some 0xE000000000000200 ∧
     readS (cur s) 14 = some 0xE000000000000300 ∧ sDest 12 = true ∧ (cur s).scnt = 0 ∧
     (plainTask false).children.find? (fun d => d.handle == 0) = none ∧ freeHandle (plainTask false).children = some 0) ∧
    (∃ v u, fetchElem (tasked (plainTask false) id) 0 0xE000000000000200 128 8 .scalar = .ok v u ∧ recNreg (toWords v 16) = 1 ∧
      recordForkOk (toWords v 16) = true ∧ recTkv (toWords v 16) = false ∧
      (match fetchElem u 0 (0xE000000000000300 + BitVec.ofNat 64 (16 * 0)) 16 1 .scalar with
        | .ok w t => (match [w].mapM regionOf with
          | some rs => disjoint rs && regionsFit rs [] && (match queueFor t 0 0 (recQueue (toWords v 16)) with
            | some q => decide (q.count < q.cap ∧ q.stalled = []) | none => false)
          | none => false)
        | _ => false) = true) ∧
    (let s := tasked parentTask id
     SlotRuns s 0x55 1 ∧ readS (cur s) 20 = some 0 ∧ readS (cur s) 11 = some 1 ∧
     parentTask.children.find? (fun d => d.handle == (0 : DWord).toNat) = some ⟨0, 20, [], some 5⟩ ∧
     parentTask.children.find? (fun d => d.handle == (1 : DWord).toNat) = some ⟨1, 21, [], none⟩ ∧ bits (0x6000000000000005 : DWord) 62 61 ≠ 0 ∧
     SlotRuns s 0x55 2 ∧ ∃ d ∈ parentTask.children, d.result = none) ∧
    (let s := { tasked { parentTask with children := [⟨0, 20, [], some 5⟩] } id with revs := [(20, ⟨0, 7, 0, [], [], []⟩)] }
     (match mergeChild s s.cur 20 with | .ok _ => true | _ => false) = true ∧ bits (5 : DWord) 62 61 = 0 ∧
     (match joinOne s s.cur ⟨0, 20, [], some 5⟩ 5 with | .ok _ => true | _ => false) = true ∧
     ∀ d ∈ ([⟨0, 20, [], some 5⟩] : List Child), d.result ≠ none) ∧
    (let s := { tasked parentTask id with revs := [(20, ⟨0, 7, 0, [⟨0, 1, 0, 1⟩], [(0, 0)], [(0, 5)]⟩)] }
     (match mergeChild s s.cur 20 with | .fault i va => i == pageInfo 0 .store && va == 0 | _ => false) = true) ∧
    (let s := tasked { plainTask true with sect := some 1 } (fun h => { h with hstat := 0x600 })
     SlotRuns s 0x57 2 ∧ (cur s).task = some { plainTask true with sect := some 1 } ∧
     sending (publishSection s s.cur) 7 = false ∧
     sending (publishSection { s with ops := [(1, { hart := 0, counter := 0, scope := 2, task := 7 })] } s.cur) 7 = true) ∧
    (let s := idem id
     SlotRuns s 0x57 0 ∧ readS (cur s) 10 = some 0xE000000000000100 ∧ readV (curLocal s) 0 (cur s).grp = some v0 ∧
     readV (curLocal s) 3 (cur s).grp = some 0 ∧ bits (4 : Word) 31 3 = 0 ∧ bits (4 : Word) 2 0 ≤ 4 ∧ (cur s).sew = 32 ∧
     overlaps 0 (cur s).grp 3 (cur s).grp = false ∧ (cur s).maskFits = true ∧ (cur s).scnt < 63 ∧ SlotRuns s 0x57 1 ∧
     readS (cur s) 11 = some 1 ∧ (cur s).grant = none ∧ (plainTask true).sect = none ∧
     (plainTask true).closed.contains (bits (1 : DWord) 31 0) = false ∧ sectionFree s (plainTask true) 1 = true ∧
     sectionFree { s with domains := [(4, { v := true, next := 6, low := 3 })] } (plainTask true) 1 = false ∧ SlotRuns s 0x57 2 ∧
     partialPoison s 7 ((publishedStores s 0 0 1 (plainTask true) [] []).flatMap (fun o => resolveBytes s 0 0 o.2.2)) = false) ∧
    (∃ as u, checkAccs (idem id) 0 .store 4 .gather [] (elemAccs (cur (idem id)) 4
      (fun i => addOfs (0xE000000000000100 : DWord).toNat (elem 0 i 32 : Nat))) = .all as u ∧ refusals u 0 .store as = []) :=
  ⟨by decide +kernel, by unfold SlotRuns; decide +kernel,
    got_of (fun (v : Nat) (u : State) => recNreg (toWords v 16) = 1 ∧
      recordForkOk (toWords v 16) = true ∧ recTkv (toWords v 16) = false ∧
      (match fetchElem u 0 (0xE000000000000300 + BitVec.ofNat 64 (16 * 0)) 16 1 .scalar with
        | .ok w t => (match [w].mapM regionOf with
          | some rs => disjoint rs && regionsFit rs [] && (match queueFor t 0 0 (recQueue (toWords v 16)) with
            | some q => decide (q.count < q.cap ∧ q.stalled = []) | none => false)
          | none => false)
        | _ => false) = true) (by decide +kernel),
    by unfold SlotRuns; decide +kernel, by decide +kernel, by decide +kernel, by unfold SlotRuns; decide +kernel,
    by unfold SlotRuns; decide +kernel, all_of (fun as (u : State) => refusals u 0 .store as = []) (by decide +kernel)⟩
theorem test_tstat_children : after (.tstat 12 20) (tasked parentTask id) 12 = some 2 := by decide +kernel
theorem test_tkget : after (.tkget 12 12) (tasked (plainTask false) id) 12 = some 6 := by decide +kernel

/-! ## Ropes and channels -/

/-- Harts 0 of two tiles that wait in a slot of word w, s10 = 1. -/
def waiters (w : Word) (f : Nat → Hart → Hart) : State :=
  let h (hk : Nat) : Nat × Hart := 
    (hk, f hk { Hart.begin [] 0 4 [w] { st := .running, sregs := [(10, 1)] } with wait := .notReady true })
  { State.reset with harts := [h 0, h 96] }
/-- The two harts of a rope as members do a convoy, each with a task. -/
def inTask (h : Hart) : Hart := { h with task := some (plainTask false) }
theorem test_hyps_RopesAndWaits :
    (let s := tasked (plainTask false) id
     SlotRuns s 0x58 0 ∧ readS (cur s) 11 = some 1 ∧ readS (cur s) 12 = some 4 ∧ 3 < (4 : DWord).toNat ∧ sDest 12 = true ∧
     (cur s).grant = none ∧ (cur s).inRope = false ∧ (∀ m ∈ ropeMembers s.cur (1 : DWord).toNat, isFwCol s (coreOf m) = false) ∧
     (∃ m ∈ ropeMembers s.cur (1 : DWord).toNat, m ≠ s.cur ∧ hasArrived s (1 : DWord).toNat (cur s).ctxid.toNat m = false) ∧
     SlotRuns s 0x58 1 ∧ SlotRuns s 0x58 2 ∧ (cur s).scnt = 0 ∧ SlotRuns s 0x5A 0 ∧ SlotRuns s 0x5A 1 ∧ (cur s).wait = .none ∧
     readS (cur s) 20 = some 0 ∧ (cur s).curConv.resumed = false ∧ (4 : DWord).toNat < 2 ^ 48 ∧
     2 ^ 48 ≤ (0xE000000000000100 : DWord).toNat ∧ ¬ (4 : DWord).toNat ≤ (tbOf s s.cur).toNat) ∧
    (cur (tasked (plainTask false) (fun h => { h with grant := some 0 }))).grant = some 0 ∧
    (let s := roped 0 inTask
     (cur s).inRope = true ∧ ropeLeader s s.cur = s.cur ∧ SlotRuns s 0x58 1 ∧ SlotRuns s 0x58 2 ∧ (cur s).scnt = 0 ∧
     (cur s).grant = none) ∧
    (let s := waiters (pack 0x58 0 12 10 0) (fun _ h => h)
     (getHart s 0).ropeAsked = some 1 ∧ (getHart s 0).inRope = false ∧
     ∀ m ∈ ropeMembers 0 1, hasArrived s 1 (getHart s 0).ctxid.toNat m = true) ∧
    (let s := waiters (pack 0x58 2 12 10 0) (fun hk h => { h with rstat := if hk = 0 then 3 else 11 })
     ropeOf s 0 = [0, 96] ∧ ∀ m ∈ ropeOf s 0, atRbar s m = true) ∧
    (let s := user (fun h => { h with st := .parked, wait := .time 5 false })
     (getHart s 0).wait = .time 5 false ∧ (tbOf s 0).toNat < 5 ∧ 0 ≤ (tbOf s 0).toNat ∧ (getHart s 0).st = .parked) ∧
    (let s := user (fun h => { h with task := some parentTask, wait := .notReady true })
     ∃ h, s.harts = [(0, h)] ∧ h.task = some parentTask ∧ (⟨0, 20, [], some 5⟩ : Child) ∈ parentTask.children ∧ h.wait = .notReady true) ∧
    (let h (h : Hart) : Hart := { Hart.begin [] 0 4 [pack 0x57 1 0 10 0] h with
       task := some (plainTask true), wait := .notReady true, sregs := [(10, 1)] }
     let s := { user h with domains := [(4, { v := true, next := 6, low := 5 })] }
     (getHart s 0).task = some (plainTask true) ∧ (getHart s 0).waitsIn 0x57 1 = true ∧ (getHart s 0).grant = none ∧
     readS (getHart s 0) (fieldB (getHart s 0).slotWord) = some 1 ∧ sectionFree s (plainTask true) (bits (1 : DWord) 31 0) = true) ∧
    (let k := { plainTask true with sect := some 1 }
     let s := user (fun h => { h with task := some k, secCount := 0x100001 })
     (getHart s 0).task = some k ∧ k.sect ≠ none ∧ (getHart s 0).ordtmo ≠ 0 ∧ (getHart s 0).ordtmo.toNat < (getHart s 0).secCount) := by
  refine ⟨by unfold SlotRuns; decide +kernel, by decide +kernel, by unfold SlotRuns; decide +kernel, by decide +kernel,
    by decide +kernel, by decide +kernel, ⟨_, rfl, by decide +kernel⟩, by decide +kernel, by decide +kernel⟩
/-- s10 = 1 and s11 = 2 messages, s12 a destination: queue 1 of hart 1 of tile 0, which runs too; receive queue 1 holds two
one-word messages. -/
def chan (f : Nat → Hart → Hart) : State :=
  let h : Hart := { st := .running, chunks := [0, 1, 2], vl := 4, vcfg := 3, sregs := [(10, 1), (11, 2), (12, 5)],
                    rq := [(1, [[1, 0, 0, 0], [2, 0, 0, 0]])] }
  { State.reset with harts := [(0, f 0 (Hart.begin [] 0 4 [0] h)), (1, f 1 h)] }
def chan0 : State := chan (fun _ h => h)
theorem test_hyps_Channels :
    (SlotRuns chan0 0x59 0 ∧ SlotRuns chan0 0x59 1 ∧ SlotRuns chan0 0x59 2 ∧ SlotRuns chan0 0x59 3 ∧ SlotRuns chan0 0x59 4 ∧
      SlotRuns chan0 0x59 5 ∧ SlotRuns chan0 0x59 6) ∧
    (readS (cur chan0) 10 = some 1 ∧ readS (cur chan0) 11 = some 2 ∧ readS (cur chan0) 12 = some 5 ∧
      readV (curLocal chan0) 0 (cur chan0).grp = some 0) ∧
    (destination 5 = some (1, 1) ∧ destination (1 <<< 20) = none ∧ (cur chan0).grant = none ∧
      ∀ p ∈ chan0.flights, p.2.src ≠ chan0.cur) ∧
    (((cur chan0).len * (cur chan0).sew + 7) / 8 ≤ 128 ∧ (1 : DWord).toNat < 4 ∧ 4 ≤ (5 : DWord).toNat ∧
      tscOperand 3 chan0 chan0.cur = true) ∧
    (sDest 13 = true ∧ (writeV (curLocal chan0) 3 1 0).isSome = true) ∧
    (SMap.get [] (cur chan0).rq (1 : DWord).toNat = [1, 0, 0, 0] :: [[2, 0, 0, 0]] ∧ SMap.get [] (cur chan0).rq 2 = []) ∧
    ((cur chan0).sew ≠ 4 ∧ bits (2 : DWord) 63 16 = 0 ∧ (cur chan0).len * (cur chan0).sew ≤ 1024 ∧ (cur chan0).maskFits = true) ∧
    (SMap.get [] (cur chan0).spill (bits (1 : DWord) 1 0) = [] ∧ (cur chan0).curConv.elem = 0 ∧
      (2 : DWord).toNat ≤ (SMap.get [] (cur chan0).rq (bits (1 : DWord) 1 0)).length ∧
      ((cur chan0).sew, f32) ∈ [(16, f16), (32, f32), (64, f64)]) ∧
    ((cur (chan (fun _ h => { h with grant := some 0 }))).grant = some 0 ∧
      (cur (chan (fun _ h => { h with grant := some 2 }))).grant = some 2) ∧
    (let s := { chan0 with flights := [(7, ⟨0, 1, 1, [9]⟩)] }
     SMap.find s.flights 7 = some ⟨0, 1, 1, [9]⟩ ∧ channelBlocked s 0 1 = false ∧ (getHart s 1).st ≠ .idle ∧
     (getHart s 1).ctxid = (getHart s 0).ctxid ∧ receiverFull s 1 1 = false ∧ (getHart s 1).spills 1 = false) ∧
    (getHart (chan (fun hk h => if hk = 1 then { h with st := .idle } else h)) 1).st = .idle ∧
    receiverFull (chan (fun _ h => { h with rq := [(1, List.replicate 8 [])] })) 1 1 = true ∧ channelBlocked chan0 0 88 = true ∧
    (let s := { chan (fun _ h => { h with wait := .send 1 1 }) with flights := [(7, ⟨0, 1, 1, [9]⟩)] }
     (getHart s 0).wait = .send 1 1 ∧ s.flights.find? (fun p => p.2.src == 0) = some (7, ⟨0, 1, 1, [9]⟩)) := by
  refine ⟨by unfold SlotRuns; decide +kernel, ?_, ?_, ?_, ?_,
    ?_, ?_, ?_, ?_, ?_, ?_,
    ?_, ?_, ?_⟩
  all_goals decide +kernel
theorem test_mrecv_takes_oldest : after (.mrecv 13 10) (chan (fun _ h => h)) 13 = some 1 := by decide +kernel
theorem test_mpoll : after (.mpoll 13 10) (chan (fun _ h => h)) 13 = some 2 := by decide +kernel
theorem test_message_enters : (match exec (.messageArrival 7) { chan (fun _ h => h) with flights := [(7, ⟨0, 1, 1, [9]⟩)] } with
    | .next t => some ((SMap.get [] (getHart t 1).rq 1).length, (getHart t 0).grant) | _ => none) = some (3, some 0) := by
  decide +kernel

/-! ## Rays, textures, the mesh buffer -/

theorem reads_one (hk n al i : Nat) (need : Nat → Bool) (va : Nat → DWord) (s u : State) (v : Nat) (hn : need i = true)
    (h : fetchElem s hk (va i) n al .gather = .ok v u) :
    ReadsFor hk n al [i] need va (fun k => if k = 0 then s else u) (fun _ => v) := by
  intro k j hk'
  cases k with
  | zero => simp only [List.getElem?_cons_zero, Option.some.injEq] at hk'; subst hk'; simpa [hn] using h
  | succ k => simp at hk'
theorem two_writes (x : Local) (a c : BitVec 7) (g k : Nat) (ha : a.toNat < 96) (hc : c.toNat < 96)
    (h1 : (readV x a g).isSome = true) (h2 : (readV x c k).isSome = true) (V W : Nat) :
    ∃ z, ((writeV x a g V).bind (fun y => writeV y c k W)) = some z := by
  obtain ⟨d, hd⟩ := some_of h1
  obtain ⟨y, hy, -⟩ := writeV_of_readV x a g V d hd (.inl (by omega))
  have hyh : y.h = x.h := by
    simp only [readV, ha, if_true] at hd
    simp only [writeV, ha, if_true] at hy
    by_cases hg : a.toNat % g = 0
    · simp only [hg, if_true] at hd hy
      obtain ⟨z, hz, hzh⟩ := writeRun_of_readRun x a.toNat g V (by rw [hd]; rfl)
      rw [hz] at hy; cases hy; exact hzh
    · simp [hg] at hd
  have h3 : (readV y c k).isSome = true := by
    simp only [readV, hc, if_true] at h2 ⊢
    by_cases hg : c.toNat % k = 0
    · simp only [hg, if_true] at h2 ⊢; rw [readRun_isSome x y hyh]; exact h2
    · simp [hg] at h2
  obtain ⟨e, he⟩ := some_of h3
  obtain ⟨z, hz, -⟩ := writeV_of_readV y c k W e he (.inl (by omega))
  exact ⟨z, by rw [hy]; exact hz⟩
theorem scratchHome_of (s : State) (h : s.forward = []) : ScratchHome s := by
  intro l _; simp [homeLoc, h, SMap.find]

/-- One active element; register r of the pool holds value v in its lowest bits; a node of zeros stands in the scratchpad at
0x400; the hart runs a task. -/
def ray (r : Nat) (v : VReg) : State :=
  let s := tasked (plainTask false) (fun h => { h with vl := 1 })
  { s with cores := [(0, { pool := [(r, v)] })] }
def nodeRef : DWord := 0xE000000000000400
theorem test_slots_graphics : ∀ p ∈ ([(0x5C, 0), (0x5C, 1), (0x5D, 0), (0x5D, 1), (0x5D, 2), (0x5D, 3), (0x5E, 0), (0x5E, 1),
    (0x5F, 0), (0x5F, 1), (0x5F, 2), (0x5F, 3), (0x61, 0)] : List (Nat × Nat)), SlotRuns (ray 40 0xE000000000000400) p.1 p.2 := by
  unfold SlotRuns; decide +kernel
theorem test_hyps_RayInstructions :
    (let s := ray 34 0xE000000000000400
     let t := ray 34 0xE000000000000441
     (cur s).graphics = true ∧ (cur s).len ≤ 32 ∧ activeElems (cur s) = [0] ∧ (readBlock (curLocal s) 24 8).isSome = true ∧
     readBlock (curLocal s) 34 2 = some 0xE000000000000400 ∧ readV (curLocal s) 40 1 = some 0 ∧ overlaps 40 1 24 8 = false ∧
     overlaps 40 1 34 2 = false ∧ overlaps 24 8 34 2 = false ∧ isInternal (elem 0xE000000000000400 0 64) = true ∧
     ((rayBits 0 0).mapM Machine.extOf).isSome = true ∧ readBlock (curLocal t) 34 2 = some 0xE000000000000441 ∧
     elem 0xE000000000000441 0 64 % 2 = 1 ∧ (readBlock (curLocal t) 44 4).isSome = true) ∧
    (∃ v u, fetchElem (ray 34 0xE000000000000400) 0 nodeRef 128 128 .gather = .ok v u ∧ u.forward = [] ∧
      (readV (getLocal u 0) 40 1).isSome = true ∧ (readV (getLocal u 0) 34 2).isSome = true ∧
      (readV (getLocal u 0) 44 4).isSome = true ∧
      ReadsFor 0 128 128 [0] (fun i => isInternal (elem 0xE000000000000400 i 64) && ((rayBits 0 i).mapM Machine.extOf).isSome)
        (fun i => BitVec.ofNat 64 (elem 0xE000000000000400 i 64)) (fun k => if k = 0 then ray 34 0xE000000000000400 else u)
        (fun _ => v) ∧ ScratchHome u ∧
      (∀ V W, ∃ x, ((writeV (getLocal u 0) 34 2 V).bind (fun y => writeV y 40 1 W)) = some x) ∧
      ∀ V W, ∃ x, ((writeV (getLocal u 0) 44 4 V).bind (fun y => writeV y 34 2 W)) = some x) ∧
    (∃ v u, fetchElem (ray 34 0xE000000000000441) 0 (BitVec.ofNat 64 (elem 0xE000000000000441 0 64 / 32 * 32)) 64 64 .gather = .ok v u ∧
      (readV (getLocal u 0) 34 2).isSome = true) ∧
    (let s := ray 40 0xE000000000000400
     readS (cur s) 14 = some 0xE000000000000300 ∧ sDest 12 = true ∧ (cur s).task = some (plainTask false) ∧ (cur s).depth < 8 ∧
     (cur s).scnt = 0 ∧ (cur s).curConv.resumed = false ∧ (cur s).curConv.elem = 0 ∧
     (List.range (cur s).len).filter (cur s).selBit ≠ []) ∧
    (∃ v u, fetchElem (ray 40 0) 0 nodeRef 128 8 .scalar = .ok v u ∧ recordSpawnOk (toWords v 16) = true ∧
      (match queueFor u 0 0 (recQueue (toWords v 16)) with
        | some x => decide (x.stalled = [] ∧ x.count + 1 ≤ x.cap ∧ x.entries.length + 1 ≤ x.cap) | none => false) = true) := by
  refine ⟨by decide +kernel, ?_, ?_, by decide +kernel, got_of (fun (v : Nat) (u : State) => recordSpawnOk (toWords v 16) = true ∧
      (match queueFor u 0 0 (recQueue (toWords v 16)) with
        | some x => decide (x.stalled = [] ∧ x.count + 1 ≤ x.cap ∧ x.entries.length + 1 ≤ x.cap) | none => false) = true)
      (by decide +kernel)⟩
  · obtain ⟨v, u, h, hf, h1, h2, h3⟩ := got_of (o := fetchElem (ray 34 0xE000000000000400) 0 nodeRef 128 128 .gather)
      (fun (_ : Nat) (u : State) => u.forward = [] ∧
      (readV (getLocal u 0) 40 1).isSome = true ∧ (readV (getLocal u 0) 34 2).isSome = true ∧
      (readV (getLocal u 0) 44 4).isSome = true) (by decide +kernel)
    have e : nodeRef = BitVec.ofNat 64 (elem 0xE000000000000400 0 64) := by decide +kernel
    exact ⟨v, u, h, hf, h1, h2, h3, reads_one _ _ _ _ _ _ _ _ _ (by decide +kernel) (e ▸ h), scratchHome_of u hf,
      two_writes _ 34 40 2 1 (by decide) (by decide) h2 h1, two_writes _ 44 34 4 2 (by decide) (by decide) h3 h2⟩
  · exact got_of (fun (_ : Nat) (u : State) => (readV (getLocal u 0) 34 2).isSome = true) (by decide +kernel)
/-- A texture of one texel of format 2 at 0x500, its descriptor at 0x400, and the mesh and draw of a task. -/
def textured (f : Task → Task) (g : Hart → Hart) : State :=
  let s := tasked (f { plainTask false with mesh := some 0 }) (fun h => g { h with vl := 1 })
  { s with
    mem := [(scratchLoc 0 0x401, 5), (scratchLoc 0 0x407, 0xE0), (scratchLoc 0 0x40C, 2), (scratchLoc 0 0x500, 0xFF)]
    draws := [(0, { ctx := 0, ginst := 9, desc := [] })]
    launches := [(3, { dev := 0, ctx := 0, ginst := 9, vchunks := 0, spad := 0, harts := 1, mesh := true, draw := some (0, 0) })] }
theorem test_hyps_TexturesAndMeshes :
    (let s := textured id id
     (cur s).len ≤ 32 ∧ (cur s).graphics = true ∧ readBlock (curLocal s) 40 4 = some 0 ∧ readBlock (curLocal s) 44 4 = some 0 ∧
     overlaps 44 4 40 4 = false ∧ SlotRuns s 0x5F 0 ∧ SlotRuns s 0x5F 1 ∧ SlotRuns s 0x5F 2 ∧ SlotRuns s 0x5F 3 ∧
     activeElems (cur s) = [0] ∧ SlotRuns s 0x60 0 ∧ SlotRuns s 0x60 1 ∧ SlotRuns s 0x60 2 ∧ SlotRuns s 0x61 0) ∧
    (∃ d u, fetchElem (textured id id) 0 nodeRef 32 32 .scalar = .ok d u ∧ txOk d = true ∧
      (readV (getLocal u 0) 44 4).isSome = true ∧ (match sample .point d 0 0 0 u with | .ok _ _ => true | _ => false) = true ∧
      (match sample .bilinear d 0 0 0 u with | .ok _ _ => true | _ => false) = true ∧
      (match sample .stochastic d 0 0 0 u with | .ok _ _ => true | _ => false) = true) ∧
    (∃ d u, fetchElem (textured id id) 0 0xE000000000000500 32 32 .scalar = .ok d u ∧ txOk d = false) ∧
    (txFootprint (0x10 * 2 ^ 96) = some (4, 4) ∧ (0x1FC + 6 * 2 ^ 9 + (2 ^ 52 - 1) * 2 ^ 12) % 2 ^ 9 = 0x1FC ∧
      (0x1FC + 6 * 2 ^ 9 + (2 ^ 52 - 1) * 2 ^ 12) / 2 ^ 9 % 8 = 6 ∧
      (0x1FC + 6 * 2 ^ 9 + (2 ^ 52 - 1) * 2 ^ 12) / 2 ^ 12 % 2 ^ 52 = 2 ^ 52 - 1) ∧
    (let s := textured id id
     readS (cur s) 20 = some 0 ∧ readS (cur s) 11 = some 1 ∧ bits (1 : DWord) 63 10 = 0 ∧ bits (1 : DWord) 4 0 + (bits (1 : DWord) 9 5 + 1) ≤ 32 ∧
     (40 : BitVec 7).toNat + (bits (1 : DWord) 9 5 + 1) ≤ 96 ∧ (readRun (curLocal s) 40 (bits (1 : DWord) 9 5 + 1)).isSome = true ∧
     (0 : DWord).toNat + 32 ≤ 2 ^ 64 ∧ readV (curLocal s) 44 1 = some 0 ∧ sDest 12 = true ∧ (cur s).curConv.elem = 0 ∧
     (cur s).curConv.bitpos = 0 ∧ readS (cur s) 13 = some 0xE000000000000200 ∧ (0xE000000000000200 : DWord).toNat % 64 = 0 ∧
     (0xE000000000000204 : DWord).toNat % 64 ≠ 0 ∧ 4096 < (0xE000000000000200 : DWord).toNat ∧
     (∃ k, (cur s).task = some k ∧ drawOf s k = some (0, 0)) ∧ drawAt s (0, 0) = some { ctx := 0, ginst := 9, desc := [] } ∧
     classifierOpen s (dieOf (coreOf s.cur)) = true) ∧
    (∃ v u, fetchElem (textured id id) 0 0xE000000000000200 64 64 .scalar = .ok v u ∧ recordDraw u 0 0 v = some (0, 0) ∧
      classifierOpen u 0 = true) ∧
    (getDie { textured id id with dies := [(0, { cls := [⟨0, 0, 0, [], false, 0⟩] })] } 0).cls = [⟨0, 0, 0, [], false, 0⟩] := by
  refine ⟨by unfold SlotRuns; decide +kernel,
    got_of (fun (d : Nat) (u : State) => txOk d = true ∧
      (readV (getLocal u 0) 44 4).isSome = true ∧ (match sample .point d 0 0 0 u with | .ok _ _ => true | _ => false) = true ∧
      (match sample .bilinear d 0 0 0 u with | .ok _ _ => true | _ => false) = true ∧
      (match sample .stochastic d 0 0 0 u with | .ok _ _ => true | _ => false) = true) (by decide +kernel),
    got_of (fun (d : Nat) (_ : State) => txOk d = false) (by decide +kernel), by decide +kernel,
    ⟨?_, ?_, ?_, ?_, ?_, ?_,
      ?_, ?_, ?_, ?_, ?_, ?_,
      ?_, ?_, ?_, ⟨_, rfl, by decide +kernel⟩, by decide +kernel,
      by unfold classifierOpen; decide +kernel⟩,
    got_of (fun (v : Nat) (u : State) => recordDraw u 0 0 v = some (0, 0) ∧ classifierOpen u 0 = true) (by decide +kernel),
    by decide +kernel⟩
  all_goals decide +kernel
theorem test_rdepth : after (.rdepth 12) (tasked (plainTask false) (fun h => { h with depth := 3 })) 12 = some 3 := by
  decide +kernel
theorem test_texq_size : after (.texq 12 14 20) (textured id (fun h => { h with sregs := [(14, nodeRef)] })) 12
    = some 0x0000000100000001 := by decide +kernel
theorem test_tex_pt_red : elemAt (.texPt 44 40 14) (textured id (fun h => { h with sregs := [(14, nodeRef)] })) 44 0 32
    = some 0x3F800000 := by decide +kernel

/-! ## System instructions -/

/-- The firmware hart with its scratchpad's byte 0 in s10, 5 in s11, 0x80 in s13; an image with VALLOC 96 stands there, and one
of zeros at byte 0x40000. -/
def fw (f : Hart → Hart) : State :=
  let s := firmware (fun h => f { h with
    sregs := [(10, 0xE000000000000000), (11, 5), (12, 0x3800003), (13, 0x80), (14, 0xE000000000040000)] })
  { s with mem := [(scratchLoc 11 0, 96)] }
theorem test_slots_system : ∀ p ∈ ([(0x64, 0), (0x64, 1), (0x64, 2), (0x65, 0), (0x65, 1), (0x65, 2), (0x65, 3), (0x65, 4),
    (0x66, 0), (0x66, 1), (0x66, 2), (0x67, 0), (0x67, 1), (0x67, 2)] : List (Nat × Nat)), SlotRuns (fw id) p.1 p.2 := by
  unfold SlotRuns; decide +kernel
theorem test_hyps_SystemRegisters :
    (let s := fw id
     SlotRuns s 0x64 0 ∧ SlotRuns s 0x64 1 ∧ SlotRuns s 0x64 2 ∧ regAccess (cur s).mode 0x013 = some .rw ∧
     regAccess (cur s).mode 0x032 = some .w1c ∧ regAccess (cur s).mode 0x022 = some .ro ∧ regAccess (cur s).mode 0xFFF = none ∧
     regAccess 0 0x005 = some .dash ∧ readS (cur s) 11 = some 5 ∧ sDest 12 = true ∧
     regReserved s s.cur 0x013 (mergeReg 0x013 (sysReg s s.cur 0x013) 5) = false ∧ regWaits s s.cur 0x013 = false ∧
     regReserved s s.cur 0x040 (mergeReg 0x040 (sysReg s s.cur 0x040) 0x80000000) = true ∧ (cur s).mode = 3 ∧
     (cur (user id)).mode = 0 ∧ bits (0x013 : Word) 31 12 = 0 ∧ bits (0x13013 : Word) 31 12 ≠ 0 ∧ (cur s).recorded = none ∧
     (cur s).inRope = false ∧ regWaits { s with cores := [(11, { inflight := [⟨88, [0], false⟩] })] } 88 0x030 = true) ∧
    (let s := roped 0 inTask
     (cur s).inRope = true ∧ isMember s s.cur = false ∧ sameShape s s.cur = true ∧ readS (cur s) 10 = some 3 ∧
     SlotRuns s 0x64 2) ∧ isMember (roped 96 inTask) 96 = true ∧
    (let s := roped 96 (fun h => { h with conv := h.conv.map (fun c => { c with ctl := [(0, .granted 2 4)] }) })
     (cur s).recorded = some (.granted 2 4) ∧ SlotRuns s 0x64 2) := by
  refine ⟨by unfold SlotRuns; decide +kernel, by unfold SlotRuns; decide +kernel, by decide +kernel,
    by unfold SlotRuns; decide +kernel⟩
theorem test_hyps_TrapsAndReturns :
    (let h := cur (user (fun h => { h with htvec := 0x4000 }))
     requeues h cSYSTEMCALL 5 = false ∧ h.mode = 0 ∧ h.htvec ≠ 0) ∧
    (let h := cur (fw id)
     requeues h cSYSTEMCALL 5 = false ∧ h.mode ≠ 0 ∧ h.ie = false ∧ h.pmode ≤ h.mode ∧ h.pmode ≠ 2 ∧ SlotRuns (fw id) 0x65 1 ∧
     SlotRuns (fw id) 0x65 3 ∧ SlotRuns (fw id) 0x65 4 ∧ h.grant = none ∧ h.async = [] ∧ h.lcnt = 0 ∧ h.scnt = 0 ∧
     validHart (fw id).cur = true) ∧
    (let h := cur (fw (fun h => { h with hstat := 0x83, async := [⟨cPREEMPT, 0, 0⟩], lcnt := 1 }))
     h.pmode = 2 ∧ h.async ≠ [] ∧ h.lcnt ≠ 0) ∧ SlotRuns (user id) 0x65 0 ∧ SlotRuns (user id) 0x65 2 := by
  refine ⟨by decide +kernel, by unfold SlotRuns; decide +kernel, by decide +kernel, by unfold SlotRuns; decide +kernel,
    by unfold SlotRuns; decide +kernel⟩
theorem test_scall_records_immediate : causeAfter (.scall 0x123) (user (fun h => { h with htvec := 0x4000 }))
    = some (cSYSTEMCALL, 0x123) := by decide +kernel
theorem test_scall_goes_to_handler : (match exec (.scall 0) (user (fun h => { h with htvec := 0x4000 })) with
    | .next t => some ((getHart t 0).pc, (getHart t 0).mode) | _ => none) = some (0x4000, 1) := by decide +kernel
theorem test_privileged_in_user_mode : causeAfter (.hrest 10) (user (fun h => { h with htvec := 0x4000 }))
    = some (cILLEGALINSTRUCTION, 0) := by decide +kernel
theorem test_set_length_clamps : after (.setLengthRequest 12 10) (fw id) 12 = some 32 := by decide +kernel
/-- The same without an allocation of vector registers: its image has 0x1F00 bytes. -/
def bare : State := fw (fun h => { h with chunks := [] })
theorem test_hyps_TranslationsAndImages :
    (let s := fw id
     SlotRuns s 0x66 0 ∧ SlotRuns s 0x66 1 ∧ SlotRuns s 0x66 2 ∧ readS (cur s) 10 = some 0xE000000000000000 ∧
     readS (cur s) 12 = some 0x3800003 ∧ sDest 13 = true ∧ (cur s).mode = 3 ∧ bits (1 : DWord) 31 2 = 0 ∧ bits (5 : DWord) 31 2 ≠ 0 ∧
     (cur s).scnt < 63 ∧ SlotRuns s 0x67 0 ∧ drained s s.cur = true ∧ packReady s s.cur = false) ∧
    (let s := { user (fun h => { h with hstat := 1, sregs := [(10, 0x10000)] }) with
       ctxs := [(0, { words := [0, 0, 0, 0, 0, 0, 0, 0] })] }
     (cur s).mode ≠ 3 ∧ (getClus s (clusKey 0)).fails = [] ∧ tlbFind (getClus s (clusKey 0)).ctlb 0 0x10000 = none ∧
     (getClus s (clusKey 0)).misses = [] ∧ (SMap.get [] (getHart s (tscOf (clusKey 0) * 8)).rq 0).length < 8 ∧ SlotRuns s 0x66 0) ∧
    (let s := { user (fun h => { h with hstat := 1 }) with
       clusters := [(clusKey 0, { ctlb := [⟨0, 1, 16, 0x3800003⟩], fails := [(0, 0, 3, 2)] })] }
     tlbFind (getClus s (clusKey 0)).ctlb 0 0x10000 = some ⟨0, 1, 16, 0x3800003⟩ ∧ (getClus s (clusKey 0)).fails = [(s.cur, 0, 0x30000 / 65536, 2)] ∧
     bits (3 : DWord) 31 2 = 0 ∧ bits (3 : DWord) 47 32 = 0 ∧ (cur s).scnt < 63) ∧
    (∃ as u w, checkAccs bare 88 .store 64 .scalar [] (pieces64 (cur bare) (0xE000000000040000 : DWord).toNat
        (imageSize (cur bare) / 64)) = .all as u ∧ refusals u 88 .store as = [] ∧
      storeAccs (fun t e => storePast (curLocal bare) t 88 e) u as = .all w) ∧
    (∃ as u, checkAccs bare 88 .load 64 .scalar [] ((List.range (imageSize (cur bare) / 64)).map (fun i =>
        { idx := i, va := 0xE000000000040000 + BitVec.ofNat 64 (64 * i), n := 64 })) = .all as u ∧ refusals u 88 .load as = [] ∧
      imageBad (cur bare) (loadedWords u 88 as) = false) ∧
    (∃ as u, checkAccs bare 88 .load 64 .scalar [] ((List.range (imageSize (cur bare) / 64)).map (fun i =>
        { idx := i, va := 0xE000000000000000 + BitVec.ofNat 64 (64 * i), n := 64 })) = .all as u ∧ refusals u 88 .load as = [] ∧
      imageBad (cur bare) (loadedWords u 88 as) = true) ∧
    (let s := { fw (fun h => { h with leaving := true }) with cores := [(11, { preempt := some ⟨100, [88], [0]⟩ })] }
     SlotRuns s 0x67 2 ∧ packReady s s.cur = true ∧ (cur s).lcnt = 0 ∧ (cur s).scnt = 0) := by
  refine ⟨by unfold SlotRuns; decide +kernel, by unfold SlotRuns; decide +kernel, by decide +kernel, ?_,
    all_of (fun as u => refusals u 88 .load as = [] ∧ imageBad (cur bare) (loadedWords u 88 as) = false) (by decide +kernel),
    all_of (fun as u => refusals u 88 .load as = [] ∧ imageBad (cur bare) (loadedWords u 88 as) = true) (by decide +kernel),
    by unfold SlotRuns; decide +kernel⟩
  obtain ⟨as, u, h1, h2, h3⟩ := all_of (o := checkAccs bare 88 .store 64 .scalar [] (pieces64 (cur bare)
      (0xE000000000040000 : DWord).toNat (imageSize (cur bare) / 64)))
    (fun as u => refusals u 88 .store as = [] ∧
      storesAll (storeAccs (fun t e => storePast (curLocal bare) t 88 e) u as) = true) (by decide +kernel)
  obtain ⟨w, hw⟩ := stored_of h3
  exact ⟨as, u, w, h1, h2, hw⟩
theorem test_tlbr_after_tlbw : (match exec (.tlbw 13 11 12) (fw id) with
    | .next t => after (.tlbr 20 11) { t with harts := t.harts.map (fun p => (p.1, Hart.begin [] 0 4 [0] p.2)) } 20
    | _ => none) = some 0x3800003 := by decide +kernel

/-! ## Engines, hart and task steps -/

/-- Context 5 of device 0 maps its first 1 GiB, with every right, at byte 0, and by 64 KiB pages the second one at 0x40010000:
memory lists its tables, from 0, 0x10000, 0x30000 and 0x31000 on, and what stands between them. -/
def paged (cells : List Host.Cell) : State :=
  { State.reset with
    ctxs := [(5, { words := [5, 0, 0, 0, 0, 0, 0, 0] })]
    mem := cells }
/-- What a state of `paged` cells keeps: the two tables of the first 1 GiB, no caddy in it, and nothing moved or poisoned. -/
def Paged (s : State) : Prop :=
  SMap.find s.ctxs 5 = some { words := [5, 0, 0, 0, 0, 0, 0, 0] } ∧ readN s 0 8 = 0x10001 ∧ readN s 0x10000 8 = 0x13C00003 ∧
  s.forward = [] ∧ s.poison = [] ∧ routed s 0 0 = true ∧
  ∀ d < 8, (SMap.get {} (getDev s 0).cfg d).caddyB = 2 ^ 30 ∨ (SMap.get {} (getDev s 0).cfg d).caddyMB = 0
theorem paged_walk {s : State} (h : Paged s) {va : Nat} (hv : va < 2 ^ 30) : walk s 0 5 va = .leaf 0x13C00003 30 := by
  obtain ⟨hc, h0, h1, -⟩ := h
  have e1 : va >>> 43 = 0 := by rw [Nat.shiftRight_eq_div_pow]; omega
  have e2 : va >>> 30 = 0 := by rw [Nat.shiftRight_eq_div_pow]; omega
  have b1 : bit (BitVec.ofNat 64 65537) 0 = true ∧ bit (BitVec.ofNat 64 65537) 1 = false ∧
    pointerOk (BitVec.ofNat 64 65537) 65536 = true ∧ bits (BitVec.ofNat 64 65537) 47 8 * 256 = 0x10000 := by decide +kernel
  have b2 : bit (BitVec.ofNat 64 331350019) 0 = true ∧ bit (BitVec.ofNat 64 331350019) 1 = true ∧
    bits (BitVec.ofNat 64 331350019) 28 27 = 2 ∧ leafBad (BitVec.ofNat 64 331350019) = false ∧
    entrySize (BitVec.ofNat 64 331350019) = 30 := by decide +kernel
  simp [walk, walkLevels, walkShape, hc, e1, e2, h0, h1, b1, b2]
theorem paged_loc {s : State} (h : Paged s) {va : Nat} (hv : va < 2 ^ 30) (k : Kind) : ctxLoc s 0 5 k va = some va := by
  have hw := paged_walk h hv
  obtain ⟨-, -, -, -, -, -, hd⟩ := h
  have hp : physOf 0x13C00003 30 va = va := by
    have : bits (0x13C00003 : DWord) 63 32 = 0 := by decide +kernel
    unfold physOf; rw [this]; omega
  have hcl : classOf va = 0 := by simp [classOf]; omega
  have hf : fabLoc s 0 va = va := by simp [fabLoc, hcl]
  have hk : permits 0x13C00003 k 0 = true := by cases k <;> decide +kernel
  have hi : inCaddy s va = false := by
    have hh : homeDev va = 0 := by simp [homeDev]; omega
    simp only [inCaddy, hcl, hh, Bool.and_eq_false_iff, List.any_eq_false, decide_eq_true_eq, List.mem_range]
    right
    intro d hd8 hx
    rcases hd d hd8 with e | e <;> rw [e] at hx <;> omega
  unfold ctxLoc
  rw [if_neg (by omega), hw]
  show (if permits 0x13C00003 k 0 && !inCaddy s (fabLoc s 0 (physOf 0x13C00003 30 va)) then
    some (fabLoc s 0 (physOf 0x13C00003 30 va)) else none) = _
  rw [hp, hf, hk, hi]; rfl
theorem paged_locs {s : State} (h : Paged s) (k : Kind) : ∀ n va, va + n ≤ 2 ^ 30 →
    ctxLocs s 0 5 k va n = some ((List.range n).map (va + ·)) := by
  intro n
  induction n with
  | zero => intro va _; rfl
  | succ n ih =>
    intro va hv
    simp only [ctxLocs, paged_loc h (show va < 2 ^ 30 by omega) k, ih (va + 1) (by omega), List.range_succ_eq_map,
      List.map_cons, List.map_map, Option.bind_eq_bind, Option.bind_some, Nat.add_zero]
    congr 2
    exact List.map_congr_left (fun a _ => by simp; omega)
theorem readLocs_range (s : State) : ∀ n va, readLocs s ((List.range n).map (va + ·)) = readN s va n := by
  intro n
  induction n with
  | zero => intro va; rfl
  | succ n ih =>
    intro va
    rw [List.range_succ_eq_map, List.map_cons, List.map_map, readLocs, readN, Nat.add_zero, ← ih (va + 1)]
    congr 3
    exact List.map_congr_left (fun a _ => by simp; omega)
theorem paged_quiet {s : State} (h : Paged s) (n va : Nat) (hv : va + n ≤ 2 ^ 30) :
    ((List.range n).map (va + ·)).any (isPoisoned s) = false ∧ cutOff s 0 ((List.range n).map (va + ·)) = false := by
  obtain ⟨-, -, -, hf, hp, hr, -⟩ := h
  constructor
  · have (l : Nat) : isPoisoned s l = false := by unfold isPoisoned; rw [hp]; rfl
    simp [this]
  · simp only [cutOff, List.any_eq_false, List.mem_map, List.mem_range]
    rintro l ⟨a, ha, rfl⟩
    have e : holderDev 0 (va + a) = 0 := by
      have c : classOf (va + a) = 0 := by simp [classOf]; omega
      have b : isScratch (va + a) = false := by unfold isScratch scratchBase; exact decide_eq_false (by omega)
      unfold holderDev homeDev
      rw [if_neg (by simp [b]), if_pos (.inl c)]
      omega
    have c : classOf (va + a) = 0 := by simp [classOf]; omega
    simp [c, e, hr]
theorem paged_read {s : State} (h : Paged s) (va n : Nat) (hv : va + n ≤ 2 ^ 30) : ctxRead s 0 5 va n = some (readN s va n) := by
  unfold ctxRead
  rw [paged_locs h .load n va hv, Option.bind_eq_bind, Option.bind_some, (paged_quiet h n va hv).1, (paged_quiet h n va hv).2,
    readLocs_range]
  rfl
theorem paged_words {s : State} (h : Paged s) : ∀ n va, va + 8 * n ≤ 2 ^ 30 →
    ctxWords s 0 5 va n = some ((List.range n).map (fun k => BitVec.ofNat 64 (readN s (va + 8 * k) 8))) := by
  intro n
  induction n with
  | zero => intro va _; rfl
  | succ n ih =>
    intro va hv
    rw [ctxWords, paged_read h va 8 (by omega), ih (va + 8) (by omega), List.range_succ_eq_map, List.map_cons, List.map_map]
    have : (fun k => BitVec.ofNat 64 (readN s (va + 8 + 8 * k) 8)) =
        (fun k => BitVec.ofNat 64 (readN s (va + 8 * k) 8)) ∘ Nat.succ := by
      funext k
      show BitVec.ofNat 64 (readN s (va + 8 + 8 * k) 8) = BitVec.ofNat 64 (readN s (va + 8 * (k + 1)) 8)
      rw [show va + 8 * (k + 1) = va + 8 + 8 * k by omega]
    rw [this]
    rfl
theorem paged_owner {s : State} (h : Paged s) (va n : Nat) (hv : va + 8 * n ≤ 2 ^ 30) : ownerWords s 0 5 va n =
    some ((List.range n).map (fun k => BitVec.ofNat 64 (readN s va (8 * n) >>> (64 * k)))) := by
  unfold ownerWords ownerRead ownerLocs
  rw [if_neg (by decide), paged_locs h .load (8 * n) va hv, Option.bind_eq_bind, Option.bind_some,
    (paged_quiet h (8 * n) va hv).1, (paged_quiet h (8 * n) va hv).2, readLocs_range]
  rfl
/-- A transfer of one byte from 0x20080 to 0x20090, with a checksum and its mailbox at 0x20098; the byte is 1. -/
def xfer : State :=
  { paged [(0x0, 1), (0x2, 1), (0x10000, 3), (0x10002, 0xC0), (0x10003, 0x13), (0x10008, 1), (0x1000A, 3),
      (0x20040, 0x80), (0x20042, 2), (0x20048, 0x90), (0x2004A, 2), (0x20058, 1), (0x2005A, 1), (0x2005D, 0xE),
      (0x20060, 0x98), (0x20062, 2), (0x20080, 1), (0x20081, 2), (0x30000, 1), (0x30001, 0x10), (0x30002, 3),
      (0x31008, 3), (0x3100A, 0xC0), (0x3100B, 3), (0x3100C, 0x20)] with
    clusters := [(clusKey 0, { ctlb := [⟨5, 0, 30, 0x13C00003⟩, ⟨5, 0x4000, 16, 0⟩, ⟨5, 0x4001, 16, 0x2003C00003⟩] })]
    cores := [(0, { kicks := [{ ctx := 5, desc := 0x20040 }] })] }
/-- Its descriptor. -/
def xferWords (w : DWord) : List DWord := [0x20080, 0x20090, 0, w, 0x20098, 0, 0, 0]
/-- A reprojection job of one pixel: its visibility at 0x20080, its motion at 0x200A0 and its colour at 0x200C0; its template, all zero,
at 0x20400, for queue 0. -/
def repDesc : List DWord := [0x20080, 0x20088, 0x200A0, 0x200B0, 0x200C0, 0x10001, 0x20400, 0]
def repJob (ran : Option (Nat × Nat)) (us : List RepUnit) : RepJob := { ctx := 5, launch := 0, addr := 0x20040, ran := ran, units := us }
def repJobs (ran : Option (Nat × Nat)) (us : List RepUnit) : State :=
  { paged [(0x0, 1), (0x2, 1), (0x10000, 3), (0x10002, 0xC0), (0x10003, 0x13), (0x10008, 1), (0x1000A, 3),
      (0x20040, 0x80), (0x20042, 2), (0x20048, 0x88), (0x2004A, 2), (0x20050, 0xA0), (0x20052, 2), (0x20058, 0xB0), (0x2005A, 2),
      (0x20060, 0xC0), (0x20062, 2), (0x20068, 1), (0x2006A, 1), (0x20071, 4), (0x20072, 2), (0x20080, 1)] with
    queues := [(0, { ctl := 0x8000000500020100, clus := 1, lead := 0 })]
    jobs := [(0, [repJob ran us])] }
theorem test_hyps_EnginesAndFills :
    validHart 0 = true ∧ validHart 767 = true ∧ validHart (2 ^ 30) = false ∧
    (let s := { State.reset with clusters := [(clusKey 0, { misses := [⟨0, 0, 1, [3], 0, 0x10000, false⟩] })] }
     ([⟨0, 0, 1, [3], 0, 0x10000, false⟩] : List Miss).find? (fun m => m.ctx == 0 && m.page == 1) = some ⟨0, 0, 1, [3], 0, 0x10000, false⟩ ∧
     (getClus s (clusKey (coreOf 0))).misses = [⟨0, 0, 1, [3], 0, 0x10000, false⟩] ∧ bits (0 : DWord) 15 0 = 0 ∧
     bits (0 : DWord) 63 56 = 0 ∧ bits ((1 : DWord) <<< 56) 63 56 = 1 ∧ bits ((2 : DWord) <<< 56) 63 56 = 2 ∧
     leafBad (getClus s (clusKey 0)).fille = false ∧ (freeTag (getClus s (clusKey 0)).misses).isSome = true ∧
     leafBad 4 = true ∧ SMap.get [] (getHart s (tscOf (clusKey 0) * 8)).rq 0 = []) ∧
    (let r := modCore xfer 0 (fun c => { c with refusedKicks := [] })
     let j : Kick := { ctx := 5, desc := 0x20040 }
     (getCore xfer 0).engFenced = false ∧ (getCore xfer 0).kicks = [j] ∧ (getCore xfer 1).kicks = [] ∧ (getCore xfer 0).refusedKicks = [] ∧
     j.report = none ∧ j.fault = none ∧ j.words = [] ∧
     (match engineLocs r 0 0 5 .load 0x20040 64 with
       | .ok ls w => toWords (engineRead w 0 0 5 4 0x20040 ls).1 8 == xferWords 0xE0000010001 | _ => false) = true ∧
     (match engineLocs { r with clusters := [] } 0 0 5 .load 0x20040 64 with | .miss _ => true | _ => false) = true ∧
     xferOk 0x20040 (xferWords 0xE0000010001) = true ∧ xferOk 0x20040 (xferWords 0) = false) ∧
    (let r := modCore xfer 0 (fun c => { c with refusedKicks := [] })
     let k (d : List DWord) : Kick := { ctx := 5, desc := 0x20040, words := d }
     let d := xferWords 0xE0000010001
     (match moveElems 0 1 r (k d) with
       | .ok w m => !engineBusy w 0 && (match engineLocs w 0 0 5 .fill (xferMbox m.words) 8 with
         | .ok ls v => ls.all storable && ls.length == 8 && decide (ls.map (homeLoc v)).Nodup | _ => false)
       | _ => false) = true ∧
     (match moveElems 0 1 { r with clusters := [] } (k d) with | .miss _ _ => true | _ => false) = true ∧
     (match moveElems 0 1 r (k (d.set 0 0xE000000000000000)) with
       | .fault w _ a => a == 0xE000000000000000 && !engineBusy w 0 &&
         (match engineLocs w 0 0 5 .store (0x20040 + 40) 8 with | .ok _ _ => true | _ => false)
       | _ => false) = true ∧
     (match engineLocs { r with clusters := [] } 0 0 5 .fill 0x20098 8 with | .miss _ => true | _ => false) = true ∧
     (match engineLocs r 0 0 5 .fill 0x40000000 8 with | .fault _ => true | _ => false) = true) ∧
    (let s := modCore xfer 0 (fun c => { c with refusedKicks := [] })
     (match engineLocs s 0 0 5 .load 0x4000FFE0 64, engineLocs s 0 0 5 .load (0x4000FFE0 + 32) 8, engineLocs s 0 0 5 .load (0x4000FFE0 + 28) 4 with
       | .fault _, .ok _ _, .fault _ => true | _, _, _ => false) = true ∧
     (match engineLocs s 0 0 5 .load (0x40000000 + 32) 8 with | .fault _ => true | _ => false) = true) ∧
    (xferSw (xferWords 0x1400000000) = 1 ∧ xferDw (xferWords 0x1400000000) = 2 ∧ xferExt (xferWords 0x1400000000) = 1) ∧
    (cur (user id)).task = none ∧ repOut (tasked (plainTask false) id) 0 = false ∧
    (let s := repJobs (some (1, 0)) []
     ctxWords s 0 5 0x20040 8 = some repDesc ∧ ctxWords s 0 5 (repDesc.getD 6 0).toNat 16 = some (List.replicate 16 0) ∧
     jobOk s 0 5 0x20040 repDesc (List.replicate 16 0) = true ∧ jobOk s 0 5 0x20040 (repDesc.set 5 0) (List.replicate 16 0) = false ∧
     (match runUnits 0 (repJob (some (1, 0)) [{}]) repDesc [] [{}] (s, 1, 0) with | .inl (_, n, m, us) => n == 1 && m == 0 && us == [] | .inr _ => false) = true ∧
     (match runUnits 0 (repJob none []) repDesc (List.replicate 16 0) (jobUnits 0 repDesc) (s, 0, 0) with | .inl (_, n, m, us) => n == 0 && m == 1 && us == [] | .inr _ => false) = true) ∧
    isFwCol State.reset 11 = true ∧ isFwCol State.reset 0 = false ∧ (getCore State.reset 11).fwctl.getLsbD 62 = false := by
  refine ⟨?_, ?_, ?_, ?_, ?_, ?_, ?_, ?_, ?_, ?_, ?_, ?_⟩
  all_goals decide +kernel
/-- R391, R394: the byte stands at its destination, and the mailbox is full. -/
theorem test_transfer_copies : (match exec (.transferComplete 0) xfer with
    | .next t => (readN t 0x20090 2, readN t 0x2009F 1) | _ => (0, 0)) = (1, 0x80) := by decide +kernel

/-- An input tile of one row of two bytes. -/
def tileDesc : List DWord := [0x20080, 0x1000200000000, 0, 9]
/-- It is on its way to tile 0 for the staged task of launch 3; its bytes are 1 and 2. -/
def arriving : State :=
  let e : QEntry := { seq := 1, kind := 0, words := [], launch := 3, ginst := 0, staged := some ([0], 0), tiles := some [tileDesc], ctx := 5 }
  { paged [(0x0, 1), (0x2, 1), (0x10000, 3), (0x10002, 0xC0), (0x10003, 0x13), (0x10008, 1), (0x1000A, 3), (0x20080, 1),
      (0x20081, 2), (0x30000, 1), (0x30001, 0x10), (0x30002, 3), (0x31008, 3), (0x3100A, 0xC0), (0x3100B, 3),
      (0x3100C, 0x20)] with
    queues := [(0, { ctl := 0, clus := 1, lead := 0, entries := [e] })]
    cores := [(0, { blocks := [⟨3, 0x1000, 4096⟩], tiles := [⟨3, tileDesc, false, 0, 5, 77⟩] })] }
/-- A context that has left tile 0 whole; hart 0 comes back to three chunks. -/
def awayPacked : Packed := ⟨0xE000000000000100, 0x4000, 0x8000, 5, 3, false, false, 0x100000, 0⟩
def away : State :=
  { State.reset with harts := [(0, { st := .preempted, packed := some awayPacked })], cores := [(0, { preempt := some ⟨100, [], [5]⟩ })] }
theorem test_hyps_HartAndTaskSteps :
    (let h := cur (user (fun h => { h with hstat := 0x10, async := [⟨cPREEMPT, 0, 0⟩], htvec := 0x4000, conv := none }))
     h.ending = .none ∧ h.takeable = true ∧ h.htvec ≠ 0 ∧ h.conv = none) ∧ (cur (user id)).takeable = false ∧
    ((getHart State.reset 0).lastCtx ≠ 5) ∧ (getDev State.reset (devOf 3)).off = false ∧ State.reset.queues = [] ∧
    (let s := arriving
     let e : RTile := ⟨3, tileDesc, false, 0, 5, 77⟩
     (getCore s 0).tiles.find? (fun e => e.id == 77) = some e ∧
     (getCore s 0).blocks.find? (fun b => b.launch == e.launch) = some ⟨3, 0x1000, 4096⟩ ∧ tileUsers s 0 e ≠ [] ∧
     readTile s (devOf (dieOf 0)) 5 tileDesc 0 (tileRows tileDesc) = Sum.inl [1, 2] ∧ s.forward = []) ∧ ScratchHome arriving ∧
    (let e : QEntry := { seq := 1, kind := 0, words := [], launch := 3, ginst := 0 }
     let q (c : DWord) (p : List Stalled) : Queue := { ctl := c, clus := 1, lead := 0, stalled := p }
     queueFull (q 0 [.hart 5]) 0 = true ∧ queueFull (q 0x8000000000020000 [.hart 5]) 0 = false ∧
     queueFull (q 0 [.held e]) e.tile = true ∧ queueFull (q 0x8000000000020000 [.held e]) e.tile = false ∧
     queueFull (q 0x8000000000020000 [.walk 4 e]) 0 = false) ∧
    (let l : Launch := { dev := 0, ctx := 0, ginst := 0, vchunks := 3, spad := 0, harts := 8, mesh := false, live := 0, walk := some (4, 0) }
     l.live = 0 ∧ ({ l with live := 2 } : Launch).live ≠ 0 ∧ l.walk = some (4, 0)) ∧
    (let c : Commit := ⟨0, 0, plainTask true, 0, true, false, 0, 0, none, 0⟩
     let s := { tasked (plainTask true) id with commits := [(7, c)] }
     SMap.find s.domains 4 = some { v := true, next := 6, low := 5 } ∧ waitingCommit s 4 5 = some 7 ∧ waitingCommit s 4 6 = none ∧
     SMap.find s.commits 7 = some c ∧ partialPoison s 7 (resolveBytes s c.dev c.ctx (commitBytes c.task.buf)) = false) ∧
    (let k : Token := ⟨9, 0, 0, 9, [0, 1], 0⟩
     k.dies = 0 :: [1] ∧ (getDie State.reset 0).tokens.length < 256 ∧
     256 ≤ ({ tokens := List.replicate 256 (0, 0, 0) } : Die).tokens.length) ∧
    isCompute (user id) 0 = true ∧ leavingOn (user id) 0 = [] ∧ isCompute (user id) 11 = false ∧
    (0 : Nat) ∈ hartsOf 0 ∧ (getHart (user id) 0).st = .running ∧
    (getDie State.reset (dieOf 0)).tb.toNat < 100 ∧ (getCore away 0).preempt = some ⟨100, [], [5]⟩ ∧
    100 ≤ (getDie { State.reset with dies := [(0, { tb := 100 })] } (dieOf 0)).tb.toNat ∧
    leavingOn away 0 = [] ∧ (∀ j ∈ hartsOf 0, j ≠ 0 → (getHart away j).packed = none) ∧
    (getHart away 0).packed = some awayPacked ∧ (getHart away 0).st = .preempted ∧
    (freeChunks away 0 awayPacked.chunks).length = awayPacked.chunks ∧
    (let k := tscOf (clusKey 0) * 8
     (validHart k && (isTsc (unitOf (coreOf k)) || decide (roleOf State.reset (coreOf k) ≠ 0))) = true ∧
     (getHart State.reset k).st = .idle) ∧ ((cur (user (fun h => { h with wait := .wfi }))).wait = .wfi) := by
  refine ⟨?_, ?_, ?_, ?_, ?_, ?_,
    scratchHome_of _ rfl, ?_, ?_, ?_, ?_, ?_,
    ?_, ?_, ?_, ?_, ?_, ?_,
    ?_, ?_, ?_, ?_, ?_, ?_,
    ?_⟩
  all_goals decide +kernel
theorem test_tile_arrives : (match exec (.tileResident 0 77) arriving with
    | .next t => (memGet t.mem (scratchLoc 0 0x1001), (getCore t 0).tiles.map (·.resident)) | _ => (0, [])) = (2, [true]) := by
  decide +kernel
/-- R284: a hart that returns starts where its image says, with PRE-EMPT as its cause. -/
theorem test_context_returns : (match exec (.contextReturn (0, 5)) away with
    | .next t => ((getHart t 0).pc, (getHart t 0).chunks.length, bits (getHart t 0).hcause 7 0) | _ => (0, 0, 0))
    = (0x4000, 3, cPREEMPT) := by decide +kernel

/-! ## Commands -/

/-- Queue descriptor words of a queue of context 5 on die 0, of a kind, with room for two entries. -/
def queueCtl (kind : DWord) : DWord := 0x8000000500020100 ||| kind <<< 61
/-- In the page of context 5: a launch descriptor at 0x20040 and its record at 0x20080; a node END at 0x20100; a graph entry at 0x20140
and an UNMAP at 0x20180; a full future at 0x201C0; a context record at 0x20200, a task queue descriptor at 0x20240, one of a
submission queue at 0x20280; a draw descriptor at 0x20300. Its queue 1 takes tasks, its queue 2 bins of one tile. -/
def office : State :=
  { paged [(0x0, 1), (0x2, 1), (0x10000, 3), (0x10002, 0xC0), (0x10003, 0x13), (0x10008, 1), (0x1000A, 3),
      (0x20040, 0x80), (0x20042, 2), (0x20048, 1), (0x2004D, 3), (0x2004E, 1), (0x20081, 0x10), (0x20141, 1),
      (0x20142, 2), (0x20148, 3), (0x20150, 0x18), (0x20152, 2), (0x20180, 8), (0x20190, 0x18), (0x20192, 2),
      (0x201A2, 1), (0x201C7, 0x80), (0x20200, 6), (0x20241, 1), (0x20242, 2), (0x20244, 5), (0x20247, 0x80),
      (0x20248, 1), (0x20281, 0x10), (0x20288, 4), (0x2028A, 5), (0x2028C, 1), (0x20308, 8), (0x2030A, 8),
      (0x2030C, 2), (0x20318, 0x80), (0x2031A, 2), (0x20320, 0x80), (0x20322, 2), (0x20340, 0x40), (0x20342, 2),
      (0x20348, 3), (0x30000, 1), (0x30001, 0x10), (0x30002, 3), (0x31008, 3), (0x3100A, 0xC0), (0x3100B, 3),
      (0x3100C, 0x20)] with
    devs := [(0, { booted := true, cfg := [(0, { caddyMB := 1, caddyB := 0x40000000 })] })]
    dies := [(0, { fwUp := true })]
    queues := [(1, { ctl := queueCtl 0, clus := 1, lead := 0 }), (2, { ctl := queueCtl 1, clus := 1, lead := 0, binw := 0x10001 })]
    sqs := [(1, { desc := [0x20000, 0x50004], ctx := 5, head := 5, tail := 6 }), (2, { desc := [0x20000, 0x50104], ctx := 5, head := 6, tail := 7 })]
    domains := [(4, { v := true, ctx := 5, next := 6, low := 6 }), (5, { v := true, ctx := 5, next := 6, low := 5 })] }
/-- A walk of context 5 at node 0 of the buffer at 0x20100. -/
def strollAt (n : Option (List DWord)) : Walk :=
  { sq := 1, ctx := 5, dev := 0, die := 0, ginst := 3, done := 0x20018, frames := [{ buf := 0x20100 }], cur := n }
/-- A task queue takes an entry at once. -/
def queueTakes (s : State) (qk : Nat) : Bool :=
  match SMap.find s.queues qk with | some q => !queueFull q 0 && q.stalled.isEmpty | none => false
theorem takes_of {s : State} {qk : Nat} (h : queueTakes s qk = true) :
    ∃ q, SMap.find s.queues qk = some q ∧ queueFull q 0 = false ∧ q.stalled = [] := by
  unfold queueTakes at h
  split at h
  · next q hq => simp at h; exact ⟨q, hq, h.1, h.2⟩
  · cases h
theorem office_paged : Paged office := by unfold Paged; decide +kernel
theorem office_record : ctxWords office 0 5 0x20080 16 = some [0x1000, 0, 0, 0, 0, 0, 0, 0, 0, 0, 0, 0, 0, 0, 0, 0] := by
  rw [paged_words office_paged 16 _ (by decide)]; decide +kernel
theorem launch_of {s : State} {va q : Nat} {d r : List DWord} (hd : ctxWords s 0 5 va 8 = some d) (ha : (d.getD 0 0).toNat = q)
    (hr : ctxWords s 0 5 q 16 = some r) (ho : launchOk d = true) (hm : launchMesh d = false)
    (hk : recordOk r = true ∧ recCpl r = false) (hq : (match queueFor s 0 5 (launchQueue d) with
      | some x => couldHost s 0 x (launchOf 0 5 3 d) | none => false) = true) :
    readLaunch s 0 5 3 va = .ok { launchOf 0 5 3 d with draw := none } r (launchQueue d) := by
  unfold readLaunch
  subst ha
  rw [hd]
  dsimp only
  rw [hr, if_neg (by simp [ho])]
  have e : (launchOf 0 5 3 d).mesh = false := hm
  rw [e]
  dsimp only
  rw [if_neg (by simp [hk])]
  split
  · next h => rw [h] at hq; cases hq
  · next x h => rw [h] at hq; rw [if_pos hq]; simp
theorem office_descriptor : ctxWords office 0 5 0x20040 8 = some [0x20080, 0x1030000000001, 0, 0, 0, 0, 0, 0] := by
  rw [paged_words office_paged 8 _ (by decide)]; decide +kernel
theorem node_of {s : State} {x : Walk} {f : Frame} {fs : List Frame} {n : List DWord} (hc : x.cur = none) (hf : x.frames = f :: fs)
    (hn : ctxWords s x.dev x.ctx (nodeAt f.buf f.node) 8 = some n) (ho : nodeOk f.node n = true) (hk : nodeKind n ≠ 6) :
    reachNode s x = .node { x with cur := some n } n := by
  unfold reachNode
  rw [hc, hf]
  dsimp only
  rw [hn]
  dsimp only
  rw [if_neg (by simp [ho]), if_neg hk]
theorem office_end : ctxWords office 0 5 0x20100 8 = some (List.replicate 8 0) := by
  rw [paged_words office_paged 8 _ (by decide)]; decide +kernel
theorem office_node : reachNode office (strollAt none) = .node (strollAt (some (List.replicate 8 0))) (List.replicate 8 0) :=
  node_of (x := strollAt none) rfl rfl (office_end.trans rfl) (by decide +kernel) (by decide +kernel)
theorem office_launch : ∃ l r qk q, readLaunch office 0 5 3 0x20040 = .ok l r qk ∧ SMap.find office.queues qk = some q ∧
    queueFull q 0 = false ∧ q.stalled = [] := by
  obtain ⟨q, hq⟩ := takes_of (s := office) (qk := 1) (by decide +kernel)
  exact ⟨_, _, _, q, launch_of office_descriptor (by decide) office_record (by decide +kernel) (by decide +kernel)
    (by decide +kernel) (by decide +kernel), hq⟩
theorem test_hyps_CommandNodes :
    (let q : Sq := { desc := [0x20000, 0x50004], ctx := 5, head := 5, tail := 6 }
     SMap.find office.sqs (devOf 0 * 4096 + 1) = some q ∧ sqDie (devOf 0) q = 0 ∧ sqDie (devOf 1) q ≠ 1 ∧
     ((7 : BitVec 32) - BitVec.ofNat 32 q.head).toNat ≤ 16 ∧
     (BitVec.ofNat 32 q.tail - BitVec.ofNat 32 q.head).toNat < ((7 : BitVec 32) - BitVec.ofNat 32 q.head).toNat ∧
     16 < ((2 : BitVec 32) - BitVec.ofNat 32 q.head).toNat ∧ (BitVec.ofNat 32 q.head - (2 : BitVec 32)).toNat ≤ 16 ∧
     16 < ((99 : BitVec 32) - BitVec.ofNat 32 q.head).toNat ∧ 16 < (BitVec.ofNat 32 q.head - (99 : BitVec 32)).toNat ∧
     sqReady office 1 q = true ∧ q.admin = false ∧
     ownerWords office 0 5 (q.entryAt q.head) 8 = some [0x20100, 3, 0x20018, 0, 0, 0, 0, 0] ∧ bits (3 : DWord) 32 32 = 0 ∧
     entryOk [0x20100, 3, 0x20018, 0, 0, 0, 0, 0] = true ∧ entryOk [1, 3, 0x20018, 0, 0, 0, 0, 0] = false ∧
     ownerWords office 0 5 0x80000000 8 = none) ∧
    (let q : Sq := { desc := [0x20000, 0x50104], ctx := 5, head := 6, tail := 7 }
     SMap.find office.sqs 2 = some q ∧ sqReady office 2 q = true ∧ q.admin = true ∧
     ownerWords office 0 5 (q.entryAt q.head) 8 = some [8, 0, 0x20018, 0, 0x10000, 0, 0, 0] ∧
     argsOk 8 [0, 0x10000, 0, 0, 0] = true ∧ contextOk 2 5 8 0 = true) ∧
    SMap.find office.ctxs 5 = some { words := [5, 0, 0, 0, 0, 0, 0, 0] } ∧
    ((strollAt none).blocked = false ∧ (strollAt none).cancelled = false ∧ (strollAt none).ended = false) ∧
    reachNode office (strollAt none) = .node (strollAt (some (List.replicate 8 0))) (List.replicate 8 0) ∧
    reachNode office { strollAt none with frames := [{ buf := 0x80000000 }] } = .fault 3 ∧
    (∃ l r qk q, readLaunch office 0 5 3 0x20040 = .ok l r qk ∧ SMap.find office.queues qk = some q ∧ queueFull q 0 = false ∧ q.stalled = []) ∧
    readLaunch office 0 5 3 0x80000000 = .fault 3 ∧ engineFor office 0 = some 0 ∧
    (ctxFill office 0 5 0x20018 7 5).isSome = true ∧ (ctxFill office 0 5 0x80000000 7 5).isNone = true ∧
    ctxRead office 0 5 0x201C0 8 = some (2 ^ 63) ∧ ctxRead office 0 5 0x201C8 8 = some 0 ∧ ctxRead office 0 5 0x80000000 8 = none ∧
    nodeKind [1] = 1 ∧ nodeKind [0x18] = 8 ∧ nodeFence [0x18] = true ∧ nodeFence [1] = false ∧ nodeFence [6] = true ∧
    ([1, 2, 3] : List DWord).getD 1 0 = 2 ∧ nodeMaxIter [7, 0, 5] = 5 ∧ (0x106 : DWord).getLsbD 8 = true := by
  refine ⟨⟨?_, ?_, ?_, ?_, ?_, ?_,
      ?_, ?_, ?_, ?_, ?_,
      by rw [paged_owner office_paged _ _ (by decide)]; decide +kernel, by decide +kernel⟩,
    ⟨by decide +kernel, by decide +kernel, by decide +kernel,
      by rw [paged_owner office_paged _ _ (by decide)]; decide +kernel, by decide +kernel⟩,
    by decide +kernel, by decide +kernel, office_node, by decide +kernel, office_launch,
    ?_, ?_, ?_, ?_, ?_,
    ?_, ?_, ?_, ?_, ?_, ?_,
    ?_, ?_, ?_⟩
  all_goals decide +kernel
/-- An admin request of the device's host queue for context 5. -/
def asks (op stage : Nat) (args : List DWord) : Admin :=
  { sq := 0, dev := 0, die := 0, qctx := 0, ctx := 5, op := op, after := 0, done := 0, args := args, stage := stage }
theorem test_hyps_AdminRequests :
    (let a := asks 1 0 [0x20200]
     SMap.find { office with admins := [(9, a)] }.admins 9 = some a ∧ a.bad = false ∧ (getDev office a.dev).off = false) ∧
    (ownerWords office 0 0 0x20200 8 = some [6, 0, 0, 0, 0, 0, 0, 0] ∧
     recordImageOk [6, 0, 0, 0, 0, 0, 0, 0] = true ∧ SMap.find office.ctxs 6 = none ∧ SMap.find office.ctxs 5 ≠ none) ∧
    (contextBusy office 0 5 = false ∧ contextAccesses office 0 5 = false ∧
      contextBusy { office with walks := [(3, strollAt none)] } 0 5 = true ∧
      contextAccesses { office with cores := [(0, { kicks := [{ ctx := 5, desc := 64 }] })] } 0 5 = true) ∧
    (let d : List DWord := [0x8000000500020100, 1, 0, 0, 0, 0, 0, 0]
     ctxWords office 0 5 0x20240 8 = some d ∧ queueOk (queueOf d) = true ∧ (queueOf d).ctx = 5 ∧ SMap.find office.queues 3 = none) ∧
    caddyHolds office 0 (queueOf [0x8000000500020100, 1, 0, 0, 0, 0, 0, 0]) = true ∧
    (let d : List DWord := [0x1000, 0x100050004, 0, 0]
     ctxWords office 0 5 0x20280 4 = some d ∧ sqOk d = true ∧ bits (d.getD 1 0) 47 32 = 1 ∧ bits (d.getD 1 0) 31 16 = 5 ∧
     0x40000008 % 65536 = doorbellAt 0 0 1 % 65536 ∧ (writeLeaf office 0 5 0x40000008 (doorbellLeaf (doorbellAt 0 0 1))).isSome = true ∧
     SMap.find { office with sqs := [] }.sqs 1 = none) ∧
    ((∃ p ∈ { office with walks := [(3, strollAt none)] }.walks, p.2.sq = 1) ∧ ∀ p ∈ office.walks, p.2.sq ≠ 1) ∧
    (let e : DWord := 0x3003C00003
     e.getLsbD 0 = true ∧ e.getLsbD 1 = true ∧ leafBad e = false ∧ 0x40000000 % 2 ^ entrySize e = 0 ∧
     (mapLeaves 0 5 (0x10000 / 2 ^ entrySize e) 0x40000000 e office).isSome = true) ∧
    (unmapLeaves 0 5 0x40020000 1 0x40010000 office).isSome = true ∧
    leafOf office 0 5 0x40010000 = some (0x31008, 0x2003C00003, 16) ∧ leafOf office 0 5 0x40000000 = none ∧
    (∀ k ∈ domainKeys (asks 10 0 [6, 2]), ∀ d, SMap.find office.domains k = some d → d.v = false) ∧
    (∀ k ∈ domainKeys (asks 11 0 [4, 1]), ∃ d, SMap.find office.domains k = some d ∧ d.v = true ∧ d.ctx = 5) ∧
    (∀ k ∈ domainKeys (asks 11 0 [4, 1]), ∀ d, SMap.find office.domains k = some d → d.low = d.next) ∧
    SMap.find office.domains 5 = some { v := true, ctx := 5, next := 6, low := 5 } ∧
    (let d : List DWord := [0, 0x200080008, 0, 0x20080, 0x20080, 0, 0, 0, 0x20040, 3, 0, 0, 0, 0, 0, 0]
     let r : List DWord := [0x1000, 0, 0, 0, 0, 0, 0, 0, 0, 0, 0, 0, 0, 0, 0, 0]
     ctxWords office 0 5 0x20300 16 = some d ∧ ctxWords office 0 5 0x20080 16 = some r ∧ drawOk d = true ∧
     templateOk false 0x20080 r = true ∧ binSetOk office 0 5 { ctx := 5, ginst := 0, desc := d, small := r, large := r } = true) ∧
    (let d : Draw := { ctx := 5, ginst := 0, desc := [0, 0x200080008] }
     d.isOpen = true ∧ d.bins = [] ∧ classifying { office with draws := [(7, d)] } 7 = false ∧
     classifying { office with dies := [(0, { cls := [⟨7, 5, 0, [], false, 0⟩] })] } 7 = true ∧
     sealStalled office 7 d = false ∧
     (let e : QEntry := { seq := 1, kind := 0, words := [], launch := 3, ginst := 0 }
      sealStalled { office with queues := [(2, { ctl := queueCtl 1, clus := 1, lead := 0, stalled := [.held e] })] } 7
        { d with blaunch := some 3 } = true) ∧ ({ d with sealed := true } : Draw).sealed = true) := by
  refine ⟨by decide +kernel, by decide +kernel, by decide +kernel,
    ⟨by rw [paged_words office_paged _ _ (by decide)]; decide +kernel, by decide +kernel⟩, by decide +kernel,
    ⟨by rw [paged_words office_paged _ _ (by decide)]; decide +kernel, by decide +kernel⟩,
    ⟨⟨(3, strollAt none), by simp, rfl⟩, by decide +kernel⟩, by decide +kernel, by decide +kernel, by decide +kernel,
    by decide +kernel, ?_, ?_, ?_, by decide +kernel,
    ⟨by rw [paged_words office_paged _ _ (by decide)]; decide +kernel, office_record, by decide +kernel⟩, by decide +kernel⟩
  · intro k hk d hd
    have h : ∀ k ∈ domainKeys (asks 10 0 [6, 2]), SMap.find office.domains k = none := by decide +kernel
    simp [h k hk] at hd
  · intro k hk
    have h : domainKeys (asks 11 0 [4, 1]) = [4] := by decide +kernel
    simp only [h, List.mem_singleton] at hk
    exact hk ▸ ⟨{ v := true, ctx := 5, next := 6, low := 6 }, by decide +kernel, rfl, rfl⟩
  · intro k hk d hd
    have h : domainKeys (asks 11 0 [4, 1]) = [4] := by decide +kernel
    have e : SMap.find office.domains 4 = some { v := true, ctx := 5, next := 6, low := 6 } := by decide +kernel
    simp only [h, List.mem_singleton] at hk
    rw [hk, e] at hd
    cases hd; rfl
theorem test_end_node_completes : (match exec (.endNode 3) { office with walks := [(3, { strollAt (some (List.replicate 8 0)) with done := 0 })] } with
    | .next t => some (SMap.keys t.walks) | _ => none) = some [] := by decide +kernel
theorem test_loop_goes_back : (match exec (.loopNode 3) { office with
      walks := [(3, { strollAt (some [7, 0x201C0, 2, 0, 0, 0, 0, 0]) with frames := [{ buf := 0x20100, node := 4 }] })] } with
    | .next t => t.walks.map (fun p => p.2.frames.map (fun f => (f.node, f.counts))) | _ => []) = [[(0, [(4, 1)])]] := by
  decide +kernel

/-! ## Firmware, errors, links -/

/-- Two dies of device 0 that agreed on version 2; the second die's mailbox from the first holds so many messages. -/
def agreedDies (up : Bool) (n : Nat) : State :=
  { State.reset with dies := [(0, { fwUp := true, fwMin := 1, fwMax := 2, agreed := [(1, some 2)] }),
      (1, { fwUp := up, fwMin := 1, fwMax := 3, agreed := [(0, some 2)], mail := List.replicate n (0, 7) })] }
theorem test_hyps_FirmwareAndResets :
    ((0 : Nat) ≠ 1 ∧ devOf 0 = devOf 1 ∧ devOf 0 ≠ devOf 8) ∧
    (let s := agreedDies false 16
     (getDie s 0).fwUp = true ∧ versionWith s 0 1 ≠ none ∧ (getDie s 1).fwUp = false ∧
     16 ≤ (boxOf (getDie s 1) (dieNo 0)).length ∧ max 1 (getDie s 1).fwMin ≤ min 2 (getDie s 1).fwMax ∧
     ¬ max 4 (getDie s 1).fwMin ≤ min 5 (getDie s 1).fwMax) ∧
    (let s := agreedDies true 15
     (getDie s 1).fwUp = true ∧ (boxOf (getDie s 1) (dieNo 0)).length < 16 ∧ versionWith s 1 0 ≠ none) ∧
    ((getDie State.reset 0).fwUp = false ∧ versionWith State.reset 0 1 = none) ∧
    (bestSet (getDev State.reset 0).flash = none ∧ (getDev State.reset (devOf 0)).booted = false ∧
     routed State.reset (devOf 8) 0 = false ∧ routed State.reset 0 0 = true) ∧
    (let a := asks 16 16 [0x20000, 2]
     a.op = 16 ∧ a.bad = false ∧ (getDev State.reset a.dev).off = false ∧ 8 ≤ a.stage / 2) ∧
    ((asks 16 0 [0x20000, 2]).stage / 2 < 8 ∧ ((asks 16 0 [0x20000, 2]).arg 1).testBit 0 = false ∧
     ((asks 16 2 [0x20000, 2]).arg 1).testBit ((asks 16 2 [0x20000, 2]).stage / 2) = true ∧ (asks 16 2 [0x20000, 2]).stage % 2 = 0 ∧
     physOk ((asks 16 2 [2 ^ 47, 2]).arg 0) = false ∧ (asks 16 3 [0x20000, 2]).stage % 2 = 1) ∧
    (let others := (diesOfDev 0).filter (· != 1)
     let all (v : Option Nat) : State := { State.reset with dies :=
       [(1, { agreed := [(0, v), (2, some 2), (3, some 2), (4, some 2), (5, some 2), (6, some 2), (7, some 2)] })] }
     (∀ o ∈ others, versionWith (all (some 2)) 1 o ≠ none) ∧ (∀ o ∈ others, SMap.find (getDie (all none) 1).agreed (dieNo o) ≠ none) ∧
     (∃ o ∈ others, versionWith (all none) 1 o = none) ∧ ∃ o ∈ others, SMap.find (getDie (agreedDies true 0) 1).agreed (dieNo o) = none) := by
  decide +kernel
theorem test_hyps_ErrorsAndPower :
    (let s := { State.reset with
       cores := [(0, { accown0 := 0x80000500, infV := true, infCtx := 5 })]
       clusters := [(0, { belay := [(3, 0x40)], bars := [(2, { waiters := [5] })] })] }
     ((getCore s 0).accown 0).getLsbD 31 = true ∧ ((getCore s 0).accown 1).getLsbD 31 = false ∧ (getCore s 0).infV = true ∧
     (getCore s 1).infV = false ∧ (getClus s (0 / 256)).belay[0 % 256]? = some (3, 0x40) ∧
     (getClus s (1 / 256)).belay[1 % 256]? = none ∧ (5 : Nat) ∈ (eventRow (getClus s (2 / 384)) (2 % 384)).waiters) ∧
    (validHart 0 = true ∧ validHart (2 ^ 30) = false ∧ (cur (user id)).st ≠ .idle ∧ (cur (user id)).st ≠ .preempted ∧
     (cur (user (fun h => { h with parity := true }))).parity = true ∧ (cur (user id)).parity = false) ∧
    SMap.get 0 (getDev State.reset 0).life 0x0020 < 2 ^ 64 ∧
    (let s := { State.reset with devs := [(0, { booted := true, cfg := [(0, { fwr := 0x40000 })], life := [(0x10, 0xFFFF00000000)] })] }
     (getDev s 0).booted = true ∧ bits (dieCfg s (0 * 8)).fwr 35 18 ≠ 0 ∧ s.forward = [] ∧
     SMap.get 0 (getDev s 0).life 0x10 / 2 ^ 32 % 2 ^ 16 = 2 ^ 16 - 1 ∧ bits (dieCfg State.reset (0 * 8)).fwr 35 18 = 0) ∧
    (let s (tb : DWord) : State := { State.reset with dies := [(0, { clk := 1500, clearAt := some 90, tb := tb })] }
     (getDie (s 89) 0).clearAt = some 90 ∧ (getDie (s 89) 0).tb.toNat < 90 ∧ 90 ≤ (getDie (s 90) 0).tb.toNat ∧
     (getDie State.reset 0).clearAt = none) ∧
    (let p : FlashSet := ⟨[], [], 1⟩
     let q : FlashSet := ⟨[], [], 2⟩
     p.age < q.age ∧ (getDev { State.reset with devs := [(0, { flash := [p, q] })] } 0).flash = [p, q] ∧
     (getDev State.reset 0).flash.length < 2) := by decide +kernel
/-- Port 0 to device 1 and the first Ethernet port of device 0 are up and have trained. -/
def cabled : State :=
  { State.reset with devs := [(0, { rlstat := [(0, 2)], ethstat := [(0, 2)], trained := [0, 7] })] }
theorem test_hyps_LinksAndHost :
    ((0 : Nat) < 8 ∧ (22 : Nat) < 23 ∧ portState cabled 0 0 = 2 ∧ (getDev cabled 0).trained.contains 0 = true ∧
     routed State.reset 0 (peerOf 0 0) = false) ∧
    etherUp cabled (portDev 0x1000) = true ∧ etherUp State.reset (portDev 0x1000) = false ∧
    rangeOk 0x1000 8 = true ∧ rangeOk (2 ^ 43) 8 = false ∧ (∀ k < 8, isPoisoned cabled (0x1000 + k) = false) ∧
    partPoisoned cabled 0x1000 8 = false ∧ cabled.forward = [] ∧
    (let s := { cabled with poison := [(0x40, true)] }
     isPoisoned s 0x1000 = true ∧ partPoisoned s 0x1000 8 = true ∧ partPoisoned s 0x1000 64 = false) ∧
    ((0x10007 : Nat) / 65536 < 8 ∧ (0x1000 : Nat) % 8 = 0 ∧ (0x1004 : Nat) % 8 ≠ 0) ∧
    ((getDev cabled 0).dead = false ∧ (getDev cabled 0).off = false ∧
     (getDev { State.reset with devs := [(0, { dead := true })] } 0).dead = true ∧ classOf 0x1000 = 0 ∧
     classOf (doorbellAt 0 0 1) = 2 ∧ doorbellAt 0 0 1 % 8 = 0 ∧ 0x70 ≤ regUnit (doorbellAt 0 0 1) ∧
     regReached cabled 0 (doorbellAt 0 0 1) = true ∧ regUnit (doorbellAt 0 0 1) = 0x80 ∧ regDev (doorbellAt 0 0 1) = 0) := by
  decide +kernel
/-- R413: a clock step downwards is 100 MHz. -/
theorem test_clock_step_down : (match exec (.clockStepDown 0) State.reset with | .next t => (getDie t 0).clk | _ => 0) = 1500 := by
  decide +kernel
/-- R400: a fetch-and-add answers with the old value. -/
theorem test_roce_fetch_and_add : (match exec (.roceFetchAndAdd 0x1000 5) { cabled with mem := [(0x1000, 3)] } with
    | .next t => (memGet t.mem 0x1000, (getDev t 0).netOut) | _ => (0, [])) = (8, [3]) := by decide +kernel

/-! ## More witnesses -/

theorem test_hyps_FloatCornersAndRounding_reals : (decodeF f16 0x3C00).Is 1 ∧ (decodeF f16 0xC000).Is (-2) ∧ (decodeF f16 0).Is 0 ∧
    (FVal.fin true 3 (-1)).Is (-1.5) ∧ (decodeF e2m1 e2m1.maxCode).Is 6 ∧ f16 ∈ [f64, f32, f16, bf16] ∧ (-2 : ℝ) ≠ 0 ∧ (0 : ℝ) ≤ 1 := by
  have h1 : decodeF f16 0x3C00 = .fin false 1024 (-10) := by decide +kernel
  have h2 : decodeF f16 0xC000 = .fin true 1024 (-9) := by decide +kernel
  have h3 : decodeF f16 0 = .fin false 0 (-24) := by decide +kernel
  have h4 : decodeF e2m1 e2m1.maxCode = .fin false 3 1 := by decide +kernel
  rw [h1, h2, h3, h4]
  refine ⟨?_, ?_, ?_, ?_, ?_, by decide, by norm_num, by norm_num⟩ <;> norm_num [FVal.Is]
theorem test_hyps_Conversions_blocks :
    (let s := vecs 3 (fun h => { h with hstat := pfx 0x08 2 127 })
     let q : Pfx := ⟨.mxe4, false, 2, noSpec⟩
     readV (curLocal s) 0 (cur s).grp = some v0 ∧ (cur s).prefixLive = true ∧ (cur s).readPfx = some q ∧ q.c = noSpec ∧
       q.f.isInt = false ∧ q.f.block ≠ 0 ∧ q.b.toNat < 96 ∧ destShape (cur s) q.f.width = some (1, 128) ∧
       (readV (curLocal s) 8 1).isSome = true ∧ (readV (curLocal s) q.b 1).isSome = true ∧ scalesFit q.f (cur s).len = true ∧
       overlaps q.b 1 0 (cur s).grp = false ∧ overlaps q.b 1 8 1 = false ∧ 8 ≤ (cur s).sew ∧ SlotRuns s 0x29 0 ∧ SlotRuns s 0x29 1) ∧
    DestReady (vecs 3 (fun h => { h with hstat := pfx 0x08 2 127 })) 8 0 8 ∧
    (let s := vecs 1 (fun h => { h with hstat := pfx 0x02 127 127 })
     (cur s).readPfx = some ⟨.e4m3, false, noSpec, noSpec⟩ ∧ BFmt.e4m3.width = (cur s).sew ∧ BFmt.e4m3.block = 0 ∧ (4 : BitVec 7).toNat < 5 ∧
       SlotRuns s 0x28 1 ∧ SlotRuns s 0x28 4) ∧
    DestReady (vecs 1 (fun h => { h with hstat := pfx 0x02 127 127 })) 8 0 32 ∧
    (let s := vecs 3 (fun h => { h with hstat := pfx 0x05 127 127 })
     (cur s).readPfx.any (fun q => q.f.isInt) = true ∧ SlotRuns s 0x28 0) := by
  unfold SlotRuns
  exact ⟨by decide +kernel, ⟨by decide +kernel, by decide +kernel, _, _, _, rfl, rfl, by decide +kernel⟩, by decide +kernel,
    ⟨by decide +kernel, by decide +kernel, _, _, _, rfl, rfl, by decide +kernel⟩, by decide +kernel⟩
/-- A block's elements: 1.5 eight times, then masked-off ones; and blocks with an infinity and with a NaN. -/
def blockVals (v : FVal) (n : Nat) : List (Option FVal) := List.replicate 8 (some v) ++ List.replicate (n - 8) none
theorem test_hyps_Conversions_values :
    BFmt.mxe4.block ≠ 0 ∧ (blockVals (.fin false 3 (-1)) 32).length = BFmt.mxe4.block ∧ BFmt.mxe4.isKx = false ∧
    ((blockVals (.fin false 3 (-1)) 32).filterMap id).any FVal.isNan = false ∧
    ((blockVals (.fin false 3 (-1)) 32).filterMap id).any FVal.isInf = false ∧
    ((blockVals (.inf true) 32).filterMap id).any FVal.isInf = true ∧ ((blockVals (.nan true) 32).filterMap id).any FVal.isNan = true ∧
    (∀ v ∈ (blockVals (.fin false 0 0) 32).filterMap id, v.isZero = true) ∧ BFmt.mxe4.elem.isSome = true ∧
    BFmt.mxi8.elem = none ∧ BFmt.mxi8.block ≠ 0 ∧ BFmt.kx8.isKx = true ∧ BFmt.kx8.block ≠ 0 ∧
    (blockVals (.fin false 3 (-1)) 16).length = BFmt.kx8.block := by decide +kernel
theorem test_hyps_Conversions_binade : TopBinade ((blockVals (.fin false 3 (-1)) 32).filterMap id) 0 ∧ (FVal.fin false 3 (-1)).Is 1.5 := by
  have h : (blockVals (.fin false 3 (-1)) 32).filterMap id = List.replicate 8 (.fin false 3 (-1)) := by decide +kernel
  rw [h]
  refine ⟨⟨fun v hv x hx => ?_, _, List.mem_cons_self, 1.5, by norm_num [FVal.Is], by norm_num⟩, by norm_num [FVal.Is]⟩
  rw [List.eq_of_mem_replicate hv] at hx
  rw [show x = 1.5 by rw [hx]; norm_num]
  norm_num [abs_of_pos]
theorem test_hyps_ComplexResults_values : (decodeF f32 0x3F800000).Is 1 ∧ (decodeF f32 0).Is 0 ∧
    decodeF f32 0x7F800000 = .inf false ∧ decodeF f32 0xFF800000 = .inf true ∧ (decodeF f32 0x7FC00000).isNan = true ∧
    (decodeF f32 0x80000000).isZero = true := by
  have h1 : decodeF f32 0x3F800000 = .fin false 8388608 (-23) := by decide +kernel
  have h3 : decodeF f32 0 = .fin false 0 (-149) := by decide +kernel
  rw [h1, h3]
  exact ⟨by norm_num [FVal.Is], by norm_num [FVal.Is], by decide +kernel, by decide +kernel, by decide +kernel, by decide +kernel⟩
/-- The hart in context 5, s10 = 0x20080 and s11 = 8, the first 1 GiB standing in its cluster's TLB or not. -/
def hinting (missing : Bool) : State :=
  { paged [(0x0, 1), (0x2, 1), (0x10000, 3), (0x10002, 0xC0), (0x10003, 0x13), (0x10008, 1), (0x1000A, 3)] with
    cur := 0
    clusters := [(clusKey 0, { ctlb := if missing then [] else [⟨5, 0, 30, 0x13C00003⟩] })]
    harts := [(0, Hart.begin [] 0 4 [0] { st := .running, chunks := [0, 1, 2], vl := 4, vcfg := 3, ctxid := 5, sregs := [(10, 0x20080), (11, 8)] })] }
theorem hintsDone_one {act : HintAct} {s t : State} {hk l : Nat} {va : DWord} {p : Machine.Path} (h : hintLoc s hk va p = .at l t) :
    HintsDone act hk p [va] s (fun k => if k = 0 then s else act hk t l) := by
  refine ⟨rfl, fun k w hw => ?_⟩
  cases k with
  | zero => cases hw; simp only [if_true]; rw [h]; rfl
  | succ k => simp at hw
theorem at_of {r : HintAt} (h : (match r with | .at _ _ => true | _ => false) = true) : ∃ l t, r = .at l t := by
  match r, h with
  | .at l t, _ => exact ⟨l, t, rfl⟩
theorem miss_of {r : HintAt} (h : (match r with | .miss _ => true | _ => false) = true) : ∃ t, r = .miss t := by
  cases r with
  | miss t => exact ⟨t, rfl⟩
  | _ => cases h
theorem test_hyps_HintsAndMemoryEvents_addresses : (let s := hinting false
     readS (cur s) 10 = some 0x20080 ∧ readS (cur s) 11 = some 8 ∧ (cur s).curConv.resumed = false ∧ (cur s).scnt < 63 ∧
     SlotRuns s 0x16 0 ∧ SlotRuns s 0x16 1 ∧ SlotRuns s 0x16 2 ∧ SlotRuns s 0x3E 0 ∧ SlotRuns s 0x3E 1) ∧
    (∃ l t, hintLoc (hinting false) 0 0x20080 .scalar = .at l t) ∧ (∃ t, hintLoc (hinting true) 0 0x20080 .scalar = .miss t) ∧
    (∃ l t, hintLoc (hinting false) 0 0x20080 .gather = .at l t) ∧ (∃ t, hintLoc (hinting true) 0 0x20080 .gather = .miss t) :=
  ⟨by unfold SlotRuns; decide +kernel, at_of (by decide +kernel), miss_of (by decide +kernel), at_of (by decide +kernel),
    miss_of (by decide +kernel)⟩
theorem test_hyps_HintsAndMemoryEvents_done : ∃ st, HintsDone prefetchAt 0 .scalar [0x20080] (hinting false) st := by
  obtain ⟨l, t, h⟩ := at_of (r := hintLoc (hinting false) 0 0x20080 .scalar) (by decide +kernel)
  exact ⟨_, hintsDone_one h⟩
theorem test_hyps_HintsAndMemoryEvents_lines : (let s := touchSector (hinting false) 0 none 0x20080
    classOf (homeLoc s 0x20080) < 2 ∧ ∃ z ∈ linesOf s (setKey s 0 (homeLoc s 0x20080)), z.line = homeLoc s 0x20080 / 512 ∧ z.way = none) := by
  decide +kernel
theorem test_prefetch_fills : (match exec (.pf 10 127 none) (hinting false) with
    | .next t => (linesOf t (setKey t 0 0x20080)).map (fun z => (z.line, z.sectors)) | _ => []) = [(0x20080 / 512, 4)] := by decide +kernel
theorem test_hyps_ScalarLoadsAndStores_refused : let s := poisonAt (spad 3 id) (scratchLoc 0 0x100)
    ∃ ps u, elemCheck s (agentOf s s.cur) .load 0xE000000000000100 8 1 .scalar = .ok ps u ∧
      isReg (ps.headD (0, 0)).1 = false ∧ accRefusal u s.cur .load ⟨0, 0xE000000000000100, 8, ps⟩ = some ⟨cPOISON, 0, 0xE000000000000100⟩ :=
  ok_of (fun ps u => isReg (ps.headD (0, 0)).1 = false ∧
    accRefusal u 0 .load ⟨0, 0xE000000000000100, 8, ps⟩ = some ⟨cPOISON, 0, 0xE000000000000100⟩) (by decide +kernel)
theorem test_hyps_HintsAndMemoryEvents_returns : let o : Op := { hart := 0, counter := 1, scope := 0 }
    let s := { spad 3 id with ops := [(1, { o with ret := [.vector (8 : BitVec 7).toNat 1 5 true] }),
      (2, { o with ret := [.vector (8 : BitVec 7).toNat 1 5 true, .vector (9 : BitVec 7).toNat 1 6 false] }),
      (3, { o with refused := [⟨cREMOTENACK, 0, 0⟩], ret := [.scalar (12 : BitVec 7).toNat 0 true] }),
      (4, { o with refused := [⟨cREMOTENACK, 0, 0⟩], ret := [.vector (8 : BitVec 7).toNat 1 0 true] }), (5, { o with after := [77] })] }
    (∃ y z, writeV (getLocal s 0) 8 1 5 = some y ∧ writeV (pushV y 1 5) 9 1 6 = some z) ∧
    (∃ p, SMap.find s.ops 1 = some p ∧ p.ret.length = 1) ∧ (∃ p, SMap.find s.ops 2 = some p ∧ p.ret.length = 2) ∧
    (∃ p, SMap.find s.ops 3 = some p ∧ p.refused ≠ [] ∧ p.counter = 1 ∧ p.fabric = [] ∧ p.rehome = []) ∧
    (∃ p, SMap.find s.ops 4 = some p ∧ p.refused ≠ []) ∧
    (∃ p, SMap.find s.ops 5 = some p ∧ p.ret = [] ∧ ∀ k ∈ p.after, SMap.find s.ops k = none) := by
  exact ⟨⟨_, _, rfl, rfl⟩, ⟨_, rfl, by decide +kernel⟩, ⟨_, rfl, by decide +kernel⟩, ⟨_, rfl, by decide +kernel⟩,
    ⟨_, rfl, by decide +kernel⟩, ⟨_, rfl, by decide +kernel⟩⟩
theorem test_hyps_CounterWaitsAndFutures_ropes :
    (let s := roped 0 id
     SlotRuns s 0x3C 0 ∧ 96 ∈ ropeOf s s.cur ∧ (∃ d, (getHart s 96).conv = some d ∧ (cur s).curConv.slot = d.slot) ∧
     (getHart s 96).lcnt ≤ (0 : BitVec 14).toNat ∧ (cur s).lcnt ≤ (0 : BitVec 14).toNat) ∧
    (let s := roped 0 (fun h => { h with lcnt := 2 })
     ∃ d, (getHart s 96).conv = some d ∧ ¬ (cur s).curConv.slot < d.slot ∧ ¬ (getHart s 96).lcnt ≤ (1 : BitVec 14).toNat) := by
  unfold SlotRuns
  exact ⟨⟨by decide +kernel, by decide +kernel, ⟨_, rfl, by decide +kernel⟩, by decide +kernel, by decide +kernel⟩,
    ⟨_, rfl, by decide +kernel, by decide +kernel⟩⟩
theorem test_hyps_EventUnits_resumed : ∀ j ∈ ([0, 2 ^ 47 - 1] : List Nat),
    (let s := events 0 (fun h => { h with conv := h.conv.map (fun c => { c with resumed := true, bitpos := 2 ^ 47 + j }) }) 0
     (cur s).wait = .none ∧ (cur s).curConv.resumed = true ∧ (cur s).curConv.bitpos = 2 ^ 47 + j ∧ j < 2 ^ 47 ∧ SlotRuns s 0x14 6 ∧
     (evGet s (clusKey 0) 0 63).usable (cur s) = true ∧ (cur s).idem = false) ∧
    (j = 0 → (j + 2 ^ 47 - (evGet (events 0 id 0) (clusKey 0) 0 63).gen % 2 ^ 47) % 2 ^ 47 < 2 ^ 46) ∧
    (j = 2 ^ 47 - 1 → 2 ^ 46 ≤ (j + 2 ^ 47 - (evGet (events 0 id 0) (clusKey 0) 0 63).gen % 2 ^ 47) % 2 ^ 47) := by
  unfold SlotRuns; decide +kernel
theorem test_hyps_StepRunsDecodedInstruction_issue :
    (let h := getHart placed 88
     h.async = [] ∧ h.ending = .none ∧ h.inRope = false ∧ h.stall = 0 ∧ h.st = .running ∧ h.conv = none ∧ h.yield = false) ∧
    mayIssue (modCore State.reset 0 (fun c => { c with lastHart := 0 })) 0 = false ∧
    (∃ v t, fetchConvoy (modCore { placed with inputs := [] } (coreOf 88) (fun c => { c with lastHart := hartNo 88 })) 88
        (getHart placed 88).pc = .ok v t ∧ (getHart t 88).inRope = false ∧ headerOk (isTsc (unitOf (coreOf 88)) || isEngine 88) v.1 v.2 = true ∧
        resumeBad (getHart t 88) v.1 = false) ∧
    (∃ v t, fetchConvoy (modCore { placed with inputs := [], mem := [] } (coreOf 88) (fun c => { c with lastHart := hartNo 88 })) 88
        (getHart placed 88).pc = .ok v t ∧ (getHart t 88).inRope = false ∧
        headerOk (isTsc (unitOf (coreOf 88)) || isEngine 88) v.1 v.2 = false) ∧
    (getHart (setHart placed 88 { getHart placed 88 with yield := true }) 88).yield = true := by
  exact ⟨by decide +kernel, by decide +kernel,
    ok_of (fun (v : Word × List Word) (t : State) => (getHart t 88).inRope = false ∧
      headerOk (isTsc (unitOf (coreOf 88)) || isEngine 88) v.1 v.2 = true ∧ resumeBad (getHart t 88) v.1 = false) (by decide +kernel),
    ok_of (fun (v : Word × List Word) (t : State) => (getHart t 88).inRope = false ∧
      headerOk (isTsc (unitOf (coreOf 88)) || isEngine 88) v.1 v.2 = false) (by decide +kernel), by decide +kernel⟩
theorem test_hyps_SlotChecks_removed :
    (let s := user (fun h => Hart.begin [] 0 (4 + 8 * 2 ^ 7) [0] h)
     slotRemoved (cur s) 0x00 1 = true ∧ leaderRules 0x00 1 none = false ∧ slotRemoved (cur s) 0x10 0 = true ∧ leaderRules 0x10 0 none = true ∧
     (cur s).recorded = none ∧ isMember s s.cur = false) ∧
    (let s := roped 96 (fun h => Hart.begin [] 0 (4 + 8 * 2 ^ 7) [0] h)
     slotRemoved (cur s) 0x10 0 = true ∧ allowed s s.cur 0x10 0 = true ∧ (cur s).recorded = none ∧ isMember s s.cur = true) ∧
    (∀ r ∈ ([.skipped, .decided (some 64, false)] : List Ruling),
      let s := roped 96 (fun h => { Hart.begin [] 0 (4 + 8 * 2 ^ 7) [0] h with conv := (Hart.begin [] 0 (4 + 8 * 2 ^ 7) [0] h).conv.map (fun c => { c with ctl := [(0, r)] }) })
      slotRemoved (cur s) 0x10 0 = true ∧ (cur s).recorded = some r ∧ isMember s s.cur = true) := by
  decide +kernel
theorem test_hyps_TaskInstructions_ending : (let s := tasked (plainTask false) id
    (cur s).lost = false ∧ sending s (plainTask false).uid = false ∧ (cur (tasked (plainTask false) (fun h => { h with ending := .aborted }))).lost = true) := by
  decide +kernel
theorem test_hyps_RopesAndWaits_section : ∀ b ∈ [false, true],
    let k := { plainTask true with sect := some 1 }
    let s := user (fun h => { h with task := some k, secCount := 0x100001, secOver := b })
    (getHart s 0).secOver = b ∧ (getHart s 0).ordtmo.toNat < (getHart s 0).secCount ∧ k.sect ≠ none := by decide +kernel
theorem test_hyps_Channels_waits : (let s := chan (fun _ h => { h with rq := [] })
     SMap.get [] (cur s).rq 1 = [] ∧ SlotRuns s 0x59 2 ∧ SlotRuns s 0x59 3 ∧ SlotRuns s 0x59 5 ∧ readS (cur s) 10 = some 1 ∧
     (cur s).curConv.elem < (2 : DWord).toNat ∧ SMap.get [] (cur s).spill (bits (1 : DWord) 1 0) = []) ∧
    (let s := { chan (fun _ h => { h with spill := [(1, [[7]])] }) with flights := [(7, ⟨0, 1, 1, [9]⟩)], ctxs := [(0, { words := [0, 0, 0x100, 0, 0, 0, 0, 0] })], mem := [(0x109, 8)] }
     (getHart s 1).spills 1 = true ∧ receiverFull s 1 1 = false ∧ channelBlocked s 0 1 = false ∧ (getHart s 1).st ≠ .idle) := by
  unfold SlotRuns; decide +kernel
theorem test_hyps_RayInstructions_miss : ([0, 0, 0, 0, 0, 0, 0, 0x7F800000] : List Nat).length = 8 ∧
    ∃ x ∈ ([0, 0, 0, 0, 0, 0, 0, 0x7F800000] : List Nat), ∀ n, Machine.extOf x ≠ some (Ext.fin n) :=
  ⟨rfl, 0x7F800000, by decide +kernel, fun n => by
    have h : Machine.extOf 0x7F800000 = some (.inf false) := by decide +kernel
    rw [h]; simp⟩
/-- The state of a ray's spawn with the hart changed. -/
def spawning (f : Hart → Hart) : State := modHart (ray 40 0) 0 f
theorem test_hyps_RayInstructions_spawns :
    (∃ v w, fetchElem (spawning (fun h => { h with task := none })) 0 nodeRef 128 8 .scalar = .ok v w ∧ (getHart w 0).task = none) ∧
    (∃ v w, fetchElem (spawning (fun h => { h with hstat := 0x200, depth := 8 })) 0 nodeRef 128 8 .scalar = .ok v w ∧
      recordSpawnOk (toWords v 16) = true ∧ (getHart w 0).idem = true ∧ 8 ≤ (getHart w 0).depth ∧ (getHart w 0).task = some (plainTask false)) ∧
    (∃ v w, fetchElem (spawning (fun h => { h with hstat := 0x200 })) 0 nodeRef 128 8 .scalar = .ok v w ∧
      recordSpawnOk (toWords v 16) = true ∧ (getHart w 0).idem = true ∧ (getHart w 0).depth < 8 ∧ (getHart w 0).task = some (plainTask false)) ∧
    (∃ v w, fetchElem { spawning id with queues := [] } 0 nodeRef 128 8 .scalar = .ok v w ∧
      recordSpawnOk (toWords v 16) = true ∧ (getHart w 0).idem = false ∧ queueFor w 0 0 (recQueue (toWords v 16)) = none) :=
  ⟨got_of (fun (_ : Nat) (w : State) => (getHart w 0).task = none) (by decide +kernel),
   got_of (fun (v : Nat) (w : State) => recordSpawnOk (toWords v 16) = true ∧ (getHart w 0).idem = true ∧ 8 ≤ (getHart w 0).depth ∧
     (getHart w 0).task = some (plainTask false)) (by decide +kernel),
   got_of (fun (v : Nat) (w : State) => recordSpawnOk (toWords v 16) = true ∧ (getHart w 0).idem = true ∧ (getHart w 0).depth < 8 ∧
     (getHart w 0).task = some (plainTask false)) (by decide +kernel),
   got_of (fun (v : Nat) (w : State) => recordSpawnOk (toWords v 16) = true ∧ (getHart w 0).idem = false ∧
     queueFor w 0 0 (recQueue (toWords v 16)) = none) (by decide +kernel)⟩
theorem test_hyps_TexturesAndMeshes_bytes : (let s := textured id id
     (cur s).task = some { plainTask false with mesh := some 0 } ∧ (∀ i ∈ activeElems (cur s), (0 : DWord).toNat + i < 256)) ∧
    ScratchHome (textured id id) ∧ (textured (fun k => { k with mesh := none }) id).forward = [] ∧
    (cur (textured (fun k => { k with mesh := none }) id)).task = some (plainTask false) ∧
    (∃ e, drawAt (textured id id) (0, 0) = some e ∧ part e.val 0x38 8 = 0 ∧ e.isOpen = true) ∧
    (let s := { textured id id with draws := [(0, { ctx := 0, ginst := 9, desc := [], sealed := true, isOpen := false })] }
     ∃ e, drawAt s (0, 0) = some e ∧ e.isOpen = false) :=
  ⟨by decide +kernel, scratchHome_of _ rfl, by decide +kernel, by decide +kernel, ⟨_, rfl, by decide +kernel⟩, _, rfl, by decide +kernel⟩
/-- One draw of device 0 with n staged bin entries of die 0. -/
def staged (n : Nat) : State :=
  { textured id id with draws := [(0, { ctx := 0, ginst := 9, desc := [], bins := List.replicate n ⟨0, 0, 0, false, []⟩ })] }
theorem test_hyps_TexturesAndMeshes_staging : stagingFull (staged 0) 0 = false ∧
    stagingFull (staged (Config.binStaging (dieCfg (staged 0) 0).caddyMB + 1)) 0 = true := by
  refine ⟨by unfold stagingFull; decide +kernel, ?_⟩
  have h (n : Nat) : binsStaged (staged n) 0 = List.replicate n ⟨0, 0, 0, false, []⟩ := by
    simp [binsStaged, staged, textured, dieNo, devOf]
  have d (n : Nat) : dieCfg (staged n) 0 = dieCfg (staged 0) 0 := rfl
  unfold stagingFull
  rw [h, d]
  simp [d]
theorem test_hyps_SystemRegisters_lengths :
    (let s := modHart (roped 0 inTask) 96 (fun h => { h with vcfg := 2 })
     isMember s s.cur = false ∧ sameShape s s.cur = false ∧ SlotRuns s 0x64 2 ∧ (cur s).recorded = none ∧ readS (cur s) 10 = some 3) ∧
    (∀ r ∈ ([.differ, .skipped] : List Ruling),
      (cur (roped 96 (fun h => { h with conv := h.conv.map (fun c => { c with ctl := [(0, r)] }) }))).recorded = some r) := by
  unfold SlotRuns; decide +kernel
theorem test_hyps_TrapsAndReturns_ends :
    (cur (user (fun h => { h with ending := .fenced }))).ending ≠ .none ∧ isEngine (user id).cur = false ∧
    isEngine ({ user id with cur := 65536 } : State).cur = true ∧ (cur (user id)).ending = .none ∧ isFwCore (fw id) (coreOf 88) = true ∧
    isFwCore (user id) (coreOf 0) = false ∧ bit (cur (fw (fun h => { h with cvr := 0x80 }))).cvr 7 = true := by decide +kernel
theorem test_hyps_TranslationsAndImages_entries :
    accessesOf { fw id with ops := [(1, { hart := 88, counter := 1, scope := 0 })] } 88 1 0 = [1] := by decide +kernel
theorem test_hyps_EnginesAndFills_misses :
    (let m : Miss := ⟨0, 0, 1, [3], 0, 0x10000, true⟩
     let s := { State.reset with clusters := [(clusKey 0, { misses := [m] })] }
     (getClus s (clusKey 0)).misses.find? (fun m => m.tag == bits (0 : DWord) 15 0) = some m ∧ m.stale = true) ∧
    ctxWords xfer 0 5 0x40000000 8 = none ∧
    (let s := repJobs none []
     SMap.get [] s.jobs 0 = repJob none [] :: [] ∧ (repJob none []).ran = none) ∧
    (let s := repJobs (some (1, 0)) [{}]
     SMap.get [] s.jobs 0 = repJob (some (1, 0)) [{}] :: [] ∧ (repJob (some (1, 0)) [{}]).units ≠ []) := by decide +kernel
theorem test_hyps_HartAndTaskSteps_endings :
    (let h := cur (user (fun h => { h with ending := .aborted, conv := none }))
     h.ending ≠ .none ∧ h.endsNow = true) ∧ (cur (user (fun h => { h with ending := .aborted }))).endsNow = false ∧
    (let s := user (fun h => { h with lastCtx := 3 })
     (getHart s 0).lastCtx ≠ 5 ∧ (getHart s 0).lastCtx ≠ 0) ∧
    (let q (p : List Stalled) : Queue := { ctl := 0x8000000000020000, clus := 1, lead := 0, stalled := p }
     queueFull (q [.commit 7]) 0 = false ∧ queueFull (q [.unit 0]) 0 = false) ∧
    ((getHart State.reset 65536).st = .idle ∧ isEngine 65536 = true ∧ validHart 65536 = true ∧
     (getCore State.reset (coreOf 65536)).engFenced = false ∧ (getDev State.reset (devOfHart 65536)).off = false ∧
     (getCore xfer (coreOf 65536)).kicks = [{ ctx := 5, desc := 0x20040 }]) ∧
    (let h := getHart (roped 0 (fun h => { h with st := .parked, wait := .wfi })) 96
     h.wait = .wfi ∧ h.st = .parked ∧ h.inRope = true ∧ h.ropeMember ≠ 0) := by decide +kernel
/-- A released commit of task 7 with a buffered spawn for queue 1, which has no room. -/
def held (k : Task) (rest : Option (List Buffered)) : Commit := ⟨0, 0, k, 0, true, true, 0, 0, rest, 0⟩
theorem test_hyps_HartAndTaskSteps_commits :
    (let c := held (plainTask true) (some [])
     let s := { tasked (plainTask true) id with commits := [(7, c)] }
     SMap.find s.commits 7 = some c ∧ c.released = true ∧ sending s 7 = false ∧ c.rest = some [] ∧ (applyEntries c s []).2 = [] ∧
     sending (applyEntries c s []).1 7 = false) ∧
    (let c := held { plainTask true with buf := [.spawn 1 (List.replicate 16 0) 0] } none
     let s := { tasked (plainTask true) id with commits := [(7, c)] }
     (match fullQueue s c with | some (k, x) => k == 1 && !x.stalled.contains (.commit 7) | none => false) = true ∧ c.rest = none ∧
     partialPoison s 7 (resolveBytes s c.dev c.ctx (commitBytes c.task.buf)) = false) ∧
    (let c := held (plainTask true) none
     let s := { tasked (plainTask true) id with commits := [(7, c)] }
     (fullQueue s c).isNone = true ∧
     sending { s with ops := [(1, { hart := 0, counter := 0, scope := 2, task := 7 })] } 7 = true ∧
     sending (applyBuffered c s (.addTo 0 1)) c.task.uid = false) := by decide +kernel
theorem test_hyps_CommandNodes_walks : ({ strollAt none with ended := true } : Walk).ended = true ∧
    ({ strollAt none with cancelled := true } : Walk).cancelled = true ∧ ({ strollAt none with blocked := true } : Walk).blocked = true ∧
    (strollAt none).outstanding = [] ∧ ({ strollAt none with outstanding := [3] } : Walk).outstanding ≠ [] := by decide +kernel
theorem test_hyps_AdminRequests_records : office.forward = [] ∧ (∀ j < 64, homeLoc office (contextRecord 0 6 + j) = contextRecord 0 6 + j) ∧
    (∀ j < 64, homeLoc office (queueRecord 3 + j) = queueRecord 3 + j) := by
  have h (l : Nat) : homeLoc office l = l := by
    unfold homeLoc
    rw [show office.forward = [] from rfl]
    rfl
  exact ⟨rfl, fun j _ => h _, fun j _ => h _⟩
/-- A set that passes its checks is the best of a flash that holds it alone; whether one does rests on the root key, a free
value of Config (log 10). -/
theorem test_hyps_FirmwareAndResets_set (f : FlashSet) (ht : tableOk f.table = true) (hi : imageOk f.table f.image = true) :
    bestSet [f] = some f := by simp [bestSet, ht, hi]
theorem test_hyps_FirmwareAndResets_columns :
    (let s := { State.reset with devs := [(0, { booted := true, flash := [⟨[], [], 1⟩] })] }
     (getDev s (devOf 0)).booted = true ∧ roleOf s 11 ≠ 0 ∧ roleOf s 0 = 0 ∧ isTile (unitOf 11) = true ∧ dieOf 11 = 0) ∧
    (0 : Nat) ∈ hartsOf 0 ∧ isEngine 65536 = true ∧ ¬ max 4 (getDie (agreedDies true 0) 1).fwMin ≤ min 5 (getDie (agreedDies true 0) 1).fwMax := by
  decide +kernel
/-- Compression is on, and the home slice of line 0 holds it with sector 2 dirty. -/
def compressed (d : SMap Writer) : State :=
  let s := { user (fun h => { h with task := some (plainTask true) }) with devs := [(0, { cfg := [(0, { cmp := true, revMB := 0 })] })] }
  setLines s (setKey s 0 0) [{ line := 0, sectors := 4, dirty := d }]
theorem test_hyps_ErrorsAndPower_metadata :
    (let s := compressed [(2, ⟨0, 0, 0x80⟩)]
     classOf 0 = 0 ∧ metaReserved s (homeDev 0) = true ∧ (homeLine s 0x200).isNone = true ∧
     (match homeLine s 0 with | some y => y.dirty != [] && y.dirty.length != 8 | none => false) = true) ∧
    (match homeLine (compressed []) 0 with | some y => y.dirty == [] | none => false) = true ∧
    metaReserved State.reset (homeDev 0) = false ∧ classOf (2 ^ 46) ≠ 0 ∧
    (let s := { compressed [] with
       dies := [(0, { store := [⟨0, 7, 1, 3⟩, ⟨0, 8, 1, 4⟩] })]
       revs := [(7, { ctx := 0, parent := 0, die := 0, regions := [], copies := [(3, 0)] }),
         (8, { ctx := 0, parent := 0, die := 0, regions := [], copies := [(4, 0)] })] }
     (spilledOn s (512 % 256))[512 / 256]? = none ∧ (spilledOn s (0 % 256))[0 / 256]? = some ⟨0, 7, 1, 3⟩ ∧
     (spilledOn s (256 % 256))[256 / 256]? = some ⟨0, 8, 1, 4⟩ ∧ taskHart s 7 = some 0 ∧ (0 : Nat) ≠ noHart ∧ taskHart s 8 = none) := by
  decide +kernel
theorem test_hyps_LinksAndHost_training : (getDev cabled 0).off = false ∧ (8 : Nat) ≤ 8 ∧ (9 : Nat) ≠ 8 ∧
    (let s (tb : DWord) := { cabled with dies := [(0, { tb := tb })], tbStep := some (90, 200) }
     (getDie (s 89) 0).tb.toNat < 90 ∧ 90 ≤ (getDie (s 90) 0).tb.toNat ∧ (s 90).tbStep = some (90, 200) ∧
     routed (s 90) (devOf 3) 0 = true ∧ routed { State.reset with tbStep := some (90, 200) } (devOf 8) 0 = false) := by decide +kernel
/-- The placed hart with a refused load of `s11` whose trap is pending. -/
def refusedAt (reg : Nat) : State := modHart { placed with inputs := [] } 88 (fun h => { h with
  async := [⟨cREMOTENACK, 0, 0⟩], zeroed := [⟨⟨cREMOTENACK, 0, 0⟩, [.scalar reg]⟩] })
theorem test_hyps_OperationEvents_unread :
    (let h := getHart (refusedAt 11) 88
     h.st = .running ∧ h.conv = none ∧ h.ie = false ∧ h.ending = .none ∧ h.inRope = false ∧ h.stall = 0 ∧ h.yield = false ∧
     h.resume = false) ∧
    (∃ v t, fetchConvoy (modCore (refusedAt 11) (coreOf 88) (fun c => { c with lastHart := hartNo 88 })) 88
        (getHart (refusedAt 11) 88).pc = .ok v t ∧ (getHart t 88).inRope = false ∧ (getHart t 88).resume = false ∧
        headerOk (isTsc (unitOf (coreOf 88)) || isEngine 88) v.1 v.2 = true ∧
        readsRefused (modCore (refusedAt 11) (coreOf 88) (fun c => { c with lastHart := hartNo 88 })) v.1 v.2 88 = true) := by
  exact ⟨by decide +kernel, ok_of (fun (v : Word × List Word) (t : State) => (getHart t 88).inRope = false ∧
    (getHart t 88).resume = false ∧ headerOk (isTsc (unitOf (coreOf 88)) || isEngine 88) v.1 v.2 = true ∧
    readsRefused (modCore (refusedAt 11) (coreOf 88) (fun c => { c with lastHart := hartNo 88 })) v.1 v.2 88 = true)
      (by decide +kernel)⟩
theorem test_unread_register_does_not_hold_issue : readsRefused (refusedAt 13) 4 [0x16306080, 0, 0] 88 = false := by decide +kernel
theorem test_hyps_ConditionalBranches_alone : ∀ s ∈ [user args, user id, wide], (cur s).inRope = false ∧
    (cur s).curConv.crew = [] ∧ (cur s).recorded = none := by decide +kernel
theorem test_hyps_RopeDecisions_crew : (let s := roped 0 (fun h => { h with conv := h.conv.map (fun c => { c with crew := [0, 96] }) })
    96 ∈ crewOf s s.cur ∧ (cur s).curConv.crew ≠ [] ∧ ∃ r, (getHart s 96).conv = some r ∧ r.crew = (cur s).curConv.crew) ∧
    96 ∈ crewOf (roped 0 id) 0 := by
  refine ⟨⟨by decide +kernel, by decide +kernel, _, rfl, by decide +kernel⟩, by decide +kernel⟩
theorem test_hyps_ConvoyRetirement_three : ∃ c h, h = cur (user (fun h => { h with
      q := { pend := [5, 6, 7] }
      conv := some { hdr := 4, slot := 1 } })) ∧ h.conv = some c ∧ hdrNS c.hdr ≤ c.slot ∧
    h.q.pend = [5, 6, 7] := ⟨_, _, rfl, rfl, by decide +kernel, rfl⟩
/-- The convoy of hart hk is the branch `br.eq` alone, whose predicate removes it; its rulings are r. -/
def removedBranch (hk : Nat) (r : List (Nat × Ruling)) : State := roped hk (fun h =>
  let h := Hart.begin [] 0 (4 + 8 * 2 ^ 7) [0x12141810] h
  { h with conv := h.conv.map (fun c => { c with ctl := r }) })
theorem test_hyps_SlotChecks_rules :
    (let s := removedBranch 0 []
     allowed s s.cur 0x10 0 = true ∧ slotRemoved (cur s) 0x10 0 = true ∧
     leaderRules (fieldMajor (cur s).slotWord) (fieldFn (cur s).slotWord) (cur s).slotExt = true ∧ (cur s).recorded = none ∧
     isMember s s.cur = false) ∧ isMember (removedBranch 96 []) 96 = true ∧
    (∀ r ∈ ([.skipped, .decided (some 64, false)] : List Ruling), (cur (removedBranch 96 [(0, r)])).recorded = some r) ∧
    (let s := user (fun h => Hart.begin [] 0 (4 + 8 * 2 ^ 7) [0x12141880] h)
     slotRemoved (cur s) 0x00 1 = true ∧ leaderRules (fieldMajor (cur s).slotWord) (fieldFn (cur s).slotWord) (cur s).slotExt = false) ∧
    leaderRules 0x64 2 (some 0x34) = false ∧ leaderRules 0x64 2 (some 0x11) = true := by decide +kernel
theorem is_of_fin {v : FVal} {n : Bool} {k : Nat} {e : Int} (h : v = .fin n k e) (hk : k ≠ 0) :
    ∃ u : ℝ, v.Is u ∧ u ≠ 0 ∧ (0 < u ↔ n = false) := by
  subst h
  refine ⟨_, rfl, ?_, ?_⟩
  · have : ((k : ℝ)) ≠ 0 := by exact_mod_cast hk
    have h2 : (2 : ℝ) ^ e ≠ 0 := zpow_ne_zero e two_ne_zero
    cases n <;> simp [this, h2]
  · have : (0 : ℝ) < k := by exact_mod_cast Nat.pos_of_ne_zero hk
    have := mul_pos this (zpow_pos (two_pos (α := ℝ)) e)
    cases n
    · simpa using this
    · simp only [if_true, reduceCtorEq, iff_false, not_lt, neg_mul, one_mul]; linarith
/-- Codes of BF16: 1, its negative, both infinities, both zeros, the least subnormal. -/
theorem test_hyps_FloatCornersAndRounding_infinities :
    (∀ c ∈ [0x3F80, 0xBF80, 1, 0x8001, 0, 0x8000], (decodeF bf16 c).isNan = false ∧ (decodeF bf16 c).isInf = false) ∧
    (∀ n : Bool, decodeF bf16 (if n then 0xFF80 else 0x7F80) = .inf n) ∧ (decodeF bf16 0x3F80).isZero = false ∧
    (decodeF bf16 0).isZero = true ∧ (decodeF bf16 0x8000).neg = true ∧ (decodeF bf16 0).neg = false ∧
    ((decodeF bf16 0x7F80).isInf && !(decodeF bf16 0x3F80).isNan && !(decodeF bf16 0x3F80).isZero) = true ∧
    decodeF bf16 0x3F80 = .fin false 128 (-7) ∧ decodeF bf16 0x8001 = .fin true 1 (-133) := by decide +kernel
theorem test_hyps_FloatCornersAndRounding_estimates :
    (∃ u : ℝ, (decodeF bf16 0x3F80).Is u ∧ u ≠ 0 ∧ 0 < u) ∧ (∃ u : ℝ, (decodeF bf16 0x8001).Is u ∧ u ≠ 0 ∧ ¬ 0 < u) ∧
    (∃ u v : ℝ, (decodeF bf16 0x8001).Is u ∧ (decodeF bf16 0x3F80).Is v ∧ u < v) ∧
    (decodeF bf16 0x8000).Is 0 ∧ (decodeF bf16 0).Is 0 ∧ (decodeF bf16 0x8000).neg = true ∧ (decodeF bf16 0).neg = false := by
  obtain ⟨u, hu, hn, hp⟩ := is_of_fin (show decodeF bf16 0x3F80 = .fin false 128 (-7) by decide +kernel) (by decide)
  obtain ⟨v, hv, vn, vp⟩ := is_of_fin (show decodeF bf16 0x8001 = .fin true 1 (-133) by decide +kernel) (by decide)
  have hv0 : ¬ 0 < v := by simp [vp]
  refine ⟨⟨u, hu, hn, by simp [hp]⟩, ⟨v, hv, vn, hv0⟩, ⟨v, u, hv, hu, ?_⟩, ?_, ?_, by decide +kernel, by decide +kernel⟩
  · have : 0 < u := by simp [hp]
    linarith [not_lt.mp hv0]
  · rw [show decodeF bf16 0x8000 = .fin true 0 (-133) by decide +kernel]; simp [FVal.Is]
  · rw [show decodeF bf16 0 = .fin false 0 (-133) by decide +kernel]; simp [FVal.Is]
theorem test_hyps_Conversions_refusals :
    (let s := vecs 3 id
     (cur s).prefixLive = false ∧ (readV (curLocal s) 0 (cur s).grp).isSome = true ∧ 4 * 2 ^ (3 : BitVec 7).toNat ≤ (cur s).sew ∧
     (cur s).sew ≤ 4 * 2 ^ (3 : BitVec 7).toNat ∧ SlotRuns s 0x2A 0 ∧ SlotRuns s 0x2A 1 ∧ SlotRuns s 0x2A 2 ∧ SlotRuns s 0x2A 3) ∧
    (let s := vecs 3 (fun h => { h with hstat := pfx 0x02 2 127 })
     (0 : BitVec 7).toNat < 4 ∧ (cur s).prefixLive = true ∧ SlotRuns s 0x29 0 ∧ SlotRuns s 0x29 1 ∧ SlotRuns s 0x28 4 ∧
     (cur (vecs 3 (fun h => { h with hstat := pfx 0x08 2 127 }))).readPfx = some ⟨.mxe4, false, 2, noSpec⟩ ∧ (2 : BitVec 7) ≠ noSpec) := by
  unfold SlotRuns; decide +kernel
theorem test_hyps_Conversions_blockSources :
    (let s := vecs 1 (fun h => { h with hstat := pfx 0x08 127 127 })
     let q : Pfx := ⟨.mxe4, false, noSpec, noSpec⟩
     readV (curLocal s) 0 (cur s).grp = some v0 ∧ (cur s).prefixLive = true ∧ (cur s).readPfx = some q ∧ q.c = noSpec ∧
       q.f.isInt = false ∧ q.f.width = (cur s).sew ∧ q.f.block ≠ 0 ∧ (1 : BitVec 7).toNat < 4 ∧ q.b = noSpec ∧
       scalesFit q.f (cur s).len = true ∧ DestReady s 8 0 f32.width ∧ SlotRuns s 0x28 0 ∧ SlotRuns s 0x28 4) ∧
    (let s := vecs 1 (fun h => { h with hstat := pfx 0x08 2 127 })
     let q : Pfx := ⟨.mxe4, false, 2, noSpec⟩
     readV (curLocal s) 0 (cur s).grp = some v0 ∧ (cur s).prefixLive = true ∧ (cur s).readPfx = some q ∧
       q.f.isInt = false ∧ q.f.width = (cur s).sew ∧ DestReady s 8 0 64 ∧ q.f.block ≠ 0 ∧ (4 : BitVec 7).toNat = 4 ∧ q.b.toNat < 96 ∧
       readV (curLocal s) q.b 1 = some 0x3F8000003F800000 ∧ scalesFit q.f (cur s).len = true ∧
       overlaps q.b 1 0 (cur s).grp = false ∧ (∀ g, g ≤ 8 → overlaps q.b 1 8 g = false) ∧ SlotRuns s 0x28 1) := by
  refine ⟨⟨by decide +kernel, by decide +kernel, by decide +kernel, rfl, rfl, by decide +kernel, by decide +kernel,
    by decide +kernel, rfl, by decide +kernel, ⟨by decide +kernel, by decide +kernel, _, _, _, rfl, rfl, by decide +kernel⟩,
    by unfold SlotRuns; decide +kernel, by unfold SlotRuns; decide +kernel⟩, ⟨by decide +kernel, by decide +kernel,
    by decide +kernel, rfl, by decide +kernel, ⟨by decide +kernel, by decide +kernel, _, _, _, rfl, rfl, by decide +kernel⟩,
    by decide +kernel, by decide +kernel, by decide +kernel, by decide +kernel, by decide +kernel, by decide +kernel,
    fun g hg => ?_, by unfold SlotRuns; decide +kernel⟩⟩
  have : ∀ g ∈ List.range 9, overlaps 2 1 8 g = false := by decide +kernel
  exact this g (List.mem_range.mpr (by omega))
theorem test_hyps_Conversions_toBlocks : let s := vecs 3 (fun h => { h with hstat := pfx 0x08 2 127 })
    let q : Pfx := ⟨.mxe4, false, 2, noSpec⟩
    readV (curLocal s) 0 (cur s).grp = some v0 ∧ (cur s).prefixLive = true ∧ (cur s).readPfx = some q ∧ q.f.isInt = false ∧
    (8 : BitVec 7).toNat = 8 ∧ f32.width = (cur s).sew ∧ SlotRuns s 0x28 0 ∧ SlotRuns s 0x29 0 ∧ SlotRuns s 0x29 1 ∧ q.f.block ≠ 0 ∧
    q.b.toNat < 96 ∧ DestReady s 8 0 q.f.width ∧ ∃ g n, destShape (cur s) q.f.width = some (g, n) ∧
      readV (curLocal s) 8 g = some 0 ∧ readV (curLocal s) q.b 1 = some 0x3F8000003F800000 ∧ scalesFit q.f (cur s).len = true ∧
      overlaps q.b 1 0 (cur s).grp = false ∧ overlaps q.b 1 8 g = false :=
  ⟨by decide +kernel, by decide +kernel, by decide +kernel, rfl, by decide +kernel, by decide +kernel,
    by unfold SlotRuns; decide +kernel, by unfold SlotRuns; decide +kernel, by unfold SlotRuns; decide +kernel,
    by decide +kernel, by decide +kernel, ⟨by decide +kernel, by decide +kernel, _, _, _, rfl, rfl, by decide +kernel⟩, _, _, rfl,
    by decide +kernel, by decide +kernel, by decide +kernel, by decide +kernel, by decide +kernel⟩
theorem test_hyps_HintsAndMemoryEvents_ways : let s := hinting false
    let key := setKey s 0 (homeLoc s 0x20080)
    inCaddy s (homeLoc s 0x20080) = false ∧ 0 < openWays s (dieOfSet key) ∧
    (∀ z ∈ linesOf s key, z.revised = false ∧ (z.kept = true → z.way ≠ none)) ∧
    (let t := touchSector s 0 none 0x20080
     ∀ z ∈ linesOf t key, z.revised = false ∧ (z.kept = true → z.way ≠ none)) := by decide +kernel
theorem test_hyps_HintsAndMemoryEvents_engine :
    let s := { xfer with ops := [(1, { hart := 65536, counter := 0, scope := 0, refused := [⟨cREMOTENACK, 0, 0x20090⟩] })] }
    (∃ o, SMap.find s.ops 1 = some o ∧ o.refused ≠ [] ∧ o.fabric = [] ∧ o.rehome = [] ∧ isEngine o.hart = true ∧ o.counter = 0 ∧
      o.ret = []) ∧
    (∃ k ks, (getCore s (coreOf 65536)).kicks = k :: ks ∧ k.fault = none) ∧ isEngine 0 = false :=
  ⟨⟨_, rfl, by decide +kernel⟩, ⟨_, _, rfl, rfl⟩, by decide +kernel⟩
/-- Barrier 63 of the first cluster has its one arrival; barrier 62 of it has sent it that arrival. -/
def chained : State :=
  let c : Cluster := {
    bars := [(62, { cfg := 0xC000000000000001 + BitVec.ofNat 64 (63 * 2 ^ 46), arrivals := 1, sent := true }),
      (63, { cfg := 0xC000000000000001, arrivals := 1, sent := true, met := true })] }
  { user id with clusters := [(clusKey 0, c)] }
theorem test_hyps_EventUnits_chained :
    (let o := evGet chained (clusKey 0) 0 63
     o.v = true ∧ o.count ≤ o.arrivals ∧ o.chained = true ∧ o.met = true) ∧
    (let b := evGet chained (clusKey 0) 0 62
     b.v = true ∧ b.chained = true ∧ b.sent = true ∧ b.met = false ∧ b.parent = (clusKey 0, 63)) := by decide +kernel
theorem test_hyps_EventUnits_resumedWaits :
    let s := events 0 (fun h => { h with conv := h.conv.map (fun c => { c with resumed := true, bitpos := 1 }) }) 0
    (cur s).wait = .none ∧ (evGet s (clusKey (coreOf s.cur)) 1 63).usable (cur s) = true ∧ (cur s).curConv.resumed = true ∧
    (cur s).curConv.bitpos = 1 ∧ (cur s).idem = false ∧ SlotRuns s 0x14 6 := by unfold SlotRuns; decide +kernel
theorem test_hyps_MatrixInstructions_claims :
    (tileOf 124 = some 0 ∧ cbOf none = some 0 ∧ (8 : BitVec 7).toNat % 8 = 0 ∧ (16 : BitVec 7).toNat < 96) ∧
    ∀ s ∈ [{ mat 2 32 0 false with cores := [] }, mat 2 32 0 false],
      (ownsTile s s.cur 0 = false ∨ ownsTile s s.cur 0 = true ∧ ownsInfuser s s.cur = false) ∧
      SlotRuns s 0x45 2 ∧ SlotRuns s 0x45 3 ∧ (matrixFmt (cur s) 2).isSome = true ∧ (matrixFmt (cur s) 3).isSome = true ∧
      rowsOf (cur s) 16 = some 2 ∧ readV (curLocal s) 4 (cur s).grp = some 0 := by
  refine ⟨by decide +kernel, fun s hs => ?_⟩
  simp only [List.mem_cons, List.not_mem_nil, or_false] at hs
  rcases hs with rfl | rfl <;> (unfold SlotRuns; decide +kernel)
/-- One product of a scale group with scales a and b. -/
def oneGroup (v : FVal) (a b : Nat) : List ScaleGroup := [⟨[.val v], a, b⟩]
theorem test_hyps_MatrixInstructions_specials :
    (BFmt.mxe4, 16) ∈ ([(.mxe4, 16), (.mxe5, 2), (.mxi8, 31), (.mxe2, 27), (.kx8, 32), (.kx5, 32), (.kx3, 31)] : List (BFmt × Nat)) ∧
    (∃ g ∈ oneGroup (.fin false 3 0) 255 127, g.sa = 255 ∨ g.sb = 255) ∧
    Term.val (.nan false) ∈ (oneGroup (.nan false) 127 127).flatMap (fun g => g.terms) ∧
    (∀ n : Bool, let ts := (oneGroup (.inf n) 127 127).flatMap (fun g => g.terms)
      Term.val (.inf n) ∈ ts ∧ Term.val (.inf (!n)) ∉ ts ∧ Term.invalid ∉ ts ∧ (∀ b : Bool, Term.val (.nan b) ∉ ts) ∧
      ¬ ∃ g ∈ oneGroup (.inf n) 127 127, g.sa = 255 ∨ g.sb = 255) ∧
    (let ts := ([⟨[.val (.inf true), .val (.inf false), .invalid], 127, 127⟩] : List ScaleGroup).flatMap (fun g => g.terms)
     Term.val (.inf true) ∈ ts ∧ Term.val (.inf false) ∈ ts ∧ Term.invalid ∈ ts) ∧
    decodeF fa40 0 ≠ .inf false ∧ (decodeF fa40 0).isNan = false ∧ (decodeF fa40 fa40.nan).isNan = true ∧
    (∀ n : Bool, decodeF fa40 (infCode fa40 n) = .inf n) := by decide +kernel
theorem test_hyps_MatrixInstructions_sums : ∃ (S : Nat → ℝ) (E : Int), let gs := oneGroup (.fin false 3 0) 126 129
    (¬ ∃ g ∈ gs, g.sa = 255 ∨ g.sb = 255) ∧
    (∀ k g, gs[k]? = some g → ∃ (vs : List FVal) (xs : List ℝ), g.terms = vs.map Term.val ∧ List.Forall₂ FVal.Is vs xs ∧
      S k = xs.sum) ∧
    (∀ k, k < gs.length → (match gs[k]? with | some g => (g.sa : Int) + g.sb - 254 | none => 0) ≤ E) ∧
    (∃ k, k < gs.length ∧ (match gs[k]? with | some g => (g.sa : Int) + g.sb - 254 | none => 0) = E) ∧
    (decodeF fa40 0).Is 0 := by
  refine ⟨fun _ => 3, 1, by decide +kernel, ?_, ?_, ⟨0, by decide, by decide⟩, ?_⟩
  · intro k g h
    rcases k with _ | k <;> simp only [oneGroup, List.getElem?_cons_zero, List.getElem?_cons_succ, List.getElem?_nil,
      Option.some.injEq, reduceCtorEq] at h
    subst h
    exact ⟨[.fin false 3 0], [3], rfl, .cons (by simp [FVal.Is]) .nil, by simp⟩
  · intro k h; obtain rfl : k = 0 := by simpa [oneGroup] using h
    decide
  · obtain ⟨e, he⟩ : ∃ e, decodeF fa40 0 = .fin false 0 e := ⟨_, rfl⟩
    rw [he]; simp [FVal.Is]
theorem test_hyps_MatrixInstructions_between : List.Forall₂ FVal.Is [.fin false 3 0, .fin true 0 0] [3, 0] ∧
    (¬ ∀ v ∈ [FVal.fin false 3 0, .fin true 0 0], v.isZero = true ∧ v.neg = true) ∧
    List.Forall₂ FVal.Is [.fin true 0 0] [0] ∧ ∀ v ∈ [FVal.fin true 0 0], v.isZero = true ∧ v.neg = true :=
  ⟨.cons (by simp [FVal.Is]) (.cons (by simp [FVal.Is]) .nil), by decide +kernel, .cons (by simp [FVal.Is]) .nil, by decide +kernel⟩
/-- The stream of bytes 0x81 and 0xFF at 0x100 of the scratchpad, and a table of two bits: a symbol, an end entry, a link to a
sub-table of one bit at entry 4, and a code longer than the bits looked up. -/
def coded : State := spad 3 (fun h => { h with
  dtab := [(0, 0x42400005), (1, 0xC2000000), (2, 0x84200004), (3, 0x46000000), (5, 0x42000009)] })
/-- Byte j of the stream, and its n bits from q on. -/
def codeByte (j : Nat) : Nat := 0xFF81 >>> (8 * j) % 256
def codeBits (q n : Nat) : Nat := 0xFF81 >>> (q % 2 ^ 48) % 2 ^ n
theorem test_hyps_DecodeAndQuantise_stream : ∃ P : State → Prop, P coded ∧
    (∀ v, P v → (getHart v 0).dtab = (getHart coded 0).dtab ∧ ((getHart v 0).ie = false ∨ (getHart v 0).async = [])) ∧
    (∀ v j, P v → j < 2 → ∃ ps w, elemCheck v (agentOf v 0) .load (BitVec.ofNat 64 (0xE000000000000100 + j)) 1 1 .gather = .ok ps w ∧
      accRefusal w 0 .load ⟨0, BitVec.ofNat 64 (0xE000000000000100 + j), 1, ps⟩ = none ∧
      viewPieces w 0 (BitVec.ofNat 64 (0xE000000000000100 + j)) ps = codeByte j ∧ codeByte j < 256 ∧
      P (touchDirect w 0 0 false false [⟨0, BitVec.ofNat 64 (0xE000000000000100 + j), 1, ps⟩])) := by
  refine ⟨fun v => v = coded, rfl, fun v h => by subst h; exact ⟨rfl, .inr (by decide +kernel)⟩, fun v j h hj => ?_⟩
  subst h
  rcases j with _ | _ | j
  · exact ok_of (fun (ps : List (Nat × Nat)) (w : State) => accRefusal w 0 .load ⟨0, BitVec.ofNat 64 (0xE000000000000100 + 0), 1, ps⟩ = none ∧
      viewPieces w 0 (BitVec.ofNat 64 (0xE000000000000100 + 0)) ps = codeByte 0 ∧ codeByte 0 < 256 ∧
      touchDirect w 0 0 false false [⟨0, BitVec.ofNat 64 (0xE000000000000100 + 0), 1, ps⟩] = coded) (by decide +kernel)
  · exact ok_of (fun (ps : List (Nat × Nat)) (w : State) => accRefusal w 0 .load ⟨0, BitVec.ofNat 64 (0xE000000000000100 + 1), 1, ps⟩ = none ∧
      viewPieces w 0 (BitVec.ofNat 64 (0xE000000000000100 + 1)) ps = codeByte 1 ∧ codeByte 1 < 256 ∧
      touchDirect w 0 0 false false [⟨0, BitVec.ofNat 64 (0xE000000000000100 + 1), 1, ps⟩] = coded) (by decide +kernel)
  · omega
theorem test_hyps_DecodeAndQuantise_bits : ∀ q n i, (codeBits q n).testBit i =
    (decide (i < n) && (codeByte ((q % 2 ^ 48 + i) / 8)).testBit ((q % 2 ^ 48 + i) % 8)) := by
  intro q n i
  have h : (q % 2 ^ 48 + i) % 8 < 8 := Nat.mod_lt _ (by decide)
  simp only [codeBits, codeByte, Nat.testBit_mod_two_pow, Nat.testBit_shiftRight, show (256 : Nat) = 2 ^ 8 from rfl, h, decide_true,
    Bool.true_and, Nat.div_add_mod]
/-- The entries that the stream finds: at bit 1 the symbol, at 0 the end, at 6 the link and through it at 8 a symbol, at 7 the code that
is too long. -/
theorem test_hyps_DecodeAndQuantise_entries :
    let T (i : Nat) := SMap.get 0 (getHart coded 0).dtab i
    let In (q n : Nat) : Prop := q % 2 ^ 48 + n ≤ 8 * 2
    (let e := T (codeBits 1 2)
     In 1 2 ∧ bits e 31 30 = 1 ∧ bits e 29 25 = 1 ∧ bits e 24 21 = 2 ∧ In (1 + 1) 2) ∧ 2 ^ 2 ≤ 512 ∧ 512 < 0 + 2 ^ 10 ∧
    (In 0 2 ∧ bits (T (codeBits 0 2)) 31 30 = 3 ∧ bits (T (codeBits 0 2)) 29 25 = 1) ∧
    (let e := T (codeBits 6 2)
     In 6 2 ∧ bits e 31 30 = 2 ∧ bits e 29 25 = 2 ∧ bits e 24 21 = 1 ∧ bits e 8 0 = 4 ∧ In (6 + 2) 1 ∧
       bits (T (4 + codeBits 8 1)) 31 30 = 1 ∧ bits (T (4 + codeBits 8 1)) 29 25 = 1 ∧ In (8 + 1) 0) ∧
    (In 7 2 ∧ 2 < bits (T (codeBits 7 2)) 29 25) ∧ (In 7 3 ∧ bits (T (codeBits 7 3)) 31 30 = 0) := by decide +kernel
theorem test_hyps_DecodeAndQuantise_symbols :
    (∃ v c w, decodeSymbol 0 0xE000000000000100 1 6 0 2 0 1 coded = .sym v c w ∧ w = coded) ∧
    ∃ st c w, decodeSymbol 0 0xE000000000000100 0 6 0 2 0 0 coded = .stop st c w := by
  have h1 : (match decodeSymbol 0 0xE000000000000100 1 6 0 2 0 1 coded with | .sym _ _ w => decide (w = coded) | _ => false) = true := by
    decide +kernel
  have h2 : (match decodeSymbol 0 0xE000000000000100 0 6 0 2 0 0 coded with | .stop _ _ _ => true | _ => false) = true := by decide +kernel
  constructor
  · revert h1; cases decodeSymbol 0 0xE000000000000100 1 6 0 2 0 1 coded with
    | sym v c w => exact fun h => ⟨v, c, w, rfl, of_decide_eq_true h⟩
    | _ => exact fun h => nomatch h
  · revert h2; cases decodeSymbol 0 0xE000000000000100 0 6 0 2 0 0 coded with
    | stop v c w => exact fun _ => ⟨v, c, w, rfl⟩
    | _ => exact fun h => nomatch h
theorem test_hyps_DecodeAndQuantise_quotients : (4 : Nat) ∈ [4, 8, 16] ∧ (decodeF f32 0x7FC00000).isNan = true ∧
    (decodeF f32 0x80000000).isZero = true ∧ (decodeF f32 0xFF800000).isInf = true ∧ decodeF f32 0x7F800000 = .inf false ∧
    (decodeF f32 0x3F800000).isNan = false ∧ (decodeF f32 0x3F800000).isInf = false ∧
    ∃ u : ℝ, (decodeF f32 0x3F800000).Is u ∧ u ≠ 0 := by
  obtain ⟨u, hu, hn, -⟩ := is_of_fin (show decodeF f32 0x3F800000 = .fin false 8388608 (-23) by decide +kernel) (by decide)
  exact ⟨by decide, by decide +kernel, by decide +kernel, by decide +kernel, by decide +kernel, by decide +kernel, by decide +kernel, u, hu, hn⟩
theorem test_hyps_TransformResults_order : let s := spad 3 (fun h => { h with xcfg := 0x8000 })
    (cur s).kord = 2 ∧ selectOk (cur s) = true ∧ (decide (2 ≤ (cur s).kord) && (decodeF f32 0x3F800000).isNan) = false ∧
    (decide (2 ≤ (cur s).kord) && (decodeF f32 0x7FC00000).isNan) = true ∧
    startElem (cur (spad 3 (fun h => { h with conv := h.conv.map (fun c => { c with elem := 2, resumed := true }) }))) = 2 := by
  decide +kernel
theorem test_hyps_ForksAndSections_merges : (5, f32) ∈ ([(4, f16), (5, f32), (6, f64)] : List (Nat × Fmt)) ∧
    (6, 64) ∈ ([(0, 8), (1, 16), (2, 32), (3, 64), (4, 16), (5, 32), (6, 64)] : List (Nat × Nat)) ∧
    (∀ d ∈ (plainTask false).children, d.handle ≠ 0) ∧ (∀ d ∈ parentTask.children, d.handle ≠ 2) ∧
    ∀ i, i < 2 → ∃ d ∈ parentTask.children, d.handle = i := by decide +kernel
theorem test_hyps_ForksAndSections_performed : let s := { tasked { parentTask with children := [⟨0, 20, [], some 5⟩] } id with
      revs := [(20, ⟨0, 7, 0, [], [], []⟩)] }
    (match mergeChild s s.cur 20 with
      | .ok t => decide ((getHart t s.cur).task = some { parentTask with children := [⟨0, 20, [], some 5⟩] }) &&
          !sending t 7 && sending { t with ops := [(1, { hart := 0, counter := 0, scope := 2, task := 7 })] } 7
      | _ => false) = true ∧
    (match mergeChild { s with ops := [(1, { hart := 0, counter := 0, scope := 2, task := 7 })] } s.cur 20 with
      | .ok t => sending t 7 | _ => false) = true := by decide +kernel
theorem test_hyps_Channels_order :
    (let s := { chan0 with flights := [(6, ⟨0, 1, 1, [8]⟩), (7, ⟨0, 1, 1, [9]⟩)] }
     let upTo (k : Nat) (f : Flight) := s.flights.filter (fun p =>
        decide (p.1 ≤ k) && coreOf p.2.src == coreOf f.src && coreOf p.2.dst == coreOf f.dst)
     SMap.find s.flights 7 = some ⟨0, 1, 1, [9]⟩ ∧ upTo 7 ⟨0, 1, 1, [9]⟩ = [(6, ⟨0, 1, 1, [8]⟩), (7, ⟨0, 1, 1, [9]⟩)] ∧
     upTo 6 ⟨0, 1, 1, [8]⟩ = [(6, ⟨0, 1, 1, [8]⟩)] ∧
     (match exec (.messageArrival 6) s with | .next u => (SMap.find u.flights 6).isNone | _ => false) = true) ∧
    (cur (chan (fun _ h => { h with vl := 4 }))).selected 0 = true := by decide +kernel
/-- A node whose children 0 and 1 are the point 0, and the ray from 0 along x with tmin 0 and tmax 1. -/
def pointNode : Nat := 3 * 2 ^ (8 * 0x1F)
def xRay : List Nat := [0, 0, 0, 0x3F800000, 0, 0, 0, 0x3F800000]
theorem test_hyps_RayInstructions_boxes : xRay.length = 8 ∧ ∃ (r : Nat → Int) (lo hi : Nat → Nat → Int),
    (∀ j, j < 8 → Machine.extOf (xRay.getD j 0) = some (Ext.fin (r j))) ∧
    (∀ c, c < 8 → takesPart pointNode c = true → ∀ x, x < 3 →
      childSlab pointNode c x = some (Ext.fin (lo c x), Ext.fin (hi c x))) ∧
    hitList pointNode xRay % 16 = 2 ∧
    ∀ c, c < 2 → c < 8 ∧ takesPart pointNode c = true ∧ hitList pointNode xRay / 2 ^ (3 * c + 4) % 8 = c ∧
      (∀ x, x < 3 → r (3 + x) = 0 → lo c x ≤ r x ∧ r x ≤ hi c x) ∧
      IsGreatest ({(r 6 : ℚ) / 2 ^ 149} ∪ {q | ∃ x, x < 3 ∧ r (3 + x) ≠ 0 ∧
        q = min (((lo c x - r x : Int) : ℚ) / r (3 + x)) (((hi c x - r x : Int) : ℚ) / r (3 + x))}) 0 ∧
      (0 : ℚ) ≤ (r 7 : ℚ) / 2 ^ 149 := by
  refine ⟨rfl, fun j => if j = 3 ∨ j = 7 then 2 ^ 149 else 0, fun _ _ => 0, fun _ _ => 0, by decide +kernel, by decide +kernel,
    by decide +kernel, fun c hc => ?_⟩
  refine ⟨by omega, by revert c; decide +kernel, by revert c; decide +kernel, fun x hx _ => by dsimp only; rw [if_neg (by omega)]; simp, ⟨.inl (by simp), ?_⟩, ?_⟩
  · rintro q (hq | ⟨x, hx, hn, hq⟩)
    · simp at hq; exact hq.le
    · have : x = 0 := by
        by_contra h0
        exact hn (if_neg (by omega))
      subst this; simp at hq; exact hq.le
  · simp only [or_true, if_true]; positivity
/-- The triangle (-1, -1, 1), (1, -1, 1), (0, 1, 1), and rays from 0 along z with tmin 0 and tmax 2 or 0. -/
def triRecord : Nat := ([0xBF800000, 0xBF800000, 0x3F800000, 0x3F800000, 0xBF800000, 0x3F800000, 0, 0x3F800000, 0x3F800000] :
  List Nat).zipIdx.foldl (fun v p => v + p.1 * 2 ^ (32 * p.2)) 0
def zRay (tmax : Nat) : List Nat := [0, 0, 0, 0, 0, 0x3F800000, 0, tmax]
theorem test_hyps_RayInstructions_triangle :
    let one : Int := 2 ^ 149
    let o : Vec := ⟨0, 0, 0⟩
    let d : Vec := ⟨0, 0, one⟩
    let v0 : Vec := ⟨-one, -one, one⟩
    let v1 : Vec := ⟨one, -one, one⟩
    let v2 : Vec := ⟨0, one, one⟩
    let U := d.dot ((v1.sub o).cross (v2.sub o))
    let V := d.dot ((v2.sub o).cross (v0.sub o))
    let W := d.dot ((v0.sub o).cross (v1.sub o))
    let D := U + V + W
    let T := (v0.sub o).dot ((v1.sub v0).cross (v2.sub v0))
    vecOf 0 0 0 = some o ∧ vecOf 0 0 0x3F800000 = some d ∧ Machine.extOf 0 = some (Ext.fin 0) ∧
    Machine.extOf 0x40000000 = some (Ext.fin (2 * one)) ∧
    vecOf (part triRecord 0 4) (part triRecord 4 4) (part triRecord 8 4) = some v0 ∧
    vecOf (part triRecord 12 4) (part triRecord 16 4) (part triRecord 20 4) = some v1 ∧
    vecOf (part triRecord 24 4) (part triRecord 28 4) (part triRecord 32 4) = some v2 ∧
    D ≠ 0 ∧ ((0 ≤ U ∧ 0 ≤ V ∧ 0 ≤ W) ∨ (U ≤ 0 ∧ V ≤ 0 ∧ W ≤ 0)) ∧
    ((0 : Int) : ℚ) / 2 ^ 149 ≤ (T : ℚ) / D ∧ (T : ℚ) / D ≤ ((2 * one : Int) : ℚ) / 2 ^ 149 ∧
    ¬ (T : ℚ) / D ≤ ((0 : Int) : ℚ) / 2 ^ 149 := by decide +kernel
/-- The descriptor of the texture of one texel, and its level and position at coordinates 0. -/
def oneTexel : Nat := 5 * 2 ^ 8 + 0xE0 * 2 ^ 56 + 2 * 2 ^ 96
theorem test_hyps_TexturesAndMeshes_blend : txOk oneTexel = true ∧ Machine.extOf 0 = some (Ext.fin 0) ∧
    (∃ r : Int, |((0 : Int) : ℝ) / 2 ^ 149 - r| ≤ 1 / 2 ∧ (|((0 : Int) : ℝ) / 2 ^ 149 - r| = 1 / 2 → r % 2 = 0) ∧
      ((0 : Nat) : Int) = min (max r 0) (txLm1 oneTexel)) ∧
    levelW oneTexel 0 = 1 ∧ levelH oneTexel 0 = 1 ∧
    (∃ r : Int, |256 * (((0 : Int) : ℝ) / 2 ^ 149 * (1 : Nat) - 1 / 2) - r| ≤ 1 / 2 ∧
      (|256 * (((0 : Int) : ℝ) / 2 ^ 149 * (1 : Nat) - 1 / 2) - r| = 1 / 2 → r % 2 = 0) ∧
      (-128 : Int) = max (-2 ^ 31) (min r (2 ^ 31 - 1))) ∧
    (∀ j, j < 2 → wrapCoord (txWrapU oneTexel) ((-128) / 256 + (j : Nat)) 1 = 0 ∧
      wrapCoord (txWrapV oneTexel) ((-128) / 256 + (j : Nat)) 1 = 0) ∧
    (∃ v u, fetchElem (textured id id) 0 (BitVec.ofNat 64 (texelAddr oneTexel 0 0 0).1) (texelAddr oneTexel 0 0 0).2 1 .gather = .ok v u ∧
      u = textured id id ∧ ∀ k, k < 4 → (match (texelOf oneTexel v 0 0).getD k (.unorm 0 255) with
        | .unorm n m => decide (n ≤ m ∧ m = 255) | .flt _ => false) = true) := by
  refine ⟨by decide +kernel, by decide +kernel, ⟨0, by norm_num, by norm_num, by decide +kernel⟩, by decide +kernel, by decide +kernel,
    ⟨-128, by norm_num, by norm_num, by decide +kernel⟩, by decide +kernel, got_of (fun (v : Nat) (u : State) => u = textured id id ∧
      ∀ k, k < 4 → (match (texelOf oneTexel v 0 0).getD k (.unorm 0 255) with
        | .unorm n m => decide (n ≤ m ∧ m = 255) | .flt _ => false) = true) (by decide +kernel)⟩
/-- The task of launch 3 at 0x4000; with `one`, it names the input tile of `tileDesc`, whose descriptor stands at 0x20040. -/
def dueEntry (one : Bool) : QEntry :=
  let ws : List DWord := if one then [0x4000, 0x10, 0, 0, 0, 0, 0, 0, 0, 0, 0, 0, 0, 0, 0x20040, 0] else 0x4000 :: List.replicate 15 0
  { seq := 1, kind := 0, words := ws, launch := 3, ginst := 0, ctx := 5 }
def dueLaunch : Launch := { dev := 0, ctx := 5, ginst := 0, vchunks := 3, spad := 1, harts := 8, mesh := false, live := 1 }
/-- It is the one entry of queue 0 of context 5 on die 0, whose tasks may run on the clusters of cl; without `one`, queue 1 is
empty. -/
def dueState (one : Bool) (cl : Nat) : State :=
  { paged [(0x0, 1), (0x2, 1), (0x10000, 3), (0x10002, 0xC0), (0x10003, 0x13), (0x10008, 1), (0x1000A, 3),
      (0x20040, 0x80), (0x20042, 2), (0x2004C, 2), (0x2004E, 1), (0x20058, 9), (0x30000, 1), (0x30001, 0x10), (0x30002, 3),
      (0x31008, 3), (0x3100A, 0xC0), (0x3100B, 3), (0x3100C, 0x20)] with
    queues := (0, { ctl := 0x8000000500020100, clus := cl, lead := 0, entries := [dueEntry one], count := 1 }) ::
      if one then [] else [(1, { ctl := 0x8000000500020100, clus := cl, lead := 0 })]
    launches := [(3, dueLaunch)] }
/-- What a write of records does: memory alone changes, and only from their address on. -/
def KeptBelow (b : Nat) (s t : State) : Prop := t = { s with mem := t.mem } ∧ ∀ a < b, readByte t a = readByte s a
theorem keptBelow_writeN {s : State} (hf : s.forward = []) {b a : Nat} (n v : Nat) (h : b ≤ a) : KeptBelow b s (writeN s a n v) :=
  ⟨writeN_frame s a n v, fun x hx => readByte_writeN_other s a n v x hf (.inl (by omega))⟩
theorem KeptBelow.trans {b : Nat} {s t u : State} (h : KeptBelow b s t) (k : KeptBelow b t u) : KeptBelow b s u := by
  refine ⟨?_, fun a ha => (k.2 a ha).trans (h.2 a ha)⟩
  rw [k.1, h.1]
theorem KeptBelow.forward {b : Nat} {s t : State} (h : KeptBelow b s t) : t.forward = s.forward := by rw [h.1]
theorem keptBelow_foldl {α : Type} {b : Nat} {f : State → α → State} (hf : ∀ t x, t.forward = [] → KeptBelow b t (f t x)) :
    ∀ (l : List α) (s : State), s.forward = [] → KeptBelow b s (l.foldl f s)
  | [], _, _ => ⟨rfl, fun _ _ => rfl⟩
  | x :: l, s, h => (hf s x h).trans (keptBelow_foldl hf l (f s x) ((hf s x h).forward.trans h))
theorem keptBelow_records {s : State} (hf : s.forward = []) : KeptBelow (2 ^ 30) s (syncQueues s 0) := by
  unfold syncQueues writeRecordWords
  apply keptBelow_foldl _ _ _ hf
  intro t p ht
  apply keptBelow_foldl _ _ _ ht
  intro u w hu
  apply keptBelow_writeN hu
  unfold queueRecord tableBase
  have := Nat.mod_lt (Config.recordTable (p.1 / 4096)) (show 0 < 2 ^ 14 by decide)
  omega
/-- The same a nanosecond later. -/
def clocked (one : Bool) (cl : Nat) : State := modDie (dueState one cl) 0 (tickTime none)
theorem ticked (one : Bool) (cl : Nat) (hcl : (one, cl) ∈ [(false, 1), (true, 1), (true, 0)]) :
    KeptBelow (2 ^ 30) (clocked one cl) (tickDie (dueState one cl) 0) := by
  have h : ∃ x, tickDie (dueState one cl) 0 = syncQueues x 0 ∧ x = clocked one cl := by
    simp only [List.mem_cons, List.not_mem_nil, or_false, Prod.mk.injEq] at hcl
    rcases hcl with ⟨rfl, rfl⟩ | ⟨rfl, rfl⟩ | ⟨rfl, rfl⟩ <;> exact ⟨_, rfl, by decide +kernel⟩
  obtain ⟨x, h1, h2⟩ := h
  rw [h1, h2]
  exact keptBelow_records (by rfl)
set_option maxRecDepth 100000 in
theorem undropped (one : Bool) (cl : Nat) (hcl : (one, cl) ∈ [(false, 1), (true, 1), (true, 0)]) (m : List Host.Cell) :
    dropAll { clocked one cl with mem := m } 0 = { clocked one cl with mem := m } := by
  simp only [List.mem_cons, List.not_mem_nil, or_false, Prod.mk.injEq] at hcl
  rcases hcl with ⟨rfl, rfl⟩ | ⟨rfl, rfl⟩ | ⟨rfl, rfl⟩ <;> rfl
/-- The state in which the search of the cycle begins. -/
theorem dispatched (one : Bool) (cl : Nat) (hcl : (one, cl) ∈ [(false, 1), (true, 1), (true, 0)]) :
    ∃ m, dropAll (tickDie (dueState one cl) 0) 0 = { clocked one cl with mem := m } ∧
      ∀ a < 2 ^ 30, readByte { clocked one cl with mem := m } a = readByte (clocked one cl) a := by
  obtain ⟨h1, h2⟩ := ticked one cl hcl
  generalize tickDie (dueState one cl) 0 = t at h1 h2
  generalize t.mem = m at h1
  subst h1
  exact ⟨m, undropped one cl hcl m, h2⟩
theorem test_hyps_HartAndTaskSteps_dispatch : (getDev (dueState false 1) (devOf 0)).off = false ∧
    (let u := dropAll (tickDie (dueState false 1) 0) 0
     let e := dueEntry false
     (∃ q, SMap.find u.queues 0 = some q ∧ q.kind = 0 ∧ q.ordd = false ∧ q.fenced = false ∧ q.entries = [e] ∧
       beforeLead q e (getDie u 0).tb.toNat = false ∧ freeHarts u q e dueLaunch [] 0 ≠ []) ∧
     servedQueues u 0 = [0, 1] ∧ e.aside = none ∧ e.staged = none ∧ e.tiles = none ∧ SMap.find u.launches e.launch = some dueLaunch ∧
     entryRope dueLaunch e = 0 ∧ consider u 0 e dueLaunch = .ok [] ∧
     List.Pairwise (fun i j => i % 4096 < j % 4096) (servedQueues u 0) ∧ isEarly e (getDie u 0).tb.toNat = false ∧ u.tokens = [] ∧
     (∃ r, SMap.find u.queues 1 = some r ∧ r.entries = []) ∧ (0 : Nat) ∈ (diesOfDev (0 / 4096)).flatMap tilesOfDie) := by
  obtain ⟨m, hm, -⟩ := dispatched false 1 (by decide)
  rw [hm]
  refine ⟨by decide +kernel, ⟨_, rfl, by decide +kernel, by decide +kernel, by decide +kernel, rfl, ?_, ?_⟩, rfl, rfl, rfl, rfl, rfl, rfl,
    rfl, ?_, ?_, rfl, ⟨_, rfl, rfl⟩, by decide +kernel⟩
  · rfl
  · show _ :: _ ≠ []; exact List.cons_ne_nil _ _
  · show List.Pairwise _ [0, 1]; decide
  · rfl
theorem readN_below {s t : State} {b : Nat} (h : ∀ a < b, readByte t a = readByte s a) : ∀ n a, a + n ≤ b → readN t a n = readN s a n
  | 0, _, _ => rfl
  | n + 1, a, ha => by rw [readN, readN, h a (by omega), readN_below h n (a + 1) (by omega)]
theorem test_hyps_HartAndTaskSteps_staging :
    (let u := dropAll (tickDie (dueState true 1) 0) 0
     let e := dueEntry true
     servedQueues u 0 = [0] ∧ consider u 0 e dueLaunch = .ok [tileDesc] ∧
     (∃ q, SMap.find u.queues 0 = some q ∧ q.entries = [e] ∧ freeHarts u q e dueLaunch [tileDesc] 0 ≠ []) ∧
     ∀ c, tileReady (getCore u c) e.launch e.uid tileDesc = false) ∧
    (let u := dropAll (tickDie (dueState true 0) 0) 0
     servedQueues u 0 = [0] ∧ ∃ q, SMap.find u.queues 0 = some q ∧ q.entries = [dueEntry true] ∧
       ∀ l ds c, freeHarts u q (dueEntry true) l ds c = []) := by
  obtain ⟨m, hm, hr⟩ := dispatched true 1 (by decide)
  obtain ⟨n, hn, -⟩ := dispatched true 0 (by decide)
  rw [hm, hn]
  refine ⟨⟨rfl, ?_, ⟨_, rfl, rfl, ?_⟩, fun c => rfl⟩, rfl, _, rfl, rfl, fun l ds c => ?_⟩
  · have p : Paged { clocked true 1 with mem := m } := by
      refine ⟨rfl, ?_, ?_, rfl, rfl, rfl, ?_⟩
      · rw [readN_below hr 8 0 (by decide)]; decide +kernel
      · rw [readN_below hr 8 0x10000 (by decide)]; decide +kernel
      · exact fun d hd => .inr rfl
    have w := paged_words p 4 0x20040 (by decide)
    have e : (List.range 4).map (fun k => BitVec.ofNat 64 (readN { clocked true 1 with mem := m } (0x20040 + 8 * k) 8)) = tileDesc := by
      rw [List.map_congr_left (fun k hk => by
        rw [readN_below hr 8 (0x20040 + 8 * k) (by have := List.mem_range.mp hk; omega)])]
      decide +kernel
    rw [e] at w
    show readDescs _ 0 5 4096 0x20040 1 = _
    rw [readDescs, w]
    rfl
  · show _ :: _ ≠ []; exact List.cons_ne_nil _ _
  · simp [freeHarts]
/-- One byte of task 7's buffered store goes to a poisoned sector of the scratchpad; the whole sector's do not write part of it. -/
theorem test_hyps_HartAndTaskSteps_poisoned :
    (let st (n : Nat) : Buffered := .store 0 ((List.range n).map (fun j => (0xE100000000000100 + j, (1 : Byte)))) none false
     let c (n : Nat) := held { plainTask true with buf := [st n] } none
     let s (n : Nat) := { tasked (plainTask true) id with commits := [(7, c n)], poison := [((scratchBase + 0x100) / 64, true)] }
     (c 1).rest = none ∧ (c 1).released = true ∧ sending (s 1) 7 = false ∧
     partialPoison (s 1) 7 (resolveBytes (s 1) (c 1).dev (c 1).ctx (commitBytes (c 1).task.buf)) = true ∧
     isPoisoned (s 64) (scratchBase + 0x100) = true ∧
     partialPoison (s 64) 7 (resolveBytes (s 64) (c 64).dev (c 64).ctx (commitBytes (c 64).task.buf)) = false) ∧
    (getDev { State.reset with devs := [(0, { dead := true })] } 0).down = true ∧ (getDev State.reset 0).down = false := by
  decide +kernel
/-- Beside the context of `away`, hart 1 of the core has left with context 6. -/
def awayTwo : State := { away with
  harts := [(0, { st := .preempted, packed := some awayPacked }), (1, { st := .preempted, packed := some { awayPacked with ctxid := 6 } })] }
theorem test_hyps_HartAndTaskSteps_returns : leavingOn awayTwo 0 = [] ∧ (1 : Nat) ∈ hartsOf 0 ∧
    (∀ p, (getHart awayTwo 1).packed = some p → p.ctxid ≠ awayPacked.ctxid) := by
  refine ⟨by decide +kernel, by decide +kernel, fun p hp => ?_⟩
  have e : (getHart awayTwo 1).packed = some { awayPacked with ctxid := 6 } := by decide +kernel
  rw [e] at hp
  cases hp
  decide
theorem test_hyps_HartAndTaskSteps_engine :
    let s (l : Nat) : State := { xfer with harts := [(65536, { lastCtx := l })] }
    (∃ j js, (getCore (s 3) (coreOf 65536)).kicks = j :: js ∧ (getHart (s 3) 65536).lastCtx ≠ j.ctx ∧ (getHart (s 3) 65536).lastCtx ≠ 0 ∧
      (getHart (s 5) 65536).lastCtx = j.ctx) ∧ (getHart (s 3) 65536).st = .idle := by
  exact ⟨⟨_, _, rfl, by decide +kernel, by decide +kernel, by decide +kernel⟩, by decide +kernel⟩
theorem test_hyps_CommandNodes_begun :
    (let x : Walk := { strollAt none with cancelled := true }
     x.blocked = false ∧ x.cancelled = true ∧ x.begun = false ∧ x.outstanding = []) ∧
    (let x : Walk := { strollAt none with cancelled := true, begun := true }
     x.blocked = false ∧ x.begun = true ∧ x.ended = false) := by decide +kernel
theorem test_hyps_FirmwareAndResets_mail :
    (let s := agreedDies true 3
     (0 : Nat) ≠ 1 ∧ devOf 0 = devOf 1 ∧ max 1 (getDie s 1).fwMin ≤ min 2 (getDie s 1).fwMax ∧ (getDie s 1).fwUp = true) ∧
    (let d := getDie (agreedDies false 3) 1
     d.fwUp = false ∧ (boxOf d (dieNo 0)).length < 16 ∧ d.mailWait.filter (fun p => p.1 == dieNo 0) = []) := by decide +kernel
theorem test_hyps_FirmwareAndResets_boots :
    let s := { State.reset with devs := [(0, { booted := true, flash := [⟨[], [], 1⟩] })] }
    let u := quitDie ((contextsOn s 0).foldl (fun t c => fenceContext t (devOf 0) c 10 (firstHartOn s 0 c) 0) s) 0
    (getDev u (devOf 0)).booted = true ∧ (getDev u (devOf 0)).down = false ∧ u.forward = [] ∧ routed u (devOf 0) 0 = true ∧
    (getDie { u with dies := [(1, { fwUp := true })] } 1).fwUp = true ∧ isTsc (unitOf (tscOf (clusKey 0))) = true := by decide +kernel
theorem test_hyps_ErrorsAndPower_lines :
    (let s (mb : Nat) := { State.reset with devs := [(0, { cfg := [(0, { cmp := true, caddyMB := mb, caddyB := 0 })] })] }
     inCaddy (s 1) 0x200 = true ∧ inCaddy (s 0) 0x200 = false ∧ classOf 0x200 = 0 ∧ metaReserved (s 0) (homeDev 0x200) = true) ∧
    (match homeLine (compressed []) 0 with | some y => y.dirty == [] && y.sectors != 0xFF | none => false) = true ∧
    (let s := compressed []
     match homeLine (setLines s (setKey s 0 0) [{ line := 0, sectors := 0xFF, dirty := [] }]) 0 with
       | some y => y.dirty == [] && y.sectors == 0xFF | none => false) = true ∧
    (match homeLine (compressed ((List.range 8).map (fun j => (j, (⟨0, 0, 0x80⟩ : Writer))))) 0 with
      | some y => y.dirty.length == 8 | none => false) = true ∧
    metaReserved (compressed []) (homeDev 0) = true ∧ inCaddy (compressed []) 0 = false := by decide +kernel
theorem test_hyps_ErrorsAndPower_records :
    (let s : State := { State.reset with harts := [(3, { st := .running, ctxid := 5, spill := [(1, [[7], [8]])] })] }
     (spilledOn s (256 % 256)).length ≤ 256 / 256 ∧ (spilledMsgs s (256 % 256))[256 / 256 - (spilledOn s (256 % 256)).length]? = some (3, 1, 1) ∧
     (spilledMsgs s (512 % 256))[512 / 256 - (spilledOn s (512 % 256)).length]? = none ∧
     (∃ q ∈ s.harts, devOfHart q.1 = 5 / 65536 ∧ q.2.ctxid.toNat = 5 % 65536 ∧ q.2.st ≠ .idle) ∧
     ∀ q ∈ s.harts, ¬ (devOfHart q.1 = 6 / 65536 ∧ q.2.ctxid.toNat = 6 % 65536 ∧ q.2.st ≠ .idle)) ∧
    validHart 0 = true ∧ validHart noHart = false ∧ isEngine 0 = false := by decide +kernel
theorem test_hyps_LinksAndHost_fenced :
    (getDev { State.reset with devs := [(0, { dead := true })] } 0).down = true ∧ (getDev cabled 1).down = false ∧
    (let s := { State.reset with devs := [(0, { rlstat := [(0, 3)], ethstat := [(0, 3)], trained := [0, 7] })] }
     portState s 0 0 = 3 ∧ portState s 0 7 = 3) := by decide +kernel
theorem test_hyps_SystemRegisters_crew :
    let s := roped 0 inTask
    (crewOf s 0).Nodup ∧ (∀ m ∈ crewOf s 0, (getHart s m).curConv.crew = (cur s).curConv.crew) ∧ (cur s).inRope = true ∧
    (cur (fw id)).inRope = false ∧ (cur (fw id)).curConv.crew = [] ∧ (cur s).recorded = none := by decide +kernel

end Sys2Proof.Tests
end

section
/-! SUPPORT. Reset values (R9, R26, R28) and the retirement of a convoy (R16, R74, R96). -/
namespace Sys2Proof.Machine
open Sys2Proof

/-- A hart register reads 0 at reset, but for HSTAT, VCFG and ORDTMO (R28, R30, R36). -/
theorem reg_atReset (fw : Bool) (n : Nat) (v : DWord) (hv : (Hart.atReset fw).reg n = some v)
    (h0 : n ≠ 0x000) (h1 : n ≠ 0x010) (h2 : n ≠ 0x071) : v = 0 := by
  unfold Hart.atReset Hart.reg at hv
  split at hv
  case h_1 | h_8 | h_19 => contradiction
  case h_20 => cases hv
  all_goals
    obtain rfl := Option.some.inj hv
    cases fw <;> rfl

/-- The registers of a core and of a die read 0 at reset, but for HARTID, CORE and ORDTMO (R29, R38, R197, R305, R319). -/
theorem sysReg_reset (hk n : Nat) (h0 : n ≠ 0x000) (h1 : n ≠ 0x010) (h2 : n ≠ 0x071) (h3 : n ≠ 0x021) (h4 : n ≠ 0x022) :
    sysReg State.reset hk n = 0 := by
  unfold sysReg
  split
  · next v hv => exact reg_atReset _ n v hv h0 h1 h2
  · simp only [h3, h4, if_false]
    split_ifs
    · rfl
    · unfold Core.accown; split <;> rfl
    · unfold Core.atsat; split <;> rfl
    all_goals rfl

/-- Settles O38: every register by the reset values of `Hart` and `Core`, and the tables of the node listing nothing. -/
theorem resetValues : Obligations.ResetValues := by
  intro hk n s
  have hart : getHart s hk = Hart.atReset (isFwCore s (coreOf hk) && !isEngine hk) := rfl
  have fields (fw : Bool) : (Hart.atReset fw).vcfg = 0x7003 ∧ (Hart.atReset fw).ordtmo = 0x100000 ∧
      (Hart.atReset fw).hstat = (if fw then 3 else 0) ∧ (Hart.atReset fw).st = .idle ∧ (Hart.atReset fw).conv = none ∧
      (Hart.atReset fw).task = none ∧ (Hart.atReset fw).async = [] ∧ (Hart.atReset fw).chunks = [] := by
    cases fw <;> decide
  obtain ⟨hvcfg, hord, hstat, hst, hconv, htask, hasync, hchunks⟩ := fields (isFwCore s (coreOf hk) && !isEngine hk)
  refine ⟨fun _ hn => ?_, ?_, ?_, ?_, hst, hconv, htask, hasync, ?_, rfl, rfl, rfl, rfl, rfl, rfl, rfl⟩
  · simp only [List.mem_cons, List.not_mem_nil, or_false, not_or] at hn
    obtain ⟨h0, h1, h3, h4, h2⟩ := hn
    exact sysReg_reset hk n h0 h1 h2 h3 h4
  · simpa only [sysReg, hart, Hart.reg] using hvcfg
  · simpa only [sysReg, hart, Hart.reg] using hord
  · simpa only [sysReg, hart, Hart.reg] using hstat
  · rw [hart, Hart.valloc, hchunks]; rfl
/-- A convoy past its last slot does nothing but retire (R68, R74). -/
theorem runConvoy_past (s : State) (hk : Nat) (c : Conv) (hc : (getHart s hk).conv = some c) (hn : hdrNS c.hdr ≤ c.slot) :
    runConvoy s hk = setHart s hk (getHart s hk).retire := by
  simp [runConvoy, runSlots, hc, hn, modHart]

/-- What a hart holds after its convoy has retired (R16, R74, R96, R275). -/
theorem retire_eq (h : Hart) (c : Conv) (hc : h.conv = some c) :
    h.retire = { h with
      q := h.q.retire, pc := c.target.getD (h.pc + 16), conv := none, hepc := if c.ret then 0 else h.hepc,
      cvr := if c.ret then 0 else h.cvr, vri := if c.ret then 0 else h.vri,
      stall := (if hdrVer c.hdr = 1 then hdrHint c.hdr else 0) % 8,
      yield := h.yield || decide (8 ≤ if hdrVer c.hdr = 1 then hdrHint c.hdr else 0) } := by
  simp only [Hart.retire, hc]

/-- A last-result file with nothing pending is kept at retirement (R16). -/
theorem QFile.retire_of_pend_nil (q : QFile) (hp : q.pend = []) : q.retire = q := by
  obtain ⟨q0, q1, q2, q3, pend⟩ := q
  subst hp
  rfl

/-- Settles O12, by the one way in which a convoy retires. -/
theorem convoyRetirement : Obligations.ConvoyRetirement := by
  intro s hk h c u v w hh hc hn
  subst hh
  refine ⟨(getHart s hk).retire, runConvoy_past s hk c hc hn, ?_⟩
  rw [retire_eq _ c hc]
  refine ⟨rfl, fun t ht => by simp [ht], fun ht => by simp [ht], QFile.retire_of_pend_nil _, fun hp => ?_, fun hp => ?_,
    fun hp => ?_, fun hr => by simp [hr], fun hr => by simp [hr], fun h1 => by simp [h1], fun h1 => by simp [h1],
    rfl, rfl, rfl, rfl⟩
  all_goals simp [QFile.retire, QFile.shift, hp]
end Sys2Proof.Machine
end

section
/-! SUPPORT. Scalar results and refused scalar operands (R10, R14 to R16, R70, R83). -/
namespace Sys2Proof.Machine
open Sys2Proof

/-! ## Scalar writes and pushes -/

/-- A write to `s0` to `s95` reaches the physical register WBASE.S + n alone (R10). -/
theorem writeS_scalar (h : Hart) (a : BitVec 7) (v : DWord) (ha : a.toNat < 96) :
    writeS h a v = { h with sregs := SMap.set 0 h.sregs (h.sIndex a.toNat) v } := by
  simp [writeS, ha]

/-- A write to `o0` to `o15` clears the bits above 63 (R14). -/
theorem writeS_operand (h : Hart) (a : BitVec 7) (v : DWord) (ha : 96 ≤ a.toNat) (hb : a.toNat < 112) :
    writeS h a v = { h with oregs := SMap.set 0 h.oregs (a.toNat - 96) (v.setWidth 1024) } := by
  simp [writeS, Nat.not_lt.mpr ha, hb]

/-- A write to any other specifier changes nothing (R70). -/
theorem writeS_other (h : Hart) (a : BitVec 7) (v : DWord) (ha : 112 ≤ a.toNat) : writeS h a v = h := by
  simp [writeS, show ¬ a.toNat < 96 by omega, show ¬ a.toNat < 112 by omega]

/-- The last-result file after a push (R15, R16). -/
theorem push_q (h : Hart) (v : VReg) :
    (push h v).q = if h.holdsPushes then { h.q with pend := h.q.pend ++ [v] } else h.q.shift v := by
  unfold push
  split <;> rfl

@[simp] theorem result_sregs (h : Hart) (a : BitVec 7) (v : DWord) : (h.result a v).sregs = (writeS h a v).sregs := by
  rw [Hart.result, pushS, push_frame]

@[simp] theorem result_oregs (h : Hart) (a : BitVec 7) (v : DWord) : (h.result a v).oregs = (writeS h a v).oregs := by
  rw [Hart.result, pushS, push_frame]

@[simp] theorem writeS_q (h : Hart) (a : BitVec 7) (v : DWord) : (writeS h a v).q = h.q := by rw [writeS_frame]

@[simp] theorem writeS_holdsPushes (h : Hart) (a : BitVec 7) (v : DWord) : (writeS h a v).holdsPushes = h.holdsPushes := by
  rw [writeS_frame]; rfl

/-- A scalar result is pushed zero-extended onto the file that stood before it (R15, R16). -/
theorem result_q (h : Hart) (a : BitVec 7) (v : DWord) : (h.result a v).q =
    if h.holdsPushes then { h.q with pend := h.q.pend ++ [v.setWidth 1024] } else h.q.shift (v.setWidth 1024) := by
  rw [Hart.result, pushS, push_q, writeS_holdsPushes, writeS_q]

/-! ## Slots that refuse their operands -/

/-- A slot whose body changes the hart alone raises ILLEGAL-OPERAND where it has no result (R70, R83). -/
theorem runSlot_hartBody_none (s : State) (major fn : Nat) (f : Hart → Option Hart) (h : SlotRuns s major fn)
    (hf : f (cur s) = none) : runSlot major fn (hartBody f) s = .next (operandTrap s) := by
  rw [runSlot_runs _ _ _ _ h, hartBody, show f (getHart s s.cur) = none from hf]
  rfl

/-- A slot whose body changes the hart alone completes with its result. -/
theorem runSlot_hartBody_some (s : State) (major fn : Nat) (f : Hart → Option Hart) (h : SlotRuns s major fn) (g : Hart)
    (hf : f (cur s) = some g) : runSlot major fn (hartBody f) s = .next (completed s (withCur s g)) := by
  rw [runSlot_runs _ _ _ _ h, hartBody, show f (getHart s s.cur) = some g from hf]
  rfl

theorem reg3_none (f : DWord → DWord → DWord) (a b c : BitVec 7) (h : Hart)
    (hx : sDest a = false ∨ readS h b = none ∨ readS h c = none) : reg3 f a b c h = none := by
  rcases hx with ha | hb | hc
  · simp [reg3, ha, guard]
  · simp [reg3, hb]
  · cases hb : readS h b <;> simp [reg3, hb, hc]

theorem reg3Old_none (f : DWord → DWord → DWord → DWord) (a b c : BitVec 7) (h : Hart)
    (hx : sDest a = false ∨ readS h b = none ∨ readS h c = none) : reg3Old f a b c h = none := by
  rcases hx with ha | hb | hc
  · simp [reg3Old, ha, guard]
  · cases ha : readS h a <;> simp [reg3Old, ha, hb]
  · cases ha : readS h a <;> cases hb : readS h b <;> simp [reg3Old, ha, hb, hc]

theorem reg2_none (f : DWord → DWord) (a b : BitVec 7) (h : Hart) (hx : sDest a = false ∨ readS h b = none) :
    reg2 f a b h = none := by
  rcases hx with ha | hb
  · simp [reg2, ha, guard]
  · simp [reg2, hb]

theorem immOp_none (f : DWord → Option DWord) (a src : BitVec 7) (h : Hart) (hx : sDest a = false ∨ readS h src = none) :
    immOp f a src h = none := by
  rcases hx with ha | hb
  · simp [immOp, ha, guard]
  · simp [immOp, hb]

theorem insertField_none (e : Word) (a b : BitVec 7) (h : Hart) (hx : sDest a = false ∨ readS h b = none) :
    insertField e a b h = none := by
  rcases hx with ha | hb
  · simp [insertField, ha, guard]
  · cases ha : readS h a <;> simp [insertField, ha, hb]

/-- Settles O7: destinations by the three cases of a scalar write and the two of a push, refusals by the operand forms. -/
theorem scalarOperandsAndResults : Obligations.ScalarOperandsAndResults := by
  refine ⟨fun h a v => ⟨fun ha => ?_, fun ha hb => ?_, fun ha => ?_, fun hp => ?_, fun hp => ?_, ?_, ?_, ?_⟩,
    fun s a b c i e => ⟨fun hx => ⟨?_, ?_, ?_, ?_, ?_, ?_⟩, fun hx => ⟨?_, ?_, ?_⟩, fun ha h => ?_⟩⟩
  · simp only [Hart.phys, result_sregs, result_oregs, writeS_scalar h a v ha, Hart.sIndex]
    exact ⟨SMap.get_set_same _ _ _ _, fun i hi => SMap.get_set_other _ _ _ _ _ (Ne.symm hi), trivial⟩
  · simp only [result_sregs, result_oregs, writeS_operand h a v ha hb]
    exact ⟨SMap.get_set_same _ _ _ _, fun i hi => SMap.get_set_other _ _ _ _ _ (Ne.symm hi), trivial⟩
  · simp only [result_sregs, result_oregs, writeS_other h a v (by omega), and_self]
  · rw [result_q, hp]
    exact ⟨rfl, rfl, rfl, rfl, rfl⟩
  · rw [result_q, hp, if_pos rfl]
  iterate 3 rw [result_frame]
  · exact fun h => runSlot_hartBody_none s _ _ _ h (reg3_none _ _ _ _ _ hx)
  · exact fun h => runSlot_hartBody_none s _ _ _ h (reg3Old_none _ _ _ _ _ hx)
  · exact fun h => runSlot_hartBody_none s _ _ _ h (reg3_none _ _ _ _ _ hx)
  · exact fun h => runSlot_hartBody_none s _ _ _ h (reg3_none _ _ _ _ _ hx)
  · exact fun h => runSlot_hartBody_none s _ _ _ h (reg3Old_none _ _ _ _ _ hx)
  · exact fun h => runSlot_hartBody_none s _ _ _ h (reg3_none _ _ _ _ _ hx)
  · exact fun h => runSlot_hartBody_none s _ _ _ h (reg2_none _ _ _ _ hx)
  · exact fun h => runSlot_hartBody_none s _ _ _ h (immOp_none _ _ _ _ hx)
  · exact fun h => runSlot_hartBody_none s _ _ _ h (insertField_none _ _ _ _ hx)
  · exact runSlot_hartBody_none s _ _ _ h (immOp_none _ _ _ _ (.inl ha))
end Sys2Proof.Machine
end

section
/-! SUPPORT. Fields of words, and control slots outside a rope (R93, R97 to R101). -/
namespace Sys2Proof.Machine
open Sys2Proof

/-! ## Fields of a word -/

/-- The bits of a word with a field replaced (R2). -/
theorem getLsbD_withBits {n : Nat} (x : BitVec n) (hi lo v i : Nat) (hl : lo ≤ hi) (hn : hi < n) :
    (withBits x hi lo v).getLsbD i = if lo ≤ i ∧ i ≤ hi then v.testBit (i - lo) else x.getLsbD i := by
  obtain ⟨k, rfl⟩ : ∃ k, hi = lo + k := ⟨hi - lo, by omega⟩
  have hk : lo + k + 1 - lo = k + 1 := by omega
  -- the word is its part above the field, the field and the part below it
  have split (y : Nat) : y = 2 ^ lo * (2 ^ (k + 1) * (y >>> lo / 2 ^ (k + 1)) + y >>> lo % 2 ^ (k + 1)) + y % 2 ^ lo := by
    rw [Nat.div_add_mod, Nat.shiftRight_eq_div_pow, Nat.div_add_mod]
  have hw : x.toNat - (bits x (lo + k) lo <<< lo) + ((v % 2 ^ (k + 1)) <<< lo)
      = 2 ^ lo * (2 ^ (k + 1) * (x.toNat >>> lo / 2 ^ (k + 1)) + v % 2 ^ (k + 1)) + x.toNat % 2 ^ lo := by
    have e := split x.toNat
    simp only [bits, hk, Nat.shiftLeft_eq, Nat.mul_comm _ (2 ^ lo)]
    rw [Nat.mul_add] at e ⊢
    omega
  have hlow (y : Nat) : y % 2 ^ lo < 2 ^ lo := Nat.mod_lt _ (Nat.two_pow_pos _)
  have hfld (y : Nat) : y % 2 ^ (k + 1) < 2 ^ (k + 1) := Nat.mod_lt _ (Nat.two_pow_pos _)
  simp only [withBits, BitVec.getLsbD_ofNat, hk, hw]
  rw [Nat.testBit_two_pow_mul_add _ (hlow _), Nat.testBit_two_pow_mul_add _ (hfld _), BitVec.getLsbD]
  have hx := split x.toNat
  have htop (j : Nat) : (x.toNat >>> lo / 2 ^ (k + 1)).testBit j = x.toNat.testBit (lo + (k + 1) + j) := by
    rw [← Nat.shiftRight_eq_div_pow, Nat.testBit_shiftRight, Nat.testBit_shiftRight]
    congr 1; omega
  by_cases h1 : i < lo
  · simp [h1, show ¬ lo ≤ i by omega, show i < n by omega]
  · by_cases h2 : i ≤ lo + k
    · simp [h1, h2, show lo ≤ i by omega, show i - lo < k + 1 by omega, show i < n by omega]
    · simp only [h1, h2, if_false, and_false, show ¬ i - lo < k + 1 by omega, htop, show lo + (k + 1) + (i - lo - (k + 1)) = i by omega]
      by_cases h3 : i < n
      · simp [h3]
      · simp [h3, Nat.testBit_lt_two_pow (Nat.lt_of_lt_of_le x.isLt (Nat.pow_le_pow_right (by omega) (Nat.not_lt.mp h3)))]

/-- The bits of a field read (R2). -/
theorem testBit_bits {n : Nat} (x : BitVec n) (hi lo i : Nat) :
    (bits x hi lo).testBit i = (decide (i < hi + 1 - lo) && x.getLsbD (lo + i)) := by
  rw [bits, Nat.testBit_mod_two_pow, Nat.testBit_shiftRight, BitVec.getLsbD]

/-- A field just replaced is read. -/
theorem bits_withBits_same {n : Nat} (x : BitVec n) (hi lo v : Nat) (hl : lo ≤ hi) (hn : hi < n) (hv : v < 2 ^ (hi + 1 - lo)) :
    bits (withBits x hi lo v) hi lo = v := by
  apply Nat.eq_of_testBit_eq
  intro i
  rw [testBit_bits, getLsbD_withBits x hi lo v _ hl hn]
  by_cases h : i < hi + 1 - lo
  · simp [h, show lo + i ≤ hi by omega]
  · simp [h, Nat.testBit_lt_two_pow (Nat.lt_of_lt_of_le hv (Nat.pow_le_pow_right (by omega) (Nat.not_lt.mp h)))]

/-- Replacing a field leaves the fields apart from it. -/
theorem bits_withBits_other {n : Nat} (x : BitVec n) (hi lo v a b : Nat) (hl : lo ≤ hi) (hn : hi < n) (h : a < lo ∨ hi < b) :
    bits (withBits x hi lo v) a b = bits x a b := by
  apply Nat.eq_of_testBit_eq
  intro i
  rw [testBit_bits, testBit_bits, getLsbD_withBits x hi lo v _ hl hn]
  by_cases hi : i < a + 1 - b
  · rw [if_neg (by omega)]
  · simp [hi]

/-- The address a number of convoys away (R93). -/
theorem convoyTarget_eq {n : Nat} (pc : DWord) (o : BitVec n) : convoyTarget pc o.toInt = pc + 16 * o.signExtend 64 := by
  have hz (z : Int) : BitVec.ofNat 64 (wrapInt 64 z) = BitVec.ofInt 64 z := by
    apply BitVec.eq_of_toNat_eq
    simp only [wrapInt, BitVec.toNat_ofNat, BitVec.toNat_ofInt]
    omega
  rw [convoyTarget, addOfs, hz, BitVec.ofInt_add, BitVec.ofInt_mul]
  congr 1
  exact BitVec.eq_of_toNat_eq (by simp)

/-! ## Control slots -/

/-- What a rope's leader settles changes nothing on a hart outside a rope (R98). -/
theorem recordRuling_lone (s : State) (hk : Nat) (r : Nat → Ruling) (hr : (getHart s hk).inRope = false)
    (hc : (getHart s hk).curConv.crew = []) : recordRuling s hk r = s := by
  simp [recordRuling, hr, hc]

/-- A hart outside a rope is no member of one (R18). -/
theorem isMember_lone (s : State) (hk : Nat) (hr : (getHart s hk).inRope = false) (hc : (getHart s hk).curConv.crew = []) :
    isMember s hk = false := by
  simp [isMember, hr, hc]

/-- A control slot runs what was recorded for it (R98). -/
theorem controlBody_recorded (own : Hart → Option Decision) (run : Decision → State → Nat → SlotRes) (s : State) (hk : Nat)
    (d : Decision) (h : (getHart s hk).recorded = some (.decided d)) : controlBody own run s hk = run d s hk := by
  simp [controlBody, h]

/-- A member of a rope waits for what its leader decides (R98). -/
theorem controlBody_waits (own : Hart → Option Decision) (run : Decision → State → Nat → SlotRes) (s : State) (hk : Nat)
    (h : (getHart s hk).recorded = none) (hm : isMember s hk = true) :
    controlBody own run s hk = .wait (.notReady false) s := by
  simp [controlBody, h, hm]

/-- A leader, or a hart outside a rope, decides by its own operands and leaves the decision with its members (R97, R98). -/
theorem controlBody_leads (own : Hart → Option Decision) (run : Decision → State → Nat → SlotRes) (s : State) (hk : Nat)
    (d : Decision) (h : (getHart s hk).recorded = none) (hm : isMember s hk = false) (hd : own (getHart s hk) = some d) :
    controlBody own run s hk = run d (recordDecision s hk d) hk := by
  simp [controlBody, h, hm, hd]

/-- A leader with no decision has an operand that R70 does not allow. -/
theorem controlBody_refuses (own : Hart → Option Decision) (run : Decision → State → Nat → SlotRes) (s : State) (hk : Nat)
    (h : (getHart s hk).recorded = none) (hm : isMember s hk = false) (hd : own (getHart s hk) = none) :
    controlBody own run s hk = badOperand s hk := by
  simp [controlBody, h, hm, hd]

/-- Outside a rope a control slot runs its own decision (R97). -/
theorem controlBody_lone (own : Hart → Option Decision) (run : Decision → State → Nat → SlotRes) (s : State) (hk : Nat)
    (d : Decision) (h : (getHart s hk).recorded = none) (hr : (getHart s hk).inRope = false)
    (hc : (getHart s hk).curConv.crew = []) (hd : own (getHart s hk) = some d) : controlBody own run s hk = run d s hk := by
  rw [controlBody_leads own run s hk d h (isMember_lone s hk hr hc) hd, recordDecision, recordRuling_lone s hk _ hr hc]

/-- A decision's updates and its transfer (R97, R98). -/
theorem applyDecision_some (apply : Decision → Hart → Option Hart) (d : Decision) (s : State) (hk : Nat) (g : Hart)
    (h : apply d (getHart s hk) = some g) : applyDecision apply d s hk = .done (setHart s hk (g.transfer d)) := by
  simp [applyDecision, h]

/-! ## `lrot` and `wbase` -/

/-- A scalar write leaves the vector configuration and the windows (R10). -/
@[simp] theorem writeS_vcfg (h : Hart) (a : BitVec 7) (v : DWord) : (writeS h a v).vcfg = h.vcfg := by rw [writeS_frame]
@[simp] theorem writeS_wbase (h : Hart) (a : BitVec 7) (v : DWord) : (writeS h a v).wbase = h.wbase := by rw [writeS_frame]
@[simp] theorem writeS_sprd (h : Hart) (a : BitVec 7) (v : DWord) : (writeS h a v).sprd = h.sprd := by rw [writeS_frame]

/-- The updates of `lrot` where its operands are allowed: the counter, the stage predicates and the rotation (R99). -/
theorem lrotApply_eq (h : Hart) (a d : BitVec 7) (x : DWord) (c : Decision) (ha : sDest a = true) (hd : d.toNat ≤ 30)
    (hx : readS h a = some x) : lrotApply a d c h
      = some (Hart.rotate { (if c.1.isSome then writeS h a (x - 1) else h) with sprd := lrotSprd h.sprd c.2 }) := by
  have e (y : DWord) : (if c.1.isSome then writeS h a y else h).sprd = h.sprd := by split <;> simp
  simp [lrotApply, guard, ha, hd, hx, e]

/-- Which of its cases `lrot` chooses outside a rope (R99). -/
theorem loopRotate_lone (s : State) (a d : BitVec 7) (o : Int) (x : DWord) (h : SlotRuns s 0x12 0)
    (hr : (cur s).inRope = false) (hc : (cur s).curConv.crew = []) (hn : (cur s).recorded = none) (ha : sDest a = true)
    (hx : readS (cur s) a = some x) :
    (d.toNat ≤ 30 → runSlot 0x12 0 (loopRotate a d o) s = .next (completed s (withCur s ((Hart.rotate
      { (if (lrotDecide x d (convoyTarget (cur s).pc o)).1.isSome then writeS (cur s) a (x - 1) else cur s) with
        sprd := lrotSprd (cur s).sprd (lrotDecide x d (convoyTarget (cur s).pc o)).2 }).transfer
          (lrotDecide x d (convoyTarget (cur s).pc o)))))) ∧
    (30 < d.toNat → runSlot 0x12 0 (loopRotate a d o) s = .next (operandTrap s)) := by
  rw [runSlot_runs _ _ _ _ h, loopRotate]
  constructor <;> intro hd
  · rw [controlBody_lone _ _ _ _ (lrotDecide x d (convoyTarget (cur s).pc o)) hn hr hc (by
      simp [guard, ha, hd, show readS (getHart s s.cur) a = some x from hx, cur]),
      applyDecision_some _ _ _ _ _ (lrotApply_eq _ a d x _ ha hd hx)]
    rfl
  · rw [controlBody_refuses _ _ _ _ hn (isMember_lone s _ hr hc) (by simp [guard, Nat.not_le.mpr hd])]
    rfl

/-- A rotation changes WBASE.ROF alone, and none without a rotating region (R12, R99). -/
theorem rotate_eq (h : Hart) :
    h.rotate = { h with wbase := if h.rotR = 0 then h.wbase else withBits h.wbase 37 32 ((h.rof + 1) % h.rotR) } := by
  unfold Hart.rotate
  split <;> rfl

/-- The windows move where R10 and R11 allow the new bases, on a hart with an allocation (R100). -/
theorem moveWindows_eq (h : Hart) (ds dv : BitVec 7) (hc : h.chunks ≠ []) :
    moveWindows ds dv h =
      let S : Int := h.wbS + 16 * ds.toInt
      let V : Int := h.wbV + 8 * dv.toInt
      if 0 ≤ S ∧ S ≤ 160 ∧ S % 16 = 0 ∧ 0 ≤ V ∧ V % 8 = 0 ∧ V + 96 ≤ h.valloc then
        some { h with wbase := withBits (withBits h.wbase 7 0 S.toNat) 24 16 V.toNat } else none := by
  have e : h.chunks.isEmpty = false := by simpa using hc
  simp only [moveWindows, baseSOk, baseVOk, e]
  simp [and_assoc]

/-- Settles O10: `lrot` by the case it chooses, `wbase` by the two fields it replaces. -/
theorem loopsAndWindows : Obligations.LoopsAndWindows := by
  refine ⟨fun s a d o e x g k h hr hc hn ha hx hg hk => ⟨fun hd => ?_, fun hd => ?_⟩,
    fun s ds dv S V hS hV hal => ⟨fun h hch => ⟨fun hok => ?_, fun hok => ?_⟩, fun h => ?_, fun h => ?_⟩⟩
  · have key (t : DWord) : (Hart.rotate { (if (lrotDecide x d t).1.isSome then writeS (cur s) a (x - 1) else cur s) with
        sprd := lrotSprd (cur s).sprd (lrotDecide x d t).2 }).transfer (lrotDecide x d t)
        = if 0 < x.toInt then goingTo k t else k := by
      subst hk hg
      by_cases h0 : 0 < x.toInt
      · simp [lrotDecide, h0, lrotSprd, rotate_eq, Hart.transfer, goingTo, Hart.rotR, Hart.rof]
      · simp [lrotDecide, h0, lrotSprd, rotate_eq, Hart.transfer, Hart.rotR, Hart.rof]
    rw [← key, ← key, ← convoyTarget_eq, ← convoyTarget_eq]
    exact ⟨(loopRotate_lone s a d _ x h hr hc hn ha hx).1 hd, (loopRotate_lone s a d _ x h hr hc hn ha hx).1 hd⟩
  · exact ⟨(loopRotate_lone s a d _ x h hr hc hn ha hx).2 hd, (loopRotate_lone s a d _ x h hr hc hn ha hx).2 hd⟩
  · subst hS hV
    obtain ⟨h1, h2, h3, h4, h5, h6⟩ := hok
    refine ⟨_, runSlot_hartBody_some s _ _ _ h _ ((moveWindows_eq _ ds dv hch).trans (if_pos ⟨h1, h2, h3, h4, h5, h6⟩)), ?_, ?_,
      fun i hi hj => ?_⟩
    · rw [bits_withBits_other _ 24 16 _ 7 0 (by decide) (by decide) (by decide),
        bits_withBits_same _ 7 0 _ (by decide) (by decide) (by norm_num; omega)]
      omega
    · rw [bits_withBits_same _ 24 16 _ (by decide) (by decide) (by norm_num; omega)]
      omega
    · rw [getLsbD_withBits _ 24 16 _ _ (by decide) (by decide), if_neg (by omega),
        getLsbD_withBits _ 7 0 _ _ (by decide) (by decide), if_neg (by omega)]
  · subst hS hV
    exact runSlot_hartBody_none s _ _ _ h ((moveWindows_eq _ ds dv hch).trans (if_neg hok))
  · exact runSlot_hartBody_some s _ _ _ h _ rfl
  · exact runSlot_hartBody_some s _ _ _ h _ rfl
end Sys2Proof.Machine
end

section
/-! SUPPORT. Control slots in a rope (R19, R98). -/
namespace Sys2Proof.Machine
open Sys2Proof

/-! ## What a leader leaves with its members -/

/-- A hart with rulings appended to the convoy it has in hand (R98). -/
def Hart.ruled (h : Hart) (l : List (Nat × Ruling)) : Hart :=
  { h with conv := h.conv.map (fun c => { c with ctl := c.ctl ++ l }) }

theorem ruled_nil (h : Hart) : h.ruled [] = h := by
  obtain ⟨⟩ := h
  simp [Hart.ruled]

theorem ruled_ruled (h : Hart) (l m : List (Nat × Ruling)) : (h.ruled l).ruled m = h.ruled (l ++ m) := by
  simp [Hart.ruled, Option.map_map, Function.comp_def]

/-- One step of `recordRuling`: the ruling is left with a member that runs the leader's convoy. -/
def leaveRuling (s : State) (hk : Nat) (r : Nat → Ruling) (t : State) (m : Nat × Nat) : State :=
  if (getHart s m.1).curConv.crew = (getHart s hk).curConv.crew then
    modHart t m.1 (fun h => h.ruled [((getHart s hk).curConv.slot, r m.2)])
  else t

theorem recordRuling_eq (s : State) (hk : Nat) (r : Nat → Ruling) : recordRuling s hk r =
    if (getHart s hk).inRope || !(getHart s hk).curConv.crew.isEmpty then
      ((crewOf s hk).zipIdx).foldl (leaveRuling s hk r) s else s := rfl

/-- Leaving a ruling with members changes their convoys alone. -/
theorem leaveRuling_fold (s : State) (hk : Nat) (r : Nat → Ruling) (ms : List (Nat × Nat)) (t : State) :
    ms.foldl (leaveRuling s hk r) t = { t with harts := (ms.foldl (leaveRuling s hk r) t).harts } ∧
    ∀ k, ∃ l, getHart (ms.foldl (leaveRuling s hk r) t) k = (getHart t k).ruled l ∧
      ∀ j, (k, j) ∈ ms → (getHart s k).curConv.crew = (getHart s hk).curConv.crew →
        ((getHart s hk).curConv.slot, r j) ∈ l := by
  induction ms generalizing t with
  | nil => exact ⟨rfl, fun k => ⟨[], (ruled_nil _).symm, fun j hj => by cases hj⟩⟩
  | cons m ms ih =>
    obtain ⟨ih1, ih2⟩ := ih (leaveRuling s hk r t m)
    rw [List.foldl_cons]
    refine ⟨?_, fun k => ?_⟩
    · rw [ih1]
      unfold leaveRuling
      split <;> rfl
    · obtain ⟨l, hl, hm⟩ := ih2 k
      by_cases hc : (getHart s m.1).curConv.crew = (getHart s hk).curConv.crew
      · by_cases hk' : m.1 = k
        · refine ⟨[((getHart s hk).curConv.slot, r m.2)] ++ l, ?_, fun j hj hcr => ?_⟩
          · rw [hl, ← ruled_ruled, leaveRuling, if_pos hc, hk', getHart_modHart_same]
          · rcases List.mem_cons.mp hj with e | hj
            · rw [← e]; simp
            · exact List.mem_append_right _ (hm j hj hcr)
        · refine ⟨l, ?_, fun j hj hcr => ?_⟩
          · rw [hl, leaveRuling, if_pos hc, getHart_modHart_other _ _ _ _ hk']
          · rcases List.mem_cons.mp hj with e | hj
            · exact absurd (congrArg Prod.fst e).symm hk'
            · exact hm j hj hcr
      · refine ⟨l, ?_, fun j hj hcr => ?_⟩
        · rw [hl, leaveRuling, if_neg hc]
        · rcases List.mem_cons.mp hj with e | hj
          · exact absurd hcr (by rw [show k = m.1 from congrArg Prod.fst e]; exact hc)
          · exact hm j hj hcr

/-- What a leader settles changes the convoys of harts alone (R98). -/
theorem recordRuling_frame (s : State) (hk : Nat) (r : Nat → Ruling) :
    recordRuling s hk r = { s with harts := (recordRuling s hk r).harts } := by
  rw [recordRuling_eq]
  split
  · exact (leaveRuling_fold s hk r _ s).1
  · rfl

/-- What a leader settles is appended to the rulings of a convoy (R98). -/
theorem getHart_recordRuling (s : State) (hk : Nat) (r : Nat → Ruling) (k : Nat) :
    ∃ l, getHart (recordRuling s hk r) k = (getHart s k).ruled l := by
  rw [recordRuling_eq]
  split
  · obtain ⟨l, hl, -⟩ := (leaveRuling_fold s hk r (crewOf s hk).zipIdx s).2 k
    exact ⟨l, hl⟩
  · exact ⟨[], (ruled_nil _).symm⟩

@[simp] theorem recordDecision_cur (s : State) (hk : Nat) (d : Decision) : (recordDecision s hk d).cur = s.cur := by
  rw [recordDecision, recordRuling_frame]

/-- Every member of the crew that has the convoy in hand is left the decision (R98). -/
theorem recordDecision_mem (s : State) (hk k : Nat) (d : Decision) (c : Conv)
    (hr : (getHart s hk).inRope = true ∨ (getHart s hk).curConv.crew ≠ []) (hk' : k ∈ crewOf s hk)
    (hc : (getHart s k).conv = some c) (he : c.crew = (getHart s hk).curConv.crew) :
    ∃ c', (getHart (recordDecision s hk d) k).conv = some c' ∧ ((getHart s hk).curConv.slot, Ruling.decided d) ∈ c'.ctl := by
  have hcond : ((getHart s hk).inRope || !(getHart s hk).curConv.crew.isEmpty) = true := by
    simpa [List.isEmpty_iff] using hr
  obtain ⟨l, hl, hm⟩ := (leaveRuling_fold s hk (fun _ => .decided d) (crewOf s hk).zipIdx s).2 k
  obtain ⟨j, hj, hjk⟩ := List.getElem_of_mem hk'
  have hin := hm j (by rw [List.mk_mem_zipIdx_iff_getElem?]; simp [hj, hjk]) (by simpa [Hart.curConv, hc] using he)
  refine ⟨{ c with ctl := c.ctl ++ l }, ?_, List.mem_append_right _ hin⟩
  rw [recordDecision, recordRuling_eq, if_pos hcond, hl, Hart.ruled, hc]
  rfl

/-! ## A control slot in a rope -/

/-- A control slot in a rope: a ruling is run, a member waits for one, a leader leaves its own and runs it (R19, R98). -/
theorem controlSlot_cases (s : State) (major fn : Nat) (own : Hart → Option Decision) (run : Decision → State → Nat → SlotRes)
    (n : Decision) (h : SlotRuns s major fn) (hown : own (cur s) = some n) :
    (∀ c, (cur s).recorded = some (.decided c) → runSlot major fn (controlBody own run) s
      = .next (finishSlot s.cur (getHart s s.cur).prefixLive (run c s s.cur))) ∧
    ((cur s).recorded = none ∧ isMember s s.cur = true →
      runSlot major fn (controlBody own run) s = .next (waiting s (.notReady false) s)) ∧
    ((cur s).recorded = none ∧ isMember s s.cur = false → runSlot major fn (controlBody own run) s
      = .next (finishSlot s.cur (getHart s s.cur).prefixLive (run n (recordDecision s s.cur n) s.cur))) := by
  rw [runSlot_runs _ _ _ _ h]
  refine ⟨fun c hc => ?_, fun hw => ?_, fun hl => ?_⟩
  · rw [controlBody_recorded _ _ _ _ c hc]
  · rw [controlBody_waits _ _ _ _ hw.1 hw.2]
    rfl
  · rw [controlBody_leads _ _ _ _ n hl.1 hl.2 hown]

/-- The hart in hand after its decision has been left with the members. -/
theorem cur_recordDecision (s : State) (d : Decision) : ∃ l, cur (recordDecision s s.cur d) = (cur s).ruled l := by
  rw [cur, recordDecision_cur]
  exact getHart_recordRuling s s.cur _ s.cur

/-- Outcome o of a control slot in a rope, where a ruling d makes the updates `upd d` and the hart's own operands decide n: the
leader's ruling is applied, a member waits for one, a leader leaves its own with the members and applies it (R19, R98). -/
def RopeOutcome (s : State) (upd : Decision → Hart → Hart) (n : Decision) (o : Host.Outcome State Fault Refusal) : Prop :=
  (∀ c, (cur s).recorded = some (.decided c) → o = .next (completed s (withCur s ((upd c (cur s)).transfer c)))) ∧
  ((cur s).recorded = none ∧ isMember s s.cur = true → o = .next (waiting s (.notReady false) s)) ∧
  ((cur s).recorded = none ∧ isMember s s.cur = false → o = .next (completed s
    (withCur (recordDecision s s.cur n) ((upd n (cur (recordDecision s s.cur n))).transfer n))))

/-- A control slot whose updates are those of `upd` (R98). -/
theorem controlSlot_rope (s : State) (major fn : Nat) (own : Hart → Option Decision)
    (apply : Decision → Hart → Option Hart) (upd : Decision → Hart → Hart) (n : Decision) (h : SlotRuns s major fn)
    (hown : own (cur s) = some n) (ha : ∀ d l, apply d ((cur s).ruled l) = some (upd d ((cur s).ruled l))) :
    RopeOutcome s upd n (runSlot major fn (controlBody own (applyDecision apply)) s) := by
  obtain ⟨h1, h2, h3⟩ := controlSlot_cases s major fn own (applyDecision apply) n h hown
  refine ⟨fun c hc => ?_, h2, fun hl => ?_⟩
  · have e : apply c (getHart s s.cur) = some (upd c (cur s)) := by
      have := ha c []
      rwa [ruled_nil] at this
    rw [h1 c hc, applyDecision_some _ _ _ _ _ e]
    rfl
  · obtain ⟨l, hr⟩ := cur_recordDecision s n
    have hu : getHart (recordDecision s s.cur n) s.cur = cur (recordDecision s s.cur n) := by rw [cur, recordDecision_cur]
    have e : apply n (getHart (recordDecision s s.cur n) s.cur) = some (upd n (cur (recordDecision s s.cur n))) := by
      rw [hu, hr]
      exact ha n l
    rw [h3 hl, applyDecision_some _ _ _ _ _ e, withCur, recordDecision_cur]
    rfl

/-- A branch in a rope (R94, R98). -/
theorem branchOn_rope (s : State) (fn : Nat) (p : DWord → DWord → Bool) (a b : BitVec 7) (o : Int) (x y : DWord)
    (h : SlotRuns s 0x10 fn) (hx : readS (cur s) a = some x) (hy : readS (cur s) b = some y) :
    RopeOutcome s (fun _ h => h) (if p x y then some (convoyTarget (cur s).pc o) else none, false)
      (runSlot 0x10 fn (branchOn p a b o) s) :=
  controlSlot_rope s 0x10 fn _ _ _ _ h (by simp [hx, hy]) (fun _ _ => rfl)

/-- `br.any` in a rope (R94, R98). -/
theorem branchAny_rope (s : State) (a : BitVec 7) (o : Int) (m : VReg) (h : SlotRuns s 0x10 6)
    (hm : readM (cur s) a = some m) :
    RopeOutcome s (fun _ h => h) (if anyBelow (cur s) m then some (convoyTarget (cur s).pc o) else none, false)
      (runSlot 0x10 6 (branchAny a o) s) :=
  controlSlot_rope s 0x10 6 _ _ _ _ h (by simp [hm]) (fun _ _ => rfl)

/-- `jmp` in a rope (R95, R98). -/
theorem jumpTo_rope (s : State) (o : Int) (h : SlotRuns s 0x11 0) :
    RopeOutcome s (fun _ h => h) (some (convoyTarget (cur s).pc o), false) (runSlot 0x11 0 (jumpTo o) s) :=
  controlSlot_rope s 0x11 0 _ _ _ _ h rfl (fun _ _ => rfl)

/-- `jal` in a rope (R95, R98). -/
theorem jumpLink_rope (s : State) (a : BitVec 7) (o : Int) (h : SlotRuns s 0x11 1) (ha : sDest a = true) :
    RopeOutcome s (fun _ h => h.result a ((cur s).pc + 16)) (some (convoyTarget (cur s).pc o), false)
      (runSlot 0x11 1 (jumpLink a o) s) :=
  controlSlot_rope s 0x11 1 _ _ _ _ h rfl (fun _ _ => if_pos ha)

/-- `lrot` in a rope (R98, R99). -/
theorem loopRotate_rope (s : State) (a d : BitVec 7) (o : Int) (x : DWord) (h : SlotRuns s 0x12 0) (ha : sDest a = true)
    (hx : readS (cur s) a = some x) (hd : d.toNat ≤ 30) :
    RopeOutcome s
      (fun c h => Hart.rotate { (if c.1.isSome then writeS h a (x - 1) else h) with sprd := lrotSprd (cur s).sprd c.2 })
      (lrotDecide x d (convoyTarget (cur s).pc o)) (runSlot 0x12 0 (loopRotate a d o) s) :=
  controlSlot_rope s 0x12 0 _ _ _ _ h (by simp [guard, ha, hd, hx]) (fun c _ => lrotApply_eq _ a d x c ha hd hx)

/-- `jr` with a target on a convoy boundary links and transfers (R95). -/
theorem jumpTaken_aligned (a b : BitVec 7) (d : Decision) (s : State) (hk : Nat) (t x : DWord) (hd : d.1 = some t)
    (ht : t.toNat % 16 = 0) (ha : sDest a = true) (hx : readS (getHart s hk) b = some x) :
    jumpTaken a b d s hk = .done (setHart s hk (((getHart s hk).result a ((getHart s hk).pc + 16)).transfer d)) := by
  simp only [jumpTaken, hd, hx, ht]
  rw [if_neg (by simp), applyDecision_some _ _ _ _ _ (show linkTo a d (getHart s hk) = some _ by rw [linkTo, if_pos ha])]

/-- `jr` with a target off the convoy boundary raises ALIGN (R65, R95). -/
theorem jumpTaken_misaligned (a b : BitVec 7) (d : Decision) (s : State) (hk : Nat) (t x : DWord) (hd : d.1 = some t)
    (ht : t.toNat % 16 ≠ 0) (ha : sDest a = true) (hx : readS (getHart s hk) b = some x) :
    jumpTaken a b d s hk = .trap cALIGN (alignInfo 16 true) t 0 0 s := by
  simp only [jumpTaken, hd, hx]
  rw [if_pos ⟨ha, ht⟩]

/-- Some bit of a mask below VL is 1 (R94). -/
theorem anyBelow_iff (h : Hart) (m : VReg) : anyBelow h m = true ↔ ∃ k, k < h.vl.toNat ∧ m.getLsbD k = true := by
  rw [anyBelow, decide_eq_true_eq, ← not_iff_not]
  push Not
  constructor
  · intro e k hk
    have := congrArg (fun n => n.testBit k) e
    simpa [Nat.testBit_mod_two_pow, hk, BitVec.getLsbD] using this
  · intro e
    apply Nat.eq_of_testBit_eq
    intro k
    by_cases hk : k < h.vl.toNat
    · simpa [Nat.testBit_mod_two_pow, hk, BitVec.getLsbD] using e k hk
    · simp [Nat.testBit_mod_two_pow, hk]

/-- Settles O11: each control slot by the ruling it runs, and what a leader settles by the convoys it reaches. -/
theorem ropeDecisions : Obligations.RopeDecisions := by
  intro s a b d o i e c t x y m g leads waits settled near far Does Follows go link turn
  refine ⟨fun z k r hr hk hc he => recordDecision_mem s s.cur k z r hr hk hc he, ?_, ?_, ⟨?_, ?_⟩, ?_, ?_⟩
  · intro fn n l p hmem h hx hy n1 l1
    have branch (q : DWord → DWord → Bool) (hq : q x y = p) (short long : Instr)
        (hs : exec short s = runSlot 0x10 fn (branchOn q a b o.toInt) s)
        (hl : exec long s = runSlot 0x10 fn (branchOn q a b e.toInt) s) :
        Follows short go ∧ Follows long go ∧
          (leads → Does short (go (settled n1) n1) ∧ Does long (go (settled l1) l1)) := by
      obtain ⟨s1, s2, s3⟩ := branchOn_rope s fn q a b o.toInt x y h hx hy
      obtain ⟨k1, k2, k3⟩ := branchOn_rope s fn q a b e.toInt x y h hx hy
      rw [hq, convoyTarget_eq] at s3 k3
      exact ⟨⟨fun hc => hs.trans (s1 c hc), fun hw => hs.trans (s2 hw)⟩, ⟨fun hc => hl.trans (k1 c hc), fun hw => hl.trans (k2 hw)⟩,
        fun hl' => ⟨hs.trans (s3 hl'), hl.trans (k3 hl')⟩⟩
    simp only [List.mem_cons, Prod.mk.injEq, List.not_mem_nil, or_false] at hmem
    rcases hmem with ⟨rfl, rfl, rfl, rfl⟩ | ⟨rfl, rfl, rfl, rfl⟩ | ⟨rfl, rfl, rfl, rfl⟩ | ⟨rfl, rfl, rfl, rfl⟩ |
      ⟨rfl, rfl, rfl, rfl⟩ | ⟨rfl, rfl, rfl, rfl⟩
    · exact branch (fun x y => x == y) (by simp [beq_eq_decide]) _ _ rfl rfl
    · exact branch (fun x y => x != y) (by simp [bne, beq_eq_decide]) _ _ rfl rfl
    · exact branch (fun x y => x.slt y) rfl _ _ rfl rfl
    · exact branch (fun x y => !x.slt y) (by simp [BitVec.slt, ← decide_not]) _ _ rfl rfl
    · exact branch (fun x y => x.ult y) rfl _ _ rfl rfl
    · exact branch (fun x y => !x.ult y) (by simp [BitVec.ult, ← decide_not]) _ _ rfl rfl
  · intro p hp h hm n1 l1
    have hq : anyBelow (cur s) m = p := Bool.eq_iff_iff.mpr ((anyBelow_iff _ m).trans hp.symm)
    obtain ⟨s1, s2, s3⟩ := branchAny_rope s a o.toInt m h hm
    obtain ⟨k1, k2, k3⟩ := branchAny_rope s a e.toInt m h hm
    rw [hq, convoyTarget_eq] at s3 k3
    exact ⟨⟨s1 c, s2⟩, ⟨k1 c, k2⟩, fun hl => ⟨s3 hl, k3 hl⟩⟩
  · intro h
    obtain ⟨s1, s2, s3⟩ := jumpTo_rope s i.toInt h
    obtain ⟨k1, k2, k3⟩ := jumpTo_rope s e.toInt h
    rw [convoyTarget_eq] at s3 k3
    exact ⟨⟨s1 c, s2⟩, ⟨k1 c, k2⟩, fun hl => ⟨s3 hl, k3 hl⟩⟩
  · intro h ha
    obtain ⟨s1, s2, s3⟩ := jumpLink_rope s a i.toInt h ha
    obtain ⟨k1, k2, k3⟩ := jumpLink_rope s a e.toInt h ha
    rw [convoyTarget_eq] at s3 k3
    exact ⟨⟨s1 c, s2⟩, ⟨k1 c, k2⟩, fun hl => ⟨s3 hl, k3 hl⟩⟩
  · intro h ha hx n1 bad
    obtain ⟨j1, j2, j3⟩ := controlSlot_cases s 0x11 2 (fun h => (readS h b).map (fun t => (some t, false))) (jumpTaken a b) n1 h
      (by simp [g] at hx; simp [hx, n1])
    obtain ⟨l, hl⟩ := cur_recordDecision s n1
    have hcur : getHart (settled n1) s.cur = (cur s).ruled l := by
      rw [← hl, cur, recordDecision_cur]
    have hb : readS (getHart (settled n1) s.cur) b = some x := by rw [hcur]; exact hx
    refine ⟨fun hc ht => ⟨fun hrec => ?_, j2⟩, fun hc ht hrec => ?_, fun hlead => ?_⟩
    · exact (j1 c hrec).trans (by rw [jumpTaken_aligned a b c s s.cur t x hc ht ha hx]; rfl)
    · exact (j1 c hrec).trans (by rw [jumpTaken_misaligned a b c s s.cur t x hc ht ha hx]; rfl)
    · split
      · next hx0 =>
        refine (j3 hlead).trans ?_
        rw [jumpTaken_aligned a b n1 (settled n1) s.cur x x rfl hx0 ha hb]
        simp only [link, withCur, hl, hcur, settled, recordDecision_cur]
        rfl
      · next hx0 => exact (j3 hlead).trans (by rw [jumpTaken_misaligned a b n1 (settled n1) s.cur x x rfl hx0 ha hb]; rfl)
  · intro h ha hx hd n1 l1
    obtain ⟨s1, s2, s3⟩ := loopRotate_rope s a d o.toInt x h ha hx hd
    obtain ⟨k1, k2, k3⟩ := loopRotate_rope s a d e.toInt x h ha hx hd
    rw [convoyTarget_eq] at s3 k3
    exact ⟨⟨s1 c, s2⟩, ⟨k1 c, k2⟩, fun hl => ⟨s3 hl, k3 hl⟩⟩
end Sys2Proof.Machine
end

section
/-! SUPPORT. Where the frames of O13 and O22 fail: a slot word that a rope leader rules on (R19, R98). -/
namespace Sys2Proof.Machine
open Sys2Proof

/-- Harts 0 and 8 run a convoy as one rope that hart 0 leads; the slot in hand is a branch that selector 0b1000 removes (R72,
R98). -/
def removedBranch : State := { State.reset with
  harts := [(0, { st := .running, conv := some { hdr := 0x404, words := [Sys2Proof.pack 0x10 0 0 0 0], crew := [0, 8] } }),
    (8, { st := .follower, conv := some { crew := [0, 8] } })] }

/-- The slot in hand there is removed, without a trap, and the leader settles for hart 8 that nothing is done in it, whichever
instruction's meaning is given to the slot (R19, R98). -/
theorem removedBranch_settles (n : Instr) (hn : n = .nop ∨ n = .vmov 0 0) :
    ∃ t, exec n removedBranch = .next t ∧ t ≠ operandTrap removedBranch ∧ t ≠ instructionTrap removedBranch ∧
      getHart t 8 ≠ getHart removedBranch 8 := by
  rcases hn with rfl | rfl
  · exact ⟨slotBody 0x13 0 true (hartBody some) removedBranch, rfl, by decide +kernel, by decide +kernel, by decide +kernel⟩
  · exact ⟨_, rfl, by decide +kernel, by decide +kernel, by decide +kernel⟩

/-- Refutes O13: `exec .nop` where the slot in hand is a removed branch of a rope's leader leaves a ruling in the convoy of
another hart (R98), so that not only the hart in hand is changed. -/
theorem not_scalarAndControlFrame : ¬ Obligations.ScalarAndControlFrame := by
  intro h
  obtain ⟨t, ht, h1, h2, h3⟩ := removedBranch_settles .nop (.inl rfl)
  obtain ⟨⟨-, hother⟩, -⟩ := h.1 removedBranch t 0 0 0 0 0 0 0 .nop (by simp) ht h1 h2
  exact h3 (hother 8 (by decide))

/-- Refutes O22: the same of `exec (.vmov 0 0)`. -/
theorem not_vectorFrame : ¬ Obligations.VectorFrame := by
  intro h
  obtain ⟨t, ht, h1, h2, h3⟩ := removedBranch_settles (.vmov 0 0) (.inr rfl)
  obtain ⟨⟨-, hother, -⟩, -⟩ := h removedBranch t 0 0 0 (.vmov 0 0) (by simp) ht h1 h2
  exact h3 (hother 8 (by decide))
end Sys2Proof.Machine
end

section
/-! SUPPORT. Fetch, decode and the meaning of a slot (R65 to R73). -/
namespace Sys2Proof.Machine
open Sys2Proof

/-! ## A slot's meaning is that of the instruction it decodes to

Pairs of majors 0x04, 0x08, 0x10 and 0x11 decode by their extension word too, so their cases are told apart by hand. -/

theorem slot04_of_instrOf (fn : Nat) (a b c : BitVec 7) (e : Option Word) (i : Instr) (h : instrOf04 fn a b c e = some i) :
    pairDefined 0x04 fn = true ∧ ∀ s, slot04 fn a b c e s = exec i s := by
  cases e <;>
    match fn, h with
    | 0, h | 1, h | 2, h | 3, h | 4, h | 5, h | 6, h => obtain rfl := Option.some.inj h; exact ⟨rfl, fun s => rfl⟩

theorem slot08_of_instrOf (fn : Nat) (a b c : BitVec 7) (e : Option Word) (i : Instr) (h : instrOf08 fn a b c e = some i) :
    pairDefined 0x08 fn = true ∧ ∀ s, slot08 fn a b c e s = exec i s := by
  cases e <;>
    match fn, h with
    | 0, h | 1, h | 2, h => obtain rfl := Option.some.inj h; exact ⟨rfl, fun s => rfl⟩

theorem slot10_of_instrOf (fn : Nat) (a b c : BitVec 7) (e : Option Word) (i : Instr) (h : instrOf10 fn a b c e = some i) :
    pairDefined 0x10 fn = true ∧ ∀ s, slot10 fn a b c e s = exec i s := by
  cases e <;>
    match fn, h with
    | 0, h | 1, h | 2, h | 3, h | 4, h | 5, h | 6, h => obtain rfl := Option.some.inj h; exact ⟨rfl, fun s => rfl⟩

theorem slot11_of_instrOf (fn : Nat) (a b c : BitVec 7) (e : Option Word) (i : Instr) (h : instrOf11 fn a b c e = some i) :
    pairDefined 0x11 fn = true ∧ ∀ s, slot11 fn a b c e s = exec i s := by
  cases e <;>
    match fn, h with
    | 0, h | 1, h | 2, h => obtain rfl := Option.some.inj h; exact ⟨rfl, fun s => rfl⟩

/-- The meaning of a slot whose pair, fields and extension word decode to an instruction is that instruction's (R69, R73, R77). -/
theorem slotMeaning_of_instrOf (major fn : Nat) (a b c : BitVec 7) (e : Option Word) (i : Instr)
    (h : instrOf major fn a b c e = some i) :
    pairDefined major fn = true ∧ ∀ s, slotMeaning major fn a b c e s = exec i s := by
  unfold instrOf at h
  split at h
  case h_5 => exact slot04_of_instrOf fn a b c e i h
  case h_9 => exact slot08_of_instrOf fn a b c e i h
  case h_10 => exact slot10_of_instrOf fn a b c e i h
  case h_11 => exact slot11_of_instrOf fn a b c e i h
  case h_74 => cases h
  all_goals
    dsimp only [instrOf00, instrOf01, instrOf02, instrOf03, instrOf05, instrOf06, instrOf07, instrOf12, instrOf13, instrOf14,
      instrOf15, instrOf16, instrOf38, instrOf39, instrOf3A, instrOf3B, instrOf3C, instrOf3D, instrOf3E, instrOf18,
      instrOf19, instrOf1A, instrOf1B, instrOf1C, instrOf1D, instrOf20, instrOf21, instrOf22, instrOf24, instrOf25,
      instrOf28, instrOf29, instrOf2A, instrOf2C, instrOf30, instrOf31, instrOf32, instrOf33, instrOf34, instrOf35,
      instrOf36, instrOf44, instrOf45, instrOf46, instrOf47, instrOf48, instrOf4C, instrOf4D, instrOf4E, instrOf4F,
      instrOf50, instrOf51, instrOf54, instrOf55, instrOf56, instrOf57, instrOf58, instrOf59, instrOf5A, instrOf5C,
      instrOf5D, instrOf5E, instrOf5F, instrOf60, instrOf61, instrOf64, instrOf65, instrOf66, instrOf67] at h
    split at h
    all_goals cases h
    all_goals exact ⟨rfl, fun s => rfl⟩

/-- A slot that decodes runs the instruction its word and extension word decode to (R73). -/
theorem stepSlot_of_decodeSlot (s u : State) (hk : Nat) (c : Conv) (i : Instr) (hc : (getHart s hk).conv = some c)
    (hd : decodeSlot (c.words.getD c.slot 0) (Sys2Proof.extOf c.hdr c.words c.slot) = .ok i)
    (hx : exec i { setHart s hk { getHart s hk with conv := some { c with bad := false } } with cur := hk } = .next u) :
    stepSlot s hk = u := by
  have hcur : (getHart s hk).curConv = c := by rw [Hart.curConv, hc]; rfl
  unfold decodeSlot decodeFields at hd
  split at hd
  · next j hj =>
    split at hd
    · next hok =>
      cases hd
      obtain ⟨hpair, hmean⟩ := slotMeaning_of_instrOf _ _ _ _ _ _ _ hj
      simp only [stepSlot, hcur, hpair, hok, hmean, Bool.not_true, Bool.true_eq_false, if_false, hx]
    · cases hd
  · cases hd

/-! ## Issuing a convoy -/

/-- A hart at no boundary with nothing pending goes on (R274). -/
theorem atBoundary_none (s : State) (hk : Nat) (ha : (getHart s hk).async = []) (he : (getHart s hk).ending = .none) :
    atBoundary s hk = none := by
  simp [atBoundary, Hart.endsNow, Hart.atEnd, Hart.takeable, ha, he]

/-- A hart with no trap pending reads no refused destination (R147). -/
theorem readsRefused_none (s : State) (hdr : Word) (ws : List Word) (hk : Nat) (ha : (getHart s hk).async = []) :
    readsRefused s hdr ws hk = false := by
  simp [readsRefused, ha]

/-- Outside a rope a hart is its own (R18). -/
theorem ropeOf_lone (s : State) (hk : Nat) (hr : (getHart s hk).inRope = false) : ropeOf s hk = [hk] := by
  simp [ropeOf, hr]

/-- A hart outside a rope begins the convoy it has fetched where its header passes, and runs its slots (R67, R68). -/
theorem beginConvoy_ok (s t : State) (hk : Nat) (hdr : Word) (ws : List Word) (ha : (getHart s hk).async = [])
    (hf : fetchConvoy s hk (getHart s hk).pc = .ok (hdr, ws) t) (hr : (getHart t hk).inRope = false)
    (hh : headerOk (isTsc (unitOf (coreOf hk)) || isEngine hk) hdr ws = true) (hb : resumeBad (getHart t hk) hdr = false) :
    beginConvoy s hk = runConvoy (modHart t hk (Hart.begin [] (getHart s hk).pc hdr ws)) hk := by
  simp [beginConvoy, hf, hh, hb, ropeOf_lone t hk hr, readsRefused_none s hdr ws hk ha]

/-- A header that R67 refuses raises ILLEGAL-CONVOY. -/
theorem beginConvoy_bad (s t : State) (hk : Nat) (hdr : Word) (ws : List Word)
    (hf : fetchConvoy s hk (getHart s hk).pc = .ok (hdr, ws) t)
    (hh : headerOk (isTsc (unitOf (coreOf hk)) || isEngine hk) hdr ws = false) :
    beginConvoy s hk = raiseTrap t hk (convoyTrap hdr (getHart s hk).pc) := by
  simp [beginConvoy, hf, hh]

/-- A hart between convoys, with nothing to keep it there, begins its next convoy or gives way once (R8, R74). -/
theorem issueConvoy_between (s : State) (hk : Nat) (hoff : (getDev s (devOfHart hk)).off = false)
    (hst : (getHart s hk).st = .running) (hc : (getHart s hk).conv = none) (ha : (getHart s hk).async = [])
    (he : (getHart s hk).ending = .none) (hr : (getHart s hk).inRope = false) (hs : (getHart s hk).stall = 0) :
    let v := modCore s (coreOf hk) (fun c => { c with lastHart := hartNo hk })
    issueConvoy s hk = if (getHart s hk).yield then setHart v hk { getHart s hk with yield := false }
      else beginConvoy v hk := by
  intro v
  have hv : getHart v hk = getHart s hk := rfl
  have hmay : mayIssue v hk = true := by
    have : (getDev v (devOfHart hk)).off = false := hoff
    simp [mayIssue, hv, hst, this]
  have hat : atBoundary v hk = none := atBoundary_none v hk (hv ▸ ha) (hv ▸ he)
  have hlone : isMember v hk = false := isMember_lone v hk (hv ▸ hr) (by rw [hv, Hart.curConv, hc]; rfl)
  have hrope : ropeOf v hk = [hk] := ropeOf_lone v hk (hv ▸ hr)
  have hany : (ropeOf v hk).any (fun m => (getHart v m).conv.isSome) = false := by simp [hrope, hv, hc]
  have hfirst : firstBoundary v (ropeOf v hk) = none := by simp [hrope, firstBoundary, hat]
  simp only [issueConvoy, hc, hs]
  rw [show modCore s (coreOf hk) (fun c => { c with lastHart := hartNo hk }) = v from rfl, hmay, hat, hlone, hany, hfirst]
  simp

/-- A convoy of one live slot runs the instruction that slot decodes to, and then retires (R68, R73, R74). -/
theorem runConvoy_one (t u : State) (hk : Nat) (pc : DWord) (hdr w : Word) (ws : List Word) (i : Instr) (c : Conv)
    (hres : (getHart t hk).resume = false) (hns : hdrNS hdr = 1) (hext : hdrExt1 hdr = false)
    (hd : decodeSlot w none = .ok i)
    (hx : exec i { modHart t hk (Hart.begin [] pc hdr (w :: ws)) with cur := hk } = .next u)
    (hc : (getHart (settle u hk) hk).conv = some c) (hch : c.hdr = hdr) (hcs : c.slot = 1)
    (hw : (getHart (settle u hk) hk).wait = .none) :
    runConvoy (modHart t hk (Hart.begin [] pc hdr (w :: ws))) hk = modHart (settle u hk) hk Hart.retire := by
  let c0 : Conv := { hdr := hdr, words := w :: ws, sprd := (getHart t hk).sprd }
  have hb : (Hart.begin [] pc hdr (w :: ws) (getHart t hk)).conv = some c0 := by
    simp [Hart.begin, beginConv, hres, c0]
  have hslot : stepSlot (modHart t hk (Hart.begin [] pc hdr (w :: ws))) hk = u := by
    refine stepSlot_of_decodeSlot _ u hk c0 i (by rw [getHart_modHart_same]; exact hb) ?_ ?_
    · simpa [c0, Sys2Proof.extOf, isExt, hext] using hd
    · rw [getHart_modHart_same, modHart, setHart_setHart]
      have e : ({ Hart.begin [] pc hdr (w :: ws) (getHart t hk) with conv := some { c0 with bad := false } } : Hart)
          = Hart.begin [] pc hdr (w :: ws) (getHart t hk) := by
        rw [show ({ c0 with bad := false } : Conv) = c0 from rfl, ← hb]
      rw [e]
      exact hx
  have hlast : runSlots 3 (settle u hk) hk = modHart (settle u hk) hk Hart.retire := by
    simp [runSlots, hc, hch, hcs, hns]
  rw [runConvoy, runSlots, getHart_modHart_same, hb]
  simp [c0, hns, hslot, hc, hw, hlast]

/-- CONVOY_ISSUE of a hart of the node is its turn to issue (R8). -/
theorem exec_convoyIssue (s : State) (hk : Nat) (hval : validHart hk = true) :
    exec (.convoyIssue hk) s = .next (issueConvoy s hk) :=
  if_pos hval

/-- A hart that may not issue stays as it is, only that its core notes the turn (R8). -/
theorem issueConvoy_stays (s : State) (hk : Nat)
    (h : mayIssue (modCore s (coreOf hk) (fun c => { c with lastHart := hartNo hk })) hk = false) :
    issueConvoy s hk = modCore s (coreOf hk) (fun c => { c with lastHart := hartNo hk }) := by
  simp only [issueConvoy, h, Bool.not_false, if_true]

/-- Settles O36: the three sources of a step, then fetch, decode and slot joined. -/
theorem stepRunsDecodedInstruction : Obligations.StepRunsDecodedInstruction := by
  refine ⟨fun s i rest h => ?_, fun s i rest h hp => ?_, fun s h hp => ?_, stepSlot_of_decodeSlot, ?_, ?_⟩
  · simp only [step, nextInstr, h]
  · simp only [step, nextInstr, h, hp]
  · simp only [step, nextInstr, h, hp]
  · intro s t hk hdr ws h v hval
    rw [exec_convoyIssue s hk hval]
    refine ⟨fun hmay => by rw [issueConvoy_stays s hk hmay], fun hoff hst hc ha he hr hs => ?_⟩
    rw [issueConvoy_between s hk hoff hst hc ha he hr hs]
    refine ⟨fun hy => by rw [if_pos hy], fun hy hf htr => ?_⟩
    rw [if_neg (Bool.eq_false_iff.mp hy)]
    exact ⟨fun hh => by rw [beginConvoy_bad v t hk hdr ws hf hh]; rfl,
      fun hh hb => by rw [beginConvoy_ok v t hk hdr ws ha hf htr hh hb]; rfl⟩
  · intro s t u hk rest hdr w ws i c h hin hval hoff hst hc ha he hr hs hy hf hres htr hns hext hh hd hx hcc hch hcs hw
    have hb : resumeBad (getHart t hk) hdr = false := by simp [resumeBad, hres]
    have hstep : step s = exec (.convoyIssue hk) { s with inputs := rest } := by simp only [step, nextInstr, hin]
    rw [hstep, exec_convoyIssue _ hk hval, issueConvoy_between { s with inputs := rest } hk hoff hst hc ha he hr hs,
      if_neg (show ¬ (getHart { s with inputs := rest } hk).yield = true from Bool.eq_false_iff.mp hy),
      beginConvoy_ok (modCore { s with inputs := rest } (coreOf hk) (fun c => { c with lastHart := hartNo hk })) t hk hdr
        (w :: ws) ha hf htr hh hb]
    exact congrArg Host.Outcome.next (runConvoy_one t u hk _ hdr w ws i c hres hns hext hd hx hcc hch hcs hw)
end Sys2Proof.Machine
end

section
/-! SUPPORT. Vector moves: the group an instruction of majors 0x30 to 0x36 writes (R126 to R140). -/
namespace Sys2Proof.Machine
open Sys2Proof

/-! ## Elements of a group -/

theorem elem_lt (v i w : Nat) : elem v i w < 2 ^ w := Nat.mod_lt _ (Nat.two_pow_pos _)

@[simp] theorem elem_mod (v i w : Nat) : elem v i w % 2 ^ w = elem v i w := Nat.mod_eq_of_lt (elem_lt v i w)

/-- The bits of an element (R5). -/
theorem testBit_elem (v i w j : Nat) : (elem v i w).testBit j = (decide (j < w) && v.testBit (i * w + j)) := by
  rw [elem, Nat.testBit_mod_two_pow, Nat.testBit_shiftRight]

/-- An element replaced in a group, and the others. -/
theorem elem_setElem (v n w x i : Nat) : elem (setElem v n w x) i w = if i = n then x % 2 ^ w else elem v i w := by
  have hw : setElem v n w x = 2 ^ (n * w) * (2 ^ w * (v >>> (n * w) / 2 ^ w) + x % 2 ^ w) + v % 2 ^ (n * w) := by
    have e : v = 2 ^ (n * w) * (2 ^ w * (v >>> (n * w) / 2 ^ w) + v >>> (n * w) % 2 ^ w) + v % 2 ^ (n * w) := by
      rw [Nat.div_add_mod, Nat.shiftRight_eq_div_pow, Nat.div_add_mod]
    simp only [setElem, elem, Nat.shiftLeft_eq, Nat.mul_comm _ (2 ^ (n * w))]
    rw [Nat.mul_add] at e ⊢
    omega
  apply Nat.eq_of_testBit_eq
  intro j
  rw [testBit_elem, hw, Nat.testBit_two_pow_mul_add _ (Nat.mod_lt _ (Nat.two_pow_pos _)),
    Nat.testBit_two_pow_mul_add _ (Nat.mod_lt _ (Nat.two_pow_pos _))]
  by_cases hj : j < w
  · rcases Nat.lt_trichotomy i n with h | h | h
    · have h1 : i * w + w ≤ n * w := by rw [← Nat.succ_mul]; exact Nat.mul_le_mul_right w h
      rw [if_pos (by omega), if_neg (by omega), testBit_elem, Nat.testBit_mod_two_pow]
      simp [hj, show i * w + j < n * w by omega]
    · subst h
      simp [hj]
    · have h1 : n * w + w ≤ i * w := by rw [← Nat.succ_mul]; exact Nat.mul_le_mul_right w h
      rw [if_neg (by omega), if_neg (by omega), if_neg (by omega), testBit_elem, ← Nat.shiftRight_eq_div_pow,
        Nat.testBit_shiftRight, Nat.testBit_shiftRight]
      congr 2
      omega
  · simp only [hj, decide_false, Bool.false_and]
    split
    · rw [Nat.testBit_mod_two_pow, decide_eq_false hj, Bool.false_and]
    · rw [testBit_elem, decide_eq_false hj, Bool.false_and]

/-! ## A group written and pushed -/

/-- A group written to its destination and pushed, with no flag and no saturation bit (R15). -/
theorem vectorWritten_pushV (s : State) (a : BitVec 7) (g v old : Nat) (hr : readV (curLocal s) a g = some old)
    (ha : a.toNat < 112 ∨ a.toNat = 127) (y : Local) (hy : writeV (curLocal s) a g v = some y) :
    VectorWritten s a g v 0 0 (.next (completed s (withLocal s (pushV y g v)))) := by
  have hf := pushV_writeV_frame (curLocal s) y a g v old hr ha hy
  refine ⟨y, pushV y g v, hy, rfl, rfl, ?_, fun k => ?_⟩
  · have hs : (pushV y g v).h.sticky = (cur s).sticky := by rw [hf]; rfl
    rw [show (cur s).sticky ||| BitVec.ofNat 6 0 = (pushV y g v).h.sticky by rw [hs]; exact BitVec.or_zero]
  · have hm : (pushV y g v).h.maskReg k = (cur s).maskReg k := by rw [hf]; rfl
    rw [hm]
    split
    · exact BitVec.or_zero.symm
    · rfl

/-- Group a of old value `old` has been written with the elements `f`, and pushed; nothing is written with VL = 0 or below the
element a resumed slot starts at (R35, R104, R126). -/
def MoveResult (s : State) (a : BitVec 7) (old : Nat) (f : Nat → Nat) (u : Host.Outcome State Fault Refusal) : Prop :=
  ∃ g, VectorWritten s a (cur s).grp g 0 0 u ∧ ((cur s).vl.toNat = 0 → g = old) ∧
    ((cur s).vl.toNat ≠ 0 → ∀ i, i < 1024 * (cur s).grp / (cur s).sew → elem g i (cur s).sew
      = if i < startElem (cur s) then elem old i (cur s).sew else f i % 2 ^ (cur s).sew)

/-- The destination of a move can be written: the mask fits, and group a, of value `old`, is a vector destination (R70, R105). -/
def MoveDest (s : State) (a : BitVec 7) (old : Nat) : Prop :=
  (cur s).maskFits = true ∧ (a.toNat < 112 ∨ a.toNat = 127) ∧ readV (curLocal s) a (cur s).grp = some old

/-- A slot that writes a group element by element: the elements `f` gives, the others kept (R126). -/
theorem putGroup_result (s : State) (major fn : Nat) (F : Local → Option Local) (a : BitVec 7) (f : Nat → Option Nat) (old : Nat)
    (h : SlotRuns s major fn) (hd : MoveDest s a old) (hF : F (curLocal s) = putGroup (curLocal s) a f) (f' : Nat → Nat)
    (he : ∀ i, (f i).getD (elem old i (cur s).sew) = f' i) : MoveResult s a old f' (runSlot major fn (localBody F) s) := by
  obtain rfl : (fun i => (f i).getD (elem old i (cur s).sew)) = f' := funext he
  obtain ⟨hm, ha, hr⟩ := hd
  let v := if (cur s).len = 0 then old else buildElems (cur s).sew ((List.range (1024 * (cur s).grp / (cur s).sew)).map
    (fun i => if i < startElem (cur s) then elem old i (cur s).sew else (f i).getD (elem old i (cur s).sew)))
  obtain ⟨y, hy, -⟩ := writeV_of_readV (curLocal s) a (cur s).grp v old hr ha
  have hp : putGroup (curLocal s) a f = some (pushV y (cur s).grp v) := by
    have hm' : (curLocal s).h.maskFits = true := hm
    have hr' : readV (curLocal s) a (curLocal s).h.grp = some old := hr
    simp only [putGroup, guard, hm', hr', if_true]
    exact congrArg (fun o => o.bind fun y => some (pushV y (cur s).grp v)) hy
  refine ⟨v, ?_, fun h0 => if_pos h0, fun h0 i hi => ?_⟩
  · rw [runSlot_runs _ _ _ _ h, localBody, show getLocal s s.cur = curLocal s from rfl, hF, hp]
    exact vectorWritten_pushV s a _ v old hr ha y hy
  · rw [show v = buildElems _ _ from if_neg h0, elem_buildElems, List.getD_eq_getElem?_getD, List.getElem?_map,
      List.getElem?_range hi]
    simp only [Option.map_some, Option.getD_some]
    split <;> simp

/-! ## Source groups -/

theorem sew_pos (h : Hart) : 0 < h.sew := Nat.mul_pos (by decide) (Nat.two_pow_pos _)

theorem grp_pos (h : Hart) : 0 < h.grp := Nat.two_pow_pos _

theorem grp_le (h : Hart) : h.grp ≤ 8 := by
  have : bits h.vcfg 5 4 < 4 := Nat.mod_lt _ (by decide)
  exact (Nat.pow_le_pow_right (by decide) (Nat.le_of_lt_succ this) : 2 ^ bits h.vcfg 5 4 ≤ 2 ^ 3)

/-- A destination whose elements keep their width has the group size of its sources (R106). -/
theorem destShape_sew (h : Hart) : destShape h h.sew = some (h.grp, 1024 * h.grp / h.sew) := by
  have e : h.grp * h.sew / h.sew = h.grp := Nat.mul_div_cancel _ (sew_pos h)
  have := grp_pos h
  have := grp_le h
  simp only [destShape, e]
  rw [if_neg (by omega), if_neg (by omega)]

/-- The source of a move with one source group (R106, R109). -/
theorem source1_of_ready (s : State) (a b : BitVec 7) (p d : Nat) (h : V1Ready s a b p d) :
    source1 (curLocal s) a b (curLocal s).h.sew = some p := by
  obtain ⟨-, -, -, hp, ho⟩ := h
  have ho' : overlapOk true a (curLocal s).h.grp b (curLocal s).h.grp = true := ho
  simp only [source1, destShape_sew, bind, Option.bind, guard, decide_true, ho', if_true]
  exact hp

/-- The sources of a move with two source groups (R106, R109). -/
theorem sources2_of_ready (s : State) (a b c : BitVec 7) (p q d : Nat) (h : VvReady s a b c p q d) :
    sources2 (curLocal s) a b c (curLocal s).h.sew = some (p, q) := by
  obtain ⟨-, -, -, hp, hq, ho1, ho2⟩ := h
  have ho1' : overlapOk true a (curLocal s).h.grp b (curLocal s).h.grp = true := ho1
  have ho2' : overlapOk true a (curLocal s).h.grp c (curLocal s).h.grp = true := ho2
  have hp' : readV (curLocal s) b (curLocal s).h.grp = some p := hp
  have hq' : readV (curLocal s) c (curLocal s).h.grp = some q := hq
  simp only [sources2, destShape_sew, bind, Option.bind, guard, decide_true, ho1', ho2', and_self, if_true, hp', hq']
  rfl

/-! ## What the mask and the tail leave -/

/-- An element the tail rule leaves (R104). -/
def tailLeft (h : Hart) (old i : Nat) : Nat := if h.tailz then 0 else elem old i h.sew

/-- Element i is active, without regard to a resumed slot (R104). -/
def Hart.below (h : Hart) (i : Nat) : Bool := decide (i < h.vl.toNat) && h.selBit i

/-- The element a move governed by the mask leaves, with `f` in the active ones (R104). -/
def governedElem (h : Hart) (old : Nat) (f : Nat → Nat) (i : Nat) : Nat :=
  if h.below i then f i else if i < h.vl.toNat then (if h.maskz then 0 else elem old i h.sew) else tailLeft h old i

theorem tailElem_getD (h : Hart) (old i : Nat) : (tailElem h).getD (elem old i h.sew) = tailLeft h old i := by
  unfold tailElem tailLeft
  split <;> rfl

theorem moveGoverned_getD (h : Hart) (f : Nat → Nat) (i old : Nat) :
    ((if i < h.len then (if h.selBit i then some (f i) else maskElem h) else tailElem h).getD (elem old i h.sew))
      = governedElem h old f i := by
  unfold governedElem Hart.below Hart.len maskElem
  by_cases h1 : i < h.vl.toNat
  · by_cases h2 : h.selBit i = true
    · simp [h1, h2]
    · simp only [h1, h2, if_true, decide_true, Bool.and_false, Bool.false_eq_true, if_false]
      split <;> rfl
  · simp only [h1, if_false, decide_false, Bool.false_and, Bool.false_eq_true, tailElem_getD]

/-- A slot that is a move governed by the mask (R104, R126). -/
theorem moveGoverned_result (s : State) (major fn : Nat) (F : Local → Option Local) (a : BitVec 7) (f : Nat → Nat) (old : Nat)
    (h : SlotRuns s major fn) (hd : MoveDest s a old)
    (hF : F (curLocal s) = moveGoverned (curLocal s) a (fun i => some (f i))) :
    MoveResult s a old (governedElem (cur s) old f) (runSlot major fn (localBody F) s) :=
  putGroup_result s major fn F a _ old h hd hF _ (fun i => moveGoverned_getD (cur s) f i old)

/-! ## The rules of single moves -/

theorem actives_eq (h : Hart) : h.actives = (List.range h.vl.toNat).filter h.below := by
  apply List.filter_congr
  intro j hj
  simp [Hart.below, show j < h.vl.toNat from List.mem_range.mp hj]

/-- The active elements below an index (R132). -/
theorem actives_below (h : Hart) (i : Nat) (hi : i < h.vl.toNat) :
    (h.actives.filter (fun j => decide (j < i))).length = ((List.range i).filter h.below).length := by
  obtain ⟨k, hk⟩ : ∃ k, h.vl.toNat = i + k := ⟨h.vl.toNat - i, by omega⟩
  have hlow : (List.range i).filter (fun j => decide (j < i) && h.below j) = (List.range i).filter h.below := by
    apply List.filter_congr
    intro j hj
    simp [List.mem_range.mp hj]
  have hhigh : ((List.range k).map (fun x => i + x)).filter (fun j => decide (j < i) && h.below j) = [] := by
    simp
  rw [actives_eq, List.filter_filter, hk, List.range_add, List.filter_append, hlow, hhigh, List.append_nil]

/-- A left shift of a bit string by its length or more leaves nothing (R133). -/
theorem shiftLeft_mod (v n l : Nat) : (if l ≤ n then 0 else v <<< n % 2 ^ l) = v * 2 ^ n % 2 ^ l := by
  split
  · next h => exact (Nat.mod_eq_zero_of_dvd (Dvd.dvd.mul_left (Nat.pow_dvd_pow 2 h) v)).symm
  · rw [Nat.shiftLeft_eq]

/-- A right shift of a bit string by its length or more leaves nothing (R133). -/
theorem shiftRight_of_lt (v n l : Nat) (hv : v < 2 ^ l) : (if l ≤ n then 0 else v >>> n) = v / 2 ^ n := by
  split
  · next h => exact (Nat.div_eq_of_lt (Nat.lt_of_lt_of_le hv (Nat.pow_le_pow_right (by decide) h))).symm
  · rw [Nat.shiftRight_eq_div_pow]

/-- A fold over the elements that are selected is one over their values (R137). -/
theorem foldl_selected (f : Nat → Nat → Nat) (sel : Nat → Bool) (x : Nat → Nat) (l : List Nat) (t : Nat) :
    l.foldl (fun t i => if sel i then f t (x i) else t) t = ((l.filter sel).map x).foldl f t := by
  rw [List.foldl_map, List.foldl_filter]

section
variable (s : State) (a b c : BitVec 7) (p q o : Nat) (n : DWord)

theorem V1Ready.dest {s a b p o} (hv : V1Ready s a b p o) : MoveDest s a o := ⟨hv.1, hv.2.1, hv.2.2.1⟩

theorem VvReady.dest {s a b c p q o} (hv : VvReady s a b c p q o) : MoveDest s a o := ⟨hv.1, hv.2.1, hv.2.2.1⟩

/-- R129. -/
theorem vmov_result (hv : V1Ready s a b p o) (h : SlotRuns s 0x30 0) :
    MoveResult s a o (governedElem (cur s) o (fun i => elem p i (cur s).sew)) (exec (.vmov a b) s) :=
  moveGoverned_result s _ _ _ a _ o h hv.dest (by simp only [source1_of_ready s a b p o hv]; rfl)

/-- R129. -/
theorem vsplat_result (v : DWord) (hd : MoveDest s a o) (hb : readS (cur s) b = some v) (h : SlotRuns s 0x30 1) :
    MoveResult s a o (governedElem (cur s) o (fun _ => v.toNat)) (exec (.vsplat a b) s) :=
  moveGoverned_result s _ _ _ a _ o h hd (by simp only [show readS (curLocal s).h b = some v from hb]; rfl)

/-- R129. -/
theorem vmerge_result (hv : VvReady s a b c p q o) (h : SlotRuns s 0x30 2) :
    MoveResult s a o (fun i => if (cur s).below i then elem p i (cur s).sew
      else if i < (cur s).vl.toNat then elem q i (cur s).sew else tailLeft (cur s) o i) (exec (.vmerge a b c) s) := by
  refine putGroup_result s _ _ _ a _ o h hv.dest (by simp only [sources2_of_ready s a b c p q o hv]; rfl) _ (fun i => ?_)
  show (if i < (cur s).len then some (if (cur s).selBit i then elem p i (cur s).sew else elem q i (cur s).sew)
    else tailElem (cur s)).getD (elem o i (cur s).sew) = _
  unfold Hart.below Hart.len
  by_cases h1 : i < (cur s).vl.toNat
  · by_cases h2 : (cur s).selBit i = true <;> simp [h1, h2]
  · simp [h1, tailElem_getD]

/-- R130. -/
theorem vslup_result (hv : V1Ready s a b p o) (hn : readS (cur s) c = some n) (h : SlotRuns s 0x31 0) :
    MoveResult s a o (fun i => if i < (cur s).vl.toNat ∧ i < n.toNat then elem o i (cur s).sew
      else governedElem (cur s) o (fun i => elem p (i - n.toNat) (cur s).sew) i) (exec (.vslup a b c) s) := by
  refine putGroup_result s _ _ _ a _ o h hv.dest (by
    simp only [source1_of_ready s a b p o hv, show readS (curLocal s).h c = some n from hn]; rfl) _ (fun i => ?_)
  show (if i < (cur s).len then (if i < n.toNat then none else if (cur s).selBit i then
    some (elem p (i - n.toNat) (cur s).sew) else maskElem (cur s)) else tailElem (cur s)).getD (elem o i (cur s).sew) = _
  rw [← moveGoverned_getD]
  by_cases h1 : i < (cur s).vl.toNat
  · by_cases h2 : i < n.toNat <;> simp [h1, h2, Hart.len]
  · simp [h1, Hart.len]

/-- R130. -/
theorem vsldn_result (hv : V1Ready s a b p o) (hn : readS (cur s) c = some n) (h : SlotRuns s 0x31 1) :
    MoveResult s a o (governedElem (cur s) o (fun i => if i + n.toNat < (cur s).vl.toNat
      then elem p (i + n.toNat) (cur s).sew else 0)) (exec (.vsldn a b c) s) :=
  moveGoverned_result s _ _ _ a _ o h hv.dest (by
    simp only [source1_of_ready s a b p o hv, show readS (curLocal s).h c = some n from hn]; rfl)

/-- R131. -/
theorem vperm_result (hv : VvReady s a b c p q o) (h : SlotRuns s 0x31 2) :
    MoveResult s a o (governedElem (cur s) o (fun i => if elem q i (cur s).sew < (cur s).vl.toNat
      then elem p (elem q i (cur s).sew) (cur s).sew else 0)) (exec (.vperm a b c) s) :=
  moveGoverned_result s _ _ _ a _ o h hv.dest (by simp only [sources2_of_ready s a b c p q o hv]; rfl)

/-- R132. -/
theorem vcomp_result (hv : V1Ready s a b p o) (h : SlotRuns s 0x31 3) :
    MoveResult s a o (fun i => match ((List.range (cur s).vl.toNat).filter (cur s).below)[i]? with
      | some j => elem p j (cur s).sew | none => tailLeft (cur s) o i) (exec (.vcomp a b) s) := by
  refine putGroup_result s _ _ _ a _ o h hv.dest (by simp only [source1_of_ready s a b p o hv]; rfl) _ (fun i => ?_)
  rw [← actives_eq]
  show (match (cur s).actives[i]? with | some j => some (elem p j (cur s).sew) | none => tailElem (cur s)).getD _ = _
  cases (cur s).actives[i]? with
  | none => exact tailElem_getD _ _ _
  | some j => rfl

/-- R132. -/
theorem vexp_result (hv : V1Ready s a b p o) (h : SlotRuns s 0x31 4) :
    MoveResult s a o (governedElem (cur s) o (fun i => elem p ((List.range i).filter (cur s).below).length (cur s).sew))
      (exec (.vexp a b) s) := by
  have e : governedElem (cur s) o (fun i => elem p ((List.range i).filter (cur s).below).length (cur s).sew)
      = governedElem (cur s) o (fun i => elem p ((cur s).actives.filter (fun j => j < i)).length (cur s).sew) := by
    funext i
    unfold governedElem
    split
    · next hi =>
      rw [Hart.below, Bool.and_eq_true, decide_eq_true_eq] at hi
      exact congrArg (fun k => elem p k (cur s).sew) (actives_below _ i hi.1).symm
    · rfl
  rw [e]
  exact moveGoverned_result s _ _ _ a _ o h hv.dest (by simp only [source1_of_ready s a b p o hv]; rfl)

/-- R133. -/
theorem vsh_result (hv : V1Ready s a b p o) (hn : readS (cur s) c = some n) (h : SlotRuns s 0x32 0) :
    MoveResult s a o (governedElem (cur s) o (fun i => elem
      (if 0 ≤ n.toInt then p % 2 ^ ((cur s).vl.toNat * (cur s).sew) * 2 ^ n.toNat % 2 ^ ((cur s).vl.toNat * (cur s).sew)
        else p % 2 ^ ((cur s).vl.toNat * (cur s).sew) / 2 ^ (-n.toInt).toNat) i (cur s).sew)) (exec (.vsh a b c) s) := by
  rw [← shiftLeft_mod, ← shiftRight_of_lt _ (-n.toInt).toNat _ (Nat.mod_lt _ (Nat.two_pow_pos _))]
  exact moveGoverned_result s _ _ _ a _ o h hv.dest (by
    simp only [source1_of_ready s a b p o hv, show readS (curLocal s).h c = some n from hn]; rfl)

/-- R133. -/
theorem vfsh_result (hv : V1Ready s a b p o) (hn : readS (cur s) c = some n) (h : SlotRuns s 0x32 1) :
    MoveResult s a o (governedElem (cur s) o (fun i => elem
      ((o % 2 ^ ((cur s).vl.toNat * (cur s).sew) * 2 ^ ((cur s).vl.toNat * (cur s).sew)
        + p % 2 ^ ((cur s).vl.toNat * (cur s).sew)) / 2 ^ n.toNat % 2 ^ ((cur s).vl.toNat * (cur s).sew)) i (cur s).sew))
      (exec (.vfsh a b c) s) := by
  have hlt (x y l : Nat) : x % 2 ^ l * 2 ^ l + y % 2 ^ l < 2 ^ (2 * l) := by
    have hx := Nat.mod_lt x (Nat.two_pow_pos l)
    have hy := Nat.mod_lt y (Nat.two_pow_pos l)
    have := Nat.mul_le_mul_right (2 ^ l) (Nat.succ_le_of_lt hx)
    rw [Nat.succ_mul] at this
    rw [Nat.two_mul, Nat.pow_add]
    omega
  have hz (l : Nat) (z : Nat) : (if 2 * l ≤ n.toNat then 0 else z) % 2 ^ l = if 2 * l ≤ n.toNat then 0 else z % 2 ^ l := by
    split <;> simp
  rw [← shiftRight_of_lt _ n.toNat _ (hlt o p _), hz]
  exact moveGoverned_result s _ _ _ a _ o h hv.dest (by
    simp only [source1_of_ready s a b p o hv, show readS (curLocal s).h c = some n from hn,
      show readV (curLocal s) a (curLocal s).h.grp = some o from hv.dest.2.2]; rfl)

/-- R137. -/
theorem reduceGroups_result (fn : Nat) (f : Nat → Nat → Nat) (hv : V1Ready s a b p o) (hw : 8 ≤ (cur s).sew) (h1 : 1 ≤ c.toNat)
    (h6 : c.toNat ≤ 6) (h : SlotRuns s 0x34 fn) :
    MoveResult s a o (fun j => if j < ((cur s).vl.toNat + 2 ^ c.toNat - 1) / 2 ^ c.toNat
      then ((((List.range (2 ^ c.toNat)).map (fun t => j * 2 ^ c.toNat + t)).filter (cur s).below).map
        (fun i => elem p i (cur s).sew)).foldl f 0 else tailLeft (cur s) o j)
      (runSlot 0x34 fn (localBody (reduceGroups f a b c)) s) := by
  have hi : (curLocal s).h.intSew = true := decide_eq_true hw
  refine putGroup_result s _ _ _ a _ o h hv.dest (by
    simp only [reduceGroups, guard, hi, h1, h6, and_self, if_true, source1_of_ready s a b p o hv]; rfl) _ (fun j => ?_)
  rw [← foldl_selected, ← tailElem_getD]
  show (if j < ((cur s).len + 2 ^ c.toNat - 1) / 2 ^ c.toNat then some _ else tailElem (cur s)).getD _ = _
  unfold Hart.len
  split <;> rfl

/-- R137. -/
theorem vgmax_result (hv : V1Ready s a b p o) (hw : 8 ≤ (cur s).sew) (h1 : 1 ≤ c.toNat) (h6 : c.toNat ≤ 6)
    (h : SlotRuns s 0x34 0) :
    MoveResult s a o (fun j => if j < ((cur s).vl.toNat + 2 ^ c.toNat - 1) / 2 ^ c.toNat
      then ((((List.range (2 ^ c.toNat)).map (fun t => j * 2 ^ c.toNat + t)).filter (cur s).below).map
        (fun i => elem p i (cur s).sew)).foldl max 0 else tailLeft (cur s) o j) (exec (.vgmax a b c) s) := by
  have hmax : max = (fun t e : Nat => if t < e then e else t) := by
    funext t e
    rw [Nat.max_def]
    split <;> split <;> omega
  rw [hmax]
  exact reduceGroups_result s a b c p o 0 _ hv hw h1 h6 h

/-- R140. -/
theorem vputx_result (v : DWord) (hd : MoveDest s a o) (hb : readS (cur s) b = some v) (hn : readS (cur s) c = some n)
    (h : SlotRuns s 0x36 3) :
    ∃ g, VectorWritten s a (cur s).grp g 0 0 (exec (.vputx a b c) s) ∧ ∀ i, i < 1024 * (cur s).grp / (cur s).sew →
      elem g i (cur s).sew = if i = n.toNat then v.toNat % 2 ^ (cur s).sew else elem o i (cur s).sew := by
  obtain ⟨-, ha, hr⟩ := hd
  let u := if n.toNat < (cur s).vlmax then setElem o n.toNat (cur s).sew v.toNat else o
  obtain ⟨y, hy, -⟩ := writeV_of_readV (curLocal s) a (cur s).grp u o hr ha
  have hp : putElem a b c (curLocal s) = some (pushV y (cur s).grp u) := by
    simp only [putElem, show readV (curLocal s) a (curLocal s).h.grp = some o from hr,
      show readS (curLocal s).h b = some v from hb, show readS (curLocal s).h c = some n from hn]
    exact congrArg (fun o => o.bind fun y => some (pushV y (cur s).grp u)) hy
  refine ⟨u, ?_, fun i hi => ?_⟩
  · rw [show exec (.vputx a b c) s = runSlot 0x36 3 (localBody (putElem a b c)) s from rfl, runSlot_runs _ _ _ _ h, localBody,
      show getLocal s s.cur = curLocal s from rfl, hp]
    exact vectorWritten_pushV s a _ u o hr ha y hy
  · by_cases hlt : n.toNat < (cur s).vlmax
    · rw [show u = _ from if_pos hlt, elem_setElem]
    · rw [show u = o from if_neg hlt, if_neg (fun e => hlt (by rw [← e]; exact hi))]
end

/-- Settles O20: each instruction writes its group element by element, and its rule gives the element written. -/
theorem vectorMoveResults : Obligations.VectorMoveResults := by
  intro s a b c p q o v n x y d act w L E hx hy hd hact
  obtain rfl : (fun i => elem p i (cur s).sew) = x := funext fun i => (hx i).symm
  obtain rfl : (fun i => elem q i (cur s).sew) = y := funext fun i => (hy i).symm
  obtain rfl : (fun i => elem o i (cur s).sew) = d := funext fun i => (hd i).symm
  obtain rfl : (cur s).below = act := funext fun i => (hact i).symm
  exact ⟨fun hv => ⟨vmov_result s a b p o hv, vcomp_result s a b p o hv, vexp_result s a b p o hv,
    fun hn => ⟨vslup_result s a b c p o n hv hn, vsldn_result s a b c p o n hv hn, vsh_result s a b c p o n hv hn,
      vfsh_result s a b c p o n hv hn⟩, fun hw h1 h6 => ⟨vgmax_result s a b c p o hv hw h1 h6,
      reduceGroups_result s a b c p o 1 _ hv hw h1 h6⟩⟩,
    fun hv => ⟨vmerge_result s a b c p q o hv, vperm_result s a b c p q o hv⟩,
    fun hv hb => ⟨vsplat_result s a b o v hv.dest hb, fun hn => vputx_result s a b c o n v hv.dest hb hn⟩⟩

end Sys2Proof.Machine
end

section
/-! SUPPORT. What checking an access changes, how the sectors of a load meet the slices, and what a vector load leaves for its
destination (R146, R147, R153, R154). -/
namespace Sys2Proof.Machine

open Sys2Proof

/-! ## Checks leave memory as it is (R146) -/

/-- The state a check ends in. -/
def Chk.state {α : Type} : Chk α → State
  | .ok _ s => s
  | .fault _ _ _ s => s
  | .miss s => s

/-- The state in which the checks of a list of elements end. -/
def Checked.state : Checked → State
  | .all _ s => s
  | .fault _ _ _ _ _ s => s
  | .miss s => s

theorem SameLinesApart.mem {s t : State} (h : SameLinesApart s t) : t.mem = s.mem := by rw [h]

theorem SameLinesApart.harts {s t : State} (h : SameLinesApart s t) : t.harts = s.harts := by rw [h]

/-- A run of steps that each change the lines held and the sharers alone changes those alone. -/
theorem SameLinesApart.foldl {α : Type} (f : State → α → State) (hf : ∀ s a, SameLinesApart s (f s a)) (l : List α) (s : State) :
    SameLinesApart s (l.foldl f s) := by
  induction l generalizing s with
  | nil => exact SameLinesApart.rfl s
  | cons a l ih => exact (hf s a).trans (ih _)

theorem touchWalk_frame (s : State) (dev ctx va : Nat) : SameLinesApart s (touchWalk s dev ctx va) := by
  unfold touchWalk
  split
  · exact SameLinesApart.rfl s
  · exact SameLinesApart.foldl _ (fun t l => touchSector_frame t dev none l) _ _

theorem recallLine_frame (s : State) (drop : Bool) (l : Nat) : SameLinesApart s (recallLine s drop l) := by
  unfold recallLine
  simp only
  split
  · exact SameLinesApart.rfl s
  · refine SameLinesApart.foldl _ (fun t d => ?_) _ _
    split
    · exact sweep_frame _ _ _
    · exact SameLinesApart.rfl t

theorem markLine_same (s : State) (dev l : Nat) : SameLinesApart s (markLine s dev l) := by
  unfold SameLinesApart
  rw [markLine_frame]

theorem noteSkew_mem (s : State) (pa : Nat) (e : DWord) : (noteSkew s pa e).mem = s.mem := by rw [noteSkew_frame]

theorem useEntry_mem (s : State) (a : Agent) (k : Kind) (va e : DWord) (z : Nat) :
    (useEntry s a k va e z).state.mem = s.mem := by
  unfold useEntry
  simp only
  by_cases h1 : bit e 0 = false
  · rw [if_pos h1]; rfl
  · rw [if_neg h1]
    by_cases h2 : permits e k a.mode = false
    · rw [if_pos h2]; rfl
    · rw [if_neg h2]
      split
      · rfl
      · exact noteSkew_mem _ _ _

theorem requestTranslation_mem (s : State) (hk ctx : Nat) (va : DWord) (k : Nat) :
    (requestTranslation s hk ctx va k).mem = s.mem := by
  unfold requestTranslation
  simp only
  split
  · split <;> simp
  · split
    · rfl
    · split <;> simp [deliver]

theorem translate_mem (s : State) (a : Agent) (k : Kind) (va : DWord) (p : Path) :
    (translate s a k va p).state.mem = s.mem := by
  unfold translate
  simp only
  split
  · exact useEntry_mem _ _ _ _ _ _
  · split
    · simp [useEntry_mem]
    · split
      · simp [Chk.state]
      · split
        · have hw := (touchWalk_frame s (devOfHart a.hk) a.ctx (va.toNat % 2 ^ 56)).mem
          split
          · exact hw
          · exact hw
          · rw [useEntry_mem]; simpa using hw
        · exact requestTranslation_mem _ _ _ _ _

theorem globalPieces_mem (s : State) (a : Agent) (k : Kind) (va : DWord) (n : Nat) (p : Path) :
    (globalPieces s a k va n p).state.mem = s.mem := by
  have h1 := translate_mem s a k va p
  unfold globalPieces
  simp only
  split
  · split <;> simp_all [Chk.state]
  · split
    case h_1 t ht =>
      have h2 := translate_mem t a k (va + BitVec.ofNat 64 (65536 - va.toNat % 65536)) p
      split <;> simp_all [Chk.state]
    all_goals simp_all [Chk.state]

theorem elemCheck_mem (s : State) (a : Agent) (k : Kind) (va : DWord) (n al : Nat) (p : Path) :
    (elemCheck s a k va n al p).state.mem = s.mem := by
  unfold elemCheck
  simp only
  by_cases hw : windowOf va = 0
  · rw [if_pos hw]
    by_cases hl : windowOf (va + BitVec.ofNat 64 (n - 1)) ≠ 0
    · rw [if_pos hl]; rfl
    · rw [if_neg hl]
      split
      · rfl
      · exact globalPieces_mem _ _ _ _ _ _
  · rw [if_neg hw]
    split
    · rfl
    · split_ifs <;> rfl

theorem checkAccs_mem (hk : Nat) (k : Kind) (al : Nat) (p : Path) (l passed : List Acc) (s : State) :
    (checkAccs s hk k al p passed l).state.mem = s.mem := by
  induction l generalizing s passed with
  | nil => rfl
  | cons a l ih =>
    have h := elemCheck_mem s (agentOf s hk) k a.va a.n al p
    unfold checkAccs
    split
    case h_1 ps t ht => rw [ih]; simpa [ht, Chk.state] using h
    all_goals simp_all [Chk.state, Checked.state]

theorem refillUnit_mem (s : State) (hk : Nat) (as : List Acc) (va : DWord) : (refillUnit s hk as va).mem = s.mem := by
  unfold refillUnit
  simp only
  split <;> simp

theorem checkMode_mem (m : Mode) (lo : Nat) (k : Kind) (as : List Acc) (s : State) (hk : Nat) :
    (checkMode m lo k as s hk).state.mem = s.mem := by
  unfold checkMode
  rw [checkAccs_mem]
  cases m <;> simp [unitPage, refillUnit_mem]

/-! ## The elements that passed are those asked for, with their pieces (R146) -/

/-- The elements that have passed are the checked ones, each with its pieces, in order. -/
theorem checkAccs_all (hk : Nat) (k : Kind) (al : Nat) (p : Path) (l passed : List Acc) (s u : State) (as : List Acc)
    (h : checkAccs s hk k al p passed l = .all as u) :
    as.map (fun a => { a with pieces := [] }) = (passed ++ l).map (fun a => { a with pieces := [] }) := by
  induction l generalizing s passed with
  | nil =>
    obtain ⟨rfl, -⟩ := Checked.all.inj h
    simp
  | cons a l ih =>
    unfold checkAccs at h
    split at h
    case h_1 ps t ht => simpa using ih _ _ h
    all_goals exact absurd h (by simp)

/-! ## The sectors of a load (R318) -/

/-- The sectors of a load change the lines held and the sharers alone. -/
theorem touchAccs_load_frame (s : State) (hk scope : Nat) (evf : Bool) (as : List Acc) :
    SameLinesApart s (touchAccs s hk scope false evf as) := by
  have ht : ∀ (far : Bool) (t : State) (q : Nat × DWord), SameLinesApart t
      (touchSector (if far then recallLine t false (64 * q.1) else t) (servingDev hk scope (64 * q.1)) none (64 * q.1)) := by
    intro far t q
    refine SameLinesApart.trans ?_ (touchSector_frame _ _ _ _)
    split
    · exact recallLine_frame _ _ _
    · exact SameLinesApart.rfl t
  simp only [touchAccs, touchDirect, touchRun, Bool.false_and, if_neg Bool.false_ne_true, Option.isSome_none, Option.map_none]
  split
  · exact (SameLinesApart.foldl _ (fun t q => ht _ t q) _ _).trans
      (SameLinesApart.foldl _ (fun t q => markLine_same _ _ _) _ _)
  · exact SameLinesApart.foldl _ (fun t q => ht _ t q) _ _

/-- A load whose elements have all passed issues one operation with what its data will write. -/
theorem issueOp_load (u : State) (hk scope : Nat) (evf : Bool) (as : List Acc) (ret : List Ret) (fabric : List FabReq) :
    IssuedWith hk u (issueOp (touchAccs u hk scope false evf as)
      { opOf u hk 1 scope as (refusals u hk .load as) with ret := ret, fabric := fabric }) 1 ret (refusals u hk .load as) := by
  generalize refusals u hk .load as = rs
  have hf := touchAccs_load_frame u hk scope evf as
  generalize touchAccs u hk scope false evf as = t at hf ⊢
  refine ⟨{ opOf u hk 1 scope as rs with ret := ret, fabric := fabric, ctx := ctxKeyOf u hk }, rfl, rfl, rfl, rfl, rfl, rfl, ?_⟩
  unfold SameLinesApart at hf
  rw [hf]
  rfl

/-- Issuing an operation leaves memory. -/
@[simp] theorem issueOp_mem (s : State) (o : Op) : (issueOp s o).mem = s.mem := by simp [issueOp, fresh]

/-! ## The elements of the destination (R35, R104, R154) -/

/-- A loaded group holds, element by element, the value found for it, or what MASKZ and TAILZ say (R104, R154). -/
theorem elem_loadMerge (h : Hart) (w n old i got : Nat) (vals : List (Nat × Nat)) (hi : i < n)
    (hv : vals.find? (fun p => p.1 == i) = if i < h.len ∧ h.selBit i = true ∧ startElem h ≤ i then some (i, got) else none) :
    elem (loadMerge h w n old none vals) i w = loadedElem h i (elem old i w) (got % 2 ^ w) := by
  have hl : h.len = 0 ↔ h.vl = 0 := by simp [Hart.len, BitVec.toNat_eq]
  unfold loadMerge loadedElem
  by_cases h0 : h.vl = 0
  · simp [h0, hl.mpr h0]
  rw [if_neg (fun e => h0 (hl.mp e)), elem_buildElems, List.getD_eq_getElem?_getD, List.getElem?_map, List.getElem?_range hi]
  simp only [Option.map_some, Option.getD_some, h0, false_or, Bool.false_eq_true, if_false]
  by_cases hs : i < startElem h
  · simp [hs]
  · rw [if_neg hs, if_neg hs, hv]
    by_cases h1 : i < h.len
    · by_cases h2 : h.selBit i = true
      · simp [h1, h2, Nat.not_lt.mp hs]
      · by_cases h3 : h.maskz = true <;> simp [keptElem, hs, h1, h2, h3]
    · by_cases h3 : h.tailz = true <;> simp [keptElem, hs, h1, h3]

/-- The accesses of a vector access are those of the active elements from the start element on. -/
theorem mem_elemAccs (h : Hart) (n : Nat) (addr : Nat → Nat) (c : Acc) :
    c ∈ elemAccs h n addr ↔ ∃ i, (i < h.len ∧ h.selBit i = true ∧ startElem h ≤ i) ∧ c = ⟨i, BitVec.ofNat 64 (addr i), n, []⟩ := by
  simp only [elemAccs, List.mem_map, List.mem_filter, List.mem_range, Bool.and_eq_true, decide_eq_true_eq]
  exact ⟨fun ⟨i, hi, hc⟩ => ⟨i, hi, hc.symm⟩, fun ⟨i, hi, hc⟩ => ⟨i, hi, hc.symm⟩⟩

/-- Of elements that passed, each is one of those asked for; and each one asked for has passed (R146). -/
theorem mem_passed {hk : Nat} {k : Kind} {al : Nat} {p : Path} {l as : List Acc} {s u : State}
    (h : checkAccs s hk k al p [] l = .all as u) :
    (∀ c ∈ as, ∃ x ∈ l, x.idx = c.idx ∧ x.va = c.va) ∧ ∀ x ∈ l, ∃ c ∈ as, c.idx = x.idx ∧ c.va = x.va := by
  have e := checkAccs_all hk k al p l [] s u as h
  rw [List.nil_append] at e
  constructor
  · intro c hc
    obtain ⟨x, hx, hxc⟩ := List.mem_map.mp (e ▸ List.mem_map_of_mem hc)
    exact ⟨x, hx, (Acc.mk.inj hxc).1, (Acc.mk.inj hxc).2.1⟩
  · intro x hx
    obtain ⟨c, hc, hxc⟩ := List.mem_map.mp (e.symm ▸ List.mem_map_of_mem hx)
    exact ⟨c, hc, (Acc.mk.inj hxc).1, (Acc.mk.inj hxc).2.1⟩

/-- Each element of a loaded group is what the access of that element, if it is active, brings (R154). -/
theorem loaded_elem (h : Hart) (w n old k b : Nat) (addr : Nat → Nat) (f : Acc → Nat) {hk : Nat} {p : Path} {as : List Acc}
    {s u : State} (hc : checkAccs s hk .load 1 p [] (elemAccs h b addr) = .all as u) (hk : k < n) :
    ∃ got, elem (loadMerge h w n old none (as.map (fun c => (c.idx, f c)))) k w = loadedElem h k (elem old k w) (got % 2 ^ w) ∧
      (k < h.len → h.selBit k = true → startElem h ≤ k →
        ∃ acc ∈ as, acc.idx = k ∧ acc.va = BitVec.ofNat 64 (addr k) ∧ got = f acc) := by
  obtain ⟨asked, passed⟩ := mem_passed hc
  by_cases ha : k < h.len ∧ h.selBit k = true ∧ startElem h ≤ k
  · have hex : ∃ c ∈ as, (c.idx == k) = true := by
      obtain ⟨c, hc, hi, -⟩ := passed _ ((mem_elemAccs h b addr _).mpr ⟨k, ha, rfl⟩)
      exact ⟨c, hc, by simpa using hi⟩
    obtain ⟨acc, hacc⟩ := Option.isSome_iff_exists.mp (List.find?_isSome.mpr hex)
    have hidx : acc.idx = k := by simpa using List.find?_some hacc
    have hva : acc.va = BitVec.ofNat 64 (addr k) := by
      obtain ⟨x, hx, hi, hv⟩ := asked acc (List.mem_of_find?_eq_some hacc)
      obtain ⟨i, -, rfl⟩ := (mem_elemAccs h b addr x).mp hx
      rw [← hv, ← hidx, ← hi]
    refine ⟨f acc, elem_loadMerge h w n old k (f acc) _ hk ?_, fun _ _ _ => ⟨acc, List.mem_of_find?_eq_some hacc, hidx, hva, rfl⟩⟩
    rw [if_pos ha, List.find?_map]
    simp only [Function.comp_def, hacc, Option.map_some, hidx]
  · refine ⟨0, elem_loadMerge h w n old k 0 _ hk ?_, fun h1 h2 h3 => absurd ⟨h1, h2, h3⟩ ha⟩
    rw [if_neg ha, List.find?_eq_none]
    intro q hq
    obtain ⟨c, hc, rfl⟩ := List.mem_map.mp hq
    obtain ⟨x, hx, hi, -⟩ := asked c hc
    obtain ⟨i, hact, rfl⟩ := (mem_elemAccs h b addr x).mp hx
    intro hck
    exact ha (by rwa [← show i = k from hi.trans (by simpa using hck)])

/-- The body of a vector load whose operands are readable and whose elements all pass (R153, R154). -/
theorem vectorLoad_all (m : Mode) (a b : BitVec 7) (e : Option Word) (s u : State) (hk old : Nat) (t : Attr) (addr : Nat → Nat)
    (as : List Acc) (ht : attrOf false e = some t) (hm : (getLocal s hk).h.maskFits = true)
    (hv : vecAddrs (getLocal s hk) m a b t = some addr) (ha : a.toNat < 112 ∨ a.toNat = 127)
    (ho : readV (getLocal s hk) a (getLocal s hk).h.grp = some old) (hl : (getLocal s hk).h.lcnt < 63)
    (hc : checkMode m (addr 0) .load (elemAccs (getLocal s hk).h (elemBytes (getLocal s hk).h) addr) s hk = .all as u) :
    vectorLoad m a b e s hk = .done (issueOp (touchAccs u hk t.scope false t.evf as)
      { opOf u hk 1 t.scope as (refusals u hk .load as) with
        ret := [.vector a.toNat (getLocal s hk).h.grp (loadMerge (getLocal s hk).h (getLocal s hk).h.sew
          (1024 * (getLocal s hk).h.grp / (getLocal s hk).h.sew) old none
          (as.map (fun c => (c.idx, elemBits (getLocal s hk).h c.idx (loadAcc u hk c))))) true],
        fabric := as.flatMap (loadRemote u hk) }) := by
  obtain ⟨y, hy, -⟩ := writeV_of_readV _ a _ 0 _ ho ha
  have hf : counterFull (getLocal s hk).h 1 = false := by simpa [counterFull] using hl
  simp [vectorLoad, ht, hm, hv, hy, ho, hf, hc, finishLoad]

/-- Settles O25: once its elements have passed the checks, a vector load only issues one operation, whose return is the merge of
the loaded elements with the old group. -/
theorem vectorLoads : Obligations.VectorLoads := by
  intro s u a b c e t m addr old fn as i hi hr ht hm hv ha ho hl hc
  have hx : exec i s = .next (finishSlot s.cur (cur s).prefixLive (vectorLoad m a b e s s.cur)) := by
    simp only [List.mem_cons, Prod.mk.injEq, List.not_mem_nil, or_false] at hi
    rcases hi with ⟨rfl, rfl, rfl⟩ | ⟨rfl, rfl, rfl⟩ | ⟨rfl, rfl, rfl⟩ <;> exact runSlot_runs _ _ _ _ hr
  rw [hx, vectorLoad_all m a b e s u s.cur old t addr as ht hm hv ha ho hl hc]
  have hmem : u.mem = s.mem := by
    have := checkMode_mem m (addr 0) .load (elemAccs (cur s) (elemBytes (cur s)) addr) s s.cur
    rwa [hc] at this
  refine ⟨_, _, rfl, ?_, issueOp_load _ _ _ _ _ _ _, fun k hk => ?_⟩
  · rw [issueOp_mem, (touchAccs_load_frame _ _ _ _ _).mem, hmem]
  · obtain ⟨got, hg, hact⟩ := loaded_elem (cur s) (cur s).sew _ old k _ addr
      (fun c => elemBits (cur s) c.idx (loadAcc u s.cur c)) hc hk
    refine ⟨got, hg, fun h1 h2 h3 => ?_⟩
    obtain ⟨acc, hacc, hidx, hva, rfl⟩ := hact h1 h2 h3
    exact ⟨acc, hacc, hidx, hva, by rw [hidx]; rfl⟩

end Sys2Proof.Machine
end

section
/-! SUPPORT. Where O51 fails: a double trap of a hart within a convoy (R268, R403). -/
namespace Sys2Proof.Machine
open Sys2Proof

/-- A hart within a convoy in supervisor mode, with IE = 0. -/
def supervisor : State := { State.reset with harts := [(0, { st := .running, hstat := 1, conv := some {} })] }

/-- A double trap there ends the hart at once, since its convoy goes no further; a fence of the context that leaves the convoy as it
is lets it run on to its next boundary (R268, R403). -/
theorem doubleTrap_stops : (getHart (trapped supervisor 2 0 0 0 0 supervisor) 0).st = .idle ∧
    (getHart (fenceContext supervisor (devOfHart 0) (cur supervisor).ctxid.toNat 2 0 2) 0).st = .running :=
  ⟨by decide +kernel, by decide +kernel⟩

/-- Refutes O51: the clause on double traps fences the context of the state before the trap, where the hart is still within its
convoy; the model fences after the convoy has stopped, and the hart is idle at once. -/
theorem not_trapsAndReturns : ¬ Obligations.TrapsAndReturns := by
  intro h
  obtain ⟨-, -, -, hdouble, -⟩ := h supervisor 0 2 0 0 0 0
  have he := hdouble (by decide +kernel) (by decide +kernel) (by decide +kernel)
  obtain ⟨hidle, hrun⟩ := doubleTrap_stops
  rw [he] at hidle
  exact HartState.noConfusion (hidle.symm.trans hrun)

end Sys2Proof.Machine
end

section
/-! SUPPORT. What the rope, barrier and time instructions and the steps that release their waits do (R228, R233 to R236, R240). -/
namespace Sys2Proof.Machine

open Sys2Proof

/-! ## A run of changes to distinct harts -/

/-- A run of changes to harts leaves memory and every hart that is none of them. -/
theorem foldl_modHart_frame {α : Type} (key : α → Nat) (f : α → Hart → Hart) (l : List α) (s : State) :
    (l.foldl (fun t a => modHart t (key a) (f a)) s).mem = s.mem ∧
      ∀ k, (∀ a ∈ l, key a ≠ k) → getHart (l.foldl (fun t a => modHart t (key a) (f a)) s) k = getHart s k := by
  induction l generalizing s with
  | nil => exact ⟨rfl, fun _ _ => rfl⟩
  | cons a l ih =>
    obtain ⟨hm, hk⟩ := ih (modHart s (key a) (f a))
    refine ⟨hm, fun k hne => ?_⟩
    rw [List.foldl_cons, hk k (fun b hb => hne b (List.mem_cons_of_mem a hb)),
      getHart_modHart_other _ _ _ _ (hne a List.mem_cons_self)]

/-- Each of some distinct harts is changed once. -/
theorem getHart_foldl_modHart {α : Type} (key : α → Nat) (f : α → Hart → Hart) (l : List α) (s : State) (hd : (l.map key).Nodup)
    (a : α) (ha : a ∈ l) : getHart (l.foldl (fun t a => modHart t (key a) (f a)) s) (key a) = f a (getHart s (key a)) := by
  induction l generalizing s with
  | nil => exact absurd ha List.not_mem_nil
  | cons b l ih =>
    rw [List.map_cons, List.nodup_cons] at hd
    have hb : ∀ c ∈ l, key c ≠ key b := fun c hc e => hd.1 (e ▸ List.mem_map_of_mem hc)
    rw [List.foldl_cons]
    rcases List.mem_cons.mp ha with rfl | ha
    · rw [(foldl_modHart_frame key f l _).2 _ hb, getHart_modHart_same]
    · rw [ih _ hd.2 ha, getHart_modHart_other _ _ _ _ (hb a ha).symm]

/-! ## Rope members (R18) -/

/-- The members of a rope are distinct harts. -/
theorem ropeHarts_nodup (hk code : Nat) (org : Nat × Nat) (hc : code ≤ 3) : (ropeHarts hk code org).Nodup := by
  refine List.Nodup.map_on ?_ List.nodup_range
  intro i hi j hj h
  rw [List.mem_range] at hi hj
  have hc : code = 0 ∨ code = 1 ∨ code = 2 ∨ code = 3 := by omega
  rcases hc with rfl | rfl | rfl | rfl <;> simp [ropeSize, ropeWidth] at hi hj h <;> omega

/-- A rope's harts are distinct. -/
theorem ropeOf_nodup (s : State) (hk : Nat) : (ropeOf s hk).Nodup := by
  unfold ropeOf
  simp only
  split
  · exact ropeHarts_nodup _ _ _ (by simp only [Hart.ropeCode, bits]; omega)
  · exact List.nodup_singleton _

/-- What disbanding a rope does to its members and to the others (R21). -/
theorem disband_spec (s : State) (hk : Nat) (h : (getHart s hk).inRope = true) :
    (∀ m ∈ ropeOf s hk, getHart (disband s hk) m =
      { getHart s m with rstat := 0, st := if (getHart s m).st = .follower then .running else (getHart s m).st }) ∧
    ∀ m, m ∉ ropeOf s hk → getHart (disband s hk) m = getHart s m := by
  unfold disband
  rw [if_pos h]
  refine ⟨fun m hm => ?_, fun m hm => ?_⟩
  · exact getHart_foldl_modHart (fun m => m)
      (fun _ h => { h with rstat := 0, st := if h.st = .follower then .running else h.st }) _ s (by simpa using ropeOf_nodup s hk) m hm
  · exact (foldl_modHart_frame (fun m => m) _ _ s).2 m (fun a ha e => hm (e ▸ ha))

/-! ## The instructions -/

section
variable {s : State} {a b : BitVec 7} {x : DWord}

/-- `rope` with a size it takes: the index granted, all ones where no rope can form, or a wait that the last to come ends (R235). -/
theorem rope_runs (h : SlotRuns s 0x58 0) (hb : readS (cur s) b = some x) (ha : sDest a = true) (h0 : 0 < x.toNat)
    (h3 : x.toNat ≤ 3) :
    (∀ k, (cur s).grant = some k →
      exec (.rope a b) s = .next (completed s (modHart s s.cur (fun h => h.result a k)))) ∧
    ((cur s).grant = none →
      ((cur s).inRope = true ∨ (∃ m ∈ ropeMembers s.cur x.toNat, isFwCol s (coreOf m) = true) →
        exec (.rope a b) s = .next (completed s (modHart s s.cur (fun h => h.result a (BitVec.allOnes 64))))) ∧
      ((cur s).inRope = false → (∀ m ∈ ropeMembers s.cur x.toNat, isFwCol s (coreOf m) = false) →
        exec (.rope a b) s = .next (waiting s (.notReady true)
          (if ((ropeMembers s.cur x.toNat).filter (fun m => m != s.cur)).all (hasArrived s x.toNat (cur s).ctxid.toNat) then
            postOnce s (.ropeForm s.cur) else s)))) := by
  have hok : ¬ (sDest a = false ∨ x.toNat = 0 ∨ x.toNat > 3) := by simp [ha]; omega
  have hx : exec (.rope a b) s = .next (finishSlot s.cur (cur s).prefixLive (askRope a b s s.cur)) := runSlot_runs _ _ _ _ h
  have hb' : readS (getHart s s.cur) b = some x := hb
  simp only [hx, askRope, hb', if_neg hok]
  refine ⟨fun k hk => ?_, fun hg => ⟨fun hor => ?_, fun hr hm => ?_⟩⟩
  · simp only [show (getHart s s.cur).grant = some k from hk]; rfl
  · simp only [show (getHart s s.cur).grant = none from hg]
    rw [if_pos (by simpa [List.any_eq_true, cur] using hor)]
    rfl
  · simp only [show (getHart s s.cur).grant = none from hg]
    rw [if_neg (by simpa [List.any_eq_true, hr] using ⟨hr, hm⟩)]
    rfl

/-- `rope` with a size that it refuses (R235). -/
theorem rope_refused (h : SlotRuns s 0x58 0) (hb : readS (cur s) b = some x) (hs : x.toNat = 0 ∨ 3 < x.toNat) :
    exec (.rope a b) s = .next (operandTrap s) := by
  have hx : exec (.rope a b) s = .next (finishSlot s.cur (cur s).prefixLive (askRope a b s s.cur)) := runSlot_runs _ _ _ _ h
  have hb' : readS (getHart s s.cur) b = some x := hb
  rw [hx]
  simp only [askRope, hb', if_pos (show sDest a = false ∨ x.toNat = 0 ∨ x.toNat > 3 from .inr hs)]
  rfl

/-- Making a step due adds it to what is due, if it is not there yet. -/
theorem postOnce_spec (s : State) (i : Instr) : i ∈ (postOnce s i).pending ∧ postOnce s i = { s with pending := (postOnce s i).pending } := by
  unfold postOnce
  split
  · next h => exact ⟨by simpa using h, rfl⟩
  · exact ⟨by simp [post], rfl⟩

/-- `unrope` disbands the rope that the hart leads, and does nothing in another hart (R235). -/
theorem unrope_runs (h : SlotRuns s 0x58 1) :
    exec .unrope s = .next (completed s (if ropeLeader s s.cur = s.cur then disband s s.cur else s)) := runSlot_runs _ _ _ _ h

theorem disband_mem (s : State) (hk : Nat) : (disband s hk).mem = s.mem := by
  unfold disband
  split
  · exact (foldl_modHart_frame (fun m => m) _ _ s).1
  · rfl

/-- `rbar`: the sum granted, a wait for its stores, its own sum outside a rope, or a wait for the others (R236). -/
theorem rbar_runs (h : SlotRuns s 0x58 2) (hb : readS (cur s) b = some x) (ha : sDest a = true) :
    (∀ w, (cur s).grant = some w → exec (.rbar a b) s = .next (completed s (modHart s s.cur (fun h => h.result a w)))) ∧
    ((cur s).grant = none →
      ((cur s).scnt ≠ 0 → exec (.rbar a b) s = .next (waiting s (.notReady true) s)) ∧
      ((cur s).scnt = 0 → (cur s).inRope = false → exec (.rbar a b) s = .next (completed s
        (modHart (modHart s s.cur (fun h => { h with rbar := h.rbar + x })) s.cur (fun h => h.result a ((cur s).rbar + x))))) ∧
      ((cur s).scnt = 0 → (cur s).inRope = true → exec (.rbar a b) s = .next (waiting s (.notReady true)
        (if ((ropeOf s s.cur).filter (fun m => m != s.cur)).all (atRbar s) then postOnce s (.rbarRelease s.cur) else s)))) := by
  have hx : exec (.rbar a b) s = .next (finishSlot s.cur (cur s).prefixLive (ropeBarrier a b s s.cur)) := runSlot_runs _ _ _ _ h
  have hb' : readS (getHart s s.cur) b = some x := hb
  simp only [hx, ropeBarrier, hb', ha, if_neg Bool.true_eq_false.mp]
  refine ⟨fun w hw => ?_, fun hg => ⟨fun h0 => ?_, fun h0 hr => ?_, fun h0 hr => ?_⟩⟩
  · simp only [show (getHart s s.cur).grant = some w from hw]; rfl
  · simp only [show (getHart s s.cur).grant = none from hg, if_pos (show (getHart s s.cur).scnt ≠ 0 from h0)]; rfl
  · simp only [show (getHart s s.cur).grant = none from hg, show (getHart s s.cur).scnt = 0 from h0,
      show (getHart s s.cur).inRope = false from hr]
    rfl
  · simp only [show (getHart s s.cur).grant = none from hg, show (getHart s s.cur).scnt = 0 from h0,
      show (getHart s s.cur).inRope = true from hr]
    rfl

/-- `twait` completes at its time and waits before it (R240). -/
theorem twait_runs (h : SlotRuns s 0x5A 0) (hb : readS (cur s) b = some x) : exec (.twait b) s = .next
    (if x.toNat ≤ (tbOf s s.cur).toNat then completed s s else waiting s (.time x.toNat false) s) := by
  have hx : exec (.twait b) s = .next (finishSlot s.cur (cur s).prefixLive (timeWait b s s.cur)) := runSlot_runs _ _ _ _ h
  rw [hx]
  simp only [timeWait, show readS (getHart s s.cur) b = some x from hb, waitUntil, ge_iff_le]
  split <;> rfl

/-- `twaitd`: a wait that has begun keeps its end; one that begins has at most 2^48 - 1 left, or what its resume state says (R240). -/
theorem twaitd_runs (h : SlotRuns s 0x5A 1) (hb : readS (cur s) b = some x) :
    (∀ t, (cur s).wait = .time t true → exec (.twaitd b) s = .next
      (if t ≤ (tbOf s s.cur).toNat then completed s s else waiting s (.time t true) s)) ∧
    ((cur s).wait = .none →
      (2 ^ 48 ≤ x.toNat → exec (.twaitd b) s = .next (operandTrap s)) ∧
      (∀ ns, x.toNat < 2 ^ 48 → ns = (if (cur s).curConv.resumed = true then (cur s).curConv.bitpos else x.toNat) →
        exec (.twaitd b) s = .next (if ns = 0 then completed s s
          else waiting s (.time ((tbOf s s.cur).toNat + ns) true) s))) := by
  have hx : exec (.twaitd b) s = .next (finishSlot s.cur (cur s).prefixLive (durationWait b s s.cur)) := runSlot_runs _ _ _ _ h
  simp only [hx, durationWait, show readS (getHart s s.cur) b = some x from hb]
  refine ⟨fun t ht => ?_, fun hw => ⟨fun hbig => ?_, fun ns hlt hns => ?_⟩⟩
  · simp only [show (getHart s s.cur).wait = .time t true from ht, waitUntil, ge_iff_le]
    split <;> rfl
  · simp only [show (getHart s s.cur).wait = .none from hw, if_pos (show x.toNat ≥ 2 ^ 48 from hbig)]
    rfl
  · simp only [show (getHart s s.cur).wait = .none from hw, if_neg (show ¬ x.toNat ≥ 2 ^ 48 by omega), waitUntil]
    rw [show (if (getHart s s.cur).curConv.resumed = true then (getHart s s.cur).curConv.bitpos else x.toNat) = ns from hns.symm]
    by_cases h0 : ns = 0
    · rw [if_pos (by omega), if_pos h0]; rfl
    · rw [if_neg (by omega), if_neg h0]; rfl

end

/-! ## The steps that release waits -/

/-- A rope forms once every member has come, and only then (R235). -/
theorem formRope_spec (s : State) (hk code : Nat) (hc : code ≤ 3) (ha : (getHart s hk).ropeAsked = some code)
    (hr : (getHart s hk).inRope = false) :
    ((∃ m ∈ ropeMembers hk code, hasArrived s code (getHart s hk).ctxid.toNat m = false) → formRope s hk = s) ∧
    ((∀ m ∈ ropeMembers hk code, hasArrived s code (getHart s hk).ctxid.toNat m = true) →
      ∀ k m, (ropeMembers hk code)[k]? = some m → getHart (formRope s hk) m = { getHart s m with
        rstat := ropeStat code k (ropeOrigin (unitOf (coreOf hk)) code), rbar := (getHart s ((ropeMembers hk code).headD hk)).rbar,
        grant := some (BitVec.ofNat 64 k), st := if k = 0 then (getHart s m).st else .follower }) := by
  unfold formRope
  simp only [ha, hr, true_and]
  refine ⟨fun ⟨m, hm, hf⟩ => ?_, fun hall k m hkm => ?_⟩
  · rw [if_neg]
    intro h
    rw [List.all_eq_true.mp h m hm] at hf
    exact absurd hf (by decide)
  · rw [if_pos (List.all_eq_true.mpr hall)]
    have hmem : (m, k) ∈ (ropeMembers hk code).zipIdx := List.mk_mem_zipIdx_iff_getElem?.mpr hkm
    have hnd : ((ropeMembers hk code).zipIdx.map Prod.fst).Nodup := by
      rw [List.zipIdx_map_fst]
      exact ropeHarts_nodup _ _ _ hc
    exact getHart_foldl_modHart Prod.fst (fun m h => { h with
      rstat := ropeStat code m.2 (ropeOrigin (unitOf (coreOf hk)) code), rbar := (getHart s ((ropeMembers hk code).headD hk)).rbar,
      grant := some (BitVec.ofNat 64 m.2), st := if m.2 = 0 then h.st else .follower }) _ s hnd (m, k) hmem

theorem formRope_mem (s : State) (hk : Nat) : (formRope s hk).mem = s.mem := by
  unfold formRope
  simp only
  split
  · rfl
  · split
    · exact (foldl_modHart_frame Prod.fst (fun m h => { h with
        rstat := ropeStat _ m.2 (ropeOrigin (unitOf (coreOf hk)) _), rbar := _,
        grant := some (BitVec.ofNat 64 m.2), st := if m.2 = 0 then h.st else .follower }) _ s).1
    · rfl

/-- The sum that a rope barrier gives: the leader's RBAR and every member's addend (R236). -/
def ropeTotal (s : State) (hk : Nat) : DWord :=
  ((ropeOf s hk).map (fun m => (readS (getHart s m) (fieldB (getHart s m).slotWord)).getD 0)).foldl (· + ·)
    (getHart s ((ropeOf s hk).headD hk)).rbar

/-- The barrier of a rope gives its sum to every member once all have come. -/
theorem releaseRbar_eq (s : State) (hk : Nat) : releaseRbar s hk =
    if (ropeOf s hk).all (atRbar s) then
      (ropeOf s hk).foldl (fun t m => modHart t m (fun h => { h with rbar := ropeTotal s hk, grant := some (ropeTotal s hk) })) s
    else s := by
  unfold releaseRbar ropeTotal
  rw [List.foldl_map]

theorem releaseRbar_spec (s : State) (hk : Nat) :
    (releaseRbar s hk).mem = s.mem ∧ ((∃ m ∈ ropeOf s hk, atRbar s m = false) → releaseRbar s hk = s) ∧
    ((∀ m ∈ ropeOf s hk, atRbar s m = true) → ∀ m ∈ ropeOf s hk,
      (getHart (releaseRbar s hk) m).rbar = ropeTotal s hk ∧ (getHart (releaseRbar s hk) m).grant = some (ropeTotal s hk)) := by
  rw [releaseRbar_eq]
  refine ⟨?_, fun ⟨m, hm, hf⟩ => ?_, fun hall m hm => ?_⟩
  · split
    · exact (foldl_modHart_frame (fun m => m) _ _ s).1
    · rfl
  · rw [if_neg]
    intro h
    rw [List.all_eq_true.mp h m hm] at hf
    exact absurd hf (by decide)
  · rw [if_pos (List.all_eq_true.mpr hall), getHart_foldl_modHart (fun m => m)
      (fun _ h => { h with rbar := ropeTotal s hk, grant := some (ropeTotal s hk) }) _ s (by simpa using ropeOf_nodup s hk) m hm]
    exact ⟨rfl, rfl⟩

/-- A time that a hart waits for has come, or not (R240). -/
theorem expireTime_spec (s : State) (hk e : Nat) (rel : Bool) (hw : (getHart s hk).wait = .time e rel) :
    (e ≤ (tbOf s hk).toNat → (getHart s hk).st = .parked →
      expireTime s hk = modHart s hk (fun h => { h with st := h.awake })) ∧
    ((tbOf s hk).toNat < e → expireTime s hk = s) := by
  unfold expireTime
  simp only [hw, ge_iff_le]
  refine ⟨fun hle hst => ?_, fun hlt => if_neg (by omega)⟩
  rw [if_pos hle]
  simp [modHart, Hart.wake, hst]

/-- A child of a task has ended and its result is known. -/
def Hart.heardOf (uid : Nat) (h : Hart) : Bool :=
  match h.task with
  | some t => t.children.any (fun c => c.uid == uid && c.result.isSome)
  | none => false

theorem heardOf_iff (uid : Nat) (h : Hart) :
    h.heardOf uid = true ↔ ∃ k d, h.task = some k ∧ d ∈ k.children ∧ d.uid = uid ∧ d.result ≠ none := by
  unfold Hart.heardOf
  cases h.task with
  | none => simp
  | some t => simp [List.any_eq_true, Option.isSome_iff_ne_none]

/-- A child's end makes the one parent that hears of it look again, where it waits (R228). -/
theorem noteChildEnd_spec (s : State) (uid hk : Nat) :
    ((∀ p ∈ s.harts, p.2.heardOf uid = false) → noteChildEnd s uid = s) ∧
    (∀ h w, (hk, h) ∈ s.harts → h.heardOf uid = true → (∀ p ∈ s.harts, p.2.heardOf uid = true → p = (hk, h)) →
      h.wait = .notReady w → noteChildEnd s uid = postOnce s (.convoyIssue hk)) := by
  have e : noteChildEnd s uid = match s.harts.find? (fun p => p.2.heardOf uid) with
      | some p => (match p.2.wait with
        | .notReady _ => postOnce s (.convoyIssue p.1)
        | _ => s)
      | none => s := rfl
  rw [e]
  refine ⟨fun hno => ?_, fun h w hmem hh huniq hw => ?_⟩
  · rw [List.find?_eq_none.mpr (fun p hp => by simp [hno p hp])]
  · obtain ⟨p, hp⟩ := Option.isSome_iff_exists.mp (List.find?_isSome (p := fun p : Nat × Hart => p.2.heardOf uid) |>.mpr ⟨(hk, h), hmem, hh⟩)
    have hpe := huniq p (List.mem_of_find?_eq_some hp) (by simpa using List.find?_some hp)
    simp only [hp, hpe, hw]

/-- A waiting `ordb` is released once its section is free (R233). -/
theorem releaseOrdb_spec (s : State) (hk : Nat) (k : Task) (x : DWord) (ht : (getHart s hk).task = some k)
    (hw : (getHart s hk).waitsIn 0x57 1 = true) (hg : (getHart s hk).grant = none)
    (hx : readS (getHart s hk) (fieldB (getHart s hk).slotWord) = some x) :
    releaseOrdb s hk = if sectionFree s k (bits x 31 0) then
      modHart (openSection s hk (bits x 31 0)) hk (fun h => { h with grant := some 0 }) else s := by
  unfold releaseOrdb
  simp only [hw, hg, ht, hx, Option.isNone_none, Bool.and_self, if_true]

/-- A hart whose section has been open too long cancels its graph, once (R233, R234). -/
theorem expireOrdtmo_spec (s : State) (hk : Nat) (k : Task) (ht : (getHart s hk).task = some k) :
    (k.sect = none ∨ (getHart s hk).ordtmo = 0 ∨ (getHart s hk).secCount ≤ (getHart s hk).ordtmo.toNat ∨
      (getHart s hk).secOver = true → expireOrdtmo s hk = s) ∧
    (k.sect ≠ none → (getHart s hk).ordtmo ≠ 0 → (getHart s hk).ordtmo.toNat < (getHart s hk).secCount →
      (getHart s hk).secOver = false →
      ∃ id z, SMap.find (expireOrdtmo s hk).tokens id = some z ∧ z.ginst = k.ginst ∧ z.ctx = (getHart s hk).ctxid.toNat ∧
        z.dies = diesOfDev k.dev ∧ Instr.cancelToken id ∈ (expireOrdtmo s hk).pending ∧ (expireOrdtmo s hk).mem = s.mem ∧
        (expireOrdtmo s hk).harts = (modHart s hk (fun h => { h with secOver := true })).harts) := by
  unfold expireOrdtmo
  simp only [ht]
  refine ⟨fun hor => if_neg ?_, fun h1 h2 h3 h4 => ?_⟩
  · rintro ⟨h1, h2, h3, h4⟩
    rcases hor with h | h | h | h
    · simp [h] at h1
    · exact h2 h
    · omega
    · simp [h] at h4
  · rw [if_pos ⟨Option.isSome_iff_ne_none.mpr h1, h2, h3, h4⟩]
    refine ⟨s.nextId, _, SMap.find_put_same _ _ _, rfl, rfl, rfl, ?_, rfl, ?_⟩
    · simp [post, fresh]
    · rw [← ht]; rfl

/-- Settles O46: each instruction and each step by what its own lemma says of it. -/
theorem ropesAndWaits : Obligations.RopesAndWaits := by
  intro s a b x hk uid
  refine ⟨fun hr hb ha => ?_, fun hr => ?_, fun hr hb ha => ?_, fun hr hb => twait_runs hr hb, fun hr hb => ?_,
    ⟨_, rfl, formRope_mem s hk, fun code h0 h3 hask hrope => formRope_spec s hk code h3 hask hrope⟩,
    ⟨_, rfl, releaseRbar_spec s hk⟩, ⟨_, rfl, fun e rel hw => expireTime_spec s hk e rel hw⟩, ⟨_, rfl, ?_, ?_⟩, ⟨_, rfl, ?_⟩,
    ⟨_, rfl, fun k hk => expireOrdtmo_spec s _ k hk⟩⟩
  · refine ⟨rope_refused hr hb, fun h0 h3 => ?_⟩
    obtain ⟨hgrant, hask⟩ := rope_runs hr hb ha h0 h3
    refine ⟨hgrant, fun hg => ⟨(hask hg).1, fun hi hm => ⟨_, (hask hg).2 hi hm, ?_, fun hall => ?_⟩⟩⟩
    · rintro ⟨m, hm, hne, hf⟩
      rw [if_neg]
      intro h
      rw [List.all_eq_true.mp h m (List.mem_filter.mpr ⟨hm, by simpa using hne⟩)] at hf
      exact absurd hf (by decide)
    · rw [if_pos (List.all_eq_true.mpr (fun m hm => by
        obtain ⟨hm, hne⟩ := List.mem_filter.mp hm
        exact hall m hm (by simpa using hne)))]
      exact postOnce_spec _ _
  · refine ⟨_, unrope_runs hr, ?_, ?_, fun hi hl => ?_⟩
    · split
      · exact disband_mem _ _
      · rfl
    · rintro (hi | hl)
      · split
        · exact if_neg (by simpa [cur] using hi)
        · rfl
      · exact if_neg hl
    · rw [if_pos hl]
      obtain ⟨hin, hout⟩ := disband_spec s s.cur hi
      exact ⟨fun m hm => by rw [hin m hm]; exact ⟨rfl, rfl⟩, hout⟩
  · obtain ⟨hgrant, hask⟩ := rbar_runs hr hb ha
    refine ⟨hgrant, fun hg => ⟨(hask hg).1, (hask hg).2.1, fun h0 hi => ⟨_, (hask hg).2.2 h0 hi, fun hall => ?_, ?_⟩⟩⟩
    · rw [if_pos (List.all_eq_true.mpr (fun m hm => by
        obtain ⟨hm, hne⟩ := List.mem_filter.mp hm
        exact hall m hm (by simpa using hne)))]
      exact (postOnce_spec _ _).1
    · split
      · exact (postOnce_spec _ _).2
      · rfl
  · obtain ⟨hbegun, hnew⟩ := twaitd_runs hr hb
    refine ⟨hbegun, fun hw => ?_⟩
    obtain ⟨hbig, hruns⟩ := hnew hw
    refine ⟨hbig, fun h0 hres => ?_, fun h0 hlt hres => ?_, fun hlt hres h0 => ?_⟩
    · exact hruns 0 (by rw [h0]; decide) (by simp [hres, h0])
    · rw [hruns x.toNat hlt (by simp [hres]), if_neg (by omega)]
    · rw [hruns (cur s).curConv.bitpos hlt (by simp [hres]), if_neg (by omega)]
  · intro hno
    exact (noteChildEnd_spec s uid hk).1 (fun p hp =>
      Bool.eq_false_iff.mpr (mt (heardOf_iff uid p.2).mp (hno p hp)))
  · intro h w hmem hh huniq hw
    rw [(noteChildEnd_spec s uid hk).2 h w hmem ((heardOf_iff uid h).mpr hh)
      (fun p hp hq => huniq p hp ((heardOf_iff uid p.2).mp hq)) hw]
    exact postOnce_spec _ _
  · intro k ht hw hg hx
    rw [releaseOrdb_spec s hk k x ht hw hg hx]
    refine ⟨fun hf => by simp [hf], fun hf => ?_⟩
    rw [if_pos hf]
    refine ⟨by simp, ?_, by simp [openSection, ht], rfl⟩
    rw [getHart_modHart_same, openSection, getHart_modHart_same]
    exact (getLsbD_withBits (getHart s hk).hstat 10 10 1 10 (le_refl _) (by decide)).trans (by simp)

end Sys2Proof.Machine
end

section
/-! SUPPORT. The tiles of a core: their cells, owners and saturation bits, and a matrix or tile instruction that passes its checks (R24,
R25, R178, R182, R192, R194). -/
namespace Sys2Proof.Machine

open Sys2Proof

/-! ## Cells -/

theorem tileOf_cases {a : BitVec 7} {t : Nat} (h : tileOf a = some t) : t = 0 ∨ t = 1 := by
  unfold tileOf at h
  split at h
  · exact .inl (Option.some.inj h).symm
  · split at h
    · exact .inr (Option.some.inj h).symm
    · exact absurd h (by simp)

theorem cellAt_lt (t : SMap (BitVec 40)) (p : Nat) : cellAt t p < 2 ^ 40 := (SMap.get 0 t p).isLt

@[simp] theorem cellAt_mod (t : SMap (BitVec 40)) (p : Nat) : cellAt t p % 2 ^ 40 = cellAt t p := Nat.mod_eq_of_lt (cellAt_lt t p)

@[simp] theorem cellAt_nil (p : Nat) : cellAt [] p = 0 := rfl

theorem cellAt_putCell (t : SMap (BitVec 40)) (p v q : Nat) :
    cellAt (putCell t p v) q = if q = p then v % 2 ^ 40 else cellAt t q := by
  unfold cellAt putCell
  split
  · next h => rw [h, SMap.get_set_same, BitVec.toNat_ofNat]
  · next h => rw [SMap.get_set_other _ _ _ _ _ (fun e => h e.symm)]

/-- A cell that a list of cells does not name stays. -/
theorem cellAt_putCells_other (t : SMap (BitVec 40)) (l : List (Nat × Nat)) (p : Nat) (h : ∀ q ∈ l, q.1 ≠ p) :
    cellAt (putCells t l) p = cellAt t p := by
  induction l generalizing t with
  | nil => rfl
  | cons q l ih =>
    rw [show putCells t (q :: l) = putCells (putCell t q.1 q.2) l from rfl, ih _ (fun r hr => h r (List.mem_cons_of_mem q hr)),
      cellAt_putCell, if_neg (fun e => h q List.mem_cons_self e.symm)]

/-- A cell that a list names, always with one value, holds it. -/
theorem cellAt_putCells (t : SMap (BitVec 40)) (l : List (Nat × Nat)) (p v : Nat) (hm : (p, v) ∈ l)
    (hu : ∀ w, (p, w) ∈ l → w = v) : cellAt (putCells t l) p = v % 2 ^ 40 := by
  induction l generalizing t with
  | nil => exact absurd hm List.not_mem_nil
  | cons q l ih =>
    rw [show putCells t (q :: l) = putCells (putCell t q.1 q.2) l from rfl]
    by_cases hl : (p, v) ∈ l
    · exact ih _ hl (fun w hw => hu w (List.mem_cons_of_mem q hw))
    · have hq : q = (p, v) := by simpa [hl, eq_comm] using List.mem_cons.mp hm
      rw [cellAt_putCells_other _ l p ?_, hq, cellAt_putCell, if_pos rfl]
      rintro ⟨r, w⟩ hr rfl
      exact hl (hu w (List.mem_cons_of_mem q hr) ▸ hr)

/-- A bit of the flags gathered over a list. -/
theorem testBit_foldl_or {α : Type} (f : α → Nat) (l : List α) (z k : Nat) :
    (l.foldl (fun v a => v ||| f a) z).testBit k = true ↔ z.testBit k = true ∨ ∃ a ∈ l, (f a).testBit k = true := by
  induction l generalizing z with
  | nil => simp
  | cons a l ih => simp [ih, Nat.testBit_or, or_assoc]

/-! ## Rows (R178, R182) -/

/-- The cells of some rows, row by row, with what each gets. -/
def rowCells (rows : List Nat) (f : Nat → Nat → Nat × Nat) : List (Nat × (Nat × Nat)) :=
  rows.flatMap (fun i => (List.range 32).map (fun n => (32 * i + n, f i n)))

/-- What one cell adds to a tile and to the flags gathered. -/
def cellStep (v : SMap (BitVec 40) × Nat) (q : Nat × (Nat × Nat)) : SMap (BitVec 40) × Nat :=
  (putCell v.1 q.1 q.2.1, v.2 ||| q.2.2)

theorem foldl_cellStep (l : List (Nat × (Nat × Nat))) (u : SMap (BitVec 40) × Nat) :
    l.foldl cellStep u = (putCells u.1 (l.map (fun q => (q.1, q.2.1))), l.foldl (fun v q => v ||| q.2.2) u.2) := by
  induction l generalizing u with
  | nil => rfl
  | cons q l ih => rw [List.foldl_cons, ih]; rfl

theorem updateRows_eq (t : SMap (BitVec 40)) (rows : List Nat) (f : Nat → Nat → Nat × Nat) :
    updateRows t rows f = (rowCells rows f).foldl cellStep (t, 0) := by
  unfold rowCells updateRows
  rw [List.foldl_flatMap]
  simp only [List.foldl_map]
  rfl

/-- Every cell of the rows gets its value, and every other cell stays. -/
theorem cellAt_updateRows (t : SMap (BitVec 40)) (rows : List Nat) (f : Nat → Nat → Nat × Nat) (i j : Nat) (hj : j < 32) :
    cellAt (updateRows t rows f).1 (32 * i + j) = if i ∈ rows then (f i j).1 % 2 ^ 40 else cellAt t (32 * i + j) := by
  rw [updateRows_eq, foldl_cellStep]
  have hmem : ∀ w, (32 * i + j, w) ∈ (rowCells rows f).map (fun q => (q.1, q.2.1)) ↔ i ∈ rows ∧ w = (f i j).1 := by
    intro w
    simp only [rowCells, List.map_flatMap, List.map_map, List.mem_flatMap, List.mem_map, List.mem_range, Function.comp_apply,
      Prod.mk.injEq]
    constructor
    · rintro ⟨k, hk, n, hn, he, rfl⟩
      obtain ⟨rfl, rfl⟩ : k = i ∧ n = j := by omega
      exact ⟨hk, rfl⟩
    · rintro ⟨hi, rfl⟩
      exact ⟨i, hi, j, hj, rfl, rfl⟩
  split
  · next hi => exact cellAt_putCells _ _ _ _ ((hmem _).mpr ⟨hi, rfl⟩) (fun w hw => ((hmem w).mp hw).2)
  · next hi => exact cellAt_putCells_other _ _ _ (fun q hq he => hi ((hmem q.2).mp (he ▸ hq)).1)

/-- The flags of the rows are those of all their cells together. -/
theorem testBit_updateRows (t : SMap (BitVec 40)) (rows : List Nat) (f : Nat → Nat → Nat × Nat) (k : Nat) :
    (updateRows t rows f).2.testBit k = true ↔ ∃ i j, i ∈ rows ∧ j < 32 ∧ (f i j).2.testBit k = true := by
  rw [updateRows_eq, foldl_cellStep]
  simp only [testBit_foldl_or, rowCells, List.mem_flatMap, List.mem_map, List.mem_range, Nat.zero_testBit, Bool.false_eq_true, false_or]
  constructor
  · rintro ⟨q, ⟨i, hi, j, hj, rfl⟩, hk⟩
    exact ⟨i, j, hi, hj, hk⟩
  · rintro ⟨i, j, hi, hj, hk⟩
    exact ⟨_, ⟨i, hi, j, hj, rfl⟩, hk⟩

theorem mem_activeRows (h : Hart) (m i : Nat) : i ∈ activeRows h m ↔ i < m ∧ h.selBit i = true := by
  simp [activeRows]

/-! ## Checks passed (R192, R194) -/

/-- On tiles and an infuser that pass the owners' checks an instruction goes on. -/
theorem withClaims_owned (s : State) (hk : Nat) (tiles : List Nat) (ok : Bool) (k : SlotRes)
    (ht : ∀ t ∈ tiles, ownsTile s hk t = true) (ho : ok = true) : withClaims s hk tiles ok k = k := by
  have h : ∀ n, (tiles.contains n && !ownsTile s hk n) = false := by
    intro n
    by_cases hn : n ∈ tiles
    · simp [ht n hn]
    · simp [hn]
  unfold withClaims
  rw [h 0, h 1, ho]
  rfl

/-- On tiles that nothing in flight names an instruction goes on. -/
theorem whenFree_ready (s : State) (hk : Nat) (tiles : List Nat) (k : SlotRes) (hb : tileBusy (getCore s (coreOf hk)) tiles = false)
    (hw : ownerWaits s (coreOf hk) tiles = false) : whenFree s hk tiles k = k := by
  simp [whenFree, hb, hw]

/-- An instruction in flight that names one of two tiles names the first or the second. -/
theorem tileBusy_pair (c : Core) (t n : Nat) (ht : tileBusy c [t] = false) (hn : tileBusy c [n] = false) :
    tileBusy c [t, n] = false := by
  simp only [tileBusy, List.any_eq_false] at *
  intro f hf
  have h1 := ht f hf
  have h2 := hn f hf
  simp only [List.any_eq_true, not_exists, not_and, List.contains_iff_mem, List.mem_cons, List.not_mem_nil, or_false] at *
  intro x hx hor
  rcases hor with h | h
  · exact h1 x hx h
  · exact h2 x hx h

theorem ownerWaits_pair (s : State) (ck t n : Nat) (ht : ownerWaits s ck [t] = false) (hn : ownerWaits s ck [n] = false) :
    ownerWaits s ck [t, n] = false := by
  simp only [ownerWaits, List.any_eq_false] at *
  intro p hp
  have h1 := ht p hp
  have h2 := hn p hp
  simp only [List.any_cons, List.any_nil, Bool.or_false, Bool.and_eq_true, Bool.or_eq_true, not_and] at *
  intro h hor
  exact hor.elim (h1 h) (h2 h)

end Sys2Proof.Machine
end

section
/-! SUPPORT. Loads and stores of a hart's units in 64-byte pieces: which bytes the pieces of a store write, which pieces a load takes,
and the operation that each issues (R147, R149, R187 to R189, R226). -/
namespace Sys2Proof.Machine

open Sys2Proof

/-! ## What a store may write (R226) -/

/-- From state s to state t no byte of memory has changed but at the homes of some locations, no line has been forwarded, and the
cores are as they were. -/
def WritesWithin (P : Nat → Prop) (s t : State) : Prop :=
  t.forward = s.forward ∧ t.cores = s.cores ∧ ∀ loc, (∀ l, P l → homeLoc s l ≠ loc) → memGet t.mem loc = memGet s.mem loc

theorem WritesWithin.rfl {P : Nat → Prop} (s : State) : WritesWithin P s s := ⟨.refl _, .refl _, fun _ _ => .refl _⟩

theorem homeLoc_congr {s t : State} (h : t.forward = s.forward) (l : Nat) : homeLoc t l = homeLoc s l := by
  unfold homeLoc; rw [h]

theorem WritesWithin.trans {P : Nat → Prop} {s t u : State} (h : WritesWithin P s t) (k : WritesWithin P t u) :
    WritesWithin P s u := by
  obtain ⟨hf, hc, hm⟩ := h
  obtain ⟨kf, kc, km⟩ := k
  refine ⟨kf.trans hf, kc.trans hc, fun loc hl => ?_⟩
  rw [km loc (fun l hp => by rw [homeLoc_congr hf]; exact hl l hp), hm loc hl]

theorem WritesWithin.mono {P Q : Nat → Prop} {s t : State} (h : WritesWithin P s t) (hpq : ∀ l, P l → Q l) : WritesWithin Q s t := by
  obtain ⟨hf, hc, hm⟩ := h
  exact ⟨hf, hc, fun loc hl => hm loc (fun l hp => hl l (hpq l hp))⟩

/-- A step that leaves memory, forwarding and cores writes nothing. -/
theorem WritesWithin.of_mem {P : Nat → Prop} {s t : State} (hf : t.forward = s.forward) (hc : t.cores = s.cores) (hm : t.mem = s.mem) :
    WritesWithin P s t := ⟨hf, hc, fun _ _ => by rw [hm]⟩

theorem SameLinesApart.writes {P : Nat → Prop} {s t : State} (h : SameLinesApart s t) : WritesWithin P s t :=
  .of_mem (by rw [h]) (by rw [h]) (by rw [h])

theorem WritesWithin.foldl {P : Nat → Prop} {α : Type} (f : State → α → State) (l : List α)
    (hf : ∀ s, ∀ a ∈ l, WritesWithin P s (f s a)) (s : State) : WritesWithin P s (l.foldl f s) := by
  induction l generalizing s with
  | nil => exact .rfl s
  | cons a l ih => exact (hf s a List.mem_cons_self).trans (ih (fun s b hb => hf s b (List.mem_cons_of_mem a hb)) _)

section
variable {P : Nat → Prop}

theorem writeByte_writes (s : State) (l : Nat) (b : Byte) (hp : P l) : WritesWithin P s (writeByte s l b) := by
  unfold writeByte
  split
  · exact ⟨rfl, rfl, fun loc hl => memGet_memSet_other _ _ _ _ (hl l hp)⟩
  · exact .rfl s

theorem noteHeld_writes (s : State) (dk : Nat) (x : Held) : WritesWithin P s (noteHeld s dk x) := by
  unfold noteHeld
  split
  · exact .rfl s
  · exact .of_mem rfl rfl rfl

theorem placeHeld_writes (s : State) (dk : Nat) (x : Held) : WritesWithin P s (placeHeld s dk x) := by
  unfold placeHeld
  simp only
  split
  · exact (setLines_same _ _ _).writes
  · split
    · exact ((setLines_same _ _ _).trans (leave_frame _ _)).writes
    · exact .rfl s

/-- A sector of a revision that changes takes its place in the revision store. -/
theorem holdRev_writes (s : State) (dk : Nat) (x : Held) (uid : Nat) (r : Rev) :
    WritesWithin P s (placeHeld (setRev (noteHeld s dk x) uid r) dk x) :=
  (noteHeld_writes s dk x).trans (WritesWithin.trans (t := setRev (noteHeld s dk x) uid r) (.of_mem rfl rfl rfl) (placeHeld_writes _ _ _))

theorem captureCairn_writes (s : State) (uid va loc : Nat) : WritesWithin P s (captureCairn s uid va loc) := by
  unfold captureCairn
  split
  · exact .rfl s
  · split
    · exact holdRev_writes _ _ _ _ _
    · exact .rfl s

theorem writeTaskByte_writes (s : State) (t : Task) (va l : Nat) (b : Byte) (hp : P l) :
    WritesWithin P s (writeTaskByte s t va l b) := by
  unfold writeTaskByte
  simp only
  have h1 : WritesWithin P s (t.children.foldl (fun u c => captureCairn u c.uid va l) s) :=
    .foldl _ _ (fun u c _ => captureCairn_writes u c.uid va l) s
  generalize t.children.foldl (fun u c => captureCairn u c.uid va l) s = s1 at h1 ⊢
  refine h1.trans ?_
  split
  · exact writeByte_writes _ _ _ hp
  · split
    · have h2 : WritesWithin P s1 (captureCairn s1 t.uid va l) := captureCairn_writes _ _ _ _
      generalize captureCairn s1 t.uid va l = s2 at h2 ⊢
      refine h2.trans ?_
      split
      · exact .rfl _
      · exact holdRev_writes _ _ _ _ _
    · exact writeByte_writes _ _ _ hp

theorem writeTaskBytes_writes (t : Option Task) (l : List (Nat × Nat × Byte)) (s : State) (hp : ∀ q ∈ l, P q.2.1) :
    WritesWithin P s (writeTaskBytes s t l) := by
  induction l generalizing s with
  | nil => exact .rfl s
  | cons q l ih =>
    obtain ⟨va, loc, b⟩ := q
    refine WritesWithin.trans ?_ (ih _ (fun q hq => hp q (List.mem_cons_of_mem _ hq)))
    cases t with
    | none => exact writeByte_writes s loc b (hp _ List.mem_cons_self)
    | some k => exact writeTaskByte_writes s k va loc b (hp _ List.mem_cons_self)

/-- A task's buffer that changes takes its sectors' places in the revision store. -/
theorem holdTask_writes (s : State) (hk dk : Nat) (f : Task → Task) (held : List Held) : WritesWithin P s
    (held.foldl (fun u x => placeHeld u dk x) (modTask (held.foldl (fun u x => noteHeld u dk x) s) hk f)) := by
  have h1 : WritesWithin P s (held.foldl (fun u x => noteHeld u dk x) s) := .foldl _ _ (fun u x _ => noteHeld_writes u dk x) s
  generalize held.foldl (fun u x => noteHeld u dk x) s = s1 at h1 ⊢
  have h2 : WritesWithin P s1 (modTask s1 hk f) := .of_mem rfl rfl rfl
  exact (h1.trans h2).trans (.foldl _ _ (fun u x _ => placeHeld_writes u dk x) _)

theorem bufferEntry_writes (s : State) (hk : Nat) (e : Buffered) : WritesWithin P s (bufferEntry s hk e) := by
  unfold bufferEntry
  split
  · exact .rfl s
  · exact holdTask_writes _ _ _ _ _

theorem clearPoison_writes (s : State) (l n : Nat) : WritesWithin P s (clearPoison s l n) :=
  .foldl (fun t k => unpoisonAt t (l + 64 * k)) _ (fun _ _ _ => .of_mem rfl rfl rfl) s

end

/-- The locations of some pieces. -/
def PieceLocs (ps : List (Nat × Nat)) (l : Nat) : Prop := ∃ p ∈ ps, ∃ j, j < p.2 ∧ l = p.1 + j

theorem spread_locs (va : DWord) (ps : List (Nat × Nat)) (v : Nat) : ∀ q ∈ spread va ps v, PieceLocs ps q.2.1 := by
  induction ps generalizing va v with
  | nil => exact fun q hq => absurd hq List.not_mem_nil
  | cons p ps ih =>
    intro q hq
    rcases List.mem_append.mp hq with h | h
    · obtain ⟨j, hj, rfl⟩ := List.mem_map.mp h
      exact ⟨p, List.mem_cons_self, j, List.mem_range.mp hj, rfl⟩
    · obtain ⟨r, hr, j, hj, e⟩ := ih _ _ q h
      exact ⟨r, List.mem_cons_of_mem p hr, j, hj, e⟩

theorem storePieces_writes (s : State) (hk scope : Nat) (evf : Bool) (va : DWord) (ps : List (Nat × Nat)) (v : Nat) :
    WritesWithin (PieceLocs ps) s (storePieces s hk scope evf va ps v) := by
  have hclear : ∀ u, WritesWithin (PieceLocs ps) u
      (ps.foldl (fun u p => if p.1 % 64 = 0 then clearPoison u p.1 p.2 else u) u) := by
    intro u
    refine .foldl _ _ (fun u p _ => ?_) u
    split
    · exact clearPoison_writes u _ _
    · exact .rfl u
  have hw : ∀ t, WritesWithin (PieceLocs ps) s (writeTaskBytes s t (spread va ps v)) :=
    fun t => writeTaskBytes_writes t _ s (spread_locs va ps v)
  unfold storePieces
  split
  · split
    · refine WritesWithin.trans (.foldl _ _ (fun u q _ => ?_) s) (bufferEntry_writes _ _ _)
      exact (captureCairn_writes _ _ _ _).trans (.foldl _ _ (fun w c _ => captureCairn_writes w _ _ _) _)
    · exact (hw _).trans (hclear _)
  · exact (hw _).trans (hclear _)

/-- The elements of a store write at their own pieces alone. -/
theorem storeAccs_writes (hk scope : Nat) (evf : Bool) (val : Acc → Nat) (as : List Acc) (s w : State)
    (h : storeAccs (fun v a => storeAcc v hk scope evf a (val a)) s as = .all w) :
    WritesWithin (fun l => ∃ a ∈ as, PieceLocs a.pieces l) s w := by
  induction as generalizing s with
  | nil => obtain rfl := Stored.all.inj h; exact .rfl s
  | cons a as ih =>
    simp only [storeAccs] at h
    split at h
    case h_1 t ht =>
      refine WritesWithin.trans ?_ ((ih t h).mono (fun l ⟨b, hb, hl⟩ => ⟨b, List.mem_cons_of_mem a hb, hl⟩))
      simp only [storeAcc] at ht
      split at ht
      · obtain rfl := Option.some.inj ht; exact .rfl s
      · split at ht
        · exact absurd ht (by simp)
        · obtain rfl := Option.some.inj ht
          exact (storePieces_writes s hk scope evf a.va a.pieces (val a)).mono (fun l hl => ⟨a, List.mem_cons_self, hl⟩)
    case h_2 => exact absurd h (by simp)

/-! ## The operation that an access issues (R149) -/

/-- A load or atomic that is issued enters the table and raises LCNT. -/
theorem issueOp_of_load (s : State) (o : Op) (h : o.counter = 1) : issueOp s o = { s with
    harts := SMap.put s.harts o.hart { getHart s o.hart with lcnt := (getHart s o.hart).lcnt + 1 },
    ops := SMap.put s.ops s.nextId { o with ctx := ctxKeyOf s o.hart }, nextId := s.nextId + 1 } := by
  simp only [issueOp, fresh, modHart, setHart, h, if_true]
  rfl

/-- A store that is issued enters the table and raises SCNT. -/
theorem issueOp_of_store (s : State) (o : Op) (h : o.counter = 2) : issueOp s o = { s with
    harts := SMap.put s.harts o.hart { getHart s o.hart with scnt := (getHart s o.hart).scnt + 1 },
    ops := SMap.put s.ops s.nextId { o with ctx := ctxKeyOf s o.hart }, nextId := s.nextId + 1 } := by
  simp only [issueOp, fresh, modHart, setHart, h, if_true, if_neg (show ¬ (2 = 1) by decide)]
  rfl

@[simp] theorem issueOp_cores (s : State) (o : Op) : (issueOp s o).cores = s.cores := by simp [issueOp, fresh]

theorem SameLinesApart.cores {s t : State} (h : SameLinesApart s t) : t.cores = s.cores := by rw [h]

/-- An operation issued where only the lines held and the sharers have changed since state u is one of u's (R149). -/
theorem issueOp_issued (u t : State) (hk : Nat) (o : Op) (hf : SameLinesApart u t) (hh : o.hart = hk) (hr : o.reg = none)
    (hc : o.counter = 1 ∨ o.counter = 2) : IssuedWith hk u (issueOp t o) o.counter o.ret o.refused := by
  subst hh
  unfold SameLinesApart at hf
  rcases hc with hc | hc
  · rw [issueOp_of_load _ _ hc]
    refine ⟨{ o with ctx := ctxKeyOf u o.hart }, rfl, rfl, rfl, rfl, hr, rfl, ?_⟩
    rw [hf, hc]
    rfl
  · rw [issueOp_of_store _ _ hc]
    refine ⟨{ o with ctx := ctxKeyOf u o.hart }, rfl, rfl, rfl, rfl, hr, rfl, ?_⟩
    rw [hf, hc]
    rfl

/-- One sector of an access meets the slice that serves it. -/
theorem touchOne_frame (s : State) (dev l : Nat) (far drop : Bool) (w : Option Writer) :
    SameLinesApart s (touchSector (if far then recallLine s drop l else s) dev w l) := by
  refine SameLinesApart.trans ?_ (touchSector_frame _ _ _ _)
  split
  · exact recallLine_frame _ _ _
  · exact SameLinesApart.rfl s

theorem carryStores_frame (s : State) (hk : Nat) (b : Bool) : SameLinesApart s (if b then carryStores s hk else s) := by
  split
  · exact sweep_frame _ _ _
  · exact SameLinesApart.rfl s

/-- The sectors of an access change the lines held and the sharers alone. -/
theorem touchRun_frame (s : State) (hk scope : Nat) (wr : Option Nat) (evf : Bool) (qs : List (Nat × DWord)) :
    SameLinesApart s (touchRun s hk scope wr evf qs) := by
  simp only [touchRun]
  have h1 := carryStores_frame s hk (wr.isSome && decide (5 ≤ scope))
  generalize (if (wr.isSome && decide (5 ≤ scope)) = true then carryStores s hk else s) = s1 at h1 ⊢
  have h2 : SameLinesApart s1 (qs.foldl (fun u q => touchSector (if decide (5 ≤ scope) then recallLine u wr.isSome (64 * q.1) else u)
      (servingDev hk scope (64 * q.1)) (wr.map (fun c => ⟨hk, c, q.2⟩)) (64 * q.1)) s1) :=
    SameLinesApart.foldl _ (fun u q => touchOne_frame u _ _ _ _ _) qs s1
  split
  · exact (h1.trans h2).trans (SameLinesApart.foldl _ (fun u q => markLine_same u _ _) qs _)
  · exact h1.trans h2

theorem touchDirect_frame (s : State) (hk scope : Nat) (wr evf : Bool) (as : List Acc) :
    SameLinesApart s (touchDirect s hk scope wr evf as) := touchRun_frame _ _ _ _ _ _

theorem touchAccs_frame (s : State) (hk scope : Nat) (wr evf : Bool) (as : List Acc) :
    SameLinesApart s (touchAccs s hk scope wr evf as) := by
  unfold touchAccs
  split
  · exact SameLinesApart.rfl s
  · exact touchDirect_frame _ _ _ _ _ _

/-! ## 64-byte pieces (R187, R189) -/

/-- An address with an unsigned offset, modulo 2^64. -/
theorem ofNat_addOfs (x : DWord) (n : Nat) : BitVec.ofNat 64 (addOfs x.toNat (n : Int)) = x + BitVec.ofNat 64 n := by
  apply BitVec.eq_of_toNat_eq
  simp only [addOfs, wrapInt, BitVec.toNat_ofNat, BitVec.toNat_add]
  omega

/-- The pieces of an access that has not been resumed. -/
theorem mem_pieces64 (h : Hart) (x : DWord) (n : Nat) (h0 : startElem h = 0) (c : Acc) :
    c ∈ pieces64 h x.toNat n ↔ ∃ i, i < n ∧ c = ⟨i, x + BitVec.ofNat 64 (64 * i), 64, []⟩ := by
  simp only [pieces64, h0, Nat.zero_le, decide_true, List.filter_true, List.mem_map, List.mem_range, ofNat_addOfs]
  exact ⟨fun ⟨i, hi, e⟩ => ⟨i, hi, e.symm⟩, fun ⟨i, hi, e⟩ => ⟨i, hi, e.symm⟩⟩

/-- The elements that have passed report the indices of those asked for, in order. -/
theorem passed_indices {hk : Nat} {k : Kind} {al : Nat} {p : Path} {l as : List Acc} {s u : State}
    (h : checkAccs s hk k al p [] l = .all as u) : as.map Acc.idx = l.map Acc.idx := by
  have e := congrArg (List.map Acc.idx) (checkAccs_all hk k al p l [] s u as h)
  simpa [List.map_map, Function.comp_def] using e

theorem pieces64_indices (h : Hart) (base n : Nat) : ((pieces64 h base n).map Acc.idx).Nodup := by
  simp only [pieces64, List.map_map, Function.comp_def, List.map_id']
  exact List.nodup_range.filter _

/-- Each piece of a load has passed, once, at its address. -/
theorem piece_passed {h : Hart} {hk : Nat} {k : Kind} {al : Nat} {p : Path} {as : List Acc} {s u : State} {x : DWord} {n : Nat}
    (h0 : startElem h = 0) (hc : checkAccs s hk k al p [] (pieces64 h x.toNat n) = .all as u) (i : Nat) (hi : i < n) :
    ∃ acc ∈ as, acc.idx = i ∧ acc.va = x + BitVec.ofNat 64 (64 * i) ∧ ∀ c ∈ as, c.idx = i → c = acc := by
  obtain ⟨acc, hm, hidx, hva⟩ := (mem_passed hc).2 _ ((mem_pieces64 h x n h0 _).mpr ⟨i, hi, rfl⟩)
  have hn : (as.map Acc.idx).Nodup := passed_indices hc ▸ pieces64_indices h x.toNat n
  exact ⟨acc, hm, hidx, hva, fun c hcm hci => List.inj_on_of_nodup_map hn hcm hm (hci.trans hidx.symm)⟩

/-- What a run of steps, each owning what one key names, leaves at a place that key `own` owns: the value listed for it. -/
theorem foldl_owned {σ β γ : Type} (step : σ → Nat × β → σ) (get : σ → γ) (own : Nat) (val : β → γ)
    (hs : ∀ z p, get (step z p) = if p.1 = own then val p.2 else get z) (l : List (Nat × β)) (z : σ) (b : β)
    (hm : (own, b) ∈ l) (hu : ∀ c, (own, c) ∈ l → c = b) : get (l.foldl step z) = val b := by
  classical
  have key : ∀ (l : List (Nat × β)) (z : σ), (∀ c, (own, c) ∈ l → c = b) →
      get (l.foldl step z) = if (∃ c, (own, c) ∈ l) then val b else get z := by
    intro l
    induction l with
    | nil => intro z _; simp
    | cons p l ih =>
      intro z hu
      rw [List.foldl_cons, ih _ (fun c hc => hu c (List.mem_cons_of_mem p hc)), hs]
      by_cases hl : ∃ c, (own, c) ∈ l
      · obtain ⟨c, hc⟩ := hl
        rw [if_pos ⟨c, hc⟩, if_pos ⟨c, List.mem_cons_of_mem p hc⟩]
      · rw [if_neg hl]
        by_cases hp : p.1 = own
        · obtain ⟨k, v⟩ := p
          simp only at hp
          subst hp
          rw [if_pos rfl, if_pos ⟨v, List.mem_cons_self⟩, hu v List.mem_cons_self]
        · rw [if_neg hp, if_neg]
          rintro ⟨c, hc⟩
          rcases List.mem_cons.mp hc with e | e
          · exact hp (e ▸ rfl)
          · exact hl ⟨c, e⟩
  rw [key l z hu, if_pos ⟨b, hm⟩]

/-- With nothing refused, an element's value is what the hart's task sees. -/
theorem loadAcc_of_unrefused {s : State} {hk : Nat} {as : List Acc} (h : refusals s hk .load as = []) (a : Acc) (ha : a ∈ as) :
    loadAcc s hk a = viewPieces s hk a.va a.pieces := by
  have hn : accRefusal s hk .load a = none := List.filterMap_eq_nil_iff.mp h a ha
  simp [loadAcc, hn]

/-- A unit's load whose pieces have all passed and are not refused takes them in and issues one operation (R189). -/
theorem unitLoad_all (hk : Nat) (apply : State → List Acc → State) (as : List Acc) (u : State) (hr : refusals u hk .load as = []) :
    ∃ w, unitLoad hk apply (.all as u) = .done w ∧ w.mem = (apply u as).mem ∧ Issued hk (apply u as) w 1 [] := by
  have hf := touchAccs_frame (apply u as) hk 4 false false as
  refine ⟨_, rfl, by rw [issueOp_mem, hf.mem], ?_⟩
  have hi := issueOp_issued (apply u as) _ hk { opOf u hk 1 4 as (refusals u hk .load as) with fabric := as.flatMap (loadRemote u hk) }
    hf rfl rfl (.inl rfl)
  simp only [hr] at hi
  simp only [hr]
  exact hi

/-- A store whose elements have all been written issues one operation. -/
theorem finishStore_all {hk scope : Nat} {evf direct : Bool} {put : State → Acc → Option State} {remote : Acc → List FabReq}
    {as : List Acc} {u w : State} (hw : storeAccs put u as = .all w) :
    finishStore hk scope evf direct put remote (.all as u)
      = .done (issueOp (if direct then touchDirect w hk scope true evf as else touchAccs w hk scope true evf as)
          { opOf u hk 2 scope as (refusals u hk .store as) with fabric := as.flatMap remote }) := by
  simp only [finishStore, hw]

/-- A unit's store whose pieces have all been written issues one operation; no other byte and no core has changed (R189). -/
theorem unitStore_all (hk : Nat) (val : Acc → Nat) (s u w : State) (as : List Acc) (hr : refusals u hk .store as = [])
    (hw : storeAccs (fun v a => storeAcc v hk 4 false a (val a)) u as = .all w) :
    ∃ z, unitStore hk val s (.all as u) = .done z ∧ StoreDone hk 4 false u z as val ∧ ∀ k, getCore z k = getCore u k := by
  have hf := touchAccs_frame w hk 4 true false as
  obtain ⟨hfw, hcores, hmem⟩ := storeAccs_writes hk 4 false val as u w hw
  have hi := issueOp_issued w _ hk { opOf u hk 2 4 as (refusals u hk .store as) with fabric := as.flatMap (storeRemote s hk val) }
    hf rfl rfl (.inr rfl)
  have hz : ∀ o, (issueOp (touchAccs w hk 4 true false as) o).mem = w.mem := fun o => by rw [issueOp_mem, hf.mem]
  refine ⟨issueOp (touchAccs w hk 4 true false as)
    { opOf u hk 2 4 as (refusals u hk .store as) with fabric := as.flatMap (storeRemote s hk val) },
    finishStore_all hw, ⟨w, hw, ?_, hz _, fun loc hl => ?_⟩, fun k => ?_⟩
  · simp only [hr] at hi
    simp only [hr]
    exact hi
  · rw [hz]
    exact hmem loc (fun l ⟨a, ha, q, hq, j, hj, e⟩ => e ▸ hl a ha q hq j hj)
  · rw [getCore, getCore, issueOp_cores, hf.cores, hcores]

end Sys2Proof.Machine
end

section
/-! SUPPORT. What a check of addresses that all pass leaves unchanged (R146, R310): only translations are kept. -/
namespace Sys2Proof.Machine

open Sys2Proof

/-- From state s to state t only what TLBs keep, what entries say of the skew of their memory, and what the slices hold has changed
(R310, R311, R315, R318). -/
def Translated (s t : State) : Prop :=
  t = { s with cores := t.cores, clusters := t.clusters, skews := t.skews, l2 := t.l2, sharers := t.sharers } ∧
  ∀ k, getCore t k = { getCore s k with tlb := (getCore t k).tlb, gtlb := (getCore t k).gtlb }

theorem Translated.rfl (s : State) : Translated s s := ⟨.refl _, fun _ => .refl _⟩

theorem Translated.trans {s t u : State} (h : Translated s t) (k : Translated t u) : Translated s u := by
  obtain ⟨hs, hc⟩ := h
  obtain ⟨ks, kc⟩ := k
  exact ⟨by rw [ks, hs], fun j => by rw [kc j, hc j]⟩

theorem Translated.mem {s t : State} (h : Translated s t) : t.mem = s.mem := by rw [h.1]

theorem Translated.hart {s t : State} (h : Translated s t) (k : Nat) : getHart t k = getHart s k := by
  rw [h.1]
  rfl

theorem Translated.core {s t : State} (h : Translated s t) (k : Nat) :
    getCore t k = { getCore s k with tlb := (getCore t k).tlb, gtlb := (getCore t k).gtlb } := h.2 k

theorem SameLinesApart.translated {s t : State} (h : SameLinesApart s t) : Translated s t := by
  have hc : t.cores = s.cores := h.cores
  refine ⟨?_, fun k => by unfold getCore; rw [hc]⟩
  unfold SameLinesApart at h
  rw [h]

theorem noteSkew_translated (s : State) (pa : Nat) (e : DWord) : Translated s (noteSkew s pa e) := by
  refine ⟨?_, fun k => ?_⟩
  · rw [noteSkew_frame]
  · unfold getCore
    rw [show (noteSkew s pa e).cores = s.cores from by rw [noteSkew_frame]]

theorem coreFill_core (c : Core) (e : TlbEnt) (v : Nat) (p : Path) :
    coreFill c e v p = { c with tlb := (coreFill c e v p).tlb, gtlb := (coreFill c e v p).gtlb } := by
  unfold coreFill
  split <;> rfl

theorem fillCore_translated (s : State) (ck : Nat) (e : TlbEnt) (v : Nat) (p : Path) :
    Translated s (modCore s ck (fun c => coreFill c e v p)) := by
  refine ⟨.refl _, fun k => ?_⟩
  by_cases h : ck = k
  · subst h
    rw [getCore_modCore_same]
    exact coreFill_core _ _ _ _
  · rw [getCore_modCore_other _ _ _ _ h]

theorem modClus_translated (s : State) (k : Nat) (f : Cluster → Cluster) : Translated s (modClus s k f) :=
  ⟨.refl _, fun _ => .refl _⟩

theorem useEntry_ok {s t : State} {a : Agent} {k : Kind} {va e : DWord} {z l : Nat} (h : useEntry s a k va e z = .ok l t) :
    Translated s t := by
  simp only [useEntry] at h
  split_ifs at h
  obtain ⟨-, rfl⟩ := Chk.ok.inj h
  exact noteSkew_translated _ _ _

/-- An address that has a location has been translated. -/
theorem translate_ok {s t : State} {a : Agent} {k : Kind} {va : DWord} {p : Path} {l : Nat} (h : translate s a k va p = .ok l t) :
    Translated s t := by
  simp only [translate] at h
  split at h
  · exact useEntry_ok h
  · split at h
    · exact (fillCore_translated _ _ _ _ _).trans (useEntry_ok h)
    · split at h
      · exact absurd h (by simp)
      · split at h
        · split at h
          · exact absurd h (by simp)
          · exact absurd h (by simp)
          · exact (((touchWalk_frame _ _ _ _).translated.trans (modClus_translated _ _ _)).trans (fillCore_translated _ _ _ _ _)).trans
              (useEntry_ok h)
        · exact absurd h (by simp)

theorem globalPieces_ok {s t : State} {a : Agent} {k : Kind} {va : DWord} {n : Nat} {p : Path} {ps : List (Nat × Nat)}
    (h : globalPieces s a k va n p = .ok ps t) : Translated s t := by
  simp only [globalPieces] at h
  split at h
  · split at h
    case h_1 ht => obtain ⟨-, rfl⟩ := Chk.ok.inj h; exact translate_ok ht
    all_goals exact absurd h (by simp)
  · split at h
    case h_1 ht =>
      split at h
      case h_1 hu => obtain ⟨-, rfl⟩ := Chk.ok.inj h; exact (translate_ok ht).trans (translate_ok hu)
      all_goals exact absurd h (by simp)
    all_goals exact absurd h (by simp)

theorem elemCheck_ok {s t : State} {a : Agent} {k : Kind} {va : DWord} {n al : Nat} {p : Path} {ps : List (Nat × Nat)}
    (h : elemCheck s a k va n al p = .ok ps t) : Translated s t := by
  simp only [elemCheck] at h
  split at h
  · split_ifs at h
    exact globalPieces_ok h
  · split at h
    · exact absurd h (by simp)
    · split_ifs at h
      obtain ⟨-, rfl⟩ := Chk.ok.inj h
      exact .rfl s

/-- Elements that have all passed have been translated. -/
theorem checkAccs_translated {hk : Nat} {k : Kind} {al : Nat} {p : Path} {l passed as : List Acc} {s u : State}
    (h : checkAccs s hk k al p passed l = .all as u) : Translated s u := by
  induction l generalizing s passed with
  | nil => obtain ⟨-, rfl⟩ := Checked.all.inj h; exact .rfl s
  | cons a l ih =>
    unfold checkAccs at h
    split at h
    case h_1 ps t ht => exact (elemCheck_ok ht).trans (ih h)
    all_goals exact absurd h (by simp)

/-! ## W of the infuser, as pieces of 64 bytes (R187, R188) -/

/-- Steps that each own what another key names leave a place as it was. -/
theorem foldl_unowned {σ β γ : Type} (step : σ → Nat × β → σ) (get : σ → γ) (own : Nat)
    (hs : ∀ z p, p.1 ≠ own → get (step z p) = get z) (l : List (Nat × β)) (z : σ) (hl : ∀ p ∈ l, p.1 ≠ own) :
    get (l.foldl step z) = get z := by
  induction l generalizing z with
  | nil => rfl
  | cons p l ih =>
    rw [List.foldl_cons, ih _ (fun q hq => hl q (List.mem_cons_of_mem p hq)), hs z p (hl p List.mem_cons_self)]

/-- An entry of W by its number. -/
def setW (nd : Nat) (w : SMap (BitVec 16)) (p : Nat × Nat) : SMap (BitVec 16) :=
  SMap.set 0 w (p.1 / nd * 128 + p.1 % nd) (BitVec.ofNat 16 p.2)

theorem get_setW {nd j k : Nat} (hn : nd ≤ 128) (hk : k < nd) (w : SMap (BitVec 16)) (p : Nat × Nat) :
    (SMap.get 0 (setW nd w p) (j * 128 + k)).toNat = if p.1 = j * nd + k then p.2 % 2 ^ 16 else (SMap.get 0 w (j * 128 + k)).toNat := by
  have hm := Nat.mod_lt p.1 (Nat.zero_lt_of_lt hk)
  have hd := Nat.div_add_mod p.1 nd
  unfold setW
  by_cases h : p.1 = j * nd + k
  · have e1 : p.1 / nd = j := by rw [h]; exact Nat.div_eq_of_lt_le (by omega) (by rw [Nat.succ_mul]; omega)
    have e2 : p.1 % nd = k := by rw [h, Nat.mul_add_mod_of_lt hk]
    rw [if_pos h, e1, e2, SMap.get_set_same, BitVec.toNat_ofNat]
  · rw [if_neg h, SMap.get_set_other]
    intro e
    have e1 : p.1 / nd = j := by omega
    have e2 : p.1 % nd = k := by omega
    rw [e1, e2, Nat.mul_comm] at hd
    exact h hd.symm

/-- A piece replaces the entries it holds and no other. -/
theorem get_putW {nd j k : Nat} (hn : nd ≤ 128) (hk : k < nd) (w : SMap (BitVec 16)) (p : Nat × Nat) :
    (SMap.get 0 (putW nd p.1 p.2 w) (j * 128 + k)).toNat
      = if p.1 = (j * nd + k) / 32 then elem p.2 ((j * nd + k) % 32) 16 else (SMap.get 0 w (j * 128 + k)).toNat := by
  have hput : putW nd p.1 p.2 w = ((List.range 32).map (fun q => (32 * p.1 + q, elem p.2 q 16))).foldl (setW nd) w := by
    rw [List.foldl_map]; rfl
  have hmem : ∀ q ∈ (List.range 32).map (fun q => (32 * p.1 + q, elem p.2 q 16)), ∃ r < 32, q = (32 * p.1 + r, elem p.2 r 16) := by
    intro q hq
    obtain ⟨r, hr, rfl⟩ := List.mem_map.mp hq
    exact ⟨r, List.mem_range.mp hr, rfl⟩
  rw [hput]
  by_cases h : p.1 = (j * nd + k) / 32
  · have hown : 32 * p.1 + (j * nd + k) % 32 = j * nd + k := by omega
    rw [if_pos h, foldl_owned (setW nd) (fun z => (SMap.get 0 z (j * 128 + k)).toNat) (j * nd + k) (fun v => v % 2 ^ 16)
      (fun z q => get_setW hn hk z q) _ w (elem p.2 ((j * nd + k) % 32) 16)]
    · exact elem_mod _ _ _
    · exact List.mem_map.mpr ⟨_, List.mem_range.mpr (Nat.mod_lt _ (by decide)), by rw [hown]⟩
    · intro c hc
      obtain ⟨r, hr, e⟩ := hmem _ hc
      obtain ⟨e1, rfl⟩ := Prod.mk.inj e
      rw [show r = (j * nd + k) % 32 by omega]
  · rw [if_neg h]
    refine foldl_unowned (setW nd) (fun z => (SMap.get 0 z (j * 128 + k)).toNat) (j * nd + k) (fun z q hq => ?_) _ w (fun q hq => ?_)
    · rw [get_setW hn hk, if_neg hq]
    · obtain ⟨r, hr, rfl⟩ := hmem q hq
      simp only
      omega

/-- W after all its pieces have been loaded holds the entry that the entry's piece gives. -/
theorem get_loadW {nd j k v : Nat} (hn : nd ≤ 128) (hk : k < nd) (w : SMap (BitVec 16)) (vals : List (Nat × Nat))
    (hm : ((j * nd + k) / 32, v) ∈ vals) (hu : ∀ c, ((j * nd + k) / 32, c) ∈ vals → c = v) :
    (SMap.get 0 (vals.foldl (fun w p => putW nd p.1 p.2 w) w) (j * 128 + k)).toNat = elem v ((j * nd + k) % 32) 16 :=
  foldl_owned (fun w p => putW nd p.1 p.2 w) (fun z => (SMap.get 0 z (j * 128 + k)).toNat) ((j * nd + k) / 32)
    (fun v => elem v ((j * nd + k) % 32) 16) (fun z p => get_putW hn hk z p) vals w v hm hu

/-- The piece that holds an entry of W is one of the pieces of W. -/
theorem piece_of_entry {j k rc dc : Nat} (hj : j < 16 * 2 ^ rc) (hk : k < 16 * 2 ^ dc) :
    (j * (16 * 2 ^ dc) + k) / 32 < 8 * 2 ^ (rc + dc) := by
  rw [Nat.div_lt_iff_lt_mul (by decide)]
  calc j * (16 * 2 ^ dc) + k < (j + 1) * (16 * 2 ^ dc) := by rw [Nat.add_mul]; omega
    _ ≤ 16 * 2 ^ rc * (16 * 2 ^ dc) := Nat.mul_le_mul_right _ hj
    _ = 8 * 2 ^ (rc + dc) * 32 := by rw [pow_add]; ring

theorem infND_le {dc : Nat} (h : dc < 4) : 16 * 2 ^ dc ≤ 128 := by
  have := Nat.pow_le_pow_right (show 0 < 2 by decide) (show dc ≤ 3 by omega)
  omega

/-- An entry of a piece of W that `ipsave` writes (R188). -/
theorem elem_pieceW (c : Core) {j k : Nat} (hk : k < c.infND) :
    elem (pieceW c ((j * c.infND + k) / 32)) ((j * c.infND + k) % 32) 16 = c.infAt j k := by
  have hm : (j * c.infND + k) % 32 < 32 := Nat.mod_lt _ (by decide)
  have hown : 32 * ((j * c.infND + k) / 32) + (j * c.infND + k) % 32 = j * c.infND + k := Nat.div_add_mod _ _
  have e1 : (j * c.infND + k) / c.infND = j := Nat.div_eq_of_lt_le (by omega) (by rw [Nat.succ_mul]; omega)
  rw [pieceW, elem_buildElems]
  simp only [List.getD_eq_getElem?_getD, List.getElem?_map, List.getElem?_range hm, Option.map_some, Option.getD_some, hown, e1,
    Nat.mul_add_mod_of_lt hk]
  exact Nat.mod_eq_of_lt (SMap.get 0 c.infW _).isLt

/-! ## ipload and ipsave (R187 to R189) -/

/-- A shape word with no reserved value (R187). -/
theorem shapeWord_some {y : DWord} (h1 : bits y 30 11 = 0) (h2 : bits y 7 3 = 0) (h3 : bits y 10 8 < 4) (h4 : bits y 2 0 < 4) :
    shapeWord y = some (y.getLsbD 31, bits y 2 0, bits y 10 8) := by
  rw [shapeWord, if_neg (by omega)]; rfl

/-- What `ipload` enters once all its pieces are there (R187). -/
theorem loadW_all (u : State) (hk rc dc : Nat) (as : List Acc) (h0 : ∃ a ∈ as, a.idx = 0) : loadW hk rc dc u as
    = setCore u (coreOf hk) { getCore u (coreOf hk) with
        infW := (as.map (fun a => (a.idx, loadAcc u hk a))).foldl (fun w p => putW (16 * 2 ^ dc) p.1 p.2 w) (getCore u (coreOf hk)).infW
        infV := true, infCtx := (getHart u hk).ctxid.toNat, infHart := hartNo hk, infRC := rc, infDC := dc } := by
  obtain ⟨a, ha, hi⟩ := h0
  have he : as.isEmpty = false := by cases as <;> simp_all
  have hany : as.any (fun a => a.idx == 0) = true := List.any_eq_true.mpr ⟨a, ha, by simp [hi]⟩
  simp only [loadW, he, hany, if_true, modCore]
  rfl

/-- A wait for no unit (R194). -/
theorem withClaims_none (s : State) (hk : Nat) (k : SlotRes) : withClaims s hk [] true k = k := rfl

/-- The body of `ipload` once every piece has passed: W is loaded and the hart owns the infuser (R187). -/
theorem infuserLoad_all {b c : BitVec 7} {s u : State} {hk : Nat} {x y : DWord} {rc dc : Nat} {as : List Acc}
    (hb : readS (getHart s hk) b = some x) (hc : readS (getHart s hk) c = some y) (hy : shapeWord y = some (false, rc, dc))
    (hf : infuserFree s hk = true) (hfl : (getCore s (coreOf hk)).inflight = []) (hl : (getHart s hk).lcnt < 63)
    (ha : checkAccs s hk .load 64 .scalar [] (pieces64 (getHart s hk) x.toNat (8 * 2 ^ (rc + dc))) = .all as u) :
    infuserLoad b c s hk = unitLoad hk (loadW hk rc dc) (.all as u) := by
  have hfull : counterFull (getHart s hk) 1 = false := by simpa [counterFull] using hl
  simp [infuserLoad, hb, hc, hy, hf, withClaims_none, hfl, hfull, ha]

/-- The body of `ipsave` once the operand is read and no unit is in the way (R188). -/
theorem infuserSave_pieces {b : BitVec 7} {s : State} {hk : Nat} {x : DWord} (hb : readS (getHart s hk) b = some x)
    (hf : infuserFree s hk = true) (hl : (getHart s hk).scnt < 63) (i : Core) (n : Nat) (hi : getCore s (coreOf hk) = i)
    (hn : (if i.infV then i.infNL * i.infND / 32 else 0) = n) :
    infuserSave b s hk = unitStore hk (fun y => if y.idx < n then pieceW i y.idx else ownerWord i) s
      (checkAccs s hk .store 64 .scalar [] (savePieces (getHart s hk) i x.toNat)) := by
  subst hi hn
  have hfull : counterFull (getHart s hk) 2 = false := by simpa [counterFull] using hl
  simp [infuserSave, hb, hf, withClaims_none, hfull]

/-- The least number below n that satisfies p. -/
theorem find_range_least {p : Nat → Bool} {n i : Nat} (hi : i < n) (hp : p i = true) (h : ∀ j < n, p j = true → i ≤ j) :
    (List.range n).find? p = some i := by
  refine List.find?_range_eq_some.mpr ⟨hp, List.mem_range.mpr hi, fun j hj => ?_⟩
  cases hb : p j
  · rfl
  · exact absurd (h j (by omega) hb) (by omega)

/-- The entry after e, ascending and round again, where some entry is valid (R198). -/
theorem nextEntry_some (m : SMap DWord) (e i : Nat) (hi : i < 16) (hv : bit (SMap.get 0 m i) 31 = true)
    (h : (e < i ∧ ∀ j, (j < 16 ∧ bit (SMap.get 0 m j) 31 = true) → e < j → i ≤ j) ∨
      ((∀ j, (j < 16 ∧ bit (SMap.get 0 m j) 31 = true) → j ≤ e) ∧ ∀ j, (j < 16 ∧ bit (SMap.get 0 m j) 31 = true) → i ≤ j)) :
    nextEntry m e = some i := by
  unfold nextEntry mstValid
  rw [List.find?_filter, List.head?_filter]
  rcases h with ⟨hlt, hmin⟩ | ⟨hall, hmin⟩
  · rw [find_range_least hi (decide_eq_true ⟨hv, decide_eq_true hlt⟩) (fun j hj hb => by
      simp only [decide_eq_true_eq] at hb
      exact hmin j ⟨hj, hb.1⟩ hb.2)]
  · have hn : (List.range 16).find? (fun j => decide (bit (SMap.get 0 m j) 31 = true ∧ decide (e < j) = true)) = none := by
      refine List.find?_eq_none.mpr (fun j hj => ?_)
      simp only [decide_eq_true_eq, not_and]
      exact fun hb => Nat.not_lt.mpr (hall j ⟨List.mem_range.mp hj, hb⟩)
    rw [hn]
    exact find_range_least hi hv (fun j hj hb => hmin j ⟨hj, hb⟩)

/-- With no valid entry there is no next one. -/
theorem nextEntry_none (m : SMap DWord) (e : Nat) (h : ∀ i, ¬ (i < 16 ∧ bit (SMap.get 0 m i) 31 = true)) : nextEntry m e = none := by
  have hv : mstValid m = [] := List.filter_eq_nil_iff.mpr (fun i hi hb => h i ⟨List.mem_range.mp hi, hb⟩)
  simp [nextEntry, hv]

/-- What the loaded W, the pieces and the operation of a complete `ipload` are (R187, R189). -/
theorem ipload_all {b c : BitVec 7} {s u : State} {x y : DWord} {rc dc : Nat} {as : List Acc} (hr : SlotRuns s 0x46 0)
    (hb : readS (cur s) b = some x) (hc : readS (cur s) c = some y) (hy : shapeWord y = some (false, rc, dc)) (hd : dc < 4)
    (hf : infuserFree s s.cur = true) (hfl : (curCore s).inflight = []) (hl : (cur s).lcnt < 63) (h0 : startElem (cur s) = 0)
    (ha : checkAccs s s.cur .load 64 .scalar [] (pieces64 (cur s) x.toNat (8 * 2 ^ (rc + dc))) = .all as u)
    (hrf : refusals u s.cur .load as = []) :
    ∃ w d, exec (.ipload b c) s = .next (completed s w) ∧ w.mem = s.mem ∧ Issued s.cur (setCore u (coreOf s.cur) d) w 1 [] ∧
      d = { getCore u (coreOf s.cur) with infV := true, infCtx := (cur s).ctxid.toNat, infHart := s.cur % 8,
                                          infRC := rc, infDC := dc, infW := d.infW } ∧
      ∀ j k, j < 16 * 2 ^ rc → k < 16 * 2 ^ dc → ∃ acc ∈ as, acc.idx = (j * (16 * 2 ^ dc) + k) / 32 ∧
        acc.va = x + BitVec.ofNat 64 (64 * acc.idx) ∧
        d.infAt j k = elem (viewPieces u s.cur acc.va acc.pieces) ((j * (16 * 2 ^ dc) + k) % 32) 16 := by
  have hx : exec (.ipload b c) s = .next (finishSlot s.cur (cur s).prefixLive (infuserLoad b c s s.cur)) := runSlot_runs _ _ _ _ hr
  have htr := checkAccs_translated ha
  obtain ⟨w, hw, hmem, hiss⟩ := unitLoad_all s.cur (loadW s.cur rc dc) as u hrf
  have hzero : ∃ a ∈ as, a.idx = 0 := by
    obtain ⟨acc, hm, hi, -⟩ := piece_passed h0 ha 0 (by positivity)
    exact ⟨acc, hm, hi⟩
  rw [loadW_all _ _ _ _ _ hzero, htr.hart] at hiss hmem
  rw [hx, infuserLoad_all hb hc hy hf hfl hl ha, hw]
  refine ⟨w, _, rfl, hmem.trans htr.mem, hiss, rfl, fun j k hj hk => ?_⟩
  obtain ⟨acc, hm, hi, hva, hu⟩ := piece_passed h0 ha _ (piece_of_entry hj hk)
  refine ⟨acc, hm, hi, by rw [hva, hi], ?_⟩
  rw [← loadAcc_of_unrefused hrf acc hm]
  refine get_loadW (infND_le hd) hk _ _ (List.mem_map.mpr ⟨acc, hm, by rw [hi]⟩) (fun v hv => ?_)
  obtain ⟨a, ha, e⟩ := List.mem_map.mp hv
  obtain ⟨e1, rfl⟩ := Prod.mk.inj e
  rw [hu a ha e1]

/-- What a complete `ipsave` has written and issued (R188, R189). -/
theorem ipsave_all {b : BitVec 7} {s u : State} {x : DWord} {n : Nat} {as : List Acc} (hr : SlotRuns s 0x46 1)
    (hb : readS (cur s) b = some x) (hf : infuserFree s s.cur = true) (hl : (cur s).scnt < 63) (h0 : startElem (cur s) = 0)
    (hn : (if (curCore s).infV then (curCore s).infNL * (curCore s).infND / 32 else 0) = n)
    (ha : checkAccs s s.cur .store 64 .scalar [] (pieces64 (cur s) x.toNat n ++ [⟨n, x + 32768, 64, []⟩]) = .all as u)
    (hrf : refusals u s.cur .store as = []) (w : State)
    (hw : storeAccs (fun g k => storeAcc g s.cur 4 false k
      (if k.idx < n then pieceW (curCore s) k.idx else ownerWord (curCore s))) u as = .all w) :
    ∃ z, exec (.ipsave b) s = .next (completed s z) ∧ u.mem = s.mem ∧
      StoreDone s.cur 4 false u z as (fun k => if k.idx < n then pieceW (curCore s) k.idx else ownerWord (curCore s)) := by
  have hx : exec (.ipsave b) s = .next (finishSlot s.cur (cur s).prefixLive (infuserSave b s s.cur)) := runSlot_runs _ _ _ _ hr
  have hp : savePieces (cur s) (curCore s) x.toNat = pieces64 (cur s) x.toNat n ++ [⟨n, x + 32768, 64, []⟩] := by
    rw [savePieces, hn, if_pos (by rw [h0]; exact Nat.zero_le n), show (32768 : Int) = ((32768 : Nat) : Int) from rfl, ofNat_addOfs]
    rfl
  obtain ⟨z, hz, hdone, -⟩ := unitStore_all s.cur _ s u w as hrf hw
  have hbody : infuserSave b s s.cur = .done z := by
    rw [infuserSave_pieces hb hf hl (curCore s) n rfl hn, show savePieces (getHart s s.cur) _ _ = _ from hp]
    exact (congrArg _ ha).trans hz
  rw [hx, hbody]
  exact ⟨z, rfl, (checkAccs_translated ha).mem, hdone⟩

/-- Settles O41: the pieces that pass are those of W, each entry owned by one of them; the slot table's next entry is the least valid
one after the present, or the least of all. -/
theorem infuserAndSlotTable : Obligations.InfuserAndSlotTable := by
  refine ⟨fun s u b c x y rel rc dc as hb hc h30 h7 hdc hd hrc hrd hrel => ?_, fun s ck => ⟨rfl, slotBoundary (getCore s ck), rfl, ?_⟩⟩
  · have hy : shapeWord y = some (rel, rc, dc) := by
      rw [shapeWord_some h30 h7 (hdc ▸ hd) (hrc ▸ hrd), hrel, hrc, hdc]
    have hb' : readS (getHart s s.cur) b = some x := hb
    have hc' : readS (getHart s s.cur) c = some y := hc
    refine ⟨fun hr h1 hm => ?_, fun hr h1 hf => ?_, fun hr hf => ?_, fun hr h1 hf hfl hl h0 ha hrf => ?_, fun hr hf hl h0 => ?_⟩
    · have hm' : (getHart s s.cur).mode ≠ 0 := hm
      have hf : infuserFree s s.cur = true := by simp [infuserFree, hm']
      refine (runSlot_runs s 0x46 0 _ hr).trans ?_
      have hbody : infuserLoad b c s s.cur = .done (setCore s (coreOf s.cur) { curCore s with infV := false }) := by
        simp [infuserLoad, hb', hc', hy, h1, hm', hf, withClaims_none]
        rfl
      rw [hbody]
      rfl
    · refine (runSlot_runs s 0x46 0 _ hr).trans ?_
      have hbody : infuserLoad b c s s.cur = .trap cACCCLAIM 2 0 0 0 s := by
        simp [infuserLoad, hb', hc', hy, h1, hf, withClaims]
      rw [hbody]
      rfl
    · refine (runSlot_runs s 0x46 1 _ hr).trans ?_
      have hbody : infuserSave b s s.cur = .trap cACCCLAIM 2 0 0 0 s := by
        simp [infuserSave, hb', hf, withClaims]
      rw [hbody]
      rfl
    · subst h1
      exact ipload_all hr hb hc hy hd hf hfl hl h0 ha hrf
    · intro i n ha hrf
      refine ⟨fun k => if k < n then pieceW i k else ownerWord i, fun j k hj hk hv => ?_, ?_,
        fun w hw => ipsave_all hr hb hf hl h0 rfl ha hrf w hw⟩
      · have hlt : (j * i.infND + k) / 32 < n := by
          rw [show n = i.infNL * i.infND / 32 from if_pos hv]
          have hp : i.infNL * i.infND / 32 = 8 * 2 ^ (i.infRC + i.infDC) := by
            rw [Core.infNL, Core.infND, pow_add]
            exact Nat.div_eq_of_eq_mul_left (by decide) (by ring)
          rw [hp]
          exact piece_of_entry hj hk
        simp only [if_pos hlt]
        exact elem_pieceW i hk
      · simp only [Nat.lt_irrefl, if_false]
        rfl
  · intro c valid
    refine ⟨fun h => ?_, fun e len n h => ⟨fun hl => ?_, fun hl hv => ?_, fun hl i hv hi => ?_⟩⟩
    · simp [slotBoundary, show (getCore s ck).mstSlot = none from h, c]
    · simp [slotBoundary, show (getCore s ck).mstSlot = some (e, len, n) from h, hl, c]
    · simp [slotBoundary, show (getCore s ck).mstSlot = some (e, len, n) from h, Nat.not_lt.mpr hl, nextEntry_none _ e hv, c]
    · simp [slotBoundary, show (getCore s ck).mstSlot = some (e, len, n) from h, Nat.not_lt.mpr hl,
        nextEntry_some _ e i hv.1 hv.2 hi, c]

end Sys2Proof.Machine
end

section
/-! OBLIGATION O40. The tile instructions (R189 to R194). -/
namespace Sys2Proof.Machine

open Sys2Proof

/-! ## Modes and saturation bits of a tile (R38, R63) -/

theorem cellMode_setMode {m : Nat} (hm : m < 2) (w : DWord) : bits (withBits w 30 30 m) 30 30 = m :=
  bits_withBits_same w 30 30 m (Nat.le_refl _) (by decide) hm

theorem getLsbD_setMode (w : DWord) (m k : Nat) (hk : k ≠ 30) : (withBits w 30 30 m).getLsbD k = w.getLsbD k := by
  rw [getLsbD_withBits w 30 30 m k (Nat.le_refl _) (by decide), if_neg (by omega)]

theorem cellMode_lt (c : Core) (n : Nat) : c.cellMode n < 2 := Nat.mod_lt _ (by decide)

/-- An integer clamped to a signed width (R49). -/
theorem clampS_fst (w : Nat) (z : Int) :
    (clampS w z).1 = max (-((2 ^ (w - 1) : Nat) : Int)) (min (((2 ^ (w - 1) : Nat) : Int) - 1) z) := by
  have h : (0 : Int) < ((2 ^ (w - 1) : Nat) : Int) := by positivity
  simp only [clampS]
  generalize ((2 ^ (w - 1) : Nat) : Int) = p at h ⊢
  split_ifs <;> omega

/-- An integer outside a signed width is changed by clamping it (R49). -/
theorem clampS_snd (w : Nat) (z : Int) :
    (clampS w z).2 = true ↔ z < -((2 ^ (w - 1) : Nat) : Int) ∨ ((2 ^ (w - 1) : Nat) : Int) ≤ z := by
  simp only [clampS]
  generalize ((2 ^ (w - 1) : Nat) : Int) = p
  split_ifs <;> simp only [true_iff, false_iff] <;> omega

theorem wrapInt_lt (w : Nat) (z : Int) : wrapInt w z < 2 ^ w := by
  have h : (0 : Int) < ((2 ^ w : Nat) : Int) := by positivity
  have h1 := Int.emod_lt_of_pos z h
  have h2 := Int.emod_nonneg z h.ne'
  unfold wrapInt
  omega

@[simp] theorem wrapInt_mod (w : Nat) (z : Int) : wrapInt w z % 2 ^ w = wrapInt w z := Nat.mod_eq_of_lt (wrapInt_lt w z)

/-- A bit of a number gathered row by row. -/
theorem testBit_rows (p : Nat → Bool) (l : List Nat) (z k : Nat) :
    (l.foldl (fun v i => if p i then v ||| 2 ^ i else v) z).testBit k = true ↔ z.testBit k = true ∨ (k ∈ l ∧ p k = true) := by
  have e : (fun v i => if p i then v ||| 2 ^ i else v) = (fun v i => v ||| (if p i then 2 ^ i else 0)) := by
    funext v i
    split <;> simp
  rw [e, testBit_foldl_or]
  refine or_congr_right ⟨fun ⟨i, hi, hb⟩ => ?_, fun ⟨hk, hp⟩ => ⟨k, hk, by simp [hp]⟩⟩
  split at hb
  · next hp =>
    obtain rfl : i = k := by simpa [Nat.testBit_two_pow] using hb
    exact ⟨hi, hp⟩
  · simp at hb

/-! ## A tile instruction that changes its core (R192) -/

/-- A tile instruction on tiles of the hart's own, named by nothing in flight, makes its change. -/
theorem tileBody_done {s : State} {ts : List Nat} {f : Core → Option (Core × Nat)} {d : Core} {fl : Nat}
    (ho : ∀ t ∈ ts, ownsTile s s.cur t = true) (hb : tileBusy (curCore s) ts = false) (hw : ownerWaits s (coreOf s.cur) ts = false)
    (hf : f (curCore s) = some (d, fl)) :
    tileBody (some ts) f s s.cur = .done (withCur (setCore s (coreOf s.cur) (fly s.cur ts false d)) (raise (cur s) fl)) := by
  have hf' : f (getCore s (coreOf s.cur)) = some (d, fl) := hf
  simp only [tileBody, hf']
  rw [withClaims_owned _ _ _ _ _ ho rfl, whenFree_ready _ _ _ _ hb hw]
  rfl

/-- The one tile of an instruction is ready. -/
theorem tileBody_one {s : State} {t : Nat} {f : Core → Option (Core × Nat)} {d : Core} {fl : Nat} (h : TileReady s t)
    (hf : f (curCore s) = some (d, fl)) :
    tileBody (some [t]) f s s.cur = .done (withCur (setCore s (coreOf s.cur) (fly s.cur [t] false d)) (raise (cur s) fl)) := by
  obtain ⟨ho, hb, hw⟩ := h
  exact tileBody_done (fun k hk => by rw [List.mem_singleton.mp hk]; exact ho) hb hw hf

/-- Both tiles of an instruction are ready. -/
theorem tileBody_two {s : State} {t n : Nat} {f : Core → Option (Core × Nat)} {d : Core} {fl : Nat} (h : TileReady s t)
    (k : TileReady s n) (hf : f (curCore s) = some (d, fl)) :
    tileBody (some [t, n]) f s s.cur = .done (withCur (setCore s (coreOf s.cur) (fly s.cur [t, n] false d)) (raise (cur s) fl)) := by
  obtain ⟨ho, hb, hw⟩ := h
  obtain ⟨ko, kb, kw⟩ := k
  refine tileBody_done (fun j hj => ?_) (tileBusy_pair _ _ _ hb kb) (ownerWaits_pair _ _ _ _ hw kw) hf
  rcases List.mem_cons.mp hj with rfl | hj
  · exact ho
  · rw [List.mem_singleton.mp hj]; exact ko

/-- A core with one tile's cells, owner register and saturation bits replaced, and an instruction in flight. -/
theorem tileChanged_set {c : Core} {t : Nat} (ht : t = 0 ∨ t = 1) (T : SMap (BitVec 40)) (o a : DWord) (hk : Nat) (ts : List Nat)
    {v : Nat → Nat → Nat} (hv : ∀ i j, i < 32 → j < 32 → cellAt T (32 * i + j) = v i j) :
    let d := fly hk ts false (((c.setTile t T).setAccown t o).putAtsat t a)
    TileChanged c d t v ∧ (d.accown (1 - t) = c.accown (1 - t) ∧ d.atsat (1 - t) = c.atsat (1 - t)) ∧ d.atsat t = a ∧ d.accown t = o := by
  rcases ht with rfl | rfl <;> exact ⟨⟨hv, rfl, rfl⟩, ⟨rfl, rfl⟩, rfl, rfl⟩

/-- A core with one tile's cells alone replaced, and an instruction in flight. -/
theorem tileChanged_setTile {c : Core} {t : Nat} (ht : t = 0 ∨ t = 1) (T : SMap (BitVec 40)) (hk : Nat) (ts : List Nat)
    {v : Nat → Nat → Nat} (hv : ∀ i j, i < 32 → j < 32 → cellAt T (32 * i + j) = v i j) :
    let d := fly hk ts false (c.setTile t T)
    TileChanged c d t v ∧ (d.accown (1 - t) = c.accown (1 - t) ∧ d.atsat (1 - t) = c.atsat (1 - t)) ∧ d.atsat t = c.atsat t ∧
      d.accown t = c.accown t := by
  rcases ht with rfl | rfl <;> exact ⟨⟨hv, rfl, rfl⟩, ⟨rfl, rfl⟩, rfl, rfl⟩

/-- `atzero` (R192). -/
theorem tileZero_ready {s : State} {a b : BitVec 7} {t : Nat} (ht : tileOf a = some t) (hr : TileReady s t) (hb : b.toNat < 2) :
    tileZero a b s s.cur = .done (withCur (setCore s (coreOf s.cur) (fly s.cur [t] false
      ((((curCore s).setTile t []).setMode t b.toNat).putAtsat t 0))) (raise (cur s) 0)) := by
  have hl : literal b = some b.toNat := by simp [literal, hb]
  simp only [tileZero, ht, hl]
  exact tileBody_one hr rfl

/-- `atmov` (R192). -/
theorem tileMove_ready {s : State} {a b : BitVec 7} {t n : Nat} (ht : tileOf a = some t) (hn : tileOf b = some n) (hr : TileReady s t)
    (kr : TileReady s n) : tileMove a b s s.cur = .done (withCur (setCore s (coreOf s.cur) (fly s.cur [t, n] false
      ((((curCore s).setTile t ((curCore s).tile n)).setMode t ((curCore s).cellMode n)).putAtsat t ((curCore s).atsat n))))
        (raise (cur s) 0)) := by
  simp only [tileMove, ht, hn]
  exact tileBody_two hr kr rfl

/-- The cells of a tile, row and column exchanged (R192). -/
def transposed (T : SMap (BitVec 40)) : SMap (BitVec 40) :=
  putCells [] ((List.range 1024).map (fun p => (p, cellAt T (p % 32 * 32 + p / 32))))

theorem cellAt_transposed (T : SMap (BitVec 40)) {i j : Nat} (hi : i < 32) (hj : j < 32) :
    cellAt (transposed T) (32 * i + j) = cellAt T (32 * j + i) := by
  have hp : (32 * i + j) % 32 * 32 + (32 * i + j) / 32 = 32 * j + i := by omega
  unfold transposed
  rw [cellAt_putCells [] _ (32 * i + j) (cellAt T (32 * j + i)), cellAt_mod]
  · exact List.mem_map.mpr ⟨32 * i + j, List.mem_range.mpr (by omega), by rw [hp]⟩
  · intro w hw
    obtain ⟨p, -, e⟩ := List.mem_map.mp hw
    obtain ⟨rfl, rfl⟩ := Prod.mk.inj e
    rw [hp]

/-- `attr` (R192). -/
theorem tileTranspose_ready {s : State} {a : BitVec 7} {t : Nat} (ht : tileOf a = some t) (hr : TileReady s t) :
    tileTranspose a s s.cur = .done (withCur (setCore s (coreOf s.cur) (fly s.cur [t] false
      ((curCore s).setTile t (transposed ((curCore s).tile t))))) (raise (cur s) 0)) := by
  simp only [tileTranspose, ht]
  refine tileBody_one hr ?_
  simp only [transposed, putCells, List.foldl_map, Option.map_some]

/-! ## atadd (R192) -/

/-- The exact sum of two float cells, rounded (R192). -/
def floatSum (c : Core) (t n i j : Nat) : Nat × Nat :=
  rneArith fa40 (sumTerms true [.val (decodeF fa40 (cellAt (c.tile t) (32 * i + j))), .val (decodeF fa40 (cellAt (c.tile n) (32 * i + j)))])

/-- The exact sum of two integer cells (R192). -/
def intSum (c : Core) (t n i j : Nat) : Int :=
  toSigned 40 (cellAt (c.tile t) (32 * i + j)) + toSigned 40 (cellAt (c.tile n) (32 * i + j))

/-- The rows in which some sum leaves the 40 bits (R63). -/
def satRows (c : Core) (t n : Nat) : Nat :=
  (List.range 32).foldl (fun v i => if (List.range 32).any (fun j => (clampS 40 (intSum c t n i j)).2) then v ||| 2 ^ i else v) 0

theorem testBit_satRows (c : Core) (t n i : Nat) : (satRows c t n).testBit i = true ↔
    i < 32 ∧ ∃ j, j < 32 ∧ (intSum c t n i j < -2 ^ 39 ∨ 2 ^ 39 ≤ intSum c t n i j) := by
  unfold satRows
  rw [testBit_rows]
  simp [clampS_snd]

/-- `atadd` on float cells (R192). -/
theorem tileAdd_float {s : State} {a b : BitVec 7} {t n : Nat} (ht : tileOf a = some t) (hn : tileOf b = some n) (hr : TileReady s t)
    (kr : TileReady s n) (hm : (curCore s).cellMode t = (curCore s).cellMode n) (h0 : (curCore s).cellMode t = 0) :
    let r := updateRows ((curCore s).tile t) (List.range 32) (floatSum (curCore s) t n)
    tileAdd a b s s.cur = .done (withCur (setCore s (coreOf s.cur) (fly s.cur [t, n] false ((curCore s).setTile t r.1)))
      (raise (cur s) r.2)) := by
  simp only [tileAdd, ht, hn]
  refine tileBody_two hr kr ?_
  simp only [Option.bind_eq_bind, Option.bind_some, hm, guard, if_true, hm ▸ h0]
  rfl

/-- `atadd` on integer cells (R192). -/
theorem tileAdd_int {s : State} {a b : BitVec 7} {t n : Nat} (ht : tileOf a = some t) (hn : tileOf b = some n) (hr : TileReady s t)
    (kr : TileReady s n) (hm : (curCore s).cellMode t = (curCore s).cellMode n) (h1 : (curCore s).cellMode t = 1) :
    let r := updateRows ((curCore s).tile t) (List.range 32) (fun i j => (wrapInt 40 (clampS 40 (intSum (curCore s) t n i j)).1, 0))
    tileAdd a b s s.cur = .done (withCur (setCore s (coreOf s.cur) (fly s.cur [t, n] false
      (setAtsat ((curCore s).setTile t r.1) t (satRows (curCore s) t n)))) (raise (cur s) 0)) := by
  simp only [tileAdd, ht, hn]
  refine tileBody_two hr kr ?_
  simp only [Option.bind_eq_bind, Option.bind_some, hm, guard, if_true, hm ▸ h1, if_neg (show ¬ (1 = 0) by decide)]
  rfl

theorem getLsbD_setAtsat {c : Core} {t : Nat} (ht : t = 0 ∨ t = 1) (rows i : Nat) (hi : i < 64) :
    ((setAtsat c t rows).atsat t).getLsbD i = true ↔ (c.atsat t).getLsbD i = true ∨ (i < 32 ∧ rows.testBit i = true) := by
  have e : (setAtsat c t rows).atsat t = c.atsat t ||| BitVec.ofNat 64 (rows % 2 ^ 32) := by
    rcases ht with rfl | rfl <;> rfl
  rw [e, BitVec.getLsbD_or, BitVec.getLsbD_ofNat, Nat.testBit_mod_two_pow]
  simp [hi]

/-! ## The image of a tile (R64, R189) -/

theorem elem_tileImage (T : SMap (BitVec 40)) {p : Nat} (hp : p < 1024) : elem (tileImage T) p 40 = cellAt T p := by
  rw [tileImage, elem_buildElems]
  simp only [List.getD_eq_getElem?_getD, List.getElem?_map, List.getElem?_range hp, Option.map_some, Option.getD_some, cellAt_mod]

theorem cellAt_imageTile (V : Nat) {p : Nat} (hp : p < 1024) : cellAt (imageTile V) p = elem V p 40 := by
  unfold imageTile
  rw [cellAt_putCells [] _ p (elem V p 40), elem_mod]
  · exact List.mem_map.mpr ⟨p, List.mem_range.mpr hp, rfl⟩
  · intro w hw
    obtain ⟨q, -, e⟩ := List.mem_map.mp hw
    obtain ⟨rfl, rfl⟩ := Prod.mk.inj e
    rfl

/-- The image of a tile with the pieces that a load found entered (R189). -/
def loadedImage (u : State) (hk t : Nat) (as : List Acc) : Nat :=
  (as.map (fun a => (a.idx, loadAcc u hk a))).foldl (fun v p => setElem v p.1 512 p.2) (tileImage ((getCore u (coreOf hk)).tile t))

/-- A piece of the loaded image is what the load found at its address (R189). -/
theorem elem_loadedImage {u : State} {hk t i : Nat} {as : List Acc} {acc : Acc} (hm : acc ∈ as) (hi : acc.idx = i)
    (hu : ∀ c ∈ as, c.idx = i → c = acc) : elem (loadedImage u hk t as) i 512 = loadAcc u hk acc % 2 ^ 512 := by
  refine foldl_owned (fun v p => setElem v p.1 512 p.2) (fun z => elem z i 512) i (fun v => v % 2 ^ 512)
    (fun z p => ?_) _ _ (loadAcc u hk acc) (List.mem_map.mpr ⟨acc, hm, by rw [hi]⟩) (fun v hv => ?_)
  · simp only [elem_setElem, eq_comm]
  · obtain ⟨c, hc, e⟩ := List.mem_map.mp hv
    obtain ⟨e1, rfl⟩ := Prod.mk.inj e
    rw [hu c hc e1]

/-- What `atload` enters once all its pieces are there (R189, R192). -/
theorem loadTile_all (u : State) (hk t m : Nat) (as : List Acc) (h0 : ∃ a ∈ as, a.idx = 0) : loadTile hk t m u as
    = setCore u (coreOf hk) (fly hk [t] false
        ((((getCore u (coreOf hk)).setTile t (imageTile (loadedImage u hk t as))).setMode t m).putAtsat t 0)) := by
  obtain ⟨a, ha, hi⟩ := h0
  have hany : as.any (fun a => a.idx == 0) = true := List.any_eq_true.mpr ⟨a, ha, by simp [hi]⟩
  simp only [loadTile, hany, if_true, modCore]
  unfold Core.setMode Core.setAccown Core.setTile Core.putAtsat
  split <;> rfl

/-- The body of `atload` once every piece has passed (R192). -/
theorem tileLoad_all {a b c : BitVec 7} {s u : State} {x : DWord} {t : Nat} {as : List Acc} (ht : tileOf a = some t)
    (hr : TileReady s t) (hb : readS (cur s) b = some x) (hc : c.toNat < 2) (hl : (cur s).lcnt < 63)
    (ha : checkAccs s s.cur .load 64 .scalar [] (pieces64 (cur s) x.toNat 80) = .all as u) :
    tileLoad a b c s s.cur = unitLoad s.cur (loadTile s.cur t c.toNat) (.all as u) := by
  obtain ⟨ho, hbz, hw⟩ := hr
  have hb' : readS (getHart s s.cur) b = some x := hb
  have ha' : checkAccs s s.cur .load 64 .scalar [] (pieces64 (getHart s s.cur) x.toNat 80) = .all as u := ha
  have hlit : literal c = some c.toNat := by simp [literal, hc]
  have hfull : counterFull (getHart s s.cur) 1 = false := by simpa [counterFull, cur] using hl
  simp only [tileLoad, ht, hb', hlit, hfull, ha']
  rw [withClaims_owned _ _ _ _ _ (fun k hk => by rw [List.mem_singleton.mp hk]; exact ho) rfl, whenFree_ready _ _ _ _ hbz hw]
  rfl

/-- `atload` once every piece has passed: the tile, its mode and saturation bits, and one operation issued (R189, R192). -/
theorem atload_all {a b c : BitVec 7} {s u : State} {x : DWord} {t : Nat} {as : List Acc} (ht : tileOf a = some t)
    (hr : TileReady s t) (hs : SlotRuns s 0x47 2) (hb : readS (cur s) b = some x) (h0 : startElem (cur s) = 0) (hc : c.toNat < 2)
    (hl : (cur s).lcnt < 63) (ha : checkAccs s s.cur .load 64 .scalar [] (pieces64 (cur s) x.toNat 80) = .all as u)
    (hrf : refusals u s.cur .load as = []) :
    ∃ w d V, exec (.atload a b c) s = .next (completed s w) ∧ w.mem = s.mem ∧
      Issued s.cur (setCore u (coreOf s.cur) d) w 1 [] ∧
      TileChanged (getCore u (coreOf s.cur)) d t (fun i j => elem V (32 * i + j) 40) ∧ d.atsat t = 0 ∧
      d.cellMode t = c.toNat ∧ d.accown (1 - t) = (getCore u (coreOf s.cur)).accown (1 - t) ∧
      d.atsat (1 - t) = (getCore u (coreOf s.cur)).atsat (1 - t) ∧ ∀ i, i < 80 → ∃ acc ∈ as, acc.idx = i ∧
        acc.va = x + BitVec.ofNat 64 (64 * i) ∧ elem V i 512 = viewPieces u s.cur acc.va acc.pieces % 2 ^ 512 := by
  have hx : exec (.atload a b c) s = .next (finishSlot s.cur (cur s).prefixLive (tileLoad a b c s s.cur)) := runSlot_runs _ _ _ _ hs
  obtain ⟨w, hw, hmem, hiss⟩ := unitLoad_all s.cur (loadTile s.cur t c.toNat) as u hrf
  have hzero : ∃ a ∈ as, a.idx = 0 := by
    obtain ⟨acc, hm, hi, -⟩ := piece_passed h0 ha 0 (by decide)
    exact ⟨acc, hm, hi⟩
  rw [loadTile_all _ _ _ _ _ hzero] at hiss hmem
  rw [hx, tileLoad_all ht hr hb hc hl ha, hw]
  have hcell : ∀ i j, i < 32 → j < 32 → cellAt (imageTile (loadedImage u s.cur t as)) (32 * i + j)
      = elem (loadedImage u s.cur t as) (32 * i + j) 40 := fun i j hi hj => cellAt_imageTile _ (by omega)
  obtain ⟨hch, ⟨ho, hat⟩, hz, hown⟩ := tileChanged_set (c := getCore u (coreOf s.cur)) (tileOf_cases ht) _
    (withBits (((getCore u (coreOf s.cur)).setTile t (imageTile (loadedImage u s.cur t as))).accown t) 30 30 c.toNat) 0 s.cur [t] hcell
  refine ⟨w, _, loadedImage u s.cur t as, rfl, hmem.trans (checkAccs_translated ha).mem, hiss, hch, hz, ?_, ho, hat, fun i hi => ?_⟩
  · exact (congrArg (fun v => bits v 30 30) hown).trans (cellMode_setMode hc _)
  · obtain ⟨acc, hm, he, hva, hu⟩ := piece_passed h0 ha i hi
    exact ⟨acc, hm, he, hva, by rw [elem_loadedImage hm he hu, loadAcc_of_unrefused hrf acc hm]⟩

/-- The body of `atsave` once every piece has passed (R192). -/
theorem tileSave_all {a b : BitVec 7} {s u : State} {x : DWord} {t : Nat} {as : List Acc} (ht : tileOf a = some t)
    (hr : TileReady s t) (hb : readS (cur s) b = some x) (hl : (cur s).scnt < 63)
    (ha : checkAccs s s.cur .store 64 .scalar [] (pieces64 (cur s) x.toNat 80) = .all as u) :
    tileSave a b s s.cur = unitStore s.cur (fun y => elem (tileImage ((curCore s).tile t)) y.idx 512) s (.all as u) := by
  obtain ⟨ho, hbz, hw⟩ := hr
  have hb' : readS (getHart s s.cur) b = some x := hb
  have ha' : checkAccs s s.cur .store 64 .scalar [] (pieces64 (getHart s s.cur) x.toNat 80) = .all as u := ha
  have hfull : counterFull (getHart s s.cur) 2 = false := by simpa [counterFull, cur] using hl
  simp only [tileSave, ht, hb', hfull, ha']
  rw [withClaims_owned _ _ _ _ _ (fun k hk => by rw [List.mem_singleton.mp hk]; exact ho) rfl, whenFree_ready _ _ _ _ hbz hw]
  rfl

/-- `atsave` once every piece has passed and been written (R189, R192). -/
theorem atsave_all {a b : BitVec 7} {s u w : State} {x : DWord} {t : Nat} {as : List Acc} (ht : tileOf a = some t)
    (hr : TileReady s t) (hs : SlotRuns s 0x47 3) (hb : readS (cur s) b = some x) (hl : (cur s).scnt < 63)
    (ha : checkAccs s s.cur .store 64 .scalar [] (pieces64 (cur s) x.toNat 80) = .all as u) (hrf : refusals u s.cur .store as = [])
    (hw : storeAccs (fun g k => storeAcc g s.cur 4 false k (elem (tileImage ((curCore s).tile t)) k.idx 512)) u as = .all w) :
    ∃ z, exec (.atsave a b) s = .next (completed s z) ∧ u.mem = s.mem ∧
      StoreDone s.cur 4 false u z as (fun k => elem (tileImage ((curCore s).tile t)) k.idx 512) ∧
      getCore z (coreOf s.cur) = getCore u (coreOf s.cur) := by
  have hx : exec (.atsave a b) s = .next (finishSlot s.cur (cur s).prefixLive (tileSave a b s s.cur)) := runSlot_runs _ _ _ _ hs
  obtain ⟨z, hz, hdone, hcore⟩ := unitStore_all s.cur (fun k => elem (tileImage ((curCore s).tile t)) k.idx 512) s u w as hrf hw
  rw [hx, tileSave_all ht hr hb hl ha, hz]
  exact ⟨z, rfl, (checkAccs_translated ha).mem, hdone, hcore _⟩

/-! ## Cells and vector elements (R193) -/

theorem firstCell_some {h : Hart} {c : BitVec 7} {y : DWord} (hy : readS h c = some y) (hr : 32 * y.toNat + h.len ≤ 1024) :
    firstCell h c = some (32 * y.toNat) := by
  simp [firstCell, hy, hr, guard]

/-- The saturation bits that a result leaves are those of its active elements (R50). -/
theorem satBits_allSats (h : Hart) (n : Nat) (f : Nat → Res) : SatBits h n f (BitVec.ofNat 1024 (allSats (results h n f))) := by
  intro i hi
  rw [BitVec.getLsbD_ofNat, decide_eq_true hi, Bool.true_and]
  have he : ((allSats (results h n f)).testBit i).toNat = elem (allSats (results h n f)) i 1 := by
    rw [Nat.toNat_testBit, elem, Nat.mul_one, Nat.shiftRight_eq_div_pow, Nat.pow_one]
  have hv : elem (allSats (results h n f)) i 1 = (decide (i < n) && h.active i && (f i).sat).toNat := by
    rw [allSats, elem_buildElems]
    simp only [results, List.getD_eq_getElem?_getD, List.getElem?_map, List.getElem?_take, List.map_map, List.map_take, if_pos hi]
    by_cases hn : i < n
    · rw [List.getElem?_range hn]
      cases ha : h.active i <;> cases hs : (f i).sat <;> simp [ha, hs, hn, b2n]
    · rw [List.getElem?_eq_none (by simpa using hn)]
      simp [hn]
  rw [hv] at he
  exact (show ∀ p q : Bool, p.toNat = q.toNat → p = q by decide) _ _ he

/-- `atget` on a tile of the hart's own in the right mode (R193). -/
theorem atget_done {s : State} {w m fn : Nat} {f g' : Nat → Res} {g a c : BitVec 7} {t old r : Nat} {y : DWord} {i : Instr}
    (hx : SlotRuns s 0x48 fn → exec i s = .next (finishSlot s.cur (cur s).prefixLive (tileGet w m f g a c s s.cur)))
    (hfg : f = g') (ht : tileOf a = some t) (hr : TileReady s t) (hy : readS (cur s) c = some y) (he : r = 32 * y.toNat)
    (hle : r + (cur s).len ≤ 1024) (hs : SlotRuns s 0x48 fn) (hw : (cur s).sew = w) (hm : (curCore s).cellMode t = m)
    (hf : (cur s).maskFits = true) (hg : g.toNat < 112 ∨ g.toNat = 127) (ho : readV (curLocal s) g (cur s).grp = some old) :
    ∃ z, exec i s = .next (completed s (modCore (withLocal s z) (coreOf s.cur) (fly s.cur [t] false))) ∧
      ConvResult s g w (fun k => g' (cellAt ((curCore s).tile t) (r + k))) (.next (completed s (withLocal s z))) := by
  subst hfg he hw
  obtain ⟨howns, hbz, hwt⟩ := hr
  set F : Nat → Res := fun k => f (cellAt ((curCore s).tile t) (32 * y.toNat + k)) with hF
  obtain ⟨v, l, z, -, hz, -, -, -⟩ := vApply_spec (curLocal s) g (cur s).sew _ _ old F (destShape_sew (cur s)) hf ho hg
  have hbody : tileGet (cur s).sew m f g a c s s.cur = .done (modCore (withLocal s z) (coreOf s.cur) (fly s.cur [t] false)) := by
    have hp : firstCell (getLocal s s.cur).h c = some (32 * y.toNat) := firstCell_some hy hle
    have hv : vApply (getLocal s s.cur) g (cur s).sew (fun k => f (cellAt ((getCore s (coreOf s.cur)).tile t) (32 * y.toNat + k))) = some z := hz
    have hm' : (getCore s (coreOf s.cur)).cellMode t = m := hm
    have hsew : (getLocal s s.cur).h.sew = (cur s).sew := rfl
    simp only [tileGet, ht, hp, hsew, guard, if_true, Option.bind_eq_bind, Option.bind_some, Option.pure_def, hv, hm', ne_eq,
      not_true_eq_false, if_false]
    rw [withClaims_owned _ _ _ _ _ (fun k hk => by rw [List.mem_singleton.mp hk]; exact howns) rfl, whenFree_ready _ _ _ _ hbz hwt]
    rfl
  refine ⟨z, by rw [hx hs, hbody]; rfl, _, _, _, destShape_sew (cur s), satBits_allSats _ _ _, ?_⟩
  have hv := vectorResult_of_vApply s 0x48 fn (fun x => vApply x g (cur s).sew F) g (cur s).sew _ _ old F hs rfl
    (destShape_sew (cur s)) hf ho hg
  rw [runSlot_runs _ _ _ _ hs, localBody, show getLocal s s.cur = curLocal s from rfl, hz] at hv
  exact hv

/-- `cellI32` is the conversion that the statement writes out (R193). -/
theorem cellI32_eq (k : Nat) : cellI32 k = (let z := max (-2 ^ 31) (min (2 ^ 31 - 1) (toSigned 40 k))
    ⟨wrapInt 32 z, if z = toSigned 40 k then 0 else flSA, decide (z ≠ toSigned 40 k)⟩) := by
  have h1 := clampS_fst 32 (toSigned 40 k)
  have h2 := clampS_snd 32 (toSigned 40 k)
  simp only [cellI32]
  generalize toSigned 40 k = z at *
  norm_num at h1 h2
  rw [h1]
  norm_num
  by_cases hs : (clampS 32 z).2 = true
  · have hout := h2.mp hs
    have hne : max (-2147483648) (min 2147483647 z) ≠ z := by omega
    simp [hs, hne]
  · have hin := mt h2.mpr hs
    have he : max (-2147483648) (min 2147483647 z) = z := by omega
    simp [hs, he]

theorem mem_activeElems (h : Hart) (i : Nat) : i ∈ activeElems h ↔ h.active i = true := by
  simp [activeElems, Hart.active, Hart.selected, and_assoc]

/-- The cells that the writing forms change, with their values (R193). -/
def putList (h : Hart) (f : Nat → Nat × Nat) (v r : Nat) : List (Nat × (Nat × Nat)) :=
  (activeElems h).map (fun i => (r + i, f (elem v i 32)))

/-- Cell p after the writing forms: the active element that stands there, or what it was (R193). -/
theorem cellAt_putList (T : SMap (BitVec 40)) (h : Hart) (f : Nat → Nat × Nat) (v r p : Nat) :
    cellAt (putCells T ((putList h f v r).map (fun q => (q.1, q.2.1)))) p
      = if r ≤ p ∧ h.active (p - r) = true then (f (elem v (p - r) 32)).1 % 2 ^ 40 else cellAt T p := by
  have hmem : ∀ w, (p, w) ∈ (putList h f v r).map (fun q => (q.1, q.2.1)) ↔
      (r ≤ p ∧ h.active (p - r) = true) ∧ w = (f (elem v (p - r) 32)).1 := by
    intro w
    simp only [putList, List.map_map, List.mem_map, mem_activeElems, Function.comp_apply, Prod.mk.injEq]
    constructor
    · rintro ⟨i, hi, rfl, rfl⟩
      rw [Nat.add_sub_cancel_left]
      exact ⟨⟨Nat.le_add_right _ _, hi⟩, rfl⟩
    · rintro ⟨⟨hle, ha⟩, rfl⟩
      exact ⟨p - r, ha, by omega, rfl⟩
  split
  · next h => exact cellAt_putCells _ _ _ _ ((hmem _).mpr ⟨h, rfl⟩) (fun w hw => ((hmem w).mp hw).2)
  · next h => exact cellAt_putCells_other _ _ _ (fun q hq e => h ((hmem q.2).mp (e ▸ hq)).1)

theorem testBit_flagsOf (rs : List (Nat × Nat)) (k : Nat) : (flagsOf rs).testBit k = true ↔ ∃ q ∈ rs, q.2.testBit k = true := by
  rw [flagsOf, testBit_foldl_or]
  simp

/-- A writing form on a tile of the hart's own in the right mode (R193). -/
theorem tilePut_ready {s : State} {m : Nat} {f : Nat → Nat × Nat} {a b c : BitVec 7} {t v : Nat} {y : DWord}
    (ht : tileOf a = some t) (hr : TileReady s t) (hy : readS (cur s) c = some y) (hle : 32 * y.toNat + (cur s).len ≤ 1024)
    (hw : (cur s).sew = 32) (hm : (curCore s).cellMode t = m) (hv : readV (curLocal s) b (cur s).grp = some v) :
    tilePut m f a b c s s.cur = .done (withCur (setCore s (coreOf s.cur) (fly s.cur [t] false ((curCore s).setTile t
      (putCells ((curCore s).tile t) ((putList (cur s) f v (32 * y.toNat)).map (fun q => (q.1, q.2.1)))))))
      (raise (cur s) (flagsOf ((putList (cur s) f v (32 * y.toNat)).map (fun q => q.2))))) := by
  obtain ⟨howns, hbz, hwt⟩ := hr
  have hp : firstCell (getLocal s s.cur).h c = some (32 * y.toNat) := firstCell_some hy hle
  have hv' : readV (getLocal s s.cur) b (getLocal s s.cur).h.grp = some v := hv
  have hm' : (getCore s (coreOf s.cur)).cellMode t = m := hm
  have hsew : (getLocal s s.cur).h.sew = 32 := hw
  simp only [tilePut, ht, hp, hsew, guard, if_true, Option.bind_eq_bind, Option.bind_some, Option.pure_def, hv', hm', ne_eq,
    not_true_eq_false, if_false]
  rw [withClaims_owned _ _ _ _ _ (fun k hk => by rw [List.mem_singleton.mp hk]; exact howns) rfl, whenFree_ready _ _ _ _ hbz hwt]
  rfl

/-- A writing form completes: the cells of the active elements change, and their flags are raised (R193). -/
theorem atput_done {s : State} {m fn : Nat} {f : Nat → Nat × Nat} {a b c : BitVec 7} {t v r : Nat} {y : DWord} {i : Instr}
    (hx : SlotRuns s 0x48 fn → exec i s = .next (finishSlot s.cur (cur s).prefixLive (tilePut m f a b c s s.cur)))
    (ht : tileOf a = some t) (hr : TileReady s t) (hy : readS (cur s) c = some y) (he : r = 32 * y.toNat)
    (hle : r + (cur s).len ≤ 1024) (hs : SlotRuns s 0x48 fn) (hw : (cur s).sew = 32) (hm : (curCore s).cellMode t = m)
    (hv : readV (curLocal s) b (cur s).grp = some v) :
    ∃ d fl, exec i s = .next (completed s (withCur (setCore s (coreOf s.cur) d) (raise (cur s) fl))) ∧
      (d.accown (1 - t) = (curCore s).accown (1 - t) ∧ d.atsat (1 - t) = (curCore s).atsat (1 - t)) ∧
      d.atsat t = (curCore s).atsat t ∧ d.accown t = (curCore s).accown t ∧
      TileChanged (curCore s) d t (fun i j => if r ≤ 32 * i + j ∧ (cur s).active (32 * i + j - r) = true then
        (f (elem v (32 * i + j - r) 32)).1 % 2 ^ 40 else cellAt ((curCore s).tile t) (32 * i + j)) ∧
      ∀ k, fl.testBit k = true ↔ ∃ i, (cur s).active i = true ∧ (f (elem v i 32)).2.testBit k = true := by
  subst he
  obtain ⟨hch, hoth, hat, how⟩ := tileChanged_setTile (c := curCore s) (tileOf_cases ht) _ s.cur [t]
    (fun i j _ _ => cellAt_putList ((curCore s).tile t) (cur s) f v (32 * y.toNat) (32 * i + j))
  refine ⟨_, _, by rw [hx hs, tilePut_ready ht hr hy hle hw hm hv]; rfl, hoth, hat, how, hch, fun k => ?_⟩
  simp only [testBit_flagsOf, putList, List.map_map, List.mem_map, mem_activeElems]
  constructor
  · rintro ⟨q, ⟨i, hi, rfl⟩, hb⟩
    exact ⟨i, hi, hb⟩
  · rintro ⟨i, hi, hb⟩
    exact ⟨_, ⟨i, hi, rfl⟩, hb⟩

/-- A tile instruction completes with the core changed to d and flags raised. -/
def TileDone (s : State) (i : Instr) (d : Core) (fl : Nat) : Prop :=
  exec i s = .next (completed s (withCur (setCore s (coreOf s.cur) d) (raise (cur s) fl)))

theorem tileDone_of {s : State} {i : Instr} {body : SlotRes} {d : Core} {fl : Nat}
    (hx : exec i s = .next (finishSlot s.cur (cur s).prefixLive body))
    (hb : body = .done (withCur (setCore s (coreOf s.cur) d) (raise (cur s) fl))) : TileDone s i d fl := by
  subst hb
  exact hx

/-- The other tile's owner and saturation bits are kept. -/
def OtherKept (c d : Core) (t : Nat) : Prop := d.accown (1 - t) = c.accown (1 - t) ∧ d.atsat (1 - t) = c.atsat (1 - t)

/-- A tile whose cells, mode and saturation bits an instruction sets (R192). -/
theorem tileDone_set {s : State} {i : Instr} {t m : Nat} (ht : t = 0 ∨ t = 1) (hm : m < 2) (T : SMap (BitVec 40)) (a : DWord)
    (ts : List Nat) {v : Nat → Nat → Nat} (hv : ∀ i j, i < 32 → j < 32 → cellAt T (32 * i + j) = v i j)
    (hd : TileDone s i (fly s.cur ts false ((((curCore s).setTile t T).setMode t m).putAtsat t a)) 0) :
    ∃ d, TileDone s i d 0 ∧ TileChanged (curCore s) d t v ∧ OtherKept (curCore s) d t ∧ d.atsat t = a ∧ d.cellMode t = m ∧
      ∀ k, k ≠ 30 → (d.accown t).getLsbD k = ((curCore s).accown t).getLsbD k := by
  have ho : ((curCore s).setTile t T).accown t = (curCore s).accown t := by rcases ht with rfl | rfl <;> rfl
  obtain ⟨hch, hoth, hat, how⟩ := tileChanged_set (c := curCore s) ht T (withBits (((curCore s).setTile t T).accown t) 30 30 m) a
    s.cur ts hv
  refine ⟨_, hd, hch, hoth, hat, ?_, fun k hk => ?_⟩
  · rw [Core.cellMode, Core.setMode, how]
    exact cellMode_setMode hm _
  · rw [Core.setMode, how, ho]
    exact getLsbD_setMode _ _ _ hk

theorem atzero_done {s : State} {a b : BitVec 7} {t : Nat} (ht : tileOf a = some t) (hr : TileReady s t) (hs : SlotRuns s 0x47 0)
    (hb : b.toNat < 2) : ∃ d, TileDone s (.atzero a b) d 0 ∧ TileChanged (curCore s) d t (fun _ _ => 0) ∧
      OtherKept (curCore s) d t ∧ d.atsat t = 0 ∧ d.cellMode t = b.toNat ∧
      ∀ k, k ≠ 30 → (d.accown t).getLsbD k = ((curCore s).accown t).getLsbD k :=
  tileDone_set (tileOf_cases ht) hb _ _ _ (fun _ _ _ _ => cellAt_nil _)
    (tileDone_of (runSlot_runs _ _ _ _ hs) (tileZero_ready ht hr hb))

theorem atmov_done {s : State} {a b : BitVec 7} {t n : Nat} (ht : tileOf a = some t) (hr : TileReady s t) (hs : SlotRuns s 0x47 1)
    (hn : tileOf b = some n) (kr : TileReady s n) : ∃ d, TileDone s (.atmov a b) d 0 ∧
      TileChanged (curCore s) d t (fun i j => cellAt ((curCore s).tile n) (32 * i + j)) ∧
      OtherKept (curCore s) d t ∧ d.atsat t = (curCore s).atsat n ∧ d.cellMode t = (curCore s).cellMode n ∧
      ∀ k, k ≠ 30 → (d.accown t).getLsbD k = ((curCore s).accown t).getLsbD k :=
  tileDone_set (tileOf_cases ht) (cellMode_lt _ _) _ _ _ (fun _ _ _ _ => rfl)
    (tileDone_of (runSlot_runs _ _ _ _ hs) (tileMove_ready ht hn hr kr))

theorem attr_done {s : State} {a : BitVec 7} {t : Nat} (ht : tileOf a = some t) (hr : TileReady s t) (hs : SlotRuns s 0x47 4) :
    ∃ d, TileDone s (.attr a) d 0 ∧ TileChanged (curCore s) d t (fun i j => cellAt ((curCore s).tile t) (32 * j + i)) ∧
      OtherKept (curCore s) d t ∧ d.atsat t = (curCore s).atsat t ∧ d.accown t = (curCore s).accown t := by
  obtain ⟨hch, hoth, hat, how⟩ := tileChanged_setTile (c := curCore s) (tileOf_cases ht) _ s.cur [t]
    (fun i j hi hj => cellAt_transposed ((curCore s).tile t) hi hj)
  exact ⟨_, tileDone_of (runSlot_runs _ _ _ _ hs) (tileTranspose_ready ht hr), hch, hoth, hat, how⟩

theorem atadd_float {s : State} {a b : BitVec 7} {t n : Nat} (ht : tileOf a = some t) (hr : TileReady s t) (hs : SlotRuns s 0x47 5)
    (hn : tileOf b = some n) (kr : TileReady s n) (hm : (curCore s).cellMode t = (curCore s).cellMode n)
    (h0 : (curCore s).cellMode t = 0) :
    ∃ d fl, TileDone s (.atadd a b) d fl ∧ OtherKept (curCore s) d t ∧ d.accown t = (curCore s).accown t ∧
      d.atsat t = (curCore s).atsat t ∧ TileChanged (curCore s) d t (fun i j => (floatSum (curCore s) t n i j).1 % 2 ^ 40) ∧
      ∀ k, fl.testBit k = true ↔ ∃ i j, i < 32 ∧ j < 32 ∧ (floatSum (curCore s) t n i j).2.testBit k = true := by
  obtain ⟨hch, hoth, hat, how⟩ := tileChanged_setTile (c := curCore s) (tileOf_cases ht) _ s.cur [t, n]
    (fun i j hi hj => (cellAt_updateRows ((curCore s).tile t) (List.range 32) (floatSum (curCore s) t n) i j hj).trans
      (if_pos (List.mem_range.mpr hi)))
  refine ⟨_, _, tileDone_of (runSlot_runs _ _ _ _ hs) (tileAdd_float ht hn hr kr hm h0), hoth, how, hat, hch, fun k => ?_⟩
  simp only [testBit_updateRows, List.mem_range]

theorem atadd_int {s : State} {a b : BitVec 7} {t n : Nat} (ht : tileOf a = some t) (hr : TileReady s t) (hs : SlotRuns s 0x47 5)
    (hn : tileOf b = some n) (kr : TileReady s n) (hm : (curCore s).cellMode t = (curCore s).cellMode n)
    (h1 : (curCore s).cellMode t = 1) :
    ∃ d, TileDone s (.atadd a b) d 0 ∧ OtherKept (curCore s) d t ∧ d.accown t = (curCore s).accown t ∧
      TileChanged (curCore s) d t (fun i j => wrapInt 40 (max (-2 ^ 39) (min (2 ^ 39 - 1) (intSum (curCore s) t n i j)))) ∧
      ∀ i, i < 64 → ((d.atsat t).getLsbD i = true ↔ ((curCore s).atsat t).getLsbD i = true ∨
        (i < 32 ∧ ∃ j, j < 32 ∧ (intSum (curCore s) t n i j < -2 ^ 39 ∨ 2 ^ 39 ≤ intSum (curCore s) t n i j))) := by
  have hbody := tileAdd_int ht hn hr kr hm h1
  dsimp only at hbody
  have hcell : ∀ i j, i < 32 → j < 32 → cellAt (updateRows ((curCore s).tile t) (List.range 32)
      (fun i j => (wrapInt 40 (clampS 40 (intSum (curCore s) t n i j)).1, 0))).1 (32 * i + j)
      = wrapInt 40 (max (-2 ^ 39) (min (2 ^ 39 - 1) (intSum (curCore s) t n i j))) := by
    intro i j hi hj
    rw [cellAt_updateRows _ _ _ _ _ hj, if_pos (List.mem_range.mpr hi), wrapInt_mod, clampS_fst]
    norm_num
  generalize (updateRows ((curCore s).tile t) (List.range 32)
    (fun i j => (wrapInt 40 (clampS 40 (intSum (curCore s) t n i j)).1, 0))).1 = T at hcell hbody
  have hrows := testBit_satRows (curCore s) t n
  generalize satRows (curCore s) t n = R at hrows hbody
  refine ⟨_, tileDone_of (runSlot_runs _ _ _ _ hs) hbody, ?_, ?_, ?_, fun i hi => ?_⟩
  · rcases tileOf_cases ht with rfl | rfl <;> exact ⟨rfl, rfl⟩
  · rcases tileOf_cases ht with rfl | rfl <;> rfl
  · rcases tileOf_cases ht with rfl | rfl <;> exact ⟨hcell, rfl, rfl⟩
  · have ha : ((curCore s).setTile t T).atsat t = (curCore s).atsat t := by rcases tileOf_cases ht with rfl | rfl <;> rfl
    have hsat := getLsbD_setAtsat (c := (curCore s).setTile t T) (tileOf_cases ht) R i hi
    rw [ha, hrows] at hsat
    refine Iff.trans hsat (or_congr_right ?_)
    exact ⟨fun ⟨h, _, h2⟩ => ⟨h, h2⟩, fun ⟨h, h2⟩ => ⟨h, h, h2⟩⟩

/-- Settles O40: each tile instruction is a change of cells on a ready tile; the moves to and from memory are a unit's load and
store of the tile's image. -/
theorem tileInstructions : Obligations.TileInstructions := by
  intro s u a b c t r n x y v old as ht hr
  refine ⟨fun hs hb => atzero_done ht hr hs hb, fun hs hn kr => atmov_done ht hr hs hn kr, fun hs => attr_done ht hr hs,
    fun hs hn kr hm => ?_, fun hb h0 => ⟨fun hs hc hl ha hrf => atload_all ht hr hs hb h0 hc hl ha hrf,
    fun hs hl ha hrf => ?_⟩, fun hy he hle => ⟨fun g w m fn f i hi hs hw hm hf hg ho => ?_, fun fn m f i hi hs hw hm hv => ?_⟩⟩
  · rcases (show (curCore s).cellMode t = 0 ∨ (curCore s).cellMode t = 1 by have := cellMode_lt (curCore s) t; omega) with h0 | h1
    · obtain ⟨d, fl, hd, hoth, how, hat, hch, hfl⟩ := atadd_float ht hr hs hn kr hm h0
      exact ⟨d, fl, hd, hoth, how, fun _ => ⟨hat, hch, hfl⟩, fun h => absurd (h0.symm.trans h) (by decide)⟩
    · obtain ⟨d, hd, hoth, how, hch, hsat⟩ := atadd_int ht hr hs hn kr hm h1
      exact ⟨d, 0, hd, hoth, how, fun h => absurd (h1.symm.trans h) (by decide), fun _ => ⟨rfl, hch, hsat⟩⟩
  · exact ⟨tileImage ((curCore s).tile t), fun i j hi hj => elem_tileImage _ (by omega),
      fun w hw => atsave_all ht hr hs hb hl ha hrf hw⟩
  · simp only [List.mem_cons, Prod.mk.injEq, List.not_mem_nil, or_false] at hi
    rcases hi with ⟨rfl, rfl, rfl, rfl, rfl⟩ | ⟨rfl, rfl, rfl, rfl, rfl⟩ | ⟨rfl, rfl, rfl, rfl, rfl⟩
    · exact atget_done (i := .atgetF32 g a c) (f := fun v => convElem f32 (decodeF fa40 v)) (fun h => runSlot_runs _ _ _ _ h) rfl ht hr hy he hle hs hw hm hf hg ho
    · exact atget_done (i := .atgetBf16 g a c) (f := fun v => convElem bf16 (decodeF fa40 v)) (fun h => runSlot_runs _ _ _ _ h) rfl ht hr hy he hle hs hw hm hf hg ho
    · exact atget_done (i := .atgetI32 g a c) (f := cellI32) (fun h => runSlot_runs _ _ _ _ h) (funext cellI32_eq) ht hr hy he hle hs hw hm hf hg ho
  · simp only [List.mem_cons, Prod.mk.injEq, List.not_mem_nil, or_false] at hi
    rcases hi with ⟨rfl, rfl, rfl, rfl⟩ | ⟨rfl, rfl, rfl, rfl⟩
    · exact atput_done (i := .atputF32 a b c) (f := fun v => rneArith fa40 (decodeF f32 v).res) (fun h => runSlot_runs _ _ _ _ h) ht hr hy he hle hs hw hm hv
    · exact atput_done (i := .atputI32 a b c) (f := fun v => (wrapInt 40 (toSigned 32 v), 0)) (fun h => runSlot_runs _ _ _ _ h) ht hr hy he hle hs hw hm hv

end Sys2Proof.Machine
end

section
/-! SUPPORT. Selection: the order of candidates and the list of the best (R202, R214 to R216). -/
namespace Sys2Proof.Machine

open Sys2Proof

/-! ## The order of values (R202, R214) -/

/-- A value that is no NaN, as an extended real number. -/
noncomputable def FVal.ext : FVal → EReal
  | .inf n => if n then ⊥ else ⊤
  | .fin n m e => (((if n then -1 else 1) * (m : ℝ) * (2 : ℝ) ^ e : ℝ) : EReal)
  | .nan _ => 0

/-- A number of a sign, in units of 2^d that is no larger than its own unit. -/
theorem scaled_eq (n : Bool) (m : Nat) (e d : Int) (h : d ≤ e) : ((if n then -1 else 1 : ℝ) * (m : ℝ) * (2 : ℝ) ^ e)
    = (((if n then -1 else 1 : Int) * ((m * 2 ^ (e - d).toNat : Nat) : Int) : Int) : ℝ) * (2 : ℝ) ^ d := by
  have he : (2 : ℝ) ^ e = (2 : ℝ) ^ (e - d).toNat * (2 : ℝ) ^ d := by
    rw [← zpow_natCast, Int.toNat_of_nonneg (by omega), ← zpow_add₀ (by norm_num)]
    congr 1
    omega
  rw [he]
  push_cast
  cases n <;> simp <;> ring

/-- Two values that are no NaN, and not both zero, compare as extended real numbers (R114). -/
theorem cmpF_ext {x y : FVal} (hx : x.isNan = false) (hy : y.isNan = false) (h0 : (x.isZero && y.isZero) = false) :
    (cmpF x y = .lt ↔ x.ext < y.ext) ∧ (cmpF x y = .gt ↔ y.ext < x.ext) := by
  cases x with
  | nan => exact absurd hx (by simp [FVal.isNan])
  | inf a => cases y with
    | nan => exact absurd hy (by simp [FVal.isNan])
    | inf b => cases a <;> cases b <;> simp [cmpF, FVal.ext, b2n, compare_lt_iff_lt, compare_gt_iff_gt]
    | fin b n k => cases a <;> simp [cmpF, FVal.ext]
  | fin a m e => cases y with
    | nan => exact absurd hy (by simp [FVal.isNan])
    | inf b => cases b <;> simp [cmpF, FVal.ext]
    | fin b n k =>
      have hz : ¬ (m = 0 ∧ n = 0) := by
        rintro ⟨rfl, rfl⟩
        exact absurd h0 (by simp [FVal.isZero])
      have hd : (0 : ℝ) < (2 : ℝ) ^ (if e ≤ k then e else k) := by positivity
      simp only [cmpF, FVal.ext, EReal.coe_lt_coe_iff, if_neg hz]
      rw [scaled_eq a m e (if e ≤ k then e else k) (by split <;> omega), scaled_eq b n k (if e ≤ k then e else k) (by split <;> omega),
        mul_lt_mul_iff_left₀ hd, mul_lt_mul_iff_left₀ hd, Int.cast_lt, Int.cast_lt]
      generalize (if a = true then (-1 : Int) else 1) * _ = u
      generalize (if b = true then (-1 : Int) else 1) * _ = v
      by_cases h1 : u < v
      · rw [if_pos h1]
        simp [h1, h1.le]
      · by_cases h2 : v < u <;> simp [h1, h2]

/-- The place of a value in the order of XCFG.KORD (R202, R214). -/
noncomputable def candKey (kord w a : Nat) : EReal :=
  if kord = 0 then ((a : ℝ) : EReal) else if kord = 1 then (((toSigned w a : Int) : ℝ) : EReal) else (decodeF (kordFmt kord w) a).ext

/-- Zeros of both signs are one number. -/
theorem ext_zero {x : FVal} (h : x.isZero = true) : x.ext = 0 := by
  unfold FVal.isZero at h
  split at h
  · simp [FVal.ext]
  · exact absurd h (by simp)

/-- Values that selection does not skip compare by their places in the order (R214). -/
theorem kordCmp_key {kord w a b : Nat} (ha : kordNan kord w a = false) (hb : kordNan kord w b = false) :
    (kordCmp kord w a b = .lt ↔ candKey kord w a < candKey kord w b) ∧ (kordCmp kord w a b = .gt ↔ candKey kord w b < candKey kord w a) := by
  match kord with
  | 0 => simp [kordCmp, candKey, compare_lt_iff_lt, compare_gt_iff_gt]
  | 1 => simp [kordCmp, candKey, compare_lt_iff_lt, compare_gt_iff_gt]
  | k + 2 =>
    have ha' : (decodeF (kordFmt (k + 2) w) a).isNan = false := by simpa [kordNan] using ha
    have hb' : (decodeF (kordFmt (k + 2) w) b).isNan = false := by simpa [kordNan] using hb
    rw [candKey, candKey, if_neg (by omega), if_neg (by omega), if_neg (by omega), if_neg (by omega)]
    simp only [kordCmp]
    split
    · next hz =>
      obtain ⟨h1, h2⟩ := (Bool.and_eq_true _ _).mp hz
      simp [ext_zero h1, ext_zero h2]
    · next hz => exact cmpF_ext ha' hb' (by simpa using hz)

/-- One candidate is better than another where its value stands before in the order, or beside it with the lower index (R214). -/
theorem better_iff {kord w : Nat} {big : Bool} {e f : Cand} (he : kordNan kord w e.1 = false) (hf : kordNan kord w f.1 = false) :
    better kord w big e f = true ↔
      (if big = true then candKey kord w f.1 < candKey kord w e.1 else candKey kord w e.1 < candKey kord w f.1)
      ∨ (candKey kord w e.1 = candKey kord w f.1 ∧ e.2 < f.2) := by
  obtain ⟨hlt, hgt⟩ := kordCmp_key (a := e.1) (b := f.1) he hf
  unfold better
  cases hc : kordCmp kord w e.1 f.1 with
  | lt =>
    have h := hlt.mp hc
    cases big <;> simp [h, h.ne, h.not_gt]
  | gt =>
    have h := hgt.mp hc
    cases big <;> simp [h, h.ne', h.not_gt]
  | eq =>
    have h1 : ¬ candKey kord w e.1 < candKey kord w f.1 := fun h => absurd (hlt.mpr h) (by simp [hc])
    have h2 : ¬ candKey kord w f.1 < candKey kord w e.1 := fun h => absurd (hgt.mpr h) (by simp [hc])
    have h3 := le_antisymm (not_lt.mp h2) (not_lt.mp h1)
    cases big <;> simp [h3]

/-- The value of a candidate stands before another's in the order, in the terms of the statement (R214). -/
theorem key_lt_iff {kord w a b : Nat} (h2 : 2 ≤ kord) (ha : kordNan kord w a = false) (hb : kordNan kord w b = false) :
    candKey kord w a < candKey kord w b ↔
      (∃ u v : ℝ, (decodeF (kordFmt kord w) a).Is u ∧ (decodeF (kordFmt kord w) b).Is v ∧ u < v) ∨
      (decodeF (kordFmt kord w) a = .inf true ∧ decodeF (kordFmt kord w) b ≠ .inf true) ∨
      (decodeF (kordFmt kord w) b = .inf false ∧ decodeF (kordFmt kord w) a ≠ .inf false) := by
  have ha' : (decodeF (kordFmt kord w) a).isNan = false := by simpa [kordNan, h2] using ha
  have hb' : (decodeF (kordFmt kord w) b).isNan = false := by simpa [kordNan, h2] using hb
  rw [candKey, candKey, if_neg (by omega), if_neg (by omega), if_neg (by omega), if_neg (by omega)]
  generalize decodeF (kordFmt kord w) a = x at *
  generalize decodeF (kordFmt kord w) b = y at *
  cases x with
  | nan => exact absurd ha' (by simp [FVal.isNan])
  | inf n => cases y with
    | nan => exact absurd hb' (by simp [FVal.isNan])
    | inf n' => cases n <;> cases n' <;> simp [FVal.ext, FVal.Is]
    | fin n' m e => cases n <;> simp [FVal.ext, FVal.Is]
  | fin n m e => cases y with
    | nan => exact absurd hb' (by simp [FVal.isNan])
    | inf n' => cases n' <;> simp [FVal.ext, FVal.Is]
    | fin n' m' e' => simp [FVal.ext, FVal.Is]

/-! ## The list of the best (R214 to R216) -/

/-- A candidate that selection does not skip. -/
def Counts (kord w : Nat) (e : Cand) : Prop := kordNan kord w e.1 = false

/-- No entry stands behind a worse one. -/
def BestFirst (kord w : Nat) (big : Bool) (l : List Cand) : Prop := l.Pairwise (fun e f => better kord w big f e = false)

section
variable {kord w : Nat} {big : Bool}

theorem better_irrefl (e : Cand) (he : Counts kord w e) : better kord w big e e = false := by
  rw [Bool.eq_false_iff, Ne, better_iff he he]
  cases big <;> simp

theorem better_asymm {e f : Cand} (he : Counts kord w e) (hf : Counts kord w f) (h : better kord w big e f = true) :
    better kord w big f e = false := by
  rw [Bool.eq_false_iff, Ne, better_iff hf he]
  rw [better_iff he hf] at h
  cases big
  · rintro (h1 | ⟨h1, h2⟩) <;> rcases h with h | ⟨h, h3⟩ <;> simp_all
    · exact absurd h1 h.not_gt
    · omega
  · rintro (h1 | ⟨h1, h2⟩) <;> rcases h with h | ⟨h, h3⟩ <;> simp_all
    · exact absurd h1 h.not_gt
    · omega

/-- What is better than a candidate is better than all that are no better than it. -/
theorem better_trans {e f g : Cand} (he : Counts kord w e) (hf : Counts kord w f) (hg : Counts kord w g)
    (h : better kord w big e f = true) (k : better kord w big g f = false) : better kord w big e g = true := by
  rw [better_iff he hf] at h
  rw [Bool.eq_false_iff, Ne, better_iff hg hf] at k
  rw [better_iff he hg]
  cases big
  · simp only [Bool.false_eq_true, if_false, not_or, not_lt, not_and] at *
    obtain ⟨k1, k2⟩ := k
    rcases h with h | ⟨h, hi⟩
    · exact .inl (lt_of_lt_of_le h k1)
    · rcases lt_or_eq_of_le k1 with hlt | heq
      · exact .inl (h.trans_lt hlt)
      · exact .inr ⟨h.trans heq, lt_of_lt_of_le hi (k2 heq.symm)⟩
  · simp only [if_true, not_or, not_lt, not_and] at *
    obtain ⟨k1, k2⟩ := k
    rcases h with h | ⟨h, hi⟩
    · exact .inl (lt_of_le_of_lt k1 h)
    · rcases lt_or_eq_of_le k1 with hlt | heq
      · exact .inl (hlt.trans_eq h.symm)
      · exact .inr ⟨h.trans heq.symm, lt_of_lt_of_le hi (k2 heq)⟩

theorem mem_insertCand (c : Cand) (l : List Cand) (e : Cand) : e ∈ insertCand kord w big c l ↔ e = c ∨ e ∈ l := by
  induction l with
  | nil => simp [insertCand]
  | cons d ds ih =>
    rw [insertCand]
    split
    · next h => simp [h]
    · split
      · simp
      · simp only [List.mem_cons, ih]
        tauto

/-- A candidate enters its place (R214). -/
theorem bestFirst_insertCand (c : Cand) (l : List Cand) (hc : Counts kord w c) (hl : ∀ e ∈ l, Counts kord w e)
    (hs : BestFirst kord w big l) (hn : l.Nodup) :
    BestFirst kord w big (insertCand kord w big c l) ∧ (insertCand kord w big c l).Nodup := by
  induction l with
  | nil => simp [insertCand, BestFirst]
  | cons d ds ih =>
    obtain ⟨hd, hds⟩ := List.pairwise_cons.mp hs
    obtain ⟨nd, nds⟩ := List.nodup_cons.mp hn
    have cd := hl d List.mem_cons_self
    have cds : ∀ e ∈ ds, Counts kord w e := fun e he => hl e (List.mem_cons_of_mem d he)
    rw [insertCand]
    split
    · exact ⟨hs, hn⟩
    · next hne =>
      split
      · next hb =>
        have hfirst : ∀ e ∈ d :: ds, better kord w big c e = true := by
          intro e he
          rcases List.mem_cons.mp he with rfl | he
          · exact hb
          · exact better_trans hc cd (cds e he) hb (hd e he)
        refine ⟨List.pairwise_cons.mpr ⟨fun e he => better_asymm hc (hl e he) (hfirst e he), hs⟩, List.nodup_cons.mpr ⟨fun h => ?_, hn⟩⟩
        exact absurd (hfirst c h) (by rw [better_irrefl c hc]; decide)
      · next hb =>
        obtain ⟨i1, i2⟩ := ih cds hds nds
        refine ⟨List.pairwise_cons.mpr ⟨fun e he => ?_, i1⟩, List.nodup_cons.mpr ⟨fun h => ?_, i2⟩⟩
        · rcases (mem_insertCand c ds e).mp he with rfl | he
          · simpa using hb
          · exact hd e he
        · rcases (mem_insertCand c ds d).mp h with h | h
          · exact hne h.symm
          · exact nd h

/-- All candidates, entered one after another. -/
theorem foldl_insertCand (cs l : List Cand) (hcs : ∀ e ∈ cs, Counts kord w e) (hl : ∀ e ∈ l, Counts kord w e)
    (hs : BestFirst kord w big l) (hn : l.Nodup) :
    let r := cs.foldl (fun l c => insertCand kord w big c l) l
    BestFirst kord w big r ∧ r.Nodup ∧ ∀ e, e ∈ r ↔ e ∈ cs ∨ e ∈ l := by
  induction cs generalizing l with
  | nil => exact ⟨hs, hn, fun e => by simp⟩
  | cons c cs ih =>
    have cc := hcs c List.mem_cons_self
    obtain ⟨h1, h2⟩ := bestFirst_insertCand c l cc hl hs hn
    obtain ⟨i1, i2, i3⟩ := ih (insertCand kord w big c l) (fun e he => hcs e (List.mem_cons_of_mem c he))
      (fun e he => by
        rcases (mem_insertCand c l e).mp he with rfl | he
        · exact cc
        · exact hl e he) h1 h2
    refine ⟨i1, i2, fun e => ?_⟩
    rw [List.foldl_cons, i3, mem_insertCand, List.mem_cons]
    tauto

/-- Candidates of different kinds are never alike in an integer order (R202). -/
theorem better_total {e f : Cand} (hk : kord < 2) (he : e.1 < 2 ^ w) (hf : f.1 < 2 ^ w) (hne : e ≠ f)
    (h : better kord w big f e = false) : better kord w big e f = true := by
  have ce : kordNan kord w e.1 = false := by simp [kordNan]; omega
  have cf : kordNan kord w f.1 = false := by simp [kordNan]; omega
  rw [Bool.eq_false_iff, Ne, better_iff cf ce] at h
  rw [better_iff ce cf]
  have hinj : candKey kord w e.1 = candKey kord w f.1 → e.1 = f.1 := by
    intro hq
    unfold candKey at hq
    split at hq
    · exact_mod_cast hq
    · rw [if_pos (by omega), if_pos (by omega)] at hq
      have hq' : toSigned w e.1 = toSigned w f.1 := by exact_mod_cast hq
      unfold toSigned at hq'
      rw [Nat.mod_eq_of_lt he, Nat.mod_eq_of_lt hf] at hq'
      have h1 : ((2 ^ w : Nat) : Int) > 0 := by positivity
      by_cases hw : w = 0
      · subst hw
        simp at he hf
        omega
      · simp only [if_neg hw] at hq'
        split_ifs at hq' <;> omega
  have hidx : candKey kord w e.1 = candKey kord w f.1 → e.2 ≠ f.2 := fun hq hi => hne (Prod.ext (hinj hq) hi)
  cases big
  · simp only [Bool.false_eq_true, if_false, not_or, not_lt, not_and] at *
    rcases lt_or_eq_of_le h.1 with hl | hq
    · exact .inl hl
    · have := h.2 hq.symm
      have := hidx hq
      exact .inr ⟨hq, by omega⟩
  · simp only [if_true, not_or, not_lt, not_and] at *
    rcases lt_or_eq_of_le h.1 with hl | hq
    · exact .inl hl
    · have := h.2 hq
      have := hidx hq.symm
      exact .inr ⟨hq.symm, by omega⟩

end

/-- What a selection of the best candidates is: in order, of candidates that count, and no other is better than one of them (R214). -/
theorem selectBest_spec (h : Hart) (big : Bool) (cs : List Cand) :
    BestFirst h.kord h.sew big (selectBest h big cs) ∧ (selectBest h big cs).Nodup ∧
    (∀ e ∈ selectBest h big cs, e ∈ cs ∧ kordNan h.kord h.sew e.1 = false) ∧ (selectBest h big cs).length ≤ h.selK ∧
    ∀ e ∈ cs, kordNan h.kord h.sew e.1 = false → e ∈ selectBest h big cs ∨ ((selectBest h big cs).length = h.selK ∧
      ∀ f ∈ selectBest h big cs, f ≠ e ∧ better h.kord h.sew big e f = false) := by
  have hcs : ∀ e ∈ cs.filter (fun c => !kordNan h.kord h.sew c.1), Counts h.kord h.sew e := by
    intro e he
    simpa [Counts] using (List.mem_filter.mp he).2
  obtain ⟨hs, hn, hm⟩ := foldl_insertCand (big := big) _ [] hcs (by simp) List.Pairwise.nil List.nodup_nil
  have hsel : selectBest h big cs = ((cs.filter (fun c => !kordNan h.kord h.sew c.1)).foldl
    (fun l c => insertCand h.kord h.sew big c l) []).take h.selK := rfl
  rw [hsel]
  generalize (cs.filter (fun c => !kordNan h.kord h.sew c.1)).foldl (fun l c => insertCand h.kord h.sew big c l) [] = r at hs hn hm
  refine ⟨hs.sublist (List.take_sublist _ _), hn.sublist (List.take_sublist _ _), fun e he => ?_, List.length_take_le _ _, fun e he hc => ?_⟩
  · have := (hm e).mp (List.mem_of_mem_take he)
    simpa using this
  · have her : e ∈ r := (hm e).mpr (.inl (List.mem_filter.mpr ⟨he, by simp [hc]⟩))
    rw [← List.take_append_drop h.selK r] at her hs hn
    rcases List.mem_append.mp her with h1 | h1
    · exact .inl h1
    · have hlen : h.selK < r.length := by
        by_contra hle
        rw [List.drop_eq_nil_of_le (by omega)] at h1
        exact absurd h1 List.not_mem_nil
      refine .inr ⟨by simp; omega, fun f hf => ⟨?_, (List.pairwise_append.mp hs).2.2 f hf e h1⟩⟩
      rintro rfl
      exact List.disjoint_of_nodup_append hn hf h1

end Sys2Proof.Machine
end

section
/-! OBLIGATION O42. Coding, packing, checksums and selection (R203 to R205, R213 to R216). -/
namespace Sys2Proof.Machine

open Sys2Proof

/-! ## A group coded below a count (R201) -/

/-- Elements below n of a group hold `f`, the others the tail rule's value; nothing is written with VL = 0 or below the element a
resumed slot starts at (R35, R104, R201). -/
def CodedResult (s : State) (a : BitVec 7) (o n : Nat) (f : Nat → Nat) (u : Host.Outcome State Fault Refusal) : Prop :=
  ∃ V, VectorWritten s a (cur s).grp V 0 0 u ∧ ∀ i, i < 1024 * (cur s).grp / (cur s).sew →
    elem V i (cur s).sew = if i < startElem (cur s) then elem o i (cur s).sew
      else if (cur s).vl ≠ 0 ∧ i < n then f i
      else if (cur s).vl = 0 then elem o i (cur s).sew else if (cur s).tailz then 0 else elem o i (cur s).sew

section
variable {s : State} {a b c : BitVec 7} {p q o n major fn : Nat} {y d : DWord} {F : Local → Option Local}

theorem coded_of_putBelow {f : Nat → Nat} (h : SlotRuns s major fn) (hd : MoveDest s a o)
    (hF : F (curLocal s) = putBelow (curLocal s) a n f) (hf : ∀ i, i < n → f i < 2 ^ (cur s).sew) :
    CodedResult s a o n f (runSlot major fn (localBody F) s) := by
  obtain ⟨V, hw, h0, h1⟩ := putGroup_result s major fn F a (fun i => if i < n then some (f i) else tailElem (cur s)) o h hd hF
    (fun i => if i < n then f i else tailLeft (cur s) o i) (fun i => by
      split
      · rfl
      · exact tailElem_getD _ _ _)
  refine ⟨V, hw, fun i hi => ?_⟩
  by_cases hv : (cur s).vl = 0
  · rw [h0 (by rw [hv]; rfl)]
    simp [hv]
  · rw [h1 (fun e => hv (BitVec.eq_of_toNat_eq e)) i hi]
    split
    · rfl
    · by_cases hn : i < n
      · rw [if_pos ⟨hv, hn⟩]
        simp only [if_pos hn, Nat.mod_eq_of_lt (hf i hn)]
      · rw [if_neg (fun e => hn e.2)]
        simp only [if_neg hn, tailLeft]
        split <;> simp

/-! ## Delta and zigzag (R203) -/

/-- Running sums from a seed (R203). -/
theorem runSums_getD (w p : Nat) (l : List Nat) (t i j : Nat) (hj : j < l.length) :
    (runSums w p t i l).getD j 0 = (t + ((List.range (j + 1)).map (fun k => elem p (i + k) w)).sum) % 2 ^ w := by
  induction l generalizing t i j with
  | nil => exact absurd hj (Nat.not_lt_zero _)
  | cons r l ih =>
    cases j with
    | zero => simp [runSums]
    | succ j =>
      have e : (List.range (j + 1 + 1)).map (fun k => elem p (i + k) w)
          = elem p i w :: (List.range (j + 1)).map (fun k => elem p (i + 1 + k) w) := by
        rw [List.range_succ_eq_map, List.map_cons, List.map_map]
        refine congrArg _ (List.map_congr_left (fun k _ => ?_))
        simp only [Function.comp_apply, Nat.succ_eq_add_one]
        congr 1
        omega
      rw [runSums, List.getD_cons_succ, ih _ _ _ (Nat.lt_of_succ_lt_succ hj), e, List.sum_cons, Nat.mod_add_mod, Nat.add_assoc]

theorem xdelta_result (hv : V1Ready s a b p o) (hw : 8 ≤ (cur s).sew) (hc : readS (cur s) c = some y) (h : SlotRuns s 0x4C 0) :
    CodedResult s a o (cur s).len (fun i => (BitVec.ofNat (cur s).sew (elem p i (cur s).sew)
      - (if i = 0 then y.setWidth (cur s).sew else BitVec.ofNat (cur s).sew (elem p (i - 1) (cur s).sew))).toNat) (exec (.xdelta a b c) s) := by
  refine coded_of_putBelow h hv.dest ?_ (fun i _ => BitVec.isLt _)
  have hsew : (curLocal s).h.intSew = true := decide_eq_true hw
  have hc' : readS (curLocal s).h c = some y := hc
  simp only [deltaCode, hsew, guard, if_true, source1_of_ready s a b p o hv, hc', Option.bind_eq_bind, Option.bind_some, Option.pure_def]
  refine congrArg _ (funext fun i => ?_)
  rw [BitVec.toNat_sub, BitVec.toNat_ofNat, Nat.mod_eq_of_lt (elem_lt _ _ _)]
  have hlt : (if i = 0 then y.toNat % 2 ^ (cur s).sew else elem p (i - 1) (cur s).sew) < 2 ^ (cur s).sew := by
    split
    · exact Nat.mod_lt _ (Nat.two_pow_pos _)
    · exact elem_lt _ _ _
  have he : (if i = 0 then y.setWidth (cur s).sew else BitVec.ofNat (cur s).sew (elem p (i - 1) (cur s).sew)).toNat
      = if i = 0 then y.toNat % 2 ^ (cur s).sew else elem p (i - 1) (cur s).sew := by
    split
    · exact BitVec.toNat_setWidth _ _
    · rw [BitVec.toNat_ofNat, elem_mod]
  rw [he]
  change (_ + 2 ^ (cur s).sew - (if i = 0 then y.toNat % 2 ^ (cur s).sew else elem p (i - 1) (cur s).sew)) % _ = _
  congr 1
  rw [Nat.add_comm (elem p i _), Nat.sub_add_comm hlt.le]
  rfl

theorem xundelta_result (hv : V1Ready s a b p o) (hw : 8 ≤ (cur s).sew) (hc : readS (cur s) c = some y) (h : SlotRuns s 0x4C 1) :
    CodedResult s a o (cur s).len (fun i => (y.toNat + ((List.range (i + 1)).map (fun k => elem p k (cur s).sew)).sum) % 2 ^ (cur s).sew)
      (exec (.xundelta a b c) s) := by
  have hsew : (curLocal s).h.intSew = true := decide_eq_true hw
  have hc' : readS (curLocal s).h c = some y := hc
  obtain ⟨V, hV, hE⟩ := coded_of_putBelow (n := (cur s).len) (f := fun i => (runSums (cur s).sew p (y.toNat % 2 ^ (cur s).sew) 0 (List.range (cur s).len)).getD i 0)
    h hv.dest (F := deltaDecode a b c) (by
      simp only [deltaDecode, hsew, guard, if_true, source1_of_ready s a b p o hv, hc', Option.bind_eq_bind, Option.bind_some, Option.pure_def]
      rfl) (fun i hi => by
      rw [runSums_getD _ _ _ _ _ _ (by simpa using hi)]
      exact Nat.mod_lt _ (Nat.two_pow_pos _))
  refine ⟨V, hV, fun i hi => (hE i hi).trans ?_⟩
  by_cases hn : i < (cur s).len
  · simp only [runSums_getD _ _ _ _ _ _ (show i < (List.range (cur s).len).length by simpa using hn), Nat.zero_add, Nat.mod_add_mod]
  · simp only [hn, and_false, if_false]

theorem xzz_result (hv : V1Ready s a b p o) (hw : 8 ≤ (cur s).sew) (h : SlotRuns s 0x4C 2) :
    CodedResult s a o (cur s).len (fun i => ((BitVec.ofNat (cur s).sew (elem p i (cur s).sew) <<< 1)
      ^^^ (if (BitVec.ofNat (cur s).sew (elem p i (cur s).sew)).msb then BitVec.allOnes (cur s).sew else 0)).toNat) (exec (.xzz a b) s) := by
  refine coded_of_putBelow h hv.dest ?_ (fun i _ => BitVec.isLt _)
  have hsew : (curLocal s).h.intSew = true := decide_eq_true hw
  simp only [zigzag, hsew, guard, if_true, source1_of_ready s a b p o hv, Option.bind_eq_bind, Option.bind_some, Option.pure_def]
  refine congrArg _ (funext fun i => ?_)
  rw [BitVec.toNat_xor, BitVec.toNat_shiftLeft, BitVec.toNat_ofNat, elem_mod, Nat.shiftLeft_eq, Nat.pow_one]
  have hm : (BitVec.ofNat (cur s).sew (elem p i (cur s).sew)).msb = (elem p i (cur s).sew).testBit ((cur s).sew - 1) := by
    rw [BitVec.msb_eq_getLsbD_last, BitVec.getLsbD_ofNat, decide_eq_true (by omega), Bool.true_and]
  rw [hm]
  change Nat.xor _ (if (elem p i (cur s).sew).testBit ((cur s).sew - 1) = true then 2 ^ (cur s).sew - 1 else 0) = _
  split
  · rw [BitVec.toNat_allOnes]; rfl
  · rfl

theorem xunzz_result (hv : V1Ready s a b p o) (hw : 8 ≤ (cur s).sew) (h : SlotRuns s 0x4C 3) :
    CodedResult s a o (cur s).len (fun i => ((BitVec.ofNat (cur s).sew (elem p i (cur s).sew) >>> 1)
      ^^^ (if (BitVec.ofNat (cur s).sew (elem p i (cur s).sew)).getLsbD 0 then BitVec.allOnes (cur s).sew else 0)).toNat)
      (exec (.xunzz a b) s) := by
  refine coded_of_putBelow h hv.dest ?_ (fun i _ => BitVec.isLt _)
  have hsew : (curLocal s).h.intSew = true := decide_eq_true hw
  simp only [zigzag, hsew, guard, if_true, source1_of_ready s a b p o hv, Option.bind_eq_bind, Option.bind_some, Option.pure_def]
  refine congrArg _ (funext fun i => ?_)
  rw [BitVec.toNat_xor, BitVec.toNat_ushiftRight, BitVec.toNat_ofNat, elem_mod, Nat.shiftRight_eq_div_pow, Nat.pow_one]
  have hm : (BitVec.ofNat (cur s).sew (elem p i (cur s).sew)).getLsbD 0 = (elem p i (cur s).sew).testBit 0 := by
    rw [BitVec.getLsbD_ofNat, decide_eq_true (by omega), Bool.true_and]
  rw [hm]
  change Nat.xor _ (if (elem p i (cur s).sew).testBit 0 = true then 2 ^ (cur s).sew - 1 else 0) = _
  split
  · rw [BitVec.toNat_allOnes]; rfl
  · rfl

/-! ## Bit packing (R204, R205) -/

theorem packFields_length (l : List (Nat × Nat)) : (packFields l).2 = (l.map Prod.snd).sum := by
  induction l with
  | nil => rfl
  | cons f l ih => obtain ⟨v, n⟩ := f; simp [packFields, ih, Nat.add_comm]

/-- The first bits of a bit string are its first field; the rest are the other fields, laid end to end. -/
theorem testBit_packFields_cons (v n : Nat) (l : List (Nat × Nat)) (j : Nat) :
    (packFields ((v, n) :: l)).1.testBit j = if j < n then v.testBit j else (packFields l).1.testBit (j - n) := by
  rw [packFields, Nat.add_comm, Nat.mul_comm, Nat.testBit_two_pow_mul_add _ (Nat.mod_lt _ (Nat.two_pow_pos _))]
  split
  · next h => rw [Nat.testBit_mod_two_pow, decide_eq_true h, Bool.true_and]
  · rfl

/-- Bit t of field i stands at the field's offset (R204). -/
theorem testBit_packFields (l : List (Nat × Nat)) (i t : Nat) (f : Nat × Nat) (hi : l[i]? = some f) (ht : t < f.2) :
    (packFields l).1.testBit (((l.take i).map Prod.snd).sum + t) = f.1.testBit t := by
  induction l generalizing i with
  | nil => simp at hi
  | cons g l ih =>
    obtain ⟨v, n⟩ := g
    rw [testBit_packFields_cons]
    cases i with
    | zero =>
      obtain rfl : (v, n) = f := by simpa using hi
      simp [ht]
    | succ i =>
      rw [List.take_succ_cons, List.map_cons, List.sum_cons, if_neg (by omega), ← ih i (by simpa using hi)]
      congr 1
      omega

/-- Past the last field a bit string is 0. -/
theorem testBit_packFields_end (l : List (Nat × Nat)) (j : Nat) (hj : (l.map Prod.snd).sum ≤ j) : (packFields l).1.testBit j = false := by
  induction l generalizing j with
  | nil => simp [packFields]
  | cons g l ih =>
    obtain ⟨v, n⟩ := g
    rw [List.map_cons, List.sum_cons] at hj
    rw [testBit_packFields_cons, if_neg (by omega)]
    exact ih _ (by omega)

/-- Field i of a bit string read in order (R204). -/
theorem unpackFields_getD (u : Nat) (l : List Nat) (i : Nat) (n : Nat) (hi : l[i]? = some n) :
    (unpackFields u l).getD i 0 = (u >>> (l.take i).sum) % 2 ^ n := by
  induction l generalizing u i with
  | nil => simp at hi
  | cons m l ih =>
    cases i with
    | zero =>
      obtain rfl : m = n := by simpa using hi
      simp [unpackFields]
    | succ i =>
      rw [unpackFields, List.getD_cons_succ, ih _ _ (by simpa using hi), List.take_succ_cons, List.sum_cons,
        Nat.shiftRight_add, Nat.shiftRight_eq_div_pow u m]

/-- The offsets of fields of given widths laid end to end. -/
theorem take_range_map (wd : Nat → Nat) {i n : Nat} (hi : i ≤ n) : ((List.range n).map wd).take i = (List.range i).map wd := by
  rw [← List.map_take, List.take_range, Nat.min_eq_left hi]

/-- A width for each element below VL (R204, R205). -/
theorem packWidths_scalar {x : Local} {wd : Nat → Nat} (hc : readS x.h c = some y) (hy : y.toNat ≤ x.h.sew) (hwd : ∀ i, wd i = y.toNat) :
    packWidths x c false = some ((List.range x.h.len).map wd) := by
  have hl : List.replicate x.h.len y.toNat = (List.range x.h.len).map wd := by
    rw [show wd = fun _ => y.toNat from funext hwd, List.map_const', List.length_range]
  simp [packWidths, hc, guard, hy, hl]

theorem packWidths_grouped {x : Local} {wd : Nat → Nat} (hq : readV x c x.h.grp = some q)
    (hwd : ∀ i, wd i = elem q (i / 2 ^ bits x.h.xcfg 13 11) x.h.sew) (hle : ∀ i, i < x.h.len → wd i ≤ x.h.sew) :
    packWidths x c true = some ((List.range x.h.len).map wd) := by
  have hl : (List.range x.h.len).map (fun i => elem q (i / x.h.packG) x.h.sew) = (List.range x.h.len).map wd := by
    rw [show wd = _ from funext hwd]; rfl
  have hall : ((List.range x.h.len).map wd).all (fun n => decide (n ≤ x.h.sew)) = true := by
    simpa using hle
  simp only [packWidths, hq, Option.bind_eq_bind, Option.bind_some, if_true, hl, guard, hall, Option.pure_def]

/-- Where a bit string's bits stand in a group: those below its length in its fields, 0 up to the next whole element, and the
tail's values behind (R204). -/
def PackedResult (s : State) (a : BitVec 7) (p o : Nat) (wd off : Nat → Nat) (u : Host.Outcome State Fault Refusal) : Prop :=
  ∃ V, VectorWritten s a (cur s).grp V 0 0 u ∧
    (∀ i t, i < (cur s).len → t < wd i → startElem (cur s) ≤ (off i + t) / (cur s).sew →
      (elem V ((off i + t) / (cur s).sew) (cur s).sew).testBit ((off i + t) % (cur s).sew) = (elem p i (cur s).sew).testBit t) ∧
    (∀ t, off (cur s).len ≤ t → t < (off (cur s).len + (cur s).sew - 1) / (cur s).sew * (cur s).sew →
      startElem (cur s) ≤ t / (cur s).sew → (elem V (t / (cur s).sew) (cur s).sew).testBit (t % (cur s).sew) = false) ∧
    (∀ j, (off (cur s).len + (cur s).sew - 1) / (cur s).sew ≤ j → startElem (cur s) ≤ j → j < 1024 * (cur s).grp / (cur s).sew →
      elem V j (cur s).sew = if (cur s).vl = 0 then elem o j (cur s).sew else if (cur s).tailz then 0 else elem o j (cur s).sew) ∧
    ∀ j, j < startElem (cur s) → j < 1024 * (cur s).grp / (cur s).sew → elem V j (cur s).sew = elem o j (cur s).sew

/-- The widths of fields that fit their elements fit together. -/
theorem sum_widths_le {wd : Nat → Nat} {w n : Nat} (h : ∀ i, i < n → wd i ≤ w) : ((List.range n).map wd).sum ≤ n * w := by
  have := List.sum_le_card_nsmul ((List.range n).map wd) w (fun x hx => by
    obtain ⟨i, hi, rfl⟩ := List.mem_map.mp hx
    exact h i (List.mem_range.mp hi))
  simpa using this

/-- Offsets of fields do not fall. -/
theorem offset_lt {wd : Nat → Nat} {i n t : Nat} (hi : i < n) (ht : t < wd i) :
    ((List.range i).map wd).sum + t < ((List.range n).map wd).sum := by
  have hs : ((List.range (i + 1)).map wd).sum = ((List.range i).map wd).sum + wd i := by simp [List.range_succ]
  have hle : ((List.range (i + 1)).map wd).sum ≤ ((List.range n).map wd).sum := by
    rw [← take_range_map wd (show i + 1 ≤ n from hi)]
    exact List.Sublist.sum_le_sum (List.take_sublist _ _) (fun x _ => Nat.zero_le x)
  omega

/-- A group that holds a bit string, element by element, holds its fields at their offsets (R204). -/
theorem packed_of_coded {wd off : Nat → Nat} {u : Host.Outcome State Fault Refusal}
    (hoff : ∀ i, off i = ((List.range i).map wd).sum) (hle : ∀ i, i < (cur s).len → wd i ≤ (cur s).sew)
    (hN : (cur s).len ≤ 1024 * (cur s).grp / (cur s).sew) (l : List (Nat × Nat))
    (hl : l = (List.range (cur s).len).map (fun i => (elem p i (cur s).sew, wd i)))
    (hu : CodedResult s a o ((off (cur s).len + (cur s).sew - 1) / (cur s).sew) (fun j => elem (packFields l).1 j (cur s).sew) u) :
    PackedResult s a p o wd off u := by
  obtain ⟨V, hV, hE⟩ := hu
  have hw := sew_pos (cur s)
  have hsum : off (cur s).len ≤ (cur s).len * (cur s).sew := (hoff _).trans_le (sum_widths_le hle)
  have hsnd : l.map Prod.snd = (List.range (cur s).len).map wd := by rw [hl, List.map_map]; rfl
  -- an element that holds a bit below the string's whole elements lies in the group, and is one of the string's
  have hbit : ∀ t, t < (off (cur s).len + (cur s).sew - 1) / (cur s).sew * (cur s).sew → startElem (cur s) ≤ t / (cur s).sew →
      (elem V (t / (cur s).sew) (cur s).sew).testBit (t % (cur s).sew) = (packFields l).1.testBit t := by
    intro t ht hst
    have hj : t / (cur s).sew < (off (cur s).len + (cur s).sew - 1) / (cur s).sew := (Nat.div_lt_iff_lt_mul hw).mpr ht
    have hcount : (off (cur s).len + (cur s).sew - 1) / (cur s).sew ≤ (cur s).len :=
      Nat.le_of_lt_succ ((Nat.div_lt_iff_lt_mul hw).mpr (by rw [Nat.succ_mul]; omega))
    have hv : (cur s).vl ≠ 0 := by
      intro h0
      have : (cur s).len = 0 := by rw [Hart.len, h0]; rfl
      omega
    rw [hE _ (by omega), if_neg (by omega), if_pos ⟨hv, hj⟩, testBit_elem, decide_eq_true (Nat.mod_lt _ hw), Bool.true_and,
      Nat.mul_comm, Nat.div_add_mod]
  have hceil : off (cur s).len ≤ (off (cur s).len + (cur s).sew - 1) / (cur s).sew * (cur s).sew := by
    have h1 := Nat.div_add_mod (off (cur s).len + (cur s).sew - 1) (cur s).sew
    have h2 := Nat.mod_lt (off (cur s).len + (cur s).sew - 1) hw
    rw [Nat.mul_comm] at h1
    omega
  refine ⟨V, hV, fun i t hi ht hst => ?_, fun t ht1 ht2 hst => ?_, fun j hj hst hn => ?_, fun j hj hn => ?_⟩
  · have hlt : off i + t < off (cur s).len := by rw [hoff, hoff]; exact offset_lt hi ht
    rw [hbit _ (by omega) hst, ← testBit_packFields l i t (elem p i (cur s).sew, wd i) (by rw [hl]; simp [hi]) ht]
    rw [List.map_take, hsnd, take_range_map wd hi.le, hoff]
  · rw [hbit t ht2 hst]
    exact testBit_packFields_end l t (by rw [hsnd, ← hoff]; exact ht1)
  · rw [hE j hn, if_neg (by omega), if_neg (by omega)]
  · rw [hE j hn, if_pos hj]

/-- Packing lays the low bits of the elements end to end (R204, R205). -/
theorem pack_result {g : Bool} {wd off : Nat → Nat} (hd : MoveDest s a o) (hsrc : packSource (curLocal s) a b c g = some p)
    (hws : packWidths (curLocal s) c g = some ((List.range (cur s).len).map wd)) (hoff : ∀ i, off i = ((List.range i).map wd).sum)
    (hle : ∀ i, i < (cur s).len → wd i ≤ (cur s).sew) (hN : (cur s).len ≤ 1024 * (cur s).grp / (cur s).sew)
    (h : SlotRuns s major fn) : PackedResult s a p o wd off (runSlot major fn (localBody (pack g a b c)) s) := by
  set l := (List.range (cur s).len).map (fun i => (elem p i (cur s).sew, wd i)) with hl
  have hz : (((List.range (cur s).len).map wd).zipIdx).map (fun q => (elem p q.2 (cur s).sew, q.1)) = l := by
    apply List.ext_getElem
    · simp [hl]
    · intro i h1 h2
      simp [hl]
  have hlen : (packFields l).2 = off (cur s).len := by
    rw [packFields_length, hoff, hl, List.map_map]; rfl
  refine packed_of_coded hoff hle hN l hl (coded_of_putBelow h hd ?_ (fun i _ => elem_lt _ _ _))
  simp only [pack, hsrc, hws, Option.bind_eq_bind, Option.bind_some]
  rw [← hlen, ← hz]
  rfl

/-- Unpacking reads the elements back from their offsets (R204, R205). -/
theorem unpack_result {g : Bool} {wd off : Nat → Nat} (hd : MoveDest s a o) (hsrc : packSource (curLocal s) a b c g = some p)
    (hws : packWidths (curLocal s) c g = some ((List.range (cur s).len).map wd)) (hoff : ∀ i, off i = ((List.range i).map wd).sum)
    (hle : ∀ i, i < (cur s).len → wd i ≤ (cur s).sew) (h : SlotRuns s major fn) :
    CodedResult s a o (cur s).len (fun i => (p >>> off i) % 2 ^ wd i) (runSlot major fn (localBody (unpack g a b c)) s) := by
  have hget : ∀ i, i < (cur s).len → (unpackFields p ((List.range (cur s).len).map wd)).getD i 0 = (p >>> off i) % 2 ^ wd i := by
    intro i hi
    rw [unpackFields_getD p _ i (wd i) (by simp [hi]), take_range_map wd hi.le, hoff]
  obtain ⟨V, hV, hE⟩ := coded_of_putBelow (n := (cur s).len) (f := fun i => (unpackFields p ((List.range (cur s).len).map wd)).getD i 0)
    h hd (F := unpack g a b c) (by
      simp only [unpack, hsrc, hws, Option.bind_eq_bind, Option.bind_some]
      rfl) (fun i hi => by
      rw [hget i hi]
      exact (Nat.mod_lt _ (Nat.two_pow_pos _)).trans_le (Nat.pow_le_pow_right (by decide) (hle i hi)))
  refine ⟨V, hV, fun i hi => (hE i hi).trans ?_⟩
  by_cases hn : i < (cur s).len
  · simp only [hget i hn]
  · simp only [hn, and_false, if_false]

theorem packSource_one (hv : V1Ready s a b p o) (hw : 8 ≤ (cur s).sew) : packSource (curLocal s) a b c false = some p := by
  have hsew : (curLocal s).h.intSew = true := decide_eq_true hw
  simp [packSource, guard, hsew, source1_of_ready s a b p o hv]

theorem packSource_two (hv : VvReady s a b c p q o) (hw : 8 ≤ (cur s).sew) : packSource (curLocal s) a b c true = some p := by
  have hsew : (curLocal s).h.intSew = true := decide_eq_true hw
  simp [packSource, guard, hsew, sources2_of_ready s a b c p q o hv]

/-! ## CRC-32C (R213) -/

theorem crc_result {inv : Bool} (hw : 8 ≤ (cur s).sew) (hp : readV (curLocal s) b (cur s).grp = some p)
    (ha : readS (cur s) a = some d) (hd : sDest a = true) (h : SlotRuns s major fn) :
    runSlot major fn (localBody (crc inv a b)) s = .next (completed s (withLocal s ⟨(cur s).result a (BitVec.ofNat 64
      (let flip (v : Nat) : Nat := if inv then Nat.xor v 0xFFFFFFFF else v
       flip (crcBytes p ((cur s).len * (cur s).sew / 8) (flip (d.toNat % 2 ^ 32))))), (curLocal s).pool⟩)) := by
  have hsew : (curLocal s).h.intSew = true := decide_eq_true hw
  have hp' : readV (curLocal s) b (curLocal s).h.grp = some p := hp
  have ha' : readS (curLocal s).h a = some d := ha
  rw [runSlot_runs _ _ _ _ h, localBody, show getLocal s s.cur = curLocal s from rfl]
  simp only [crc, guard, hsew, hd, and_self, if_true, ha', hp', Option.bind_eq_bind, Option.bind_some, Option.pure_def]
  rfl

end

/-! ## A selection writes its list (R214 to R216) -/

/-- The entry of a list at a place: a candidate, or empty (R214). -/
def entryAt (L : List Cand) (n : Nat) : Nat := (L[n]?.map (fun c => c.2 * 2 ^ 32 + c.1)).getD 0xFFFFFFFF00000000

theorem elem_writeList (h : Hart) (o : Nat) (L : List Cand) (hL : ∀ e ∈ L, e.1 < 2 ^ 32 ∧ e.2 < 2 ^ 32) (n : Nat)
    (hn : n < 16 * listRegs h.selK) :
    elem (writeList h o L) n 64 = if h.vl = 0 ∨ h.selK ≤ n then elem o n 64 else entryAt L n := by
  have hl : h.len = 0 ↔ h.vl = 0 := by simp [Hart.len, BitVec.toNat_eq]
  unfold writeList
  by_cases hv : h.vl = 0
  · rw [if_pos (hl.mpr hv), if_pos (.inl hv)]
  · rw [if_neg (fun e => hv (hl.mp e)), elem_buildElems, List.getD_eq_getElem?_getD, List.getElem?_map, List.getElem?_range hn,
      Option.map_some, Option.getD_some]
    by_cases hk : n < h.selK
    · rw [if_pos hk, if_neg (fun e => e.elim hv (fun h => absurd hk (Nat.not_lt.mpr h))), entryAt]
      cases he : L[n]? with
      | none => rfl
      | some e =>
        obtain ⟨h1, h2⟩ := hL e (List.mem_of_getElem? he)
        exact Nat.mod_eq_of_lt (show e.2 * 2 ^ 32 + e.1 < 2 ^ 64 by omega)
    · rw [if_neg hk, if_pos (.inr (by omega)), elem_mod]

/-- The entries of a list are candidates of the width (R214). -/
theorem mem_listEntries {v k w : Nat} {e : Cand} (h : e ∈ listEntries v k w) : e.1 < 2 ^ w ∧ e.2 < 65536 := by
  obtain ⟨hm, h2⟩ := List.mem_filter.mp h
  obtain ⟨j, -, rfl⟩ := List.mem_map.mp hm
  exact ⟨Nat.mod_lt _ (Nat.two_pow_pos _), by simpa using h2⟩

/-- Elements of a vector beside their numbers are candidates of the width (R215). -/
theorem mem_fresh {p w b : Nat} {l : List Nat} {len : Nat} {e : Cand} (hl : ∀ n ∈ l, n < len) (hb : b + len ≤ 65536)
    (h : e ∈ l.map (fun n => (elem p n w, b + n))) : e.1 < 2 ^ w ∧ e.2 < 65536 := by
  obtain ⟨n, hn, rfl⟩ := List.mem_map.mp h
  have := hl n hn
  exact ⟨elem_lt _ _ _, by show b + n < 65536; omega⟩

/-- The checks of a selection bound its width (R214). -/
theorem sew_of_selectOk {h : Hart} (hs : selectOk h = true) : h.sew ≤ 32 := by
  simp only [selectOk, Bool.and_eq_true, decide_eq_true_eq] at hs
  exact hs.1.1.2

section
variable {s : State} {a b c : BitVec 7} {p q o k fn : Nat} {big : Bool} {y : DWord}

/-- The list that a selection of candidates has written, entry by entry (R214). -/
theorem list_written (ha : a.toNat < 112 ∨ a.toNat = 127) (ho : readV (curLocal s) a (listRegs (cur s).selK) = some o)
    (hs : selectOk (cur s) = true) (cs : List Cand) (hcs : ∀ e ∈ cs, e.1 < 2 ^ (cur s).sew ∧ e.2 < 65536) (F : Local → Option Local)
    (hF : ∀ l, writeV (curLocal s) a (listRegs (cur s).selK) (writeList (cur s) o (selectBest (cur s) big cs)) = some l →
      F (curLocal s) = some (pushV l (listRegs (cur s).selK) (writeList (cur s) o (selectBest (cur s) big cs))))
    {major : Nat} (h : SlotRuns s major fn) :
    VectorWritten s a (listRegs (cur s).selK) (writeList (cur s) o (selectBest (cur s) big cs)) 0 0 (runSlot major fn (localBody F) s) ∧
    ∀ n, n < 16 * listRegs (cur s).selK → elem (writeList (cur s) o (selectBest (cur s) big cs)) n 64
      = if (cur s).vl = 0 ∨ (cur s).selK ≤ n then elem o n 64 else entryAt (selectBest (cur s) big cs) n := by
  obtain ⟨l, hl, -⟩ := writeV_of_readV (curLocal s) a _ (writeList (cur s) o (selectBest (cur s) big cs)) o ho ha
  refine ⟨?_, elem_writeList _ _ _ (fun e he => ?_)⟩
  · rw [runSlot_runs _ _ _ _ h, localBody, show getLocal s s.cur = curLocal s from rfl, hF l hl]
    exact vectorWritten_pushV s a _ _ o ho ha l hl
  · obtain ⟨hm, -⟩ := (selectBest_spec (cur s) big cs).2.2.1 e he
    obtain ⟨h1, h2⟩ := hcs e hm
    exact ⟨h1.trans_le (Nat.pow_le_pow_right (by decide) (sew_of_selectOk hs)), by omega⟩

/-- `xtopk` and `xbotk` write a list (R215). -/
theorem topK_written {l : Local} {cs : List Cand} (ho : readV (curLocal s) a (listRegs (cur s).selK) = some o)
    (hs : selectOk (cur s) = true) (hov : overlaps a (listRegs (cur s).selK) b (cur s).grp = false) (hm : (cur s).maskFits = true)
    (hc : readS (cur s) c = some y) (hp : readV (curLocal s) b (cur s).grp = some p) (hy : bits y 62 16 = 0)
    (hb : bits y 15 0 + (cur s).len ≤ 65536)
    (hcs : cs = (if y.getLsbD 63 then [] else listEntries o (cur s).selK (cur s).sew)
      ++ ((List.range (cur s).len).filter (cur s).selBit).map (fun n => (elem p n (cur s).sew, bits y 15 0 + n)))
    (hl : writeV (curLocal s) a (listRegs (cur s).selK) (writeList (cur s) o (selectBest (cur s) big cs)) = some l) :
    topK big a b c (curLocal s) = some (pushV l (listRegs (cur s).selK) (writeList (cur s) o (selectBest (cur s) big cs))) := by
  subst hcs
  have hh : (curLocal s).h = cur s := rfl
  simp only [topK, hh, guard, hs, hov, hm, and_self, if_true, hc, hy, hb, hp, ho, Option.bind_eq_bind, Option.bind_some, Option.pure_def]
  exact (congrArg (Option.bind · _) hl).trans rfl

/-- `xkmerge` and `xbkmerge` write a list (R216). -/
theorem mergeK_written {l : Local} (ho : readV (curLocal s) a (listRegs (cur s).selK) = some o)
    (hs : selectOk (cur s) = true) (hb : overlapOk true a (listRegs (cur s).selK) b (listRegs (cur s).selK) = true)
    (hc : overlapOk true a (listRegs (cur s).selK) c (listRegs (cur s).selK) = true)
    (hp : readV (curLocal s) b (listRegs (cur s).selK) = some p) (hq : readV (curLocal s) c (listRegs (cur s).selK) = some q)
    (hl : writeV (curLocal s) a (listRegs (cur s).selK) (writeList (cur s) o (selectBest (cur s) big
      (listEntries p (cur s).selK (cur s).sew ++ listEntries q (cur s).selK (cur s).sew))) = some l) :
    mergeK big a b c (curLocal s) = some (pushV l (listRegs (cur s).selK) (writeList (cur s) o (selectBest (cur s) big
      (listEntries p (cur s).selK (cur s).sew ++ listEntries q (cur s).selK (cur s).sew)))) := by
  have hh : (curLocal s).h = cur s := rfl
  simp only [mergeK, hh, guard, hs, hb, hc, and_self, if_true, hp, hq, ho, Option.bind_eq_bind, Option.bind_some]
  exact (congrArg (Option.bind · _) hl).trans rfl

/-- In an integer order the list is strict, and holds every candidate that it need not leave out (R202, R214). -/
theorem selectBest_strict (h : Hart) (cs : List Cand) (hcs : ∀ e ∈ cs, e.1 < 2 ^ h.sew) (hk : h.kord < 2) :
    (selectBest h big cs).Pairwise (fun e f => better h.kord h.sew big e f = true) ∧ (∀ e ∈ selectBest h big cs, e ∈ cs) ∧
    ∀ e ∈ cs, e ∈ selectBest h big cs ∨ ((selectBest h big cs).length = h.selK ∧
      ∀ f ∈ selectBest h big cs, better h.kord h.sew big f e = true) := by
  obtain ⟨hord, hnd, hmem, -, hleft⟩ := selectBest_spec h big cs
  refine ⟨(hord.and hnd).imp_of_mem (fun he hf hef => ?_), fun e he => (hmem e he).1, fun e he => ?_⟩
  · exact better_total hk (hcs _ (hmem _ he).1) (hcs _ (hmem _ hf).1) hef.2 hef.1
  · refine (hleft e he (by simp [kordNan]; omega)).imp_right (fun ⟨hlen, hf⟩ => ⟨hlen, fun f hfm => ?_⟩)
    obtain ⟨hne, hb⟩ := hf f hfm
    exact better_total hk (hcs f (hmem f hfm).1) (hcs e he) hne hb

/-- One value stands before another in the order, in the terms of the statement (R202, R214). -/
def Below (kord w : Nat) (e f : Cand) : Prop :=
  if kord = 0 then e.1 < f.1 else if kord = 1 then toSigned w e.1 < toSigned w f.1
  else (∃ u v : ℝ, (decodeF (kordFmt kord w) e.1).Is u ∧ (decodeF (kordFmt kord w) f.1).Is v ∧ u < v) ∨
    (decodeF (kordFmt kord w) e.1 = .inf true ∧ decodeF (kordFmt kord w) f.1 ≠ .inf true) ∨
    (decodeF (kordFmt kord w) f.1 = .inf false ∧ decodeF (kordFmt kord w) e.1 ≠ .inf false)

theorem below_iff {kord w : Nat} {e f : Cand} (he : kordNan kord w e.1 = false) (hf : kordNan kord w f.1 = false) :
    Below kord w e f ↔ candKey kord w e.1 < candKey kord w f.1 := by
  unfold Below
  split
  · next h => simp [candKey, h]
  · split
    · next h => simp [candKey, h]
    · exact (key_lt_iff (by omega) he hf).symm

theorem better_below {kord w : Nat} {e f : Cand} (he : kordNan kord w e.1 = false) (hf : kordNan kord w f.1 = false) :
    better kord w big e f = true ↔
      (if big = true then Below kord w f e else Below kord w e f) ∨ (¬ Below kord w e f ∧ ¬ Below kord w f e ∧ e.2 < f.2) := by
  rw [better_iff he hf, below_iff he hf, below_iff hf he, ← and_assoc]
  refine or_congr_right (and_congr_left' ?_)
  rw [not_lt, not_lt, le_antisymm_iff, and_comm]

end

/-- Settles O42: coding writes a group element by element, packing is a bit string of fields, and selection keeps a sorted list. -/
theorem transformResults : Obligations.TransformResults := by
  intro s a b c p q o y d hN h w x tail E
  refine ⟨fun hw hv => ⟨fun hs hc => xdelta_result hv hw hc hs, fun hs hc => xundelta_result hv hw hc hs, fun hs => xzz_result hv hw hs,
    fun hs => xunzz_result hv hw hs, fun wd off hoff hle => ⟨fun hc hwd hy => ?_, fun hvv hwd => ?_⟩⟩,
    fun hw hp ha hd => ⟨fun hs => crc_result (inv := false) hw hp ha hd hs, fun hs => crc_result (inv := true) hw hp ha hd hs⟩,
    fun g k big i j fn hi hk hg hs ha ho => ?_⟩
  · have hws := packWidths_scalar (x := curLocal s) (wd := wd) hc hy hwd
    exact ⟨fun hr => pack_result (c := c) hv.dest (packSource_one hv hw) hws hoff hle hN hr,
      fun hr => unpack_result (c := c) hv.dest (packSource_one hv hw) hws hoff hle hr⟩
  · have hws := packWidths_grouped (x := curLocal s) (wd := wd) hvv.2.2.2.2.1 hwd hle
    exact ⟨fun hr => pack_result hvv.dest (packSource_two hvv hw) hws hoff hle hN hr,
      fun hr => unpack_result hvv.dest (packSource_two hvv hw) hws hoff hle hr⟩
  · subst hk hg
    refine ⟨fun e f he hf => better_below he hf, ?_⟩
    intro S
    have hS : ∀ (cs : List Cand) (u : Host.Outcome State Fault Refusal), (∀ e ∈ cs, e.1 < 2 ^ (cur s).sew ∧ e.2 < 65536) →
        (VectorWritten s a (listRegs (cur s).selK) (writeList (cur s) o (selectBest (cur s) big cs)) 0 0 u ∧
        ∀ n, n < 16 * listRegs (cur s).selK → elem (writeList (cur s) o (selectBest (cur s) big cs)) n 64
          = if (cur s).vl = 0 ∨ (cur s).selK ≤ n then elem o n 64 else entryAt (selectBest (cur s) big cs) n) → S cs u := by
      rintro cs u hcs ⟨hV, hE⟩
      obtain ⟨hord, -, hmem, -, hleft⟩ := selectBest_spec (cur s) big cs
      refine ⟨_, _, hV, rfl, fun n hn => ?_, selectBest_strict (cur s) cs (fun e he => (hcs e he).1), hord, hmem, fun e he => ?_⟩
      · rw [hE n hn, entryAt]
        refine if_congr Iff.rfl rfl ?_
        cases (selectBest (cur s) big cs)[n]? <;> rfl
      · cases hsk : kordNan (cur s).kord (cur s).sew e.1
        · exact .inr ((hleft e he hsk).imp_right (fun ⟨hl, hf⟩ => ⟨hl, fun f hm => (hf f hm).2⟩))
        · exact .inl hsk
    have hcand : ∀ cs ds : List Cand, (∀ e ∈ cs, e.1 < 2 ^ (cur s).sew ∧ e.2 < 65536) → (∀ e ∈ ds, e.1 < 2 ^ (cur s).sew ∧ e.2 < 65536) →
        ∀ e ∈ cs ++ ds, e.1 < 2 ^ (cur s).sew ∧ e.2 < 65536 := fun cs ds h1 h2 e he => (List.mem_append.mp he).elim (h1 e) (h2 e)
    have hx : exec i s = runSlot 0x51 fn (localBody (topK big a b c)) s ∧ exec j s = runSlot 0x51 (fn + 2) (localBody (mergeK big a b c)) s := by
      simp only [List.mem_cons, Prod.mk.injEq, List.not_mem_nil, or_false] at hi
      rcases hi with ⟨rfl, rfl, rfl, rfl⟩ | ⟨rfl, rfl, rfl, rfl⟩ <;> exact ⟨rfl, rfl⟩
    refine ⟨fun hr hov hm hc hp hy hb => ?_, fun hr hb hc hp hq => ?_⟩
    · have hcs := hcand (if y.getLsbD 63 then [] else listEntries o (cur s).selK (cur s).sew)
        (((List.range (cur s).len).filter (cur s).selBit).map (fun n => (elem p n (cur s).sew, bits y 15 0 + n)))
        (fun e he => by
          split at he
          · exact absurd he List.not_mem_nil
          · exact mem_listEntries he)
        (fun e he => mem_fresh (fun n hn => List.mem_range.mp (List.mem_of_mem_filter hn)) hb he)
      rw [hx.1]
      exact hS _ _ hcs (list_written ha ho hs _ hcs _ (fun l hl => topK_written ho hs hov hm hc hp hy hb rfl hl) hr)
    · have hcs := hcand (listEntries p (cur s).selK (cur s).sew) (listEntries q (cur s).selK (cur s).sew)
        (fun e he => mem_listEntries he) (fun e he => mem_listEntries he)
      rw [hx.2]
      exact hS _ _ hcs (list_written ha ho hs _ hcs _ (fun l hl => mergeK_written ho hs hb hc hp hq hl) hr)

end Sys2Proof.Machine
end

section
/-! SUPPORT. The decode table, the frame of a stream decode, and the scale word of a quantising instruction (R207 to R212). -/
namespace Sys2Proof.Machine

open Sys2Proof

/-! ## The decode table (R207) -/

theorem find_clearFrom (n : Nat) (m : SMap Word) (i : Nat) :
    SMap.find (clearFrom n m) i = if i < n then SMap.find m i else none := by
  induction m with
  | nil => simp [clearFrom, SMap.find]
  | cons q m ih =>
    obtain ⟨k, v⟩ := q
    have hc : clearFrom n ((k, v) :: m) = if k < n then (k, v) :: clearFrom n m else clearFrom n m := by
      simp only [clearFrom, List.filter_cons, decide_eq_true_eq]
    rw [hc]
    by_cases hk : k < n
    · rw [if_pos hk, SMap.find, SMap.find, ih]
      by_cases e : k = i
      · rw [if_pos e, if_pos e, if_pos (e ▸ hk)]
      · rw [if_neg e, if_neg e]
    · rw [if_neg hk, ih, SMap.find]
      by_cases hi : i < n
      · rw [if_pos hi, if_pos hi, if_neg (by omega)]
      · rw [if_neg hi, if_neg hi]

theorem get_clearFrom (n : Nat) (m : SMap Word) (i : Nat) :
    SMap.get 0 (clearFrom n m) i = if i < n then SMap.get 0 m i else 0 := by
  unfold SMap.get
  rw [find_clearFrom]
  split <;> rfl

/-- A piece replaces its 16 entries and no other (R207). -/
theorem get_putTable (m : SMap Word) (p : Nat × Nat) (j : Nat) :
    (SMap.get 0 (putTable p.1 p.2 m) j).toNat = if p.1 = j / 16 then elem p.2 (j % 16) 32 else (SMap.get 0 m j).toNat := by
  have hput : putTable p.1 p.2 m = ((List.range 16).map (fun q => (16 * p.1 + q, elem p.2 q 32))).foldl
      (fun z q => SMap.set 0 z q.1 (BitVec.ofNat 32 q.2)) m := by
    rw [List.foldl_map]; rfl
  have hset : ∀ (z : SMap Word) (q : Nat × Nat), (SMap.get 0 (SMap.set 0 z q.1 (BitVec.ofNat 32 q.2)) j).toNat
      = if q.1 = j then q.2 % 2 ^ 32 else (SMap.get 0 z j).toNat := by
    intro z q
    split
    · next h => rw [h, SMap.get_set_same, BitVec.toNat_ofNat]
    · next h => rw [SMap.get_set_other _ _ _ _ _ h]
  have hmem : ∀ q ∈ (List.range 16).map (fun q => (16 * p.1 + q, elem p.2 q 32)), ∃ r < 16, q = (16 * p.1 + r, elem p.2 r 32) := by
    intro q hq
    obtain ⟨r, hr, rfl⟩ := List.mem_map.mp hq
    exact ⟨r, List.mem_range.mp hr, rfl⟩
  rw [hput]
  by_cases h : p.1 = j / 16
  · have hown : 16 * p.1 + j % 16 = j := by omega
    rw [if_pos h, foldl_owned (fun z q => SMap.set 0 z q.1 (BitVec.ofNat 32 q.2)) (fun z => (SMap.get 0 z j).toNat) j
      (fun v => v % 2 ^ 32) hset _ m (elem p.2 (j % 16) 32)]
    · exact elem_mod _ _ _
    · exact List.mem_map.mpr ⟨_, List.mem_range.mpr (Nat.mod_lt _ (by decide)), by rw [hown]⟩
    · intro c hc
      obtain ⟨r, hr, e⟩ := hmem _ hc
      obtain ⟨e1, rfl⟩ := Prod.mk.inj e
      rw [show r = j % 16 by omega]
  · rw [if_neg h]
    refine foldl_unowned (fun z q => SMap.set 0 z q.1 (BitVec.ofNat 32 q.2)) (fun z => (SMap.get 0 z j).toNat) j
      (fun z q hq => by rw [hset, if_neg hq]) _ m (fun q hq => ?_)
    obtain ⟨r, hr, rfl⟩ := hmem q hq
    simp only
    omega

/-- The decode table after the pieces of a load of n entries (R207). -/
def loadedTable (u : State) (hk n : Nat) (as : List Acc) : SMap Word :=
  clearFrom n ((as.map (fun a => (a.idx, loadAcc u hk a))).foldl (fun m p => putTable p.1 p.2 m) (getHart u hk).dtab)

/-- What `xdtab` enters, as a step of a unit's load (R207). -/
def enterTable (hk n : Nat) (s : State) (as : List Acc) : State :=
  let vals := as.map (fun a => (a.idx, loadAcc s hk a))
  let last := as.any (fun a => a.idx + 1 == (4 * n + 63) / 64)
  modHart s hk (fun h =>
    let m := vals.foldl (fun m p => putTable p.1 p.2 m) h.dtab
    { h with dtab := if last then clearFrom n m else m })

theorem enterTable_all (u : State) (hk n : Nat) (as : List Acc) (h : ∃ a ∈ as, a.idx + 1 = (4 * n + 63) / 64) :
    enterTable hk n u as = setHart u hk { getHart u hk with dtab := loadedTable u hk n as } := by
  obtain ⟨a, ha, hi⟩ := h
  have hany : as.any (fun a => a.idx + 1 == (4 * n + 63) / 64) = true := List.any_eq_true.mpr ⟨a, ha, by simp [hi]⟩
  simp only [enterTable, hany, if_true, modHart]
  rfl

section
variable {s u : State} {b c : BitVec 7} {x y : DWord} {n : Nat} {as : List Acc}

/-- The body of `xdtab` once every piece has passed (R207). -/
theorem tableLoad_all (hb : readS (cur s) b = some x) (hc : readS (cur s) c = some y) (hy : y.toNat = n) (hn : n ≤ 512) (h0 : 0 < n)
    (hl : (cur s).lcnt < 63)
    (ha : checkAccs s s.cur .load 64 .scalar [] (pieces64 (cur s) x.toNat ((4 * n + 63) / 64)) = .all as u) :
    tableLoad b c s s.cur = unitLoad s.cur (enterTable s.cur n) (.all as u) := by
  subst hy
  have hb' : readS (getHart s s.cur) b = some x := hb
  have hc' : readS (getHart s s.cur) c = some y := hc
  have ha' : checkAccs s s.cur .load 64 .scalar [] (pieces64 (getHart s s.cur) x.toNat ((4 * y.toNat + 63) / 64)) = .all as u := ha
  have hfull : counterFull (getHart s s.cur) 1 = false := by simpa [counterFull, cur] using hl
  have hy0 : ¬ y = 0 := by rintro rfl; exact absurd h0 (by decide)
  simp only [tableLoad, hb', hc', if_neg (Nat.not_lt.mpr hn), if_neg hy0, hfull, if_neg Bool.false_ne_true, ha']
  rfl

/-- `xdtab` once every piece has passed: the table, and one operation issued (R207). -/
theorem xdtab_all (hr : SlotRuns s 0x4E 0) (hb : readS (cur s) b = some x) (hc : readS (cur s) c = some y) (hy : y.toNat = n)
    (hn : n ≤ 512) (h0 : 0 < n) (hl : (cur s).lcnt < 63) (hst : startElem (cur s) = 0)
    (ha : checkAccs s s.cur .load 64 .scalar [] (pieces64 (cur s) x.toNat ((4 * n + 63) / 64)) = .all as u)
    (hrf : refusals u s.cur .load as = []) :
    ∃ w m, exec (.xdtab b c) s = .next (completed s w) ∧ w.mem = s.mem ∧
      Issued s.cur (setHart u s.cur { getHart u s.cur with dtab := m }) w 1 [] ∧
      ∀ i, i < 512 → (n ≤ i → SMap.get 0 m i = 0) ∧ (i < n → ∃ acc ∈ as, acc.idx = i / 16 ∧
        acc.va = x + BitVec.ofNat 64 (64 * acc.idx) ∧
        (SMap.get 0 m i).toNat = elem (viewPieces u s.cur acc.va acc.pieces) (i % 16) 32) := by
  have hx : exec (.xdtab b c) s = .next (finishSlot s.cur (cur s).prefixLive (tableLoad b c s s.cur)) := runSlot_runs _ _ _ _ hr
  obtain ⟨w, hw, hmem, hiss⟩ := unitLoad_all s.cur (enterTable s.cur n) as u hrf
  have hlast : ∃ a ∈ as, a.idx + 1 = (4 * n + 63) / 64 := by
    obtain ⟨acc, hm, hi, -⟩ := piece_passed hst ha ((4 * n + 63) / 64 - 1) (by omega)
    exact ⟨acc, hm, by omega⟩
  rw [enterTable_all _ _ _ _ hlast] at hiss hmem
  rw [hx, tableLoad_all hb hc hy hn h0 hl ha, hw]
  refine ⟨w, _, rfl, hmem.trans (checkAccs_translated ha).mem, hiss, fun i _ => ⟨fun hi => ?_, fun hi => ?_⟩⟩
  · rw [loadedTable, get_clearFrom, if_neg (by omega)]
  · obtain ⟨acc, hm, he, hva, hu⟩ := piece_passed hst ha (i / 16) (by omega)
    refine ⟨acc, hm, he, by rw [hva, he], ?_⟩
    rw [loadedTable, get_clearFrom, if_pos hi, ← loadAcc_of_unrefused hrf acc hm]
    refine foldl_owned (fun m p => putTable p.1 p.2 m) (fun z => (SMap.get 0 z i).toNat) (i / 16) (fun v => elem v (i % 16) 32)
      (fun z p => get_putTable z p i) _ _ (loadAcc u s.cur acc) (List.mem_map.mpr ⟨acc, hm, by rw [he]⟩) (fun v hv => ?_)
    obtain ⟨a, ha, e⟩ := List.mem_map.mp hv
    obtain ⟨e1, rfl⟩ := Prod.mk.inj e
    rw [hu a ha e1]

end

/-! ## What a stream decode leaves unchanged (R208, R209) -/

/-- Reading a stream changes of a hart only the traps that wait for it, and no byte of memory and no vector register (R147, R209). -/
def Streamed (hk : Nat) (s t : State) : Prop :=
  t.mem = s.mem ∧ (getCore t (coreOf hk)).pool = (getCore s (coreOf hk)).pool ∧
  getHart t hk = { getHart s hk with st := (getHart t hk).st, grant := (getHart t hk).grant, async := (getHart t hk).async }

theorem Streamed.rfl (hk : Nat) (s : State) : Streamed hk s s := ⟨.refl _, .refl _, .refl _⟩

theorem Streamed.trans {hk : Nat} {s t u : State} (h : Streamed hk s t) (k : Streamed hk t u) : Streamed hk s u := by
  obtain ⟨hm, hp, hh⟩ := h
  obtain ⟨km, kp, kh⟩ := k
  exact ⟨km.trans hm, kp.trans hp, by rw [kh, hh]⟩

theorem Translated.streamed {s t : State} (h : Translated s t) (hk : Nat) : Streamed hk s t :=
  ⟨h.mem, by rw [h.core], by rw [h.hart]⟩

theorem streamed_modHart (s : State) (hk : Nat) (f : Hart → Hart)
    (hf : ∀ h, f h = { h with st := (f h).st, grant := (f h).grant, async := (f h).async }) : Streamed hk s (modHart s hk f) := by
  refine ⟨.refl _, .refl _, ?_⟩
  rw [modHart, getHart_setHart_same]
  exact hf _

theorem streamed_queueAsync (s : State) (hk : Nat) (a : Async) : Streamed hk s (queueAsync s hk a) := by
  have h1 : Streamed hk s (modHart s hk (fun h => { h with async := h.async ++ [a] })) := streamed_modHart s hk _ (fun _ => .refl _)
  unfold queueAsync
  simp only
  generalize modHart s hk (fun h => { h with async := h.async ++ [a] }) = s1 at h1 ⊢
  refine h1.trans ?_
  split
  · exact streamed_modHart s1 hk _ (fun _ => .refl _)
  · split
    · exact ⟨.refl _, .refl _, .refl _⟩
    · exact .rfl hk s1

/-- A look at stream bytes that ends with a value (R208). -/
theorem streamBytes_streamed {hk base n j v : Nat} {s t : State} (h : streamBytes hk base n j s = .ok v t) : Streamed hk s t := by
  induction n generalizing j v s t with
  | zero => obtain ⟨-, rfl⟩ := Peek.ok.inj h; exact .rfl hk s
  | succ n ih =>
    simp only [streamBytes] at h
    split at h
    · exact absurd h (by simp)
    · exact absurd h (by simp)
    · next ps u hu =>
      have h1 : Streamed hk s u := (elemCheck_ok hu).streamed hk
      split at h
      · next v' w hw =>
        obtain ⟨-, rfl⟩ := Peek.ok.inj h
        refine (h1.trans ?_).trans (ih hw)
        split
        · exact streamed_queueAsync _ _ _
        · exact (touchDirect_frame _ _ _ _ _ _).translated.streamed hk
      · next hno => exact absurd h (hno _ _)

theorem streamBits_streamed {hk base q n v : Nat} {s t : State} (h : streamBits hk base q n s = .ok v t) : Streamed hk s t := by
  simp only [streamBits] at h
  split at h
  · obtain ⟨-, rfl⟩ := Peek.ok.inj h; exact .rfl hk s
  · split at h
    · next v' w hw =>
      obtain ⟨-, rfl⟩ := Peek.ok.inj h
      exact streamBytes_streamed hw
    · next hno => exact absurd h (hno _ _)

/-- The state in which the decode of a symbol ends, but for a fault or a miss. -/
def Symbol.Ends (r : Symbol) (t : State) : Prop := (∃ v q, r = .sym v q t) ∨ ∃ st q, r = .stop st q t

theorem decodeSymbol_streamed {hk sb p fuel base k hops q : Nat} {s t : State}
    (h : (decodeSymbol hk sb p fuel base k hops q s).Ends t) : Streamed hk s t := by
  have stop : ∀ {u : State} {st q : Nat}, Symbol.Ends (.stop st q u) t → Streamed hk u t := by
    rintro u st q (⟨v, q', e⟩ | ⟨st', q', e⟩)
    · exact absurd e (by simp)
    · obtain ⟨-, -, rfl⟩ := Symbol.stop.inj e; exact .rfl hk _
  have other : ∀ {r : Symbol}, (∀ v q u, r ≠ .sym v q u) → (∀ st q u, r ≠ .stop st q u) → ¬ r.Ends t := by
    rintro r h1 h2 (⟨v, q', e⟩ | ⟨st', q', e⟩)
    · exact h1 _ _ _ e
    · exact h2 _ _ _ e
  induction fuel generalizing base k hops q s with
  | zero => exact stop h
  | succ fuel ih =>
    rw [decodeSymbol] at h
    split at h
    · exact stop h
    · split at h
      · exact absurd h (other (by simp) (by simp))
      · exact absurd h (other (by simp) (by simp))
      · next x u hu =>
        refine (streamBits_streamed hu).trans ?_
        simp only at h
        split at h
        · exact stop h
        · split at h
          · split at h
            · exact stop h
            · split at h
              · exact absurd h (other (by simp) (by simp))
              · exact absurd h (other (by simp) (by simp))
              · next y w hw =>
                refine (streamBits_streamed hw).trans ?_
                rcases h with ⟨v, q', e⟩ | ⟨st', q', e⟩
                · obtain ⟨-, -, rfl⟩ := Symbol.sym.inj e; exact .rfl hk _
                · exact absurd e (by simp)
          · split at h
            · split at h
              · exact stop h
              · exact ih h
            · exact stop h

/-- A stream decode that comes to its end (R208). -/
theorem decodeStream_streamed {hk sb k n p : Nat} {vals vs : List Nat} {st q : Nat} {s t : State}
    (h : decodeStream hk sb k n p vals s = .fin vs st q t) : Streamed hk s t := by
  induction n generalizing p vals s with
  | zero =>
    obtain ⟨-, -, -, rfl⟩ := Decoded.fin.inj h
    exact .rfl hk s
  | succ n ih =>
    rw [decodeStream] at h
    split at h
    · exact absurd h (by simp)
    · split at h
      · next hs => exact (decodeSymbol_streamed (.inl ⟨_, _, hs⟩)).trans (ih h)
      · next hs =>
        obtain ⟨-, -, -, rfl⟩ := Decoded.fin.inj h
        exact decodeSymbol_streamed (.inr ⟨_, _, hs⟩)
      · exact absurd h (by simp)
      · exact absurd h (by simp)

/-! ## xdec (R208, R209) -/

theorem readRun_congr {x y : Local} (h : ∀ n, readV1 x n = readV1 y n) (g n : Nat) : readRun x n g = readRun y n g := by
  induction g generalizing n with
  | zero => rfl
  | succ g ih => rw [readRun, readRun, h, ih]

/-- A group reads as before where a stream has been read. -/
theorem Streamed.readV {hk : Nat} {s t : State} (h : Streamed hk s t) (a : BitVec 7) (g : Nat) :
    readV (getLocal t hk) a g = readV (getLocal s hk) a g := by
  obtain ⟨-, hp, hh⟩ := h
  have hr : ∀ n, readRun (getLocal t hk) n g = readRun (getLocal s hk) n g := by
    refine fun n => readRun_congr (fun n => ?_) g n
    unfold readV1 getLocal
    simp only
    rw [hp, hh]
    rfl
  simp only [Machine.readV, hr]
  rw [show (getLocal t hk).h.oregs = (getLocal s hk).h.oregs from by unfold getLocal; rw [hh],
    show (getLocal t hk).h.q = (getLocal s hk).h.q from by unfold getLocal; rw [hh]]

/-- The destination of a complete `xdec` (R104, R208). -/
def symbolGroup (h : Hart) (old start : Nat) (vals : List Nat) : Nat :=
  if h.len = 0 then old else buildElems h.sew ((List.range (1024 * h.grp / h.sew)).map (fun i =>
    let o := elem old i h.sew
    if i < start then o
    else if i - start < vals.length then vals.getD (i - start) 0
    else (tailElem h).getD o))

theorem putSymbols_fin {x z : Local} {a : BitVec 7} {old start : Nat} {vals : List Nat} (ho : readV x a x.h.grp = some old)
    (hz : writeV x a x.h.grp (symbolGroup x.h old start vals) = some z) : putSymbols x a start vals true = some z := by
  simp only [putSymbols, ho, Option.bind_eq_bind, Option.bind_some]
  exact hz

theorem elem_symbolGroup (h : Hart) (old i : Nat) (vals : List Nat) (hi : i < 1024 * h.grp / h.sew) :
    elem (symbolGroup h old 0 vals) i h.sew = if h.vl = 0 then elem old i h.sew
      else if i < vals.length then vals.getD i 0 % 2 ^ h.sew else if h.tailz then 0 else elem old i h.sew := by
  have hl : h.len = 0 ↔ h.vl = 0 := by simp [Hart.len, BitVec.toNat_eq]
  unfold symbolGroup
  by_cases hv : h.vl = 0
  · rw [if_pos (hl.mpr hv), if_pos hv]
  · rw [if_neg (fun e => hv (hl.mp e)), if_neg hv, elem_buildElems, List.getD_eq_getElem?_getD, List.getElem?_map,
      List.getElem?_range hi, Option.map_some, Option.getD_some]
    simp only [Nat.not_lt_zero, if_false, Nat.sub_zero]
    by_cases hn : i < vals.length
    · rw [if_pos hn, if_pos hn]
    · rw [if_neg hn, if_neg hn, tailElem_getD, tailLeft]
      split <;> simp

section
variable {s u : State} {a b c : BitVec 7} {x y : DWord} {vals : List Nat} {st q old : Nat}

theorem xdec_fin (hr : SlotRuns s 0x4E 1) (h8 : 8 ≤ (cur s).sew) (h32 : (cur s).sew ≤ 32) (hres : (cur s).curConv.resumed = false)
    (hb : readS (cur s) b = some x) (hc : readS (cur s) c = some y) (hd : sDest c = true) (ha : a.toNat < 112 ∨ a.toNat = 127)
    (ho : readV (curLocal s) a (cur s).grp = some old)
    (hf : decodeStream s.cur x.toNat ((bits (cur s).xcfg 3 0) + 1) (cur s).len (y.toNat % 2 ^ 48) [] s = .fin vals st q u) :
    ∃ z V, writeV (getLocal u s.cur) a (cur s).grp V = some z ∧ u.mem = s.mem ∧
      exec (.xdec a b c) s = .next (completed s (setLocal u s.cur { z with
        h := z.h.result c (BitVec.ofNat 64 (st * 2 ^ 62 + vals.length % 2 ^ 14 * 2 ^ 48 + q)) })) ∧
      ∀ i, i < 1024 * (cur s).grp / (cur s).sew → elem V i (cur s).sew =
        if (cur s).vl = 0 then elem old i (cur s).sew
        else if i < vals.length then vals.getD i 0 % 2 ^ (cur s).sew
        else if (cur s).tailz then 0 else elem old i (cur s).sew := by
  have hx : exec (.xdec a b c) s = .next (finishSlot s.cur (cur s).prefixLive (streamDecode a b c s s.cur)) := runSlot_runs _ _ _ _ hr
  have hs := decodeStream_streamed hf
  have hou : readV (getLocal u s.cur) a (getLocal u s.cur).h.grp = some old := by
    have hg : (getLocal u s.cur).h.grp = (cur s).grp := by
      unfold getLocal
      simp only
      rw [hs.2.2]
      rfl
    rw [hs.readV, hg]
    exact ho
  have hh : ∀ vs, symbolGroup (getLocal u s.cur).h old 0 vs = symbolGroup (cur s) old 0 vs := by
    intro vs
    unfold getLocal
    simp only
    rw [hs.2.2]
    rfl
  obtain ⟨z, hz, -⟩ := writeV_of_readV (getLocal u s.cur) a _ (symbolGroup (getLocal u s.cur).h old 0 vals) old hou ha
  obtain ⟨z0, hz0, -⟩ := writeV_of_readV (getLocal s s.cur) a _ (symbolGroup (cur s) old 0 []) old ho ha
  have hp := putSymbols_fin hou hz
  have hp0 : putSymbols (getLocal s s.cur) a 0 [] true = some z0 := putSymbols_fin ho hz0
  have hst : startElem (getLocal s s.cur).h = 0 := by rw [startElem, show (getLocal s s.cur).h.curConv.resumed = false from hres]; rfl
  have hf' : decodeStream s.cur x.toNat (getLocal s s.cur).h.peekW ((getLocal s s.cur).h.len - 0) (y.toNat % 2 ^ 48) [] s
      = .fin vals st q u := hf
  have hbody : streamDecode a b c s s.cur = .done (setLocal u s.cur { z with
      h := z.h.result c (BitVec.ofNat 64 (st * 2 ^ 62 + (0 + vals.length) % 2 ^ 14 * 2 ^ 48 + q)) }) := by
    have hop : (8 ≤ (getLocal s s.cur).h.sew ∧ (getLocal s s.cur).h.sew ≤ 32 ∧ sDest c = true) := ⟨h8, h32, hd⟩
    have hb' : readS (getLocal s s.cur).h b = some x := hb
    have hc' : readS (getLocal s s.cur).h c = some y := hc
    have hres' : (getLocal s s.cur).h.curConv.resumed = false := hres
    simp only [streamDecode, guard, hop, and_self, if_true, hb', hc', hp0, Option.bind_eq_bind, Option.bind_some, Option.pure_def, hst,
      hres', if_neg Bool.false_ne_true, hf', hp]
  refine ⟨z, _, ?_, hs.1, by rw [hx, hbody, Nat.zero_add]; rfl, fun i hi => elem_symbolGroup (cur s) old i vals hi⟩
  rw [← hh]
  have hg : (getLocal u s.cur).h.grp = (cur s).grp := by
    unfold getLocal
    simp only
    rw [hs.2.2]
    rfl
  rw [← hg]
  exact hz

end

end Sys2Proof.Machine
end

section
/-! SUPPORT. Quantisation against a scale word in memory (R210 to R212). -/
namespace Sys2Proof.Machine

open Sys2Proof

theorem Translated.getLocal {s t : State} (h : Translated s t) (hk : Nat) : getLocal t hk = getLocal s hk := by
  unfold Machine.getLocal
  rw [h.hart, h.core]

section
variable {s u v : State} {a b c : BitVec 7} {x : DWord} {p wd l : Nat} {e : Word}

/-- The source of a conversion whose destination has a place beside it (R106). -/
theorem source1_of_dest (hd : DestReady s a b wd) (hp : readV (curLocal s) b (cur s).grp = some p) :
    source1 (curLocal s) a b wd = some p := by
  obtain ⟨-, -, g, n, d, hs, -, ho⟩ := hd
  have hs' : destShape (curLocal s).h wd = some (g, n) := hs
  have ho' : overlapOk (decide (wd = (curLocal s).h.sew)) a g b (curLocal s).h.grp = true := ho
  simp only [source1, hs', Option.bind_eq_bind, Option.bind_some, guard, ho', if_true]
  exact hp

/-- A conversion to a destination that is ready completes (R106). -/
theorem vApply_of_dest (hd : DestReady s a b wd) (f : Nat → Res) : ∃ y, vApply (curLocal s) a wd f = some y := by
  obtain ⟨hm, ha, g, n, d, hs, hr, -⟩ := hd
  obtain ⟨v, l, z, -, hz, -⟩ := vApply_spec (curLocal s) a wd g n d f hs hm hr ha
  exact ⟨z, hz⟩

theorem quantWord_some (h1 : bits e 31 16 = 0) (h2 : bits e 11 3 = 0) (h3 : bits e 2 0 ≠ 7) :
    quantWord e = some (bits e 15 12, bits e 2 0) := by
  rw [quantWord, if_neg (by omega)]

/-- The scale word of a conversion alone is read (R210). -/
theorem withScale_load {k : DWord → Acc → State → SlotRes} {ps : List (Nat × Nat)} (hc : readS (cur s) c = some x)
    (hl : (cur s).lcnt < 63) (hu : elemCheck s (agentOf s s.cur) .load x 8 8 .scalar = .ok ps u) :
    withScale c false s s.cur k = k x ⟨0, x, 8, ps⟩ u := by
  have hc' : readS (getHart s s.cur) c = some x := hc
  have hfull : counterFull (getHart s s.cur) 1 = false := by simpa [counterFull, cur] using hl
  simp only [withScale, hc', hfull, if_neg Bool.false_ne_true, hu]

/-- The scale word is read, and its second half is to be folded into (R210, R211). -/
theorem withScale_fold {k : DWord → Acc → State → SlotRes} {ps qs : List (Nat × Nat)} (hc : readS (cur s) c = some x)
    (hl : (cur s).lcnt < 63) (hu : elemCheck s (agentOf s s.cur) .load x 8 8 .scalar = .ok ps u)
    (hv : elemCheck u (agentOf u s.cur) .atomic x 8 8 .scalar = .ok qs v) : withScale c true s s.cur k = k x ⟨0, x, 8, qs⟩ v := by
  have hc' : readS (getHart s s.cur) c = some x := hc
  have hfull : counterFull (getHart s s.cur) 1 = false := by simpa [counterFull, cur] using hl
  simp only [withScale, hc', hfull, if_neg Bool.false_ne_true, hu, if_true, hv]

/-- The magnitudes of the active elements that are no NaN (R211). -/
def magsOf (h : Hart) (p : Nat) : List Nat :=
  (((List.range h.len).filter h.selBit).map (fun i => elem p i 32 % 2 ^ 31)).filter (fun m => decide (m ≤ 0x7F800000))

theorem largestMag_eq (x : Local) (p : Nat) : largestMag x p = if magsOf x.h p = [] then none else some ((magsOf x.h p).foldl max 0) := by
  unfold largestMag
  simp only [List.isEmpty_iff]
  rfl

/-- With the scale word not refused, its value is what the hart's task sees. -/
theorem scale_unrefused {acc : Acc} (hr : accRefusal u s.cur .load acc = none) :
    refusals u s.cur .load [acc] = [] ∧ loadAcc u s.cur acc = viewPieces u s.cur acc.va acc.pieces := by
  refine ⟨by simp [refusals, hr], by simp [loadAcc, hr]⟩

/-- The state once a group has been converted and the read of its scale issued (R210 to R212). -/
def scaleLoaded (u : State) (hk : Nat) (y : Local) (acc : Acc) (scope : Nat) (dest : List RegName) : State :=
  issueOp (touchAccs (setLocal u hk y) hk scope false false [acc])
    { opOf u hk 1 scope [acc] [] with dest := dest, fabric := loadRemote u hk (scalePart acc 0) }

theorem scaleLoaded_issued {y : Local} {acc : Acc} {scope : Nat} (dest : List RegName) (hu : Translated s u) :
    (scaleLoaded u s.cur y acc scope dest).mem = s.mem ∧ Issued s.cur (setLocal u s.cur y) (scaleLoaded u s.cur y acc scope dest) 1 [] := by
  have ht := touchAccs_frame (setLocal u s.cur y) s.cur scope false false [acc]
  exact ⟨by rw [scaleLoaded, issueOp_mem, ht.mem]; exact hu.mem, issueOp_issued (setLocal u s.cur y) _ s.cur _ ht rfl rfl (.inl rfl)⟩

/-- The width that a DST code of `xquant` names (R210). -/
theorem quantWidth (hdst : (bits e 15 12, wd) ∈ [(0, 4), (1, 8), (2, 16)]) : bits e 15 12 ≤ 2 ∧ 4 * 2 ^ bits e 15 12 = wd := by
  simp only [List.mem_cons, Prod.mk.injEq, List.not_mem_nil, or_false] at hdst
  rcases hdst with ⟨h, rfl⟩ | ⟨h, rfl⟩ | ⟨h, rfl⟩ <;> rw [h] <;> decide

/-- `xquant` where no active element is a number: the group, and the read of the scale (R211). -/
theorem xquant_plain (hr : SlotRuns s 0x4F 0) (he : quantWord e = some (bits e 15 12, bits e 2 0))
    (hdst : (bits e 15 12, wd) ∈ [(0, 4), (1, 8), (2, 16)]) (hsew : (cur s).sew = 32) (hd : DestReady s a b wd)
    (hp : readV (curLocal s) b (cur s).grp = some p) (hm : magsOf (cur s) p = []) (hc : readS (cur s) c = some x)
    (hl : (cur s).lcnt < 63) (hu : elemCheck s (agentOf s s.cur) .load x 8 8 .scalar = .ok [(l, 8)] u)
    (hrf : accRefusal u s.cur .load ⟨0, x, 8, [(l, 8)]⟩ = none) :
    ∃ y w, vApply (getLocal u s.cur) a wd (fun i => quantElem wd (elem p i 32) (viewPieces u s.cur x [(l, 8)] % 2 ^ 32)) = some y ∧
      exec (.xquant a b c e) s = .next (completed s w) ∧ w.mem = s.mem ∧ Issued s.cur (setLocal u s.cur y) w 1 [] := by
  have hx : exec (.xquant a b c e) s = .next (finishSlot s.cur (cur s).prefixLive (quantise a b c e s s.cur)) := runSlot_runs _ _ _ _ hr
  have htr := elemCheck_ok hu
  obtain ⟨y, hy⟩ := vApply_of_dest hd (fun i => quantElem wd (elem p i 32) (viewPieces u s.cur x [(l, 8)] % 2 ^ 32))
  obtain ⟨y0, hy0⟩ := vApply_of_dest hd (fun _ => zeroRes)
  obtain ⟨hw, rfl⟩ := quantWidth hdst
  obtain ⟨hrf', hload⟩ := scale_unrefused hrf
  have hyu : vApply (getLocal u s.cur) a (4 * 2 ^ bits e 15 12)
      (fun i => quantElem (4 * 2 ^ bits e 15 12) (elem p i 32) (viewPieces u s.cur x [(l, 8)] % 2 ^ 32)) = some y := by
    rw [htr.getLocal]; exact hy
  have hsrc : source1 (getLocal s s.cur) a b (4 * 2 ^ bits e 15 12) = some p := source1_of_dest hd hp
  have hy0' : vApply (getLocal s s.cur) a (4 * 2 ^ bits e 15 12) (fun _ => zeroRes) = some y0 := hy0
  have hsew' : (getLocal s s.cur).h.sew = 32 := hsew
  have hmag : largestMag (getLocal s s.cur) p = none := by rw [largestMag_eq, show magsOf (getLocal s s.cur).h p = [] from hm]; rfl
  obtain ⟨hmem, hiss⟩ := scaleLoaded_issued (y := y) (acc := ⟨0, x, 8, [(l, 8)]⟩) (scope := bits e 2 0)
    (destRegs (getLocal s s.cur).h a (4 * 2 ^ bits e 15 12)) htr
  refine ⟨y, _, hyu, ?_, hmem, hiss⟩
  rw [hx]
  have hbody : quantise a b c e s s.cur = .done (scaleLoaded u s.cur y ⟨0, x, 8, [(l, 8)]⟩ (bits e 2 0)
      (destRegs (getLocal s s.cur).h a (4 * 2 ^ bits e 15 12))) := by
    simp only [quantise, he, hw, hsew', hsrc, hy0', guard, and_self, if_true, Option.bind_eq_bind, Option.bind_some, Option.pure_def,
      hmag, Option.isSome_none]
    rw [withScale_load hc hl hu]
    simp only [hrf', hload, List.isEmpty_nil, if_true, hyu]
    rfl
  rw [hbody]
  rfl

/-- `xquant` with a magnitude to fold into the maximum: the group, the fold, and one operation (R211). -/
theorem xquant_fold (hr : SlotRuns s 0x4F 0) (he : quantWord e = some (bits e 15 12, bits e 2 0))
    (hdst : (bits e 15 12, wd) ∈ [(0, 4), (1, 8), (2, 16)]) (hsew : (cur s).sew = 32) (hd : DestReady s a b wd)
    (hp : readV (curLocal s) b (cur s).grp = some p) (hm : magsOf (cur s) p ≠ []) (hc : readS (cur s) c = some x)
    (hl : (cur s).lcnt < 63) {ps : List (Nat × Nat)} (hu : elemCheck s (agentOf s s.cur) .load x 8 8 .scalar = .ok ps u)
    (hv : elemCheck u (agentOf u s.cur) .atomic x 8 8 .scalar = .ok [(l, 8)] v)
    (hrf : accRefusal v s.cur .load ⟨0, x, 8, [(l, 8)]⟩ = none) :
    ∃ y, vApply (getLocal v s.cur) a wd (fun i => quantElem wd (elem p i 32) (viewPieces v s.cur x [(l, 8)] % 2 ^ 32)) = some y ∧
      ∀ o, atomicStep 6 (setLocal v s.cur y) s.cur ⟨0, x + 4, 4, [(l + 4, 4)]⟩ ((magsOf (cur s) p).foldl max 0) 0 = some o →
        ∃ w, exec (.xquant a b c e) s = .next (completed s w) ∧ w.mem = o.1.mem ∧ IssuedWith s.cur o.1 w 1 []
          (refusals (setLocal v s.cur y) s.cur .atomic [⟨0, x + 4, 4, [(l + 4, 4)]⟩]) := by
  have hx : exec (.xquant a b c e) s = .next (finishSlot s.cur (cur s).prefixLive (quantise a b c e s s.cur)) := runSlot_runs _ _ _ _ hr
  have htr := (elemCheck_ok hu).trans (elemCheck_ok hv)
  obtain ⟨y, hy⟩ := vApply_of_dest hd (fun i => quantElem wd (elem p i 32) (viewPieces v s.cur x [(l, 8)] % 2 ^ 32))
  obtain ⟨y0, hy0⟩ := vApply_of_dest hd (fun _ => zeroRes)
  obtain ⟨hw, rfl⟩ := quantWidth hdst
  obtain ⟨hrf', hload⟩ := scale_unrefused hrf
  have hyv : vApply (getLocal v s.cur) a (4 * 2 ^ bits e 15 12)
      (fun i => quantElem (4 * 2 ^ bits e 15 12) (elem p i 32) (viewPieces v s.cur x [(l, 8)] % 2 ^ 32)) = some y := by
    rw [htr.getLocal]; exact hy
  have hsrc : source1 (getLocal s s.cur) a b (4 * 2 ^ bits e 15 12) = some p := source1_of_dest hd hp
  have hy0' : vApply (getLocal s s.cur) a (4 * 2 ^ bits e 15 12) (fun _ => zeroRes) = some y0 := hy0
  have hsew' : (getLocal s s.cur).h.sew = 32 := hsew
  have hmag : largestMag (getLocal s s.cur) p = some ((magsOf (cur s) p).foldl max 0) := by
    rw [largestMag_eq]; exact if_neg hm
  have hhalf : scalePart ⟨0, x, 8, [(l, 8)]⟩ 4 = ⟨0, x + 4, 4, [(l + 4, 4)]⟩ := rfl
  refine ⟨y, hyv, fun o ho => ?_⟩
  have ht := touchDirect_frame o.1 s.cur (bits e 2 0) true false [⟨0, x, 8, [(l, 8)]⟩]
  set op : Op := { opOf v s.cur 1 (bits e 2 0) [⟨0, x, 8, [(l, 8)]⟩]
      (refusals (setLocal v s.cur y) s.cur .atomic [⟨0, x + 4, 4, [(l + 4, 4)]⟩]) with
    dest := destRegs (getLocal s s.cur).h a (4 * 2 ^ bits e 15 12),
    fabric := loadRemote v s.cur (scalePart ⟨0, x, 8, [(l, 8)]⟩ 0)
      ++ atomicRemote 6 (setLocal v s.cur y) s.cur ⟨0, x + 4, 4, [(l + 4, 4)]⟩ ((magsOf (cur s) p).foldl max 0) 0 } with hop
  refine ⟨issueOp (touchDirect o.1 s.cur (bits e 2 0) true false [⟨0, x, 8, [(l, 8)]⟩]) op, ?_, by rw [issueOp_mem, ht.mem],
    issueOp_issued o.1 _ s.cur op ht rfl rfl (.inl rfl)⟩
  rw [hx]
  have hbody : quantise a b c e s s.cur
      = .done (issueOp (touchDirect o.1 s.cur (bits e 2 0) true false [⟨0, x, 8, [(l, 8)]⟩]) op) := by
    simp only [quantise, he, hw, hsew', hsrc, hy0', guard, and_self, if_true, Option.bind_eq_bind, Option.bind_some, Option.pure_def,
      hmag, Option.isSome_some]
    rw [withScale_fold hc hl hu hv]
    simp only [hrf', hload, List.isEmpty_nil, if_true, hyv, hhalf, ho]
    rfl
  rw [hbody]
  rfl

/-- `xdequant`: the group, and the read of the scale (R212). -/
theorem xdequant_plain {m : Fmt} (hr : SlotRuns s 0x4F 1) (he : quantWord e = some (bits e 15 12, bits e 2 0))
    (hdst : (bits e 15 12, m) ∈ [(1, f32), (2, f16), (3, bf16)]) (hsew : (cur s).sew ≤ 16) (hd : DestReady s a b m.width)
    (hp : readV (curLocal s) b (cur s).grp = some p) (hc : readS (cur s) c = some x)
    (hl : (cur s).lcnt < 63) (hu : elemCheck s (agentOf s s.cur) .load x 8 8 .scalar = .ok [(l, 8)] u)
    (hrf : accRefusal u s.cur .load ⟨0, x, 8, [(l, 8)]⟩ = none) :
    ∃ y w, vApply (getLocal u s.cur) a m.width (fun i =>
        let z := toSigned (cur s).sew (elem p i (cur s).sew)
        sumF m [mulTerm (.fin (decide (z < 0)) z.natAbs 0) (decodeF f32 (viewPieces u s.cur x [(l, 8)] % 2 ^ 32))]) = some y ∧
      exec (.xdequant a b c e) s = .next (completed s w) ∧ w.mem = s.mem ∧ Issued s.cur (setLocal u s.cur y) w 1 [] := by
  have hx : exec (.xdequant a b c e) s = .next (finishSlot s.cur (cur s).prefixLive (dequantise a b c e s s.cur)) := runSlot_runs _ _ _ _ hr
  have htr := elemCheck_ok hu
  obtain ⟨y, hy⟩ := vApply_of_dest hd (fun i =>
    let z := toSigned (cur s).sew (elem p i (cur s).sew)
    sumF m [mulTerm (.fin (decide (z < 0)) z.natAbs 0) (decodeF f32 (viewPieces u s.cur x [(l, 8)] % 2 ^ 32))])
  obtain ⟨y0, hy0⟩ := vApply_of_dest hd (fun _ => zeroRes)
  obtain ⟨hrf', hload⟩ := scale_unrefused hrf
  have hfmt : dequantFmt (bits e 15 12) = some m := by
    simp only [List.mem_cons, Prod.mk.injEq, List.not_mem_nil, or_false] at hdst
    rcases hdst with ⟨h, rfl⟩ | ⟨h, rfl⟩ | ⟨h, rfl⟩ <;> rw [h] <;> rfl
  have hyu := hy
  rw [← show getLocal u s.cur = curLocal s from htr.getLocal s.cur] at hyu
  have hsrc : source1 (getLocal s s.cur) a b m.width = some p := source1_of_dest hd hp
  have hy0' : vApply (getLocal s s.cur) a m.width (fun _ => zeroRes) = some y0 := hy0
  have hsew' : (getLocal s s.cur).h.sew ≤ 16 := hsew
  obtain ⟨hmem, hiss⟩ := scaleLoaded_issued (y := y) (acc := ⟨0, x, 8, [(l, 8)]⟩) (scope := bits e 2 0)
    (destRegs (getLocal s s.cur).h a m.width) htr
  refine ⟨y, _, hyu, ?_, hmem, hiss⟩
  rw [hx]
  have hbody : dequantise a b c e s s.cur = .done (scaleLoaded u s.cur y ⟨0, x, 8, [(l, 8)]⟩ (bits e 2 0)
      (destRegs (getLocal s s.cur).h a m.width)) := by
    simp only [dequantise, he, hfmt, hsew', hsrc, hy0', guard, if_true, Option.bind_eq_bind, Option.bind_some, Option.pure_def]
    rw [withScale_load hc hl hu]
    have hyu' : vApply (getLocal u s.cur) a m.width (fun i => sumF m [mulTerm
        (.fin (decide (toSigned (getLocal s s.cur).h.sew (elem p i (getLocal s s.cur).h.sew) < 0))
          (toSigned (getLocal s s.cur).h.sew (elem p i (getLocal s s.cur).h.sew)).natAbs 0)
        (decodeF f32 (viewPieces u s.cur x [(l, 8)] % 2 ^ 32))]) = some y := hyu
    simp only [hrf', hload, List.isEmpty_nil, if_true, hyu']
    rfl
  rw [hbody]
  rfl

end

end Sys2Proof.Machine
end

section
/-! SUPPORT. Stream decode against a readable stream: the bits it looks at, the links of a symbol, and the symbols of a run (R208,
R209). -/
namespace Sys2Proof.Machine

open Sys2Proof

/-- The first N bytes of the stream at sb can be read from every state of P, byte j with value `Y j`; reading keeps P (R208). -/
def StreamReads (hk sb N : Nat) (P : State → Prop) (Y : Nat → Nat) : Prop :=
  ∀ v j, P v → j < N → ∃ ps w, elemCheck v (agentOf v hk) .load (BitVec.ofNat 64 (sb + j)) 1 1 .gather = .ok ps w ∧
    accRefusal w hk .load ⟨0, BitVec.ofNat 64 (sb + j), 1, ps⟩ = none ∧
    viewPieces w hk (BitVec.ofNat 64 (sb + j)) ps = Y j ∧ Y j < 256 ∧
    P (touchDirect w hk 0 false false [⟨0, BitVec.ofNat 64 (sb + j), 1, ps⟩])

/-- `B q n` is the number that bits q to q + n - 1 of the stream make (R208). -/
def StreamBits (Y : Nat → Nat) (B : Nat → Nat → Nat) : Prop :=
  ∀ q n i, (B q n).testBit i = (decide (i < n) && (Y ((q % 2 ^ 48 + i) / 8)).testBit ((q % 2 ^ 48 + i) % 8))

/-- Bits q to q + n - 1 lie in the first N bytes. -/
def InStream (N q n : Nat) : Prop := q % 2 ^ 48 + n ≤ 8 * N

section
variable {hk sb N : Nat} {P : State → Prop} {Y : Nat → Nat} {B : Nat → Nat → Nat}

/-- Bytes j to j + n - 1 of the stream, the first in the least significant bits (R208). -/
theorem streamBytes_reads (hN : N ≤ 2 ^ 45) (hY : StreamReads hk sb N P Y) (n j : Nat) (v : State) (hv : P v) (hj : j + n ≤ N) :
    ∃ x w, streamBytes hk sb n j v = .ok x w ∧ P w ∧ ∀ i, i < 8 * n → x.testBit i = (Y (j + i / 8)).testBit (i % 8) := by
  induction n generalizing j v with
  | zero => exact ⟨0, v, rfl, hv, fun i hi => absurd hi (Nat.not_lt_zero _)⟩
  | succ n ih =>
    obtain ⟨ps, w, hc, hr, hview, hlt, hw⟩ := hY v j hv (by omega)
    obtain ⟨x, u, hx, hu, hbits⟩ := ih (j + 1) _ hw (by omega)
    have hmod : j % 2 ^ 45 = j := Nat.mod_eq_of_lt (by omega)
    have hload : loadAcc w hk ⟨0, BitVec.ofNat 64 (sb + j), 1, ps⟩ = Y j := by simp [loadAcc, hr, hview]
    refine ⟨Y j + 256 * x, u, ?_, hu, fun i hi => ?_⟩
    · simp only [streamBytes, hmod, hc, hr, hx, hload]
    · rw [Nat.add_comm, show (256 : Nat) = 2 ^ 8 from rfl, Nat.testBit_two_pow_mul_add _ hlt]
      split
      · next h => rw [Nat.div_eq_of_lt h, Nat.mod_eq_of_lt h, Nat.add_zero]
      · next h =>
        rw [hbits (i - 8) (by omega), show j + 1 + (i - 8) / 8 = j + i / 8 by omega, show (i - 8) % 8 = i % 8 by omega]

/-- Bits within the readable stream (R208). -/
theorem streamBits_reads (hN : N ≤ 2 ^ 45) (hY : StreamReads hk sb N P Y) (hB : StreamBits Y B) (q n : Nat) (v : State) (hv : P v)
    (hq : InStream N q n) : ∃ w, streamBits hk sb q n v = .ok (B q n) w ∧ P w := by
  unfold InStream at hq
  by_cases hn : n = 0
  · subst hn
    have h0 : B q 0 = 0 := Nat.eq_of_testBit_eq (fun i => by rw [hB]; simp)
    exact ⟨v, by simp [streamBits, h0], hv⟩
  · obtain ⟨x, w, hx, hw, hbits⟩ := streamBytes_reads hN hY ((q % 2 ^ 48 % 8 + n + 7) / 8) (q % 2 ^ 48 / 8) v hv (by omega)
    have hval : (x >>> (q % 2 ^ 48 % 8)) % 2 ^ n = B q n := by
      refine Nat.eq_of_testBit_eq (fun i => ?_)
      rw [hB, Nat.testBit_mod_two_pow, Nat.testBit_shiftRight]
      by_cases hi : i < n
      · rw [hbits _ (by omega), show q % 2 ^ 48 / 8 + (q % 2 ^ 48 % 8 + i) / 8 = (q % 2 ^ 48 + i) / 8 by omega,
          show (q % 2 ^ 48 % 8 + i) % 8 = (q % 2 ^ 48 + i) % 8 by omega]
      · simp [hi]
    exact ⟨w, by simp only [streamBits, if_neg hn, hx, hval], hw⟩

/-- The table is the same in every state of P. -/
def TableKept (hk : Nat) (P : State → Prop) (s : State) : Prop := ∀ v, P v → (getHart v hk).dtab = (getHart s hk).dtab

/-- The entry that a look at the stream finds (R208). -/
def entryOf (s : State) (hk : Nat) (B : Nat → Nat → Nat) (base k q : Nat) : Word := SMap.get 0 (getHart s hk).dtab (base + B q k)

section
variable {s : State} {p fuel base k hops q : Nat} {v : State}

/-- A table that would leave its 512 entries is bad (R208). -/
theorem decodeSymbol_outside (hb : 512 < base + 2 ^ k) :
    decodeSymbol hk sb p (fuel + 1) base k hops q v = .stop 2 p v := by
  rw [decodeSymbol, if_pos (by omega)]

/-- What follows a look at a table (R208). -/
theorem decodeSymbol_look (hN : N ≤ 2 ^ 45) (hY : StreamReads hk sb N P Y) (hB : StreamBits Y B) (hT : TableKept hk P s) (hv : P v)
    (hb : base + 2 ^ k ≤ 512) (hq : InStream N q k) : ∃ w, P w ∧ decodeSymbol hk sb p (fuel + 1) base k hops q v =
      if bits (entryOf s hk B base k q) 31 30 = 0 ∨ bits (entryOf s hk B base k q) 29 25 > k then .stop 2 p w
      else if bits (entryOf s hk B base k q) 31 30 = 1 then
        (if bits (entryOf s hk B base k q) 29 25 = 0 then .stop 2 p w
         else match streamBits hk sb (q + bits (entryOf s hk B base k q) 29 25) (bits (entryOf s hk B base k q) 24 21) w with
          | .fault c i f u => .fault c i f u
          | .miss u => .miss u
          | .ok y u => .sym (bits (entryOf s hk B base k q) 15 0 + y)
              (q + bits (entryOf s hk B base k q) 29 25 + bits (entryOf s hk B base k q) 24 21) u)
      else if bits (entryOf s hk B base k q) 31 30 = 2 then
        (if bits (entryOf s hk B base k q) 24 21 < 1 ∨ bits (entryOf s hk B base k q) 24 21 > 9 ∨ hops = 4 then .stop 2 p w
         else decodeSymbol hk sb p fuel (bits (entryOf s hk B base k q) 8 0) (bits (entryOf s hk B base k q) 24 21) (hops + 1)
           (q + bits (entryOf s hk B base k q) 29 25) w)
      else .stop 1 (q + bits (entryOf s hk B base k q) 29 25) w := by
  obtain ⟨w, hw, hp⟩ := streamBits_reads hN hY hB q k v hv hq
  refine ⟨w, hp, ?_⟩
  rw [decodeSymbol, if_neg (by have := Nat.two_pow_pos k; omega)]
  simp only [hw, hT w hp] <;> rfl

/-- A link leads on to its sub-table (R208). -/
theorem decodeSymbol_link (hN : N ≤ 2 ^ 45) (hY : StreamReads hk sb N P Y) (hB : StreamBits Y B) (hT : TableKept hk P s) (hv : P v)
    (hb : base + 2 ^ k ≤ 512) (hq : InStream N q k) (hl : bits (entryOf s hk B base k q) 29 25 ≤ k)
    (hkind : bits (entryOf s hk B base k q) 31 30 = 2) (h1 : 1 ≤ bits (entryOf s hk B base k q) 24 21)
    (h9 : bits (entryOf s hk B base k q) 24 21 ≤ 9) (hh : hops < 4) : ∃ w, P w ∧ decodeSymbol hk sb p (fuel + 1) base k hops q v
      = decodeSymbol hk sb p fuel (bits (entryOf s hk B base k q) 8 0) (bits (entryOf s hk B base k q) 24 21) (hops + 1)
          (q + bits (entryOf s hk B base k q) 29 25) w := by
  obtain ⟨w, hw, hd⟩ := decodeSymbol_look (p := p) (fuel := fuel) (hops := hops) hN hY hB hT hv hb hq
  refine ⟨w, hw, hd.trans ?_⟩
  rw [if_neg (by omega), if_neg (by omega), if_pos hkind, if_neg (by omega)]

/-- A symbol entry gives its value and the raw bits behind the code (R208). -/
theorem decodeSymbol_symbol (hN : N ≤ 2 ^ 45) (hY : StreamReads hk sb N P Y) (hB : StreamBits Y B) (hT : TableKept hk P s) (hv : P v)
    (hb : base + 2 ^ k ≤ 512) (hq : InStream N q k) (hl : bits (entryOf s hk B base k q) 29 25 ≤ k)
    (hkind : bits (entryOf s hk B base k q) 31 30 = 1) (h0 : bits (entryOf s hk B base k q) 29 25 ≠ 0)
    (hx : InStream N (q + bits (entryOf s hk B base k q) 29 25) (bits (entryOf s hk B base k q) 24 21)) :
    ∃ w, P w ∧ decodeSymbol hk sb p (fuel + 1) base k hops q v = .sym (bits (entryOf s hk B base k q) 15 0
      + B (q + bits (entryOf s hk B base k q) 29 25) (bits (entryOf s hk B base k q) 24 21))
      (q + bits (entryOf s hk B base k q) 29 25 + bits (entryOf s hk B base k q) 24 21) w := by
  obtain ⟨w, hw, hd⟩ := decodeSymbol_look (p := p) (fuel := fuel) (hops := hops) hN hY hB hT hv hb hq
  obtain ⟨u, hu, hpu⟩ := streamBits_reads hN hY hB _ _ w hw hx
  refine ⟨u, hpu, hd.trans ?_⟩
  rw [if_neg (by omega), if_pos hkind, if_neg h0, hu]

/-- An end entry stops the decode after its code (R208). -/
theorem decodeSymbol_end (hN : N ≤ 2 ^ 45) (hY : StreamReads hk sb N P Y) (hB : StreamBits Y B) (hT : TableKept hk P s) (hv : P v)
    (hb : base + 2 ^ k ≤ 512) (hq : InStream N q k) (hl : bits (entryOf s hk B base k q) 29 25 ≤ k)
    (hkind : bits (entryOf s hk B base k q) 31 30 = 3) :
    ∃ w, P w ∧ decodeSymbol hk sb p (fuel + 1) base k hops q v = .stop 1 (q + bits (entryOf s hk B base k q) 29 25) w := by
  obtain ⟨w, hw, hd⟩ := decodeSymbol_look (p := p) (fuel := fuel) (hops := hops) hN hY hB hT hv hb hq
  refine ⟨w, hw, hd.trans ?_⟩
  rw [if_neg (by omega), if_neg (by omega), if_neg (by omega)]

/-- A bad entry stops the decode before the symbol (R208). -/
theorem decodeSymbol_bad (hN : N ≤ 2 ^ 45) (hY : StreamReads hk sb N P Y) (hB : StreamBits Y B) (hT : TableKept hk P s) (hv : P v)
    (hb : base + 2 ^ k ≤ 512) (hq : InStream N q k)
    (h : k < bits (entryOf s hk B base k q) 29 25 ∨ bits (entryOf s hk B base k q) 31 30 = 0 ∨
      (bits (entryOf s hk B base k q) 31 30 = 1 ∧ bits (entryOf s hk B base k q) 29 25 = 0) ∨
      (bits (entryOf s hk B base k q) 31 30 = 2 ∧ (bits (entryOf s hk B base k q) 24 21 < 1 ∨ 9 < bits (entryOf s hk B base k q) 24 21 ∨ hops = 4))) :
    ∃ w, P w ∧ decodeSymbol hk sb p (fuel + 1) base k hops q v = .stop 2 p w := by
  obtain ⟨w, hw, hd⟩ := decodeSymbol_look (p := p) (fuel := fuel) (hops := hops) hN hY hB hT hv hb hq
  refine ⟨w, hw, hd.trans ?_⟩
  by_cases h0 : bits (entryOf s hk B base k q) 31 30 = 0 ∨ bits (entryOf s hk B base k q) 29 25 > k
  · rw [if_pos h0]
  · rw [if_neg h0]
    rcases h with h | h | ⟨h, h'⟩ | ⟨h, h'⟩
    · exact absurd (.inr h) h0
    · exact absurd (.inl h) h0
    · rw [if_pos h, if_pos h']
    · rw [if_neg (by omega), if_pos h, if_pos h']

end

/-- Up to four links lead from the root table to the table of a symbol (R208). -/
theorem decodeSymbol_links {s : State} {p k m : Nat} {b w q : Nat → Nat} (hN : N ≤ 2 ^ 45) (hY : StreamReads hk sb N P Y)
    (hB : StreamBits Y B) (hT : TableKept hk P s) (hs : P s) (hm : m ≤ 4) (hb : b 0 = 0) (hw : w 0 = k) (hq : q 0 = p)
    (hlink : ∀ i, i < m → InStream N (q i) (w i) ∧ b i + 2 ^ w i ≤ 512 ∧ bits (entryOf s hk B (b i) (w i) (q i)) 29 25 ≤ w i ∧
      bits (entryOf s hk B (b i) (w i) (q i)) 31 30 = 2 ∧ 1 ≤ bits (entryOf s hk B (b i) (w i) (q i)) 24 21 ∧
      bits (entryOf s hk B (b i) (w i) (q i)) 24 21 ≤ 9 ∧ b (i + 1) = bits (entryOf s hk B (b i) (w i) (q i)) 8 0 ∧
      w (i + 1) = bits (entryOf s hk B (b i) (w i) (q i)) 24 21 ∧ q (i + 1) = q i + bits (entryOf s hk B (b i) (w i) (q i)) 29 25) :
    ∃ v, P v ∧ decodeSymbol hk sb p 6 0 k 0 p s = decodeSymbol hk sb p (5 - m + 1) (b m) (w m) m (q m) v := by
  induction m with
  | zero => exact ⟨s, hs, by rw [hb, hw, hq]⟩
  | succ m ih =>
    obtain ⟨v, hv, hd⟩ := ih (by omega) (fun i hi => hlink i (by omega))
    obtain ⟨hin, hle, hl, hkind, h1, h9, hb', hw', hq'⟩ := hlink m (Nat.lt_succ_self m)
    obtain ⟨u, hu, he⟩ := decodeSymbol_link (p := p) (fuel := 5 - m) (hops := m) hN hY hB hT hv hle hin hl hkind h1 h9 (by omega)
    refine ⟨u, hu, ?_⟩
    rw [hd, he, hb', hw', hq', show 5 - m = 5 - (m + 1) + 1 by omega]

/-- A run of symbols that no trap interrupts (R208, R209). -/
theorem decodeStream_run {k : Nat} (hquiet : ∀ v, P v → (getHart v hk).ie = false ∨ (getHart v hk).async = []) (n i j : Nat)
    (p v : Nat → Nat) (t : Nat → State) (hj : j ≤ i) (hi : i ≤ n) (hp : P (t j))
    (h : ∀ j, j < i → ∃ c, decodeSymbol hk sb (p j) 6 0 k 0 (p j) (t j) = .sym (v j) c (t (j + 1)) ∧ p (j + 1) = c % 2 ^ 48 ∧ P (t (j + 1))) :
    decodeStream hk sb k (n - j) (p j) ((List.range j).map v) (t j) = decodeStream hk sb k (n - i) (p i) ((List.range i).map v) (t i)
      ∧ P (t i) := by
  induction i with
  | zero =>
    obtain rfl : j = 0 := by omega
    exact ⟨rfl, hp⟩
  | succ i ih =>
    by_cases hji : j = i + 1
    · subst hji; exact ⟨rfl, hp⟩
    · obtain ⟨he, hpi⟩ := ih (by omega) (by omega) (fun j hj => h j (by omega))
      obtain ⟨c, hc, hpc, hpn⟩ := h i (Nat.lt_succ_self i)
      refine ⟨he.trans ?_, hpn⟩
      have hq : (!((List.range i).map v).isEmpty && (getHart (t i) hk).ie && !(getHart (t i) hk).async.isEmpty) = false := by
        rcases hquiet (t i) hpi with hie | has
        · simp [hie]
        · simp [has]
      rw [show n - i = (n - (i + 1)) + 1 by omega, decodeStream, hq, if_neg Bool.false_ne_true, hc]
      simp only [← hpc, List.range_succ, List.map_append, List.map_cons, List.map_nil]

end

end Sys2Proof.Machine
end

section
/-! OBLIGATION O43. Quotients rounded once, and the statement (R207 to R212). -/
namespace Sys2Proof.Machine

open Sys2Proof

/-! ## Rounding a quotient (R5, R45) -/

/-- A quotient as its integer part and what is left. -/
theorem div_eq_add (n d : Nat) (hd : 0 < d) : (n : ℝ) / d = (n / d : Nat) + ((n % d : Nat) : ℝ) / d := by
  have h : (n : ℝ) = d * (n / d : Nat) + (n % d : Nat) := by exact_mod_cast (Nat.div_add_mod n d).symm
  have hd' : (d : ℝ) ≠ 0 := by exact_mod_cast hd.ne'
  rw [h]
  field_simp

/-- The integer that a quotient is rounded to is the nearest, the even one of two (R5). -/
theorem nearestEven_rneDiv (n d : Nat) (hd : 0 < d) : NearestEven ((n : ℝ) / d) (rneDiv n d) := by
  have hd' : (0 : ℝ) < d := by exact_mod_cast hd
  have hr : ((n % d : Nat) : ℝ) < d := by exact_mod_cast Nat.mod_lt n hd
  have hr0 : (0 : ℝ) ≤ ((n % d : Nat) : ℝ) := by positivity
  rw [NearestEven, div_eq_add n d hd]
  unfold rneDiv
  simp only
  split
  · next h =>
    have h2 : (d : ℝ) ≤ 2 * ((n % d : Nat) : ℝ) := by
      rcases h with h | ⟨h, -⟩
      · exact_mod_cast h.le
      · exact_mod_cast h.symm.le
    have hle : 1 / 2 ≤ ((n % d : Nat) : ℝ) / d := by rw [le_div_iff₀ hd']; linarith
    have hlt : ((n % d : Nat) : ℝ) / d < 1 := by rw [div_lt_one hd']; exact hr
    have he : ((n / d : Nat) : ℝ) + ((n % d : Nat) : ℝ) / d - ((n / d + 1 : Nat) : ℝ) = -(1 - ((n % d : Nat) : ℝ) / d) := by
      push_cast; ring
    rw [he, abs_neg, abs_of_nonneg (by linarith)]
    refine ⟨by linarith, fun hq => ?_⟩
    have heq : 2 * ((n % d : Nat) : ℝ) = d := by
      have : ((n % d : Nat) : ℝ) / d = 1 / 2 := by linarith
      rw [div_eq_div_iff hd'.ne' (by norm_num)] at this
      linarith
    have heq' : 2 * (n % d) = d := by exact_mod_cast heq
    rcases h with h | ⟨-, h⟩ <;> omega
  · next h =>
    have h2 : 2 * ((n % d : Nat) : ℝ) ≤ d := by
      have : 2 * (n % d) ≤ d := by omega
      exact_mod_cast this
    have hle : ((n % d : Nat) : ℝ) / d ≤ 1 / 2 := by rw [div_le_iff₀ hd']; linarith
    have h0 : 0 ≤ ((n % d : Nat) : ℝ) / d := by positivity
    rw [add_sub_cancel_left, abs_of_nonneg h0]
    refine ⟨hle, fun hq => ?_⟩
    have heq : 2 * ((n % d : Nat) : ℝ) = d := by
      rw [div_eq_div_iff hd'.ne' (by norm_num)] at hq
      linarith
    have heq' : 2 * (n % d) = d := by exact_mod_cast heq
    omega

/-- A quotient is the integer it is rounded to exactly where nothing is left of it. -/
theorem rneDiv_exact (n d : Nat) (hd : 0 < d) : (rneDiv n d : ℝ) = (n : ℝ) / d ↔ n % d = 0 := by
  have hd' : (d : ℝ) ≠ 0 := by exact_mod_cast hd.ne'
  constructor
  · intro h
    rw [eq_div_iff hd'] at h
    have h' : rneDiv n d * d = n := by exact_mod_cast h
    rw [← h']
    exact Nat.mul_mod_left _ _
  · intro h
    have hn : rneDiv n d = n / d := by
      unfold rneDiv
      simp only [h]
      rw [if_neg (by omega)]
    rw [hn, div_eq_add n d hd, h]
    simp

/-- A power of two as a quotient of numbers (R45). -/
theorem ratOf_value (m : Nat) (e : Int) : 0 < (ratOf m e).2 ∧ ((ratOf m e).1 : ℝ) / (ratOf m e).2 = (m : ℝ) * (2 : ℝ) ^ e := by
  unfold ratOf
  split
  · next h =>
    refine ⟨Nat.one_pos, ?_⟩
    obtain ⟨k, rfl⟩ := Int.eq_ofNat_of_zero_le h
    simp
  · next h =>
    refine ⟨Nat.two_pow_pos _, ?_⟩
    obtain ⟨k, hk⟩ := Int.eq_ofNat_of_zero_le (show (0 : Int) ≤ -e by omega)
    obtain rfl : e = -(k : Int) := by omega
    simp [div_eq_mul_inv]

/-! ## The quotient of quantisation (R211) -/

theorem FVal.is_fin {x : FVal} {u : ℝ} (h : x.Is u) : ∃ n m e, x = .fin n m e ∧ u = (if n then -1 else 1) * (m : ℝ) * (2 : ℝ) ^ e := by
  cases x with
  | nan => exact absurd h (by simp [FVal.Is])
  | inf => exact absurd h (by simp [FVal.Is])
  | fin n m e => exact ⟨n, m, e, rfl, h⟩

/-- A finite value is zero with its significand. -/
theorem significand_eq_zero {n : Bool} {m : Nat} {e : Int} : (if n then -1 else 1 : ℝ) * (m : ℝ) * (2 : ℝ) ^ e = 0 ↔ m = 0 := by
  have h2 : (2 : ℝ) ^ e ≠ 0 := by positivity
  cases n <;> simp [h2]

theorem abs_value (n : Bool) (m : Nat) (e : Int) : |(if n then -1 else 1 : ℝ) * (m : ℝ) * (2 : ℝ) ^ e| = (m : ℝ) * (2 : ℝ) ^ e := by
  rw [abs_mul, abs_mul, abs_of_nonneg (show (0 : ℝ) ≤ (m : ℝ) by positivity), abs_of_nonneg (show (0 : ℝ) ≤ (2 : ℝ) ^ e by positivity)]
  cases n <;> simp

/-- The exact quotient of two finite values (R112). -/
theorem divRes_fin {a b : Bool} {m n : Nat} {e k : Int} (hn : n ≠ 0) : ∃ r d, divRes (.fin a m e) (.fin b n k) = (.num (a != b) r d, false) ∧
    0 < d ∧ (r : ℝ) / d = |((if a then -1 else 1 : ℝ) * (m : ℝ) * (2 : ℝ) ^ e) / ((if b then -1 else 1 : ℝ) * (n : ℝ) * (2 : ℝ) ^ k)| := by
  obtain ⟨hp, hv⟩ := ratOf_value m (e - k)
  refine ⟨(ratOf m (e - k)).1, (ratOf m (e - k)).2 * n, by simp [divRes, hn], Nat.mul_pos hp (by omega), ?_⟩
  rw [abs_div, abs_value, abs_value, Nat.cast_mul, ← div_div, hv, zpow_sub₀ (by norm_num)]
  have h2 : (2 : ℝ) ^ k ≠ 0 := by positivity
  have hn' : (n : ℝ) ≠ 0 := by exact_mod_cast hn
  field_simp

/-- Quantisation of an exact quotient (R211). -/
theorem quantElem_num {wd a c r d : Nat} {n : Bool} (h : divRes (decodeF f32 a) (decodeF f32 c) = (.num n r d, false)) (hd : 0 < d) :
    let z : Int := if n = true then -(rneDiv r d : Int) else rneDiv r d
    (z < -2 ^ (wd - 1) ∨ 2 ^ (wd - 1) - 1 < z → quantElem wd a c
      = ⟨wrapInt wd (if n then -2 ^ (wd - 1) else 2 ^ (wd - 1) - 1), 32, true⟩) ∧
    (-2 ^ (wd - 1) ≤ z → z ≤ 2 ^ (wd - 1) - 1 → quantElem wd a c = ⟨wrapInt wd z, if (rneDiv r d : ℝ) = (r : ℝ) / d then 0 else 1, false⟩) := by
  intro z
  have hp : (0 : Int) < 2 ^ (wd - 1) := by positivity
  have hc : ((2 ^ (wd - 1) : Nat) : Int) = 2 ^ (wd - 1) := by push_cast; rfl
  have hz0 : n = true → z ≤ 0 := fun hn => by simp only [z, hn, if_true]; omega
  have hz1 : n = false → 0 ≤ z := fun hn => by simp only [z, hn, if_neg Bool.false_ne_true]; omega
  have hq : quantElem wd a c = if z > 2 ^ (wd - 1) - 1 then ⟨wrapInt wd (2 ^ (wd - 1) - 1), flSA, true⟩
      else if z < -2 ^ (wd - 1) then ⟨wrapInt wd (-2 ^ (wd - 1)), flSA, true⟩
      else ⟨wrapInt wd z, if r % d ≠ 0 then flNX else 0, false⟩ := by
    simp only [quantElem, h, hc]
    rfl
  rw [hq]
  refine ⟨fun ho => ?_, fun h1 h2 => ?_⟩
  · rcases ho with hlt | hgt
    · have hn : n = true := by
        cases n
        · have := hz1 rfl; omega
        · rfl
      rw [if_neg (by omega), if_pos hlt, hn]
      rfl
    · have hn : n = false := by
        cases n
        · rfl
        · have := hz0 rfl; omega
      rw [if_pos hgt, hn]
      rfl
  · rw [if_neg (by omega), if_neg (by omega)]
    by_cases he : r % d = 0
    · rw [if_neg (not_not.mpr he), if_pos ((rneDiv_exact r d hd).mpr he)]
    · rw [if_pos he, if_neg (fun hx => he ((rneDiv_exact r d hd).mp hx))]
      rfl

/-- The quotients that have no value (R112). -/
theorem divRes_nan {x y : FVal} (h : x.isNan ∨ y.isNan ∨ x.isZero ∧ y.isZero ∨ x.isInf ∧ y.isInf) :
    ∃ t, divRes x y = (.nan t, false) := by
  cases x with
  | nan a => cases y <;> exact ⟨_, rfl⟩
  | inf a => cases y with
    | nan b => exact ⟨_, rfl⟩
    | inf b => exact ⟨_, rfl⟩
    | fin b n k => simp [FVal.isNan, FVal.isZero, FVal.isInf] at h
  | fin a m e => cases y with
    | nan b => exact ⟨_, rfl⟩
    | inf b => simp [FVal.isNan, FVal.isZero, FVal.isInf] at h
    | fin b n k =>
      have hz : m = 0 ∧ n = 0 := by
        rcases h with h | h | ⟨h, k⟩ | ⟨h, k⟩
        · exact absurd h (by simp [FVal.isNan])
        · exact absurd h (by simp [FVal.isNan])
        · constructor
          · unfold FVal.isZero at h
            split at h <;> simp_all
          · unfold FVal.isZero at k
            split at k <;> simp_all
        · exact absurd h (by simp [FVal.isInf])
      exact ⟨true, by simp [divRes, hz]⟩

/-- What quantisation gives for two operands (R211). -/
theorem quantElem_spec (wd a c : Nat) :
    let x := decodeF f32 a
    let y := decodeF f32 c
    let hi : Int := 2 ^ (wd - 1) - 1
    let lo : Int := -2 ^ (wd - 1)
    let top (n : Bool) := wrapInt wd (if n then lo else hi)
    (x.isNan ∨ y.isNan ∨ x.isZero ∧ y.isZero ∨ x.isInf ∧ y.isInf → quantElem wd a c = ⟨0, 48, true⟩) ∧
    (∀ u : ℝ, x.Is u → y.isInf → quantElem wd a c = ⟨0, 0, false⟩) ∧
    (∀ n, x = .inf n → y.isNan = false → y.isInf = false → quantElem wd a c = ⟨top (n != y.neg), 32, true⟩) ∧
    (∀ u : ℝ, x.Is u → u ≠ 0 → y.isZero → quantElem wd a c = ⟨top (x.neg != y.neg), 40, true⟩) ∧
    (∀ u v : ℝ, x.Is u → y.Is v → v ≠ 0 → ∃ k, NearestEven |u / v| k ∧
      let z : Int := if (x.neg != y.neg) = true then -(k : Int) else k
      (z < lo ∨ hi < z → quantElem wd a c = ⟨top (x.neg != y.neg), 32, true⟩) ∧
      (lo ≤ z → z ≤ hi → quantElem wd a c = ⟨wrapInt wd z, if (k : ℝ) = |u / v| then 0 else 1, false⟩)) := by
  intro x y hi lo top
  have hc : ((2 ^ (wd - 1) : Nat) : Int) = 2 ^ (wd - 1) := by push_cast; rfl
  have hnan : ∀ {t : Bool}, divRes x y = (.nan t, false) → quantElem wd a c = ⟨0, 48, true⟩ := by
    intro t h
    simp only [quantElem, show divRes (decodeF f32 a) (decodeF f32 c) = _ from h]
    rfl
  have hinf : ∀ {n dz : Bool}, divRes x y = (.inf n, dz) → quantElem wd a c = ⟨top n, 32 ||| (if dz then 8 else 0), true⟩ := by
    intro n dz h
    simp only [quantElem, show divRes (decodeF f32 a) (decodeF f32 c) = _ from h, hc]
    rfl
  refine ⟨fun h => ?_, fun u hu hy => ?_, fun n hx hn hf => ?_, fun u hu hu0 hy => ?_, fun u v hu hv hv0 => ?_⟩
  · obtain ⟨t, ht⟩ := divRes_nan h
    exact hnan ht
  · obtain ⟨n, m, e, hx, -⟩ := FVal.is_fin hu
    obtain ⟨b, hb⟩ : ∃ b, y = .inf b := by
      generalize y = y' at hy ⊢
      cases y' <;> simp_all [FVal.isInf]
    have h : divRes (decodeF f32 a) (decodeF f32 c) = (.num (n != b) 0 1, false) := by
      rw [show decodeF f32 a = _ from hx, show decodeF f32 c = _ from hb]; rfl
    have h0 : rneDiv 0 1 = 0 := by decide
    have hp : (0 : Int) < 2 ^ (wd - 1) := by positivity
    rw [(quantElem_num h Nat.one_pos).2 (by rw [h0]; split <;> simp) (by rw [h0]; split <;> simp <;> omega), h0]
    cases n != b <;> simp [wrapInt]
  · obtain ⟨b, m, e, hb⟩ : ∃ b m e, y = .fin b m e := by
      generalize y = y' at hn hf ⊢
      cases y' <;> simp_all [FVal.isNan, FVal.isInf]
    have h : divRes x y = (.inf (n != y.neg), false) := by rw [hx, hb]; rfl
    exact hinf h
  · obtain ⟨n, m, e, hx, hv⟩ := FVal.is_fin hu
    have hm : m ≠ 0 := fun h0 => hu0 (hv.trans (significand_eq_zero.mpr h0))
    obtain ⟨b, k, hb⟩ : ∃ b k, y = .fin b 0 k := by
      generalize y = y' at hy ⊢
      unfold FVal.isZero at hy
      split at hy
      · exact ⟨_, _, rfl⟩
      · exact absurd hy (by simp)
    have h : divRes x y = (.inf (x.neg != y.neg), true) := by rw [hx, hb]; simp [divRes, hm, FVal.neg]
    exact hinf h
  · obtain ⟨n, m, e, hx, rfl⟩ := FVal.is_fin hu
    obtain ⟨b, m', k, hb, rfl⟩ := FVal.is_fin hv
    obtain ⟨r, d, hq, hd, hval⟩ := divRes_fin (a := n) (b := b) (m := m) (e := e) (k := k) (fun h0 => hv0 (significand_eq_zero.mpr h0))
    have hq' : divRes (decodeF f32 a) (decodeF f32 c) = (.num (n != b) r d, false) := by
      rw [show decodeF f32 a = _ from hx, show decodeF f32 c = _ from hb]; exact hq
    rw [← hval, hx, hb]
    exact ⟨rneDiv r d, nearestEven_rneDiv r d hd, quantElem_num hq' hd⟩

/-! ## The statement -/

/-- Settles O43: the table, the group and the scale word are moved as a unit's load does; a stream decode is a chain of looks at
the stream's bits; a quotient is rounded once. -/
theorem decodeAndQuantise : Obligations.DecodeAndQuantise := by
  refine ⟨fun s u a b c e x y p n l as => ⟨fun hr hb hc hy hn => ⟨fun h0 => ?_, fun h0 hl hst ha hrf => ?_⟩,
    fun vals st q old hr h8 h32 hres hb hc hd ha ho hf => xdec_fin hr h8 h32 hres hb hc hd ha ho hf,
    fun hc hl h1 h2 h3 hu hrf => ⟨fun wd hr hdst hsew hd hp hm => ?_, fun wd v hr hdst hsew hd hp hm hv hrv hsc => ?_,
      fun m hr hdst hsew hd hp => ?_⟩⟩, fun s hk sb k N P Y B hN => ?_, fun wd a c _ => quantElem_spec wd a c⟩
  · refine (runSlot_runs s 0x4E 0 _ hr).trans ?_
    have hy0 : y = 0 := BitVec.eq_of_toNat_eq (hy.trans h0)
    have hbody : tableLoad b c s s.cur = .done (withCur s { cur s with dtab := [] }) := by
      have hb' : readS (getHart s s.cur) b = some x := hb
      have hc' : readS (getHart s s.cur) c = some y := hc
      simp only [tableLoad, hb', hc', hy0, if_neg (show ¬ (0 : DWord).toNat > 512 by decide), if_true]
      rfl
    rw [hbody]
    rfl
  · exact xdtab_all hr hb hc hy hn h0 hl hst ha hrf
  · exact xquant_plain hr (quantWord_some h1 h2 h3) hdst hsew hd hp hm hc hl hu hrf
  · obtain ⟨z, hz, ho⟩ := xquant_fold hr (quantWord_some h1 h2 h3) hdst hsew hd hp hm hc hl hu hv hrv
    rw [hsc] at hz
    exact ⟨z, hz, ho⟩
  · exact xdequant_plain hr (quantWord_some h1 h2 h3) hdst hsew hd hp hc hl hu hrf
  · intro T In hs hP hY hB
    have hT : TableKept hk P s := fun v hv => (hP v hv).1
    refine ⟨?_, ?_⟩
    · intro m p b w q hm hb hw hq e kind len ext hlink E
      obtain ⟨v, hv, hd⟩ := decodeSymbol_links hN hY hB hT hs hm hb hw hq hlink
      have hE : ∀ r : State → Symbol, (∃ u, P u ∧ decodeSymbol hk sb p (5 - m + 1) (b m) (w m) m (q m) v = r u) → E r :=
        fun r ⟨u, hu, he⟩ => ⟨u, hu, hd.trans he⟩
      refine ⟨fun hout => hE _ ⟨v, hv, decodeSymbol_outside hout⟩, fun hle hin => ⟨fun hl hkd h0 hx => hE _ ?_, fun hl hkd => hE _ ?_,
        fun hbad => hE _ ?_⟩⟩
      · exact decodeSymbol_symbol hN hY hB hT hv hle hin hl hkd h0 hx
      · exact decodeSymbol_end hN hY hB hT hv hle hin hl hkd
      · exact decodeSymbol_bad hN hY hB hT hv hle hin hbad
    · intro n i p v t ht hi h vs
      obtain ⟨hrun, hpi⟩ := decodeStream_run (sb := sb) (k := k) (fun v hv => (hP v hv).2) n i 0 p v t (Nat.zero_le i) hi (ht ▸ hs) h
      rw [ht, Nat.sub_zero, List.range_zero, List.map_nil] at hrun
      refine ⟨fun hin => ?_, fun st c w hlt hstop => ?_⟩
      · subst hin
        rw [hrun, Nat.sub_self]
        rfl
      · have hq : (!((List.range i).map v).isEmpty && (getHart (t i) hk).ie && !(getHart (t i) hk).async.isEmpty) = false := by
          rcases (hP (t i) hpi).2 with hie | has
          · simp [hie]
          · simp [has]
        rw [hrun, show n - i = (n - (i + 1)) + 1 by omega, decodeStream, hq, if_neg Bool.false_ne_true, hstop]

end Sys2Proof.Machine
end

section
/-! SUPPORT. One rounding of an exact result, in the real numbers (R45, R46, R111). -/
namespace Sys2Proof.Machine

open Sys2Proof

/-! ## Binades and scaling (R45) -/

theorem two_zpow_pos (e : Int) : (0 : ℝ) < (2 : ℝ) ^ e := by positivity

/-- The exponent of a quotient's binade (R45). -/
theorem ratLog2_spec (n d : Nat) (hn : 0 < n) (hd : 0 < d) :
    (2 : ℝ) ^ ratLog2 n d ≤ (n : ℝ) / d ∧ (n : ℝ) / d < (2 : ℝ) ^ (ratLog2 n d + 1) := by
  have hd' : (0 : ℝ) < d := by exact_mod_cast hd
  have n1 : ((2 : ℝ) ^ (n.log2 : Int)) ≤ n := by rw [zpow_natCast]; exact_mod_cast Nat.log2_self_le hn.ne'
  have n2 : (n : ℝ) < (2 : ℝ) ^ ((n.log2 : Int) + 1) := by
    have := (Nat.log2_lt hn.ne').mp (Nat.lt_succ_self n.log2)
    exact_mod_cast this
  have d1 : ((2 : ℝ) ^ (d.log2 : Int)) ≤ d := by rw [zpow_natCast]; exact_mod_cast Nat.log2_self_le hd.ne'
  have d2 : (d : ℝ) < (2 : ℝ) ^ ((d.log2 : Int) + 1) := by
    have := (Nat.log2_lt hd.ne').mp (Nat.lt_succ_self d.log2)
    exact_mod_cast this
  have hlow : (2 : ℝ) ^ ((n.log2 : Int) - d.log2 - 1) ≤ (n : ℝ) / d := by
    rw [le_div_iff₀ hd']
    calc (2 : ℝ) ^ ((n.log2 : Int) - d.log2 - 1) * d ≤ (2 : ℝ) ^ ((n.log2 : Int) - d.log2 - 1) * (2 : ℝ) ^ ((d.log2 : Int) + 1) :=
          mul_le_mul_of_nonneg_left d2.le (two_zpow_pos _).le
      _ = (2 : ℝ) ^ (n.log2 : Int) := by rw [← zpow_add₀ (by norm_num)]; congr 1; ring
      _ ≤ n := n1
  have hhigh : (n : ℝ) / d < (2 : ℝ) ^ ((n.log2 : Int) - d.log2 + 1) := by
    rw [div_lt_iff₀ hd']
    calc (n : ℝ) < (2 : ℝ) ^ ((n.log2 : Int) + 1) := n2
      _ = (2 : ℝ) ^ ((n.log2 : Int) - d.log2 + 1) * (2 : ℝ) ^ (d.log2 : Int) := by rw [← zpow_add₀ (by norm_num)]; congr 1; ring
      _ ≤ (2 : ℝ) ^ ((n.log2 : Int) - d.log2 + 1) * d := mul_le_mul_of_nonneg_left d1 (two_zpow_pos _).le
  have hok : (if (n.log2 : Int) - d.log2 ≥ 0 then decide (n ≥ d * 2 ^ ((n.log2 : Int) - d.log2).toNat)
      else decide (n * 2 ^ (-((n.log2 : Int) - d.log2)).toNat ≥ d)) = true ↔ (2 : ℝ) ^ ((n.log2 : Int) - d.log2) ≤ (n : ℝ) / d := by
    generalize (n.log2 : Int) - d.log2 = l
    rw [le_div_iff₀ hd']
    split
    · next h =>
      obtain ⟨k, rfl⟩ := Int.eq_ofNat_of_zero_le h
      rw [decide_eq_true_iff, Int.toNat_natCast, zpow_natCast, ge_iff_le, mul_comm]
      exact_mod_cast Iff.rfl
    · next h =>
      obtain ⟨k, hk⟩ := Int.eq_ofNat_of_zero_le (show (0 : Int) ≤ -l by omega)
      obtain rfl : l = -(k : Int) := by omega
      rw [decide_eq_true_iff, neg_neg, Int.toNat_natCast, zpow_neg, zpow_natCast, ge_iff_le,
        inv_mul_le_iff₀ (by positivity), mul_comm ((2 : ℝ) ^ k)]
      exact_mod_cast Iff.rfl
  unfold ratLog2
  simp only
  by_cases hle : (2 : ℝ) ^ ((n.log2 : Int) - d.log2) ≤ (n : ℝ) / d
  · rw [if_pos (hok.mpr hle)]
    exact ⟨hle, hhigh⟩
  · rw [if_neg (fun h => hle (hok.mp h)), sub_add_cancel]
    exact ⟨hlow, not_le.mp hle⟩

/-- A quotient in units of 2^q (R45). -/
theorem scaleRat_value (n d : Nat) (q : Int) (hd : 0 < d) :
    0 < (scaleRat n d q).2 ∧ ((scaleRat n d q).1 : ℝ) / (scaleRat n d q).2 = (n : ℝ) / d / (2 : ℝ) ^ q := by
  unfold scaleRat
  split
  · next h =>
    obtain ⟨k, rfl⟩ := Int.eq_ofNat_of_zero_le h
    refine ⟨by positivity, ?_⟩
    simp [div_div]
  · next h =>
    obtain ⟨k, hk⟩ := Int.eq_ofNat_of_zero_le (show (0 : Int) ≤ -q by omega)
    obtain rfl : q = -(k : Int) := by omega
    refine ⟨hd, ?_⟩
    simp [div_eq_mul_inv]
    ring

/-- The multiple of 2^q that a quotient is rounded to (R45). -/
theorem rneAt_spec (n d : Nat) (q : Int) (hd : 0 < d) : NearestEven ((n : ℝ) / d / (2 : ℝ) ^ q) (rneAt n d q).1 ∧
    ((rneAt n d q).2 = false ↔ ((rneAt n d q).1 : ℝ) * (2 : ℝ) ^ q = (n : ℝ) / d) := by
  obtain ⟨hp, hv⟩ := scaleRat_value n d q hd
  refine ⟨hv ▸ nearestEven_rneDiv _ _ hp, ?_⟩
  rw [← eq_div_iff (two_zpow_pos q).ne', ← hv]
  simp only [rneAt, rneDiv_exact _ _ hp, decide_eq_false_iff_not, not_not]

/-- The nearest integer, the even one of two, is one alone (R5). -/
theorem nearestEven_unique {x : ℝ} {k j : Nat} (hk : NearestEven x k) (hj : NearestEven x j) : k = j := by
  obtain ⟨k1, k2⟩ := hk
  obtain ⟨j1, j2⟩ := hj
  have hd : |(k : ℝ) - j| ≤ 1 := by
    have := abs_sub_le (k : ℝ) x j
    rw [abs_sub_comm (k : ℝ) x] at this
    linarith
  have hz : |(k : Int) - j| ≤ 1 := by exact_mod_cast hd
  by_contra hne
  have h1 : |(k : ℝ) - j| = 1 := by
    have : |(k : Int) - j| = 1 := by
      have h0 : (0 : Int) < |(k : Int) - j| := abs_pos.mpr (by omega)
      omega
    exact_mod_cast this
  have htri := abs_sub_le (k : ℝ) x j
  rw [abs_sub_comm (k : ℝ) x, h1] at htri
  have e1 := k2 (by linarith)
  have e2 := j2 (by linarith)
  have hz1 : |(k : Int) - j| = 1 := by exact_mod_cast h1
  rcases abs_eq (show (0 : Int) ≤ 1 by decide) |>.mp hz1 with h | h <;> omega

/-- A rounded number lies between the integers around it (R5). -/
theorem nearestEven_bounds {x : ℝ} {k a b : Nat} (hk : NearestEven x k) (ha : (a : ℝ) ≤ x) (hb : x ≤ b) : a ≤ k ∧ k ≤ b := by
  obtain ⟨k1, -⟩ := hk
  rw [abs_le] at k1
  constructor
  · by_contra h
    have : (k : ℝ) + 1 ≤ a := by exact_mod_cast (show k + 1 ≤ a by omega)
    linarith [k1.2]
  · by_contra h
    have : (b : ℝ) + 1 ≤ k := by exact_mod_cast (show b + 1 ≤ k by omega)
    linarith [k1.1]

/-! ## The codes of a format (R42, R43) -/

/-- A format whose codes run on to infinity, as the IEEE formats' do (R42, R62). -/
structure Fmt.Regular (f : Fmt) : Prop where
  inf : f.hasInf = true
  top : f.maxCode + 1 = (2 ^ f.ebits - 1) * 2 ^ f.mbits
  nan : f.maxCode < f.nan
  wide : 2 ≤ f.ebits

theorem f32_regular : f32.Regular := ⟨rfl, by decide, by decide, by decide⟩
theorem bf16_regular : bf16.Regular := ⟨rfl, by decide, by decide, by decide⟩
theorem fa40_regular : fa40.Regular := ⟨rfl, by decide, by decide, by decide⟩

/-- The exponent of the unit of the last place of a code. -/
def ulpExp (f : Fmt) (c : Nat) : Int := ((max (c / 2 ^ f.mbits) 1 : Nat) : Int) - f.bias - f.mbits

/-- The significand of a code. -/
def codeSig (f : Fmt) (c : Nat) : Nat := if c / 2 ^ f.mbits = 0 then c else 2 ^ f.mbits + c % 2 ^ f.mbits

/-- The magnitude a code stands for, its exponents unbounded above (R42). -/
noncomputable def codeVal (f : Fmt) (c : Nat) : ℝ := (codeSig f c : ℝ) * (2 : ℝ) ^ ulpExp f c

/-- A code's successor is one unit of the last place up (R42). -/
theorem codeVal_succ (f : Fmt) (c : Nat) : codeVal f (c + 1) = codeVal f c + (2 : ℝ) ^ ulpExp f c := by
  have hp : 0 < 2 ^ f.mbits := Nat.two_pow_pos _
  have hdm := Nat.div_add_mod c (2 ^ f.mbits)
  have hml := Nat.mod_lt c hp
  by_cases hc : c % 2 ^ f.mbits + 1 < 2 ^ f.mbits
  · have e1 : (c + 1) / 2 ^ f.mbits = c / 2 ^ f.mbits :=
      Nat.div_eq_of_lt_le (by rw [Nat.mul_comm]; omega) (by rw [Nat.succ_mul, Nat.mul_comm]; omega)
    have e2 : (c + 1) % 2 ^ f.mbits = c % 2 ^ f.mbits + 1 := by
      have := Nat.div_add_mod (c + 1) (2 ^ f.mbits)
      rw [e1] at this
      omega
    have hs : codeSig f (c + 1) = codeSig f c + 1 := by
      unfold codeSig
      rw [e1, e2]
      split <;> omega
    rw [codeVal, codeVal, hs, show ulpExp f (c + 1) = ulpExp f c by unfold ulpExp; rw [e1]]
    push_cast
    ring
  · have e0 : c % 2 ^ f.mbits = 2 ^ f.mbits - 1 := by omega
    have hm : c + 1 = (c / 2 ^ f.mbits + 1) * 2 ^ f.mbits := by
      rw [Nat.add_mul, Nat.one_mul, Nat.mul_comm (c / 2 ^ f.mbits)]; omega
    have e1 : (c + 1) / 2 ^ f.mbits = c / 2 ^ f.mbits + 1 := by rw [hm]; exact Nat.mul_div_cancel _ hp
    have e2 : (c + 1) % 2 ^ f.mbits = 0 := by rw [hm]; exact Nat.mul_mod_left _ _
    have hs : codeSig f (c + 1) = 2 ^ f.mbits := by
      unfold codeSig
      rw [e1, e2, if_neg (Nat.succ_ne_zero _), Nat.add_zero]
    by_cases hz : c / 2 ^ f.mbits = 0
    · have hs0 : codeSig f c + 1 = 2 ^ f.mbits := by
        unfold codeSig
        rw [if_pos hz]
        rw [hm, hz, Nat.zero_add, Nat.one_mul]
      have hu : ulpExp f (c + 1) = ulpExp f c := by unfold ulpExp; rw [e1, hz]; rfl
      rw [codeVal, codeVal, hs, hu, ← hs0]
      push_cast
      ring
    · have hs0 : codeSig f c + 1 = 2 * 2 ^ f.mbits := by
        unfold codeSig
        rw [if_neg hz]
        omega
      have hu : ulpExp f (c + 1) = ulpExp f c + 1 := by
        unfold ulpExp
        rw [e1, max_eq_left (Nat.le_add_left 1 _), max_eq_left (Nat.pos_of_ne_zero hz)]
        push_cast
        ring
      have hr : (codeSig f c : ℝ) + 1 = 2 * (2 ^ f.mbits : Nat) := by exact_mod_cast hs0
      rw [codeVal, codeVal, hs, hu, zpow_add_one₀ (by norm_num)]
      linear_combination -(2 : ℝ) ^ ulpExp f c * hr

theorem codeVal_strictMono (f : Fmt) : StrictMono (codeVal f) :=
  strictMono_nat_of_lt_succ (fun c => by rw [codeVal_succ]; linarith [two_zpow_pos (ulpExp f c)])

/-- A finite code of a sign stands for its magnitude (R42, R43). -/
theorem decodeF_signed {f : Fmt} (hf : f.Regular) (n : Bool) (c : Nat) (hc : c ≤ f.maxCode) :
    decodeF f (signed f n c) = .fin n (codeSig f c) (ulpExp f c) := by
  obtain ⟨hinf, htop, hnan, -⟩ := hf
  have hp : 0 < 2 ^ f.mbits := Nat.two_pow_pos _
  have hfull : (2 ^ f.ebits - 1) * 2 ^ f.mbits + 2 ^ f.mbits = 2 ^ (f.ebits + f.mbits) := by
    rw [← Nat.succ_mul, Nat.succ_eq_add_one, Nat.sub_add_cancel (Nat.one_le_two_pow), pow_add]
  have hlt : c < 2 ^ (f.ebits + f.mbits) := by omega
  have hmag : signed f n c % 2 ^ (f.ebits + f.mbits) = c := by
    rw [signed, Nat.add_mul_mod_self_right, Nat.mod_eq_of_lt hlt]
  have hsign : (signed f n c).testBit (f.ebits + f.mbits) = n := by
    rw [signed, Nat.add_comm, Nat.mul_comm, Nat.testBit_two_pow_mul_add _ hlt, if_neg (lt_irrefl _), Nat.sub_self]
    cases n <;> rfl
  have hex : c / 2 ^ f.mbits < 2 ^ f.ebits - 1 := (Nat.div_lt_iff_lt_mul hp).mpr (by omega)
  simp only [decodeF, hmag, hsign, hinf, Nat.shiftRight_eq_div_pow]
  rw [if_neg (fun h => absurd h.2 hex.ne), if_neg (by omega)]
  unfold codeSig ulpExp
  split
  · next h =>
    rw [h, Nat.mod_eq_of_lt ((Nat.div_eq_zero_iff_lt hp).mp h)]
    rfl
  · next h => rw [max_eq_left (Nat.pos_of_ne_zero h)]

/-- The code of a rounded magnitude stands for it (R45). -/
theorem codeVal_codeOf (f : Fmt) (k : Nat) (q : Int) (hk : k ≤ 2 ^ (f.mbits + 1)) (hq : 1 - (f.bias : Int) - f.mbits ≤ q)
    (hs : k < 2 ^ f.mbits → q = 1 - (f.bias : Int) - f.mbits) : codeVal f (codeOf f k q) = (k : ℝ) * (2 : ℝ) ^ q := by
  have hp : 0 < 2 ^ f.mbits := Nat.two_pow_pos _
  unfold codeOf
  split
  · next h =>
    have e1 : k / 2 ^ f.mbits = 0 := Nat.div_eq_of_lt h
    have hu : ulpExp f k = q := by rw [ulpExp, e1, hs h]; rfl
    rw [codeVal, hu, codeSig, if_pos e1]
  · next h =>
    obtain ⟨x, hx⟩ := Int.eq_ofNat_of_zero_le (show 0 ≤ q + f.mbits + f.bias - 1 by omega)
    have hx1 : (q + f.mbits + f.bias).toNat = x + 1 := by omega
    rw [hx1]
    by_cases hc : k = 2 ^ (f.mbits + 1)
    · have hcode : (x + 1) * 2 ^ f.mbits + (k - 2 ^ f.mbits) = (x + 2) * 2 ^ f.mbits := by
        rw [hc, pow_succ, show (x + 2) * 2 ^ f.mbits = (x + 1) * 2 ^ f.mbits + 2 ^ f.mbits by ring]
        omega
      have e1 : (x + 2) * 2 ^ f.mbits / 2 ^ f.mbits = x + 2 := Nat.mul_div_cancel _ hp
      have hu : ulpExp f ((x + 2) * 2 ^ f.mbits) = q + 1 := by
        rw [ulpExp, e1, max_eq_left (by omega)]
        push_cast
        omega
      rw [hcode, codeVal, hu, codeSig, e1, if_neg (by omega), Nat.mul_mod_left, hc, zpow_add_one₀ (by norm_num)]
      push_cast
      ring
    · have hlt : k - 2 ^ f.mbits < 2 ^ f.mbits := by rw [pow_succ] at hk hc; omega
      have e1 : ((x + 1) * 2 ^ f.mbits + (k - 2 ^ f.mbits)) / 2 ^ f.mbits = x + 1 := by
        rw [Nat.add_comm, Nat.add_mul_div_right _ _ hp, Nat.div_eq_of_lt hlt, Nat.zero_add]
      have e2 : ((x + 1) * 2 ^ f.mbits + (k - 2 ^ f.mbits)) % 2 ^ f.mbits = k - 2 ^ f.mbits := by
        rw [Nat.add_comm, Nat.add_mul_mod_self_right, Nat.mod_eq_of_lt hlt]
      have hu : ulpExp f ((x + 1) * 2 ^ f.mbits + (k - 2 ^ f.mbits)) = q := by
        rw [ulpExp, e1, max_eq_left (by omega)]
        push_cast
        omega
      rw [codeVal, hu, codeSig, e1, e2, if_neg (by omega), Nat.add_sub_cancel' (not_lt.mp h)]

/-! ## One rounding (R45, R46, R111) -/

/-- The unit of the last place of a quotient in a format, as `roundMag` takes it (R45). -/
def stepOf (f : Fmt) (n d : Nat) : Int := (if ratLog2 n d < 1 - (f.bias : Int) then 1 - (f.bias : Int) else ratLog2 n d) - f.mbits

section
variable {f : Fmt} {n d : Nat}

theorem lastPlace_stepOf (hn : 0 < n) (hd : 0 < d) : LastPlace f ((n : ℝ) / d) (stepOf f n d) := by
  obtain ⟨h1, h2⟩ := ratLog2_spec n d hn hd
  unfold LastPlace stepOf
  simp only
  split
  · next h =>
    refine ⟨le_refl _, h2.trans_le (zpow_le_zpow_right₀ (by norm_num) (by omega)), fun hlt => absurd hlt (lt_irrefl _)⟩
  · next h =>
    refine ⟨by omega, by rwa [sub_add_cancel], fun _ => by rwa [sub_add_cancel]⟩

/-- A rounded significand has at most one bit beyond the format's, and all the format's unless it is subnormal (R44, R45). -/
theorem rounded_bounds (hn : 0 < n) (hd : 0 < d) : (rneAt n d (stepOf f n d)).1 ≤ 2 ^ (f.mbits + 1) ∧
    ((rneAt n d (stepOf f n d)).1 < 2 ^ f.mbits → stepOf f n d = 1 - (f.bias : Int) - f.mbits) := by
  obtain ⟨hsub, hlt, hge⟩ := lastPlace_stepOf (f := f) hn hd
  obtain ⟨hnear, -⟩ := rneAt_spec n d (stepOf f n d) hd
  have hp := two_zpow_pos (stepOf f n d)
  have hb : (n : ℝ) / d / (2 : ℝ) ^ stepOf f n d ≤ ((2 ^ (f.mbits + 1) : Nat) : ℝ) := by
    rw [div_le_iff₀ hp]
    push_cast
    rw [← zpow_natCast, ← zpow_add₀ (by norm_num)]
    refine hlt.le.trans_eq (congrArg _ ?_)
    push_cast
    ring
  refine ⟨(nearestEven_bounds (a := 0) hnear (by push_cast; positivity) hb).2, fun hk => ?_⟩
  by_contra hne
  have ha : ((2 ^ f.mbits : Nat) : ℝ) ≤ (n : ℝ) / d / (2 : ℝ) ^ stepOf f n d := by
    rw [le_div_iff₀ hp]
    push_cast
    rw [← zpow_natCast, ← zpow_add₀ (by norm_num), add_comm]
    exact hge (lt_of_le_of_ne hsub (Ne.symm hne))
  exact absurd (nearestEven_bounds hnear ha hb).1 (by omega)

theorem codeVal_roundMag (hn : 0 < n) (hd : 0 < d) :
    codeVal f (roundMag f n d).code = ((rneAt n d (stepOf f n d)).1 : ℝ) * (2 : ℝ) ^ stepOf f n d := by
  obtain ⟨h1, h2⟩ := rounded_bounds (f := f) hn hd
  exact codeVal_codeOf f _ _ h1 (lastPlace_stepOf hn hd).1 h2

/-- A quotient's binade is one alone. -/
theorem binade_unique {x : ℝ} {a b : Int} (ha : (2 : ℝ) ^ a ≤ x) (ha' : x < (2 : ℝ) ^ (a + 1)) (hb : (2 : ℝ) ^ b ≤ x)
    (hb' : x < (2 : ℝ) ^ (b + 1)) : a = b := by
  have h1 := (zpow_lt_zpow_iff_right₀ (by norm_num : (1 : ℝ) < 2)).mp (ha.trans_lt hb')
  have h2 := (zpow_lt_zpow_iff_right₀ (by norm_num : (1 : ℝ) < 2)).mp (hb.trans_lt ha')
  omega

/-- Tiny means that the value rounded at its own binade stays below the least normal one (R46). -/
theorem tiny_iff (hn : 0 < n) (hd : 0 < d) : Tiny f ((n : ℝ) / d) ↔
    ((rneAt n d (ratLog2 n d - f.mbits)).1 : ℝ) * (2 : ℝ) ^ (ratLog2 n d - f.mbits) < (2 : ℝ) ^ (1 - (f.bias : Int)) := by
  obtain ⟨h1, h2⟩ := ratLog2_spec n d hn hd
  obtain ⟨hnear, -⟩ := rneAt_spec n d (ratLog2 n d - f.mbits) hd
  constructor
  · intro h
    exact h _ _ (by rwa [sub_add_cancel]) (by rwa [sub_add_cancel]) hnear
  · intro h q k hq hq' hk
    obtain rfl : q = ratLog2 n d - f.mbits := by
      have := binade_unique hq hq' h1 h2
      omega
    rwa [nearestEven_unique hk hnear]

theorem tiny_roundMag (hn : 0 < n) (hd : 0 < d) : (roundMag f n d).tiny = true ↔ Tiny f ((n : ℝ) / d) := by
  obtain ⟨h1, h2⟩ := ratLog2_spec n d hn hd
  obtain ⟨hnear, -⟩ := rneAt_spec n d (ratLog2 n d - f.mbits) hd
  have hp := two_zpow_pos (ratLog2 n d - f.mbits)
  rw [tiny_iff hn hd]
  have hr : (roundMag f n d).tiny = (decide (ratLog2 n d < 1 - (f.bias : Int))
      && !(decide (ratLog2 n d + 1 = 1 - (f.bias : Int)) && decide ((rneAt n d (ratLog2 n d - f.mbits)).1 = 2 ^ (f.mbits + 1)))) := rfl
  rw [hr]
  generalize (rneAt n d (ratLog2 n d - f.mbits)).1 = k at hnear ⊢
  generalize ratLog2 n d = e at *
  -- at its own binade the significand has the format's bits, or is the next power of two
  have hpow : ∀ m : Nat, ((2 ^ m : Nat) : ℝ) * (2 : ℝ) ^ (e - f.mbits) = (2 : ℝ) ^ (e - f.mbits + m) := fun m => by
    push_cast
    rw [← zpow_natCast, ← zpow_add₀ (by norm_num), add_comm]
  have hb : (n : ℝ) / d / (2 : ℝ) ^ (e - f.mbits) ≤ ((2 ^ (f.mbits + 1) : Nat) : ℝ) := by
    rw [div_le_iff₀ hp, hpow]
    refine h2.le.trans_eq (congrArg _ ?_)
    push_cast; ring
  have ha : ((2 ^ f.mbits : Nat) : ℝ) ≤ (n : ℝ) / d / (2 : ℝ) ^ (e - f.mbits) := by
    rw [le_div_iff₀ hp, hpow, sub_add_cancel]
    exact h1
  obtain ⟨k1, k2⟩ := nearestEven_bounds hnear ha hb
  have v1 : (2 : ℝ) ^ e ≤ (k : ℝ) * (2 : ℝ) ^ (e - f.mbits) := by
    have := mul_le_mul_of_nonneg_right (show ((2 ^ f.mbits : Nat) : ℝ) ≤ k by exact_mod_cast k1) hp.le
    rwa [hpow, sub_add_cancel] at this
  have v2 : (k : ℝ) * (2 : ℝ) ^ (e - f.mbits) ≤ (2 : ℝ) ^ (e + 1) := by
    have := mul_le_mul_of_nonneg_right (show (k : ℝ) ≤ ((2 ^ (f.mbits + 1) : Nat) : ℝ) by exact_mod_cast k2) hp.le
    rw [hpow] at this
    refine this.trans_eq (congrArg _ ?_)
    push_cast; ring
  have hle : ∀ a b : Int, a ≤ b → (2 : ℝ) ^ a ≤ (2 : ℝ) ^ b := fun a b h => zpow_le_zpow_right₀ (by norm_num) h
  have hlt : ∀ a b : Int, a < b → (2 : ℝ) ^ a < (2 : ℝ) ^ b := fun a b h => zpow_lt_zpow_right₀ (by norm_num) h
  rcases lt_trichotomy (e + 1) (1 - (f.bias : Int)) with h | h | h
  · have : e < 1 - (f.bias : Int) := by omega
    simp only [this, h.ne, decide_true, decide_false, Bool.false_and, Bool.not_false, Bool.and_self, true_iff]
    exact v2.trans_lt (hlt _ _ h)
  · have h' : e < 1 - (f.bias : Int) := by omega
    simp only [h', h, decide_true, Bool.true_and, Bool.not_eq_true', decide_eq_false_iff_not]
    rw [← h]
    have hv : (k : ℝ) * (2 : ℝ) ^ (e - f.mbits) = (2 : ℝ) ^ (e + 1) ↔ k = 2 ^ (f.mbits + 1) := by
      rw [show (e + 1 : Int) = e - f.mbits + ((f.mbits + 1 : Nat) : Int) by push_cast; ring, ← hpow, mul_left_inj' hp.ne', Nat.cast_inj]
    rw [← hv]
    exact ⟨fun hne => lt_of_le_of_ne v2 hne, fun hl => hl.ne⟩
  · have h' : ¬ e < 1 - (f.bias : Int) := by omega
    simp only [h', decide_false, Bool.false_and, Bool.false_eq_true, false_iff, not_lt]
    exact (hle _ _ (by omega)).trans v1

/-- An exact result is rounded once (R44 to R46, R111). -/
theorem rneArith_exactly (hf : f.Regular) (neg : Bool) (hd : 0 < d) (x : ℝ) (hx : |x| = (n : ℝ) / d)
    (hs : n ≠ 0 → (neg = true ↔ x < 0)) :
    Exactly f x neg ⟨(rneArith f (.num neg n d)).1, (rneArith f (.num neg n d)).2, false⟩ := by
  have hd' : (d : ℝ) ≠ 0 := by exact_mod_cast hd.ne'
  have h0 : x = 0 ↔ n = 0 := by rw [← abs_eq_zero, hx, div_eq_zero_iff]; simp [hd']
  refine ⟨fun hx0 => by simp [rneArith, h0.mp hx0], fun hx0 => ?_⟩
  have hn0 : n ≠ 0 := fun h => hx0 (h0.mpr h)
  have hn : 0 < n := Nat.pos_of_ne_zero hn0
  obtain ⟨hnear, hexact⟩ := rneAt_spec n d (stepOf f n d) hd
  have hval := codeVal_roundMag (f := f) hn hd
  have htiny := tiny_roundMag (f := f) hn hd
  have hin : (roundMag f n d).inexact = (rneAt n d (stepOf f n d)).2 := rfl
  have htop := decodeF_signed hf false f.maxCode (le_refl _)
  rw [show signed f false f.maxCode = f.maxCode by simp [signed, b2n]] at htop
  have hr : rneArith f (.num neg n d) = if (roundMag f n d).code > f.maxCode then (infCode f neg, flOF ||| flNX)
      else (signed f neg (roundMag f n d).code, (if (roundMag f n d).inexact then flNX else 0)
        ||| (if (roundMag f n d).inexact && (roundMag f n d).tiny then flUF else 0)) := by
    simp only [rneArith, if_neg hn0]
  refine ⟨stepOf f n d, (rneAt n d (stepOf f n d)).1, neg, hx ▸ lastPlace_stepOf hn hd, hx ▸ hnear, hs hn0, fun top ht => ?_⟩
  have ht' : top = codeVal f f.maxCode := by
    rw [htop] at ht
    rw [show top = _ from ht, codeVal]
    simp
  rw [← hval, ht', (codeVal_strictMono f).lt_iff_lt, (codeVal_strictMono f).le_iff_le, hr]
  refine ⟨fun hgt => by rw [if_pos hgt]; rfl, fun hle => ?_⟩
  rw [if_neg (Nat.not_lt.mpr hle)]
  refine ⟨rfl, ?_, ⟨_, _, decodeF_signed hf neg _ hle, rfl⟩, fun he => ?_, fun hne => ⟨fun ht => ?_, fun ht => ?_⟩⟩
  · have h1 : (2 ^ f.ebits - 1) * 2 ^ f.mbits + 2 ^ f.mbits = 2 ^ (f.ebits + f.mbits) := by
      rw [← Nat.succ_mul, Nat.succ_eq_add_one, Nat.sub_add_cancel (Nat.one_le_two_pow), pow_add]
    have h2 := hf.top
    have h3 : 0 < 2 ^ f.mbits := Nat.two_pow_pos _
    have h4 : 2 ^ f.width = 2 ^ (f.ebits + f.mbits) + 2 ^ (f.ebits + f.mbits) := by
      rw [Fmt.width, show 1 + f.ebits + f.mbits = f.ebits + f.mbits + 1 by ring, pow_succ]; ring
    show (roundMag f n d).code + b2n neg * 2 ^ (f.ebits + f.mbits) < 2 ^ f.width
    cases neg <;> simp only [b2n, if_true, if_neg Bool.false_ne_true] <;> omega
  · have hq : (roundMag f n d).inexact = false := by rw [hin, hexact, ← hval, he, hx]
    simp [hq]
  · have hq : (roundMag f n d).inexact = true := by
      rw [← Bool.not_eq_false, hin, hexact, ← hval, ← hx]; exact hne
    rw [hx] at ht
    simp [hq, htiny.mpr ht, flNX, flUF]
  · have hq : (roundMag f n d).inexact = true := by
      rw [← Bool.not_eq_false, hin, hexact, ← hval, ← hx]; exact hne
    rw [hx, ← htiny, Bool.not_eq_true] at ht
    simp [hq, ht, flNX]

end

end Sys2Proof.Machine
end

section
/-! SUPPORT. Exact sums of terms, and the cell of a block format (R44, R112, R182, R184, R190). -/
namespace Sys2Proof.Machine

open Sys2Proof

/-! ## Special terms (R112, R182) -/

/-- A term that makes a sum NaN. -/
def Term.odd (t : Term) : Prop := t = .invalid ∨ ∃ b, t = .val (.nan b)

theorem val_odd {v : FVal} (h : v.isNan = true) : (Term.val v).odd := by
  cases v with
  | nan b => exact .inr ⟨b, rfl⟩
  | inf n => exact absurd h (by simp [FVal.isNan])
  | fin n m e => exact absurd h (by simp [FVal.isNan])

theorem sumTerms_odd {any : Bool} {ts : List Term} (h : ∃ t ∈ ts, t.odd) : ∃ q, sumTerms any ts = .nan q ∧ (any = true → q = true) := by
  obtain ⟨t, ht, ho⟩ := h
  unfold sumTerms
  simp only
  rw [if_pos (List.any_eq_true.mpr ⟨t, ht, by rcases ho with rfl | ⟨b, rfl⟩ <;> rfl⟩)]
  exact ⟨_, rfl, fun ha => by simp [ha]⟩

/-- With no such term, and infinities of both signs, a sum is NaN with NV. -/
theorem sumTerms_infs {any : Bool} {ts : List Term} (h : ¬ ∃ t ∈ ts, t.odd) (hp : Term.val (.inf false) ∈ ts)
    (hn : Term.val (.inf true) ∈ ts) : sumTerms any ts = .nan true := by
  unfold sumTerms
  simp only
  rw [if_neg, if_pos]
  · rw [Bool.and_eq_true]
    exact ⟨List.any_eq_true.mpr ⟨_, hp, rfl⟩, List.any_eq_true.mpr ⟨_, hn, rfl⟩⟩
  · rw [List.any_eq_true]
    rintro ⟨t, ht, hb⟩
    refine h ⟨t, ht, ?_⟩
    split at hb
    · exact .inl rfl
    · exact val_odd hb

/-- With no such term, and infinities of one sign, a sum is that infinity. -/
theorem sumTerms_inf {any : Bool} {ts : List Term} {n : Bool} (h : ¬ ∃ t ∈ ts, t.odd) (hn : Term.val (.inf n) ∈ ts)
    (ho : Term.val (.inf (!n)) ∉ ts) : sumTerms any ts = .inf n := by
  have hpos : ∀ b : Bool, Term.val (.inf b) ∉ ts → ∀ t ∈ ts, t ≠ .val (.inf b) := fun b hb t ht e => hb (e ▸ ht)
  unfold sumTerms
  simp only
  rw [if_neg]
  swap
  · rw [List.any_eq_true]
    rintro ⟨t, ht, hb⟩
    refine h ⟨t, ht, ?_⟩
    split at hb
    · exact .inl rfl
    · exact val_odd hb
  cases n with
  | false =>
    rw [if_neg, if_pos (List.any_eq_true.mpr ⟨_, hn, rfl⟩)]
    rw [Bool.and_eq_true, List.any_eq_true, List.any_eq_true]
    rintro ⟨-, t, ht, hb⟩
    split at hb
    · exact ho ht
    · exact absurd hb (by simp)
  | true =>
    rw [if_neg, if_neg, if_pos (List.any_eq_true.mpr ⟨_, hn, rfl⟩)]
    · rw [List.any_eq_true]
      rintro ⟨t, ht, hb⟩
      split at hb
      · exact ho ht
      · exact absurd hb (by simp)
    · rw [Bool.and_eq_true, List.any_eq_true]
      rintro ⟨⟨t, ht, hb⟩, -⟩
      split at hb
      · exact ho ht
      · exact absurd hb (by simp)

/-! ## Sums of finite terms (R44, R112) -/

/-- A list of values that stand for real numbers. -/
abbrev Stand (vs : List FVal) (xs : List ℝ) : Prop := List.Forall₂ FVal.Is vs xs

theorem Stand.fin {vs : List FVal} {xs : List ℝ} (h : Stand vs xs) : ∀ v ∈ vs, ∃ n m e, v = .fin n m e := by
  induction h with
  | nil => simp
  | cons hv _ ih =>
    intro v hm
    rcases List.mem_cons.mp hm with rfl | hm
    · obtain ⟨n, m, e, rfl, -⟩ := FVal.is_fin hv
      exact ⟨n, m, e, rfl⟩
    · exact ih v hm

/-- The least exponent of the terms that are no zero. -/
theorem minExp_spec {vs : List FVal} {xs : List ℝ} (h : Stand vs xs) :
    (∀ e, minExp (vs.map Term.val) = some e → ∀ n m k, FVal.fin n m k ∈ vs → m ≠ 0 → e ≤ k) ∧
    (minExp (vs.map Term.val) = none ↔ ∀ v ∈ vs, v.isZero = true) := by
  induction h with
  | nil => simp [minExp]
  | @cons v x vs xs hv _ ih =>
    obtain ⟨n, m, e, rfl, -⟩ := FVal.is_fin hv
    obtain ⟨ih1, ih2⟩ := ih
    have hz : (FVal.fin n m e).isZero = true ↔ m = 0 := by
      cases m <;> simp [FVal.isZero]
    by_cases hm : m = 0
    · have he : minExp ((FVal.fin n m e :: vs).map Term.val) = minExp (vs.map Term.val) := by
        simp [minExp, hm]
      rw [he]
      refine ⟨fun e' h' n' m' k' hmem hne => ?_, ?_⟩
      · rcases List.mem_cons.mp hmem with hq | hq
        · obtain ⟨-, rfl, -⟩ := FVal.fin.inj hq
          exact absurd hm hne
        · exact ih1 e' h' _ _ _ hq hne
      · rw [ih2, List.forall_mem_cons, hz]
        simp [hm]
    · have he : minExp ((FVal.fin n m e :: vs).map Term.val)
          = some (match minExp (vs.map Term.val) with | none => e | some k => if e ≤ k then e else k) := by
        simp only [List.map_cons, minExp, if_neg hm]
        cases minExp (vs.map Term.val) <;> rfl
      rw [he]
      refine ⟨fun e' h' n' m' k' hmem hne => ?_, ?_⟩
      · have h'' := (Option.some.inj h').symm
        rcases List.mem_cons.mp hmem with hq | hq
        · obtain ⟨-, -, rfl⟩ := FVal.fin.inj hq
          rw [h'']
          split
          · exact le_refl _
          · split <;> omega
        · rw [h'']
          cases hmin : minExp (vs.map Term.val) with
          | none =>
            have := ih2.mp hmin _ hq
            cases m' <;> simp_all [FVal.isZero]
          | some k0 =>
            have := ih1 k0 hmin _ _ _ hq hne
            simp only
            split <;> omega
      · simp [hz, hm]

/-- A sum in units of a power of two that no term is finer than. -/
theorem sumAt_value {vs : List FVal} {xs : List ℝ} (h : Stand vs xs) (e : Int)
    (he : ∀ n m k, FVal.fin n m k ∈ vs → m ≠ 0 → e ≤ k) : (sumAt e (vs.map Term.val) : ℝ) * (2 : ℝ) ^ e = xs.sum := by
  induction h with
  | nil => simp [sumAt]
  | @cons v x vs xs hv _ ih =>
    obtain ⟨n, m, k, rfl, rfl⟩ := FVal.is_fin hv
    have hi := ih (fun n' m' k' hm => he n' m' k' (List.mem_cons_of_mem _ hm))
    rw [List.sum_cons, List.map_cons, sumAt, Int.cast_add, add_mul, hi]
    congr 1
    by_cases hm : m = 0
    · simp [hm]
    · rw [if_neg hm, scaled_eq n m k e (he n m k List.mem_cons_self hm)]

/-- An exact sum of finite terms: its magnitude, its sign, and the sign of a zero (R44, R112, R182). -/
theorem sumTerms_fin (any : Bool) {vs : List FVal} {xs : List ℝ} (h : Stand vs xs) :
    ∃ neg n d, sumTerms any (vs.map Term.val) = .num neg n d ∧ 0 < d ∧ |xs.sum| = (n : ℝ) / d ∧
      (n ≠ 0 → (neg = true ↔ xs.sum < 0)) ∧
      (n = 0 → (neg = true ↔ vs ≠ [] ∧ ∀ v ∈ vs, v.isZero = true ∧ v.neg = true)) := by
  have hfin := h.fin
  obtain ⟨hmin, hnone⟩ := minExp_spec h
  have hsum := sumAt_value h
  have hnum : sumTerms any (vs.map Term.val) = match minExp (vs.map Term.val) with
      | none => .num (!vs.isEmpty && vs.all (fun v => v.neg)) 0 1
      | some e => .num (decide (sumAt e (vs.map Term.val) < 0)) (ratOf (sumAt e (vs.map Term.val)).natAbs e).1
          (ratOf (sumAt e (vs.map Term.val)).natAbs e).2 := by
    unfold sumTerms
    simp only
    rw [if_neg, if_neg, if_neg, if_neg]
    · cases minExp (vs.map Term.val) with
      | none => simp only [List.isEmpty_map, List.all_map]; rfl
      | some e => rfl
    · rw [List.any_eq_true]
      rintro ⟨t, ht, hb⟩
      obtain ⟨v, hv, rfl⟩ := List.mem_map.mp ht
      obtain ⟨n, m, e, rfl⟩ := hfin v hv
      exact absurd hb (by simp)
    · rw [List.any_eq_true]
      rintro ⟨t, ht, hb⟩
      obtain ⟨v, hv, rfl⟩ := List.mem_map.mp ht
      obtain ⟨n, m, e, rfl⟩ := hfin v hv
      exact absurd hb (by simp)
    · rw [Bool.and_eq_true, List.any_eq_true]
      rintro ⟨⟨t, ht, hb⟩, -⟩
      obtain ⟨v, hv, rfl⟩ := List.mem_map.mp ht
      obtain ⟨n, m, e, rfl⟩ := hfin v hv
      exact absurd hb (by simp)
    · rw [List.any_eq_true]
      rintro ⟨t, ht, hb⟩
      obtain ⟨v, hv, rfl⟩ := List.mem_map.mp ht
      obtain ⟨n, m, e, rfl⟩ := hfin v hv
      exact absurd hb (by simp [FVal.isNan])
  cases hm : minExp (vs.map Term.val) with
  | none =>
    rw [hm] at hnum
    have hz := hnone.mp hm
    have hs : xs.sum = 0 := by
      have := hsum 0 (fun n m k hmem hne => absurd (hz _ hmem) (by cases m <;> simp_all [FVal.isZero]))
      have h0 : sumAt 0 (vs.map Term.val) = 0 := by
        clear this hnum hnone hmin hm hsum h
        induction vs with
        | nil => rfl
        | cons v vs ih =>
          obtain ⟨n, m, e, rfl⟩ := hfin v List.mem_cons_self
          have hmz : m = 0 := by
            have := hz _ List.mem_cons_self
            cases m <;> simp_all [FVal.isZero]
          rw [List.map_cons, sumAt, if_pos hmz, ih (fun v hv => hfin v (List.mem_cons_of_mem _ hv))
            (fun v hv => hz v (List.mem_cons_of_mem _ hv)), add_zero]
      rw [← this, h0]
      simp
    refine ⟨_, 0, 1, hnum, Nat.one_pos, by simp [hs], fun h => absurd rfl h, fun _ => ?_⟩
    simp only [Bool.and_eq_true, Bool.not_eq_true', List.isEmpty_eq_false_iff, List.all_eq_true]
    exact ⟨fun ⟨h1, h2⟩ => ⟨h1, fun v hv => ⟨hz v hv, h2 v hv⟩⟩, fun ⟨h1, h2⟩ => ⟨h1, fun v hv => (h2 v hv).2⟩⟩
  | some e =>
    rw [hm] at hnum
    have hs := hsum e (hmin e hm)
    obtain ⟨hp, hv⟩ := ratOf_value (sumAt e (vs.map Term.val)).natAbs e
    have h2 := two_zpow_pos e
    refine ⟨_, _, _, hnum, hp, ?_, fun _ => ?_, fun hn => ?_⟩
    · rw [hv, ← hs, abs_mul, abs_of_pos h2, Nat.cast_natAbs, Int.cast_abs]
    · rw [decide_eq_true_iff, ← hs, mul_neg_iff]
      constructor
      · intro hlt
        exact .inr ⟨by exact_mod_cast hlt, h2⟩
      · rintro (⟨-, h⟩ | ⟨h, -⟩)
        · exact absurd h (not_lt.mpr h2.le)
        · exact_mod_cast h
    · have hz : (sumAt e (vs.map Term.val)).natAbs = 0 := by
        rw [hn] at hv
        have : ((sumAt e (vs.map Term.val)).natAbs : ℝ) = 0 := by
          have := hv.symm
          simpa [h2.ne'] using this
        exact_mod_cast this
      have hz' : ¬ sumAt e (vs.map Term.val) < 0 := by omega
      simp only [hz', decide_false, Bool.false_eq_true, false_iff, not_and]
      intro _ hall
      have := hnone.mpr (fun v hv => (hall v hv).1)
      rw [hm] at this
      exact absurd this (by simp)

/-- A zero's sign may be told apart only where the result is zero. -/
theorem Exactly.of_zero {m : Fmt} {x : ℝ} {n k : Bool} {r : Res} (h : Exactly m x n r) (hk : x = 0 → n = k) : Exactly m x k r :=
  ⟨fun h0 => hk h0 ▸ h.1 h0, h.2⟩

/-- An exact sum of finite values rounded once (R111, R112). -/
theorem sum_exactly {f : Fmt} (hf : f.Regular) (any : Bool) {vs : List FVal} {xs : List ℝ} (h : Stand vs xs) {zero : Bool}
    (hz : xs.sum = 0 → (zero = true ↔ vs ≠ [] ∧ ∀ v ∈ vs, v.isZero = true ∧ v.neg = true)) :
    Exactly f xs.sum zero ⟨(rneArith f (sumTerms any (vs.map Term.val))).1, (rneArith f (sumTerms any (vs.map Term.val))).2, false⟩ := by
  obtain ⟨neg, n, d, hs, hd, hv, hneg, hzero⟩ := sumTerms_fin any h
  rw [hs]
  refine (rneArith_exactly hf neg hd xs.sum hv hneg).of_zero (fun h0 => ?_)
  have hn : n = 0 := by
    rw [h0, abs_zero, eq_comm, div_eq_zero_iff] at hv
    rcases hv with hv | hv
    · exact_mod_cast hv
    · exact absurd hv (by exact_mod_cast hd.ne')
  rw [Bool.eq_iff_iff, hzero hn, hz h0]

/-- A value rounded once more (R190). -/
theorem res_exactly {f : Fmt} (hf : f.Regular) {v : FVal} {y : ℝ} (hy : v.Is y) :
    Exactly f y v.neg ⟨(rneArith f v.res).1, (rneArith f v.res).2, false⟩ := by
  obtain ⟨n, m, e, rfl, rfl⟩ := FVal.is_fin hy
  obtain ⟨hp, hv⟩ := ratOf_value m e
  have h2 := two_zpow_pos e
  refine rneArith_exactly hf n hp _ ((abs_value n m e).trans hv.symm) (fun hm => ?_)
  have hm0 : m ≠ 0 := by
    rintro rfl
    exact hm (by unfold ratOf; split <;> simp)
  have hpos : (0 : ℝ) < (m : ℝ) * (2 : ℝ) ^ e := mul_pos (by exact_mod_cast Nat.pos_of_ne_zero hm0) h2
  cases n
  · simp only [Bool.false_eq_true, if_false, false_iff, one_mul, not_lt]
    exact hpos.le
  · simp only [if_true, true_iff]
    linarith

/-- The BF16 values between the two products of `mmal` (R190). -/
theorem roundTwice_spec {vs : List FVal} {xs : List ℝ} {zero : Bool} (h : Stand vs xs)
    (hz : zero = true ↔ vs ≠ [] ∧ ∀ v ∈ vs, v.isZero = true ∧ v.neg = true) :
    ∃ m f g, Exactly f32 xs.sum zero ⟨m, f, false⟩ ∧ (roundTwice (vs.map Term.val)).2 = f ||| g ∧
      (∀ n, decodeF f32 m = .inf n → (roundTwice (vs.map Term.val)).1 = infCode bf16 n ∧ g = 0) ∧
      ∀ y : ℝ, (decodeF f32 m).Is y → Exactly bf16 y (decodeF f32 m).neg ⟨(roundTwice (vs.map Term.val)).1, g, false⟩ := by
  refine ⟨_, _, _, sum_exactly f32_regular true h (fun _ => hz), rfl, fun n hn => ?_, fun y hy => res_exactly bf16_regular hy⟩
  simp only [roundTwice, hn]
  exact ⟨rfl, rfl⟩

end Sys2Proof.Machine
end

section
/-! SUPPORT. Sums of scale groups (R184, R185). -/
namespace Sys2Proof.Machine

open Sys2Proof

/-! ## Cells that take a special value (R182, R184) -/

theorem not_odd_of_isNan {v : FVal} (h : v.isNan = false) : ¬ (Term.val v).odd := by
  rintro (h1 | ⟨b, h1⟩)
  · exact absurd h1 (by simp)
  · rw [Term.val.inj h1] at h
    exact absurd h (by simp [FVal.isNan])

/-- A NaN cell stays NaN and raises NV (R182). -/
theorem accumulate_nan {cell : Nat} (ts : List Term) (h : (decodeF fa40 cell).isNan = true) : accumulate cell ts = (fa40.nan, 16) := by
  obtain ⟨q, hq, ht⟩ := sumTerms_odd (any := true) (ts := .val (decodeF fa40 cell) :: ts) ⟨_, List.mem_cons_self, val_odd h⟩
  rw [accumulate, hq, ht rfl]
  rfl

/-- A cell and infinities of opposite signs make NaN with NV (R182). -/
theorem accumulate_opposite {cell : Nat} {n : Bool} (h : decodeF fa40 cell = .inf (!n)) :
    accumulate cell [.val (.inf n)] = (fa40.nan, 16) := by
  rw [accumulate, h, sumTerms_infs]
  · rfl
  · rintro ⟨t, ht, ho⟩
    simp only [List.mem_cons, List.not_mem_nil, or_false] at ht
    rcases ht with rfl | rfl <;> exact not_odd_of_isNan rfl ho
  · cases n <;> simp
  · cases n <;> simp

/-- Else an infinite term makes the cell infinite (R182). -/
theorem accumulate_inf {cell : Nat} {n : Bool} (h : (decodeF fa40 cell).isNan = false) (ho : decodeF fa40 cell ≠ .inf (!n)) :
    accumulate cell [.val (.inf n)] = (infCode fa40 n, 0) := by
  rw [accumulate, sumTerms_inf (n := n)]
  · rfl
  · rintro ⟨t, ht, hb⟩
    simp only [List.mem_cons, List.not_mem_nil, or_false] at ht
    rcases ht with rfl | rfl
    · exact not_odd_of_isNan h hb
    · exact not_odd_of_isNan rfl hb
  · simp
  · simp only [List.mem_cons, Term.val.injEq, FVal.inf.injEq, List.not_mem_nil, or_false, not_or]
    exact ⟨fun e => ho e.symm, by simp⟩

/-- An infinite cell and a finite term (R182). -/
theorem accumulate_fin_inf {cell : Nat} {n b : Bool} {m : Nat} {e : Int} (h : decodeF fa40 cell = .inf n) :
    accumulate cell [.val (.fin b m e)] = (infCode fa40 n, 0) := by
  rw [accumulate, h, sumTerms_inf (n := n)]
  · rfl
  · rintro ⟨t, ht, hb⟩
    simp only [List.mem_cons, List.not_mem_nil, or_false] at ht
    rcases ht with rfl | rfl <;> exact not_odd_of_isNan rfl hb
  · simp
  · simp

/-- A finite cell and a signed multiple of a power of two (R182, R185). -/
theorem accumulate_fin {cell : Nat} {z : ℝ} (acc e : Int) (hz : (decodeF fa40 cell).Is z) :
    Exactly fa40 (z + acc * (2 : ℝ) ^ e) false ⟨(accumulate cell [.val (.fin (decide (acc < 0)) acc.natAbs e)]).1,
      (accumulate cell [.val (.fin (decide (acc < 0)) acc.natAbs e)]).2, false⟩ := by
  have hs : Stand [decodeF fa40 cell, .fin (decide (acc < 0)) acc.natAbs e] [z, acc * (2 : ℝ) ^ e] := by
    refine .cons hz (.cons ?_ .nil)
    simp only [FVal.Is, Nat.cast_natAbs, Int.cast_abs]
    by_cases hn : acc < 0
    · have : (acc : ℝ) < 0 := by exact_mod_cast hn
      simp [hn, abs_of_neg this]
    · have : (0 : ℝ) ≤ acc := by exact_mod_cast not_lt.mp hn
      simp [hn, abs_of_nonneg this]
  have hx := sum_exactly fa40_regular true hs (zero := false) (fun _ => ?_)
  · simpa [accumulate] using hx
  · simp only [Bool.false_eq_true, false_iff, not_and]
    intro _ hall
    obtain ⟨h1, h2⟩ := hall (.fin (decide (acc < 0)) acc.natAbs e) (by simp)
    have hne : acc < 0 := by simpa [FVal.neg] using h2
    cases hm : acc.natAbs with
    | zero => omega
    | succ k => rw [hm] at h1; exact absurd h1 (by simp [FVal.isZero])

/-! ## The groups of a cell (R184) -/

/-- A group's contribution: its magnitude in units of the last place kept, truncated (R184). -/
theorem alignedTerm_spec {T : Nat} {emax : Int} {g : ScaleGroup} {vs : List FVal} {xs : List ℝ} (hg : g.terms = vs.map Term.val)
    (h : Stand vs xs) {part : ℝ} (hp : part = |xs.sum| * (2 : ℝ) ^ ((g.sa : Int) + g.sb - 254 - emax + T)) :
    (alignedTerm T emax g).1 = (if xs.sum < 0 then -1 else 1) * ⌊part⌋ ∧
      ((alignedTerm T emax g).2 = true ↔ (⌊part⌋ : ℝ) ≠ part) := by
  obtain ⟨neg, n, d, hs, hd, hv, hneg, -⟩ := sumTerms_fin false h
  obtain ⟨hq, hr⟩ := scaleRat_value n d (emax - T - ((g.sa : Int) + g.sb - 254)) hd
  set r := scaleRat n d (emax - T - ((g.sa : Int) + g.sb - 254)) with hrdef
  have hpart : part = (r.1 : ℝ) / r.2 := by
    rw [hp, hr, ← hv, div_eq_mul_inv, ← zpow_neg]
    congr 2
    ring
  have hmod : ((r.1 % r.2 : Nat) : ℝ) < r.2 := by exact_mod_cast Nat.mod_lt _ hq
  have hq' : (0 : ℝ) < r.2 := by exact_mod_cast hq
  have hsplit := div_eq_add r.1 r.2 hq
  have hfl : ⌊part⌋ = ((r.1 / r.2 : Nat) : Int) := by
    rw [Int.floor_eq_iff, hpart, hsplit]
    have h0 : (0 : ℝ) ≤ ((r.1 % r.2 : Nat) : ℝ) / r.2 := by positivity
    have h1 : ((r.1 % r.2 : Nat) : ℝ) / r.2 < 1 := (div_lt_one hq').mpr hmod
    constructor
    · rw [Int.cast_natCast]; linarith
    · rw [Int.cast_natCast]; linarith
  have hal : alignedTerm T emax g = (if neg then -((r.1 / r.2 : Nat) : Int) else ((r.1 / r.2 : Nat) : Int), decide (r.1 % r.2 ≠ 0)) := by
    unfold alignedTerm
    rw [hg, hs]
  rw [hal]
  refine ⟨?_, ?_⟩
  · rw [hfl]
    by_cases hn : n = 0
    · have hz : r.1 / r.2 = 0 := by
        have hx : part = 0 := by rw [hp, hv, hn]; simp
        rw [hx, Int.floor_zero] at hfl
        exact_mod_cast hfl.symm
      simp [hz]
    · have := hneg hn
      by_cases hx : xs.sum < 0
      · simp [hx, this.mpr hx]
      · have hf : neg = false := by simpa using fun h => hx (this.mp h)
        simp [hx, hf]
  · rw [decide_eq_true_iff, hfl, hpart, hsplit, Int.cast_natCast]
    have hz : ((r.1 % r.2 : Nat) : ℝ) / r.2 = 0 ↔ r.1 % r.2 = 0 := by
      rw [div_eq_zero_iff]
      constructor
      · rintro (h | h)
        · exact_mod_cast h
        · exact absurd h hq'.ne'
      · intro h
        exact .inl (by exact_mod_cast h)
    rw [ne_eq, ne_eq, not_iff_not, ← hz]
    constructor <;> intro h <;> linarith

theorem foldl_greatest {E : Int} (es : List Int) (m : Int) (hm : m ≤ E) (h : ∀ e ∈ es, e ≤ E) (hE : m = E ∨ E ∈ es) :
    es.foldl (fun m e => if e > m then e else m) m = E := by
  induction es generalizing m with
  | nil => exact hE.resolve_right (by simp)
  | cons e es ih =>
    have he := h e List.mem_cons_self
    rw [List.foldl_cons]
    refine ih _ (by split <;> assumption) (fun x hx => h x (List.mem_cons_of_mem _ hx)) ?_
    rcases hE with rfl | hE
    · exact .inl (if_neg (not_lt.mpr he))
    · rcases List.mem_cons.mp hE with rfl | hE
      · refine .inl ?_
        split <;> omega
      · exact .inr hE

/-- The greatest of the exponents (R184). -/
theorem maxOf_eq {E : Int} {es : List Int} (h : ∀ e ∈ es, e ≤ E) (hE : E ∈ es) : maxOf es = E := by
  refine foldl_greatest es _ ?_ h (.inr hE)
  cases es with
  | nil => exact absurd hE (by simp)
  | cons e es => exact h e List.mem_cons_self

/-- The terms of all groups stand for real numbers where those of each do. -/
theorem stand_flatMap {gs : List ScaleGroup} (h : ∀ g ∈ gs, ∃ vs xs, g.terms = vs.map Term.val ∧ Stand vs xs) :
    ∃ vs xs, gs.flatMap (fun g => g.terms) = vs.map Term.val ∧ Stand vs xs := by
  induction gs with
  | nil => exact ⟨[], [], rfl, .nil⟩
  | cons g gs ih =>
    obtain ⟨vs, xs, hv, hs⟩ := h g List.mem_cons_self
    obtain ⟨ws, ys, hw, ht⟩ := ih (fun g hg => h g (List.mem_cons_of_mem _ hg))
    exact ⟨vs ++ ws, xs ++ ys, by rw [List.flatMap_cons, hv, hw, List.map_append], List.rel_append hs ht⟩

/-- No scale of the groups is the NaN code (R184). -/
theorem noNanScale {gs : List ScaleGroup} : gs.any (fun g => g.sa == 0xFF || g.sb == 0xFF) = true ↔ ∃ g ∈ gs, g.sa = 255 ∨ g.sb = 255 := by
  simp [List.any_eq_true]

/-- The special values of a cell of a block format (R184). -/
theorem accumulateBlocks_nan {f : BFmt} {cell : Nat} {gs : List ScaleGroup}
    (h : ((∃ g ∈ gs, g.sa = 255 ∨ g.sb = 255) ∨ ∃ t ∈ gs.flatMap (fun g => g.terms), t.odd) ∨
      Term.val (.inf true) ∈ gs.flatMap (fun g => g.terms) ∧ Term.val (.inf false) ∈ gs.flatMap (fun g => g.terms)) :
    accumulateBlocks f cell gs = (fa40.nan, 16) := by
  unfold accumulateBlocks
  split
  · rfl
  · next hs =>
    rw [noNanScale] at hs
    by_cases ho : ∃ t ∈ gs.flatMap (fun g => g.terms), t.odd
    · obtain ⟨q, hq, -⟩ := sumTerms_odd (any := true) ho
      rw [hq]
      rfl
    · obtain ⟨ht, hf⟩ := h.resolve_left (fun h => h.elim hs ho)
      rw [sumTerms_infs ho hf ht]
      rfl

theorem accumulateBlocks_inf {f : BFmt} {cell : Nat} {gs : List ScaleGroup} {n : Bool}
    (hs : ¬ ∃ g ∈ gs, g.sa = 255 ∨ g.sb = 255) (ho : ¬ ∃ t ∈ gs.flatMap (fun g => g.terms), t.odd)
    (hn : Term.val (.inf n) ∈ gs.flatMap (fun g => g.terms)) (hno : Term.val (.inf (!n)) ∉ gs.flatMap (fun g => g.terms)) :
    accumulateBlocks f cell gs = accumulate cell [.val (.inf n)] := by
  unfold accumulateBlocks
  rw [if_neg (mt noNanScale.mp hs), sumTerms_inf ho hn hno]

/-- Where no term is special, a cell takes the sum of the groups' contributions (R184, R185). -/
theorem accumulateBlocks_fin {f : BFmt} {cell : Nat} {gs : List ScaleGroup} (hs : ¬ ∃ g ∈ gs, g.sa = 255 ∨ g.sb = 255)
    {vs : List FVal} {xs : List ℝ} (hv : gs.flatMap (fun g => g.terms) = vs.map Term.val) (h : Stand vs xs) {E acc : Int}
    (hE : maxOf (gs.map (fun g => (g.sa : Int) + g.sb - 254)) = E)
    (hacc : (gs.map (alignedTerm f.accT E)).foldl (fun z p => z + p.1) 0 = acc) :
    (accumulateBlocks f cell gs).1 = (accumulate cell [.val (.fin (decide (acc < 0)) acc.natAbs (E - f.accT))]).1 ∧
    (accumulateBlocks f cell gs).2 = (accumulate cell [.val (.fin (decide (acc < 0)) acc.natAbs (E - f.accT))]).2 |||
      (if (gs.map (alignedTerm f.accT E)).any (fun p => p.2) then flNX else 0) := by
  obtain ⟨neg, n, d, hn, -⟩ := sumTerms_fin true h
  unfold accumulateBlocks
  rw [if_neg (mt noNanScale.mp hs), hv, hn]
  simp only [hE, hacc, and_self]

/-- The contributions of the groups, by their places. -/
theorem alignedTerm_getElem {T : Nat} {E : Int} {gs : List ScaleGroup} {S : Nat → ℝ} {ex : Nat → Int} {part : Nat → ℝ}
    (hS : ∀ k g, gs[k]? = some g → ∃ (vs : List FVal) (xs : List ℝ), g.terms = vs.map Term.val ∧ Stand vs xs ∧ S k = xs.sum)
    (hex : ∀ k g, gs[k]? = some g → ex k = (g.sa : Int) + g.sb - 254)
    (hpart : ∀ k, part k = |S k| * (2 : ℝ) ^ (ex k - E + T)) (k : Nat) (hk : k < gs.length) :
    (alignedTerm T E gs[k]).1 = (if S k < 0 then -1 else 1) * ⌊part k⌋ ∧ ((alignedTerm T E gs[k]).2 = true ↔ (⌊part k⌋ : ℝ) ≠ part k) := by
  have hg : gs[k]? = some gs[k] := List.getElem?_eq_getElem hk
  obtain ⟨vs, xs, hv, hs, hx⟩ := hS k _ hg
  rw [hx]
  refine alignedTerm_spec hv hs ?_
  rw [hpart, hex k _ hg, hx]

theorem foldl_contributions (ps : List (Int × Bool)) (z : Int) : ps.foldl (fun z p => z + p.1) z = z + (ps.map Prod.fst).sum := by
  induction ps generalizing z with
  | nil => simp
  | cons p ps ih => rw [List.foldl_cons, ih, List.map_cons, List.sum_cons, add_assoc]

/-- R184, R185: a cell of a block format. -/
theorem blockCell (f : BFmt) (T cell : Nat) (gs : List ScaleGroup)
    (hf : (f, T) ∈ ([(.mxe4, 16), (.mxe5, 2), (.mxi8, 31), (.mxe2, 27), (.kx8, 32), (.kx5, 32), (.kx3, 31)] : List (BFmt × Nat))) :
    let r := accumulateBlocks f cell gs
    let ts := gs.flatMap (fun g => g.terms)
    let infs (n : Bool) := Term.val (.inf n) ∈ ts
    let odd := (∃ g ∈ gs, g.sa = 255 ∨ g.sb = 255) ∨ Term.invalid ∈ ts ∨ (∃ b, Term.val (.nan b) ∈ ts)
    (odd ∨ (infs true ∧ infs false) → r = (fa40.nan, 16)) ∧
    (∀ n, ¬ odd → infs n → ¬ infs (!n) →
      ((decodeF fa40 cell).isNan = true ∨ decodeF fa40 cell = .inf (!n) → r = (fa40.nan, 16)) ∧
      ((decodeF fa40 cell).isNan = false → decodeF fa40 cell ≠ .inf (!n) → r = (infCode fa40 n, 0))) ∧
    (∀ (S : Nat → ℝ) (E acc : Int), ¬ (∃ g ∈ gs, g.sa = 255 ∨ g.sb = 255) →
      (∀ k g, gs[k]? = some g → ∃ (vs : List FVal) (xs : List ℝ), g.terms = vs.map Term.val ∧ List.Forall₂ FVal.Is vs xs ∧
        S k = xs.sum) →
      let ex (k : Nat) : Int := match gs[k]? with | some g => (g.sa : Int) + g.sb - 254 | none => 0
      let part (k : Nat) : ℝ := |S k| * (2 : ℝ) ^ (ex k - E + T)
      (∀ k, k < gs.length → ex k ≤ E) → (∃ k, k < gs.length ∧ ex k = E) →
      acc = ((List.range gs.length).map (fun k => (if S k < 0 then -1 else 1) * ⌊part k⌋)).sum →
      ∃ fl, (∀ n, r.2.testBit n = true ↔ fl.testBit n = true ∨ n = 0 ∧ ∃ k, k < gs.length ∧ (⌊part k⌋ : ℝ) ≠ part k) ∧
        (∀ z : ℝ, (decodeF fa40 cell).Is z → Exactly fa40 (z + acc * (2 : ℝ) ^ (E - T)) false ⟨r.1, fl, false⟩) ∧
        ((decodeF fa40 cell).isNan = true → r.1 = fa40.nan ∧ fl = 16) ∧
        ∀ n, decodeF fa40 cell = .inf n → r.1 = infCode fa40 n ∧ fl = 0) := by
  intro r ts infs odd
  have hT : f.accT = T := by
    simp only [List.mem_cons, Prod.mk.injEq, List.not_mem_nil, or_false] at hf
    rcases hf with ⟨rfl, rfl⟩ | ⟨rfl, rfl⟩ | ⟨rfl, rfl⟩ | ⟨rfl, rfl⟩ | ⟨rfl, rfl⟩ | ⟨rfl, rfl⟩ | ⟨rfl, rfl⟩ <;> rfl
  have hodd : odd ↔ (∃ g ∈ gs, g.sa = 255 ∨ g.sb = 255) ∨ ∃ t ∈ ts, t.odd := by
    refine or_congr Iff.rfl ⟨?_, ?_⟩
    · rintro (h | ⟨b, h⟩)
      · exact ⟨_, h, .inl rfl⟩
      · exact ⟨_, h, .inr ⟨b, rfl⟩⟩
    · rintro ⟨t, ht, rfl | ⟨b, rfl⟩⟩
      · exact .inl ht
      · exact .inr ⟨b, ht⟩
  refine ⟨fun h => accumulateBlocks_nan (h.imp_left hodd.mp), fun n ho hi hn => ?_, ?_⟩
  · rw [hodd, not_or] at ho
    have hr : r = accumulate cell [.val (.inf n)] := accumulateBlocks_inf ho.1 ho.2 hi hn
    rw [hr]
    exact ⟨fun h => h.elim (accumulate_nan _) accumulate_opposite, accumulate_inf⟩
  · intro S E acc hs hS ex part hle hmax hacc
    have hex : ∀ k g, gs[k]? = some g → ex k = (g.sa : Int) + g.sb - 254 := fun k g hg => by simp only [ex, hg]
    have hlt : ∀ k (hk : k < gs.length), ex k = (gs[k].sa : Int) + gs[k].sb - 254 := fun k hk => hex k _ (List.getElem?_eq_getElem hk)
    have hE : maxOf (gs.map (fun g => (g.sa : Int) + g.sb - 254)) = E := by
      refine maxOf_eq (fun e he => ?_) ?_
      · obtain ⟨g, hg, rfl⟩ := List.mem_map.mp he
        obtain ⟨k, hk, rfl⟩ := List.getElem_of_mem hg
        exact hlt k hk ▸ hle k hk
      · obtain ⟨k, hk, rfl⟩ := hmax
        exact List.mem_map.mpr ⟨gs[k], List.getElem_mem hk, (hlt k hk).symm⟩
    have hal := alignedTerm_getElem (T := T) (E := E) hS hex (part := part) (fun _ => rfl)
    have hsum : (gs.map (alignedTerm f.accT E)).foldl (fun z p => z + p.1) 0 = acc := by
      rw [foldl_contributions, zero_add, hacc, hT]
      congr 1
      refine List.ext_getElem (by simp) (fun k h1 h2 => ?_)
      simp only [List.getElem_map, List.getElem_range]
      exact (hal k (by simpa using h1)).1
    obtain ⟨vs, xs, hv, hst⟩ := stand_flatMap (gs := gs) (fun g hg => by
      obtain ⟨k, hk, rfl⟩ := List.getElem_of_mem hg
      obtain ⟨vs, xs, h1, h2, -⟩ := hS k _ (List.getElem?_eq_getElem hk)
      exact ⟨vs, xs, h1, h2⟩)
    obtain ⟨h1, h2⟩ := accumulateBlocks_fin (f := f) (cell := cell) hs hv hst hE hsum
    rw [hT] at h1 h2
    refine ⟨(accumulate cell [.val (.fin (decide (acc < 0)) acc.natAbs (E - T))]).2, fun n => ?_, fun z hz => ?_, fun hn => ?_,
      fun n hn => ?_⟩
    · rw [show r.2 = _ from h2, Nat.testBit_or, Bool.or_eq_true]
      refine or_congr Iff.rfl ?_
      have hany : (gs.map (alignedTerm T E)).any (fun p => p.2) = true ↔ ∃ k, k < gs.length ∧ (⌊part k⌋ : ℝ) ≠ part k := by
        rw [List.any_eq_true]
        constructor
        · rintro ⟨p, hp, hb⟩
          obtain ⟨g, hg, rfl⟩ := List.mem_map.mp hp
          obtain ⟨k, hk, rfl⟩ := List.getElem_of_mem hg
          exact ⟨k, hk, (hal k hk).2.mp hb⟩
        · rintro ⟨k, hk, hb⟩
          exact ⟨_, List.mem_map.mpr ⟨gs[k], List.getElem_mem hk, rfl⟩, (hal k hk).2.mpr hb⟩
      rw [← hany]
      split
      · next h => simp [h, flNX, Nat.testBit_one_eq_true_iff_self_eq_zero]
      · next h => simp [h]
    · rw [show r.1 = _ from h1]
      exact accumulate_fin acc (E - T) hz
    · rw [show r.1 = _ from h1, accumulate_nan _ hn]
      exact ⟨rfl, rfl⟩
    · rw [show r.1 = _ from h1, accumulate_fin_inf hn]
      exact ⟨rfl, rfl⟩

end Sys2Proof.Machine
end

section
/-! OBLIGATION O39. The matrix instructions (R174 to R194). -/
namespace Sys2Proof.Machine

open Sys2Proof

/-! ## `fmt` (R174) -/

theorem toNat_append_add {m n : Nat} (x : BitVec m) (y : BitVec n) : (x ++ y).toNat = x.toNat * 2 ^ n + y.toNat := by
  rw [BitVec.toNat_append, ← Nat.shiftLeft_add_eq_or_of_lt y.isLt, Nat.shiftLeft_eq]

/-- The word that `fmt` keeps is its slot word. -/
theorem fmtWord_eq (f : BitVec 5) (u x : BitVec 1) (b c : BitVec 7) :
    fmtWord f u x b c = (Sys2Proof.pack 0x44 0 (x ++ u ++ f) b c).toNat := by
  simp only [fmtWord, Sys2Proof.pack, toNat_append_add, BitVec.toNat_ofNat]
  omega

theorem fmt_done {s : State} (f : BitVec 5) (u x : BitVec 1) (b c : BitVec 7) (hs : SlotRuns s 0x44 0) :
    ∃ h : Hart, exec (.fmt f u x b c) s = .next (completed s (withCur s h)) ∧
      h = { cur s with hstat := h.hstat, pxStack := h.pxStack } ∧ h.pxp = true ∧
      bits h.hstat 63 32 = (Sys2Proof.pack 0x44 0 (x ++ u ++ f) b c).toNat ∧
      ∀ k, k < 32 → k ≠ 8 → h.hstat.getLsbD k = (cur s).hstat.getLsbD k := by
  refine ⟨setPrefix (fmtWord f u x b c) (cur s), runSlot_runs _ _ _ _ hs, rfl, ?_, ?_, fun k hk h8 => ?_⟩
  · change (withBits (withBits (cur s).hstat 8 8 1) 63 32 (fmtWord f u x b c)).getLsbD 8 = true
    rw [getLsbD_withBits _ _ _ _ _ (by decide) (by decide), if_neg (by decide), getLsbD_withBits _ _ _ _ _ (by decide) (by decide)]
    rfl
  · rw [fmtWord_eq]
    exact bits_withBits_same _ _ _ _ (by decide) (by decide) (BitVec.isLt _)
  · change (withBits _ 63 32 _).getLsbD k = _
    rw [getLsbD_withBits _ _ _ _ _ (by decide) (by decide), if_neg (by omega), getLsbD_withBits _ _ _ _ _ (by decide) (by decide),
      if_neg (by omega)]

/-! ## The checks of a matrix instruction (R194) -/

theorem withClaims_other {s : State} {hk t : Nat} {ok : Bool} {k : SlotRes} (ht : t = 0 ∨ t = 1) (ho : ownsTile s hk t = false) :
    withClaims s hk [t] ok k = .trap cACCCLAIM t 0 0 0 s := by
  rcases ht with rfl | rfl <;> simp [withClaims, ho]

theorem withClaims_infuser {s : State} {hk t : Nat} {k : SlotRes} (ho : ownsTile s hk t = true) :
    withClaims s hk [t] false k = .trap cACCCLAIM 2 0 0 0 s := by
  unfold withClaims
  have h : ∀ n, ([t].contains n && !ownsTile s hk n) = false := by
    intro n
    by_cases hn : n = t
    · simp [hn, ho]
    · simp [hn]
  rw [h 0, h 1]
  rfl

/-- On a tile and an infuser of the hart's own, in the right mode, with the slot open and nothing in flight, the
instruction enters the array. -/
theorem issueMatrix_ready {s : State} {t mode : Nat} {usesW : Bool} {k : SlotRes} (hr : TileReady s t)
    (hw : usesW = true → ownsInfuser s s.cur = true) (hm : (curCore s).cellMode t = mode)
    (hopen : slotOpen (curCore s) (cur s).ctxid.toNat = true) : issueMatrix s s.cur t mode usesW true k = k := by
  obtain ⟨ho, hb, hwt⟩ := hr
  have hm' : (getCore s (coreOf s.cur)).cellMode t = mode := hm
  have hopen' : slotOpen (getCore s (coreOf s.cur)) (getHart s s.cur).ctxid.toNat = true := hopen
  unfold issueMatrix
  rw [withClaims_owned _ _ _ _ _ (fun k hk => by rw [List.mem_singleton.mp hk]; exact ho)]
  · simp only [hm', hopen', ne_eq, not_true_eq_false, Bool.true_eq_false, or_self, if_false]
    exact whenFree_ready _ _ _ _ hb hwt
  · cases usesW
    · rfl
    · simp [hw rfl]

/-- The tile's cells, the flags and the instruction in flight after rows of a tile have been computed (R178, R182). -/
theorem rowsDone_of {s : State} {i : Instr} {t m fl : Nat} {usesW : Bool} {T : SMap (BitVec 40)} {f : Nat → Nat → Nat × Nat}
    {more : Nat → Prop} (ht : t = 0 ∨ t = 1)
    (hx : exec i s = .next (finishSlot s.cur (cur s).prefixLive (finishRows s s.cur t usesW (T, fl))))
    (hT : ∀ i j, i < 32 → j < 32 → cellAt T (32 * i + j) = if i < m ∧ (cur s).selBit i = true then (f i j).1 % 2 ^ 40
      else cellAt ((curCore s).tile t) (32 * i + j))
    (hfl : ∀ k, fl.testBit k = true ↔ (∃ i j, i < m ∧ (cur s).selBit i = true ∧ j < 32 ∧ (f i j).2.testBit k = true) ∨ more k) :
    RowsDone s t m usesW f more (exec i s) := by
  refine ⟨fly s.cur [t] usesW ((curCore s).setTile t T), fl, hx, ?_, ?_, ?_, hfl⟩
  · rcases ht with rfl | rfl <;> exact ⟨hT, rfl, rfl⟩
  · rcases ht with rfl | rfl <;> rfl
  · rcases ht with rfl | rfl <;> exact fun _ => ⟨rfl, rfl⟩

/-- The rows that `updateRows` computes are those of R178. -/
theorem rowsDone_update {s : State} {i : Instr} {t m : Nat} {f : Nat → Nat → Nat × Nat} (ht : t = 0 ∨ t = 1)
    (hx : exec i s = .next (finishSlot s.cur (cur s).prefixLive (finishRows s s.cur t false
      (updateRows ((curCore s).tile t) (activeRows (cur s) m) f)))) : RowsDone s t m false f (fun _ => False) (exec i s) := by
  refine rowsDone_of (T := (updateRows ((curCore s).tile t) (activeRows (cur s) m) f).1)
    (fl := (updateRows ((curCore s).tile t) (activeRows (cur s) m) f).2) ht hx (fun i j _ hj => ?_) (fun k => ?_)
  · rw [cellAt_updateRows _ _ _ _ _ hj]
    simp only [mem_activeRows]
  · rw [testBit_updateRows]
    simp only [mem_activeRows, and_assoc, or_false]

/-! ## Operands (R176 to R181) -/

theorem rowsOf_some {h : Hart} {k : Nat} (h1 : h.len % k = 0) (h2 : h.len ≤ 32 * k) : rowsOf h k = some (h.len / k) := if_pos ⟨h1, h2⟩

theorem of_guard {α : Type} {p : Prop} [Decidable p] {f : Unit → Option α} {x : α} (h : (guard p >>= f) = some x) : p ∧ f () = some x := by
  by_cases hp : p
  · rw [guard, if_pos hp] at h
    exact ⟨hp, h⟩
  · rw [guard, if_neg hp] at h
    exact absurd h (by simp [failure])

/-- The container width of the format read is SEW (R177). -/
theorem matrixFmt_width {h : Hart} {fn : Nat} {p : Pfx} (hp : matrixFmt h fn = some p) : p.f.width = h.sew ∧ (fn = 1 → p.f.isInt = true) := by
  unfold matrixFmt at hp
  split at hp
  · obtain ⟨q, -, hq⟩ := Option.bind_eq_some_iff.mp hp
    obtain ⟨hw, hq⟩ := of_guard hq
    obtain ⟨-, hq⟩ := of_guard hq
    have hpq : q = p := by
      split at hq
      · exact Option.some.inj (of_guard hq).2
      · exact Option.some.inj (of_guard hq).2
    exact ⟨hpq ▸ hw.1, fun h => hpq ▸ hw.2.mpr h⟩
  · split at hp
    · split at hp
      · next h8 => rw [← Option.some.inj hp, h8]; exact ⟨rfl, fun _ => rfl⟩
      · split at hp
        · next h4 => rw [← Option.some.inj hp, h4]; exact ⟨rfl, fun _ => rfl⟩
        · exact absurd hp (by simp)
    · next hne =>
      split at hp
      · next h16 => rw [← Option.some.inj hp, h16]; exact ⟨rfl, fun h => absurd h hne⟩
      · exact absurd hp (by simp)

theorem isInt_plain {f : BFmt} (h : f.isInt = true) : f.block = 0 := by
  revert h
  cases f <;> decide

theorem readScaleGroup_plain {x : Local} {f : BFmt} {sp a c : BitVec 7} {ga : Nat} (h : f.block = 0) :
    readScaleGroup x f sp a ga c = some 0 := if_pos h

theorem matOperands_some {fn : Nat} {x : Local} {a b c : BitVec 7} {t av bv sa sb : Nat} {p : Pfx} (ht : tileOf a = some t)
    (hp : matrixFmt x.h fn = some p) (h1 : x.h.len % (256 / x.h.sew) = 0) (h2 : x.h.len ≤ 32 * (256 / x.h.sew))
    (ha : readV x b x.h.grp = some av) (hc : c.toNat % 8 = 0) (hc' : c.toNat + 8 ≤ 96) (hb : readRun x c.toNat 8 = some bv)
    (hsa : readScaleGroup x p.f p.b b x.h.grp c = some sa) (hsb : readScaleGroup x p.f p.c b x.h.grp c = some sb) :
    matOperands fn x a b c = some ⟨t, p, 256 / x.h.sew, x.h.len / (256 / x.h.sew), av, bv, sa, sb⟩ := by
  have hB : readTileOperand x c = some bv := by
    simp only [readTileOperand, guard, hc, hc', and_self, if_true, Option.pure_def, Option.bind_eq_bind, Option.bind_some, hb]
  simp only [matOperands, ht, hp, rowsOf_some h1 h2, ha, hB, hsa, hsb, Option.bind_eq_bind, Option.bind_some]

end Sys2Proof.Machine
end

section
/-! OBLIGATION O39. The matrix instructions, one by one (R178 to R194). -/
namespace Sys2Proof.Machine

open Sys2Proof

/-! ## `mma` and `mmai` (R182 to R185) -/

/-- `mma` with its operands, on a tile that is ready. -/
theorem mma_rows {s : State} {a b c : BitVec 7} {o : MatOps} (ht : o.tile = 0 ∨ o.tile = 1) (hs : SlotRuns s 0x45 0)
    (ho : matOperands 0 (curLocal s) a b c = some o) (hr : TileReady s o.tile) (hm : (curCore s).cellMode o.tile = 0)
    (hopen : slotOpen (curCore s) (cur s).ctxid.toNat = true) :
    RowsDone s o.tile o.m false (fun i n => mmaCell o (cellAt ((curCore s).tile o.tile) (32 * i + n)) i n) (fun _ => False)
      (exec (.mma a b c) s) := by
  refine rowsDone_update ht ((runSlot_runs _ _ _ _ hs).trans ?_)
  have ho' : matOperands 0 (getLocal s s.cur) a b c = some o := ho
  simp only [mma, ho']
  rw [issueMatrix_ready hr (fun h => absurd h (by decide)) hm hopen]
  rfl

/-- A cell of a format without blocks (R180, R182). -/
theorem mmaCell_plain {o : MatOps} (h : o.p.f.block = 0) (cell i n : Nat) : mmaCell o cell i n =
    rneArith fa40 (sumTerms true (.val (decodeF fa40 cell) :: (List.range o.k).map (fun k =>
      mulTerm (bfmtValue o.p.f false 0 0 (elem o.av (i * o.k + k) o.p.f.width))
        (bfmtValue o.p.f false 0 0 (elem o.bv (n * o.k + k) o.p.f.width))))) := by
  simp only [mmaCell, if_pos h]
  rfl

/-- A cell of a block format (R180, R184). -/
theorem mmaCell_block {o : MatOps} (h : o.p.f.block ≠ 0) (cell i n : Nat) : mmaCell o cell i n =
    accumulateBlocks o.p.f cell ((List.range o.p.f.gb).map (fun g =>
      let xa := elem o.sa (i * o.p.f.gb + g) o.p.f.scaleWidth
      let xb := elem o.sb (n * o.p.f.gb + g) o.p.f.scaleWidth
      ⟨(List.range (o.k / o.p.f.gb)).map (fun j => mulTerm
        (blockElem o.p.f xa j (elem o.av (i * o.k + g * (o.k / o.p.f.gb) + j) o.p.f.width))
        (blockElem o.p.f xb j (elem o.bv (n * o.k + g * (o.k / o.p.f.gb) + j) o.p.f.width))), xa % 256, xb % 256⟩)) := by
  simp only [mmaCell, if_neg h]

/-- `mma` (R178 to R185). -/
theorem mma_done {s : State} {a b c : BitVec 7} {t av bv sa sb : Nat} {p : Pfx} (ht : tileOf a = some t) (hc : c.toNat % 8 = 0)
    (hopen : slotOpen (curCore s) (cur s).ctxid.toNat = true) (hr : TileReady s t) (hs : SlotRuns s 0x45 0)
    (hp : matrixFmt (cur s) 0 = some p) (h1 : (cur s).len % (256 / (cur s).sew) = 0) (h2 : (cur s).len ≤ 32 * (256 / (cur s).sew))
    (ha : readV (curLocal s) b (cur s).grp = some av) (hc' : c.toNat + 8 ≤ 96) (hb : readRun (curLocal s) c.toNat 8 = some bv)
    (hsa : readScaleGroup (curLocal s) p.f p.b b (cur s).grp c = some sa)
    (hsb : readScaleGroup (curLocal s) p.f p.c b (cur s).grp c = some sb) (hm : (curCore s).cellMode t = 0) :
    let K := 256 / (cur s).sew
    let M := (cur s).len / K
    let cell (i n : Nat) := cellAt ((curCore s).tile t) (32 * i + n)
    (p.f.block = 0 → RowsDone s t M false (fun i n => rneArith fa40 (sumTerms true (.val (decodeF fa40 (cell i n)) ::
        (List.range K).map (fun k => mulTerm (bfmtValue p.f false 0 0 (elem av (i * K + k) (cur s).sew))
          (bfmtValue p.f false 0 0 (elem bv (n * K + k) (cur s).sew)))))) (fun _ => False)
      (exec (.mma a b c) s)) ∧
    (p.f.block ≠ 0 → RowsDone s t M false (fun i n => accumulateBlocks p.f (cell i n)
        ((List.range p.f.gb).map (fun g =>
          let xa := elem sa (i * p.f.gb + g) p.f.scaleWidth
          let xb := elem sb (n * p.f.gb + g) p.f.scaleWidth
          ⟨(List.range (K / p.f.gb)).map (fun j => mulTerm
            (blockElem p.f xa j (elem av (i * K + g * (K / p.f.gb) + j) (cur s).sew))
            (blockElem p.f xb j (elem bv (n * K + g * (K / p.f.gb) + j) (cur s).sew))), xa % 256, xb % 256⟩)))
      (fun _ => False) (exec (.mma a b c) s)) := by
  intro K M cell
  have ho : matOperands 0 (curLocal s) a b c = some ⟨t, p, K, M, av, bv, sa, sb⟩ :=
    matOperands_some (x := curLocal s) ht hp h1 h2 ha hc hc' hb hsa hsb
  have hrows := mma_rows (o := ⟨t, p, K, M, av, bv, sa, sb⟩) (tileOf_cases ht) hs ho hr hm hopen
  have hw : p.f.width = (cur s).sew := (matrixFmt_width hp).1
  refine ⟨fun h0 => ?_, fun h0 => ?_⟩
  · simpa only [mmaCell_plain (o := ⟨t, p, K, M, av, bv, sa, sb⟩) h0, hw] using hrows
  · simpa only [mmaCell_block (o := ⟨t, p, K, M, av, bv, sa, sb⟩) h0, hw] using hrows

/-- The sum of a cell of `mmai` (R183). -/
theorem mmaiSum_eq (o : MatOps) (cell i n : Nat) : mmaiSum o cell i n = toSigned 40 cell + ((List.range o.k).map (fun k =>
    intElem o.p.u o.p.f.width o.av (i * o.k + k) * intElem o.p.u o.p.f.width o.bv (n * o.k + k))).sum := by
  unfold mmaiSum
  generalize toSigned 40 cell = z
  induction List.range o.k generalizing z with
  | nil => simp
  | cons k ks ih => rw [List.foldl_cons, ih, List.map_cons, List.sum_cons, add_assoc]

/-- The cells of `mmai` (R183). -/
def intRows (o : MatOps) (T : SMap (BitVec 40)) (rows : List Nat) : SMap (BitVec 40) :=
  (updateRows T rows (fun i n => (wrapInt 40 (clampS 40 (mmaiSum o (cellAt T (32 * i + n)) i n)).1, 0))).1

/-- The rows in which `mmai` clamps a cell (R63, R183). -/
def clampedRows (o : MatOps) (T : SMap (BitVec 40)) (rows : List Nat) : Nat :=
  rows.foldl (fun v i => if (List.range 32).any (fun n => (clampS 40 (mmaiSum o (cellAt T (32 * i + n)) i n)).2)
    then v ||| 2 ^ i else v) 0

theorem cellAt_intRows (o : MatOps) (T : SMap (BitVec 40)) (rows : List Nat) {i n : Nat} (hn : n < 32) :
    cellAt (intRows o T rows) (32 * i + n) = if i ∈ rows then
      wrapInt 40 (max (-2 ^ 39) (min (2 ^ 39 - 1) (mmaiSum o (cellAt T (32 * i + n)) i n))) else cellAt T (32 * i + n) := by
  rw [intRows, cellAt_updateRows _ _ _ _ _ hn, wrapInt_mod, clampS_fst]
  norm_num

theorem testBit_clampedRows (o : MatOps) (T : SMap (BitVec 40)) (rows : List Nat) (i : Nat) :
    (clampedRows o T rows).testBit i = true ↔ i ∈ rows ∧ ∃ n, n < 32 ∧
      (mmaiSum o (cellAt T (32 * i + n)) i n < -2 ^ 39 ∨ 2 ^ 39 ≤ mmaiSum o (cellAt T (32 * i + n)) i n) := by
  rw [clampedRows, testBit_rows (fun i => (List.range 32).any (fun n => (clampS 40 (mmaiSum o (cellAt T (32 * i + n)) i n)).2))]
  simp only [Nat.zero_testBit, Bool.false_eq_true, false_or, List.any_eq_true, List.mem_range, clampS_snd]
  norm_num

/-- `mmai` with its operands, on a tile that is ready (R183). -/
theorem mmai_ready {s : State} {a b c : BitVec 7} {o : MatOps} (hs : SlotRuns s 0x45 1) (ho : matOperands 1 (curLocal s) a b c = some o)
    (hr : TileReady s o.tile) (hm : (curCore s).cellMode o.tile = 1) (hopen : slotOpen (curCore s) (cur s).ctxid.toNat = true) :
    exec (.mmai a b c) s = .next (completed s (setCore s (coreOf s.cur) (fly s.cur [o.tile] false
      (setAtsat ((curCore s).setTile o.tile (intRows o ((curCore s).tile o.tile) (activeRows (cur s) o.m))) o.tile
        (clampedRows o ((curCore s).tile o.tile) (activeRows (cur s) o.m)))))) := by
  refine (runSlot_runs _ _ _ _ hs).trans ?_
  have ho' : matOperands 1 (getLocal s s.cur) a b c = some o := ho
  simp only [mmai, ho']
  rw [issueMatrix_ready hr (fun h => absurd h (by decide)) hm hopen]
  rfl

/-- `mmai` (R178 to R183). -/
theorem mmai_done {s : State} {a b c : BitVec 7} {t av bv : Nat} {p : Pfx} (ht : tileOf a = some t) (hc : c.toNat % 8 = 0)
    (hopen : slotOpen (curCore s) (cur s).ctxid.toNat = true) (hr : TileReady s t) (hs : SlotRuns s 0x45 1)
    (hp : matrixFmt (cur s) 1 = some p) (h1 : (cur s).len % (256 / (cur s).sew) = 0) (h2 : (cur s).len ≤ 32 * (256 / (cur s).sew))
    (ha : readV (curLocal s) b (cur s).grp = some av) (hc' : c.toNat + 8 ≤ 96) (hb : readRun (curLocal s) c.toNat 8 = some bv)
    (hm : (curCore s).cellMode t = 1) :
    let K := 256 / (cur s).sew
    let M := (cur s).len / K
    let cell (i n : Nat) := cellAt ((curCore s).tile t) (32 * i + n)
    let sum (i n : Nat) : Int := toSigned 40 (cell i n) + ((List.range K).map (fun k =>
      intElem p.u (cur s).sew av (i * K + k) * intElem p.u (cur s).sew bv (n * K + k))).sum
    ∃ d, exec (.mmai a b c) s = .next (completed s (setCore s (coreOf s.cur) d)) ∧
      TileChanged (curCore s) d t (fun i n => if i < M ∧ (cur s).selBit i = true then
        wrapInt 40 (max (-2 ^ 39) (min (2 ^ 39 - 1) (sum i n))) else cell i n) ∧
      (∀ k, d.accown k = (curCore s).accown k) ∧ d.atsat (1 - t) = (curCore s).atsat (1 - t) ∧
      (∀ i, i < 64 → ((d.atsat t).getLsbD i = true ↔ ((curCore s).atsat t).getLsbD i = true ∨
        (i < M ∧ (cur s).selBit i = true ∧ ∃ n, n < 32 ∧ (sum i n < -2 ^ 39 ∨ 2 ^ 39 ≤ sum i n)))) := by
  intro K M cell sum
  obtain ⟨hw, hint⟩ := matrixFmt_width hp
  have hpl := isInt_plain (hint rfl)
  have ho : matOperands 1 (curLocal s) a b c = some ⟨t, p, K, M, av, bv, 0, 0⟩ :=
    matOperands_some (x := curLocal s) ht hp h1 h2 ha hc hc' hb (readScaleGroup_plain hpl) (readScaleGroup_plain hpl)
  have hex := mmai_ready (o := ⟨t, p, K, M, av, bv, 0, 0⟩) hs ho hr hm hopen
  have hcells := fun i n (hn : n < 32) =>
    cellAt_intRows ⟨t, p, K, M, av, bv, 0, 0⟩ ((curCore s).tile t) (activeRows (cur s) M) (i := i) hn
  have hbits := testBit_clampedRows ⟨t, p, K, M, av, bv, 0, 0⟩ ((curCore s).tile t) (activeRows (cur s) M)
  simp only [mmaiSum_eq, hw, mem_activeRows] at hcells hbits
  have hM : M ≤ 32 := Nat.div_le_of_le_mul (by rw [Nat.mul_comm]; exact h2)
  generalize intRows ⟨t, p, K, M, av, bv, 0, 0⟩ ((curCore s).tile t) (activeRows (cur s) M) = T at hex hcells
  generalize clampedRows ⟨t, p, K, M, av, bv, 0, 0⟩ ((curCore s).tile t) (activeRows (cur s) M) = R at hex hbits
  refine ⟨_, hex, ?_, ?_, ?_, fun i hi => ?_⟩
  · rcases tileOf_cases ht with rfl | rfl <;> exact ⟨fun i n _ hn => hcells i n hn, rfl, rfl⟩
  · rcases tileOf_cases ht with rfl | rfl <;> exact fun _ => rfl
  · rcases tileOf_cases ht with rfl | rfl <;> rfl
  · have hsat := getLsbD_setAtsat (c := (curCore s).setTile t T) (tileOf_cases ht) R i hi
    have hk : ((curCore s).setTile t T).atsat t = (curCore s).atsat t := by rcases tileOf_cases ht with rfl | rfl <;> rfl
    rw [hk, hbits] at hsat
    have hd : (fly s.cur [t] false (setAtsat ((curCore s).setTile t T) t R)).atsat t = (setAtsat ((curCore s).setTile t T) t R).atsat t := rfl
    rw [hd, hsat, and_assoc]
    refine or_congr_right ⟨fun h => h.2, fun h => ⟨by omega, h⟩⟩

/-! ## `mmal` (R190) -/

theorem readInfRun_some {x : Local} {c : BitVec 7} {n v : Nat} (h8 : c.toNat % 8 = 0) (hn : c.toNat + n ≤ 96)
    (hv : readRun x c.toNat n = some v) : readInfRun x c n = some v := by
  simp only [readInfRun, guard, h8, hn, and_self, if_true, Option.pure_def, Option.bind_eq_bind, Option.bind_some, hv]

theorem infNL_pos (c : Core) : 16 ≤ c.infNL := Nat.le_mul_of_pos_right _ (Nat.two_pow_pos _)
theorem infND_pos (c : Core) : 16 ≤ c.infND := Nat.le_mul_of_pos_right _ (Nat.two_pow_pos _)

/-- The value x(k, n) (R190). -/
def expanded (c : Core) (lat c0 k n : Nat) : Nat × Nat :=
  roundTwice ((List.range c.infNL).map (fun j => mulTerm (bfAt lat (n * c.infNL + j)) (decodeF bf16 (c.infAt j (c0 + k)))))

theorem expandX_getD (c : Core) (lat c0 : Nat) {k n : Nat} (hk : k < 16) (hn : n < 32) :
    (expandX c lat c0).getD (32 * k + n) (0, 0) = expanded c lat c0 k n := by
  have h1 : (32 * k + n) % 32 = n := by omega
  have h2 : (32 * k + n) / 32 = k := by omega
  rw [expandX, List.getD_eq_getElem?_getD, List.getElem?_map, List.getElem?_range (by omega), Option.map_some, Option.getD_some, h1, h2]
  rfl

theorem testBit_expandX (c : Core) (lat c0 z : Nat) : (flagsOf (expandX c lat c0)).testBit z = true ↔
    ∃ k n, k < 16 ∧ n < 32 ∧ (expanded c lat c0 k n).2.testBit z = true := by
  rw [testBit_flagsOf, expandX]
  simp only [List.mem_map, List.mem_range]
  constructor
  · rintro ⟨q, ⟨p, hp, rfl⟩, hb⟩
    exact ⟨p / 32, p % 32, by omega, by omega, hb⟩
  · rintro ⟨k, n, hk, hn, hb⟩
    have h1 : (32 * k + n) % 32 = n := by omega
    have h2 : (32 * k + n) / 32 = k := by omega
    refine ⟨_, ⟨32 * k + n, by omega, rfl⟩, ?_⟩
    rw [h1, h2]
    exact hb

/-- The cell of `mmal.x` (R190). -/
def expandCell (c : Core) (T : SMap (BitVec 40)) (av lat c0 i n : Nat) : Nat × Nat :=
  accumulate (cellAt T (32 * i + n)) ((List.range 16).map (fun k =>
    mulTerm (bfAt av (i * 16 + k)) (decodeF bf16 ((expandX c lat c0).getD (32 * k + n) (0, 0)).1)))

/-- `mmal.x` on a tile and an infuser that are ready. -/
theorem mmalX_ready {s : State} {a b c : BitVec 7} {e : Option Word} {t av bv cb : Nat} (ht : tileOf a = some t) (hc : c.toNat % 8 = 0)
    (hopen : slotOpen (curCore s) (cur s).ctxid.toNat = true) (hr : TileReady s t) (hcb : cbOf e = some cb)
    (h1 : (cur s).len % 16 = 0) (h2 : (cur s).len ≤ 512) (hm : (curCore s).cellMode t = 0) (hi : ownsInfuser s s.cur = true)
    (hn : c.toNat + (curCore s).infNL / 2 ≤ 96) (hb : readRun (curLocal s) c.toNat ((curCore s).infNL / 2) = some bv)
    (hs : SlotRuns s 0x45 2) (hf : (matrixFmt (cur s) 2).isSome = true) (ha : readV (curLocal s) b (cur s).grp = some av)
    (hlt : cb < (curCore s).infND / 16) :
    let r := updateRows ((curCore s).tile t) (activeRows (cur s) ((cur s).len / 16))
      (expandCell (curCore s) ((curCore s).tile t) av bv (16 * cb))
    exec (.mmalX a b c e) s = .next (finishSlot s.cur (cur s).prefixLive (finishRows s s.cur t true (r.1,
      if (activeRows (cur s) ((cur s).len / 16)).isEmpty then 0 else r.2 ||| flagsOf (expandX (curCore s) bv (16 * cb))))) := by
  refine (runSlot_runs _ _ _ _ hs).trans ?_
  obtain ⟨p, hp⟩ := Option.isSome_iff_exists.mp hf
  have hp' : matrixFmt (getLocal s s.cur).h 2 = some p := hp
  have hrow : rowsOf (getLocal s s.cur).h 16 = some ((cur s).len / 16) := rowsOf_some h1 h2
  have ha' : readV (getLocal s s.cur) b (getLocal s s.cur).h.grp = some av := ha
  have hc' : c.toNat < 96 := by have := infNL_pos (curCore s); omega
  have hl : readInfRun (getLocal s s.cur) c ((getCore s (coreOf s.cur)).infNL / 2) = some bv := readInfRun_some hc hn hb
  have hlt' : cb < (getCore s (coreOf s.cur)).infND / 16 := hlt
  simp only [mmalX, ht, hp', hrow, ha', hcb, guard, hc, hc', and_self, if_true, Option.pure_def, Option.bind_eq_bind, Option.bind_some,
    hl, hlt', decide_true, Option.isSome_some, Bool.and_self]
  rw [issueMatrix_ready hr (fun _ => hi) hm hopen]
  rfl

end Sys2Proof.Machine
end

section
/-! OBLIGATION O39. `mmal` and the owners' checks (R190, R194). -/
namespace Sys2Proof.Machine

open Sys2Proof

/-- `mmal.x` (R190). -/
theorem mmalX_done {s : State} {a b c : BitVec 7} {e : Option Word} {t av bv cb : Nat} (ht : tileOf a = some t) (hc : c.toNat % 8 = 0)
    (hopen : slotOpen (curCore s) (cur s).ctxid.toNat = true) (hr : TileReady s t) (hcb : cbOf e = some cb)
    (h1 : (cur s).len % 16 = 0) (h2 : (cur s).len ≤ 512) (hm : (curCore s).cellMode t = 0) (hi : ownsInfuser s s.cur = true)
    (hn : c.toNat + (curCore s).infNL / 2 ≤ 96) (hb : readRun (curLocal s) c.toNat ((curCore s).infNL / 2) = some bv)
    (hs : SlotRuns s 0x45 2) (hf : (matrixFmt (cur s) 2).isSome = true) (ha : readV (curLocal s) b (cur s).grp = some av)
    (hlt : cb < (curCore s).infND / 16) :
    RowsDone s t ((cur s).len / 16) true (fun i n => rneArith fa40 (sumTerms true
        (.val (decodeF fa40 (cellAt ((curCore s).tile t) (32 * i + n))) ::
          (List.range 16).map (fun k => mulTerm (bfAt av (i * 16 + k)) (decodeF bf16 (expanded (curCore s) bv (16 * cb) k n).1)))))
      (fun z => (∃ i, i < (cur s).len / 16 ∧ (cur s).selBit i = true) ∧
        ∃ k n, k < 16 ∧ n < 32 ∧ (expanded (curCore s) bv (16 * cb) k n).2.testBit z = true)
      (exec (.mmalX a b c e) s) := by
  have hex := mmalX_ready ht hc hopen hr hcb h1 h2 hm hi hn hb hs hf ha hlt
  dsimp only at hex
  have hcell : ∀ i n, n < 32 → expandCell (curCore s) ((curCore s).tile t) av bv (16 * cb) i n = rneArith fa40 (sumTerms true
      (.val (decodeF fa40 (cellAt ((curCore s).tile t) (32 * i + n))) ::
        (List.range 16).map (fun k => mulTerm (bfAt av (i * 16 + k)) (decodeF bf16 (expanded (curCore s) bv (16 * cb) k n).1)))) := by
    intro i n hn
    rw [expandCell, accumulate, List.map_congr_left (fun k hk => by rw [expandX_getD _ _ _ (List.mem_range.mp hk) hn])]
  refine rowsDone_of (tileOf_cases ht) hex (fun i j _ hj => ?_) (fun k => ?_)
  · rw [cellAt_updateRows _ _ _ _ _ hj, hcell i j hj]
    simp only [mem_activeRows]
  · have hup := testBit_updateRows ((curCore s).tile t) (activeRows (cur s) ((cur s).len / 16))
      (expandCell (curCore s) ((curCore s).tile t) av bv (16 * cb)) k
    have hany : (activeRows (cur s) ((cur s).len / 16)).isEmpty = false ↔ ∃ i, i < (cur s).len / 16 ∧ (cur s).selBit i = true := by
      rw [List.isEmpty_eq_false_iff_exists_mem]
      simp only [mem_activeRows]
    split
    · next hemp =>
      have hno := mt hany.mpr (by rw [hemp]; decide)
      simp only [Nat.zero_testBit, Bool.false_eq_true, false_iff, not_or, not_and]
      refine ⟨?_, fun h => absurd h hno⟩
      rintro ⟨i, j, hi, hsel, -⟩
      exact hno ⟨i, hi, hsel⟩
    · next hne =>
      have hyes := hany.mp (by simpa using hne)
      rw [Nat.testBit_or, Bool.or_eq_true, hup, testBit_expandX]
      refine or_congr ?_ (by simp only [hyes, true_and])
      simp only [mem_activeRows, and_assoc]
      refine exists_congr fun i => exists_congr fun j => and_congr_right fun _ => and_congr_right fun _ => ?_
      refine and_congr_right fun hj => ?_
      rw [hcell i j hj]

/-- One row of a tile is replaced, with flags of its own beside those of its cells. -/
def rowStep (g : Nat → Nat → Nat → Nat × Nat) (fl : Nat → Nat) (u : SMap (BitVec 40) × Nat) (i : Nat) : SMap (BitVec 40) × Nat :=
  ((updateRows u.1 [i] (g i)).1, u.2 ||| (updateRows u.1 [i] (g i)).2 ||| fl i)

theorem cellAt_rowSteps (g : Nat → Nat → Nat → Nat × Nat) (fl : Nat → Nat) (rows : List Nat) (u : SMap (BitVec 40) × Nat) {i j : Nat}
    (hj : j < 32) : cellAt (rows.foldl (rowStep g fl) u).1 (32 * i + j)
      = if i ∈ rows then (g i i j).1 % 2 ^ 40 else cellAt u.1 (32 * i + j) := by
  induction rows generalizing u with
  | nil => rfl
  | cons r rows ih =>
    rw [List.foldl_cons, ih]
    by_cases hi : i ∈ rows
    · rw [if_pos hi, if_pos (List.mem_cons_of_mem _ hi)]
    · rw [if_neg hi, rowStep, cellAt_updateRows _ _ _ _ _ hj]
      by_cases hir : i = r
      · rw [hir, if_pos (List.mem_singleton.mpr rfl), if_pos List.mem_cons_self]
      · rw [if_neg (fun h => hir (List.mem_singleton.mp h)), if_neg (fun h => (List.mem_cons.mp h).elim hir hi)]

theorem testBit_rowSteps (g : Nat → Nat → Nat → Nat × Nat) (fl : Nat → Nat) (rows : List Nat) (u : SMap (BitVec 40) × Nat) (z : Nat) :
    (rows.foldl (rowStep g fl) u).2.testBit z = true ↔ u.2.testBit z = true ∨
      ∃ i ∈ rows, (∃ j, j < 32 ∧ (g i i j).2.testBit z = true) ∨ (fl i).testBit z = true := by
  induction rows generalizing u with
  | nil => simp
  | cons r rows ih =>
    have hr : (updateRows u.1 [r] (g r)).2.testBit z = true ↔ ∃ j, j < 32 ∧ (g r r j).2.testBit z = true := by
      rw [testBit_updateRows]
      simp
    rw [List.foldl_cons, ih, rowStep, Nat.testBit_or, Nat.testBit_or, Bool.or_eq_true, Bool.or_eq_true, hr]
    simp only [List.exists_mem_cons_iff, or_assoc]

/-- The value y(i, k) (R190). -/
def absorbed (c : Core) (q c0 i k : Nat) : Nat × Nat :=
  roundTwice ((List.range c.infND).map (fun d => mulTerm (bfAt q (i * c.infND + d)) (decodeF bf16 (c.infAt (c0 + k) d))))

theorem absorbY_getD (c : Core) (q c0 i : Nat) {k : Nat} (hk : k < 16) : (absorbY c q c0 i).getD k (0, 0) = absorbed c q c0 i k := by
  rw [absorbY, List.getD_eq_getElem?_getD, List.getElem?_map, List.getElem?_range hk, Option.map_some, Option.getD_some]
  rfl

theorem testBit_absorbY (c : Core) (q c0 i z : Nat) : (flagsOf (absorbY c q c0 i)).testBit z = true ↔
    ∃ k, k < 16 ∧ (absorbed c q c0 i k).2.testBit z = true := by
  rw [testBit_flagsOf, absorbY]
  simp only [List.mem_map, List.mem_range]
  constructor
  · rintro ⟨q, ⟨p, hp, rfl⟩, hb⟩
    exact ⟨p, hp, hb⟩
  · rintro ⟨k, hk, hb⟩
    exact ⟨_, ⟨k, hk, rfl⟩, hb⟩

/-- The cell of `mmal.a`, with the values of row r (R190). -/
def absorbCell (c : Core) (T : SMap (BitVec 40)) (q lat c0 r i n : Nat) : Nat × Nat :=
  accumulate (cellAt T (32 * i + n)) ((List.range 16).map (fun j =>
    mulTerm (decodeF bf16 ((absorbY c q c0 r).getD j (0, 0)).1) (bfAt lat (n * c.infNL + c0 + j))))

/-- `mmal.a` on a tile and an infuser that are ready. -/
theorem mmalA_ready {s : State} {a b c : BitVec 7} {e : Option Word} {t av bv cb : Nat} (ht : tileOf a = some t) (hc : c.toNat % 8 = 0)
    (hopen : slotOpen (curCore s) (cur s).ctxid.toNat = true) (hr : TileReady s t) (hcb : cbOf e = some cb)
    (h1 : (cur s).len % 16 = 0) (h2 : (cur s).len ≤ 512) (hm : (curCore s).cellMode t = 0) (hi : ownsInfuser s s.cur = true)
    (hn : c.toNat + (curCore s).infNL / 2 ≤ 96) (hb : readRun (curLocal s) c.toNat ((curCore s).infNL / 2) = some bv)
    (hs : SlotRuns s 0x45 3) (hf : (matrixFmt (cur s) 3).isSome = true) (h8 : b.toNat % 8 = 0)
    (hnb : b.toNat + (curCore s).infND / 2 ≤ 96) (ha : readRun (curLocal s) b.toNat ((curCore s).infND / 2) = some av)
    (hlt : cb < (curCore s).infNL / 16) :
    exec (.mmalA a b c e) s = .next (finishSlot s.cur (cur s).prefixLive (finishRows s s.cur t true
      ((activeRows (cur s) ((cur s).len / 16)).foldl (rowStep (absorbCell (curCore s) ((curCore s).tile t) av bv (16 * cb))
        (fun i => flagsOf (absorbY (curCore s) av (16 * cb) i))) ((curCore s).tile t, 0)))) := by
  refine (runSlot_runs _ _ _ _ hs).trans ?_
  obtain ⟨p, hp⟩ := Option.isSome_iff_exists.mp hf
  have hp' : matrixFmt (getLocal s s.cur).h 3 = some p := hp
  have hrow : rowsOf (getLocal s s.cur).h 16 = some ((cur s).len / 16) := rowsOf_some h1 h2
  have hc' : c.toNat < 96 := by have := infNL_pos (curCore s); omega
  have hb' : b.toNat < 96 := by have := infND_pos (curCore s); omega
  have hl : readInfRun (getLocal s s.cur) c ((getCore s (coreOf s.cur)).infNL / 2) = some bv := readInfRun_some hc hn hb
  have hq : readInfRun (getLocal s s.cur) b ((getCore s (coreOf s.cur)).infND / 2) = some av := readInfRun_some h8 hnb ha
  have hlt' : cb < (getCore s (coreOf s.cur)).infNL / 16 := hlt
  simp only [mmalA, ht, hp', hrow, hcb, guard, h8, hb', hc, hc', and_self, if_true, Option.pure_def, Option.bind_eq_bind, Option.bind_some,
    hl, hq, hlt', decide_true, Option.isSome_some, Bool.and_self]
  rw [issueMatrix_ready hr (fun _ => hi) hm hopen]
  rfl

/-- `mmal.a` (R190). -/
theorem mmalA_done {s : State} {a b c : BitVec 7} {e : Option Word} {t av bv cb : Nat} (ht : tileOf a = some t) (hc : c.toNat % 8 = 0)
    (hopen : slotOpen (curCore s) (cur s).ctxid.toNat = true) (hr : TileReady s t) (hcb : cbOf e = some cb)
    (h1 : (cur s).len % 16 = 0) (h2 : (cur s).len ≤ 512) (hm : (curCore s).cellMode t = 0) (hi : ownsInfuser s s.cur = true)
    (hn : c.toNat + (curCore s).infNL / 2 ≤ 96) (hb : readRun (curLocal s) c.toNat ((curCore s).infNL / 2) = some bv)
    (hs : SlotRuns s 0x45 3) (hf : (matrixFmt (cur s) 3).isSome = true) (h8 : b.toNat % 8 = 0)
    (hnb : b.toNat + (curCore s).infND / 2 ≤ 96) (ha : readRun (curLocal s) b.toNat ((curCore s).infND / 2) = some av)
    (hlt : cb < (curCore s).infNL / 16) :
    RowsDone s t ((cur s).len / 16) true (fun i n => rneArith fa40 (sumTerms true
        (.val (decodeF fa40 (cellAt ((curCore s).tile t) (32 * i + n))) ::
          (List.range 16).map (fun k => mulTerm (decodeF bf16 (absorbed (curCore s) av (16 * cb) i k).1)
            (bfAt bv (n * (curCore s).infNL + (16 * cb + k)))))))
      (fun z => ∃ i k, i < (cur s).len / 16 ∧ (cur s).selBit i = true ∧ k < 16 ∧
        (absorbed (curCore s) av (16 * cb) i k).2.testBit z = true)
      (exec (.mmalA a b c e) s) := by
  have hex := mmalA_ready ht hc hopen hr hcb h1 h2 hm hi hn hb hs hf h8 hnb ha hlt
  have hcell : ∀ i n, absorbCell (curCore s) ((curCore s).tile t) av bv (16 * cb) i i n = rneArith fa40 (sumTerms true
      (.val (decodeF fa40 (cellAt ((curCore s).tile t) (32 * i + n))) ::
        (List.range 16).map (fun k => mulTerm (decodeF bf16 (absorbed (curCore s) av (16 * cb) i k).1)
          (bfAt bv (n * (curCore s).infNL + (16 * cb + k)))))) := by
    intro i n
    rw [absorbCell, accumulate,
      List.map_congr_left (fun k hk => by rw [absorbY_getD _ _ _ _ (List.mem_range.mp hk), Nat.add_assoc])]
  have hT := fun i n (hn : n < 32) => cellAt_rowSteps (absorbCell (curCore s) ((curCore s).tile t) av bv (16 * cb))
    (fun i => flagsOf (absorbY (curCore s) av (16 * cb) i)) (activeRows (cur s) ((cur s).len / 16)) ((curCore s).tile t, 0) (i := i) hn
  have hF := testBit_rowSteps (absorbCell (curCore s) ((curCore s).tile t) av bv (16 * cb))
    (fun i => flagsOf (absorbY (curCore s) av (16 * cb) i)) (activeRows (cur s) ((cur s).len / 16)) ((curCore s).tile t, 0)
  generalize (activeRows (cur s) ((cur s).len / 16)).foldl (rowStep (absorbCell (curCore s) ((curCore s).tile t) av bv (16 * cb))
    (fun i => flagsOf (absorbY (curCore s) av (16 * cb) i))) ((curCore s).tile t, 0) = r at hex hT hF
  refine rowsDone_of (tileOf_cases ht) hex (fun i j _ hj => ?_) (fun z => ?_)
  · rw [hT i j hj, hcell]
    simp only [mem_activeRows]
  · rw [hF]
    simp only [mem_activeRows, hcell, testBit_absorbY, Nat.zero_testBit, Bool.false_eq_true, false_or]
    constructor
    · rintro ⟨i, ⟨hi, hsel⟩, ⟨j, hj, hb⟩ | ⟨k, hk, hb⟩⟩
      · exact .inl ⟨i, j, hi, hsel, hj, hb⟩
      · exact .inr ⟨i, k, hi, hsel, hk, hb⟩
    · rintro (⟨i, j, hi, hsel, hj, hb⟩ | ⟨i, k, hi, hsel, hk, hb⟩)
      · exact ⟨i, ⟨hi, hsel⟩, .inl ⟨j, hj, hb⟩⟩
      · exact ⟨i, ⟨hi, hsel⟩, .inr ⟨k, hk, hb⟩⟩

/-! ## Tiles and infusers of others (R194) -/

theorem issueMatrix_other {s : State} {t mode : Nat} {usesW ok : Bool} {k : SlotRes} (ht : t = 0 ∨ t = 1)
    (ho : ownsTile s s.cur t = false) : issueMatrix s s.cur t mode usesW ok k = .trap cACCCLAIM t 0 0 0 s :=
  withClaims_other ht ho

theorem issueMatrix_infuser {s : State} {t code mode : Nat} {ok : Bool} {k : SlotRes} (ht : t = 0 ∨ t = 1)
    (h : ownsTile s s.cur t = false ∧ code = t ∨ ownsTile s s.cur t = true ∧ ownsInfuser s s.cur = false ∧ code = 2) :
    issueMatrix s s.cur t mode true ok k = .trap cACCCLAIM code 0 0 0 s := by
  rcases h with ⟨ho, rfl⟩ | ⟨ho, hi, rfl⟩
  · exact withClaims_other ht ho
  · unfold issueMatrix
    rw [show (!true || ownsInfuser s s.cur) = false by simp [hi]]
    exact withClaims_infuser ho

theorem matOperands_tile {fn : Nat} {x : Local} {a b c : BitVec 7} {o : MatOps} {t : Nat} (ht : tileOf a = some t)
    (ho : matOperands fn x a b c = some o) : o.tile = t := by
  simp only [matOperands, ht, Option.bind_eq_bind, Option.bind_some] at ho
  simp only [Option.bind_eq_some_iff] at ho
  obtain ⟨_, -, _, -, _, -, _, -, _, -, _, -, ho⟩ := ho
  exact (congrArg MatOps.tile (Option.some.inj ho)).symm

theorem mma_other {s : State} {a b c : BitVec 7} {t : Nat} {o : MatOps} (ht : tileOf a = some t) (hown : ownsTile s s.cur t = false)
    (hs : SlotRuns s 0x45 0) (ho : matOperands 0 (curLocal s) a b c = some o) :
    exec (.mma a b c) s = .next (trapped s cACCCLAIM t 0 0 0 s) := by
  refine (runSlot_runs _ _ _ _ hs).trans ?_
  have ho' : matOperands 0 (getLocal s s.cur) a b c = some o := ho
  simp only [mma, ho', matOperands_tile ht ho]
  rw [issueMatrix_other (tileOf_cases ht) hown]
  rfl

theorem mmai_other {s : State} {a b c : BitVec 7} {t : Nat} {o : MatOps} (ht : tileOf a = some t) (hown : ownsTile s s.cur t = false)
    (hs : SlotRuns s 0x45 1) (ho : matOperands 1 (curLocal s) a b c = some o) :
    exec (.mmai a b c) s = .next (trapped s cACCCLAIM t 0 0 0 s) := by
  refine (runSlot_runs _ _ _ _ hs).trans ?_
  have ho' : matOperands 1 (getLocal s s.cur) a b c = some o := ho
  simp only [mmai, ho', matOperands_tile ht ho]
  rw [issueMatrix_other (tileOf_cases ht) hown]
  rfl

theorem mmalX_other {s : State} {a b c : BitVec 7} {e : Option Word} {t cb code o av : Nat} (ht : tileOf a = some t)
    (hcb : cbOf e = some cb) (hc : c.toNat % 8 = 0) (hc' : c.toNat < 96)
    (h : ownsTile s s.cur t = false ∧ code = t ∨ ownsTile s s.cur t = true ∧ ownsInfuser s s.cur = false ∧ code = 2)
    (hs : SlotRuns s 0x45 2) (hf : (matrixFmt (cur s) 2).isSome = true) (hm : rowsOf (cur s) 16 = some o)
    (ha : readV (curLocal s) b (cur s).grp = some av) :
    exec (.mmalX a b c e) s = .next (trapped s cACCCLAIM code 0 0 0 s) := by
  refine (runSlot_runs _ _ _ _ hs).trans ?_
  obtain ⟨p, hp⟩ := Option.isSome_iff_exists.mp hf
  have hp' : matrixFmt (getLocal s s.cur).h 2 = some p := hp
  have hm' : rowsOf (getLocal s s.cur).h 16 = some o := hm
  have ha' : readV (getLocal s s.cur) b (getLocal s s.cur).h.grp = some av := ha
  simp only [mmalX, ht, hp', hm', ha', hcb, guard, hc, hc', and_self, if_true, Option.pure_def, Option.bind_eq_bind, Option.bind_some]
  rw [issueMatrix_infuser (tileOf_cases ht) h]
  rfl

theorem mmalA_other {s : State} {a b c : BitVec 7} {e : Option Word} {t cb code o : Nat} (ht : tileOf a = some t)
    (hcb : cbOf e = some cb) (hc : c.toNat % 8 = 0) (hc' : c.toNat < 96)
    (h : ownsTile s s.cur t = false ∧ code = t ∨ ownsTile s s.cur t = true ∧ ownsInfuser s s.cur = false ∧ code = 2)
    (hs : SlotRuns s 0x45 3) (hf : (matrixFmt (cur s) 3).isSome = true) (hm : rowsOf (cur s) 16 = some o)
    (h8 : b.toNat % 8 = 0) (hb : b.toNat < 96) :
    exec (.mmalA a b c e) s = .next (trapped s cACCCLAIM code 0 0 0 s) := by
  refine (runSlot_runs _ _ _ _ hs).trans ?_
  obtain ⟨p, hp⟩ := Option.isSome_iff_exists.mp hf
  have hp' : matrixFmt (getLocal s s.cur).h 3 = some p := hp
  have hm' : rowsOf (getLocal s s.cur).h 16 = some o := hm
  simp only [mmalA, ht, hp', hm', hcb, guard, hc, hc', h8, hb, and_self, if_true, Option.pure_def, Option.bind_eq_bind, Option.bind_some]
  rw [issueMatrix_infuser (tileOf_cases ht) h]
  rfl

/-- Settles O39: each instruction by its rows, the owners' checks, and the cells of block formats and the BF16 values between
the products by the exact sums. -/
theorem matrixInstructions : Obligations.MatrixInstructions := by
  refine ⟨fun s a b c e f u x t av bv sa sb cb p => ⟨fmt_done f u x b c, fun ht hc hopen hr => ⟨?_, ?_, ?_⟩, ?_, ?_⟩,
    fun f T cell gs hf => blockCell f T cell gs hf, fun vs xs zero h hz => roundTwice_spec h hz⟩
  · exact fun hs hp h1 h2 ha hc' hb hsa hsb hm => mma_done ht hc hopen hr hs hp h1 h2 ha hc' hb hsa hsb hm
  · exact fun hs hp h1 h2 ha hc' hb hm => mmai_done ht hc hopen hr hs hp h1 h2 ha hc' hb hm
  · exact fun hcb h1 h2 hm hi hn hb => ⟨fun hs hf ha hlt => mmalX_done ht hc hopen hr hcb h1 h2 hm hi hn hb hs hf ha hlt,
      fun hs hf h8 hnb ha hlt => mmalA_done ht hc hopen hr hcb h1 h2 hm hi hn hb hs hf h8 hnb ha hlt⟩
  · exact fun o ht hown => ⟨fun hs ho => mma_other ht hown hs ho, fun hs ho => mmai_other ht hown hs ho⟩
  · exact fun o code ht hcb hc hc' h => ⟨fun hs hf hm ha => mmalX_other ht hcb hc hc' h hs hf hm ha,
      fun hs hf hm h8 hb => mmalA_other ht hcb hc hc' h hs hf hm h8 hb⟩

end Sys2Proof.Machine
end

section
/-! OBLIGATION O54. Tasks that start, blends, commits, tokens, queues and messages (R22, R232 to R234, R276, R282, R334 to R351). -/
namespace Sys2Proof.Machine

open Sys2Proof

/-! ## The start of a task (R22) -/

/-- Values written to the registers from one on. -/
theorem get_foldl_set (vals : List DWord) (k : Nat) (m : SMap DWord) (i : Nat) :
    SMap.get 0 ((vals.zipIdx k).foldl (fun r v => SMap.set 0 r v.2 v.1) m) i
      = if k ≤ i ∧ i < k + vals.length then vals.getD (i - k) 0 else SMap.get 0 m i := by
  induction vals generalizing k m with
  | nil => rw [if_neg (by simp)]; rfl
  | cons v vals ih =>
    rw [List.zipIdx_cons, List.foldl_cons, ih]
    rcases Nat.lt_trichotomy i k with h | rfl | h
    · rw [if_neg (by omega), if_neg (by omega), SMap.get_set_other _ _ _ _ _ (by omega)]
    · rw [if_neg (by omega), if_pos (by simp), SMap.get_set_same, Nat.sub_self]
      rfl
    · obtain ⟨j, rfl⟩ : ∃ j, i = k + 1 + j := ⟨i - (k + 1), by omega⟩
      rw [SMap.get_set_other _ _ _ _ _ (by omega), show k + 1 + j - (k + 1) = j by omega, show k + 1 + j - k = j + 1 by omega]
      simp only [List.length_cons, List.getD_cons_succ]
      have hc : (k + 1 ≤ k + 1 + j ∧ k + 1 + j < k + 1 + vals.length) ↔ (k ≤ k + 1 + j ∧ k + 1 + j < k + (vals.length + 1)) := by omega
      simp only [hc]

theorem get_startRegs (m : SMap DWord) (ws : List DWord) (inst total block i : Nat) :
    SMap.get 0 (startRegs m ws inst total block) i = if i < 11 then ((List.range 8).map (fun n => recW ws (6 + n))
      ++ [BitVec.ofNat 64 inst, BitVec.ofNat 64 total, BitVec.ofNat 64 block]).getD i 0 else SMap.get 0 m i := by
  unfold startRegs
  simp only [get_foldl_set]
  simp

/-- The HSTAT of a started task, bit by bit. -/
theorem startStat_toNat (old : DWord) (ws : List DWord) :
    (startStat old ws).toNat = bits old 63 32 * 2 ^ 32 + b2n (recIdem ws) * 2 ^ 9 + 2 ^ 4 := by
  have h1 : bits old 63 32 < 2 ^ 32 := Nat.mod_lt _ (by decide)
  have h2 : b2n (recIdem ws) ≤ 1 := by cases recIdem ws <;> decide
  rw [startStat, BitVec.toNat_ofNat, Nat.mod_eq_of_lt (by omega)]

theorem start_spec (t : Task) (ctx depth : Nat) (rstat block : DWord) (cs : List Nat) (g : Hart) :
    let n := Hart.start t ctx depth rstat block cs g
    n.pc = t.words.getD 0 0 ∧ (∀ i, i < 8 → n.phys i = t.words.getD (6 + i) 0) ∧ n.phys 8 = BitVec.ofNat 64 t.inst ∧
    n.phys 9 = BitVec.ofNat 64 t.icount ∧ n.phys 10 = block ∧ n.mode = 0 ∧ n.ie = true ∧ n.pxp = false ∧
    n.idem = (t.words.getD 1 0).getLsbD 0 ∧ n.vcfg = 0x7003 ∧ n.vl = 0 ∧ n.wbase = 0 ∧ n.sprd = 0 ∧ n.lcnt = 0 ∧ n.scnt = 0 ∧
    n.sticky = 0 ∧ n.q = {} ∧ n.task = some t ∧ n.chunks = cs ∧ n.depth = depth ∧
    (g.lastCtx ≠ ctx → g.lastCtx ≠ 0 → ∀ i, 11 ≤ i → n.phys i = 0) := by
  intro n
  have hphys : ∀ i, n.phys i = _ := fun i =>
    get_startRegs (g.toIdle.passTo ctx).sregs t.words t.inst t.icount block.toNat i
  have hstat := startStat_toNat (g.toIdle.passTo ctx).hstat t.words
  have hx : bits (g.toIdle.passTo ctx).hstat 63 32 < 2 ^ 32 := Nat.mod_lt _ (by decide)
  have hi : b2n (recIdem t.words) ≤ 1 := by cases recIdem t.words <;> decide
  have hbit : ∀ k, bit n.hstat k = ((bits (g.toIdle.passTo ctx).hstat 63 32 * 2 ^ 32 + b2n (recIdem t.words) * 2 ^ 9 + 2 ^ 4).testBit k) :=
    fun k => by rw [← hstat]; rfl
  refine ⟨rfl, fun i hi8 => ?_, ?_, ?_, ?_, ?_, ?_, ?_, ?_, rfl, rfl, rfl, rfl, rfl, rfl, rfl, rfl, rfl, rfl, rfl, fun h1 h0 i hi11 => ?_⟩
  · rw [hphys, if_pos (by omega), List.getD_append _ _ _ _ (by simpa using hi8)]
    simp [hi8, recW]
  · rw [hphys]; rfl
  · rw [hphys]; rfl
  · rw [hphys]; exact BitVec.ofNat_toNat 64 block |>.trans (BitVec.setWidth_eq block)
  · change (startStat _ _).toNat >>> 0 % 2 ^ 2 = 0
    rw [hstat]
    simp only [Nat.shiftRight_zero]
    omega
  · change bit n.hstat 4 = true
    rw [hbit, Nat.testBit_eq_decide_div_mod_eq]
    simp only [decide_eq_true_eq]
    omega
  · change bit n.hstat 8 = false
    rw [hbit, Nat.testBit_eq_decide_div_mod_eq]
    simp only [decide_eq_false_iff_not]
    omega
  · change bit n.hstat 9 = _
    rw [hbit, Nat.testBit_eq_decide_div_mod_eq]
    change _ = recIdem t.words
    generalize bits (g.toIdle.passTo ctx).hstat 63 32 = x
    cases recIdem t.words with
    | false => exact decide_eq_false (by rw [show b2n false = 0 from rfl]; omega)
    | true => exact decide_eq_true (by rw [show b2n true = 1 from rfl]; omega)
  · rw [hphys, if_neg (by omega)]
    have : g.toIdle.passTo ctx = { lastCtx := ctx, vcfg := 0, ordtmo := 0 } := by
      have e : g.toIdle.lastCtx = g.lastCtx := rfl
      rw [Hart.passTo, e, if_neg h1, if_neg h0]
    rw [this]
    rfl

/-! ## Steps that only change one hart -/

theorem hintStallExpiry_spec (s : State) (hk : Nat) : ∃ t, exec (.hintStallExpiry hk) s = .next t ∧
    getHart t hk = (if (getHart s hk).stall ≤ 1 then { getHart s hk with stall := 0 } else getHart s hk) ∧ t.mem = s.mem :=
  ⟨_, rfl, getHart_modHart_same _ _ _, rfl⟩

theorem wakeMessage_spec (s : State) (hk : Nat) : ∃ t, exec (.wakeMessage hk) s = .next t ∧
    (validHart hk = false ∨ (getHart s hk).wait ≠ .wfi → t = s) ∧
    (validHart hk = true → (getHart s hk).wait = .wfi → t = setHart s hk { getHart s hk with
      st := if (getHart s hk).st = .parked then
        (if (getHart s hk).inRope ∧ (getHart s hk).ropeMember ≠ 0 then .follower else .running) else (getHart s hk).st,
      grant := some 0 }) := by
  refine ⟨_, rfl, fun h => if_neg ?_, fun hv hw => (if_pos ?_).trans ?_⟩
  · rcases h with h | h <;> simp [h]
  · simp [hv, hw]
  · simp only [modHart, Hart.wake, Hart.awake, Bool.and_eq_true, decide_eq_true_eq]

theorem startMessage_spec (s : State) (hk : Nat) (v : DWord) : ∃ t, exec (.startMessage hk v) s = .next t ∧
    let may := validHart hk && (isTsc (unitOf (coreOf hk)) || decide (roleOf s (coreOf hk) ≠ 0))
      && !(getDev s (devOfHart hk)).down
    (may = false ∧ isEngine hk = false ∨ (getHart s hk).st ≠ .idle → t = s) ∧
    (isEngine hk = true → validHart hk = true → (getHart s hk).st = .idle → (getCore s (coreOf hk)).engFenced = false →
      (getDev s (devOfHart hk)).down = false → ∃ n, t = setHart s hk n ∧ n.pc = BitVec.ofNat 64 (v.toNat / 16 * 16) ∧
        n.st = .running ∧ n.hstat = 0 ∧
        ∀ j js, (getCore s (coreOf hk)).kicks = j :: js → n.ctxid = BitVec.ofNat 16 j.ctx ∧
          ((getHart s hk).lastCtx = j.ctx → n.sregs = (getHart s hk).sregs) ∧
          ((getHart s hk).lastCtx ≠ j.ctx → (getHart s hk).lastCtx ≠ 0 → n.sregs = [])) ∧
    (may = true → isEngine hk = false → (getHart s hk).st = .idle → ∃ n, t = setHart s hk n ∧ n = { getHart s hk with
      pc := BitVec.ofNat 64 (v.toNat / 16 * 16), st := .running, started := true, hstat := 3 }) := by
  refine ⟨startHart s hk v, rfl, ?_, ?_, ?_⟩
  · intro h
    unfold startHart
    split
    · rfl
    · next hd =>
      have hd' : (getDev s (devOfHart hk)).down = false := by simpa using hd
      split
      · next he =>
        have hst := h.resolve_left (fun h => absurd (he.symm.trans h.2) (by decide))
        rw [if_neg]
        simp [hst]
      · rw [if_neg]
        rcases h with ⟨hm, -⟩ | hst
        · rw [hd', Bool.not_false, Bool.and_true] at hm
          rw [hm, Bool.false_and]
          decide
        · simp [hst]
  · intro he hv hi hf hd
    unfold startHart
    simp only [hd, he, hv, hi, hf, Bool.false_eq_true, if_false, if_true, decide_true, Bool.and_self, Bool.not_false]
    refine ⟨_, rfl, ?_⟩
    refine ⟨rfl, rfl, rfl, fun j js hj => ?_⟩
    simp only [hj]
    refine ⟨trivial, fun h => ?_, fun h h0 => ?_⟩
    · rw [Hart.passTo, if_pos h]
    · rw [Hart.passTo, if_neg h, if_neg h0]
  · intro hm he hi
    simp only [Bool.and_eq_true, Bool.not_eq_true'] at hm
    obtain ⟨⟨hv, hr⟩, hd⟩ := hm
    unfold startHart
    simp only [hd, he, hv, hi, hr, Bool.false_eq_true, if_false, if_true, decide_true, Bool.and_self]
    exact ⟨_, rfl, rfl⟩

/-! ## Blends (R232) -/

theorem blendChannel_spec (a b al : Nat) : blendChannel 0 false a b al = a ∧
    blendChannel 1 false a b al = min 255 (rneDiv (255 * a + b * (255 - al)) 255) ∧
    blendChannel 2 false a b al = rneDiv (a * al + b * (255 - al)) 255 ∧
    blendChannel 2 true a b al = rneDiv (255 * al + b * (255 - al)) 255 ∧
    blendChannel 3 false a b al = min 255 (a + b) ∧ blendChannel 4 false a b al = rneDiv (a * b) 255 :=
  ⟨rfl, rfl, rfl, rfl, rfl, rfl⟩

/-! ## Commits (R221, R232, R234, R351) -/

theorem commitRelease_spec (s : State) (dom : Nat) : ∃ t, exec (.commitRelease dom) s = .next t ∧ t.mem = s.mem ∧
    ∀ d, SMap.find s.domains dom = some d →
      (waitingCommit s dom d.low = none → t = s) ∧
      ∀ u c, waitingCommit s dom d.low = some u → SMap.find s.commits u = some c →
        SMap.find t.commits u = some { c with released := true } ∧ Instr.commitPerformed u ∈ t.pending := by
  refine ⟨releaseCommit s dom, rfl, ?_, fun d hd => ⟨fun hw => ?_, fun u c hw hc => ?_⟩⟩
  · unfold releaseCommit
    split
    · rfl
    · split
      · rfl
      · split <;> rfl
  · simp only [releaseCommit, hd, hw]
  · simp only [releaseCommit, hd, hw, hc]
    exact ⟨SMap.find_put_same _ _ _, by simp [post]⟩

theorem applyEntries_cons (c : Commit) (s : State) (e : Buffered) (es : List Buffered)
    (h : sending (applyBuffered c s e) c.task.uid = false) :
    applyEntries c s (e :: es) = applyEntries c (applyBuffered c s e) es := by
  simp [applyEntries, h]

end Sys2Proof.Machine
end

section
/-! OBLIGATION O54. Commits, tokens, waiting producers, the end of a launch and pre-emption (R221, R234, R282, R334 to R336, R349). -/
namespace Sys2Proof.Machine

open Sys2Proof

/-! ## Maps changed throughout -/

theorem find_each {α : Type} (f : Nat → α → α) (m : SMap α) (i : Nat) : SMap.find (SMap.each f m) i = (SMap.find m i).map (f i) := by
  induction m with
  | nil => rfl
  | cons p m ih =>
    obtain ⟨k, v⟩ := p
    by_cases h : k = i
    · subst h
      simp [SMap.each, SMap.find]
    · simp only [SMap.each, SMap.find, if_neg h, ih]

theorem each_id {α : Type} {f : Nat → α → α} {m : SMap α} (h : ∀ p ∈ m, f p.1 p.2 = p.2) : SMap.each f m = m := by
  induction m with
  | nil => rfl
  | cons p m ih =>
    rw [SMap.each, h p List.mem_cons_self, ih (fun q hq => h q (List.mem_cons_of_mem _ hq))]

/-! ## Steps made due -/

/-- A run of steps that change what is due alone. -/
theorem foldl_pending {α : Type} {f : State → α → State} (hf : ∀ t a, f t a = { t with pending := (f t a).pending }) (l : List α)
    (s : State) : l.foldl f s = { s with pending := (l.foldl f s).pending } := by
  induction l generalizing s with
  | nil => rfl
  | cons a l ih =>
    rw [List.foldl_cons, ih, hf]

theorem rouseQueues_frame (s : State) : rouseQueues s = { s with pending := (rouseQueues s).pending } := by
  refine foldl_pending (fun t p => ?_) s.queues s
  split
  · rfl
  · simp only
    split_ifs <;> rfl

/-- Where a producer holds no place, giving its places up only makes steps due. -/
theorem giveUpPlaces_absent {s : State} {gone : Stalled → Bool} (h : ∀ p ∈ s.queues, ∀ x ∈ p.2.stalled, gone x = false) :
    giveUpPlaces s gone = { s with pending := (giveUpPlaces s gone).pending } := by
  have hq : SMap.each (fun _ (q : Queue) => { q with stalled := q.stalled.filter (fun x => !gone x) }) s.queues = s.queues := by
    refine each_id (fun p hp => ?_)
    have : p.2.stalled.filter (fun x => !gone x) = p.2.stalled := List.filter_eq_self.mpr (fun x hx => by simp [h p hp x hx])
    rw [this]
  unfold giveUpPlaces
  rw [hq]
  exact rouseQueues_frame s

/-! ## A commit performs (R220, R221, R232, R334) -/

theorem continueCommit_spec (s : State) (id : Nat) (c : Commit) (es : List Buffered) {u : State} {r : List Buffered}
    (h : applyEntries c s es = (u, r)) :
    (r = [] → sending u id = false →
      continueCommit s id c es = closeTask { u with commits := SMap.del u.commits id } c.die c.ctx c.task c.word true) ∧
    (r ≠ [] ∨ sending u id = true → continueCommit s id c es = { u with commits := SMap.put u.commits id { c with rest := some r } }) := by
  unfold continueCommit
  simp only [h]
  refine ⟨fun hr hs => ?_, fun hrs => ?_⟩
  · rw [if_pos (by simp [hr, hs])]
  · rw [if_neg]
    simp only [Bool.and_eq_true, List.isEmpty_iff, Bool.not_eq_true', not_and]
    intro hr hs
    exact hrs.elim (fun h => h hr) (fun h => absurd (hs.symm.trans h) (by decide))

theorem commitWaits_spec {s : State} {id qk : Nat} {x : Queue} (hq : SMap.find s.queues qk = some x)
    (hno : ∀ p ∈ s.queues, Stalled.commit id ∉ p.2.stalled) (hx : Stalled.commit id ∉ x.stalled) :
    (commitWaits s id qk).mem = s.mem ∧ (commitWaits s id qk).commits = s.commits ∧
      SMap.find (commitWaits s id qk).queues qk = some { x with stalled := x.stalled ++ [.commit id] } := by
  unfold commitWaits
  rw [giveUpPlaces_absent]
  · unfold holdPlace
    simp only [hq]
    rw [if_neg (by simpa using hx)]
    exact ⟨rfl, rfl, SMap.find_put_same _ _ _⟩
  · intro p hp y hy
    have : y ≠ .commit id := fun e => hno p hp (e ▸ hy)
    simp [this]

theorem mem_of_find {α : Type} {m : SMap α} {i : Nat} {v : α} (h : SMap.find m i = some v) : (i, v) ∈ m := by
  induction m with
  | nil => exact absurd h (by simp [SMap.find])
  | cons p m ih =>
    obtain ⟨k, w⟩ := p
    simp only [SMap.find] at h
    split at h
    · next hk => rw [hk, Option.some.inj h]; exact List.mem_cons_self
    · exact List.mem_cons_of_mem _ (ih h)

theorem commitPerformed_spec (s : State) (id : Nat) : ∃ t, exec (.commitPerformed id) s = .next t ∧
    (SMap.find s.commits id = none → t = s) ∧
      ∀ c, SMap.find s.commits id = some c → (c.released = false ∨ sending s id = true → t = s) ∧
        (c.released = true → sending s id = false →
          let goOn (z : State) (es : List Buffered) : Prop := ∀ u r, applyEntries c z es = (u, r) →
            (r = [] → sending u id = false →
              t = closeTask { u with commits := SMap.del u.commits id } c.die c.ctx c.task c.word true) ∧
            (r ≠ [] ∨ sending u id = true → t = { u with commits := SMap.put u.commits id { c with rest := some r } })
          let ws := resolveBytes s c.dev c.ctx (commitBytes c.task.buf)
          (∀ es, c.rest = some es → goOn s es) ∧
          (c.rest = none → partialPoison s id ws = true → t = fenceContext s c.dev c.ctx 9 c.hart 0) ∧
          (c.rest = none → partialPoison s id ws = false →
            (fullQueue s c = none → goOn (healSectors (giveUpPlaces s (fun x => decide (x = .commit id))) id ws) c.task.buf) ∧
            ∀ qk x, fullQueue s c = some (qk, x) → SMap.find s.queues qk = some x →
              (∀ p ∈ s.queues, .commit id ∉ p.2.stalled) → t.mem = s.mem ∧ t.commits = s.commits ∧
              SMap.find t.queues qk = some { x with stalled := x.stalled ++ [.commit id] })) := by
  refine ⟨performCommit s id, rfl, fun h => by simp only [performCommit, h], fun c hc => ⟨fun h => ?_, fun hr hs => ?_⟩⟩
  · simp only [performCommit, hc, if_pos h]
  · have hn : ¬ (c.released = false ∨ sending s id = true) := by simp [hr, hs]
    have hrest : ∀ es, c.rest = some es → performCommit s id = continueCommit s id c es := fun es he => by
      simp only [performCommit, hc, if_neg hn, he]
    intro goOn ws
    refine ⟨fun es he u r hu => ?_, fun he hp => ?_, fun he hp => ⟨fun hf u r hu => ?_, fun qk x hf hq hno => ?_⟩⟩
    · rw [hrest es he]
      exact continueCommit_spec s id c es hu
    · simp only [performCommit, hc, if_neg hn, he]
      exact if_pos hp
    · have hp' : ¬ partialPoison s id (resolveBytes s c.dev c.ctx (commitBytes c.task.buf)) = true := by
        rw [show partialPoison s id (resolveBytes s c.dev c.ctx (commitBytes c.task.buf)) = false from hp]; decide
      have ht : performCommit s id = continueCommit (healSectors (giveUpPlaces s (fun x => decide (x = .commit id))) id ws) id c
          c.task.buf := by
        simp only [performCommit, hc, if_neg hn, he, if_neg hp', hf]
        rfl
      rw [ht]
      exact continueCommit_spec _ id c _ hu
    · have hp' : ¬ partialPoison s id (resolveBytes s c.dev c.ctx (commitBytes c.task.buf)) = true := by
        rw [show partialPoison s id (resolveBytes s c.dev c.ctx (commitBytes c.task.buf)) = false from hp]; decide
      have ht : performCommit s id = commitWaits s id qk := by
        simp only [performCommit, hc, if_neg hn, he, if_neg hp', hf]
      rw [ht]
      exact commitWaits_spec hq hno (hno _ (mem_of_find hq))

/-! ## Cancel tokens (R234, R349) -/

theorem cancelToken_spec (s : State) (id : Nat) : ∃ t, exec (.cancelToken id) s = .next t ∧ (SMap.find s.tokens id = none → t = s) ∧
    ∀ k d ds, SMap.find s.tokens id = some k → k.dies = d :: ds →
      (256 ≤ (getDie s d).tokens.length → t = s) ∧
      ((getDie s d).tokens.length < 256 →
        (ds = [] → SMap.find t.tokens id = none ∧ Instr.memoryOpPerformed k.op ∈ t.pending) ∧
        (ds ≠ [] → SMap.find t.tokens id = some { k with dies := ds } ∧ Instr.cancelToken id ∈ t.pending)) := by
  refine ⟨deliverToken s id, rfl, fun h => by simp only [deliverToken, h], fun k d ds hk hd => ⟨fun hl => ?_, fun hl => ⟨fun he => ?_, fun he => ?_⟩⟩⟩
  · simp only [deliverToken, hk, hd]
    exact if_pos hl
  · simp only [deliverToken, hk, hd, if_neg (not_le.mpr hl), he, List.isEmpty_nil, if_true]
    generalize List.foldl cancelTask _ _ = u
    obtain ⟨hm, hp⟩ := postOnce_spec { u with tokens := SMap.del u.tokens id } (.memoryOpPerformed k.op)
    rw [hp]
    exact ⟨SMap.find_del_same _ _, hm⟩
  · simp only [deliverToken, hk, hd, if_neg (not_le.mpr hl), List.isEmpty_iff, if_neg he]
    generalize List.foldl cancelTask _ _ = u
    exact ⟨SMap.find_put_same _ _ _, by simp [post]⟩

/-! ## Waiting producers (R334) -/

/-- A queue replaced: the map holds it with its counts, and at most a step is made due. -/
theorem setQueue_spec (s : State) (qk : Nat) (q : Queue) :
    setQueue s qk q = { s with queues := SMap.put s.queues qk (recount q), pending := (setQueue s qk q).pending } := by
  unfold setQueue
  simp only
  split
  · rfl
  · split_ifs <;> rfl

theorem insertEntry_length (b : Bool) (e : QEntry) (l : List QEntry) : (insertEntry b e l).length = l.length + 1 := by
  induction l with
  | nil => rfl
  | cons x l ih =>
    unfold insertEntry
    split
    · rfl
    · rw [List.length_cons, ih, List.length_cons]

/-- An entry that enters a queue (R332, R333). -/
theorem enqueue_spec {s : State} {qk : Nat} {q : Queue} (e : QEntry) (h : SMap.find s.queues qk = some q) : ∃ r pend,
    enqueue s qk e = { s with queues := SMap.put s.queues qk r, pending := pend } ∧ r.stalled = q.stalled ∧ r.seq = q.seq + 1 ∧
      r.entries.length = q.entries.length + 1 := by
  unfold enqueue
  simp only [h]
  refine ⟨_, _, setQueue_spec _ _ _, rfl, rfl, insertEntry_length _ _ _⟩

theorem queueRoom_spec (s : State) (q : Nat) : ∃ t, exec (.queueRoom q) s = .next t ∧ t.mem = s.mem ∧
    ∀ r, SMap.find s.queues q = some r →
      (r.stalled = [] → t = s) ∧
      (∀ k ps, r.stalled = .hart k :: ps → (queueFull r 0 = true → t = s) ∧
        (queueFull r 0 = false → Instr.convoyIssue k ∈ t.pending ∧ t = { s with pending := t.pending })) ∧
      (∀ e ps, r.stalled = .held e :: ps → (queueFull r e.tile = true → t = s) ∧
        (queueFull r e.tile = false → ∃ u, SMap.find t.queues q = some u ∧ u.stalled = ps ∧ u.seq = r.seq + 1 ∧
          u.entries.length = r.entries.length + 1)) ∧
      (∀ u ps, r.stalled = .commit u :: ps → queueFull r 0 = false → Instr.commitPerformed u ∈ t.pending ∧
        t = { s with pending := t.pending }) ∧
      (∀ d ps, r.stalled = .unit d :: ps → queueFull r 0 = false → Instr.reprojectionDone (devOf d) ∈ t.pending ∧
        t = { s with pending := t.pending }) ∧
      (∀ w e ps x, r.stalled = .walk w e :: ps → queueFull r 0 = false → SMap.find s.walks w = some x → ∃ u,
        SMap.find t.queues q = some u ∧ u.stalled = ps ∧ u.entries.length = r.entries.length + 1 ∧
        SMap.find t.walks w = some ({ x with blocked := false } : Walk).pass) := by
  refine ⟨acceptProducer s q, rfl, ?_, fun r hr => ⟨fun h => ?_, fun k ps h => ⟨fun hf => ?_, fun hf => ?_⟩,
    fun e ps h => ⟨fun hf => ?_, fun hf => ?_⟩, fun u ps h hf => ?_, fun d ps h hf => ?_, fun w e ps x h hf hw => ?_⟩⟩
  · cases hr : SMap.find s.queues q with
    | none => simp only [acceptProducer, hr]
    | some r =>
      have hpost : ∀ i, (postOnce s i).mem = s.mem := fun i => by rw [(postOnce_spec s i).2]
      have hent : ∀ u e, SMap.find u.queues q = some { r with stalled := r.stalled.drop 1 } → (enqueue u q e).mem = u.mem :=
        fun u e hu => by
          obtain ⟨_, _, h, -⟩ := enqueue_spec e hu
          rw [h]
      simp only [acceptProducer, hr]
      split
      · rfl
      · split
        · rfl
        · exact hpost _
      · split
        · rfl
        · exact hpost _
      · split
        · rfl
        · exact hpost _
      · next w ent rest hst =>
        split
        · rfl
        · exact hent _ _ (by rw [hst]; exact SMap.find_put_same _ _ _)
      · next ent rest hst =>
        split
        · rfl
        · exact hent _ _ (by rw [hst]; exact SMap.find_put_same _ _ _)
  · simp only [acceptProducer, hr, h]
  · simp only [acceptProducer, hr, h, hf, if_true]
  · simp only [acceptProducer, hr, h, hf, Bool.false_eq_true, if_false]
    exact postOnce_spec s _
  · simp only [acceptProducer, hr, h, hf, if_true]
  · simp only [acceptProducer, hr, h, hf, Bool.false_eq_true, if_false]
    obtain ⟨u, pend, hu, h1, h2, h3⟩ := enqueue_spec (s := { s with queues := SMap.put s.queues q { r with stalled := ps } }) e
      (SMap.find_put_same _ _ _)
    rw [hu]
    exact ⟨u, SMap.find_put_same _ _ _, h1, h2, h3⟩
  · simp only [acceptProducer, hr, h, hf, Bool.false_eq_true, if_false]
    exact postOnce_spec s _
  · simp only [acceptProducer, hr, h, hf, Bool.false_eq_true, if_false]
    exact postOnce_spec s _
  · simp only [acceptProducer, hr, h, hf, Bool.false_eq_true, if_false, hw]
    obtain ⟨u, pend, hu, h1, h2, h3⟩ := enqueue_spec (s := { s with
        queues := SMap.put s.queues q { r with stalled := ps }, walks := SMap.put s.walks w ({ x with blocked := false } : Walk).pass })
      e (SMap.find_put_same _ _ _)
    rw [hu]
    exact ⟨u, SMap.find_put_same _ _ _, h1, h3, SMap.find_put_same _ _ _⟩

/-! ## The end of a launch (R336) -/

theorem endLaunch_done {s : State} {id : Nat} {l : Launch} (hl : SMap.find s.launches id = some l) (h : l.live = 0) :
    (endLaunch s id).launches = SMap.del s.launches id ∧
    (endLaunch s id).cores = SMap.each (fun _ c => { c with
      blocks := c.blocks.filter (fun b => b.launch != id), tiles := c.tiles.filter (fun t => t.launch != id) }) s.cores ∧
    ∀ w n x, l.walk = some (w, n) → SMap.find s.walks w = some x →
      SMap.find (endLaunch s id).walks w = some { x with outstanding := x.outstanding.filter (fun i => i != n) } := by
  unfold endLaunch
  simp only [hl, h, ne_eq, not_true_eq_false, if_false]
  refine ⟨?_, ?_, fun w n x hw hx => ?_⟩
  · split
    · rfl
    · split <;> rfl
  · split
    · rfl
    · split <;> rfl
  · simp only [hw, hx]
    exact SMap.find_put_same _ _ _

theorem launchEnd_spec (s : State) (id : Nat) : ∃ t, exec (.launchEnd id) s = .next t ∧ t.mem = s.mem ∧
    (SMap.find s.launches id = none → t = s) ∧
    ∀ l, SMap.find s.launches id = some l → (l.live ≠ 0 → t = s) ∧
      (l.live = 0 → SMap.find t.launches id = none ∧ (∀ c, ∀ b ∈ (getCore t c).blocks, b.launch ≠ id) ∧
        ∀ w n x, l.walk = some (w, n) → SMap.find s.walks w = some x →
          SMap.find t.walks w = some { x with outstanding := x.outstanding.filter (fun i => i != n) }) := by
  refine ⟨endLaunch s id, rfl, ?_, fun h => by simp only [endLaunch, h], fun l hl => ⟨fun h => ?_, fun h => ?_⟩⟩
  · unfold endLaunch
    split
    · rfl
    · split
      · rfl
      · simp only
        split
        · rfl
        · split <;> rfl
  · simp only [endLaunch, hl, if_pos h]
  · obtain ⟨hq, hc, hw⟩ := endLaunch_done hl h
    refine ⟨by rw [hq]; exact SMap.find_del_same _ _, fun c b hb => ?_, hw⟩
    have hcore : (getCore (endLaunch s id) c).blocks = (getCore s c).blocks.filter (fun b => b.launch != id) := by
      rw [getCore, SMap.get, hc, find_each, getCore, SMap.get]
      cases SMap.find s.cores c <;> rfl
    rw [hcore] at hb
    simpa using (List.mem_filter.mp hb).2

/-! ## Pre-emption (R282) -/

theorem queueAsync_spec (s : State) (hk : Nat) (a : Async) : (queueAsync s hk a).mem = s.mem ∧ (queueAsync s hk a).cores = s.cores ∧
    (∀ k, k ≠ hk → getHart (queueAsync s hk a) k = getHart s k) ∧
    (getHart (queueAsync s hk a) hk).async = (getHart s hk).async ++ [a] := by
  have ho : ∀ (t : State) (f : Hart → Hart) (k : Nat), k ≠ hk → getHart (modHart t hk f) k = getHart t k :=
    fun t f k hne => getHart_modHart_other _ _ _ _ hne.symm
  have h1 : (getHart (modHart s hk (fun h => { h with async := h.async ++ [a] })) hk).async = (getHart s hk).async ++ [a] := by
    rw [getHart_modHart_same]
  unfold queueAsync
  simp only
  split
  · refine ⟨rfl, rfl, fun k hne => (ho _ _ k hne).trans (ho _ _ k hne), ?_⟩
    rw [getHart_modHart_same]
    exact h1
  · split
    · exact ⟨rfl, rfl, ho s (fun h => { h with async := h.async ++ [a] }), h1⟩
    · exact ⟨rfl, rfl, ho s _, h1⟩

theorem foldl_queueAsync (a : Async) (l : List Nat) (s : State) (hd : l.Nodup) :
    let t := l.foldl (fun t hk => queueAsync t hk a) s
    t.mem = s.mem ∧ t.cores = s.cores ∧ (∀ k, k ∉ l → getHart t k = getHart s k) ∧
      ∀ k ∈ l, (getHart t k).async = (getHart s k).async ++ [a] := by
  induction l generalizing s with
  | nil => exact ⟨rfl, rfl, fun _ _ => rfl, fun k hk => absurd hk List.not_mem_nil⟩
  | cons x l ih =>
    rw [List.nodup_cons] at hd
    obtain ⟨hx, hd⟩ := hd
    obtain ⟨hm, hc, ho, hs⟩ := queueAsync_spec s x a
    obtain ⟨im, ic, io, is⟩ := ih (queueAsync s x a) hd
    refine ⟨im.trans hm, ic.trans hc, fun k hk => ?_, fun k hk => ?_⟩
    · rw [List.mem_cons, not_or] at hk
      exact (io k hk.2).trans (ho k hk.1)
    · by_cases hkl : k ∈ l
      · have hne : k ≠ x := fun e => hx (e ▸ hkl)
        exact (is k hkl).trans (by rw [ho k hne])
      · obtain rfl := (List.mem_cons.mp hk).resolve_right hkl
        exact (congrArg Hart.async (io k hkl)).trans hs

theorem hartsOf_nodup (ck : Nat) : (hartsOf ck).Nodup := by
  refine List.Nodup.map (fun i j h => ?_) List.nodup_range
  have : ck * 8 + i = ck * 8 + j := h
  omega

/-- The harts of a core that a pre-emption concerns (R282). -/
def leavers (s : State) (ck : Nat) : List Nat :=
  (hartsOf ck).filter (fun hk => decide ((getHart s hk).st = .running) || decide ((getHart s hk).st = .parked)
    || decide ((getHart s hk).st = .follower))

theorem preemptMessage_spec (s : State) (ck : Nat) (v : DWord) : ∃ t, exec (.preemptMessage ck v) s = .next t ∧ t.mem = s.mem ∧
    (isCompute s ck = false ∨ leavingOn s ck ≠ [] → t = s) ∧
    (isCompute s ck = true → leavingOn s ck = [] → ∃ p, (getCore t ck).preempt = some p ∧ p.deadline = v.toNat ∧
      ∀ k, k ∈ p.harts ↔ k ∈ hartsOf ck ∧ ((getHart s k).st = .running ∨ (getHart s k).st = .parked ∨
        (getHart s k).st = .follower)) ∧
    (isCompute s ck = true → leavingOn s ck = [] → ∀ k ∈ hartsOf ck, (getHart s k).st = .running →
      (getHart t k).async = (getHart s k).async ++ [⟨cPREEMPT, 0, 0⟩]) := by
  refine ⟨preemptCore s ck v.toNat, rfl, ?_, fun h => if_pos h, fun hc hl => ?_, fun hc hl k hk hst => ?_⟩
  · unfold preemptCore
    split
    · rfl
    · exact (foldl_queueAsync _ _ _ ((hartsOf_nodup ck).filter _)).1
  · have hn : ¬ (isCompute s ck = false ∨ leavingOn s ck ≠ []) := by simp [hc, hl]
    rw [preemptCore, if_neg hn]
    obtain ⟨-, hcores, -, -⟩ := foldl_queueAsync ⟨cPREEMPT, 0, 0⟩ _ (modCore s ck (fun c => { c with preempt := some {
      deadline := v.toNat, harts := leavers s ck, ctxs := ((leavers s ck).map (fun hk => (getHart s hk).ctxid.toNat)).eraseDups } }))
      ((hartsOf_nodup ck).filter _)
    refine ⟨_, (congrArg (fun m => (SMap.get {} m ck).preempt) hcores).trans (congrArg Core.preempt (getCore_modCore_same _ _ _)), rfl, fun k => ?_⟩
    simp [leavers, List.mem_filter, or_assoc]
  · have hn : ¬ (isCompute s ck = false ∨ leavingOn s ck ≠ []) := by simp [hc, hl]
    rw [preemptCore, if_neg hn]
    exact (foldl_queueAsync _ _ _ ((hartsOf_nodup ck).filter _)).2.2.2 k (List.mem_filter.mpr ⟨hk, by simp [hst]⟩)

theorem preemptDeadline_spec (s : State) (ck : Nat) : ∃ t, exec (.preemptDeadline ck) s = .next t ∧
    ((getCore s ck).preempt = none → t = s) ∧
    ∀ p, (getCore s ck).preempt = some p → ((getDie s (dieOf ck)).tb.toNat < p.deadline → t = s) ∧
      (p.deadline ≤ (getDie s (dieOf ck)).tb.toNat → leavingOn t ck = []) := by
  refine ⟨missDeadline s ck, rfl, fun h => by simp only [missDeadline, h], fun p hp => ⟨fun h => ?_, fun h => ?_⟩⟩
  · simp only [missDeadline, hp, if_pos h]
  · simp only [missDeadline, hp, if_neg (not_lt.mpr h), leavingOn, getCore_modCore_same]
    generalize List.foldl _ s p.harts = t
    cases (getCore t ck).preempt <;> rfl

end Sys2Proof.Machine
end

section
/-! OBLIGATION O54. Asynchronous traps, the return of a context and tiles that arrive (R269, R274, R284, R341). -/
namespace Sys2Proof.Machine

open Sys2Proof

/-! ## Asynchronous traps (R269, R274) -/

/-- The trap to be taken next is pending, and none of a lower rank is (R274). -/
theorem nextAsync_spec {as : List Async} (h : as ≠ []) : ∃ a, nextAsync as = some a ∧ a ∈ as ∧
    ∀ b ∈ as, asyncRank a.cause ≤ asyncRank b.cause := by
  have hle : ∀ c, asyncRank c ≤ 2 := fun c => by unfold asyncRank; split_ifs <;> decide
  unfold nextAsync
  cases h0 : as.find? (fun a => asyncRank a.cause == 0) with
  | some a =>
    have hr : asyncRank a.cause = 0 := by simpa using List.find?_some h0
    exact ⟨a, rfl, List.mem_of_find?_eq_some h0, fun b _ => by omega⟩
  | none =>
    have hno : ∀ b ∈ as, asyncRank b.cause ≠ 0 := fun b hb => by simpa using List.find?_eq_none.mp h0 b hb
    cases h1 : as.find? (fun a => asyncRank a.cause == 1) with
    | some a =>
      have hr : asyncRank a.cause = 1 := by simpa using List.find?_some h1
      exact ⟨a, rfl, List.mem_of_find?_eq_some h1, fun b hb => by have := hno b hb; omega⟩
    | none =>
      have hno1 : ∀ b ∈ as, asyncRank b.cause ≠ 1 := fun b hb => by simpa using List.find?_eq_none.mp h1 b hb
      obtain ⟨a, l, rfl⟩ := List.exists_cons_of_ne_nil h
      exact ⟨a, rfl, List.mem_cons_self, fun b hb => by have := hno b hb; have := hno1 b hb; have := hle a.cause; omega⟩

/-- A hart is another but for its rope and its state of issue. -/
def SameButRope (h g : Hart) : Prop := g = { h with rstat := g.rstat, st := g.st }

theorem disband_hart (s : State) (hk k : Nat) : SameButRope (getHart s k) (getHart (disband s hk) k) := by
  cases hr : (getHart s hk).inRope with
  | false =>
    unfold disband
    rw [hr, if_neg (by decide)]
    rfl
  | true =>
    obtain ⟨hin, hout⟩ := disband_spec s hk hr
    by_cases hk : k ∈ ropeOf s hk
    · rw [hin k hk]; rfl
    · rw [hout k hk]; rfl

theorem giveUpPlaces_frame (s : State) (gone : Stalled → Bool) : giveUpPlaces s gone =
    { s with queues := (giveUpPlaces s gone).queues, pending := (giveUpPlaces s gone).pending } := by
  unfold giveUpPlaces
  rw [rouseQueues_frame]

theorem withdraw_frame (s : State) (hk : Nat) : (∀ k, getHart (withdrawQueues (withdrawEvents s hk) hk) k = getHart s k) ∧
    (withdrawQueues (withdrawEvents s hk) hk).mem = s.mem := by
  unfold withdrawQueues
  rw [giveUpPlaces_frame]
  exact ⟨fun _ => rfl, rfl⟩

/-- The hart once its next pending trap has been recorded as taken, before it enters the handler. -/
theorem takeTrap_async {s : State} {hk : Nat} {t : TrapInfo} (ha : t.async = true) (hv : (getHart s hk).htvec ≠ 0) :
    (takeTrap s hk t).mem = s.mem ∧ ∃ fw g, SameButRope (getHart s hk) g ∧ getHart (takeTrap s hk t) hk = Hart.enter fw t g := by
  unfold takeTrap
  simp only [ha, Bool.not_true, Bool.false_and, Bool.false_eq_true, if_false, if_neg hv]
  exact ⟨disband_mem s hk, _, _, disband_hart s hk hk, getHart_modHart_same _ _ _⟩

/-- MODE, IE, PMODE and PIE after a trap is entered (R267). -/
theorem trapHstat_spec (fw : Bool) (w : DWord) : bit (trapHstat fw w) 4 = false ∧ bit (trapHstat fw w) 5 = bit w 4 ∧
    bits (trapHstat fw w) 7 6 = bits w 1 0 := by
  have hm : bits w 1 0 < 4 := Nat.mod_lt _ (by decide)
  have hlow : bits (trapHstat fw w) 7 0 = bits w 1 0 * 64 + b2n (bit w 4) * 32 + (if fw then 3 else 1) :=
    bits_withBits_same _ _ _ _ (by decide) (by decide) (by
      have : b2n (bit w 4) ≤ 1 := by cases bit w 4 <;> decide
      have : (if fw then 3 else 1) ≤ 3 := by split <;> decide
      omega)
  have hb : ∀ k, k < 8 → bit (trapHstat fw w) k = (bits (trapHstat fw w) 7 0).testBit k := fun k hk => by
    rw [testBit_bits]; simp [hk, bit, BitVec.getLsbD]
  have hf : (if fw then 3 else 1) < 4 := by split <;> decide
  generalize (if fw then 3 else 1) = f at hlow hf
  refine ⟨?_, ?_, ?_⟩
  · rw [hb 4 (by decide), hlow, Nat.testBit_eq_decide_div_mod_eq, decide_eq_false_iff_not]
    cases bit w 4 <;> simp only [b2n, if_true, Bool.false_eq_true, if_false] <;> omega
  · rw [hb 5 (by decide), hlow, Nat.testBit_eq_decide_div_mod_eq]
    cases bit w 4 with
    | false => exact decide_eq_false (by rw [show b2n false = 0 from rfl]; omega)
    | true => exact decide_eq_true (by rw [show b2n true = 1 from rfl]; omega)
  · have : bits (trapHstat fw w) 7 6 = bits (trapHstat fw w) 7 0 / 64 := by
      simp only [bits, Nat.shiftRight_eq_div_pow]
      omega
    rw [this, hlow]
    have : b2n (bit w 4) ≤ 1 := by cases bit w 4 <;> decide
    omega

/-- What an asynchronous trap records of the hart (R269). -/
theorem takeAsync_eq {s : State} {hk : Nat} {a : Async} (he : isEngine hk = false) (hn : nextAsync (getHart s hk).async = some a) :
    ∃ (t : TrapInfo) (u : State), takeAsync s hk = takeTrap u hk t ∧ t.async = true ∧ t.cause = a.cause ∧ t.info = a.info ∧
      t.faddr = a.faddr ∧ ((getHart s hk).conv = none → t.pc = (getHart s hk).pc ∧ t.slot = 0 ∧ t.v = false) ∧ u.mem = s.mem ∧
      ∃ z b, getHart u hk = { getHart s hk with async := (getHart s hk).async.erase a, zeroed := z, leaving := b } := by
  obtain ⟨hw, hm⟩ := withdraw_frame s hk
  unfold takeAsync
  simp only [hn, he, Bool.false_eq_true, if_false]
  refine ⟨_, _, rfl, ?_, ?_, ?_, ?_, fun hc => ?_, hm,
    (getHart s hk).zeroed.eraseP (fun z => z.trap == a), (getHart s hk).leaving || decide (a.cause = cPREEMPT),
    (getHart_modHart_same _ _ _).trans ?_⟩
  · cases (getHart s hk).conv <;> rfl
  · cases (getHart s hk).conv <;> rfl
  · cases (getHart s hk).conv <;> rfl
  · cases (getHart s hk).conv <;> rfl
  · simp only [hc, and_self]
  · rw [hw hk]

theorem takeAsync_spec {s : State} {hk : Nat} (ht : (getHart s hk).takeable = true) (he : isEngine hk = false)
    (hv : (getHart s hk).htvec ≠ 0) : ∃ a ∈ (getHart s hk).async,
      (∀ b ∈ (getHart s hk).async, asyncRank a.cause ≤ asyncRank b.cause) ∧
      let n := getHart (takeAsync s hk) hk
      n.async = (getHart s hk).async.erase a ∧ n.pc = (getHart s hk).htvec ∧ n.ie = false ∧ n.pie = true ∧
      n.pmode = (getHart s hk).mode ∧
      n.hcause = BitVec.ofNat 64 (a.info % 2 ^ 32 * 2 ^ 32 + 2 ^ 8 + a.cause) ∧ n.faddr = a.faddr ∧
      ((getHart s hk).conv = none → n.hepc = BitVec.ofNat 64 ((getHart s hk).pc.toNat / 16 * 16) ∧ n.cvr = 0) ∧
      n.kept = (getHart s hk).q ∧ (takeAsync s hk).mem = s.mem := by
  simp only [Hart.takeable, Bool.and_eq_true] at ht
  obtain ⟨⟨⟨hie, hne⟩, -⟩, -⟩ := ht
  obtain ⟨a, hn, ham, hmin⟩ := nextAsync_spec (as := (getHart s hk).async) (by simpa using hne)
  obtain ⟨t, u, htk, hasync, hcause, hinfo, hfa, hconv, humem, z, b, hu⟩ := takeAsync_eq he hn
  obtain ⟨hmem, fw, g, hg, hent⟩ := takeTrap_async (s := u) (hk := hk) hasync (by rw [hu]; exact hv)
  rw [hu] at hg
  obtain ⟨h4, h5, h67⟩ := trapHstat_spec fw (getHart s hk).hstat
  have hstat : g.hstat = (getHart s hk).hstat := by rw [hg]
  refine ⟨a, ham, hmin, ?_⟩
  rw [htk, hent]
  refine ⟨?_, ?_, ?_, ?_, ?_, ?_, hfa, fun hc => ?_, ?_, hmem.trans humem⟩
  · change g.async = _
    rw [hg]
  · change g.htvec = _
    rw [hg]
  · change bit (trapHstat fw g.hstat) 4 = false
    rw [hstat, h4]
  · change bit (trapHstat fw g.hstat) 5 = true
    rw [hstat, h5]
    exact hie
  · change bits (trapHstat fw g.hstat) 7 6 = _
    rw [hstat, h67]
    rfl
  · change t.hcause = _
    rw [TrapInfo.hcause, hasync, hcause, hinfo, show b2n true = 1 from rfl, one_mul]
  · obtain ⟨hpc, hslot, hvf⟩ := hconv hc
    refine ⟨?_, ?_⟩
    · change t.hepc = _
      rw [TrapInfo.hepc, hpc, hslot]
      rfl
    · change t.cvr _ = 0
      rw [TrapInfo.cvr, hvf, if_neg (by decide)]
  · change g.q = _
    rw [hg]

theorem asyncTrap_spec (s : State) (hk : Nat) : ∃ t, exec (.asyncTrap hk) s = .next t ∧
    ((getHart s hk).endsNow = true → t = endHart s hk (getHart s hk).ending) ∧
    ((getHart s hk).endsNow = false → (getHart s hk).takeable = false → t = s) ∧
    ((getHart s hk).endsNow = false → (getHart s hk).takeable = true → isEngine hk = false → (getHart s hk).htvec ≠ 0 →
      ∃ a ∈ (getHart s hk).async, (∀ b ∈ (getHart s hk).async, asyncRank a.cause ≤ asyncRank b.cause) ∧
        let n := getHart t hk
        n.async = (getHart s hk).async.erase a ∧ n.pc = (getHart s hk).htvec ∧ n.ie = false ∧ n.pie = true ∧
        n.pmode = (getHart s hk).mode ∧
        n.hcause = BitVec.ofNat 64 (a.info % 2 ^ 32 * 2 ^ 32 + 2 ^ 8 + a.cause) ∧ n.faddr = a.faddr ∧
        ((getHart s hk).conv = none → n.hepc = BitVec.ofNat 64 ((getHart s hk).pc.toNat / 16 * 16) ∧ n.cvr = 0) ∧
        n.kept = (getHart s hk).q ∧ t.mem = s.mem) := by
  refine ⟨(atBoundary s hk).getD s, rfl, fun h => ?_, fun h ht => ?_, fun h ht he hv => ?_⟩
  · simp only [atBoundary, h, if_true, Option.getD_some]
  · simp only [atBoundary, h, ht, Bool.false_eq_true, if_false, Option.getD_none]
  · simp only [atBoundary, h, ht, Bool.false_eq_true, if_false, if_true, Option.getD_some]
    exact takeAsync_spec ht he hv

/-! ## The return of a context (R284) -/

theorem rouseSenders_frame (s : State) (dst : Nat) (q : Option Nat) :
    rouseSenders s dst q = { s with pending := (rouseSenders s dst q).pending } := by
  refine foldl_pending (fun t p => ?_) _ s
  split
  · exact (postOnce_spec t _).2
  · rfl

/-- A hart that does not return is kept. -/
theorem returnHart_other (ck : Nat) (s : State) {hk k : Nat} (hne : k ≠ hk) : getHart (returnHart ck s hk) k = getHart s k := by
  unfold returnHart
  simp only
  split
  · rfl
  · split
    · rfl
    · rw [rouseSenders_frame]
      exact getHart_setHart_other _ _ _ _ hne.symm

theorem foldl_returnHart_other (ck : Nat) (l : List Nat) (s : State) {k : Nat} (hk : k ∉ l) :
    getHart (l.foldl (returnHart ck) s) k = getHart s k := by
  induction l generalizing s with
  | nil => rfl
  | cons x l ih =>
    rw [List.mem_cons, not_or] at hk
    exact (ih (returnHart ck s x) hk.2).trans (returnHart_other ck s hk.1)

/-- A packed hart whose allocation is free returns (R284). -/
theorem returnHart_back {ck : Nat} {s : State} {hk : Nat} {p : Packed} (hp : (getHart s hk).packed = some p)
    (hst : (getHart s hk).st = .preempted) (hf : (freeChunks s ck p.chunks).length = p.chunks) :
    getHart (returnHart ck s hk) hk = (getHart s hk).comeBack p (freeChunks s ck p.chunks) := by
  unfold returnHart
  simp only [hp]
  rw [if_neg (by simp [hst, hf]), rouseSenders_frame]
  exact getHart_setHart_same _ _ _

/-- A context's harts on a core (R284). -/
def packedFor (s : State) (ctx hk : Nat) : Bool :=
  match (getHart s hk).packed with | some p => decide (p.ctxid = ctx) | none => false

theorem returnContext_hart {s : State} {ck ctx : Nat} (hl : leavingOn s ck = []) (k : Nat) :
    getHart (returnContext s ck ctx) k = getHart (((hartsOf ck).filter (packedFor s ctx)).foldl (returnHart ck) s) k := by
  unfold returnContext
  rw [if_neg (by simp [hl])]
  simp only
  split <;> rfl

theorem unspill_spec (m : SMap (List Msg)) {i : Nat} (hi : i < 4) : SMap.get [] (unspill m).1 i = (SMap.get [] m i).take 8 := by
  have h : (unspill m).1 = SMap.set [] (SMap.set [] (SMap.set [] (SMap.set [] [] 0 ((SMap.get [] m 0).take 8)) 1
      ((SMap.get [] m 1).take 8)) 2 ((SMap.get [] m 2).take 8)) 3 ((SMap.get [] m 3).take 8) := rfl
  rw [h]
  obtain rfl | rfl | rfl | rfl : i = 0 ∨ i = 1 ∨ i = 2 ∨ i = 3 := by omega
  · rw [SMap.get_set_other _ _ _ _ _ (by decide), SMap.get_set_other _ _ _ _ _ (by decide), SMap.get_set_other _ _ _ _ _ (by decide),
      SMap.get_set_same]
  · rw [SMap.get_set_other _ _ _ _ _ (by decide), SMap.get_set_other _ _ _ _ _ (by decide), SMap.get_set_same]
  · rw [SMap.get_set_other _ _ _ _ _ (by decide), SMap.get_set_same]
  · rw [SMap.get_set_same]

/-- HSTAT of a hart that has come back (R284). -/
theorem comeBack_stat (b c : Bool) : let w := BitVec.ofNat 64 (1 + b2n b * 2 ^ 9 + b2n c * 2 ^ 10)
    bits w 1 0 = 1 ∧ bit w 4 = false ∧ bit w 9 = b ∧ bit w 10 = c := by
  cases b <;> cases c <;> decide

/-- The one element of a list without repetitions that a predicate picks. -/
theorem filter_only {α : Type} [DecidableEq α] {p : α → Bool} {l : List α} {k : α} (hd : l.Nodup) (hk : k ∈ l) (hp : p k = true)
    (ho : ∀ j ∈ l, j ≠ k → p j = false) : l.filter p = [k] := by
  have hc : l.filter p = l.filter (· == k) := List.filter_congr (fun j hj => by
    by_cases h : j = k
    · rw [h, hp, beq_self_eq_true]
    · rw [ho j hj h, beq_false_of_ne h])
  rw [hc, List.filter_beq, List.count_eq_one_of_mem hd hk, List.replicate_one]

theorem contextReturn_spec (s : State) (ck ctx : Nat) : ∃ t, exec (.contextReturn (ck, ctx)) s = .next t ∧
    (leavingOn s ck ≠ [] → t = s) ∧
    (leavingOn s ck = [] → ∀ k ∈ hartsOf ck, (∀ p, (getHart s k).packed = some p → p.ctxid ≠ ctx) →
      (getHart t k).packed = (getHart s k).packed ∧ (getHart t k).st = (getHart s k).st) ∧
    ∀ k p, leavingOn s ck = [] → k ∈ hartsOf ck → (∀ j ∈ hartsOf ck, j ≠ k → (getHart s j).packed = none) →
      (getHart s k).packed = some p → p.ctxid = ctx → (getHart s k).st = .preempted → (freeChunks s ck p.chunks).length = p.chunks →
      let n := getHart t k
      n.pc = p.resume ∧ n.st = .running ∧ n.htvec = p.htvec ∧ n.hscr = p.image ∧ n.mode = 1 ∧ n.ie = false ∧
      n.hcause = BitVec.ofNat 64 (2 ^ 32 + cPREEMPT) ∧ n.idem = p.idem ∧ n.ord = p.ord ∧ n.ordtmo = p.ordtmo ∧
      n.ctxid = BitVec.ofNat 16 p.ctxid ∧ n.vcfg = 0 ∧ n.vl = 0 ∧ n.chunks.length = p.chunks ∧ (∀ i, n.phys i = 0) ∧
      n.task = (getHart s k).task ∧
      n.packed = none ∧ (getCore t ck).preempt = none ∧
      ∀ i, i < 4 → SMap.get [] n.rq i = (SMap.get [] (getHart s k).spill i).take 8 := by
  refine ⟨returnContext s ck ctx, rfl, fun h => if_pos h, fun hl k hk hno => ?_, fun k p hl hk hother hp hctx hst hf => ?_⟩
  · have hmine : k ∉ (hartsOf ck).filter (packedFor s ctx) := by
      rw [List.mem_filter, not_and]
      intro _
      unfold packedFor
      cases hq : (getHart s k).packed with
      | none => exact Bool.false_ne_true
      | some p => simpa using hno p hq
    rw [returnContext_hart hl, foldl_returnHart_other ck _ s hmine]
    exact ⟨rfl, rfl⟩
  · have hmine : (hartsOf ck).filter (packedFor s ctx) = [k] :=
      filter_only (hartsOf_nodup ck) hk (by simp only [packedFor, hp, hctx, decide_true]) (fun j hj hne => by simp only [packedFor, hother j hj hne])
    have hback := returnHart_back hp hst hf
    have hn : getHart (returnContext s ck ctx) k = (getHart s k).comeBack p (freeChunks s ck p.chunks) := by
      rw [returnContext_hart hl, hmine]
      exact hback
    obtain ⟨h1, h4, h9, h10⟩ := comeBack_stat p.idem p.ord
    rw [hn]
    refine ⟨rfl, rfl, rfl, rfl, h1, h4, rfl, h9, h10, rfl, rfl, rfl, rfl, hf, fun _ => rfl, rfl, rfl, ?_, fun i hi => unspill_spec _ hi⟩
    unfold returnContext
    rw [if_neg (by simp [hl])]
    simp only
    rw [if_neg]
    · exact congrArg Core.preempt (getCore_modCore_same _ _ _)
    · rw [List.any_eq_true]
      rintro ⟨j, hj, hpj⟩
      change (getHart (((hartsOf ck).filter (packedFor s ctx)).foldl (returnHart ck) s) j).packed.isSome = true at hpj
      rw [hmine, List.foldl_cons, List.foldl_nil] at hpj
      by_cases hjk : j = k
      · rw [hjk, hback] at hpj
        exact absurd hpj (by simp [Hart.comeBack])
      · rw [returnHart_other ck s hjk, hother j hj hjk] at hpj
        exact absurd hpj (by decide)

/-! ## Tiles that arrive (R340, R341) -/

theorem storable_scratch (ck o : Nat) : storable (scratchLoc ck o) = true := by
  have : scratchBase ≤ scratchLoc ck o := by unfold scratchLoc; simp only; omega
  simp [storable, isScratch, this]

/-- Bytes written one after another to a scratchpad. -/
theorem foldl_writeByte (ck o : Nat) (bs : List Byte) (k : Nat) (s : State) (hs : ScratchHome s) :
    let t := (bs.zipIdx k).foldl (fun u x => writeByte u (scratchLoc ck (o + x.2)) x.1) s
    t = { s with mem := t.mem } ∧ (∀ j, j < bs.length → memGet t.mem (scratchLoc ck (o + (k + j))) = bs.getD j 0) ∧
      ∀ l, (∀ j, j < bs.length → l ≠ scratchLoc ck (o + (k + j))) → memGet t.mem l = memGet s.mem l := by
  induction bs generalizing k s with
  | nil => exact ⟨rfl, fun j hj => absurd hj (Nat.not_lt_zero j), fun _ _ => rfl⟩
  | cons b bs ih =>
    have hw : writeByte s (scratchLoc ck (o + k)) b = { s with mem := memSet s.mem (scratchLoc ck (o + k)) b } := by
      rw [writeByte, if_pos (storable_scratch _ _), hs _ (by unfold scratchLoc; simp only; omega)]
    obtain ⟨hf, hin, hout⟩ := ih (k + 1) (writeByte s (scratchLoc ck (o + k)) b) (by rw [hw]; exact hs)
    have hinj : ∀ i j, scratchLoc ck (o + i) = scratchLoc ck (o + j) → i = j := fun i j h => by
      unfold scratchLoc at h
      simp only at h
      omega
    simp only [List.zipIdx_cons, List.foldl_cons]
    refine ⟨by rw [hf, hw], fun j hj => ?_, fun l hl => ?_⟩
    · cases j with
      | zero =>
        rw [hout _ (fun j _ h => by have := hinj _ _ h; omega), hw]
        exact memGet_memSet_same _ _ _
      | succ j =>
        rw [show k + (j + 1) = k + 1 + j by omega, hin j (by simpa using hj)]
        rfl
    · rw [hout l (fun j hj => by
        have := hl (j + 1) (by simpa using hj)
        rwa [show k + (j + 1) = k + 1 + j by omega] at this), hw]
      exact memGet_memSet_other _ _ _ _ (fun h => hl 0 (by simp) h.symm)

theorem touchTile_frame (s : State) (dev ctx : Nat) (d : List DWord) : SameLinesApart s (touchTile s dev ctx d) := by
  refine SameLinesApart.foldl _ (fun t r => ?_) _ s
  unfold touchRead
  split
  · exact SameLinesApart.foldl _ (fun t q => touchSector_frame t _ _ _) _ _
  · exact SameLinesApart.rfl t

theorem clearPoison_frame (s : State) (l n : Nat) : clearPoison s l n = { s with poison := (clearPoison s l n).poison } := by
  unfold clearPoison
  induction List.range (n / 64) generalizing s with
  | nil => rfl
  | cons k ks ih => rw [List.foldl_cons, ih]; rfl

theorem tileResident_spec (s : State) (ck id : Nat) : ∃ t, exec (.tileResident ck id) s = .next t ∧
    ((∀ e ∈ (getCore s ck).tiles, e.id ≠ id) → t = s) ∧
    ∀ e b us bs, (getCore s ck).tiles.find? (fun e => e.id == id) = some e →
      (getCore s ck).blocks.find? (fun b => b.launch == e.launch) = some b →
      tileUsers s ck e = us → us ≠ [] →
      readTile s (devOf (dieOf ck)) e.ctx e.desc 0 (tileRows e.desc) = Sum.inl bs → ScratchHome s →
      (∀ j, j < bs.length → memGet t.mem (scratchLoc ck (b.off + tileDst e.desc + j)) = bs.getD j 0) ∧
      (∀ l, (∀ j, j < bs.length → l ≠ scratchLoc ck (b.off + tileDst e.desc + j)) → memGet t.mem l = memGet s.mem l) ∧
      ∀ x ∈ (getCore t ck).tiles, x.id = id → x.resident = true := by
  refine ⟨arriveTile s ck id, rfl, fun h => ?_, fun e b us bs he hb hus hne hread hhome => ?_⟩
  · have hnone : (getCore s ck).tiles.find? (fun t => t.id == id) = none := List.find?_eq_none.mpr (fun e hm => by simpa using h e hm)
    simp only [arriveTile, hnone]
  · obtain ⟨u, l, rfl⟩ := List.exists_cons_of_ne_nil hne
    have hr : arriveTile s ck id =
        let s0 := clearPoison (touchTile s (devOf (dieOf ck)) e.ctx e.desc)
          (scratchLoc ck (b.off + tileDst e.desc)) bs.length
        let s1 := (bs.zipIdx).foldl (fun u x => writeByte u (scratchLoc ck (b.off + tileDst e.desc + x.2)) x.1) s0
        setCore s1 ck { getCore s1 ck with
          tiles := (getCore s ck).tiles.map (fun x => if x.id = id then { x with resident := true } else x) } := by
      unfold arriveTile
      simp only [he, hb, hus, hread]
    have hmem : (clearPoison (touchTile s (devOf (dieOf ck)) e.ctx e.desc) (scratchLoc ck (b.off + tileDst e.desc)) bs.length).mem = s.mem := by
      rw [clearPoison_frame]
      exact (touchTile_frame s (devOf (dieOf ck)) e.ctx e.desc).translated.mem
    have hh : ScratchHome (clearPoison (touchTile s (devOf (dieOf ck)) e.ctx e.desc) (scratchLoc ck (b.off + tileDst e.desc)) bs.length) := by
      rw [clearPoison_frame, touchTile_frame s (devOf (dieOf ck)) e.ctx e.desc]
      exact hhome
    obtain ⟨-, hin, hout⟩ := foldl_writeByte ck (b.off + tileDst e.desc) bs 0 _ hh
    simp only [Nat.zero_add] at hin hout
    rw [hr]
    refine ⟨hin, fun l hl => (hout l hl).trans (by rw [hmem]), fun x hx hid => ?_⟩
    rw [getCore_setCore_same] at hx
    obtain ⟨y, -, rfl⟩ := List.mem_map.mp hx
    split at hid
    · next h => rw [if_pos h]
    · next h => exact absurd hid h

end Sys2Proof.Machine
end

section
/-! OBLIGATION O54. The places that can host a task, and the start of one (R336 to R339, R345). -/
namespace Sys2Proof.Machine

open Sys2Proof

/-! ## Places (R339, R345) -/

/-- A core of a device is a tile of one of its dies. -/
theorem mem_tilesOfDev {dev c : Nat} (h : c ∈ (diesOfDev dev).flatMap tilesOfDie) : ∃ d u, d < 8 ∧ u < 96 ∧ c = (dev * 8 + d) * 128 + u := by
  simp only [diesOfDev, tilesOfDie, List.mem_flatMap, List.mem_map, List.mem_range] at h
  obtain ⟨_, ⟨d, hd, rfl⟩, u, hu, rfl⟩ := h
  exact ⟨d, u, hd, hu, rfl⟩

/-- A task alone takes its own core (R18, R336). -/
theorem ropeHarts_alone {dev c : Nat} (hdev : dev < 8) (h : c ∈ (diesOfDev dev).flatMap tilesOfDie) :
    (ropeHarts (c * 8) 0 (ropeOrigin (unitOf c) 0)).map coreOf = [c] := by
  obtain ⟨d, u, hd, hu, rfl⟩ := mem_tilesOfDev h
  have hb : ((dev * 8 + d) * 128 + u) * 8 < engineBase := by unfold engineBase; omega
  have hc : coreOf (((dev * 8 + d) * 128 + u) * 8) = (dev * 8 + d) * 128 + u := by
    rw [coreOf, if_pos hb, Nat.mul_div_cancel _ (by decide)]
  have hu' : unitOf ((dev * 8 + d) * 128 + u) = u := by unfold unitOf; omega
  have hd' : dieOf ((dev * 8 + d) * 128 + u) = dev * 8 + d := by unfold dieOf; omega
  have hn : hartNo (((dev * 8 + d) * 128 + u) * 8) = 0 := by unfold hartNo; omega
  have hr : List.range (ropeSize 0) = [0] := rfl
  simp only [ropeHarts, hc, hu', hd', hn, hr, List.map_cons, List.map_nil, ropeOrigin, if_true]
  have hw : ropeWidth 0 = 1 := rfl
  rw [hw]
  have : ((dev * 8 + d) * 128 + (tileY u / 4 * 4 + tileY u % 4 + 0 / 1) * 12 + (tileX u / 2 * 2 + tileX u % 2 + 0 % 1)) * 8 + 0
      = ((dev * 8 + d) * 128 + u) * 8 := by
    unfold tileX tileY
    omega
  rw [this, hc]

/-- A place of a task that runs alone: a core, and the lowest of its free harts (R339, R345). -/
theorem placeAt_alone {dev c : Nat} {free : Nat → List Nat} (hdev : dev < 8) (h : c ∈ (diesOfDev dev).flatMap tilesOfDie)
    {p : Nat → Bool} (hf : free c = (List.range 8).filter p ∨ free c = []) :
    placeAt 0 free c = (free c).head?.map (fun i => ([c], i)) := by
  unfold placeAt
  simp only [ropeHarts_alone hdev h, List.head?_cons, if_true, List.all_cons, List.all_nil, Bool.and_true]
  congr 1
  rcases hf with hf | hf
  · rw [hf]
    rw [List.head?_filter]
    refine List.find?_congr (fun i hi => ?_)
    simp [hi]
  · rw [hf]
    simp

theorem filter_or_nil (b : Bool) (p : Nat → Bool) : (∃ f, (if b then (List.range 8).filter p else []) = (List.range 8).filter f) ∨
    (if b then (List.range 8).filter p else []) = [] := by
  cases b
  · exact .inr rfl
  · exact .inl ⟨p, rfl⟩

theorem freeHarts_form (s : State) (q : Queue) (e : QEntry) (l : Launch) (ds : List (List DWord)) (c : Nat) :
    (∃ p : Nat → Bool, freeHarts s q e l ds c = (List.range 8).filter p) ∨ freeHarts s q e l ds c = [] := by
  exact filter_or_nil _ _

theorem mem_placesFor {s : State} {dev : Nat} {q : Queue} {e : QEntry} {l : Launch} {ds : List (List DWord)} (hdev : dev < 8)
    (hr : entryRope l e = 0) (p : Place) : p ∈ placesFor s dev q e l ds ↔
      ∃ c i is, c ∈ (diesOfDev dev).flatMap tilesOfDie ∧ freeHarts s q e l ds c = i :: is ∧ p = ([c], i) := by
  have hat : ∀ c ∈ (diesOfDev dev).flatMap tilesOfDie, placeAt 0 (freeHarts s q e l ds) c
      = (freeHarts s q e l ds c).head?.map (fun i => ([c], i)) := by
    intro c hc
    rcases freeHarts_form s q e l ds c with ⟨f, hf⟩ | hf
    · exact placeAt_alone hdev hc (.inl hf)
    · exact placeAt_alone hdev hc (p := fun _ => false) (.inr hf)
  rw [placesFor, hr, List.mem_filterMap]
  constructor
  · rintro ⟨c, hc, hp⟩
    rw [hat c hc] at hp
    cases hf : freeHarts s q e l ds c with
    | nil => rw [hf] at hp; exact absurd hp (by simp)
    | cons i is =>
      rw [hf] at hp
      exact ⟨c, i, is, hc, hf, (Option.some.inj hp).symm⟩
  · rintro ⟨c, i, is, hc, hf, rfl⟩
    exact ⟨c, hc, by rw [hat c hc, hf]; rfl⟩

/-! ## The best place (R345) -/

section
variable {s : State} {dk : Nat} {e : QEntry} {ds : List (List DWord)}

/-- The order of places: that no place is better than another is transitive, and of two one is no better. -/
theorem not_better_trans {a b c : Place} (h1 : betterPlace s dk e ds a b = false) (h2 : betterPlace s dk e ds b c = false) :
    betterPlace s dk e ds a c = false := by
  simp only [betterPlace] at h1 h2 ⊢
  split_ifs at h1 h2 ⊢ <;> simp only [decide_eq_false_iff_not] at h1 h2 ⊢ <;> omega

theorem not_better_of_better {a b : Place} (h : betterPlace s dk e ds a b = true) : betterPlace s dk e ds b a = false := by
  simp only [betterPlace] at h ⊢
  split_ifs at h ⊢ <;> simp only [decide_eq_true_eq, decide_eq_false_iff_not] at h ⊢ <;> omega

theorem not_better_refl (a : Place) : betterPlace s dk e ds a a = false := by simp [betterPlace]

/-- No place is better than the best (R345). -/
theorem bestPlace_spec : ∀ ps : List Place, ps ≠ [] → ∃ p ∈ ps, bestPlace s dk e ds ps = some p ∧
    ∀ b ∈ ps, betterPlace s dk e ds b p = false
  | [], h => absurd rfl h
  | [p], _ => ⟨p, List.mem_cons_self, rfl, fun b hb => by rw [List.mem_singleton.mp hb]; exact not_better_refl p⟩
  | p :: q :: ps, _ => by
    obtain ⟨b, hb, hbest, hmin⟩ := bestPlace_spec (q :: ps) (by simp)
    rw [bestPlace, hbest]
    simp only
    cases hbt : betterPlace s dk e ds b p with
    | true =>
      refine ⟨b, List.mem_cons_of_mem _ hb, rfl, fun c hc => ?_⟩
      rcases List.mem_cons.mp hc with rfl | hc
      · exact not_better_of_better hbt
      · exact hmin c hc
    | false =>
      refine ⟨p, List.mem_cons_self, rfl, fun c hc => ?_⟩
      rcases List.mem_cons.mp hc with rfl | hc
      · exact not_better_refl _
      · exact not_better_trans (hmin c hc) hbt

/-- Where no input is missing, the better place is that with fewer running harts, and then the nearer one (R345). -/
theorem not_better_alone {c b i j : Nat} (h : betterPlace s dk e [] ([b], i) ([c], j) = false) :
    runningOn s c < runningOn s b ∨ (runningOn s c = runningOn s b ∧
      (coreNum c + 768 - (getDie s dk).corePtr % 768) % 768 ≤ (coreNum b + 768 - (getDie s dk).corePtr % 768) % 768) := by
  simp only [betterPlace, residentBytes, List.filter_nil, List.map_nil, List.sum_nil, List.map_cons, ne_eq, not_true_eq_false, if_false,
    List.sum_cons, Nat.add_zero, List.headD_cons] at h
  split_ifs at h
  · exact .inr ⟨by omega, not_lt.mp (of_decide_eq_false h)⟩
  · have := of_decide_eq_false h
    omega

end

/-! ## The start of a task (R22, R336 to R338, R346) -/

theorem reserveOn_frame (s : State) (ck h ln : Nat) (l : Launch) : reserveOn s ck h ln l = { s with cores := (reserveOn s ck h ln l).cores } := by
  unfold reserveOn
  split <;> rfl

theorem clearMesh_frame (s : State) (hk : Nat) : clearMesh s hk = { s with mem := (clearMesh s hk).mem } := by
  unfold clearMesh
  split <;> rfl

/-- A hart's state with a task newly started on it. -/
theorem startOn_spec (qk : Nat) (e : QEntry) (l : Launch) (ds : List (List DWord)) (p : Place) (s : State) (c : Nat) :
    let w := startOn qk e l ds 0 p s (c, 0)
    (∃ k block ks, getHart w (c * 8 + p.2) = Hart.start k e.ctx e.depth 0 block ks (getHart s (c * 8 + p.2)) ∧ k.words = e.words ∧
      k.launch = e.launch ∧ k.inst = e.inst ∧ k.icount = e.total ∧ k.ginst = e.ginst ∧ k.queue = qk) ∧
    (∀ j, j ≠ c * 8 + p.2 → getHart w j = getHart s j) ∧
    w = { s with harts := w.harts, nextId := w.nextId, cores := w.cores, mem := w.mem } := by
  have hr : ∃ u n, (if e.kind = 1 then fresh s else (e.uid, s)) = (u, { s with nextId := n }) := by
    split
    · exact ⟨_, _, rfl⟩
    · exact ⟨_, _, rfl⟩
  obtain ⟨u, n, hr⟩ := hr
  unfold startOn
  simp only [if_true, hr]
  rw [clearMesh_frame]
  refine ⟨⟨_, _, _, (getHart_modHart_same _ _ _ :), rfl, rfl, rfl, rfl, rfl, rfl⟩, fun j hj => (getHart_modHart_other _ _ _ _ hj.symm :), rfl⟩

end Sys2Proof.Machine
end

section
/-! OBLIGATION O54. The search of a dispatch cycle (R345, R346). -/
namespace Sys2Proof.Machine

open Sys2Proof

/-- What a device is configured as decides what its unlisted harts are. -/
theorem getHart_modDev {f : Device → Device} (hf : ∀ d, (f d).cfg = d.cfg) (s : State) (dev j : Nat) :
    getHart (modDev s dev f) j = getHart s j := by
  have hc : ∀ dk, dieCfg (modDev s dev f) dk = dieCfg s dk := by
    intro dk
    unfold dieCfg
    by_cases h : dev = devOf dk
    · subst h
      have : getDev (modDev s (devOf dk) f) (devOf dk) = f (getDev s (devOf dk)) := SMap.get_put_same _ _ _ _
      rw [this, hf]
    · have : getDev (modDev s dev f) (devOf dk) = getDev s (devOf dk) := SMap.get_put_other _ _ _ _ _ h
      rw [this]
  unfold getHart isFwCore isFwCol
  simp only [hc]
  rfl

theorem countWait_spec (s : State) (dev wait n : Nat) : (∀ j, getHart (countWait s dev wait n) j = getHart s j) ∧
    countWait s dev wait n = { s with devs := (countWait s dev wait n).devs } := by
  unfold countWait
  split
  · exact ⟨fun _ => rfl, rfl⟩
  · refine ⟨getHart_modDev (fun _ => ?_) s dev, rfl⟩
    rfl

/-- The next task of a queue's only entry takes it along, or the next one stays (R336, R346). -/
theorem popEntry_spec {s : State} {qk : Nat} {q : Queue} {e : QEntry} (hq : SMap.find s.queues qk = some q) (he : q.entries = [e]) :
    ∃ r pend, popEntry s qk e 1 = { s with queues := SMap.put s.queues qk r, pending := pend } ∧ r.pops = q.pops + 1 ∧
      r.entries = (if e.icount ≤ e.inst + 1 then [] else [{ e with inst := e.inst + 1, staged := none, tiles := none }]) := by
  unfold popEntry
  simp only [hq]
  refine ⟨_, _, setQueue_spec _ _ _, rfl, ?_⟩
  simp only [recount, he, ge_iff_le]
  split
  · simp
  · simp

/-- A task that runs alone and needs no token starts at a place (R22, R345, R346). -/
theorem startFresh_spec {s : State} {dk qk c i : Nat} {q : Queue} {e : QEntry} {l : Launch} {ds : List (List DWord)}
    (hr : entryRope l e = 0) (hq : SMap.find s.queues qk = some q) (he : q.entries = [e]) (ht : s.tokens = []) :
    let t := startFresh s dk qk e l ds ([c], i)
    (∃ k block ks, getHart t (c * 8 + i) = Hart.start k e.ctx e.depth 0 block ks (getHart s (c * 8 + i)) ∧ k.words = e.words ∧
      k.launch = e.launch ∧ k.inst = e.inst ∧ k.icount = e.total ∧ k.ginst = e.ginst ∧ k.queue = qk) ∧
    (∀ j, j ≠ c * 8 + i → getHart t j = getHart s j) ∧
    (∃ r, SMap.find t.queues qk = some r ∧ r.pops = q.pops + 1 ∧
      r.entries = (if e.icount ≤ e.inst + 1 then [] else [{ e with inst := e.inst + 1, staged := none, tiles := none }])) ∧
    getDie t dk = { getDie s dk with corePtr := (coreNum c + 1) % 768 } := by
  intro t
  have hres := reserveOn_frame s c i e.launch l
  generalize hs0 : reserveOn s c i e.launch l = s0 at hres
  obtain ⟨hk, ho, hf⟩ := startOn_spec qk e l ds ([c], i) s0 c
  generalize hs1 : startOn qk e l ds 0 ([c], i) s0 (c, 0) = s1 at hk ho hf
  have hq1 : SMap.find s1.queues qk = some q := by rw [hf, hres]; exact hq
  obtain ⟨r, pend, hpop, hpops, hents⟩ := popEntry_spec hq1 he
  generalize hs3 : popEntry s1 qk e 1 = s3 at hpop
  obtain ⟨hcw, hcf⟩ := countWait_spec s3 (qk / 4096) ((getDie s0 dk).tb.toNat - e.arrived) 1
  generalize hs4 : countWait s3 (qk / 4096) ((getDie s0 dk).tb.toNat - e.arrived) 1 = s4 at hcw hcf
  have htok : s4.tokens = [] := by rw [hcf, hpop, hf, hres]; exact ht
  have hmeet : meetsToken s4 (dieOf c) qk e.tile e.ctx e.ginst = false := by
    unfold meetsToken
    split
    · rfl
    · rw [htok]; rfl
  have hteq : t = modDie s4 dk (fun d => { d with corePtr := (coreNum c + 1) % 768 }) := by
    simp only [t, startFresh, startEntry, List.foldl_cons, List.foldl_nil, hs0, hr, if_true, List.zipIdx_cons, List.zipIdx_nil,
      hs1, List.length_cons, List.length_nil, Nat.zero_add, hs3, hs4, hmeet, Bool.false_eq_true, if_false, List.getLastD_cons,
      List.getLastD_nil]
  have hh : ∀ j, getHart t j = getHart s1 j := fun j => by
    rw [hteq]
    exact (hcw j).trans (by rw [hpop]; rfl)
  have h0 : ∀ j, getHart s0 j = getHart s j := fun j => by rw [hres]; rfl
  refine ⟨?_, fun j hj => ?_, ⟨r, ?_, hpops, hents⟩, ?_⟩
  · obtain ⟨k, block, ks, hk, hrest⟩ := hk
    exact ⟨k, block, ks, by rw [hh, hk, h0], hrest⟩
  · rw [hh, ho j hj, h0]
  · rw [hteq]
    change SMap.find s4.queues qk = some r
    rw [hcf, hpop]
    exact SMap.find_put_same _ _ _
  · have hd : getDie s4 dk = getDie s dk := by
      rw [hcf, hpop, hf, hres]
      rfl
    rw [hteq, ← hd]
    exact SMap.get_put_same _ _ _ _

/-! ## One queue's turn (R345, R346) -/

/-- A queue whose head's time has not come is passed over (R345). -/
theorem tryPosition_early {s : State} {dk j : Nat} {r : Queue} {e : QEntry} {es : List QEntry} (hr : SMap.find s.queues j = some r)
    (hk : r.kind = 0) (hw : waitingEntries r none = e :: es) (hs : e.staged = none)
    (hb : beforeLead r e (getDie s dk).tb.toNat = true) : tryPosition s dk j = (s, false) := by
  have hlook : lookAt s dk j r e true = (s, false) := by simp only [lookAt, hb, if_true]
  have hahead : lookAhead s dk j none = s := by simp only [lookAhead, hr, hw, hs, Option.isNone_none, if_true]
  simp only [tryPosition, hr, hk, Nat.zero_ne_one, if_false, tryQueue, hw, hlook, Bool.false_eq_true, hahead]

/-- What an entry that is considered comes to, its tiles not yet declared (R341, R345). -/
theorem lookAt_considered {s : State} {dk qk : Nat} {q : Queue} {e : QEntry} {l : Launch} {ds : List (List DWord)}
    (hb : beforeLead q e (getDie s dk).tb.toNat = false) (hl : SMap.find s.launches e.launch = some l) (hst : e.staged = none)
    (ht : e.tiles = none) (hc : consider s qk e l = .ok ds) : ∃ v, SameLinesApart s v ∧ lookAt s dk qk q e true =
      (let hosts := placesFor v (qk / 4096) q e l ds
       let full := hosts.filter (allResident v e ds)
       match bestPlace v dk e ds (if full.isEmpty then hosts else full) with
       | none => (modEntry v qk e.seq (fun x => { x with tiles := some ds }), false)
       | some p =>
         if !isEarly e (getDie s dk).tb.toNat && !full.isEmpty then (startFresh v dk qk e l ds p, true)
         else (stageEntry v qk e l ds p, false)) := by
  refine ⟨touchRead s (qk / 4096) e.ctx (recW e.words 14).toNat (32 * recNin e.words), ?_, ?_⟩
  · unfold touchRead
    split
    · exact SameLinesApart.foldl _ (fun t q => touchSector_frame t _ _ _) _ _
    · exact SameLinesApart.rfl s
  · unfold lookAt
    simp only [hb, Bool.false_eq_true, if_false, hl, hst, hc, ht, Option.isNone_none, if_true, Bool.true_and] <;> rfl

/-- States that differ in the lines that slices hold have the same places (R339). -/
theorem SameLinesApart.places {s v : State} (h : SameLinesApart s v) (dev : Nat) (q : Queue) (e : QEntry) (l : Launch)
    (ds : List (List DWord)) : placesFor v dev q e l ds = placesFor s dev q e l ds := by
  rw [h]
  rfl

/-- The same inputs are resident. -/
theorem SameLinesApart.resident {s v : State} (h : SameLinesApart s v) (e : QEntry) (ds : List (List DWord)) (p : Place) :
    allResident v e ds p = allResident s e ds p := by
  rw [h]
  rfl

/-- The same place is the better one. -/
theorem SameLinesApart.better {s v : State} (h : SameLinesApart s v) (dk : Nat) (e : QEntry) (ds : List (List DWord)) (a b : Place) :
    betterPlace v dk e ds a b = betterPlace s dk e ds a b := by
  rw [h]
  rfl

/-- A queue whose only entry may start does so at the best of its places (R345). -/
theorem tryPosition_starts {s : State} {dk qk : Nat} {q : Queue} {e : QEntry} {l : Launch} (hdev : qk / 4096 < 8)
    (hq : SMap.find s.queues qk = some q) (hk : q.kind = 0) (hw : waitingEntries q none = [e])
    (hb : beforeLead q e (getDie s dk).tb.toNat = false) (hl : SMap.find s.launches e.launch = some l) (hst : e.staged = none)
    (ht : e.tiles = none) (hc : consider s qk e l = .ok []) (hr : entryRope l e = 0)
    (hearly : isEarly e (getDie s dk).tb.toNat = false)
    (hhost : ∃ c, c ∈ (diesOfDev (qk / 4096)).flatMap tilesOfDie ∧ freeHarts s q e l [] c ≠ []) :
    ∃ v c i is, SameLinesApart s v ∧ tryPosition s dk qk = (startFresh v dk qk e l [] ([c], i), true) ∧
      c ∈ (diesOfDev (qk / 4096)).flatMap tilesOfDie ∧ freeHarts s q e l [] c = i :: is ∧
      ∀ b, b ∈ (diesOfDev (qk / 4096)).flatMap tilesOfDie → freeHarts s q e l [] b ≠ [] →
        runningOn s c < runningOn s b ∨ (runningOn s c = runningOn s b ∧
          (coreNum c + 768 - (getDie s dk).corePtr % 768) % 768 ≤ (coreNum b + 768 - (getDie s dk).corePtr % 768) % 768) := by
  obtain ⟨v, hv, hlook⟩ := lookAt_considered hb hl hst ht hc
  have hmem := fun p => mem_placesFor (s := s) (q := q) (e := e) (l := l) (ds := []) hdev hr p
  have hfull : (placesFor s (qk / 4096) q e l []).filter (allResident v e []) = placesFor s (qk / 4096) q e l [] :=
    List.filter_eq_self.mpr (fun p _ => by simp [allResident])
  have hne : placesFor s (qk / 4096) q e l [] ≠ [] := by
    obtain ⟨c, hc, hf⟩ := hhost
    obtain ⟨i, is, hi⟩ := List.exists_cons_of_ne_nil hf
    exact List.ne_nil_of_mem ((hmem ([c], i)).mpr ⟨c, i, is, hc, hi, rfl⟩)
  obtain ⟨p, hp, hbest, hmin⟩ := bestPlace_spec (s := v) (dk := dk) (e := e) (ds := []) _ hne
  obtain ⟨c, i, is, hcm, hfree, rfl⟩ := (hmem p).mp hp
  refine ⟨v, c, i, is, hv, ?_, hcm, hfree, fun b hbm hbf => ?_⟩
  · have hemp : (placesFor s (qk / 4096) q e l []).isEmpty = false := by simpa using hne
    have : lookAt s dk qk q e true = (startFresh v dk qk e l [] ([c], i), true) := by
      rw [hlook]
      simp only [hv.places, hfull, hemp, Bool.false_eq_true, if_false, hbest, hearly, Bool.not_false, Bool.and_self, if_true]
    simp only [tryPosition, hq, hk, Nat.zero_ne_one, if_false, tryQueue, hw, this, if_true]
  · obtain ⟨j, js, hj⟩ := List.exists_cons_of_ne_nil hbf
    have h := hmin ([b], j) ((hmem ([b], j)).mpr ⟨b, j, js, hbm, hj, rfl⟩)
    rw [hv.better] at h
    exact not_better_alone h

theorem modEntry_only {s : State} {qk : Nat} {q : Queue} {e : QEntry} (f : QEntry → QEntry) (hq : SMap.find s.queues qk = some q)
    (he : q.entries = [e]) : modEntry s qk e.seq f = { s with queues := SMap.put s.queues qk { q with entries := [f e] } } := by
  simp only [modEntry, hq, he, List.map_cons, List.map_nil, if_true]

/-- The permits of a staged entry change cores and make steps due (R341). -/
theorem foldl_permit_frame (e : QEntry) (c : Nat) (ds : List (List DWord)) (s : State) :
    ds.foldl (permit e c) s = { s with
      cores := (ds.foldl (permit e c) s).cores, pending := (ds.foldl (permit e c) s).pending, nextId := (ds.foldl (permit e c) s).nextId } := by
  induction ds generalizing s with
  | nil => rfl
  | cons d ds ih =>
    have h : permit e c s d = { s with
        cores := (permit e c s d).cores, pending := (permit e c s d).pending, nextId := (permit e c s d).nextId } := by
      unfold permit
      split <;> rfl
    rw [List.foldl_cons, ih, h]

/-- The only entry of a queue is staged at a place (R345). -/
theorem stageEntry_spec {s : State} {qk c i : Nat} {q : Queue} {e : QEntry} {l : Launch} {ds : List (List DWord)}
    (hq : SMap.find s.queues qk = some q) (he : q.entries = [e]) (ho : q.ordd = false) (hk : q.kind = 0) :
    (stageEntry s qk e l ds ([c], i)).harts = s.harts ∧ SMap.find (stageEntry s qk e l ds ([c], i)).queues qk
      = some { q with entries := [{ e with staged := some ([c], i), tiles := some ds }] } := by
  have hres := reserveOn_frame s c i e.launch l
  have hre : reorderStaged (reserveOn s c i e.launch l) qk e.seq = reserveOn s c i e.launch l := by
    rw [hres]
    simp [reorderStaged, hq, he, ho, hk]
  have hm := modEntry_only (s := reserveOn s c i e.launch l) (fun x => { x with staged := some ([c], i), tiles := some ds })
    (by rw [hres]; exact hq) he
  simp only [stageEntry, List.foldl_cons, List.foldl_nil, hre]
  rw [hm, foldl_permit_frame, hres]
  exact ⟨rfl, SMap.find_put_same _ _ _⟩

end Sys2Proof.Machine
end

section
/-! OBLIGATION O54. A dispatch cycle (R345, R397). -/
namespace Sys2Proof.Machine

open Sys2Proof

/-! ## The order of the search (R345) -/

/-- The places of queues in the order from one after a number on, wrapping. -/
def turnRank (r qk : Nat) : Nat := (qk % 4096 + 4095 - r) % 4096

theorem mem_queuesAt {u : State} {dk p j : Nat} : j ∈ queuesAt u dk p ↔
    j ∈ servedQueues u dk ∧ ∃ r, SMap.find u.queues j = some r ∧ r.prio = p ∧ r.fenced = false ∧ r.entries ≠ [] := by
  have hf : ∀ (r : Queue), (r.prio == p && !r.fenced && !r.entries.isEmpty) = true ↔ r.prio = p ∧ r.fenced = false ∧ r.entries ≠ [] :=
    fun r => by simp [and_assoc]
  have hs : ∀ b : Nat, (b % 4096 > SMap.get 0 (getDie u dk).rr p) ∨ (b % 4096 ≤ SMap.get 0 (getDie u dk).rr p) := fun b => by omega
  simp only [queuesAt, List.mem_append, List.mem_filter, decide_eq_true_eq, ← and_or_left, hs, and_true]
  refine and_congr_right fun _ => ?_
  cases SMap.find u.queues j with
  | none => simp
  | some r => simp only [hf, Option.some.injEq, exists_eq_left']

/-- The queues of one priority are looked at in order (R345). -/
theorem queuesAt_order {u : State} {dk p : Nat} (hs : (servedQueues u dk).Pairwise (fun i j => i % 4096 < j % 4096)) :
    (queuesAt u dk p).Pairwise (fun i j => turnRank (SMap.get 0 (getDie u dk).rr p) i ≤ turnRank (SMap.get 0 (getDie u dk).rr p) j) := by
  simp only [queuesAt]
  have hq := hs.filter (fun qk => match SMap.find u.queues qk with
    | some q => q.prio == p && !q.fenced && !q.entries.isEmpty
    | none => false)
  generalize (servedQueues u dk).filter _ = qs at hq ⊢
  generalize SMap.get 0 (getDie u dk).rr p = r
  rw [List.pairwise_append]
  refine ⟨?_, ?_, fun i hi j hj => ?_⟩
  · refine (List.Pairwise.filter _ hq).imp_of_mem (fun {i j} hi hj h => ?_)
    have := of_decide_eq_true (List.mem_filter.mp hi).2
    unfold turnRank
    omega
  · refine (List.Pairwise.filter _ hq).imp_of_mem (fun {i j} hi hj h => ?_)
    have := of_decide_eq_true (List.mem_filter.mp hj).2
    unfold turnRank
    omega
  · have := of_decide_eq_true (List.mem_filter.mp hi).2
    have := of_decide_eq_true (List.mem_filter.mp hj).2
    unfold turnRank
    omega

theorem tryList_skip {u : State} {dk p : Nat} {js : List Nat} (rest : List Nat) (h : ∀ j ∈ js, tryPosition u dk j = (u, false)) :
    tryList dk p (js ++ rest) u = tryList dk p rest u := by
  induction js with
  | nil => rfl
  | cons j js ih =>
    rw [List.cons_append, tryList, h j List.mem_cons_self]
    exact ih (fun k hk => h k (List.mem_cons_of_mem _ hk))

theorem search_skip {u : State} {dk : Nat} {ps : List Nat} (rest : List Nat)
    (h : ∀ p ∈ ps, ∀ j ∈ queuesAt u dk p, tryPosition u dk j = (u, false)) : search dk (ps ++ rest) u = search dk rest u := by
  induction ps with
  | nil => rfl
  | cons p ps ih =>
    have hp : tryList dk p (queuesAt u dk p) u = (u, false) := by
      have := tryList_skip (p := p) [] (h p List.mem_cons_self)
      rwa [List.append_nil] at this
    rw [List.cons_append, search, hp]
    exact ih (fun k hk => h k (List.mem_cons_of_mem _ hk))

theorem mem_priorities {u : State} {dk p : Nat} : p ∈ priorities u dk ↔ ∃ j ∈ servedQueues u dk, ∃ r, SMap.find u.queues j = some r ∧ r.prio = p := by
  simp only [priorities, List.mem_mergeSort, List.mem_eraseDups, List.mem_filterMap, Option.map_eq_some_iff]

theorem priorities_order (u : State) (dk : Nat) : (priorities u dk).Pairwise (fun a b => a ≥ b) := by
  refine (List.pairwise_mergeSort (le := fun a b => decide (a ≥ b)) ?_ ?_ _).imp (fun h => of_decide_eq_true h)
  · intro a b c h1 h2
    simp only [decide_eq_true_eq] at *
    omega
  · intro a b
    simp only [Bool.or_eq_true, decide_eq_true_eq]
    omega

/-- The first queue of the order that can start does (R345). -/
theorem search_starts {u w : State} {dk qk : Nat} {q : Queue} (hm : qk ∈ servedQueues u dk) (hq : SMap.find u.queues qk = some q)
    (hf : q.fenced = false) (he : q.entries ≠ []) (hs : (servedQueues u dk).Pairwise (fun i j => i % 4096 < j % 4096))
    (hskip : ∀ j r, j ∈ servedQueues u dk → j ≠ qk → SMap.find u.queues j = some r → r.entries ≠ [] → r.fenced = false →
      q.prio ≤ r.prio → (r.prio = q.prio → turnRank (SMap.get 0 (getDie u dk).rr q.prio) j ≤ turnRank (SMap.get 0 (getDie u dk).rr q.prio) qk) →
      tryPosition u dk j = (u, false))
    (hstart : tryPosition u dk qk = (w, true)) :
    search dk (priorities u dk) u = modDie w dk (fun d => { d with rr := SMap.put d.rr q.prio (qk % 4096) }) := by
  obtain ⟨ps, ps', hps, hnot⟩ := List.eq_append_cons_of_mem (mem_priorities.mpr ⟨qk, hm, q, hq, rfl⟩)
  have hord := priorities_order u dk
  rw [hps] at hord ⊢
  rw [search_skip]
  · obtain ⟨js, js', hjs, hnj⟩ := List.eq_append_cons_of_mem (mem_queuesAt.mpr ⟨hm, q, hq, rfl, hf, he⟩)
    have hqord := queuesAt_order (p := q.prio) hs
    rw [hjs] at hqord
    have hlist : tryList dk q.prio (queuesAt u dk q.prio) u
        = (modDie w dk (fun d => { d with rr := SMap.put d.rr q.prio (qk % 4096) }), true) := by
      rw [hjs, tryList_skip]
      · rw [tryList, hstart]
        rfl
      · intro j hj
        have hjm : j ∈ queuesAt u dk q.prio := by rw [hjs]; exact List.mem_append_left _ hj
        obtain ⟨hjs, r, hr, hp, hrf, hre⟩ := mem_queuesAt.mp hjm
        refine hskip j r hjs (fun h => hnj (h ▸ hj)) hr hre hrf hp.ge (fun _ => ?_)
        exact (List.pairwise_append.mp hqord).2.2 j hj qk List.mem_cons_self
    rw [search, hlist]
    rfl
  · intro p hp j hj
    have hge : q.prio ≤ p := (List.pairwise_append.mp hord).2.2 p hp q.prio List.mem_cons_self
    obtain ⟨hjs, r, hr, rfl, hrf, hre⟩ := mem_queuesAt.mp hj
    refine hskip j r hjs (fun h => ?_) hr hre hrf hge (fun h => absurd (h ▸ hp) hnot)
    subst h
    rw [hq] at hr
    exact hnot (Option.some.inj hr ▸ hp)

/-- A die that serves one queue gives it its turn alone. -/
theorem search_only {u w : State} {dk qk : Nat} {q : Queue} (hone : servedQueues u dk = [qk]) (hq : SMap.find u.queues qk = some q)
    (hf : q.fenced = false) (he : q.entries ≠ []) (hw : tryPosition u dk qk = (w, false)) : search dk (priorities u dk) u = w := by
  have hp : priorities u dk = [q.prio] := by
    simp [priorities, hone, hq, List.eraseDups_cons]
  have hqs : queuesAt u dk q.prio = [qk] := by
    have he' : q.entries.isEmpty = false := by simpa using he
    simp only [queuesAt, hone, List.filter_cons, List.filter_nil, hq, hf, he', beq_self_eq_true, Bool.not_false, Bool.and_self, if_true,
      decide_eq_true_eq]
    split
    · rw [if_neg (by omega)]
      rfl
    · rw [if_pos (by omega)]
      rfl
  rw [hp, search, hqs, tryList, hw]
  rfl

end Sys2Proof.Machine
end

section
/-! OBLIGATION O54. What a dispatch cycle does, and the obligation (R22, R345, R397). -/
namespace Sys2Proof.Machine

open Sys2Proof

/-! ## A cycle passes (R397) -/

/-- Two states agree but for harts, cores, steps due, contexts' records and memory. -/
def Ticked (s t : State) : Prop :=
  t = { s with harts := t.harts, cores := t.cores, pending := t.pending, ctxs := t.ctxs, mem := t.mem }

theorem Ticked.rfl (s : State) : Ticked s s := by unfold Ticked; cases s; simp

theorem Ticked.trans {s t u : State} (h : Ticked s t) (k : Ticked t u) : Ticked s u := by
  unfold Ticked at *
  rw [k, h]

theorem Ticked.foldl {α : Type} {f : State → α → State} (hf : ∀ t a, Ticked t (f t a)) (l : List α) (s : State) :
    Ticked s (l.foldl f s) := by
  induction l generalizing s with
  | nil => exact Ticked.rfl s
  | cons a l ih => exact (hf s a).trans (ih _)

theorem postOnce_ticked (s : State) (i : Instr) : Ticked s (postOnce s i) := by
  unfold Ticked
  rw [(postOnce_spec s i).2]

theorem ite_ticked {p : Prop} [Decidable p] {s t u : State} (ht : Ticked s t) (hu : Ticked s u) : Ticked s (if p then t else u) := by
  split
  · exact ht
  · exact hu

theorem tickHart_ticked (tb : Nat) (s : State) (hk : Nat) : Ticked s (tickHart tb s hk) := by
  have hpost : ∀ (p : Prop) [Decidable p] (t : State) (i : Instr), Ticked s t → Ticked s (if p then postOnce t i else t) :=
    fun p _ t i h => ite_ticked (h.trans (postOnce_ticked t i)) h
  have h2 := hpost ((getHart s hk).stall = 1) (setHart s hk { getHart s hk with
    secCount := if sectionRuns (getHart s hk) then (getHart s hk).secCount + 1 else (getHart s hk).secCount,
    stall := if (getHart s hk).stall ≤ 1 then (getHart s hk).stall else (getHart s hk).stall - 1 }) (.hintStallExpiry hk) (by unfold Ticked; rfl)
  unfold tickHart
  simp only
  split
  · exact hpost _ _ _ (hpost _ _ _ h2)
  · exact hpost _ _ _ h2

theorem tickCore_ticked (tb : Nat) (s : State) (ck : Nat) : Ticked s (tickCore tb s ck) := by
  have hset : ∀ c, Ticked s (setCore s ck c) := fun c => by unfold Ticked; rfl
  have h1 : Ticked s (match (getCore s ck).mstSlot with
      | some (i, len, n) =>
        if n + 1 ≥ len then postOnce (setCore s ck { getCore s ck with mstSlot := some (i, len, n + 1) }) (.mstSlotBoundary ck)
        else setCore s ck { getCore s ck with mstSlot := some (i, len, n + 1) }
      | none => s) := by
    split
    · exact ite_ticked ((hset _).trans (postOnce_ticked _ _)) (hset _)
    · exact Ticked.rfl s
  unfold tickCore
  simp only
  split
  · exact ite_ticked (h1.trans (postOnce_ticked _ _)) h1
  · exact h1

theorem writeN_ticked (n : Nat) (s : State) (a v : Nat) : Ticked s (writeN s a n v) := by
  induction n generalizing s a v with
  | zero => exact Ticked.rfl s
  | succ n ih =>
    refine Ticked.trans ?_ (ih (writeByte s a (BitVec.ofNat 8 v)) (a + 1) (v / 256))
    unfold Ticked
    rw [writeByte_frame]

theorem syncSpill_ticked (s : State) (key : Nat) : Ticked s (syncSpill s key) := by
  unfold syncSpill
  split
  · exact Ticked.rfl s
  · simp only
    refine ite_ticked (Ticked.rfl s) ?_
    refine Ticked.trans ?_ (writeN_ticked _ _ _ _)
    refine Ticked.trans ?_ (writeN_ticked _ _ _ _)
    refine Ticked.trans ?_ (writeN_ticked _ _ _ _)
    refine Ticked.trans ?_ (writeN_ticked _ _ _ _)
    unfold Ticked
    rfl

theorem writeRecordWords_ticked (s : State) (a : Nat) (ws : List Nat) : Ticked s (writeRecordWords s a ws) :=
  Ticked.foldl (fun _ _ => writeN_ticked _ _ _ _) _ s

theorem tickRecord_ticked (s : State) (dk old new : Nat) : Ticked s (tickRecord s dk old new) := by
  unfold tickRecord
  refine ite_ticked (Ticked.rfl s) ?_
  have h1 : Ticked s (if old / 10 ^ 9 < new / 10 ^ 9 then postOnce s (.lifetimeRecordRefresh (devOf dk)) else s) :=
    ite_ticked (postOnce_ticked _ _) (Ticked.rfl s)
  exact ite_ticked (h1.trans (postOnce_ticked _ _)) h1

/-- A cycle changes of a die its time alone (R397). -/
theorem tickDie_ticked (s : State) (dk : Nat) : Ticked (modDie s dk (tickTime (masterTb s dk))) (tickDie s dk) := by
  unfold tickDie
  simp only
  refine Ticked.trans ?_ (Ticked.foldl (fun t p => writeRecordWords_ticked _ _ _) _ _)
  refine Ticked.trans ?_ (Ticked.foldl (fun t p => syncSpill_ticked _ _) _ _)
  have h3 : ∀ (s1 : State) (tb : Nat) (hks cks : List Nat), Ticked s1 (cks.foldl (tickCore tb) (hks.foldl (tickHart tb) s1)) :=
    fun s1 tb hks cks => (Ticked.foldl (fun t p => tickHart_ticked _ _ _) _ _).trans (Ticked.foldl (fun t p => tickCore_ticked _ _ _) _ _)
  have h1 := tickRecord_ticked (modDie s dk (tickTime (masterTb s dk))) dk (getDie s dk).tb.toNat
    (getDie (modDie s dk (tickTime (masterTb s dk))) dk).tb.toNat
  generalize tickRecord _ _ _ _ = s1 at h1 ⊢
  generalize hs : List.foldl (tickCore (getDie s1 dk).tb.toNat) _ _ = s3
  refine h1.trans (Ticked.trans (t := s3) (hs ▸ h3 _ _ _ _) ?_)
  have hpost : ∀ (s : State) (p : Prop) [Decidable p] (i : Instr), Ticked s (if p then postOnce s i else s) :=
    fun s p _ i => ite_ticked (postOnce_ticked s i) (Ticked.rfl s)
  have h4 : ∀ s4, Ticked s3 s4 → Ticked s3 (match s4.tbStep with
      | some (t, _) => if (getDie s1 dk).tb.toNat ≥ t then postOnce s4 .tbStep else s4
      | none => s4) := by
    intro s4 h
    split
    · exact h.trans (hpost _ _ _)
    · exact h
  refine h4 _ ?_
  split
  · exact hpost _ _ _
  · exact Ticked.rfl s3

/-- A die that serves no queue holds its tokens still to be settled; its time stands. -/
theorem settleTokens_die (s : State) (dk : Nat) : ∃ k, getDie (settleTokens s dk) dk = { getDie s dk with tokens := k } ∧
    (settleTokens s dk).queues = s.queues := by
  unfold settleTokens
  simp only
  rw [foldl_pending (fun t p => (postOnce_spec t _).2)]
  exact ⟨_, SMap.get_put_same _ _ _ _, rfl⟩

/-- On a node without queues a dispatch cycle counts the time alone (R397). -/
theorem dispatch_time {s : State} {dk : Nat} (hdk : dk < 64) (hoff : (getDev s (devOf dk)).off = false) (hq : s.queues = []) :
    ∃ k, getDie (dispatch s dk) dk = { tickTime (masterTb s dk) (getDie s dk) with tokens := k } := by
  have ht := tickDie_ticked s dk
  have hqs : (tickDie s dk).queues = [] := by rw [ht]; exact hq
  have hd : getDie (tickDie s dk) dk = tickTime (masterTb s dk) (getDie s dk) := by
    rw [ht]
    exact SMap.get_put_same _ _ _ _
  have hserved : ∀ u : State, u.queues = [] → servedQueues u dk = [] := fun u hu => by simp [servedQueues, hu]
  have hdrop : dropAll (tickDie s dk) dk = settleTokens (tickDie s dk) dk := by
    simp only [dropAll, hserved _ hqs, List.foldl_nil]
  obtain ⟨k, hk, hkq⟩ := settleTokens_die (tickDie s dk) dk
  have hprio : priorities (settleTokens (tickDie s dk) dk) dk = [] := by
    simp [priorities, hserved _ (hkq.trans hqs)]
  refine ⟨k, ?_⟩
  rw [dispatch, if_neg (by simp [hoff]; omega)]
  simp only [hdrop, hprio, search]
  rw [hk, hd]

/-- The time of a die in a cycle (R397). -/
theorem tickTime_spec (s : State) (dk : Nat) (tk : List (Nat × Nat × Nat)) :
    let d := getDie s dk
    let n := (d.phase + 1000) / max 1 d.clk
    let e := { tickTime (masterTb s dk) d with tokens := tk }
    e.phase = (d.phase + 1000) % max 1 d.clk ∧ ∃ k, e.tb = d.tb + BitVec.ofNat 64 k ∧
      (dk = 0 ∨ routed s (devOf dk) 0 = false ∨ d.slew + n < 10000 → k = n) ∧
      (k = n ∨ (k = n + 1 ∧ d.tb.toNat + n < (getDie s 0).tb.toNat) ∨
        (k = n - 1 ∧ (getDie s 0).tb.toNat < d.tb.toNat + n)) := by
  intro d n e
  refine ⟨rfl, disciplined (masterTb s dk) d n, rfl, ?_, ?_⟩
  · intro h
    unfold masterTb
    split
    · rfl
    · next hm =>
      rw [not_or] at hm
      rw [disciplined, if_pos ((h.resolve_left hm.1).resolve_left hm.2)]
  · unfold masterTb
    split
    · exact .inl rfl
    · simp only [disciplined]
      split_ifs with h1 h2 h3
      · exact .inl rfl
      · exact .inr (.inl ⟨rfl, h2⟩)
      · exact .inr (.inr ⟨rfl, h3⟩)
      · exact .inl rfl

/-! ## The search (R345) -/

theorem served_dev {u : State} {dk qk : Nat} (h : qk ∈ servedQueues u dk) : qk / 4096 = devOf dk := by
  obtain ⟨p, hp, rfl⟩ := List.mem_map.mp h
  have := (List.mem_filter.mp hp).2
  simp only [Bool.and_eq_true, beq_iff_eq] at this
  exact this.1.1

theorem waiting_only {q : Queue} {e : QEntry} (he : q.entries = [e]) (ha : e.aside = none) : waitingEntries q none = [e] := by
  simp [waitingEntries, he, ha]

/-- A queue where nothing waits is passed over. -/
theorem tryPosition_idle {s : State} {dk j : Nat} {r : Queue} (hr : SMap.find s.queues j = some r)
    (hk : r.kind = 0) (hw : waitingEntries r none = []) : tryPosition s dk j = (s, false) := by
  simp only [tryPosition, hr, hk, Nat.zero_ne_one, if_false, tryQueue, hw]

/-- A queue whose head is to start no earlier than later is passed over (R345). -/
theorem tryPosition_passed {s : State} {dk j : Nat} {r : Queue} (hr : SMap.find s.queues j = some r) (hk : r.kind = 0)
    (h : ∀ e es, waitingEntries r none = e :: es → e.staged = none ∧ beforeLead r e (getDie s dk).tb.toNat = true) :
    tryPosition s dk j = (s, false) := by
  cases hw : waitingEntries r none with
  | nil => exact tryPosition_idle hr hk hw
  | cons e es =>
    obtain ⟨hst, hb⟩ := h e es hw
    exact tryPosition_early hr hk hw hst hb

/-- A task that runs alone starts where it may, on the core of the fewest running harts and the nearest of these (R345). -/
theorem search_due {u : State} {dk qk : Nat} {q : Queue} {e : QEntry} {l : Launch} (hdk : dk < 64) (hm : qk ∈ servedQueues u dk)
    (hq : SMap.find u.queues qk = some q) (hk : q.kind = 0) (hf : q.fenced = false) (he : q.entries = [e]) (ha : e.aside = none)
    (hst : e.staged = none) (ht : e.tiles = none) (hb : beforeLead q e (getDie u dk).tb.toNat = false)
    (hl : SMap.find u.launches e.launch = some l) (hr : entryRope l e = 0) (hc : consider u qk e l = .ok [])
    (hs : (servedQueues u dk).Pairwise (fun i j => i % 4096 < j % 4096))
    (hskip : ∀ j r, j ∈ servedQueues u dk → j ≠ qk → SMap.find u.queues j = some r → r.entries ≠ [] → r.fenced = false →
      q.prio ≤ r.prio → (r.prio = q.prio → turnRank (SMap.get 0 (getDie u dk).rr q.prio) j ≤ turnRank (SMap.get 0 (getDie u dk).rr q.prio) qk) →
      tryPosition u dk j = (u, false))
    (hearly : isEarly e (getDie u dk).tb.toNat = false) (htok : u.tokens = [])
    (hhost : ∃ c, c ∈ (diesOfDev (qk / 4096)).flatMap tilesOfDie ∧ freeHarts u q e l [] c ≠ []) :
    ∃ c i is k r, (c ∈ (diesOfDev (qk / 4096)).flatMap tilesOfDie ∧ freeHarts u q e l [] c ≠ []) ∧ freeHarts u q e l [] c = i :: is ∧
      (∀ b, b ∈ (diesOfDev (qk / 4096)).flatMap tilesOfDie ∧ freeHarts u q e l [] b ≠ [] →
        runningOn u c < runningOn u b ∨ (runningOn u c = runningOn u b ∧
          (coreNum c + 768 - (getDie u dk).corePtr % 768) % 768 ≤ (coreNum b + 768 - (getDie u dk).corePtr % 768) % 768)) ∧
      let t := search dk (priorities u dk) u
      (getHart t (c * 8 + i)).task = some k ∧ k.words = e.words ∧ k.launch = e.launch ∧ k.inst = e.inst ∧
      k.icount = e.total ∧ k.ginst = e.ginst ∧ k.queue = qk ∧ (getHart t (c * 8 + i)).st = .running ∧
      (getHart t (c * 8 + i)).pc = e.words.getD 0 0 ∧ (∀ j, j ≠ c * 8 + i → getHart t j = getHart u j) ∧
      SMap.find t.queues qk = some r ∧ r.pops = q.pops + 1 ∧
      r.entries = (if e.icount ≤ e.inst + 1 then [] else [{ e with inst := e.inst + 1, staged := none, tiles := none }]) ∧
      SMap.get 0 (getDie t dk).rr q.prio = qk % 4096 ∧ (getDie t dk).corePtr = (coreNum c + 1) % 768 := by
  have hdev : qk / 4096 < 8 := by rw [served_dev hm]; unfold devOf; omega
  obtain ⟨v, c, i, is, hv, htry, hcm, hfree, hmin⟩ :=
    tryPosition_starts hdev hq hk (waiting_only he ha) hb hl hst ht hc hr hearly hhost
  have hsearch := search_starts hm hq hf (by simp [he]) hs hskip htry
  have hvq : SMap.find v.queues qk = some q := by rw [hv]; exact hq
  have hvt : v.tokens = [] := by rw [hv]; exact htok
  have hvh : ∀ j, getHart v j = getHart u j := fun j => by rw [hv]; rfl
  obtain ⟨⟨k, block, ks, hk, hw, hla, hin, hic, hgi, hqu⟩, ho, ⟨r, hfr, hpops, hents⟩, hdie⟩ :=
    startFresh_spec (dk := dk) (c := c) (i := i) (ds := []) hr hvq he hvt
  refine ⟨c, i, is, k, r, ⟨hcm, by simp [hfree]⟩, hfree, fun b hb => hmin b hb.1 hb.2, ?_⟩
  rw [hsearch]
  have hgd : ∀ f, getDie (modDie (startFresh v dk qk e l [] ([c], i)) dk f) dk = f (getDie (startFresh v dk qk e l [] ([c], i)) dk) :=
    fun f => SMap.get_put_same _ _ _ _
  simp only [hgd, hdie]
  have hh : getHart (modDie (startFresh v dk qk e l [] ([c], i)) dk (fun d => { d with rr := SMap.put d.rr q.prio (qk % 4096) }))
      (c * 8 + i) = _ := hk
  obtain ⟨hpc, -, -, -, -, -, -, -, -, -, -, -, -, -, -, -, -, htask, -⟩ :=
    start_spec k e.ctx e.depth 0 block ks (getHart v (c * 8 + i))
  refine ⟨?_, hw, hla, hin, hic, hgi, hqu, ?_, ?_, fun j hj => ?_, hfr, hpops, hents, SMap.get_put_same _ _ _ _, trivial⟩
  · rw [hh]; exact htask
  · rw [hh]; rfl
  · rw [hh, hpc, hw]
  · exact (ho j hj).trans (hvh j)

/-- A task that no place can host, or whose inputs are nowhere resident, starts nowhere (R345). -/
theorem search_stages {u : State} {dk qk : Nat} {q : Queue} {e : QEntry} {l : Launch} {ds : List (List DWord)} (hdk : dk < 64)
    (hm : qk ∈ servedQueues u dk)
    (hq : SMap.find u.queues qk = some q) (hk : q.kind = 0) (hord : q.ordd = false) (hf : q.fenced = false) (he : q.entries = [e])
    (ha : e.aside = none)
    (hst : e.staged = none) (ht : e.tiles = none) (hb : beforeLead q e (getDie u dk).tb.toNat = false)
    (hl : SMap.find u.launches e.launch = some l) (hr : entryRope l e = 0) (hc : consider u qk e l = .ok ds)
    (hone : servedQueues u dk = [qk]) :
    let t := search dk (priorities u dk) u
    let hosts (c : Nat) : Prop := c ∈ (diesOfDev (qk / 4096)).flatMap tilesOfDie ∧ freeHarts u q e l ds c ≠ []
    ((∀ c, ¬ hosts c) → t.harts = u.harts ∧ t.cores = u.cores) ∧
    ((∃ c, hosts c) → (∀ c, hosts c → ¬ ∀ d ∈ ds, tileReady (getCore u c) e.launch e.uid d = true) →
      t.harts = u.harts ∧ ∃ c i r x, hosts c ∧ SMap.find t.queues qk = some r ∧ r.entries = [x] ∧
        x = { e with staged := some ([c], i), tiles := some ds } ∧ i ∈ freeHarts u q e l ds c) := by
  intro t hosts
  have hdev : qk / 4096 < 8 := by rw [served_dev hm]; unfold devOf; omega
  obtain ⟨v, hv, hlook⟩ := lookAt_considered hb hl hst ht hc
  have hmem := fun p => mem_placesFor (s := u) (q := q) (e := e) (l := l) (ds := ds) hdev hr p
  have hvq : SMap.find v.queues qk = some q := by rw [hv]; exact hq
  have hvh : v.harts = u.harts := by rw [hv]
  simp only [hv.places] at hlook
  have htry : ∀ w, lookAt u dk qk q e true = (w, false) → lookAhead w dk qk none = w → t = w := by
    intro w hw hahead
    refine search_only hone hq hf (by simp [he]) ?_
    simp only [tryPosition, hq, hk, Nat.zero_ne_one, if_false, tryQueue, waiting_only he ha, hw, Bool.false_eq_true, hahead]
  refine ⟨fun hno => ?_, fun hhost hnr => ?_⟩
  · have hnil : placesFor u (qk / 4096) q e l ds = [] := List.eq_nil_iff_forall_not_mem.mpr (fun p hp => by
      obtain ⟨c, i, is, hcm, hfree, -⟩ := (hmem p).mp hp
      exact hno c ⟨hcm, by simp [hfree]⟩)
    simp only [hnil, List.filter_nil, List.isEmpty_nil, if_true, bestPlace] at hlook
    rw [modEntry_only _ hvq he] at hlook
    rw [htry _ hlook]
    · exact ⟨hvh, hv.cores⟩
    · simp only [lookAhead, SMap.find_put_same]
      rw [waiting_only (e := { e with tiles := some ds }) rfl ha]
      simp only [hst, Option.isNone_none, if_true]
  · have hfull : (placesFor u (qk / 4096) q e l ds).filter (allResident v e ds) = [] := List.filter_eq_nil_iff.mpr (fun p hp => by
      obtain ⟨c, i, is, hcm, hfree, rfl⟩ := (hmem p).mp hp
      have := hnr c ⟨hcm, by simp [hfree]⟩
      rw [hv.resident]
      simpa [allResident] using this)
    have hne : placesFor u (qk / 4096) q e l ds ≠ [] := by
      obtain ⟨c, hcm, hfree⟩ := hhost
      obtain ⟨i, is, hi⟩ := List.exists_cons_of_ne_nil hfree
      exact List.ne_nil_of_mem ((hmem ([c], i)).mpr ⟨c, i, is, hcm, hi, rfl⟩)
    obtain ⟨p, hp, hbest, -⟩ := bestPlace_spec (s := v) (dk := dk) (e := e) (ds := ds) _ hne
    obtain ⟨c, i, is, hcm, hfree, rfl⟩ := (hmem p).mp hp
    simp only [hfull, List.isEmpty_nil, if_true, hbest, Bool.not_true, Bool.and_false, Bool.false_eq_true, if_false] at hlook
    obtain ⟨hharts, hqueue⟩ := stageEntry_spec (c := c) (i := i) (l := l) (ds := ds) hvq he hord hk
    rw [htry _ hlook]
    · exact ⟨hharts.trans hvh, c, i, _, _, ⟨hcm, by simp [hfree]⟩, hqueue, rfl, rfl, by simp [hfree]⟩
    · simp only [lookAhead, hqueue]
      rw [waiting_only (e := { e with staged := some ([c], i), tiles := some ds }) rfl ha]
      simp

end Sys2Proof.Machine
end

section
/-! OBLIGATION O54. The steps of harts and tasks (R22, R232, R234, R269, R274, R282, R284, R345 to R351). -/
namespace Sys2Proof.Machine

open Sys2Proof

theorem dispatchCycle_spec (s : State) (dk : Nat) : ∃ t, exec (.dispatchCycle dk) s = .next t ∧
    (64 ≤ dk ∨ (getDev s (devOf dk)).off = true → t = s) ∧
      (dk < 64 → (getDev s (devOf dk)).off = false →
        let d := getDie s dk
        let n := (d.phase + 1000) / max 1 d.clk
        (s.queues = [] → (getDie t dk).phase = (d.phase + 1000) % max 1 d.clk ∧ ∃ k, (getDie t dk).tb = d.tb + BitVec.ofNat 64 k ∧
          (dk = 0 ∨ routed s (devOf dk) 0 = false ∨ d.slew + n < 10000 → k = n) ∧
          (k = n ∨ (k = n + 1 ∧ d.tb.toNat + n < (getDie s 0).tb.toNat) ∨
            (k = n - 1 ∧ (getDie s 0).tb.toNat < d.tb.toNat + n))) ∧
        let u := dropAll (tickDie s dk) dk
        let tb := (getDie u dk).tb.toNat
        let due (qk : Nat) (q : Queue) (e : QEntry) (l : Launch) (ds : List (List DWord)) : Prop :=
          qk ∈ servedQueues u dk ∧ SMap.find u.queues qk = some q ∧ q.kind = 0 ∧ q.ordd = false ∧ q.fenced = false ∧
          q.entries = [e] ∧ e.aside = none ∧ e.staged = none ∧ e.tiles = none ∧ beforeLead q e tb = false ∧
          SMap.find u.launches e.launch = some l ∧ entryRope l e = 0 ∧ consider u qk e l = .ok ds
        let rank (qk : Nat) := (qk % 4096 + 4095 - SMap.get 0 (getDie u dk).rr ((SMap.find u.queues qk).map Queue.prio |>.getD 0)) % 4096
        let after (qk j : Nat) : Prop := ∀ r q, SMap.find u.queues j = some r → SMap.find u.queues qk = some q →
          r.entries = [] ∨ r.fenced = true ∨ r.prio < q.prio ∨ (r.prio = q.prio ∧ rank qk < rank j) ∨
          (r.kind = 0 ∧ ∀ e es, waitingEntries r none = e :: es → e.staged = none ∧ beforeLead r e tb = true)
        let hosts (qk : Nat) (q : Queue) (e : QEntry) (l : Launch) (ds : List (List DWord)) (c : Nat) : Prop :=
          c ∈ (diesOfDev (qk / 4096)).flatMap tilesOfDie ∧ freeHarts u q e l ds c ≠ []
        let turn (c : Nat) := (coreNum c + 768 - (getDie u dk).corePtr % 768) % 768
        (∀ qk q e l, due qk q e l [] → List.Pairwise (fun i j => i % 4096 < j % 4096) (servedQueues u dk) →
          (∀ j ∈ servedQueues u dk, j ≠ qk → after qk j) → isEarly e tb = false → u.tokens = [] →
          (∃ c, hosts qk q e l [] c) → ∃ c i is k r, hosts qk q e l [] c ∧ freeHarts u q e l [] c = i :: is ∧
            (∀ b, hosts qk q e l [] b → runningOn u c < runningOn u b ∨ (runningOn u c = runningOn u b ∧ turn c ≤ turn b)) ∧
            (getHart t (c * 8 + i)).task = some k ∧ k.words = e.words ∧ k.launch = e.launch ∧ k.inst = e.inst ∧
            k.icount = e.total ∧ k.ginst = e.ginst ∧ k.queue = qk ∧ (getHart t (c * 8 + i)).st = .running ∧
            (getHart t (c * 8 + i)).pc = e.words.getD 0 0 ∧ (∀ j, j ≠ c * 8 + i → getHart t j = getHart u j) ∧
            SMap.find t.queues qk = some r ∧ r.pops = q.pops + 1 ∧
            r.entries = (if e.icount ≤ e.inst + 1 then [] else [{ e with inst := e.inst + 1, staged := none, tiles := none }]) ∧
            SMap.get 0 (getDie t dk).rr q.prio = qk % 4096 ∧ (getDie t dk).corePtr = (coreNum c + 1) % 768) ∧
        ∀ qk q e l ds, due qk q e l ds → servedQueues u dk = [qk] →
          ((∀ c, ¬ hosts qk q e l ds c) → t.harts = u.harts ∧ t.cores = u.cores) ∧
          ((∃ c, hosts qk q e l ds c) → (∀ c, hosts qk q e l ds c → ¬ ∀ d ∈ ds, tileReady (getCore u c) e.launch e.uid d = true) →
            t.harts = u.harts ∧ ∃ c i r x, hosts qk q e l ds c ∧ SMap.find t.queues qk = some r ∧ r.entries = [x] ∧
              x = { e with staged := some ([c], i), tiles := some ds } ∧ i ∈ freeHarts u q e l ds c)) := by
  refine ⟨dispatch s dk, rfl, fun h => if_pos h, fun hdk hoff => ⟨fun hq => ?_, ?_⟩⟩
  · obtain ⟨k, hk⟩ := dispatch_time hdk hoff hq
    rw [hk]
    exact tickTime_spec s dk k
  · have hdis : dispatch s dk = search dk (priorities (dropAll (tickDie s dk) dk) dk) (dropAll (tickDie s dk) dk) :=
      if_neg (by simp [hoff]; omega)
    rw [hdis]
    generalize dropAll (tickDie s dk) dk = u
    refine ⟨?_, ?_⟩
    · rintro qk q e l ⟨hm, hq, hk, -, hf, he, ha, hst, ht, hb, hl, hr, hc⟩ hs hafter hearly htok hhost
      refine search_due hdk hm hq hk hf he ha hst ht hb hl hr hc hs (fun j r hj hne hjr hent hfen hle hrank => ?_) hearly htok hhost
      rcases hafter j hj hne r q hjr hq with h | h | h | ⟨hp, hlt⟩ | ⟨hkind, hw⟩
      · exact absurd h hent
      · rw [hfen] at h
        exact absurd h (by decide)
      · omega
      · have := hrank hp
        simp only [hjr, hq, Option.map_some, Option.getD_some, hp] at hlt
        unfold turnRank at this
        omega
      · exact tryPosition_passed hjr hkind hw
    · rintro qk q e l ds ⟨hm, hq, hk, ho, hf, he, ha, hst, ht, hb, hl, hr, hc⟩ hone
      exact search_stages hdk hm hq hk ho hf he ha hst ht hb hl hr hc hone

/-- Settles O54: each step by its own rule. -/
theorem hartAndTaskSteps : Obligations.HartAndTaskSteps := by
  intro s hk ck dk q id dom v
  exact ⟨asyncTrap_spec s hk, hintStallExpiry_spec s hk,
    fun t ctx depth rstat block cs => start_spec t ctx depth rstat block cs (getHart s hk), dispatchCycle_spec s dk,
    tileResident_spec s ck id, queueRoom_spec s q, launchEnd_spec s id, fun a b al _ _ _ => blendChannel_spec a b al,
    commitRelease_spec s dom, commitPerformed_spec s id, fun c e es h => applyEntries_cons c s e es h, cancelToken_spec s id,
    preemptMessage_spec s ck v, preemptDeadline_spec s ck, fun ctx => contextReturn_spec s ck ctx, startMessage_spec s hk v,
    wakeMessage_spec s hk⟩

end Sys2Proof.Machine
end
